-- ==== Sys2Proof/Word.lean ====
section
/-! DEFINITION. The widths the manual names and the operand records of the commands: who issues a
bundle, the slot formats of R38, R74, R101, R116 and R153, the arguments of a host command (R278)
and a link flit (R223). -/

namespace Sys2Proof

/-- A byte of scratchpad, stack, sequencer memory or a window. -/
abbrev Byte := BitVec 8
/-- A slot of a bundle, a vector lane, a sequencer word (R33, R36, R60). -/
abbrev W32 := BitVec 32
/-- A scalar register or a register of the register tables. -/
abbrev W64 := BitVec 64
/-- A fabric address (R29). -/
abbrev FAddr := BitVec 48

/-- Who executes a control-slot instruction: a logical core, by core number (R18), or the sequencer
of a panel, by panel index py x 8 + px (R60). -/
inductive Agent where
  | core (n : Nat)
  | seq (p : Nat)
deriving DecidableEq, Repr

/-- The issue of one slot instruction: the agent, and the raw words of the three other slots of its
bundle in the order C, M, V, S with the instruction's own slot left out (R33). A sequencer word has
no other slots; the three words are then zero. -/
structure Site where
  agent : Agent
  w1 : W32
  w2 : W32
  w3 : W32
deriving DecidableEq, Repr

/-- The four raw slot words of a bundle (R33). -/
structure Bundle where
  c : W32
  m : W32
  v : W32
  s : W32
deriving DecidableEq, Repr

/-! Control-slot formats (R38). -/

/-- Format CR. -/
structure CR where
  d : BitVec 5
  a : BitVec 5
  b : BitVec 5
  f : BitVec 9
deriving DecidableEq, Repr

/-- Format CI. -/
structure CI where
  d : BitVec 5
  a : BitVec 5
  imm : BitVec 14
deriving DecidableEq, Repr

/-- Format CU. -/
structure CU where
  d : BitVec 5
  imm : BitVec 19
deriving DecidableEq, Repr

/-- Format CB. -/
structure CB where
  sense : BitVec 1
  p : BitVec 3
  off : BitVec 20
deriving DecidableEq, Repr

/-- Format CM. -/
structure CM where
  t : BitVec 5
  base : BitVec 4
  size : BitVec 2
  off : BitVec 13
deriving DecidableEq, Repr

/-- Format CQ. -/
structure CQ where
  q : BitVec 4
  a : BitVec 4
  s : BitVec 5
  size : BitVec 2
  z : BitVec 9
deriving DecidableEq, Repr

/-- Format CL of LOOP. -/
structure CLoop where
  s : BitVec 5
  z : BitVec 7
  body : BitVec 12
deriving DecidableEq, Repr

/-- Format CL of LOOPI. -/
structure CLoopI where
  count : BitVec 12
  body : BitVec 12
deriving DecidableEq, Repr

/-- Format CE. -/
structure CE where
  s : BitVec 5
  kind : BitVec 3
  arg : BitVec 8
  pd : BitVec 3
  saveOk : BitVec 1
  z : BitVec 4
deriving DecidableEq, Repr

/-! Matrix-slot fields (R74, R116). -/

structure McfgF where
  arr : BitVec 1
  srs : BitVec 1
  z : BitVec 22
deriving DecidableEq, Repr

structure MseedF where
  arr : BitVec 1
  s : BitVec 5
  z : BitVec 18
deriving DecidableEq, Repr

structure MldwF where
  arr : BitVec 1
  wf : BitVec 3
  af : BitVec 3
  aw : BitVec 4
  asc : BitVec 4
  z : BitVec 9
deriving DecidableEq, Repr

structure MmulF where
  arr : BitVec 1
  t : BitVec 5
  rows : BitVec 9
  sw : BitVec 1
  ax : BitVec 4
  asc : BitVec 4
deriving DecidableEq, Repr

structure MpreF where
  arr : BitVec 1
  t : BitVec 5
  n : BitVec 5
  kind : BitVec 1
  pf : BitVec 1
  src : BitVec 4
  z : BitVec 7
deriving DecidableEq, Repr

/-- MCLR and MSPILL: a run of tiles. -/
structure MtilesF where
  arr : BitVec 1
  t : BitVec 5
  n : BitVec 5
  z : BitVec 13
deriving DecidableEq, Repr

structure MdrainF where
  arr : BitVec 1
  t : BitVec 5
  fmt : BitVec 3
  rnd : BitVec 1
  w : BitVec 1
  cl : BitVec 1
  gc : BitVec 1
  ad : BitVec 4
  z : BitVec 7
deriving DecidableEq, Repr

/-- MGRP, whose op bit [19] is 1 in MGRP_OPEN and 0 in MGRP_CLOSE. -/
structure MgrpF where
  arr : BitVec 1
  g : BitVec 3
  t : BitVec 5
  n : BitVec 5
  tab : BitVec 4
  z : BitVec 5
deriving DecidableEq, Repr

structure MldsF where
  arr : BitVec 1
  wf : BitVec 3
  af : BitVec 3
  aw : BitVec 4
  am : BitVec 4
  asc : BitVec 4
  nm : BitVec 1
  z : BitVec 4
deriving DecidableEq, Repr

structure SmulF where
  arr : BitVec 1
  t : BitVec 5
  ax : BitVec 4
  ai : BitVec 4
  sw : BitVec 1
  cnt : BitVec 8
  z : BitVec 1
deriving DecidableEq, Repr

structure MdrsF where
  arr : BitVec 1
  t : BitVec 5
  fmt : BitVec 3
  rnd : BitVec 1
  w : BitVec 1
  cl : BitVec 1
  gc : BitVec 1
  nm : BitVec 1
  ad : BitVec 4
  am : BitVec 4
  z : BitVec 2
deriving DecidableEq, Repr

structure SmrgF where
  arr : BitVec 1
  t : BitVec 5
  cl : BitVec 1
  ad : BitVec 4
  ar : BitVec 4
  str : BitVec 9
deriving DecidableEq, Repr

structure ScmpF where
  arr : BitVec 1
  wf : BitVec 3
  nm : BitVec 1
  src : BitVec 4
  msk : BitVec 4
  ad : BitVec 4
  adm : BitVec 4
  z : BitVec 3
deriving DecidableEq, Repr

structure StrwF where
  arr : BitVec 1
  nm : BitVec 1
  asrc : BitVec 4
  asm : BitVec 4
  ad : BitVec 4
  adm : BitVec 4
  z : BitVec 6
deriving DecidableEq, Repr

/-! Vector-slot fields (R101). -/

/-- VLD and VST. -/
structure VmemF where
  r : BitVec 5
  a : BitVec 4
  es : BitVec 2
  k : BitVec 3
  off : BitVec 10
deriving DecidableEq, Repr

structure VbcF where
  vd : BitVec 5
  s : BitVec 5
  sel : BitVec 1
  z : BitVec 13
deriving DecidableEq, Repr

structure VextF where
  d : BitVec 5
  va : BitVec 5
  lane : BitVec 6
  pd : BitVec 3
  z : BitVec 5
deriving DecidableEq, Repr

structure VldcF where
  c : BitVec 3
  a : BitVec 4
  off : BitVec 17
deriving DecidableEq, Repr

structure VseedF where
  s : BitVec 5
  z : BitVec 19
deriving DecidableEq, Repr

structure VqrdF where
  vd : BitVec 5
  q : BitVec 4
  z : BitVec 15
deriving DecidableEq, Repr

structure VqwrF where
  vs : BitVec 5
  q : BitVec 4
  k : BitVec 3
  z : BitVec 12
deriving DecidableEq, Repr

/-- VCH; k is the opcode less 0x10. -/
structure VchF where
  k : BitVec 3
  id : BitVec 7
  vd : BitVec 5
  va : BitVec 5
  vb : BitVec 5
  gc : BitVec 1
  cp : BitVec 1
deriving DecidableEq, Repr

/-! Stream-slot fields (R153). -/

structure SqcfgF where
  q : BitVec 4
  a : BitVec 4
  off : BitVec 16
deriving DecidableEq, Repr

structure SqcntF where
  d : BitVec 5
  q : BitVec 4
  z : BitVec 15
deriving DecidableEq, Repr

/-- SHEAD and STAIL. -/
structure SaddrF where
  ad : BitVec 4
  q : BitVec 4
  z : BitVec 16
deriving DecidableEq, Repr

/-- SPOP and SPUSH. -/
structure SqF where
  q : BitVec 4
  z : BitVec 20
deriving DecidableEq, Repr

structure SlistF where
  l : BitVec 2
  a : BitVec 4
  z : BitVec 18
deriving DecidableEq, Repr

structure SlstopF where
  l : BitVec 2
  z : BitVec 22
deriving DecidableEq, Repr

structure SlstatF where
  d : BitVec 5
  l : BitVec 2
  z : BitVec 17
deriving DecidableEq, Repr

/-! Host, register and link operands. -/

/-- The tag and the eight arguments that the host writes before CMD_OP (R278). -/
structure Cmd where
  tag : BitVec 8
  a0 : W64
  a1 : W64
  a2 : W64
  a3 : W64
  a4 : W64
  a5 : W64
  a6 : W64
  a7 : W64
deriving DecidableEq, Repr

/-- Who accesses a register: the host, or the sequencer of a panel (R139, R248). -/
inductive Source where
  | host
  | seq (p : Nat)
deriving DecidableEq, Repr

/-- What an access of a register names: its address and its size in bytes (R4, R269). -/
structure Access where
  addr : Nat
  size : Nat
deriving DecidableEq, Repr

/-- What a machine check reports (R328): the panel, the site, and whether its router has failed or its core. -/
structure CheckReport where
  panel : Nat
  site : Nat
  router : Bool
deriving DecidableEq, Repr

/-- The JTAG instructions (R377); other is every other instruction code. -/
inductive JtagCode where
  | idcode
  | bypass
  | samplePreload
  | extest
  | dbgacc
  | other
deriving DecidableEq, Repr

/-- A link flit (R223): the header fields and the 240 payload bytes. -/
structure Flit where
  vc : BitVec 2
  seq : BitVec 12
  ack : BitVec 12
  credit : BitVec 8
  creditVc : BitVec 2
  redOp : BitVec 2
  redFmt : BitVec 1
  nf : BitVec 1
  poison : BitVec 1
  zero : BitVec 3
  job : BitVec 16
  step : W32
  crc : W32
  payload : List Byte
deriving DecidableEq, Repr

end Sys2Proof
end

