-- ==== Sys2Proof/Syntax.lean ====
section
/-! DEFINITION. The commands of the block: one constructor per row of spec/opcode_table.json, in its
order, each with the operands of the step it stands for (95_what_each_step_holds.md: each row is one
whole, indivisible step of the part). -/

namespace Sys2Proof

/-- The 288 commands. `n` is a core number (R18), `p` a panel index py x 8 + px, `o` a port, `k` a
partition or context, `l` a descriptor list, `pid` a packet in flight, `tag` an outstanding entry. -/
inductive Instr where
  /-- ADD (R39). Control-slot ADD writes the sum of two scalar registers. -/
  | add (w : Site) (i : CR)
  /-- SUB (R39). Control-slot SUB writes the difference of two scalar registers. -/
  | sub (w : Site) (i : CR)
  /-- AND (R39). Control-slot AND writes the bitwise AND of two scalar registers. -/
  | andS (w : Site) (i : CR)
  /-- OR (R39). Control-slot OR writes the bitwise OR of two scalar registers. -/
  | orS (w : Site) (i : CR)
  /-- XOR (R39). Control-slot XOR writes the bitwise XOR of two scalar registers. -/
  | xorS (w : Site) (i : CR)
  /-- SHL (R39). Control-slot SHL shifts a scalar left by b[5:0]. -/
  | shl (w : Site) (i : CR)
  /-- SHR (R39). Control-slot SHR shifts a scalar right logically by b[5:0]. -/
  | shr (w : Site) (i : CR)
  /-- SRA (R39). Control-slot SRA shifts a scalar right arithmetically by b[5:0]. -/
  | sra (w : Site) (i : CR)
  /-- MIN (R39). Control-slot MIN writes the signed or unsigned minimum of two scalars. -/
  | minS (w : Site) (i : CR)
  /-- MAX (R39). Control-slot MAX writes the signed or unsigned maximum of two scalars. -/
  | maxS (w : Site) (i : CR)
  /-- MUL (R39). Control-slot MUL writes the low 64 bits of a product with latency 3. -/
  | mul (w : Site) (i : CR)
  /-- MULH (R39). Control-slot MULH writes the signed high 64 bits of a product. -/
  | mulh (w : Site) (i : CR)
  /-- CMP (R39). Control-slot CMP writes a predicate from a comparison selected by f. -/
  | cmp (w : Site) (i : CR)
  /-- SEL (R39). Control-slot SEL selects one of two scalars by a predicate. -/
  | sel (w : Site) (i : CR)
  /-- ADDI (R39). Control-slot ADDI adds a sign-extended 14-bit immediate. -/
  | addi (w : Site) (i : CI)
  /-- ANDI (R39). Control-slot ANDI ANDs a zero-extended 14-bit immediate. -/
  | andi (w : Site) (i : CI)
  /-- LUI (R39). Control-slot LUI loads a sign-extended 19-bit immediate shifted left by 14. -/
  | lui (w : Site) (i : CU)
  /-- ORI (R39). Control-slot ORI ORs a zero-extended 14-bit immediate. -/
  | ori (w : Site) (i : CI)
  /-- AMOV (R39). AMOV copies scalar bits [47:0] into an address register. -/
  | amov (w : Site) (i : CR)
  /-- AGET (R39). AGET zero-extends an address register into a scalar. -/
  | aget (w : Site) (i : CR)
  /-- AADD (R39). AADD adds a scalar to an address register modulo 2^48. -/
  | aadd (w : Site) (i : CR)
  /-- AADDI (R39). AADDI adds a sign-extended immediate to an address register modulo 2^48. -/
  | aaddi (w : Site) (i : CI)
  /-- AFORM (R39). AFORM builds a space-00 scratchpad address from cy, cx and an offset. -/
  | aform (w : Site) (i : CR)
  /-- KMOV (R39). KMOV copies a scalar into a lane mask register, refusing k0. -/
  | kmov (w : Site) (i : CR)
  /-- KGET (R39). KGET copies a lane mask into a scalar. -/
  | kget (w : Site) (i : CR)
  /-- KTAIL (R39). KTAIL sets a mask with ones in lanes 0 to min(s,64)-1. -/
  | ktail (w : Site) (i : CR)
  /-- KOP (R39). KOP combines two lane masks by AND, OR, XOR or ANDN. -/
  | kop (w : Site) (i : CR)
  /-- POP (R39). POP combines predicates by a logical operation. -/
  | pop (w : Site) (i : CR)
  /-- LD (R40). LD loads a scalar from scratchpad with near or far latency, or from sequencer memory. -/
  | ld (w : Site) (i : CM)
  /-- ST (R40). ST stores a scalar to scratchpad or sequencer memory as a narrow write. -/
  | st (w : Site) (i : CM)
  /-- LDF (R41). LDF reserves an LDF slot entry and sends a fabric read request. -/
  | ldf (w : Site) (i : CQ)
  /-- STF (R41). STF pushes an address and data into an STF slot for a posted store. -/
  | stf (w : Site) (i : CQ)
  /-- SRD (R41). SRD reads the next 8-byte entry of a slot into a scalar, raising the entry's status exception. -/
  | srd (w : Site) (i : CQ)
  /-- SWR (R149). SWR pushes a scalar as an 8-byte entry into an OUT slot. -/
  | swr (w : Site) (i : CQ)
  /-- BR (R42). BR branches by off20 after two delay bundles if the predicate matches sense. -/
  | br (w : Site) (i : CB)
  /-- JMP (R42). JMP branches unconditionally by off20 after two delay bundles. -/
  | jmp (w : Site) (i : CB)
  /-- JR (R42). JR branches to the bundle index held in a scalar. -/
  | jr (w : Site) (i : CR)
  /-- LOOP (R43). LOOP opens a hardware loop level with a count from a scalar. -/
  | loop (w : Site) (i : CLoop)
  /-- LOOPI (R43). LOOPI opens a hardware loop level with an immediate count. -/
  | loopi (w : Site) (i : CLoopI)
  /-- WAIT (R49). WAIT waits with the clock running for an event or a tick timeout. -/
  | wait (w : Site) (i : CE)
  /-- WAIT_COMPLETE (R49). A WAIT completes when its event occurs or its timeout expires, writing pd. -/
  | waitComplete (n : Nat)
  /-- REST (R51). REST declares a horizon and wake event and enters the deepest allowed core state once results retire. -/
  | rest (w : Site) (i : CE)
  /-- REST_STATE_ENTRY (R302). Once earlier results retire, the core chooses IDLE or DOZE from learned costs and enters it. -/
  | restStateEntry (n : Nat)
  /-- CORE_WAKE (R303). A resting core wakes on its event or horizon expiry and returns to RUN, updating W for DOZE. -/
  | coreWake (n : Nat)
  /-- YIELD (R55). YIELD is a context boundary at which a pending switch is made. -/
  | yield (w : Site) (i : CR)
  /-- END (R55). END ends the context, which becomes EMPTY after its outstanding work completes. -/
  | endC (w : Site) (i : CR)
  /-- SIG (R61). SIG sets a sequencer flag of the core's panel. -/
  | sig (w : Site) (i : CR)
  /-- ARRIVE (R61). ARRIVE adds 1 to a sequencer barrier counter. -/
  | arrive (w : Site) (i : CR)
  /-- MFC (R40). MFC reads a control register such as CYCLE, ISSUE, TICK or SCRATCH. -/
  | mfc (w : Site) (i : CR)
  /-- MTC (R40). MTC writes the SCRATCH control register. -/
  | mtc (w : Site) (i : CR)
  /-- RESULT_RETIRE (R34). A fixed-latency result retires into its register L issue cycles after issue. -/
  | resultRetire (n : Nat)
  /-- INTERLOCK_RELEASE (R45). A bundle held at the slot, drain or refresh interlock issues all slots once every interlock releases. -/
  | interlockRelease (n : Nat)
  /-- LATE_EXCEPTION (R58). An exception detected when data reach the core stops the context at that issue cycle. -/
  | lateException (n : Nat)
  /-- CONTEXT_BOUNDARY_SWITCH (R55). After outstanding work completes at a boundary, the context is saved and a pending switch restores another. -/
  | contextBoundarySwitch (n : Nat)
  /-- POSTED_STORE_FAULT (R41). A posted store completes unserved, setting post_fault for the next WAIT POSTED, YIELD or END. -/
  | postedStoreFault (pid : Nat)
  /-- LAUNCH (R62). Sequencer LAUNCH launches a context on a core set with arguments from its registers. -/
  | launch (p : Nat) (i : CR)
  /-- CSWITCH (R62). CSWITCH marks a context switch pending on a core set, made at once on idle cores. -/
  | cswitch (p : Nat) (i : CR)
  /-- CSTOP (R62). CSTOP stops a context on a core set at once as a CONTEXT-level reset. -/
  | cstop (p : Nat) (i : CR)
  /-- XWAKE (R62). XWAKE sends event kind 4 to a core set, latching pending XWAKE. -/
  | xwake (p : Nat) (i : CR)
  /-- FSET (R62). FSET sets a sequencer flag. -/
  | fset (p : Nat) (i : CR)
  /-- FCLR (R62). FCLR clears a sequencer flag. -/
  | fclr (p : Nat) (i : CR)
  /-- FWAIT (R62). FWAIT waits until a sequencer flag is set. -/
  | fwait (p : Nat) (i : CR)
  /-- BARRIER (R62). BARRIER waits for a counter to reach a value, subtracts it and sets a flag. -/
  | barrier (p : Nat) (i : CR)
  /-- SEQ_WAIT_END (R60). A sequencer wait ends within 64 cycles after its condition holds. -/
  | seqWaitEnd (p : Nat)
  /-- PREST (R64). PREST waits for every core to rest or be idle, then enters the deepest allowed panel state. -/
  | prest (p : Nat) (i : CE)
  /-- PANEL_REST_ENTRY (R302). Once PREST's wait condition holds the panel chooses ACTIVE, NAP or SLEEP and enters it, saving contexts for SLEEP. -/
  | panelRestEntry (p : Nat)
  /-- PANEL_WAKE (R303). A resting panel wakes on its event, horizon or a device cause, restores contexts and updates W. -/
  | panelWake (p : Nat)
  /-- STEP_BEGIN (R250). STEP_BEGIN records the frog point and waits for the partition to arrive and leave HOLD. -/
  | stepBegin (p : Nat) (i : CR)
  /-- STEP_OPEN (R250). When every panel has arrived, the previous step is recorded applied, record n written BEGUN, flags cleared and snapshots taken. -/
  | stepOpen (k : Nat)
  /-- STEP_END (R63). STEP_END samples the panel flag after 32 cycles and waits for the commit decision. -/
  | stepEnd (p : Nat) (i : CR)
  /-- PANEL_FLAG_SAMPLE (R108). The sequencer samples the panel flag 32 cycles after STEP_END issues. -/
  | panelFlagSample (p : Nat)
  /-- WDOG (R62). WDOG re-arms the sequencer watchdog with a period in ticks. -/
  | wdog (p : Nat) (i : CR)
  /-- CWAIT (R62). CWAIT waits until a context is EMPTY or FAULTED on every core of a set. -/
  | cwait (p : Nat) (i : CR)
  /-- WATCHDOG_EXPIRE (R65). The sequencer watchdog countdown reaches zero and raises a watchdog reset. -/
  | watchdogExpire (p : Nat)
  /-- MCFG (R74). MCFG sets the running-sum rounding of an array. -/
  | mcfg (w : Site) (i : McfgF)
  /-- MSEED (R73). MSEED seeds an array's column generators from a scalar. -/
  | mseed (w : Site) (i : MseedF)
  /-- MLDW (R76). MLDW loads a dense weight tile and scales into the shadow over 16 or 24 cycles. -/
  | mldw (w : Site) (i : MldwF)
  /-- SHADOW_PART_WRITE (R76). A part of a weight tile is read and written into the shadow in its cycle after issue. -/
  | shadowPartWrite (n : Nat) (arr : Nat)
  /-- MMUL (R77). MMUL streams activation rows through the active tile, optionally swapping the shadow in. -/
  | mmul (w : Site) (i : MmulF)
  /-- ACCUMULATE_ROW (R70). An output row is added into its accumulator row 20 cycles after its input cycle. -/
  | accumulateRow (n : Nat) (arr : Nat)
  /-- MPRE (R82). MPRE preloads tiles with a bias row or residual rows. -/
  | mpre (w : Site) (i : MpreF)
  /-- MCLR (R77). MCLR sets tiles to +0.0 and clears their poison. -/
  | mclr (w : Site) (i : MtilesF)
  /-- MDRAIN (R88). MDRAIN queues a drain of one tile, converted to an output format, into scratchpad. -/
  | mdrain (w : Site) (i : MdrainF)
  /-- MSPILL (R86). MSPILL queues spills of tiles into their binary64 wide sums. -/
  | mspill (w : Site) (i : MtilesF)
  /-- MGRP_OPEN (R84). MGRP with op 1 opens an accumulation group from its scratchpad entry. -/
  | mgrpOpen (w : Site) (i : MgrpF)
  /-- MGRP_CLOSE (R84). MGRP with op 0 writes count back and closes a group. -/
  | mgrpClose (w : Site) (i : MgrpF)
  /-- DRAIN_OP_START (R87). A queued drain-unit operation starts its read phase once it heads the queue, the unit is free and its tile's writes have landed. -/
  | drainOpStart (n : Nat) (arr : Nat)
  /-- DRAIN_OP_EMIT_DONE (R87). A drain-unit operation finishes writing its results and frees the unit. -/
  | drainOpEmitDone (n : Nat) (arr : Nat)
  /-- MLDS (R117). MLDS loads a compacted N:M tile with metadata and scales into the shadow. -/
  | mlds (w : Site) (i : MldsF)
  /-- SMUL (R123). SMUL streams a chunk of gathered rows, adding each by row id into indexed tiles. -/
  | smul (w : Site) (i : SmulF)
  /-- MDRS (R120). MDRS queues a drain of a tile compacted through metadata. -/
  | mdrs (w : Site) (i : MdrsF)
  /-- SMRG (R124). SMRG queues a scatter-add of a tile's rows into scratchpad rows by id. -/
  | smrg (w : Site) (i : SmrgF)
  /-- SCMP (R121). SCMP queues compaction of a dense region through a mask bitmap. -/
  | scmp (w : Site) (i : ScmpF)
  /-- STRW (R119). STRW queues a transpose of a compacted 16-bit block. -/
  | strw (w : Site) (i : StrwF)
  /-- VLD (R102). VLD loads unmasked lanes of a vector register from scratchpad. -/
  | vld (w : Site) (i : VmemF)
  /-- VST (R102). VST stores unmasked lanes of a vector register to scratchpad. -/
  | vst (w : Site) (i : VmemF)
  /-- VBC (R101). VBC broadcasts half of a scalar to every lane. -/
  | vbc (w : Site) (i : VbcF)
  /-- VEXT (R101). VEXT extracts one lane into a scalar and reports its poison. -/
  | vext (w : Site) (i : VextF)
  /-- VLDC (R102). VLDC loads 32 bytes into a chain descriptor register. -/
  | vldc (w : Site) (i : VldcF)
  /-- VSEED (R106). VSEED seeds the lane generators from a scalar. -/
  | vseed (w : Site) (i : VseedF)
  /-- VQRD (R101). VQRD reads the next 256-byte slot entry into a vector register. -/
  | vqrd (w : Site) (i : VqrdF)
  /-- VQWR (R101). VQWR pushes a vector register as a 256-byte slot entry. -/
  | vqwr (w : Site) (i : VqwrF)
  /-- VCH (R92). VCH runs a library or descriptor chain under a lane mask, possibly gated and gradient class. -/
  | vch (w : Site) (i : VchF)
  /-- LANE_GENERATOR_ADVANCE (R106). Free-running lane and column generators advance once per active panel cycle. -/
  | laneGeneratorAdvance (p : Nat)
  /-- SQCFG (R152). SQCFG configures a slot from scratchpad and resets its counters. -/
  | sqcfg (w : Site) (i : SqcfgF)
  /-- SQCNT (R153). SQCNT reads a slot's done and free entry counts. -/
  | sqcnt (w : Site) (i : SqcntF)
  /-- SHEAD (R153). SHEAD returns the address of an IN slot's head entry. -/
  | shead (w : Site) (i : SaddrF)
  /-- SPOP (R150). SPOP removes the head entry of an IN slot. -/
  | spop (w : Site) (i : SqF)
  /-- STAIL (R153). STAIL returns the address of an OUT slot's tail entry. -/
  | stail (w : Site) (i : SaddrF)
  /-- SPUSH (R150). SPUSH completes the tail entry of an OUT slot. -/
  | spush (w : Site) (i : SqF)
  /-- SLIST (R154). SLIST starts a descriptor list from its control block. -/
  | slist (w : Site) (i : SlistF)
  /-- SLSTOP (R154). SLSTOP ends issue of a list and moves it to STOPPING. -/
  | slstop (w : Site) (i : SlstopF)
  /-- SLSTAT (R153). SLSTAT reads bytes 0-7 of a list's live control state. -/
  | slstat (w : Site) (i : SlstatF)
  /-- LIST_STOPPED (R154). A STOPPING list becomes IDLE once its issued requests complete. -/
  | listStopped (n : Nat) (k : Nat) (l : Nat)
  /-- DESC_END (R156). An END descriptor makes its list DONE. -/
  | descEnd (n : Nat) (l : Nat)
  /-- DESC_COPY (R156). A COPY descriptor moves rows between fabric addresses or slots, possibly transformed or as a reduction send. -/
  | descCopy (n : Nat) (l : Nat)
  /-- DESC_GATHER (R156). A GATHER descriptor moves rows selected by an index list. -/
  | descGather (n : Nat) (l : Nat)
  /-- DESC_STITCH (R159). A STITCH descriptor passes if its flag is set or puts the list AT_MARKER. -/
  | descStitch (n : Nat) (l : Nat)
  /-- MARKER_PASS (R159). A list at a marker passes it within 8 cycles after its flag is set. -/
  | markerPass (n : Nat) (l : Nat)
  /-- DESC_SIGNAL (R156). A SIGNAL descriptor arms a flag set once earlier descriptors complete. -/
  | descSignal (n : Nat) (l : Nat)
  /-- SIGNAL_FIRE (R156). When every earlier descriptor of the list completes, the SIGNAL sets its flag. -/
  | signalFire (n : Nat) (l : Nat)
  /-- DESC_LINK (R156). A LINK descriptor continues the list at another offset. -/
  | descLink (n : Nat) (l : Nat)
  /-- ENGINE_REQUEST_ISSUE (R160). The stream engine issues one request of up to 512 bytes when fewer than 64 are outstanding. -/
  | engineRequestIssue (n : Nat) (l : Nat)
  /-- REPLY_LANDING (R161). A reply lands in scratchpad or a slot entry, with poison and stale checks, possibly completing an entry or descriptor. -/
  | replyLanding (n : Nat) (tag : Nat)
  /-- STF_ENTRY_SEND (R149). The engine sends a completed STF slot entry as a posted store. -/
  | stfEntrySend (n : Nat) (q : Nat)
  /-- WRITE_ACKNOWLEDGE (R156). A write acknowledgement arrives, completing a write descriptor or posted store. -/
  | writeAcknowledge (pid : Nat)
  /-- REQUEST_RETRY (R165). A request refused REFUSED_FULL is retried after its backoff expires: core `who`'s, or with none
the control die's for the host (R270). -/
  | requestRetry (who : Option Nat) (tag : Nat)
  /-- HUB_REQUEST_ARRIVAL (R163). A stack request arrives at a hub and is tracked or refused REFUSED_FULL. -/
  | hubRequestArrival (pid : Nat)
  /-- HUB_GRANT (R162). The hub grants one 512-byte unit to the oldest request within share, or the oldest waiting. -/
  | hubGrant (p : Nat)
  /-- REMOTE_REQUEST (R32). A request arrives at a target and is checked in the order of R32 and served or answered. -/
  | remoteRequest (pid : Nat)
  /-- REPLY_ARRIVAL (R192). A reply arrives at a requester and is accepted or discarded for a stale epoch. -/
  | replyArrival (pid : Nat)
  /-- MESH_FORWARD (R178). A router, seam, crossbar or bridge forwards a packet by its route class. -/
  | meshForward (pid : Nat)
  /-- REDUCTION_COMBINE (R188). When all expected inputs carry the same element, a router adds them in fixed order and forwards the sum. -/
  | reductionCombine (n : Nat) (r : Nat)
  /-- BROADCAST_DELIVERY (R190). A broadcast packet spreads over the tree and cores in its rectangle take copies. -/
  | broadcastDelivery (pid : Nat) (n : Nat)
  /-- EPOCH_NOTICE (R192). A changed epoch travels to every hub and the block is released once all acknowledge. -/
  | epochNotice (i : Nat)
  /-- ROUTE_TABLE_UPDATE (R183). The command processor recomputes route tables and the broadcast tree after a panel change. -/
  | routeTableUpdate
  /-- ROUTE_TABLE_ARRIVAL (R184). A new table reaches a hub or router and held packets are routed again. -/
  | routeTableArrival (p : Nat)
  /-- CORRECTION_WRITE_BACK (R134). A corrected scratchpad line is written back within 64 cycles unless a write came first. -/
  | correctionWriteBack (n : Nat) (line : Nat)
  /-- SPD_REGION_WRITE (R139). A write to a region register is applied or refused WRONG_STATE or BAD_ARGUMENT. -/
  | spdRegionWrite (src : Source) (n : Nat) (r : Nat) (v : W64)
  /-- FAB_RED_WRITE (R186). A write to a reduction entry is applied or refused. -/
  | fabRedWrite (src : Source) (n : Nat) (r : Nat) (v : W64)
  /-- SCRATCHPAD_ZEROIZATION (R143). A core's whole scratchpad, marks and region registers are zeroized. -/
  | scratchpadZeroization (n : Nat)
  /-- STACK_SECTOR_REWRITE (R201). A corrected stack sector is rewritten within 10 µs unless a write came first. -/
  | stackSectorRewrite (p : Nat)
  /-- READ_MERGE (R204). A narrow stack write reads, decrypts, merges, re-encrypts and writes back its unit. -/
  | readMerge (p : Nat)
  /-- PATROL_SCRUB_READ (R205). Every interval ticks patrol scrub reads and decides one unit. -/
  | patrolScrubRead (p : Nat)
  /-- STACK_FILL (R392). After an initialising bring-up the stack interface fills every sector with zeros and then starts scrub. -/
  | stackFill (p : Nat)
  /-- STACK_FILL_DONE (R392). The stack fill ends and patrol scrub starts at offset 0. -/
  | stackFillDone (p : Nat)
  /-- MIRROR_WRITE (R209). The primary sends a mirrored write to the partner, acknowledged when both copies are accepted. -/
  | mirrorWrite (p : Nat)
  /-- MIRROR_REBUILD (R210). A returning mirrored panel rebuilds both ranges from the survivor before serving requests. -/
  | mirrorRebuild (p : Nat)
  /-- MIRROR_REBUILD_DONE (R210). The rebuild ends and mirror_lost clears. -/
  | mirrorRebuildDone (p : Nat)
  /-- STACK_POWER_DOWN (R211). An active stack enters power-down after 1 µs without a request. -/
  | stackPowerDown (p : Nat)
  /-- PAGE_RETIRE_DONE (R206). A page retirement copies the page to a spare, writes the entry and releases held requests. -/
  | pageRetireDone (p : Nat)
  /-- LANE_FAIL (R222). A lane loses signal, lock or exceeds its corrected-symbol count and is spared, dropped or fails the port. -/
  | laneFail (o : Nat) (lane : Nat)
  /-- LANE_SWITCH (R222). Both sides switch the failed lane's symbols at an agreed codeword boundary. -/
  | laneSwitch (o : Nat)
  /-- CODEWORD_RECEIVE (R220). An RS(544,514) codeword is decoded, discarding overlapping flits if uncorrectable. -/
  | codewordReceive (o : Nat) (errs : List (Nat × BitVec 10)) (flits : Nat)
  /-- FLIT_IDLE (R223). An IDLE flit delivers acks and credits. -/
  | flitIdle (o : Nat) (fl : Flit)
  /-- FLIT_DATA (R230). A DATA flit is delivered in order to its channel and consumed by an entry. -/
  | flitData (o : Nat) (fl : Flit)
  /-- FLIT_DATA_END (R230). A DATA_END flit ends a message, which its entry lands, reduces or relays. -/
  | flitDataEnd (o : Nat) (fl : Flit)
  /-- FLIT_COMMIT (R236). A COMMIT flit arrives and is held, forwarded, discarded or returns to its origin. -/
  | flitCommit (o : Nat) (fl : Flit)
  /-- FLIT_VOID (R239). A VOID flit voids the step or updates the down bit, or is discarded. -/
  | flitVoid (o : Nat) (fl : Flit)
  /-- FLIT_REJOIN (R241). A REJOIN flit updates the proposal and ends flushing of old data. -/
  | flitRejoin (o : Nat) (fl : Flit)
  /-- FLIT_LANE (R222). A LANE flit agrees a lane switch. -/
  | flitLane (o : Nat) (fl : Flit)
  /-- FLIT_IDENT (R226). An IDENT flit carries the peer identity during training. -/
  | flitIdent (o : Nat) (fl : Flit)
  /-- FLIT_RESERVED (R223). A flit of a reserved kind is discarded and counted. -/
  | flitReserved (o : Nat) (kind : BitVec 4) (fl : Flit)
  /-- REPLAY (R224). The sender replays go-back-N from the oldest unacknowledged flit. -/
  | replay (o : Nat)
  /-- REPLAY_TIMEOUT (R224). 200 ticks pass with unacknowledged flits and a replay starts. -/
  | replayTimeout (o : Nat)
  /-- LINK_SIGNAL_LOSS (R226). No decodable codeword for 1,000 ticks takes the port DOWN. -/
  | linkSignalLoss (o : Nat)
  /-- RETRAIN_ATTEMPT (R226). A DOWN port starts a retrain every 100,000 ticks. -/
  | retrainAttempt (o : Nat)
  /-- TRAINING_COMPLETE (R226). Training ends UP, MISMATCH or DOWN after equalisation and identity exchange. -/
  | trainingComplete (o : Nat)
  /-- TRAINING_TIMEOUT (R226). Training not complete within 50 ms ends DOWN. -/
  | trainingTimeout (o : Nat)
  /-- PORT_ABSENT (R217). A port becomes ABSENT when a panel is lost, in reset or OFF. -/
  | portAbsent (o : Nat)
  /-- POST_SEND (R229). Writing LNK_POST3 with op SEND posts a SEND entry. -/
  | postSend (src : Source) (o : Nat) (w0 : W64) (w1 : W64) (w2 : W64) (w3 : W64)
  /-- POST_RECV (R229). Writing LNK_POST3 with op RECV posts a RECV entry. -/
  | postRecv (src : Source) (o : Nat) (w0 : W64) (w1 : W64) (w2 : W64) (w3 : W64)
  /-- POST_REDUCE (R229). Writing LNK_POST3 with op REDUCE posts a REDUCE entry. -/
  | postReduce (src : Source) (o : Nat) (w0 : W64) (w1 : W64) (w2 : W64) (w3 : W64)
  /-- POST_RELAY (R229). Writing LNK_POST3 with op RELAY posts a RELAY entry. -/
  | postRelay (src : Source) (o : Nat) (w0 : W64) (w1 : W64) (w2 : W64) (w3 : W64)
  /-- ENTRY_COMPLETE (R230). A port entry completes and sets its flag, recording any non-OK status. -/
  | entryComplete (o : Nat) (vc : Nat)
  /-- ADDEND_READ_RETRY (R233). A port stack request refused REFUSED_FULL is retried after its backoff. -/
  | addendReadRetry (o : Nat) (vc : Nat)
  /-- REDUCE_GAP_TIMEOUT (R237). No reduce flit for timeout ticks after a message began voids the step. -/
  | reduceGapTimeout (o : Nat)
  /-- COMMIT_TIMEOUT (R237). The module's own token not returned within commit_timeout voids the step. -/
  | commitTimeout (k : Nat)
  /-- REDUCTION_DONE (R252). When STEP_END samples and reduce entries are complete, the non-finite state is fixed and the token sent. -/
  | reductionDone (k : Nat)
  /-- DECIDE_STEP (R255). When its own token returns the partition decides APPLY or SKIP, writes COMMITTED, sets gates and completes STEP_END. -/
  | decideStep (k : Nat)
  /-- STEP_VOID (R238). A void cause voids the open or next step, enters HOLD, discards entries, sends VOID and frogs. -/
  | stepVoid (k : Nat) (cause : Nat)
  /-- REJOIN_SEND (R240). Each UP job port sends REJOIN every 1,024 ticks while in HOLD. -/
  | rejoinSend (o : Nat)
  /-- HOLD_END (R242). HOLD ends once ports agree and the proposal is stable for 16,384 ticks, entering REPEATING. -/
  | holdEnd (k : Nat)
  /-- IDENTIFY (R282). IDENTIFY returns serial, repair summary, lifecycle and firmware version. -/
  | identify (q : Cmd)
  /-- SESSION_OPEN (R288). SESSION_OPEN issues a challenge in phase 0 or verifies a proof and opens the session in phase 1. -/
  | sessionOpen (q : Cmd)
  /-- SESSION_RESUME (R290). SESSION_RESUME authenticates and reloads the key of a suspended session. -/
  | sessionResume (q : Cmd)
  /-- SESSION_CLOSE (R291). SESSION_CLOSE records the last step, zeroizes, destroys the key and closes the session. -/
  | sessionClose (q : Cmd)
  /-- ATTEST (R361). ATTEST writes a signed attestation report over a host nonce. -/
  | attest (q : Cmd)
  /-- PARTITION_DEFINE (R282). PARTITION_DEFINE defines or removes a partition of whole panels. -/
  | partitionDefine (q : Cmd)
  /-- PARTITION_POWER (R299). PARTITION_POWER sets a partition's target power state and ceiling. -/
  | partitionPower (q : Cmd)
  /-- PANEL_WAVE (R320). PANEL_WAVE raises up to four named panels from OFF or lost. -/
  | panelWave (q : Cmd)
  /-- AUTOMATIC_WAVE (R319). The command processor raises the next four panels of an automatic power-up. -/
  | automaticWave (k : Nat)
  /-- GAUGE_CHECK (R324). GAUGE_CHECK compares discovered and expected topology and reports the first difference. -/
  | gaugeCheck (q : Cmd)
  /-- LOAD_IMAGE (R287). LOAD_IMAGE checks a pattern image and broadcasts its sections. -/
  | loadImage (q : Cmd)
  /-- CONTEXT_LAUNCH (R282). CONTEXT_LAUNCH launches a context on a rectangle with selections and may start sequencers. -/
  | contextLaunch (q : Cmd)
  /-- CONTEXT_STOP (R282). CONTEXT_STOP stops a context on a rectangle and may stop sequencers. -/
  | contextStop (q : Cmd)
  /-- STEP_RELEASE (R242). STEP_RELEASE ends a down-bit HOLD or sends event kind 6 to the sequencers. -/
  | stepRelease (q : Cmd)
  /-- LINK_TRAIN (R226). LINK_TRAIN trains the named ports. -/
  | linkTrain (q : Cmd)
  /-- LINK_ROLE (R228). LINK_ROLE sets a port's role, job and commit_out, retrains and loads step records. -/
  | linkRole (q : Cmd)
  /-- RESET (R344). RESET starts a reset of the given level on a target. -/
  | reset (q : Cmd)
  /-- BIND_OFF (R282). BIND_OFF waits for the step's outcome, stops contexts and ports and makes the partition READY. -/
  | bindOff (q : Cmd)
  /-- BIND_OFF_TIMEOUT (R282). BIND_OFF's limit expires, voiding the step and completing TIMEOUT. -/
  | bindOffTimeout (k : Nat)
  /-- DARN (R333). DARN fences if needed and darns a core. -/
  | darn (q : Cmd)
  /-- FENCE (R333). FENCE fences a core or site by command. -/
  | fence (q : Cmd)
  /-- RETIRE_PAGE (R206). RETIRE_PAGE redirects a stack page to a spare page. -/
  | retirePage (q : Cmd)
  /-- SCRUB (R205). SCRUB runs an immediate scrub pass over a unit range. -/
  | scrub (q : Cmd)
  /-- ZEROIZE (R282). ZEROIZE zeroizes the scratchpad of cores in a rectangle. -/
  | zeroize (q : Cmd)
  /-- DEBUG_UNLOCK (R372). DEBUG_UNLOCK raises the debug level after certificate checks. -/
  | debugUnlock (q : Cmd)
  /-- DEBUG_LOCK (R373). DEBUG_LOCK lowers the debug level. -/
  | debugLock (q : Cmd)
  /-- FIRMWARE_UPDATE (R364). FIRMWARE_UPDATE verifies and installs a firmware image or owner record. -/
  | firmwareUpdate (q : Cmd)
  /-- RECOVERY_IMAGE (R350). RECOVERY_IMAGE verifies and installs an image in RECOVERY and schedules a MODULE reset. -/
  | recoveryImage (q : Cmd)
  /-- COMMAND_TIMEOUT (R281). A window command not ended within its limit completes TIMEOUT. -/
  | commandTimeout
  /-- PARTITION_COMMAND_END (R281). A partition command ends, writes its command record and clears PSTAT.busy. -/
  | partitionCommandEnd (k : Nat)
  /-- BAR0_ACCESS_INVALID (R269). A BAR0 access of the wrong size or alignment completes Unsupported Request. -/
  | bar0AccessInvalid (addr : Nat) (size : Nat)
  /-- BAR2_READ (R270). A host read through BAR2 reaches the staging area or update buffer. -/
  | bar2Read (y : Nat) (len : Nat)
  /-- BAR2_WRITE (R270). A host write through BAR2 reaches the staging area or update buffer. -/
  | bar2Write (y : Nat) (data : List Byte) (ep : Bool)
  /-- HOST_COMPLETION_ABORT (R270). A BAR2 request not served within 50 ms completes Completer Abort. -/
  | hostCompletionAbort
  /-- FAB_DATA_READ (R277). A read of FAB_DATA performs a checked fabric read at FAB_ADDR. -/
  | fabDataRead
  /-- FAB_DATA_WRITE (R277). A write of FAB_DATA performs a checked fabric write at FAB_ADDR. -/
  | fabDataWrite (v : W64)
  /-- PUBLISH_WORD_WRITE (R284). A sequencer STF to the result window writes bytes and, at the publish word, sets PSTAT.partial. -/
  | publishWordWrite (p : Nat) (x : Nat) (data : List Byte)
  /-- PUBLISH_WORD_READ (R284). A host read of the publish word clears PSTAT.partial. -/
  | publishWordRead (k : Nat)
  /-- FUNCTION_LEVEL_RESET (R268). A PCIe FLR resets the host-side registers and MSI-X state. -/
  | functionLevelReset
  /-- PCIE_POWER_STATE_CHANGE (R268). The function moves between D0 and D3hot, stopping or resuming MSI-X. -/
  | pciePowerStateChange (d3 : Bool)
  /-- PNL_POWER_OFF (R301). Writing 1 to PNL_POWER.off requests one panel to power off. -/
  | pnlPowerOff (src : Source) (p : Nat)
  /-- PNL_TENSION_LIMIT_WRITE (R313). A write to PNL_TENSION.limit sets the host step limit, clamping 6 and 7 to 5. -/
  | pnlTensionLimitWrite (src : Source) (p : Nat) (v : BitVec 3)
  /-- PWR_CAP_WRITE (R309). A write to PWR_CAP sets the module power cap clamped to 16-42 kW. -/
  | pwrCapWrite (v : BitVec 16)
  /-- STK_SCRUB_WRITE (R205). A write to STK_SCRUB sets enable and interval, clamping interval to at least 250. -/
  | stkScrubWrite (src : Source) (p : Nat) (v : W64)
  /-- LNK_CFG_WRITE (R237). A write to LNK_CFG sets link timeouts, clamped to at least 100, deferred if a step is open. -/
  | lnkCfgWrite (src : Source) (o : Nat) (v : W64)
  /-- SEC_CFG_WRITE (R292). A write to SEC_CFG.resume_s sets the resume timeout for the next suspension. -/
  | secCfgWrite (v : BitVec 16)
  /-- ERR_TAIL_WRITE (R357). A write to ERR_TAIL frees error-log entries if it lies between tail and head. -/
  | errTailWrite (v : BitVec 9)
  /-- DBG_SEL_WRITE (R380). A write to DBG_SEL selects a core and context unless the selected core is halted. -/
  | dbgSelWrite (v : W64)
  /-- DBG_HALT (R375). Writing DBG_CTL.halt stops the selected core and saves its context to the debug buffer. -/
  | dbgHalt
  /-- DBG_RESUME (R375). Writing DBG_CTL.resume restores the image and continues issue. -/
  | dbgResume
  /-- DBG_STEP (R375). Writing DBG_CTL.step restores the image, issues one bundle and halts again. -/
  | dbgStep
  /-- DEBUG_WINDOW_ACCESS (R374). An access through the debug window is served or refused by level and target state. -/
  | debugWindowAccess (jtag : Bool) (y : Nat) (size : Nat) (wr : Bool) (v : W64)
  /-- REGISTER_WRITE (R4). A write to a register with no row of its own acts by its access code. -/
  | registerWrite (src : Source) (addr : Access) (v : W64)
  /-- JTAG_INSTRUCTION (R377). A JTAG instruction selects IDCODE, BYPASS, boundary scan or DBGACC. -/
  | jtagInstruction (code : JtagCode)
  /-- LIVENESS_PROBE (R327). Every 2^14 ticks the sequencer probes every running mapped core. -/
  | livenessProbe (p : Nat)
  /-- PROBE_TIMEOUT (R327). A probe unanswered in 1,024 ticks is repeated, and a second miss fences the core. -/
  | probeTimeout (p : Nat) (n : Nat)
  /-- MACHINE_CHECK (R328). A core reports a parity error in its own state and is fenced. -/
  | machineCheck (n : CheckReport)
  /-- DARNING_START (R330). Darning of a fenced core starts, choosing a map change and stopping carried contexts. -/
  | darningStart (p : Nat)
  /-- CARRY_STEP_DONE (R331). One carry step of a core's scratchpad to its new site completes. -/
  | carryStepDone (p : Nat)
  /-- DARNING_DONE (R330). Darning zeroizes the spare, increments the epoch, sets PNL_FRESH, releases requests and queues the fuse entry. -/
  | darningDone (p : Nat)
  /-- FIELD_REPAIR_FUSE_WRITE (R334). A queued field repair entry is written to the fuse bank. -/
  | fieldRepairFuseWrite
  /-- HANG_SNAPSHOT (R352). Every 2^16 ticks a hub snapshots engine waits, edges and progress. -/
  | hangSnapshot (p : Nat)
  /-- HANG_COMBINE (R352). The command processor combines hub snapshots and declares a hang if a closed set persists. -/
  | hangCombine
  /-- SUSPECT_REPLAY (R353). A suspect context is launched alone from its launch record. -/
  | suspectReplay
  /-- SUSPECT_REPLAY_END (R353). A replay ends by END, exception, hang, external wait or 2^20 ticks with a verdict. -/
  | suspectReplayEnd
  /-- HANG_VERDICT (R354). After replays, guilty or all suspects become FAULTED and others EMPTY. -/
  | hangVerdict
  /-- SENSOR_SAMPLE (R307). Every 10 µs the supervisor samples temperatures and power. -/
  | sensorSample (p : Nat) (junction : List Nat) (stack : Nat) (watts : Nat) (inputWatts : Nat)
  /-- GOVERNOR_EVAL (R308). Every 1 ms the governor changes at most one panel by one step. -/
  | governorEval
  /-- CLOCK_STEP_CHANGE_DONE (R297). A one-step clock and voltage change completes. -/
  | clockStepChangeDone (p : Nat)
  /-- FIRST_USE_HOLD_END (R308). The first-use hold ends 10,000,000 ticks after power-up. -/
  | firstUseHoldEnd (p : Nat)
  /-- DROOP (R310). A rail droop stretches the panel clock and is counted. -/
  | droop (p : Nat)
  /-- THERMAL_TRIP (R311). A sensor at trip temperature asserts THERM_TRIP#, sets attention and fires its reset source. -/
  | thermalTrip (p : Nat)
  /-- THERM_TRIP_RELEASE (R338). THERM_TRIP# deasserts when every sensor reads below 95 °C. -/
  | thermTripRelease
  /-- INRUSH_DEFERRED_WAKE (R306). A deferred wake starts when inrush units free up. -/
  | inrushDeferredWake
  /-- PANEL_SUPPLY_SHORT (R355). A short trips a panel's eFuse and shuts its converters. -/
  | panelSupplyShort (p : Nat)
  /-- PANEL_LOST (R355). The supervisor reports PANEL_LOST, epochs change, ports go ABSENT and the step is voided. -/
  | panelLost (p : Nat)
  /-- BLOCK_RESET (R341). A CONTEXT, CORE, PANEL or PORT reset quiesces, drains, resets, renews the epoch and releases. -/
  | blockReset (i : Nat)
  /-- RESET_DRAIN_TIMEOUT (R341). A reset's drain meets its limit and the block is reset forcibly. -/
  | resetDrainTimeout (i : Nat)
  /-- RESET_ESCALATE (R343). A reset not complete within its limit escalates to the next level. -/
  | resetEscalate (i : Nat)
  /-- PARTITION_RESET (R337). A PARTITION reset resets every panel, zeroes the result window and sets job ports OFF. -/
  | partitionReset (k : Nat)
  /-- MODULE_RESET (R347). A MODULE reset stops every block, suspends sessions and starts cast-on. -/
  | moduleReset
  /-- TRAY_POWER_CYCLE (R348). A tray power cycle destroys keys, requests 50 V removal and takes a MODULE reset. -/
  | trayPowerCycle
  /-- PERST_ASSERT (R339). PERST# asserted for 200 ticks fires reset source 1. -/
  | perstAssert
  /-- PERST_DEASSERT (R316). PERST# deasserts and PCIe comes up at cast-on step 3. -/
  | perstDeassert
  /-- MODULE_RESET_PIN (R339). MODULE_RESET# asserted for 200 ticks fires reset source 2. -/
  | moduleResetPin
  /-- SECURITY_VIOLATION (R338). A Ubide glitch or voltage detector fires a TRAY_POWER_CYCLE. -/
  | securityViolation
  /-- INPUT_OUT_OF_RANGE (R385). The 50 V input leaves range beyond ride-through and the module powers down. -/
  | inputOutOfRange (millivolts : Nat)
  /-- POWER_ON (R385). The input stays in range for 10 ms and the power-on source fires. -/
  | powerOn
  /-- CAST_ON (R316). Module cast-on verifies firmware, reads fuses and awaits PCIe and panel waves. -/
  | castOn
  /-- CAST_ON_FINISH (R318). After a clean gauge check the panels are placed and the module becomes READY. -/
  | castOnFinish
  /-- CAST_ON_FAIL (R317). A cast-on step fails or the 30 s limit passes, setting FAULT or RECOVERY. -/
  | castOnFail (code : BitVec 8)
  /-- CAST_ON_RESTART (R349). A cast-on that failed before step 3 restarts 1 s later. -/
  | castOnRestart
  /-- PANEL_BRING_UP (R321). A panel of a wave ramps rails, locks its PLL, self-tests, builds its map and trains its stack. -/
  | panelBringUp (p : Nat) (bad : List Nat)
  /-- PANEL_BRING_UP_DONE (R321). A panel completes or fails bring-up after firmware broadcast. -/
  | panelBringUpDone (p : Nat) (ok : Bool) (stepNo : Nat)
  /-- RESUME_TIMEOUT (R290). resume_s passes after a reset without resume and the key is destroyed. -/
  | resumeTimeout (k : Nat)
  /-- NOP (R33). A bundle whose four slots all hold NOP issues, advancing pc and any loop level. -/
  | nop (w : Site)
  /-- UNDEFINED_OPCODE (R57). A bundle slot or sequencer word with an undefined opcode raises EXC_ILLEGAL at issue, or sequencer fault ILLEGAL. -/
  | undefinedOpcode (g : Agent) (b : Bundle)
  /-- UNDEFINED_COMMAND (R280). A write to CMD_OP with an undefined opcode completes BAD_ARGUMENT. -/
  | undefinedCommand (op : BitVec 8) (q : Cmd)
  /-- CLEARING_READ (R6). A read of an RC field returns its value and then clears it, with a same-cycle event winning. -/
  | clearingRead (src : Source) (addr : Access)
  /-- MODULE_RESET_DEASSERT (R339). MODULE_RESET# deasserts and releases the module held at the start of cast-on step 1. -/
  | moduleResetDeassert
  /-- TAP_RESET (R377). TRST# assertion, or the test-logic reset, resets the TAP and selects IDCODE. -/
  | tapReset
  /-- DYNAMIC_ADDRESS_ASSIGNMENT (R388). The tray's I3C controller assigns the module's dynamic address as an I3C target. -/
  | dynamicAddressAssignment (da : BitVec 7)
  /-- MSIX_UNMASK (R271). The host unmasks the MSI-X vector and the device sends the message whose pending bit was set. -/
  | msixUnmask
  /-- LOCKOUT_EXPIRY (R289). The lockout of 2^(f-5) s after the last failure expires, and SESSION_OPEN and SESSION_RESUME are accepted again. -/
  | lockoutExpiry
  /-- PANEL_OFF_DONE (R301). A panel commanded OFF reaches OFF within 1 ms, and PNL_POWER.off reads 0. -/
  | panelOffDone (p : Nat)
deriving DecidableEq, Repr

end Sys2Proof
end

