-- ==== Sys2Proof/Machine/Bits.lean ====
section
/-! DEFINITION. Bit fields, byte order and counters that every family uses: little-endian bytes
(R69, R98, R155), parity (R131), saturating counters (R7), exact powers of two. -/

namespace Sys2Proof.Machine

/-- The field [hi:lo] of a number. -/
def fld (v hi lo : Nat) : Nat := (v >>> lo) % 2 ^ (hi + 1 - lo)

/-- The field [hi:lo] replaced. -/
def setFld (v hi lo x : Nat) : Nat :=
  v - (fld v hi lo) * 2 ^ lo + (x % 2 ^ (hi + 1 - lo)) * 2 ^ lo

/-- Bit `n` of a number. -/
def bit (v n : Nat) : Bool := v.testBit n

/-- 0 or 1. -/
def b2n (b : Bool) : Nat := if b then 1 else 0

/-- The little-endian bytes of a number, `n` of them. -/
def leBytes : Nat → Nat → List Byte
  | 0, _ => []
  | n + 1, v => BitVec.ofNat 8 v :: leBytes n (v / 256)

/-- The number that little-endian bytes hold. -/
def leNat : List Byte → Nat
  | [] => 0
  | b :: t => b.toNat + 256 * leNat t

/-- The number of ones among the low `n` bits. -/
def popcount (n v : Nat) : Nat := ((List.range n).filter (fun i => v.testBit i)).length

/-- A counter of `w` bits that saturates at all ones (R7). -/
def sat (w v : Nat) : Nat := min v (2 ^ w - 1)

/-- One more event in a saturating counter (R7). -/
def inc (w v : Nat) : Nat := sat w (v + 1)

/-- The check bit of a byte: 1 xor the exclusive or of its bits (R131). -/
def checkBit (b : Byte) : Bool := (popcount 8 b.toNat) % 2 == 0

/-- The number of bits of a number (0 for 0). -/
def bitLen (m : Nat) : Nat := if m = 0 then 0 else m.log2 + 1

/-- Quotient rounded up. -/
def ceilDiv (a b : Nat) : Nat := (a + b - 1) / b

/-- Signed value of a 64-bit word, as an integer. -/
def s64 (v : W64) : Int := v.toInt

/-- The first key `j ≥ k` with `f j`, among `n` candidates. -/
def firstFrom (f : Nat → Bool) : Nat → Nat → Option Nat
  | 0, _ => none
  | n + 1, k => if f k then some k else firstFrom f n (k + 1)

/-- `n` consecutive numbers from `k`. -/
def span (k n : Nat) : List Nat := (List.range n).map (k + ·)

/-- Two ranges of bytes have a byte in common. -/
def overlap (a la b lb : Nat) : Bool := decide (a < b + lb) && decide (b < a + la) && decide (0 < la) && decide (0 < lb)

/-- The element at index `k` of a list, or the default. -/
def nth {α : Type} (d : α) (l : List α) (k : Nat) : α := l.getD k d

/-- Cuts a list into pieces of `n` elements; `fuel` bounds the number of pieces. -/
def chunks {α : Type} (n : Nat) : Nat → List α → List (List α)
  | 0, _ => []
  | _ + 1, [] => []
  | fuel + 1, l => l.take n :: chunks n fuel (l.drop n)

end Sys2Proof.Machine
end

