-- ==== Sys2Proof/Machine/Cipher.lean ====
section
/-! DEFINITION. The cipher and the code of stack sectors: XTS-AES-256 (R202, IEEE 1619 with AES of FIPS 197) and the
Reed-Solomon code of 8 check bytes (R199, R200). -/

namespace Sys2Proof.Machine

open Sys2Proof

/-! AES-256. A block is 16 bytes, byte r + 4c in row r and column c. -/

/-- The substitution of AES, sixteen bytes a number, the lowest first. -/
def aesBox : List Nat :=
  [0x76abd7fe2b670130c56f6bf27b777c63, 0xc072a49cafa2d4adf04759fa7dc982ca, 0x1531d871f1e5a534ccf73f362693fdb7
  , 0x75b227ebe28012079a059618c323c704, 0x842fe329b3d63b52a05a6e1b1a2c8309, 0xcf584c4a39becb6a5bb1fc20ed00d153
  , 0xa89f3c507f02f94585334d43fbaaefd0, 0xd2f3ff1021dab6bcf5389d928f40a351, 0x73195d643d7ea7c41744975fec130ccd
  , 0xdb0b5ede14b8ee4688902a22dc4f8160, 0x79e4959162acd3c25c2406490a3a32e0, 0x08ae7a65eaf4566ca94ed58d6d37c8e7
  , 0x8a8bbd4b1f74dde8c6b4a61c2e2578ba, 0x9e1dc186b95735610ef6034866b53e70, 0xdf2855cee9871e9b948ed9691198f8e1
  , 0x16bb54b00f2d99416842e6bf0d89a18c]

/-- The inverse substitution. -/
def aesInvBox : List Nat :=
  [0xfbd7f3819ea340bf38a53630d56a0952, 0xcbe9dec444438e3487ff2f9b8239e37c, 0x4ec3fa420b954cee3d23c2a632947b54
  , 0x25d18b6d49a25b76b224d92866a12e08, 0x92b6655dcc5ca4d41698688664f6f872, 0x849d8da75746155edab9edfd5048706c
  , 0x0645b3b80558e4f70ad3bc8c00abd890, 0x6b8a130103bdafc1020f3fca8f1e2cd0, 0x73e6b4f0cecff297eadc674f4111913a
  , 0x6edf751ce837f9e28535ade72274ac96, 0x1bbe18aa0e62b76f89c5291d711af147, 0xf45acd78fec0db9a2079d2c64b3e56fc
  , 0x5fec8027591012b131c7078833a8dd1f, 0xef9cc9939f7ae52d0d4ab519a97f5160, 0x619953833cbbebc8b0f52aae4d3be0a0
  , 0x7d0c2155631469e126d677ba7e042b17]

/-- A byte through a substitution. -/
def aesSub (box : List Nat) (x : Nat) : Nat := (nth 0 box (x / 16) >>> (8 * (x % 16))) % 256

/-- Two lists of bytes, byte by byte. -/
def xorList (a b : List Nat) : List Nat := List.zipWith (· ^^^ ·) a b

/-- The next eight words of the key schedule of AES-256. -/
def aesNextKeys (rcon : Nat) (w : List (List Nat)) : List (List Nat) :=
  let sub := fun (l : List Nat) => l.map (aesSub aesBox)
  let w7 := nth [] w 7
  let a0 := xorList (nth [] w 0) (xorList (sub (w7.drop 1 ++ w7.take 1)) [rcon, 0, 0, 0])
  let a1 := xorList (nth [] w 1) a0
  let a2 := xorList (nth [] w 2) a1
  let a3 := xorList (nth [] w 3) a2
  let a4 := xorList (nth [] w 4) (sub a3)
  let a5 := xorList (nth [] w 5) a4
  let a6 := xorList (nth [] w 6) a5
  [a0, a1, a2, a3, a4, a5, a6, xorList (nth [] w 7) a6]

/-- The words of the key schedule from the eight of the key on. -/
def aesSchedule : Nat → Nat → List (List Nat) → List (List Nat)
  | 0, _, _ => []
  | fuel + 1, rcon, w => w ++ aesSchedule fuel (2 * rcon) (aesNextKeys rcon w)

/-- The fifteen round keys of a key of 32 bytes. -/
def aesKeys (key : List Nat) : List (List Nat) :=
  (chunks 4 16 (aesSchedule 8 1 (chunks 4 8 key))).take 15 |>.map List.flatten

/-- A byte times two in the field of AES. -/
def aesDouble (a : Nat) : Nat := if 128 ≤ a then ((2 * a) ^^^ 0x11B) % 256 else 2 * a
/-- A byte times a small constant. -/
def aesMul (k a : Nat) : Nat :=
  let b := aesDouble a
  let c := aesDouble b
  let d := aesDouble c
  (if k.testBit 0 then a else 0) ^^^ (if k.testBit 1 then b else 0) ^^^ (if k.testBit 2 then c else 0)
    ^^^ (if k.testBit 3 then d else 0)

/-- The columns of a block multiplied by the circulant matrix whose first row is `row`. -/
def aesMix (row b : List Nat) : List Nat :=
  (List.range 16).map (fun i =>
    (List.range 4).foldl (fun x j => x ^^^ aesMul (nth 0 row ((j + 4 - i % 4) % 4)) (nth 0 b (i / 4 * 4 + j))) 0)

/-- The rows of a block turned left by their number times `k`. -/
def aesShift (k : Nat) (b : List Nat) : List Nat :=
  (List.range 16).map (fun i => nth 0 b (4 * ((i / 4 + k * (i % 4)) % 4) + i % 4))

/-- AES-256 encryption of a block under round keys. -/
def aesEnc (keys : List (List Nat)) (b : List Nat) : List Nat :=
  let step := fun (b : List Nat) => aesShift 1 (b.map (aesSub aesBox))
  let b := (List.range 13).foldl (fun b r => xorList (aesMix [2, 3, 1, 1] (step b)) (nth [] keys (r + 1))) (xorList b (nth [] keys 0))
  xorList (step b) (nth [] keys 14)

/-- AES-256 decryption of a block under round keys. -/
def aesDec (keys : List (List Nat)) (b : List Nat) : List Nat :=
  let step := fun (b : List Nat) => (aesShift 3 b).map (aesSub aesInvBox)
  let b := (List.range 13).foldl (fun b r => aesMix [14, 11, 13, 9] (xorList (step b) (nth [] keys (13 - r)))) (xorList b (nth [] keys 14))
  xorList (step b) (nth [] keys 0)

/-! XTS. -/

/-- Bytes as numbers, and back. -/
def toNats (l : List Byte) : List Nat := l.map BitVec.toNat
def toBytes (l : List Nat) : List Byte := l.map (BitVec.ofNat 8)

/-- The data key and the tweak key of a key pair: its low and its high 256 bits. -/
def dataKey (k : BitVec 512) : List (List Nat) := aesKeys (toNats (leBytes 32 (k.toNat % 2 ^ 256)))
def tweakKey (k : BitVec 512) : List (List Nat) := aesKeys (toNats (leBytes 32 (k.toNat / 2 ^ 256)))

/-- The mask of block `j` of a data unit: the encrypted tweak times α^j, as a little-endian number. -/
def xtsMask (t : Nat) : Nat → Nat
  | 0 => t
  | j + 1 =>
    let m := xtsMask t j
    if 2 ^ 127 ≤ m then (2 * m) % 2 ^ 128 ^^^ 0x87 else 2 * m

/-- XTS over whole blocks of a data unit from block `j` on: `f` encrypts or decrypts a block. -/
def xtsRun (f : List Nat → List Nat) (k : BitVec 512) (tweak j : Nat) (data : List Byte) : List Byte :=
  let t := leNat (toBytes (aesEnc (tweakKey k) (toNats (leBytes 16 tweak))))
  ((chunks 16 data.length data).zipIdx.map (fun e =>
    let m := toNats (leBytes 16 (xtsMask t (j + e.2)))
    toBytes (xorList (f (xorList (toNats e.1) m)) m))).flatten

/-- XTS-AES-256 encryption and decryption of whole blocks of the data unit with a tweak, from block `j` on. -/
def xtsEnc (k : BitVec 512) (tweak j : Nat) (data : List Byte) : List Byte := xtsRun (aesEnc (dataKey k)) k tweak j data
def xtsDec (k : BitVec 512) (tweak j : Nat) (data : List Byte) : List Byte := xtsRun (aesDec (dataKey k)) k tweak j data

/-! The sector code (R199, R200). -/

/-- Multiplication by x in GF(2^8) with x^8 + x^4 + x^3 + x^2 + 1 (R199). -/
def gfDouble (a : Nat) : Nat := if 128 ≤ a then ((2 * a) ^^^ 0x11D) % 256 else 2 * a
/-- The product with α^k. -/
def gfShift (a : Nat) : Nat → Nat
  | 0 => a
  | k + 1 => gfShift (gfDouble a) k

/-- A polynomial, highest coefficient first, times (x - α^i). -/
def timesRoot (p : List Nat) (i : Nat) : List Nat := xorList (p ++ [0]) (0 :: p.map (fun c => gfShift c i))

/-- The coefficients of x^7 to x^0 of g(x) = (x - α^0) … (x - α^7). -/
def genPoly : List Nat := ((List.range 8).foldl timesRoot [1]).drop 1

/-- A byte times each coefficient of g(x). -/
def timesGen (b : Nat) (g : List Nat) : List Nat :=
  g.map (fun c => (List.range 8).foldl (fun a i => if b.testBit i then a ^^^ gfShift c i else a) 0)

/-- The check bytes of message symbols: the coefficients of x^7 to x^0 of the message times x^8 modulo g(x) (R199). -/
def rsCheck (m : List Nat) : List Nat :=
  m.foldl (fun r b => xorList (r.drop 1 ++ [0]) (timesGen (b ^^^ nth 0 r 0) genPoly)) (List.replicate 8 0)

/-- The check bytes that a sector of 64 bytes is stored with (R199): `aw` is its address word. -/
def sectorCheck (data : List Byte) (aw : Nat) (poison : Bool) : List Byte :=
  toBytes ((rsCheck (toNats (data ++ leBytes 8 aw))).map (fun c => if poison then c ^^^ 0xA5 else c))

/-- The outcomes of R200: of a corrected sector the bad stored byte, data 0 to 63 or check 64 to 71, and the value that
is xored with it. -/
inductive SectorOutcome where
  | good
  | poisoned
  | corrected (p v : Nat)
  | uncorrectable (addr : Bool)
deriving DecidableEq, Repr

/-- The syndromes S0 to S7 of a received word of 80 symbols, the highest coefficient first. -/
def syndromes (w : List Nat) : List Nat := (List.range 8).map (fun i => w.foldl (fun a b => gfShift a i ^^^ b) 0)

/-- The degree of stored byte k: data 0 to 63, check 64 to 71 (R199). -/
def storedDegree (k : Nat) : Nat := if k < 64 then 79 - k else 71 - k

/-- The syndromes point to the single degree d. -/
def pointsTo (s : List Nat) (d : Nat) : Bool := (List.range 7).all (fun i => nth 0 s (i + 1) == gfShift (nth 0 s i) d)

/-- The decision of R200 on stored data and check bytes, for a reader that expects address word `aw`. -/
def decideSector (data check : List Byte) (aw : Nat) : SectorOutcome :=
  let m := toNats (data ++ leBytes 8 aw)
  let c := toNats check
  let s := syndromes (m ++ c)
  if s.all (· == 0) then .good
  else if (syndromes (m ++ c.map (· ^^^ 0xA5))).all (· == 0) then .poisoned
  else if nth 0 s 0 = 0 then .uncorrectable false
  else
    match (List.range 72).find? (fun k => pointsTo s (storedDegree k)) with
    | some k => .corrected k (nth 0 s 0)
    | none => .uncorrectable ((List.range 8).any (fun j => pointsTo s (15 - j)))

/-- A byte of a sector corrected. -/
def fixByte (l : List Byte) (p v : Nat) : List Byte := l.zipIdx.map (fun e => if e.2 = p then e.1 ^^^ BitVec.ofNat 8 v else e.1)

end Sys2Proof.Machine
end

