-- ==== Sys2Proof/Machine/Flags.lean ====
section
/-! DEFINITION. The predicate computations of CMP and POP (R39). -/

namespace Sys2Proof.Machine

/-- CMP: f[2:0] 0 EQ, 1 NE, 2 LT, 3 LE, 4 LTU, 5 LEU. -/
def cmpFlag (f : Nat) (a b : W64) : Bool :=
  match f with
  | 0 => a == b
  | 1 => a != b
  | 2 => a.slt b
  | 3 => a.sle b
  | 4 => a.ult b
  | _ => a.ule b

/-- POP: f[2:0] 0 AND, 1 OR, 2 XOR, 3 ANDN, 4 NOT a. -/
def popFlag (f : Nat) (a b : Bool) : Bool :=
  match f with
  | 0 => a && b
  | 1 => a || b
  | 2 => xor a b
  | 3 => a && !b
  | _ => !a

end Sys2Proof.Machine
end

