-- ==== Sys2Proof/Machine/Float.lean ====
section
/-! DEFINITION. Exact binary arithmetic and its one rounding: the formats of R67 and R93, the special
values of R71, stochastic rounding (R72), conversions (R88), binary32 and binary64 operations (R70,
R86, R94). A value is held exactly as sign, whole significand and power of two; nothing rounds until
a format is named. -/

namespace Sys2Proof.Machine

/-- An exact value: NaN, an infinity, or ±m·2^e; zero keeps its sign. -/
inductive XVal where
  | nan
  | inf (neg : Bool)
  | fin (neg : Bool) (m : Nat) (e : Int)
deriving DecidableEq, Repr

/-- How a rounding is done: to nearest-even, or stochastically with the 16-bit field r (R72). -/
inductive Rnd where
  | even
  | stoch (r : Nat)
deriving DecidableEq, Repr

/-- What the top codes of a format mean (R71, R88). -/
inductive Specials where
  | ieee
  | e4m3
  | finite
deriving DecidableEq, Repr

/-- A floating format: exponent bits, fraction bits, bias, special values. -/
structure Fmt where
  eb : Nat
  mb : Nat
  bias : Nat
  sp : Specials
deriving DecidableEq, Repr

def Fmt.fp32 : Fmt := { eb := 8, mb := 23, bias := 127, sp := .ieee }
def Fmt.fp64 : Fmt := { eb := 11, mb := 52, bias := 1023, sp := .ieee }
def Fmt.bf16 : Fmt := { eb := 8, mb := 7, bias := 127, sp := .ieee }
def Fmt.fp16 : Fmt := { eb := 5, mb := 10, bias := 15, sp := .ieee }
def Fmt.e4m3 : Fmt := { eb := 4, mb := 3, bias := 7, sp := .e4m3 }
def Fmt.e5m2 : Fmt := { eb := 5, mb := 2, bias := 15, sp := .ieee }
def Fmt.e3m2 : Fmt := { eb := 3, mb := 2, bias := 3, sp := .finite }
def Fmt.e2m3 : Fmt := { eb := 2, mb := 3, bias := 1, sp := .finite }
def Fmt.e2m1 : Fmt := { eb := 2, mb := 1, bias := 1, sp := .finite }

/-- The value that the bits `v` have in a format (R71: subnormals at their value). -/
def Fmt.dec (f : Fmt) (v : Nat) : XVal :=
  let neg := v.testBit (f.eb + f.mb)
  let e := fld v (f.eb + f.mb - 1) f.mb
  let m := v % 2 ^ f.mb
  let top := 2 ^ f.eb - 1
  let isSpecial := match f.sp with
    | .ieee => e == top
    | .e4m3 => e == top && m == 2 ^ f.mb - 1
    | .finite => false
  if isSpecial then
    if f.sp = .ieee ∧ m = 0 then .inf neg else .nan
  else if e = 0 then .fin neg m (1 - (f.bias : Int) - f.mb)
  else .fin neg (m + 2 ^ f.mb) ((e : Int) - f.bias - f.mb)

/-- The largest finite significand of a format, at exponent `Fmt.qmax`. -/
def Fmt.mmax (f : Fmt) : Nat := if f.sp = .e4m3 then 2 ^ (f.mb + 1) - 2 else 2 ^ (f.mb + 1) - 1

/-- The power of two of the last place of the largest finite value. -/
def Fmt.qmax (f : Fmt) : Int :=
  (if f.sp = .ieee then (2 ^ f.eb - 2 : Int) else (2 ^ f.eb - 1 : Int)) - f.bias - f.mb

/-- The power of two of the last place of a subnormal. -/
def Fmt.qmin (f : Fmt) : Int := 1 - (f.bias : Int) - f.mb

/-- Compares two magnitudes m·2^e. -/
def magLe (m1 : Nat) (e1 : Int) (m2 : Nat) (e2 : Int) : Bool :=
  if m1 = 0 then true
  else if m2 = 0 then false
  else
    let t1 := (bitLen m1 : Int) + e1
    let t2 := (bitLen m2 : Int) + e2
    if t1 < t2 then true
    else if t2 < t1 then false
    else if e1 ≤ e2 then decide (m1 ≤ m2 * 2 ^ (e2 - e1).toNat)
    else decide (m1 * 2 ^ (e1 - e2).toNat ≤ m2)

/-- Rounds the magnitude m·2^e to a significand of `p` bits whose last place is at least 2^qmin: the
rounded significand and its power of two (R72; nearest-even otherwise). -/
def roundMag (p : Nat) (qmin : Int) (rnd : Rnd) (m : Nat) (e : Int) : Nat × Int :=
  let q := max ((bitLen m : Int) + e - p) qmin
  if q ≤ e then (m * 2 ^ (e - q).toNat, q)
  else
    let sh := min (q - e).toNat (bitLen m + 24)
    let lo := m >>> sh
    let rem := m % 2 ^ sh
    let up := match rnd with
      | .even => decide (2 ^ sh < 2 * rem) || (decide (2 * rem = 2 ^ sh) && lo % 2 == 1)
      | .stoch r => decide (2 ^ 16 ≤ rem * 2 ^ 16 / 2 ^ sh + r)
    let exact := decide (rem = 0)
    (if up && !exact then lo + 1 else lo, q)

/-- The bits of a finite magnitude that the format represents. -/
def Fmt.encMag (f : Fmt) (m : Nat) (q : Int) : Nat :=
  if m = 0 then 0
  else
    let (m, q) := if m = 2 ^ (f.mb + 1) then (2 ^ f.mb, q + 1) else (m, q)
    if m < 2 ^ f.mb then m
    else ((q + f.bias + f.mb).toNat) * 2 ^ f.mb + (m - 2 ^ f.mb)

/-- The canonical NaN of a format (R71, R88): 0x7FC0_0000, 0x7FC0, 0x7E00, 0x7F and 0x7E. -/
def Fmt.nanBits (f : Fmt) : Nat :=
  match f.sp with
  | .ieee => (2 ^ f.eb - 1) * 2 ^ f.mb + 2 ^ (f.mb - 1)
  | .e4m3 => 2 ^ (f.eb + f.mb) - 1
  | .finite => 0

/-- The bits that an exact value takes in a format, and whether a finite value saturated (R88: E4M3
saturates to ±448, the others overflow to an infinity; an infinity in E4M3 is NaN by sign). -/
def Fmt.enc (f : Fmt) (rnd : Rnd) : XVal → Nat × Bool
  | .nan => (f.nanBits, false)
  | .inf neg =>
    let s := b2n neg * 2 ^ (f.eb + f.mb)
    match f.sp with
    | .ieee => (s + (2 ^ f.eb - 1) * 2 ^ f.mb, false)
    | .e4m3 => (s + (2 ^ (f.eb + f.mb) - 1), false)
    | .finite => (s + f.encMag f.mmax f.qmax, false)
  | .fin neg m e =>
    let s := b2n neg * 2 ^ (f.eb + f.mb)
    let (m', q) := roundMag (f.mb + 1) f.qmin rnd m e
    if magLe m' q f.mmax f.qmax then (s + f.encMag m' q, false)
    else
      match f.sp with
      | .ieee => (s + (2 ^ f.eb - 1) * 2 ^ f.mb, false)
      | .e4m3 => (s + f.encMag f.mmax f.qmax, true)
      | .finite => (s + f.encMag f.mmax f.qmax, true)

/-- Exact sum; equal and opposite values give +0.0, two zeros keep a common sign (IEEE 754). -/
def XVal.add : XVal → XVal → XVal
  | .nan, _ => .nan
  | _, .nan => .nan
  | .inf a, .inf b => if a = b then .inf a else .nan
  | .inf a, .fin .. => .inf a
  | .fin .., .inf b => .inf b
  | .fin n1 m1 e1, .fin n2 m2 e2 =>
    if m1 = 0 ∧ m2 = 0 then .fin (n1 && n2) 0 0
    else if m1 = 0 then .fin n2 m2 e2
    else if m2 = 0 then .fin n1 m1 e1
    else
      let e := min e1 e2
      let a : Int := (if n1 then -1 else 1) * ((m1 * 2 ^ (e1 - e).toNat : Nat) : Int)
      let b : Int := (if n2 then -1 else 1) * ((m2 * 2 ^ (e2 - e).toNat : Nat) : Int)
      let c := a + b
      .fin (decide (c < 0)) c.natAbs e

/-- Exact product (IEEE 754: ∞ × 0 is NaN). -/
def XVal.mul : XVal → XVal → XVal
  | .nan, _ => .nan
  | _, .nan => .nan
  | .inf a, .inf b => .inf (xor a b)
  | .inf a, .fin b m _ => if m = 0 then .nan else .inf (xor a b)
  | .fin a m _, .inf b => if m = 0 then .nan else .inf (xor a b)
  | .fin a m e, .fin b n f => .fin (xor a b) (m * n) (e + f)

/-- Multiplication by 2^k, exact. -/
def XVal.scale (k : Int) : XVal → XVal
  | .fin a m e => .fin a m (e + k)
  | x => x

/-- The value with its sign reversed. -/
def XVal.neg : XVal → XVal
  | .nan => .nan
  | .inf a => .inf (!a)
  | .fin a m e => .fin (!a) m e

/-- Whether a value is a zero. -/
def XVal.isZero : XVal → Bool
  | .fin _ m _ => decide (m = 0)
  | _ => false

/-- Strict order of two values that are not NaN, with −0.0 = +0.0. -/
def XVal.lt (x y : XVal) : Bool :=
  match x, y with
  | .nan, _ => false
  | _, .nan => false
  | .inf a, .inf b => a && !b
  | .inf a, .fin .. => a
  | .fin .., .inf b => !b
  | .fin n1 m1 e1, .fin n2 m2 e2 =>
    match XVal.add (.fin n1 m1 e1) (.fin (!n2) m2 e2) with
    | .fin n m _ => n && decide (m ≠ 0)
    | _ => false

/-- A binary32 word as an exact value. -/
def x32 (v : W32) : XVal := Fmt.fp32.dec v.toNat
/-- Rounds to binary32, nearest-even. -/
def r32 (x : XVal) : W32 := BitVec.ofNat 32 (Fmt.fp32.enc .even x).1
/-- Rounds to binary32 as told. -/
def r32w (r : Rnd) (x : XVal) : W32 := BitVec.ofNat 32 (Fmt.fp32.enc r x).1

/-- The canonical NaN (R71, R94). -/
def nan32 : W32 := 0x7FC00000#32

/-- FP32 add, multiply and fused multiply-add, each rounded once to nearest-even (R94). -/
def fadd (a b : W32) : W32 := r32 ((x32 a).add (x32 b))
def fmul (a b : W32) : W32 := r32 ((x32 a).mul (x32 b))
def ffma (a b c : W32) : W32 := r32 (((x32 a).mul (x32 b)).add (x32 c))

/-- Whether a binary32 word is NaN, or non-finite. -/
def isNan32 (v : W32) : Bool := decide (x32 v = .nan)
def nonfinite32 (v : W32) : Bool :=
  match x32 v with
  | .fin .. => false
  | _ => true

/-- MIN and MAX of R94: NaN if either is NaN; −0.0 lies below +0.0. -/
def totalLt (a b : W32) : Bool :=
  (x32 a).lt (x32 b) ||
    ((x32 a).isZero && (x32 b).isZero && a.getLsbD 31 && !b.getLsbD 31)
def fmin (a b : W32) : W32 :=
  if isNan32 a || isNan32 b then nan32 else if totalLt b a then b else a
def fmax (a b : W32) : W32 :=
  if isNan32 a || isNan32 b then nan32 else if totalLt a b then b else a

/-- The product of two elements of an array's block (R70). -/
def dot (ps : List (XVal × XVal)) : XVal :=
  ps.foldl (fun s p => s.add (p.1.mul p.2)) (.fin false 0 0)

/-- A block sum as it enters the accumulator: an exact zero contributes +0.0 (R71). -/
def blockValue (x : XVal) : XVal := if x.isZero then .fin false 0 0 else x

/-- An E8M0 scale as an exact power of two; 0xFF is NaN (R71). -/
def e8m0 (b : Byte) : XVal :=
  if b = 0xFF#8 then .nan else .fin false 1 ((b.toNat : Int) - 127)

/-- The element formats by the codes of R67; code 7 is reserved. -/
def fmtOf (code : Nat) : Fmt :=
  match code with
  | 0 => .bf16 | 1 => .fp16 | 2 => .e4m3 | 3 => .e5m2 | 4 => .e3m2 | 5 => .e2m3 | _ => .e2m1

/-- The class of a format code (R67): 0 16-bit, 1 8-bit, 2 narrow. -/
def classOf (code : Nat) : Nat := if code < 2 then 0 else if code < 4 then 1 else 2

/-- K_t by class (R67). -/
def ktOf (cls : Nat) : Nat := match cls with | 0 => 16 | 1 => 32 | _ => 64

/-- Bits per element of a format code (R69). -/
def elemBits (code : Nat) : Nat :=
  match code with
  | 0 => 16 | 1 => 16 | 2 => 8 | 3 => 8 | 4 => 6 | 5 => 6 | _ => 4

/-- Element `i` of packed bytes that `rd` reads (R69). -/
def elemBitsAt (code : Nat) (rd : Nat → Byte) (i : Nat) : Nat :=
  match elemBits code with
  | 16 => (rd (2 * i)).toNat + 256 * (rd (2 * i + 1)).toNat
  | 8 => (rd i).toNat
  | 4 => if i % 2 = 0 then (rd (i / 2)).toNat % 16 else (rd (i / 2)).toNat / 16
  | _ =>
    let g := i / 4
    let v := (rd (3 * g)).toNat + 256 * (rd (3 * g + 1)).toNat + 65536 * (rd (3 * g + 2)).toNat
    (v >>> (6 * (i % 4))) % 64

/-- Element `i` of packed bytes, as an exact value. -/
def elemAt (code : Nat) (rd : Nat → Byte) (i : Nat) : XVal :=
  (fmtOf code).dec (elemBitsAt code rd i)

/-- The output formats of a drain (R88 `of`): 0 FP32, 1 BF16, 2 FP16, 3 E4M3, 4 E5M2. -/
def outFmt (code : Nat) : Fmt :=
  match code with
  | 0 => .fp32 | 1 => .bf16 | 2 => .fp16 | 3 => .e4m3 | _ => .e5m2

/-- Bytes per element of a drain's output (R88). -/
def outBytes (code : Nat) : Nat := match code with | 0 => 4 | 1 => 2 | 2 => 2 | _ => 1

/-- Whether the bits of a format are non-finite (R107). -/
def nonfiniteBits (f : Fmt) (v : Nat) : Bool :=
  match f.dec v with
  | .fin .. => false
  | _ => true

end Sys2Proof.Machine
end

