-- ==== Sys2Proof/Machine/CoreParts.lean ====
section
/-! DEFINITION. The state of a core and of a panel sequencer: contexts, arrays, streams, scratchpad
marks, counters (chapters 03 to 08). Every file of registers is a table whose unlisted entries hold 0. -/

namespace Sys2Proof.Machine

/-- The core exceptions (R57). -/
inductive Exc where
  | illegal
  | addr
  | ue
  | metaE
  | access
  | bundle
deriving DecidableEq, Repr

/-- `CORE_STAT.exc` (R59). -/
def Exc.code : Exc → Nat
  | .illegal => 1 | .addr => 2 | .ue => 3 | .metaE => 4 | .access => 5 | .bundle => 6

/-- The order of R57: the lowest wins. -/
def Exc.rank : Exc → Nat
  | .bundle => 0 | .illegal => 1 | .access => 2 | .addr => 3 | .ue => 4 | .metaE => 5

/-- The states of a context (R52). -/
inductive CtxState where
  | empty
  | ready
  | running
  | waiting
  | parked
  | faulted
deriving DecidableEq, Repr

/-- The codes of R52. -/
def CtxState.code : CtxState → Nat
  | .empty => 0 | .ready => 1 | .running => 2 | .waiting => 3 | .parked => 4 | .faulted => 5

/-- A recorded exception: kind, slot (0 C, 1 M, 2 V, 3 S) and bundle index (R58). -/
structure ExcRec where
  exc : Exc
  slot : Nat
  pc : Nat
deriving DecidableEq, Repr

/-- The scalar, address and predicate registers that a core context and a sequencer both have (R36,
R60). -/
structure Regs where
  s : Tab W64
  a : Tab FAddr
  p : Tab Bool
deriving DecidableEq, Repr

/-- An active hardware loop level (R43): remaining count, first and last bundle of the body. -/
structure LoopLv where
  count : Nat
  start : Nat
  stop : Nat
deriving DecidableEq, Repr

/-- A stream slot (R148). `done` bit j is set while entry position j holds data not yet removed; `resv`
lists the positions that a fill or an LDF has reserved, with the bytes still to land (R150), `owed` the
poisoned entries of a faulted descriptor that still wait for space (R158). -/
structure QSlot where
  base : Nat
  esz : Nat
  mode : Nat
  depth : Nat
  prod : Nat
  cons : Nat
  done : W64
  resv : Tab Nat
  owed : Nat
deriving DecidableEq, Repr

/-- An unused slot (R36). -/
def QSlot.init : QSlot :=
  { base := 0, esz := 0, mode := 0, depth := 0, prod := 0, cons := 0, done := 0, resv := [], owed := 0 }

/-- A transfer descriptor (R155), all fields as stored. -/
structure Desc where
  kind : Nat
  xf : Nat
  srcSlot : Bool
  dstSlot : Bool
  qSrc : Nat
  qDst : Nat
  flag : Nat
  z1 : Nat
  src : Nat
  dst : Nat
  rowBytes : Nat
  rows : Nat
  srcStride : Nat
  dstStride : Nat
  z2 : Nat
deriving DecidableEq, Repr

/-- The states of a descriptor list (R154). -/
inductive LState where
  | idle
  | running
  | atMarker
  | slotWait
  | done
  | fault
  | stopping
deriving DecidableEq, Repr

/-- The codes of R154. -/
def LState.code : LState → Nat
  | .idle => 0 | .running => 1 | .atMarker => 2 | .slotWait => 3 | .done => 4 | .fault => 5 | .stopping => 6

/-- A descriptor that a list has reached and that is not complete (R156): its number, the requests still
out, whether all its requests have been issued, the flag of a SIGNAL, and whether it is counted in `completed`: one
reached before the list's last SLIST is not (R154). -/
structure Act where
  id : Nat
  out : Nat
  issued : Bool
  signal : Option Nat
  counted : Bool
deriving DecidableEq, Repr

/-- The transfer a list is issuing (R160): number, descriptor, row and byte within the row, the bytes
issued so far; for a transform (R168, R169) or a reduction send (R187, `red` its entry) the chunks of raw bytes
landed, by offset, their poison and the output bytes landed; for a unit that goes from a slot to a stack the bytes
gathered so far; for a fill of a slot (R150) the entries reserved, and the ring position of each, by entry of the
fill; `fixed` the runs of raw bytes, each (first byte, length), in which an error was corrected (R47). -/
structure Xfer where
  id : Nat
  d : Desc
  row : Nat
  byte : Nat
  total : Nat
  raw : Tab (List Byte)
  rawPois : Tab (List Bool)
  outDone : Nat
  gath : List Byte
  gathP : List Bool
  nEnt : Nat
  ents : Tab Nat
  red : Option Nat
  fixed : List (Nat × Nat)
deriving DecidableEq, Repr

/-- A descriptor list (R154). -/
structure SList where
  cb : Nat
  next : Nat
  state : LState
  fault : Nat
  completed : Nat
  cur : Option Xfer
  xfs : Tab Xfer
  acts : List Act
  nid : Nat
deriving DecidableEq, Repr

/-- A list that was never started (R36, R154). -/
def SList.init : SList :=
  { cb := 0, next := 0, state := .idle, fault := 0, completed := 0, cur := none, xfs := [], acts := [], nid := 0 }

/-- An open accumulation group (R83, R84). -/
structure Group where
  t : Nat
  n : Nat
  tab : Nat
  wide : Nat
  interval : Nat
  count : Nat
deriving DecidableEq, Repr

/-- The counters of the context that is running or ran last: STR_STAT (R172), VEC_STAT (R111), ACC_CFG
(R91) and GME_STAT (R127). -/
structure Counts where
  hazard : BitVec 16
  listFault : BitVec 4
  delayed : Nat
  refused : Nat
  poison : Nat
  stale : Nat
  faultSt : Nat
  nonfinite : Nat
  gateClosed : Nat
  gateSkip : Nat
  vpoisoned : Nat
  lost : Nat
  spills : Nat
  apoisoned : Nat
  gmeFirst : Nat
  maskDrop : Nat
  metaBad : Nat
  idxDrop : Nat
deriving DecidableEq, Repr

def Counts.init : Counts :=
  { hazard := 0, listFault := 0, delayed := 0, refused := 0, poison := 0, stale := 0, faultSt := 0
    nonfinite := 0, gateClosed := 0, gateSkip := 0, vpoisoned := 0, lost := 0, spills := 0
    apoisoned := 0, gmeFirst := 0, maskDrop := 0, metaBad := 0, idxDrop := 0 }

/-- A context (R36, R52, R54). Vector lane (r, j) is v[64 r + j], quarter poison (r, q) is vp[4 r + q];
accumulator element (arr, t, i, j) is acc[((32 arr + t) 16 + i) 16 + j], its row poison accp[(32 arr +
t) 16 + i]; group (arr, g) is groups[8 arr + g]. -/
structure Ctx where
  state : CtxState
  pc : Nat
  regs : Regs
  k : Tab W64
  v : Tab W32
  vp : Tab Bool
  c : Tab (BitVec 256)
  q : Tab QSlot
  loops : List LoopLv
  branch : Option (Nat × Nat)
  exc : Option ExcRec
  hang : Bool
  mode : BitVec 4
  srs0 : Bool
  srs1 : Bool
  region : Nat
  cycle : Nat
  issue : Nat
  scratch : W64
  gens : Tab W64
  gpos : Tab Nat
  lists : Tab SList
  inv : Nat
  posted : Nat
  postExc : Option Exc
  acc : Tab W32
  accp : Tab Bool
  dirty : Tab Bool
  groups : Tab Group
  everRun : Bool
  counts : Counts
deriving DecidableEq, Repr

/-- The registers at launch (R36). -/
def Regs.init : Regs := { s := [], a := [], p := [] }

/-- A context that does not exist (R52 EMPTY). -/
def Ctx.init : Ctx :=
  { state := .empty, pc := 0, regs := Regs.init, k := [], v := [], vp := [], c := [], q := [], loops := []
    branch := none, exc := none, hang := false, mode := 0, srs0 := false, srs1 := false, region := 0
    cycle := 0, issue := 0, scratch := 0, gens := [], gpos := [], lists := [], inv := 0, posted := 0
    postExc := none, acc := [], accp := [], dirty := [], groups := [], everRun := false
    counts := Counts.init }

/-- A stage of a chain (R98). -/
structure Stage where
  kind : Nat
  op : Nat
  x : Nat
  y : Nat
  z : Nat
  rnd : Bool
deriving DecidableEq, Repr

/-- A chain in flight (R92): its stages, the lanes of A, B and C and the quarter poison of each as read
at issue, the mask, P0-P7, whether it is gradient class, the issue cycle, and for every stage the
generator values taken (R106), by stage: the values of the first and of the second use. -/
structure Flying where
  vd : Nat
  stages : List Stage
  la : Tab W32
  lb : Tab W32
  lc : Tab W32
  pa : Tab Bool
  pb : Tab Bool
  pc : Tab Bool
  mask : W64
  prm : List W32
  gc : Bool
  t : Nat
  gen1 : Tab (Tab W64)
  gen2 : Tab (Tab W64)
deriving DecidableEq, Repr

/-- What a result writes when it retires (R34). -/
inductive RegW where
  | s (r : Nat) (v : W64)
  | a (r : Nat) (v : FAddr)
  | k (r : Nat) (v : W64)
  | p (r : Nat) (v : Bool)
  | c (r : Nat) (v : BitVec 256)
  | q (r : Nat) (v : QSlot)
  | lanes (r : Nat) (lanes : List (Nat × W32)) (quarters : List (Nat × Bool))
  | chain (f : Flying)
  | exc (e : Exc)
  | grpOpen (arr g : Nat) (grp : Group)
  | grpClose (arr g : Nat)
  | srs (arr : Nat) (v : Bool)
  | seedCols (arr : Nat) (v : W64)
  | seedLanes (v : W64)
deriving DecidableEq, Repr

/-- A result in flight: the issue cycle from which it is read, its slot and the bundle index of its
instruction (R34, R35, R58). -/
structure Res where
  due : Nat
  slot : Nat
  pc : Nat
  w : RegW
deriving DecidableEq, Repr

/-- A store whose bytes other ports do not yet see (R40, R102): the issue cycle from which every port
sees it, its port (2 vector, 3 stream), whether later C-slot loads see it at once, its bytes, and the
lines that receive poison. -/
structure PStore where
  due : Nat
  port : Nat
  cSees : Bool
  bytes : List (Nat × Byte)
  pois : List Nat
deriving DecidableEq, Repr

/-- A weight tile of an array (R67, R117): formats, dense or N:M marking (0 dense, 1 2:4, 2 1:4), its
bytes, scales and index metadata, and the poisoned bytes of each. -/
structure WTile where
  wf : Nat
  af : Nat
  nm : Nat
  data : Tab Byte
  scales : Tab Byte
  md : Tab Byte
  dataP : Tab Bool
  scalesP : Tab Bool
  mdP : Tab Bool
deriving DecidableEq, Repr

/-- A zero tile, BF16 and BF16 (R90). -/
def WTile.init : WTile :=
  { wf := 0, af := 0, nm := 0, data := [], scales := [], md := [], dataP := [], scalesP := [], mdP := [] }

/-- A shadow load in progress (R76, R117): issue cycle, number of parts, next part, sources and sizes. -/
structure Load where
  t : Nat
  parts : Nat
  next : Nat
  src : Nat
  srcLen : Nat
  sc : Nat
  scLen : Nat
  md : Nat
  mdLen : Nat
  slot : Nat
  pc : Nat
deriving DecidableEq, Repr

/-- What streams through an array's input (R77, R123). -/
inductive InKind where
  | mmul (x sc : Nat)
  | mpre (bias : Bool) (pf : Bool) (src : Nat)
  | mclr
  | smul (x list : Nat) (base stride : Nat) (bad : Bool)
deriving DecidableEq, Repr

/-- An array input in progress: issue cycle, next row or entry, their number, interval, first tile,
rounding captured at issue (R72), and the bundle index of its instruction. -/
structure Inp where
  t : Nat
  next : Nat
  rows : Nat
  v : Nat
  tile : Nat
  srs : Bool
  kind : InKind
  pc : Nat
deriving DecidableEq, Repr

/-- What an array writes into an accumulator row (R77). -/
inductive RowVal where
  | add (blocks : List (List XVal)) (pois : Bool)
  | put (vals : List W32) (pois : Bool)
  | clear
  | poison
  | nothing
deriving DecidableEq, Repr

/-- A row write on its way: the issue cycle in which it lands, tile, row, rounding, contents. -/
structure RowOp where
  due : Nat
  tile : Nat
  row : Nat
  srs : Bool
  val : RowVal
deriving DecidableEq, Repr

/-- The kinds of drain-unit operation (R87, R125). -/
inductive DKind where
  | mdrain
  | spill
  | mdrs
  | smrg
  | scmp
  | strw
deriving DecidableEq, Repr

/-- A drain-unit operation: its fields, the wide-sum tile it uses, the issue cycle in which the last result is due
that an automatic spill waits for (R85; 0 none), and
once started the panel cycle of the start, the tile read, the random fields taken, and the lines of its scratchpad
input read so far with the uncorrectable ones among them. `hit` holds the lines that a program has written since an SMRG
issued, each with the bytes it held before, or none once the store stands (R124). -/
structure DrainOp where
  kind : DKind
  tile : Nat
  fmt : Nat
  rnd : Bool
  w : Bool
  cl : Bool
  gc : Bool
  nm : Nat
  dst : Nat
  aux : Nat
  aux2 : Nat
  aux3 : Nat
  str : Nat
  wide : Nat
  after : Nat
  pc : Nat
  started : Option Nat
  cap : List W32
  capP : List Bool
  rands : List Nat
  inBytes : List Byte
  inBad : List Nat
  hit : List (Nat × Option (List Byte))
deriving DecidableEq, Repr

/-- A matrix array (R67, R73, R76, R77, R87). `wrote` holds for a tile the panel cycle after the last write
into it, and the issue cycle in which that write was due. -/
structure Arr where
  active : WTile
  shadow : WTile
  load : Option Load
  inp : Option Inp
  busy : Nat
  rows : List RowOp
  wrote : Tab (Nat × Nat)
  gens : Tab W64
  gpos : Tab Nat
  queue : List DrainOp
deriving DecidableEq, Repr

def Arr.init : Arr :=
  { active := WTile.init, shadow := WTile.init, load := none, inp := none, busy := 0, rows := [], wrote := []
    gens := [], gpos := [], queue := [] }

/-- `CORE_STAT.power` (R59). -/
inductive CorePower where
  | run
  | idle
  | doze
  | fenced
deriving DecidableEq, Repr

def CorePower.code : CorePower → Nat
  | .run => 0 | .idle => 1 | .doze => 2 | .fenced => 3

/-- A WAIT in progress (R49): event, destination predicate, tick of issue, timeout, bundle index. -/
structure WaitRec where
  kind : Nat
  arg : Nat
  pd : Nat
  since : Nat
  ticks : Nat
  pc : Nat
deriving DecidableEq, Repr

/-- A REST in progress (R51): event, tick of issue, horizon, whether the core has entered its state,
the tick at which its entry began and the ticks it took (R304), whether its wake has been deferred (R306), whether the device
forces it out of DOZE (R305). -/
structure RestRec where
  kind : Nat
  arg : Nat
  since : Nat
  horizon : Nat
  entered : Bool
  entryAt : Nat
  entryTicks : Nat
  deferred : Bool
  forced : Bool
deriving DecidableEq, Repr

/-- Why a core is at a context boundary (R55). -/
inductive Boundary where
  | yieldB
  | endB
  | exc
deriving DecidableEq, Repr

/-- SPD_STAT (R146). -/
structure SpdStat where
  downgrade : Nat
  corrected : Nat
  ue : Nat
  poisonRd : Nat
  wbLost : Nat
deriving DecidableEq, Repr

/-- The update gate (R109). -/
inductive Gate where
  | closed
  | apply
  | skip
deriving DecidableEq, Repr

def Gate.code : Gate → Nat
  | .closed => 0 | .apply => 1 | .skip => 2

/-- The selections and the code region that the last CONTEXT_LAUNCH gave a context id (R52). -/
structure Sel where
  mode : BitVec 4
  region : Nat
deriving DecidableEq, Repr

/-- A line that was read corrected and waits for its write-back (R134): line index and corrected
bytes. -/
structure WriteBack where
  line : Nat
  data : List Byte
deriving DecidableEq, Repr

/-- What an outstanding entry of a stream engine waits for (R160, R161). -/
inductive ReqPhase where
  | sent
  | retry (at_ : Nat)
  | replied
deriving DecidableEq, Repr

/-- What the bytes of a request are for; those for a slot land in runs of its ring, each (first byte, length). -/
inductive ReqUse where
  | land (dst : Nat)
  | slot (q : Nat) (runs : List (Nat × Nat))
  | raw (id off : Nat)
  | copyOut (dst : Nat)
  | ldf (q pos : Nat)
  | posted (q : Nat)
  | write
deriving DecidableEq, Repr

/-- An outstanding request of a core (R160, R192): context, invocation, list, descriptor number, use,
target address, block and the epoch the table gave at issue, length, data and its poison,
status, refusals and phase. Poison is kept by 64-byte granule of the data (R173). -/
structure Req where
  ctx : Nat
  inv : Nat
  list : Option Nat
  desc : Nat
  use : ReqUse
  addr : Nat
  block : Nat
  epoch : Nat
  len : Nat
  data : List Byte
  pois : List Bool
  status : Nat
  corrected : Bool
  refusals : Nat
  phase : ReqPhase
deriving DecidableEq, Repr

/-- A logical core (chapters 03 to 08). `undef` lists the save areas whose contents are undefined since
their context became EMPTY (R53), with the draw that fills them, and `redef` the lines of them written
since. `launches` holds the launch record of a context (R353): entry bundle and s1 to s4; `inReset`
that a reset of the core has begun and not released it (R341); `pins` the reductions that a core fenced while they ran
does not finish (R189); `late` that the present hold at a slot has been counted
(R47); `haltReq` that a debug halt has been asked and not reached, `stepReq` that a debug step lets one more bundle issue
and then asks it (R375). -/
structure Core where
  cur : Nat
  active : Bool
  ctxs : Tab Ctx
  power : CorePower
  dark : Bool
  halted : Option Nat
  haltReq : Bool
  stepReq : Bool
  held : Option Bundle
  wait : Option WaitRec
  rest : Option RestRec
  boundary : Option Boundary
  icyc : Nat
  flight : List Res
  stores : List PStore
  m0 : Arr
  m1 : Arr
  vport : Nat
  bpc : Nat
  stat : Option (ExcRec × Nat)
  postFault : Bool
  lateSlot : Nat
  late : Bool
  wcollide : Nat
  spd : SpdStat
  ueaddr : W64
  regions : Tab W64
  red : Tab W64
  xwake : Bool
  mark : Option Nat
  sels : Tab Sel
  launches : Tab (Nat × List W64)
  inReset : Bool
  wb : List WriteBack
  outst : Tab Req
  pins : List Nat
  undef : Tab Nat
  redef : Tab Bool
  flag : Bool
  gate : Gate
deriving DecidableEq, Repr

def SpdStat.init : SpdStat := { downgrade := 0, corrected := 0, ue := 0, poisonRd := 0, wbLost := 0 }

/-- A core after reset: no context, zeroized. -/
def Core.init : Core :=
  { cur := 0, active := false, ctxs := [], power := .run, dark := false, halted := none, haltReq := false, stepReq := false, held := none
    wait := none, rest := none, boundary := none, icyc := 0, flight := [], stores := []
    m0 := Arr.init, m1 := Arr.init, vport := 0, bpc := 0, stat := none, postFault := false
    lateSlot := 0, late := false, wcollide := 0, spd := SpdStat.init, ueaddr := 0, regions := [], red := []
    xwake := false, mark := none, sels := [], launches := [], inReset := false, wb := [], outst := [], pins := [], undef := [], redef := [], flag := false, gate := .closed }

/-- The check state of a line (R131, R132, R144): the check bits of its 64 bytes, its line check, its
checked bit and its poison mark. -/
structure Line where
  chk : W64
  lchk : BitVec 16
  checked : Bool
  poison : Bool
deriving DecidableEq, Repr

/-- A zeroized line (R143). -/
def Line.zero : Line := { chk := BitVec.allOnes 64, lchk := 0, checked := true, poison := false }

/-- The states of a sequencer (R66). -/
inductive SeqState where
  | idle
  | running
  | waiting
  | prest
  | frog
  | halted
  | fault
deriving DecidableEq, Repr

def SeqState.code : SeqState → Nat
  | .idle => 0 | .running => 1 | .waiting => 2 | .prest => 3 | .frog => 4 | .halted => 5 | .fault => 6

/-- The sequencer faults (R66). -/
inductive SeqFault where
  | illegal
  | addr
  | access
  | step
  | ue
deriving DecidableEq, Repr

def SeqFault.code : SeqFault → Nat
  | .illegal => 1 | .addr => 2 | .access => 3 | .step => 4 | .ue => 5

/-- A fabric access of a sequencer (R60): target address, size in bytes, the data of an STF, the scalar
register of an LDF, block and epoch, refusals, its phase, and once answered the status and the data. -/
structure SeqReq where
  addr : Nat
  size : Nat
  wr : Option (List Byte)
  dst : Nat
  block : Nat
  epoch : Nat
  refusals : Nat
  phase : ReqPhase
  status : Nat
  data : List Byte
deriving DecidableEq, Repr

/-- What a sequencer waits for (R60, R62, R63); STEP_BEGIN carries its destination register. -/
inductive SeqWait where
  | flag (f : Nat)
  | barrier (c : Nat) (v : Nat) (f : Nat)
  | cwait (k : Nat) (set : W64) (pd : Nat)
  | stepBegin (d : Nat)
  | stepEnd (pd : Nat)
  | fabric (q : SeqReq)
deriving DecidableEq, Repr

/-- A PREST in progress (R64): event, horizon, tick at which its wait condition held, save_ok, pd,
whether the panel rests. -/
structure PrestRec where
  kind : Nat
  arg : Nat
  horizon : Nat
  since : Option Nat
  saveOk : Bool
  pd : Nat
  resting : Bool
deriving DecidableEq, Repr

/-- What STEP_BEGIN snapshots (R63). -/
structure SeqSnap where
  regs : Regs
  loops : List LoopLv
  frog : Nat
deriving DecidableEq, Repr

/-- A panel sequencer (R60 to R66). `wdLeft` is the watchdog's countdown as it stood at tick `wdFrom`; it
runs while `wdRun` (R65). -/
structure Seq where
  state : SeqState
  fault : Option SeqFault
  pc : Nat
  regs : Regs
  loops : List LoopLv
  scratch : W64
  cycle : Nat
  issue : Nat
  flags : W64
  bar : Tab Nat
  period : W32
  wdLeft : Nat
  wdRun : Bool
  wdFrom : Nat
  release : Bool
  stepOpen : Bool
  step : W32
  wait : Option SeqWait
  prest : Option PrestRec
  snap : Option SeqSnap
deriving DecidableEq, Repr

def Seq.init : Seq :=
  { state := .idle, fault := none, pc := 0, regs := Regs.init, loops := [], scratch := 0, cycle := 0
    issue := 0, flags := 0, bar := [], period := 0x08000000#32, wdLeft := 0x08000000, wdRun := false, wdFrom := 0, release := false
    stepOpen := false, step := 0, wait := none, prest := none, snap := none }

end Sys2Proof.Machine
end

