-- ==== Sys2Proof/Machine/Func.lean ====
section
/-! DEFINITION. The FUNC stages of a chain (R95): the coefficients of every segment, derived from the
exact functions by fixed-point arithmetic of 2^-256 and rounded once to FP32, and the evaluations.
DEDUCED, log entry 8: a fixed-point error of that size does not move a rounding to FP32. -/

namespace Sys2Proof.Machine

/-- The fixed-point unit 2^256. -/
def fxOne : Nat := 2 ^ 256

/-- FP32 nearest to ±num/den, ties to even. -/
def ratToF32 (neg : Bool) (num den : Nat) : W32 :=
  let k := 40 + bitLen den - bitLen num
  let q := num * 2 ^ k / den
  let sticky := b2n (decide (num * 2 ^ k % den ≠ 0))
  r32 (.fin neg (2 * q + sticky) (-(k : Int) - 1))

/-- Sum of z^(2j+1)/(2j+1) from term `j`, with `t` = z^(2j+1) and `z2` = z² in fixed point. -/
def atanhSeries (z2 : Nat) : Nat → Nat → Nat → Nat
  | 0, _, _ => 0
  | fuel + 1, j, t => t / (2 * j + 1) + atanhSeries z2 fuel (j + 1) (t * z2 / fxOne)

/-- ln(a/b) in fixed point, for b ≤ a ≤ 2b. -/
def fxLn (a b : Nat) : Nat :=
  let z := (a - b) * fxOne / (a + b)
  2 * atanhSeries (z * z / fxOne) 90 0 z

/-- ln 2 in fixed point. -/
def fxLn2 : Nat := fxLn 2 1

/-- Sum of y^k/k! from term `k`, with `t` the term before. -/
def expSeries (y : Nat) : Nat → Nat → Nat → Nat
  | 0, _, t => t
  | fuel + 1, k, t => t + expSeries y fuel (k + 1) (t * y / fxOne / k)

/-- Squares a fixed-point value `n` times. -/
def sqTimes : Nat → Nat → Nat
  | 0, x => x
  | n + 1, x => sqTimes n (x * x / fxOne)

/-- e^y in fixed point for 0 ≤ y < 16, by halving eight times and squaring back. -/
def fxExp (y : Nat) : Nat := sqTimes 8 (expSeries (y / 256) 50 1 fxOne)

/-- Integer square root by binary digits. -/
def isqrtGo (n : Nat) : Nat → Nat → Nat
  | 0, r => r
  | b + 1, r => isqrtGo n b (if (r + 2 ^ b) * (r + 2 ^ b) ≤ n then r + 2 ^ b else r)

/-- √a in fixed point. -/
def fxSqrt (a : Nat) : Nat := isqrtGo (a * fxOne * fxOne) 264 0

/-- The three coefficients of a segment. -/
structure Coef where
  c0 : W32
  c1 : W32
  c2 : W32
deriving DecidableEq, Repr

/-- EXP2, segment i at u = i/128. -/
def coefExp2 (i : Nat) : Coef :=
  let e := fxExp (i * fxLn2 / 128)
  { c0 := ratToF32 false e fxOne
    c1 := ratToF32 false (e * fxLn2) (fxOne * fxOne)
    c2 := ratToF32 false (e * fxLn2 * fxLn2) (2 * fxOne * fxOne * fxOne) }

/-- LOG2 at u = a/256. -/
def coefLog2 (a : Nat) : Coef :=
  { c0 := ratToF32 false (fxLn a 256) fxLn2
    c1 := ratToF32 false (256 * fxOne) (a * fxLn2)
    c2 := ratToF32 true (65536 * fxOne) (2 * a * a * fxLn2) }

/-- RSQRT at u = a/256. -/
def coefRsqrt (a : Nat) : Coef :=
  let s := fxSqrt a
  { c0 := ratToF32 false (16 * fxOne) s
    c1 := ratToF32 true (2048 * fxOne) (a * s)
    c2 := ratToF32 false (393216 * fxOne) (a * a * s) }

/-- RECIP at u = a/256. -/
def coefRecip (a : Nat) : Coef :=
  { c0 := ratToF32 false 256 a
    c1 := ratToF32 true 65536 (a * a)
    c2 := ratToF32 false 16777216 (a * a * a) }

/-- TANH at u = a/256. -/
def coefTanh (a : Nat) : Coef :=
  let x := fxExp (2 * a * fxOne / 256)
  let d := fxOne
  { c0 := ratToF32 false (x - d) (x + d)
    c1 := ratToF32 false (4 * x * d) ((x + d) * (x + d))
    c2 := ratToF32 true ((x - d) * 4 * x * d) ((x + d) * (x + d) * (x + d)) }

/-- The evaluation of R95: p = fma(c2, d, c1), g = fma(p, d, c0), with d exact. -/
def evalSeg (c : Coef) (d : XVal) : W32 :=
  let p := r32 (((x32 c.c2).mul d).add (x32 c.c1))
  r32 (((x32 p).mul d).add (x32 c.c0))

/-- The largest integer not above ±m·2^e. -/
def floorX (neg : Bool) (m : Nat) (e : Int) : Int :=
  let v : Int := if neg then -(m : Int) else m
  if 0 ≤ e then v * 2 ^ e.toNat else v / 2 ^ (-e).toNat

/-- m·2^e − a/2^k, exact, for use where it is not negative. -/
def subDyadic (m : Nat) (e : Int) (a k : Nat) : XVal :=
  (XVal.fin false m e).add (.fin true a (-(k : Int)))

/-- EXP2 (R95). -/
def exp2F (x : W32) : W32 :=
  match x32 x with
  | .nan => nan32
  | .inf false => 0x7F800000#32
  | .inf true => 0#32
  | .fin neg m e =>
    let n := floorX neg m e
    let f := (XVal.fin neg m e).add (.fin (decide (0 < n)) n.natAbs 0)
    match f with
    | .fin _ fm fe =>
      let i := (floorX false fm (fe + 7)).toNat
      let g := evalSeg (coefExp2 i) (subDyadic fm fe i 7)
      r32 ((x32 g).scale n)
    | _ => nan32


/-- LOG2 (R95): FP32 add of e and g. -/
def log2F (x : W32) : W32 :=
  match x32 x with
  | .nan => nan32
  | .inf false => 0x7F800000#32
  | .inf true => nan32
  | .fin neg m e =>
    if m = 0 then 0xFF800000#32
    else if neg then nan32
    else
      let l := bitLen m - 1
      let ex : Int := e + l
      let a := (m * 256) / 2 ^ l
      let g := evalSeg (coefLog2 a) (subDyadic m (-(l : Int)) a 8)
      r32 ((XVal.fin (decide (ex < 0)) ex.natAbs 0).add (x32 g))

/-- RSQRT (R95). -/
def rsqrtF (x : W32) : W32 :=
  match x32 x with
  | .nan => nan32
  | .inf false => 0#32
  | .inf true => nan32
  | .fin neg m e =>
    if m = 0 then (if neg then 0xFF800000#32 else 0x7F800000#32)
    else if neg then nan32
    else
      let l := bitLen m - 1
      let ex : Int := e + l
      let odd := decide (ex % 2 ≠ 0)
      let h : Int := if odd then ex - 1 else ex
      let m' := if odd then 2 * m else m
      let a := (m' * 256) / 2 ^ l
      let g := evalSeg (coefRsqrt a) (subDyadic m' (-(l : Int)) a 8)
      r32 ((x32 g).scale (-(h / 2)))

/-- RECIP (R95). -/
def recipF (x : W32) : W32 :=
  match x32 x with
  | .nan => nan32
  | .inf neg => if neg then 0x80000000#32 else 0#32
  | .fin neg m e =>
    if m = 0 then (if neg then 0xFF800000#32 else 0x7F800000#32)
    else
      let l := bitLen m - 1
      let ex : Int := e + l
      let a := (m * 256) / 2 ^ l
      let g := evalSeg (coefRecip a) (subDyadic m (-(l : Int)) a 8)
      let r := (x32 g).scale (-ex)
      r32 (if neg then r.neg else r)

/-- TANH (R95): |x| ≥ 8 gives 1.0, with the sign of x. -/
def tanhF (x : W32) : W32 :=
  match x32 x with
  | .nan => nan32
  | .inf neg => if neg then 0xBF800000#32 else 0x3F800000#32
  | .fin neg m e =>
    let big := !(magLe m e 8 0) || decide (magLe 8 0 m e)
    let g :=
      if big then 0x3F800000#32
      else
        let a := (floorX false m (e + 8)).toNat
        evalSeg (coefTanh a) (subDyadic m e a 8)
    if neg then g ^^^ 0x80000000#32 else g

/-- SIGMOID (R95). -/
def sigmoidF (x : W32) : W32 :=
  let t := tanhF (fmul 0x3F000000#32 x)
  ffma 0x3F000000#32 t 0x3F000000#32

/-- GELU (R95). -/
def geluF (x : W32) : W32 :=
  let k1 := ratToF32 false 44715 1000000
  let k2 := ratToF32 false 7978845608 10000000000
  let u := fmul x x
  let u := ffma u k1 0x3F800000#32
  let u := fmul u x
  let u := fmul u k2
  let t := tanhF u
  let h := fmul 0x3F000000#32 x
  ffma h t h

/-- FUNC by operation code (R93). -/
def funcOp (op : Nat) (x : W32) : W32 :=
  match op with
  | 0 => exp2F x
  | 1 => log2F x
  | 2 => rsqrtF x
  | 3 => recipF x
  | 4 => tanhF x
  | 5 => sigmoidF x
  | _ => geluF x

end Sys2Proof.Machine
end

