-- ==== Sys2Proof/Machine/Chain.lean ====
section
/-! DEFINITION. Vector chains (R92 to R100): stages, the library, descriptors and their checks, the
evaluation of a chain over the 64 lanes, and the generators (R105). -/

namespace Sys2Proof.Machine

/-- One advance of a 64-bit generator (R105). -/
def xsAdvance (x : W64) : W64 :=
  let x := x ^^^ (x <<< 13)
  let x := x ^^^ (x >>> 7)
  x ^^^ (x <<< 17)

/-- A zero generator value is replaced by 1 (R73, R106). -/
def nonzeroGen (x : W64) : W64 := if x = 0 then 1 else x

/-- The rounding field of a generator value (R105). -/
def roundField (x : W64) : Nat := x.toNat % 2 ^ 16

/-- The uniform of a generator value: x[63:40] × 2^-24 (R105). -/
def uniform (x : W64) : W32 := r32 (.fin false (x.toNat / 2 ^ 40) (-24))

/-- The latency of a stage (R93). -/
def Stage.lat (st : Stage) : Nat :=
  match st.kind with
  | 1 => 1
  | 2 => 2
  | 3 => if st.op = 5 then 8 else if st.op = 6 then 12 else 6
  | 4 => 1
  | 5 => 6
  | _ => 1

/-- L = 2 + the sum of the stage latencies (R92). -/
def chainLat (sts : List Stage) : Nat := 2 + (sts.map Stage.lat).sum

/-- How many of X, Y and Z a stage uses (R93). -/
def Stage.arity (st : Stage) : Nat :=
  if st.kind = 2 then (if st.op = 3 ∨ st.op = 9 then 3 else if st.op = 10 ∨ st.op = 11 then 1 else 2) else 1

/-- The selects that a stage uses. -/
def Stage.sels (st : Stage) : List Nat := [st.x, st.y, st.z].take st.arity

/-- The number of operation codes of a kind (R93). -/
def kindOps (k : Nat) : Nat :=
  match k with
  | 1 => 9 | 2 => 12 | 3 => 7 | 4 => 4 | 5 => 3 | 6 => 6 | _ => 0

/-- Whether a stage rounds stochastically (R93). -/
def Stage.stoch (st : Stage) : Bool :=
  st.rnd && (st.kind == 4 || (st.kind == 6 && decide (1 ≤ st.op) && decide (st.op ≤ 4)))

/-- Whether a stage takes the uniform U (R97). -/
def Stage.usesU (st : Stage) : Bool := st.sels.contains 12

/-- A stage word of a descriptor (R98). -/
def Stage.ofWord (w : Nat) : Stage :=
  { kind := fld w 31 29, op := fld w 28 24, x := fld w 23 18, y := fld w 17 12, z := fld w 11 6
    rnd := w.testBit 5 }

/-- Stage word k of a descriptor (R98). -/
def stageWord (d : Nat) (k : Nat) : Nat := fld d (64 + 32 * k + 31) (64 + 32 * k)

/-- The checks of R99 on a descriptor: none where it may not run, else its stages. -/
def descStages (d : Nat) : Option (List Stage) :=
  let n := fld d 10 8
  let sts := (List.range n).map (fun k => Stage.ofWord (stageWord d k))
  let ok1 := decide (1 ≤ n) && decide (n ≤ 6)
    && (List.range 6).all (fun k => decide (k < n) || stageWord d k == 0)
    && fld d 7 7 == 0 && fld d 15 11 == 0 && fld d 63 17 == 0
    && (List.range n).all (fun k => fld (stageWord d k) 4 0 == 0)
  let ok2 := sts.zipIdx.all (fun e =>
    let st := e.1
    let k := e.2
    decide (st.op < kindOps st.kind)
      && st.sels.all (fun x =>
        (decide (x ≤ 19) || (decide (24 ≤ x) && decide (x ≤ 29)))
          && !(x == 0 && k == 0)
          && (decide (x < 24) || decide (x - 24 < k)))
      && decide ((st.sels.filter (· == 12)).length ≤ 1)
      && (st.kind != 6 || k + 1 == n)
      && (!st.rnd || st.kind == 4 || st.kind == 6))
  let ok3 := decide ((sts.filter (fun st => st.kind == 5)).length ≤ 1)
  if ok1 && ok2 && ok3 then some sts else none

/-- A stage of the library. -/
def mkSt (kind op x : Nat) (y : Nat := 0) (z : Nat := 0) (rnd : Bool := false) : Stage :=
  { kind := kind, op := op, x := x, y := y, z := z, rnd := rnd }

/-- The library chains (R100); selects: 0 PREV, 1 A, 2 B, 3 C, 4-11 P0-P7, 12 U, 14 +0.0, 18 log2 e,
19 ln 2, 24 E0. -/
def library (id : Nat) : Option (List Stage) :=
  match id with
  | 0x00 => some [mkSt 6 0 1]
  | 0x01 => some [mkSt 2 0 1 2]
  | 0x02 => some [mkSt 2 1 1 2]
  | 0x03 => some [mkSt 2 2 1 2]
  | 0x04 => some [mkSt 2 3 1 2 3]
  | 0x05 => some [mkSt 2 3 4 1 3]
  | 0x06 => some [mkSt 2 2 1 4]
  | 0x07 => some [mkSt 2 5 1 2]
  | 0x08 => some [mkSt 2 4 1 2]
  | 0x09 => some [mkSt 2 5 1 14]
  | 0x0A => some [mkSt 2 2 1 18, mkSt 3 0 0]
  | 0x0B => some [mkSt 3 1 1, mkSt 2 2 0 19]
  | 0x0C => some [mkSt 3 2 1]
  | 0x0D => some [mkSt 3 3 1]
  | 0x0E => some [mkSt 3 4 1]
  | 0x0F => some [mkSt 3 5 1]
  | 0x10 => some [mkSt 3 6 1]
  | 0x11 => some [mkSt 5 0 1]
  | 0x12 => some [mkSt 5 1 1]
  | 0x13 => some [mkSt 2 2 1 1, mkSt 5 0 0]
  | 0x14 => some [mkSt 5 0 1, mkSt 2 0 0 3]
  | 0x15 => some [mkSt 2 2 1 1, mkSt 5 0 0, mkSt 2 0 0 3]
  | 0x16 => some [mkSt 2 1 1 4, mkSt 2 2 0 5, mkSt 2 3 0 2 3]
  | 0x17 => some [mkSt 5 1 1, mkSt 2 5 0 3]
  | 0x18 => some [mkSt 2 1 1 2, mkSt 2 2 0 18, mkSt 3 0 0]
  | 0x19 => some [mkSt 2 1 1 2, mkSt 2 2 0 18, mkSt 3 0 0, mkSt 5 0 0, mkSt 2 3 3 4 0]
  | 0x1A => some [mkSt 6 1 1]
  | 0x1B => some [mkSt 6 1 1 0 0 true]
  | 0x1C => some [mkSt 6 2 1]
  | 0x1D => some [mkSt 6 3 1]
  | 0x1E => some [mkSt 6 4 1]
  | 0x1F => some [mkSt 1 1 1]
  | 0x20 => some [mkSt 1 3 1]
  | 0x21 => some [mkSt 1 5 1]
  | 0x22 => some [mkSt 1 6 1]
  | 0x23 => some [mkSt 2 2 1 5, mkSt 2 3 4 3 0]
  | 0x24 => some [mkSt 2 2 1 1, mkSt 2 2 0 7, mkSt 2 3 6 3 0]
  | 0x25 => some [mkSt 2 3 2 8 9, mkSt 3 2 0, mkSt 2 2 0 1, mkSt 2 2 0 10, mkSt 2 3 3 11 0]
  | 0x26 => some [mkSt 2 2 1 4, mkSt 2 6 12 5, mkSt 2 9 0 14 24]
  | _ => none

/-- The stages and the gated bit of the chain that an id names on a context (R99, R100, R110). -/
def chainOf (x : Ctx) (id : Nat) : Option (List Stage × Bool) :=
  if id < 0x40 then (library id).map (fun sts => (sts, decide (0x23 ≤ id) && decide (id ≤ 0x25)))
  else
    match (List.range 8).find? (fun r => (Tab.get 0 x.c r).toNat % 128 == id) with
    | none => none
    | some r =>
      let d := (Tab.get 0 x.c r).toNat
      (descStages d).map (fun sts => (sts, d.testBit 16))

/-- CONVERT (R93): exact but for INT32. A NaN is canonical (R94). -/
def convertOp (op : Nat) (v : W32) : W32 :=
  let n := v.toNat
  match op with
  | 0 => r32 (x32 v)
  | 1 => r32 (Fmt.bf16.dec (n % 65536))
  | 2 => r32 (Fmt.bf16.dec (n / 65536))
  | 3 => r32 (Fmt.fp16.dec (n % 65536))
  | 4 => r32 (Fmt.fp16.dec (n / 65536))
  | 5 => r32 (Fmt.e4m3.dec (n % 256))
  | 6 => r32 (Fmt.e5m2.dec (n % 256))
  | 7 => r32 (.fin (decide (v.toInt < 0)) v.toInt.natAbs 0)
  | _ => r32 (.fin false (n % 256) 0)

/-- 1.0 or +0.0. -/
def fbool (b : Bool) : W32 := if b then 0x3F800000#32 else 0#32

/-- ALU (R93, R94); ABS and NEG change the sign bit alone, of a NaN too (log entry 9). -/
def aluOp (op : Nat) (x y z : W32) : W32 :=
  match op with
  | 0 => fadd x y
  | 1 => r32 ((x32 x).add (x32 y).neg)
  | 2 => fmul x y
  | 3 => ffma x y z
  | 4 => fmin x y
  | 5 => fmax x y
  | 6 => fbool ((x32 x).lt (x32 y))
  | 7 => fbool ((x32 x).lt (x32 y) || (!isNan32 x && !isNan32 y && !(x32 y).lt (x32 x)))
  | 8 => fbool (!isNan32 x && !isNan32 y && !(x32 x).lt (x32 y) && !(x32 y).lt (x32 x))
  | 9 => r32 (x32 (if (x32 x).isZero then z else y))
  | 10 => x &&& 0x7FFFFFFF#32
  | _ => x ^^^ 0x80000000#32

/-- ROUND (R93): to a value set, the result staying FP32; and whether E4M3 saturated. -/
def roundOp (op : Nat) (r : Rnd) (x : W32) : W32 × Bool :=
  let f := match op with | 0 => Fmt.bf16 | 1 => Fmt.fp16 | 2 => Fmt.e4m3 | _ => Fmt.e5m2
  let (v, s) := f.enc r (x32 x)
  (r32 (f.dec v), s)

/-- PACK (R93), and whether E4M3 saturated. -/
def packOp (op : Nat) (r : Rnd) (x : W32) : W32 × Bool :=
  match op with
  | 0 => (x, false)
  | 5 =>
    match x32 x with
    | .nan => (0, false)
    | .inf n => (if n then 0x80000000#32 else 0x7FFFFFFF#32, false)
    | .fin n m e =>
      let (i, q) := roundMag (bitLen m + 200) 0 .even m e
      let v := i * 2 ^ (min q.toNat 64)
      if n then (if 2 ^ 31 ≤ v then 0x80000000#32 else BitVec.ofInt 32 (-(v : Int)), false)
      else (if 2 ^ 31 ≤ v then 0x7FFFFFFF#32 else BitVec.ofNat 32 v, false)
  | _ =>
    let (v, s) := (outFmt op).enc r (x32 x)
    (BitVec.ofNat 32 v, s)

/-- One level of the tree of R96: neighbours combined. -/
def pairUp (f : W32 → W32 → W32) : List W32 → List W32
  | a :: b :: t => f a b :: pairUp f t
  | l => l

/-- The tree of R96 over 64 lanes. -/
def treeOf (f : W32 → W32 → W32) : Nat → List W32 → List W32
  | 0, l => l
  | n + 1, l => treeOf f n (pairUp f l)

/-- REDUCE (R96): a masked lane enters as the identity. -/
def reduceOp (op : Nat) (mask : W64) (l : List W32) : W32 :=
  let ident : W32 := match op with | 0 => 0x80000000#32 | 1 => 0xFF800000#32 | _ => 0x7F800000#32
  let f := match op with | 0 => fadd | 1 => fmax | _ => fmin
  nth 0 (treeOf f 6 (l.zipIdx.map (fun e => if mask.getLsbD e.2 then e.1 else ident))) 0

/-- The operand that select `sel` gives stage `k` at lane `j` (R97). -/
def selOp (f : Flying) (outs : List (List W32)) (k sel j : Nat) : W32 :=
  match sel with
  | 0 => nth 0 (nth [] outs (k - 1)) j
  | 1 => Tab.get 0 f.la j
  | 2 => Tab.get 0 f.lb j
  | 3 => Tab.get 0 f.lc j
  | 12 => uniform (Tab.get 0 (Tab.get [] f.gen1 k) j)
  | 13 => r32 (.fin false j 0)
  | 14 => 0#32
  | 15 => 0x3F800000#32
  | 16 => 0xBF800000#32
  | 17 => 0x3F000000#32
  | 18 => 0x3FB8AA3B#32
  | 19 => 0x3F317218#32
  | n => if n < 12 then nth 0 f.prm (n - 4) else nth 0 (nth [] outs (n - 24)) j

/-- The rounding of a stage at a lane (R72, R106). -/
def stageRnd (f : Flying) (st : Stage) (k j : Nat) : Rnd :=
  if st.stoch then .stoch (roundField (Tab.get 0 (Tab.get [] f.gen2 k) j)) else .even

/-- The outputs of stage `k` over the lanes, and for each whether E4M3 saturated. -/
def evalStage (f : Flying) (outs : List (List W32)) (k : Nat) (st : Stage) : List (W32 × Bool) :=
  let lanes := List.range 64
  let x := fun j => selOp f outs k st.x j
  match st.kind with
  | 1 => lanes.map (fun j => (convertOp st.op (x j), false))
  | 2 => lanes.map (fun j => (aluOp st.op (x j) (selOp f outs k st.y j) (selOp f outs k st.z j), false))
  | 3 => lanes.map (fun j => (funcOp st.op (x j), false))
  | 4 => lanes.map (fun j => roundOp st.op (stageRnd f st k j) (x j))
  | 5 =>
    let v := reduceOp st.op f.mask (lanes.map x)
    lanes.map (fun _ => (v, false))
  | _ => lanes.map (fun j => packOp st.op (stageRnd f st k j) (x j))

/-- The outputs of all stages, with the lanes that saturated in any of them. -/
def evalStages (f : Flying) : List Stage → Nat → List (List W32) → List Bool → List (List W32) × List Bool
  | [], _, outs, sat => (outs, sat)
  | st :: t, k, outs, sat =>
    let r := evalStage f outs k st
    evalStages f t (k + 1) (outs ++ [r.map (·.1)]) ((sat.zip (r.map (·.2))).map (fun e => e.1 || e.2))

/-- What a chain delivers (R92, R104, R107): its unmasked lanes, the lanes poisoned, whether a
gradient-class value is non-finite, saturated or poisoned. -/
structure ChainOut where
  lanes : List (Nat × W32)
  pois : List Nat
  flagged : Bool
deriving DecidableEq, Repr

/-- The quarter of A, B or C that stage selects read at lane `j` is poisoned (R104). -/
def readsPoison (f : Flying) (sts : List Stage) (j : Nat) : Bool :=
  sts.any (fun st => st.sels.any (fun x =>
    (x == 1 && Tab.get false f.pa (j / 16)) || (x == 2 && Tab.get false f.pb (j / 16))
      || (x == 3 && Tab.get false f.pc (j / 16))))

/-- Evaluates a chain whose generator values have been taken. -/
def evalChain (f : Flying) : ChainOut :=
  let (outs, sat) := evalStages f f.stages 0 [] (List.replicate 64 false)
  let last := nth [] outs (f.stages.length - 1)
  let un := (List.range 64).filter (fun j => f.mask.getLsbD j)
  let upTo := f.stages.take ((f.stages.findIdx (fun st => st.kind == 5)) + 1)
  let viaReduce := f.stages.any (fun st => st.kind == 5) && un.any (fun j => readsPoison f upTo j)
  let pois := un.filter (fun j => viaReduce || readsPoison f f.stages j)
  let bits := fun (v : W32) =>
    match f.stages.getLast? with
    | some st =>
      if st.kind = 6 then
        (if st.op = 5 then false else nonfiniteBits (outFmt st.op) v.toNat)
      else nonfinite32 v
    | none => false
  { lanes := un.map (fun j => (j, nth 0 last j))
    pois := pois
    flagged := f.gc && (un.any (fun j => bits (nth 0 last j) || nth false sat j) || !pois.isEmpty) }

end Sys2Proof.Machine
end

