-- ==== Sys2Proof/Machine/MatrixCalc.lean ====
section
/-! DEFINITION. What a matrix array computes: sizes by format and marking (R67, R115), output rows (R70,
R71, R117), accumulator adds (R70, R72), conversions of a drain (R88) and spills (R86). -/

namespace Sys2Proof.Machine

/-- Bytes of a weight tile by weight format (R67). -/
def tileBytes (wf : Nat) : Nat := if wf = 4 ∨ wf = 5 then 768 else 512
/-- Issue cycles of a shadow load (R67). -/
def loadParts (wf : Nat) : Nat := if wf = 4 ∨ wf = 5 then 24 else 16
/-- Dense K rows that one activation row covers (R67, R115); nm 0 dense, 1 2:4, 2 1:4. -/
def denseK (wf nm : Nat) : Nat :=
  let k := ktOf (classOf wf)
  match nm with | 0 => k | 1 => 2 * k | _ => 4 * k
/-- Blocks of 32 along the dense K; none carry scales in the 16-bit class (R67). -/
def scaleBlocks (wf nm : Nat) : Nat := if classOf wf = 0 then 0 else denseK wf nm / 32
/-- Bytes of the weight scales of a tile (R67, R115). -/
def wScaleBytes (wf nm : Nat) : Nat := 16 * scaleBlocks wf nm
/-- Bytes of the index metadata of a tile (R113). -/
def metaBytes (wf nm : Nat) : Nat := if nm = 0 then 0 else 4 * ktOf (classOf wf)
/-- Bytes of an activation row (R67, R115). -/
def rowBytes (w : WTile) : Nat := denseK w.wf w.nm * elemBits w.af / 8
/-- Bytes of the activation scales of a row (R67, R115). -/
def rowScales (w : WTile) : Nat := scaleBlocks w.wf w.nm
/-- The row interval v (R115); 1 for a dense tile. -/
def rowInterval (w : WTile) : Nat := if w.nm = 0 then 1 else ceilDiv (rowBytes w + rowScales w) 96

/-- The 2-bit position of element i (R113). -/
def posAt (w : WTile) (i : Nat) : Nat := ((Tab.get 0 w.md (i / 4)).toNat >>> (2 * (i % 4))) % 4

/-- A 2:4 group whose two positions are equal is bad metadata: its values are +0.0 and its positions 0 and 1
(R126). -/
def badGroup (w : WTile) (g n : Nat) : Bool :=
  decide (w.nm = 1) && decide (posAt w (32 * g + n) = posAt w (32 * g + 16 + n))

/-- The (dense row, weight) pairs of column n (R69, R113, R117). -/
def column (w : WTile) (n : Nat) : List (Nat × XVal) :=
  (List.range (ktOf (classOf w.wf))).map (fun k =>
    let i := 16 * k + n
    let v := elemAt w.wf (fun b => Tab.get 0 w.data b) i
    match w.nm with
    | 0 => (k, v)
    | 1 => if badGroup w (k / 2) n then (4 * (k / 2) + k % 2, .fin false 0 0) else (4 * (k / 2) + posAt w i, v)
    | _ => (4 * k + posAt w i, v))

/-- The block sums of one activation row (R70): by block, the 16 columns. -/
def rowBlocks (w : WTile) (act sc : List Byte) : List (List XVal) :=
  let a := fun k => elemAt w.af (fun b => nth 0 act b) k
  let nb := max 1 (scaleBlocks w.wf w.nm)
  let scaled := decide (0 < scaleBlocks w.wf w.nm)
  let cols := (List.range 16).map (column w)
  (List.range nb).map (fun b =>
    cols.zipIdx.map (fun e =>
      let els := if scaled then e.1.filter (fun p => p.1 / 32 == b) else e.1
      let s := dot (els.map (fun p => (a p.1, p.2)))
      let s := if scaled then
          (s.mul (e8m0 (nth 0 sc b))).mul (e8m0 (Tab.get 0 w.scales (16 * b + e.2)))
        else s
      blockValue s))

/-- Some byte of the tile, its scales or its metadata is poisoned, of those that its formats and marking have (R76,
R89, R117). -/
def WTile.poisoned (w : WTile) : Bool :=
  w.dataP.any (fun e => decide (e.1 < tileBytes w.wf)) || w.scalesP.any (fun e => decide (e.1 < wScaleBytes w.wf w.nm))
    || w.mdP.any (fun e => decide (e.1 < metaBytes w.wf w.nm))

/-- Key of an accumulator element (R80). -/
def accKey (arr t i j : Nat) : Nat := ((32 * arr + t) * 16 + i) * 16 + j
/-- Key of an accumulator row. -/
def accRow (arr t i : Nat) : Nat := (32 * arr + t) * 16 + i

/-- One field of column generator n (R73): free-running mode takes bits [15:0] of the value as it
stands; counter mode takes the four fields in turn and then advances. -/
def colField (counter : Bool) (A : Arr) (n : Nat) : Nat × Arr :=
  let x := Tab.get 1 A.gens n
  if !counter then (roundField x, A)
  else
    let i := Tab.get 0 A.gpos n
    let r := (x.toNat >>> (16 * i)) % 2 ^ 16
    if i = 3 then (r, { A with gens := Tab.set A.gens n (xsAdvance x), gpos := Tab.put 0 A.gpos n 0 })
    else (r, { A with gpos := Tab.put 0 A.gpos n (i + 1) })

/-- Adds the blocks of one column into an accumulator element, one rounding a block (R70). Every
rounding consumes a field where the running sum is stochastic (R72, R73; log entry 10). -/
def addColumn (counter srs : Bool) (n : Nat) : List XVal → W32 → Arr → W32 × Arr
  | [], v, A => (v, A)
  | x :: t, v, A =>
    if srs then
      let (r, A) := colField counter A n
      addColumn counter srs n t (r32w (.stoch r) ((x32 v).add x)) A
    else addColumn counter srs n t (r32 ((x32 v).add x)) A

/-- Adds a row of block sums into accumulator row (t, i) of an array (R70, R89). -/
def addRow (counter srs : Bool) (arr t i : Nat) (blocks : List (List XVal)) (pois : Bool) (x : Ctx)
    (A : Arr) : Ctx × Arr :=
  let r := (List.range 16).foldl (fun (st : Tab W32 × Arr) n =>
    let (v, A) := addColumn counter srs n (blocks.map (fun b => nth (.fin false 0 0) b n))
      (Tab.get 0 st.1 (accKey arr t i n)) st.2
    (Tab.put 0 st.1 (accKey arr t i n) v, A)) (x.acc, A)
  ({ x with acc := r.1, accp := if pois then Tab.put false x.accp (accRow arr t i) true else x.accp }, r.2)

/-- Replaces accumulator row (t, i) (R82, R89). -/
def putRow (arr t i : Nat) (vals : List W32) (pois : Bool) (x : Ctx) : Ctx :=
  { x with
    acc := vals.zipIdx.foldl (fun a e => Tab.put 0 a (accKey arr t i e.2) e.1) x.acc
    accp := Tab.put false x.accp (accRow arr t i) pois }

/-- Sets tile t of an array to +0.0 and clears its poison (R89). -/
def clearTile (arr t : Nat) (x : Ctx) : Ctx :=
  { x with acc := Tab.delRange x.acc (accKey arr t 0 0) 256, accp := Tab.delRange x.accp (accRow arr t 0) 16 }

/-- binary64 of the bytes of a wide-sum element. -/
def x64 (l : List Byte) : XVal := Fmt.fp64.dec (leNat l)
/-- Rounds to binary64, nearest-even. -/
def r64 (x : XVal) : Nat := (Fmt.fp64.enc .even x).1

/-- Little-endian bytes of a list of values of `b` bytes each. -/
def packVals (b : Nat) (l : List Nat) : List Byte := l.flatMap (fun v => leBytes b v)


end Sys2Proof.Machine
end

