-- ==== Sys2Proof/Config.lean ====
section
/-! DEFINITION. What the manual leaves open (opaque: no value can be proved of them) and what the fuses
and secrets of one module fix. Log entries 3, 4, 5, 6 and 12. -/

namespace Sys2Proof.Config

/-- A free value drawn by the state's counter `freeSeq` (log entry 3). -/
opaque freeNat : Nat → Nat

/-- A byte of a save area released by its context (R53): by the release and the offset. -/
opaque freeByte : Nat → Nat → Byte

/-- The key pair that the entropy source gives at the n-th SESSION_OPEN (R202): data key in its low, tweak key in its
high 256 bits. -/
opaque sessionKey : Nat → BitVec 512

/-- The phase of a core's far-bank refresh rotation, in cycles (R48). -/
opaque refreshPhase : Nat → Nat

/-- The length of a refresh window of a core's subbank; the window is at most 4 cycles (R48). -/
opaque refreshLen : Nat → Nat → Nat

/-- The module serial number (fuses; R282 IDENTIFY). -/
opaque serial : W64

/-- What an IDENT flit's payload says (R226), whose layout the manual does not give: 0 serial, 1 port, 2 role,
3 whether a feed bridge sent it (log entry 3). -/
opaque identField : Nat → List Byte → Nat

/-- The failed lane that a LANE flit's payload names (R222), whose layout the manual does not give (log
entry 3). -/
opaque laneField : List Byte → Nat

/-- The payload of an IDENT flit of serial, port and role (R226), and of a LANE flit of a lane (R222), of no layout in the
manual (log entry 3). -/
opaque identPayload : Nat → Nat → Nat → List Byte
opaque lanePayload : Nat → List Byte

/-- The preset of the equaliser of a lane of a port (R226): of no encoding in the manual. -/
opaque lanePreset : Nat → Nat → Nat

/-- Ed25519 verification (RFC 8032): public key, message, signature. -/
opaque ed25519Verify : List Byte → List Byte → List Byte → Bool

/-- Ed25519 signature of the identity key over a message (R360, R361). -/
opaque identitySign : List Byte → List Byte

/-- The identity public key, 32 bytes (R360). -/
opaque identityKey : List Byte

/-- The vendor firmware public key in the Ubide ROM (R363). -/
opaque vendorKey : List Byte

/-- The vendor debug public key in the Ubide ROM (R371). -/
opaque vendorDebugKey : List Byte

/-- The vendor firmware key digest held in fuses (R363). -/
opaque vendorDigest : List Byte

/-- The image of kind 0, 1 or 2 that the module left the factory with (R362, R363). -/
opaque factoryImage : Nat → List Byte

/-- The factory round-trip costs of DOZE (0), NAP (1) and SLEEP (2) of a panel in fuses (R304). -/
opaque factoryCost : Nat → Nat → Nat

/-- The break-even times of DOZE (0), NAP (1) and SLEEP (2) of a panel in fuses (R304). -/
opaque breakEven : Nat → Nat → Nat

end Sys2Proof.Config
end

