-- ==== Sys2Proof/Machine/FabricParts.lean ====
section
/-! DEFINITION. The state of the fabric and of the memory stacks: packets, reduction packets, the hub of a
panel and its stack (chapters 08 to 10). -/

namespace Sys2Proof.Machine

/-- The source of a packet (R173): a core, a panel's sequencer, its stack interface, a link port, the
control die. -/
inductive Src where
  | core (n : Nat)
  | seq (p : Nat)
  | stack (p : Nat)
  | port (o : Nat)
  | die
deriving DecidableEq, Repr

/-- What a packet asks (R173). -/
inductive POp where
  | read
  | write
  | posted
deriving DecidableEq, Repr

/-- Where a packet stands: at the router of a logical core, in a panel's hub, or at its target (for a
reply, at its requester). -/
inductive Pos where
  | mesh (n : Nat)
  | hub (p : Nat)
  | there
deriving DecidableEq, Repr

/-- The route classes of R178 and R184. -/
inductive Route where
  | xy
  | yx
  | hub
  | unreachable
deriving DecidableEq, Repr

/-- The codes of `HUB_RT.mesh_class` (R184). -/
def Route.code : Route → Nat
  | .xy => 0 | .yx => 1 | .hub => 2 | .unreachable => 3

/-- A request or reply in flight (R173, R174). `dst` is the address of the request, `src` the requester;
a reply travels from the target back. `inp` codes the input by which the packet entered the router or hub where it
stands (R174), `path` lists the hubs it has left, the last first (R178), `hops` counts the bridges it has crossed (R181),
and `home` is where its requester is attached. `mirror` marks the mirror writes, copy reads and rebuild reads that stack
interfaces send (R209, R210), `raw` the rebuild reads, which take ciphertext (R203), `lost` a packet held at a lost panel
(R184). -/
structure Packet where
  pid : Nat
  reply : Bool
  op : POp
  status : Nat
  dst : Nat
  src : Src
  epoch : Nat
  tag : Nat
  ctx : Nat
  inv : Nat
  size : Nat
  data : List Byte
  pois : List Bool
  pos : Pos
  inp : Nat
  path : List Nat
  hops : Nat
  home : Pos
  route : Route
  mirror : Bool
  raw : Bool
  lost : Bool
deriving DecidableEq, Repr

/-- A broadcast packet (R190, R286, R287): the partition whose image it belongs to, the section's kind and
number, the rectangle of cores or the panels that take it, the offset and the bytes, the receivers that have taken
their copy; where its data stand in the staging area (none: past the image's end), their length and `crc`, whether
they were read unpoisoned, whether this is the section's second sending, and the receivers that found a mismatch. -/
structure Bcast where
  pid : Nat
  part : Nat
  kind : Nat
  sect : Nat
  panels : Nat
  x0 : Nat
  y0 : Nat
  x1 : Nat
  y1 : Nat
  off : Nat
  data : List Byte
  taken : Tab Bool
  src : Option Nat
  len : Nat
  crc : Nat
  good : Bool
  again : Bool
  reports : List Nat
deriving DecidableEq, Repr

/-- The descriptor to which a reduction send belongs (R189). -/
structure RedOwner where
  ctx : Nat
  inv : Nat
  list : Nat
  desc : Nat
deriving DecidableEq, Repr

/-- The inputs of a router in the adding order of R188. -/
inductive RedIn where
  | own
  | west
  | east
  | north
  | south
deriving DecidableEq, Repr

/-- The place of an input in the adding order. -/
def RedIn.code : RedIn → Nat
  | .own => 0 | .west => 1 | .east => 2 | .north => 3 | .south => 4

/-- A reduction packet waiting at an input of a router (R174, R187). `owner` is the send of the
destination core that completes when the element has landed. -/
structure RedPkt where
  router : Nat
  id : Nat
  inp : RedIn
  elem : Nat
  fmt : Bool
  x0 : Nat
  y0 : Nat
  x1 : Nat
  y1 : Nat
  dst : Nat
  data : List Byte
  p0 : Bool
  p1 : Bool
  owner : Option RedOwner
deriving DecidableEq, Repr

/-- What a read of one stack sector delivers (R200, R201): bytes, whether they are poisoned, whether newly, whether
corrected. -/
structure SecRd where
  bytes : List Byte
  pois : Bool
  fresh : Bool
  fixed : Bool
deriving DecidableEq, Repr

/-- A request held at a hub for its stack (R162 to R164): packet, class (0 read, 1 write, 2 remote), number of its first
unit still to grant and units left; whether it arrived in the present window, whether the window in which it arrived
ended with its class out of share, whether it has been counted as delayed; what the sectors of the unit in progress gave,
by their place in it; what a read has gathered, with the poison of each byte. -/
structure HubReq where
  pid : Nat
  cls : Nat
  unit : Nat
  left : Nat
  fresh : Bool
  late : Bool
  counted : Bool
  secs : Tab SecRd
  data : List Byte
  pois : List Bool
  status : Nat
deriving DecidableEq, Repr

/-- A hub's split (R162, R166). -/
structure Split where
  r : Nat
  w : Nat
  m : Nat
deriving DecidableEq, Repr

/-- The basic split (R162). -/
def Split.basic : Split := { r := 38, w := 16, m := 10 }

/-- The share of a class. -/
def Split.of (s : Split) (cls : Nat) : Nat := match cls with | 0 => s.r | 1 => s.w | _ => s.m

/-- A panel hub (R162 to R167, R184, R194, R195): `stale` that a new route table is on its way, `lossDue` that a
PANEL_LOST report came since the last. -/
structure Hub where
  split : Split
  next : Option Split
  used : Tab Nat
  grants : Nat
  waiting : List HubReq
  delayed : Tab Nat
  refused : Tab Nat
  hops : Tab Nat
  classes : Tab Route
  gen : Nat
  meshBroken : Bool
  bypassed : Nat
  closed : Nat
  updateTicks : Nat
  stale : Bool
  lossDue : Bool
  staleEpoch : Nat
  targetAbsent : Nat
  rerouted : Nat
  redMismatch : Nat
  redLost : Nat
deriving DecidableEq, Repr

/-- A hub after reset (R167, R184, R194, R195). -/
def Hub.init : Hub :=
  { split := Split.basic, next := none, used := [], grants := 0, waiting := [], delayed := [], refused := []
    hops := [], classes := [], gen := 0, meshBroken := false, bypassed := 0, closed := 0, updateTicks := 0
    stale := false, lossDue := false, staleEpoch := 0, targetAbsent := 0, rerouted := 0, redMismatch := 0, redLost := 0 }

/-- `STK_STAT.power` (R212). -/
inductive StackPower where
  | active
  | powerDown
  | selfRefresh
  | off
deriving DecidableEq, Repr

def StackPower.code : StackPower → Nat
  | .active => 0 | .powerDown => 1 | .selfRefresh => 2 | .off => 3

/-- The fill of a stack (R392): none, begun by a bring-up, running. -/
inductive Fill where
  | none
  | due
  | running
deriving DecidableEq, Repr

/-- A range still to scrub by command (R205, SCRUB): first unit and units left. -/
structure ScrubPass where
  unit : Nat
  left : Nat
deriving DecidableEq, Repr

/-- What a stack interface asks of its partner (R209, R210). -/
inductive MirrorKind where
  | write
  | copy
  | rebuild
deriving DecidableEq, Repr

/-- What a stack interface has to do at its partner: for a request `pid` that it serves a mirror write, or a read of the
copy of the sector at `off` (R209); or the read of a unit that it rebuilds (R210). Sent under a tag with an epoch, or still
to be sent. -/
structure MirrorReq where
  pid : Nat
  kind : MirrorKind
  off : Nat
  data : List Byte
  pois : List Bool
  sent : Option (Nat × Nat)
deriving DecidableEq, Repr

/-- A memory stack and its interface (R202 to R215, R392). `key` is the loaded key pair; `checks` holds the stored check
bytes of a sector by its physical number, where it is unlisted those of a filled sector; `retire` maps a page to its spare
page; `merges` lists the narrow writes whose read-merge is in progress; `rewrites` the corrected sectors waiting to be
written back, `partner` what is still to be done at the partner, `rebuilt` the first unit that a rebuild has still to
take. -/
structure Stack where
  power : StackPower
  key : Option (BitVec 512)
  checks : Tab (List Byte)
  mirrored : Bool
  mirrorLost : Bool
  rebuild : Fill
  rebuilt : Nat
  ue : Nat
  corrected : Nat
  merge : Nat
  mirrorFix : Nat
  poisonRd : Nat
  ueaddr : W64
  scrubOn : Bool
  interval : Nat
  next : Nat
  lastScrub : Nat
  pass : Option ScrubPass
  retire : Tab Nat
  entries : List Nat
  spares : Nat
  retiring : Option Nat
  merges : List Nat
  rewrites : List Nat
  partner : List MirrorReq
  tag : Nat
  fill : Fill
  lastUse : Nat
deriving DecidableEq, Repr

/-- A stack after reset (R212 to R215): off. -/
def Stack.init : Stack :=
  { power := .off, key := none, checks := [], mirrored := false, mirrorLost := false, rebuild := .none, rebuilt := 0
    ue := 0, corrected := 0, merge := 0, mirrorFix := 0, poisonRd := 0, ueaddr := 0, scrubOn := true
    interval := 0x07D0, next := 0, lastScrub := 0, pass := none, retire := [], entries := [], spares := 0
    retiring := none, merges := [], rewrites := [], partner := [], tag := 0, fill := .none, lastUse := 0 }

/-- The key of a block in the table of epochs (R192): cores by number, then sequencers,
stacks and ports. -/
def blockOf : Src → Nat
  | .core n => n
  | .seq p => 40000 + p
  | .stack p => 41000 + p
  | .port o => 42000 + o
  | .die => 43000

end Sys2Proof.Machine
end

