-- ==== Sys2Proof/Machine/PanelParts.lean ====
section
/-! DEFINITION. The state of a panel: power, clock, repair map, darning, hub, stack, sequencer, hang status
(chapters 02, 03, 08 to 10, 14 to 16). -/

namespace Sys2Proof.Machine

/-- `PNL_POWER.state` (R312). -/
inductive PPower where
  | active
  | nap
  | sleep
  | off
deriving DecidableEq, Repr

def PPower.code : PPower → Nat
  | .active => 0 | .nap => 1 | .sleep => 2 | .off => 3

/-- A wake of a panel under way (R303, R306): the inrush units it needs, whether it is deferred, whether
the device forced it (R305), the horizon of the PREST that it ends (R304). -/
structure PanelWake where
  units : Nat
  deferred : Bool
  forced : Bool
  horizon : Option Nat
deriving DecidableEq, Repr

/-- The phases of a darning (R335). -/
inductive DarnPhase where
  | idle
  | stopping
  | carrying
  | zeroizing
  | releasing
deriving DecidableEq, Repr

def DarnPhase.code : DarnPhase → Nat
  | .idle => 0 | .stopping => 1 | .carrying => 2 | .zeroizing => 3 | .releasing => 4

/-- A carry step (R331): the logical cores that it moves, by core number. -/
structure Carry where
  cores : List Nat
deriving DecidableEq, Repr

/-- A darning of a panel (R330 to R335): the fenced cores that wait, the carry steps still to run, the
core whose site failed and the map change in force; `failed` holds the site at which a core was last fenced. -/
structure Darn where
  phase : DarnPhase
  queue : List Nat
  steps : List Carry
  core : Nat
  site : Nat
  carried : Nat
  failed : Tab Nat
  unfused : Nat
  holesMade : Nat
  darned : Nat
deriving DecidableEq, Repr

def Darn.init : Darn :=
  { phase := .idle, queue := [], steps := [], core := 0, site := 0, carried := 0, failed := [], unfused := 0, holesMade := 0, darned := 0 }

/-- An engine of the hang detector (R351). -/
inductive Eng where
  | ctx (n k : Nat)
  | list (n k l : Nat)
  | seq (p : Nat)
  | red (n r i : Nat)
  | entry (o vc i : Nat)
deriving DecidableEq, Repr

/-- What a snapshot holds of an engine (R352): whether it waits, its edges, and the counts by which its
progress shows. -/
structure EngRec where
  eng : Eng
  waits : Bool
  edges : List Eng
  mark : List Nat
deriving DecidableEq, Repr

/-- `PNL_HANG` and the snapshots of a hub (R352, R359). -/
structure Hang where
  state : Nat
  verdict : Nat
  suspects : Nat
  ctx : Nat
  core : Nat
  snapshots : Nat
  hangs : Nat
  replays : Nat
  last : Nat
  snap : List EngRec
  prev : List EngRec
deriving DecidableEq, Repr

def Hang.init : Hang :=
  { state := 0, verdict := 0, suspects := 0, ctx := 0, core := 0, snapshots := 0, hangs := 0, replays := 0, last := 0, snap := [], prev := [] }

/-- A panel becomes ACTIVE: no snapshot has been taken since (R359). -/
def Hang.fresh (h : Hang) : Hang := { h with snapshots := 0, snap := [], prev := [] }

/-- `PNL_ERR` (R359). -/
structure PanelErr where
  source : Nat
  level : Nat
  coreResets : Nat
  panelResets : Nat
  checks : Nat
  watchdog : Nat
deriving DecidableEq, Repr

def PanelErr.init : PanelErr := { source := 0, level := 0, coreResets := 0, panelResets := 0, checks := 0, watchdog := 0 }

/-- `PNL_TENSION` and the readings of a panel's sensors (R307, R308, R313). `target` is the step that a
step change in progress goes to; of the panel's input power `watts` holds the samples of the last 1 ms, `wsamples` those since
the last 1 ms average was kept, `wsecs` those averages over 1 s. -/
structure Tension where
  step : Nat
  target : Option Nat
  limit : Nat
  last : Nat
  junction : List Nat
  stackTemp : Nat
  watts : List Nat
  wsamples : Nat
  wsecs : List Nat
  droop : Nat
  slowed : Nat
deriving DecidableEq, Repr

def Tension.init : Tension :=
  { step := 2, target := none, limit := 0, last := 0, junction := [], stackTemp := 0, watts := [], wsamples := 0, wsecs := [], droop := 0, slowed := 0 }

/-- A panel's bring-up (R321): not in a wave, raised by a wave, self-tested and trained. -/
inductive Bring where
  | none
  | due
  | built
deriving DecidableEq, Repr

/-- A panel. `leaving` lists the ticks at which the wakes of its cores from DOZE end, `coreWaits` the cores whose wake is deferred, in the order they asked (R306); `firstUse` is the tick at which the first-use hold began, or the ticks it has run while the panel is not ACTIVE, `costs` the learned round-trip
costs (1 DOZE, 2 NAP, 3 SLEEP), `fresh` the bits of `PNL_FRESH`, `routers` the sites fenced for a router
fault, `probed` the tick of the last probe round since the panel became ACTIVE (0: none), `missed` the tick at which a core's probe was repeated,
`wasBrought` whether the panel has completed R321 since it was last OFF. -/
structure Panel where
  power : PPower
  lost : Bool
  railUp : Nat
  cyc : Nat
  seq : Seq
  skipRow : Nat
  skipCol : Tab Nat
  bad : Tab Bool
  holes : Tab Bool
  hub : Hub
  stack : Stack
  inReset : Bool
  fenced : Nat
  routers : Tab Bool
  wake : Option PanelWake
  firstUse : Option Nat
  offReq : Bool
  reqSt : Nat
  deferred : Nat
  coreDeferred : Nat
  wakes : Nat
  overrun : Nat
  costs : Tab Nat
  tension : Tension
  darn : Darn
  fresh : Tab Bool
  probed : Nat
  missed : Tab Nat
  hang : Hang
  err : PanelErr
  bring : Bring
  brought : Bool
  shorted : Bool
  leaving : List Nat
  coreWaits : List Nat
deriving DecidableEq, Repr

def Panel.init : Panel :=
  { power := .off, lost := false, railUp := 0, cyc := 0, seq := Seq.init, skipRow := 24, skipCol := []
    bad := [], holes := [], hub := Hub.init, stack := Stack.init, inReset := false, fenced := 0, routers := []
    wake := none, firstUse := none, offReq := false, reqSt := 0, deferred := 0, coreDeferred := 0, wakes := 0
    overrun := 0, costs := [], tension := Tension.init, darn := Darn.init, fresh := [], probed := 0, missed := []
    hang := Hang.init, err := PanelErr.init, bring := .none, brought := false, shorted := false, leaving := [], coreWaits := [] }

end Sys2Proof.Machine
end

