-- ==== Sys2Proof/Machine/ModParts.lean ====
section
/-! DEFINITION. The state of the control die: host interface, Ubide block, reset controller, power, cast-on,
hang detector, debug, pins (chapters 13 to 18). -/

namespace Sys2Proof.Machine

/-- A command that holds the command window (R278 to R282): opcode, tag, arguments, the tick of its latch,
the panels, ports or units it waits for, results so far. -/
structure Win where
  op : Nat
  tag : Nat
  args : List W64
  since : Nat
  wait : List Nat
  res0 : Nat
  res1 : Nat
deriving DecidableEq, Repr

/-- What the module last returned to the host or the debug port (R269, R270, R374): the bytes, the EP mark
and the completion (0 successful, 1 Unsupported Request, 2 Completer Abort). The model's own record of an
output. -/
structure HostOut where
  data : List Byte
  ep : Bool
  status : Nat
deriving DecidableEq, Repr

/-- A host access to a stack that a hub has refused or not yet served (R270, R277): whether it came through
the fabric window, its request tag, address, length, data, arrival, refusals and phase, and whether it
has completed Completer Abort while its write goes on. -/
structure HostReq where
  fab : Bool
  wr : Bool
  addr : Nat
  len : Nat
  data : List Byte
  pois : Bool
  since : Nat
  refusals : Nat
  phase : ReqPhase
  aborted : Bool
deriving DecidableEq, Repr

/-- The host interface (R268 to R279); `aer` counts the errors reported through AER, the model's own record of an output. -/
structure HostIf where
  sel : Nat
  retry : Nat
  ur : Nat
  ep : Nat
  lastSt : Nat
  fabStatus : Nat
  fabInc : Bool
  fabSize : Nat
  fabAddr : Nat
  fabData : W64
  cmdTag : Nat
  args : List W64
  res : List W64
  rejValid : Bool
  rejTag : Nat
  rejOp : Nat
  rejCount : Nat
  win : Option Win
  opcode : Nat
  code : Nat
  tag : Nat
  progress : Nat
  msixAddr : W64
  msixData : W32
  msixMasked : Bool
  msixPending : Bool
  msixSent : Nat
  d3 : Bool
  reqs : Tab HostReq
  nextTag : Nat
  aer : Nat
  out : HostOut
deriving DecidableEq, Repr

def HostIf.init : HostIf :=
  { sel := 0, retry := 0, ur := 0, ep := 0, lastSt := 0, fabStatus := 0, fabInc := false, fabSize := 3, fabAddr := 0
    fabData := 0, cmdTag := 0, args := List.replicate 8 0, res := List.replicate 8 0, rejValid := false, rejTag := 0
    rejOp := 0, rejCount := 0, win := none, opcode := 0, code := 0, tag := 0, progress := 0, msixAddr := 0
    msixData := 0, msixMasked := true, msixPending := false, msixSent := 0, d3 := false, reqs := [], nextTag := 0
    aer := 0, out := { data := [], ep := false, status := 0 } }

/-- The lifecycle (R292, R368). -/
inductive Life where
  | blank
  | provisioned
  | recovery
  | retired
deriving DecidableEq, Repr

def Life.code : Life → Nat
  | .blank => 0 | .provisioned => 1 | .recovery => 2 | .retired => 3

/-- A pending challenge (R288). -/
structure Challenge where
  nonce : List Byte
  n : Nat
  byKey : Bool
  idx : Nat
  since : Nat
deriving DecidableEq, Repr

/-- An installed firmware image (R362 to R364). -/
structure Firmware where
  bytes : List Byte
  version : Nat
  svn : Nat
deriving DecidableEq, Repr

/-- The Ubide block (R288 to R292, R360 to R379). `former` is the lifecycle that RECOVERY was entered from;
`lastFail` the tick of the last failure; `nextKey` numbers the next session key. -/
structure Ubide where
  life : Life
  former : Life
  record : Option (List Byte)
  store : Tab Firmware
  floor : Nat
  failures : Nat
  lastFail : Nat
  challenge : Option Challenge
  nonce : List Byte
  proof : List Byte
  resumeS : Nat
  nextKey : Nat
  dbg : Nat
  dpart : Nat
  unlocks : Nat
  denied : Nat
  bufPois : Tab Bool
deriving DecidableEq, Repr

def Ubide.init : Ubide :=
  { life := .blank, former := .blank, record := none, store := [], floor := 0, failures := 0, lastFail := 0
    challenge := none, nonce := List.replicate 32 0, proof := List.replicate 64 0, resumeS := 0x0258, nextKey := 1
    dbg := 0, dpart := 0, unlocks := 0, denied := 0, bufPois := [] }

/-- The phases of a reset (R341). -/
inductive RPhase where
  | fired
  | drain
  | notice
deriving DecidableEq, Repr

/-- A reset that runs or has fired (R338 to R343): its source, level and target, whether it was reached by
escalation, its phase, the tick from which its limits count, the tick at which its source fired. -/
structure RunReset where
  source : Nat
  level : Nat
  target : Nat
  escalated : Bool
  phase : RPhase
  since : Nat
  at_ : Nat
deriving DecidableEq, Repr

/-- The reset controller (R337 to R346). -/
structure ResetCtl where
  source : Nat
  level : Nat
  escalated : Bool
  target : Nat
  failedStarts : Nat
  forced : Nat
  escalations : Nat
  blockResets : Nat
  running : List RunReset
deriving DecidableEq, Repr

def ResetCtl.init : ResetCtl :=
  { source := 0, level := 4, escalated := false, target := 0, failedStarts := 0, forced := 0, escalations := 0
    blockResets := 0, running := [] }

/-- Inrush units in use (R306): the panel, the units, the tick until which they are held. -/
structure Inrush where
  panel : Nat
  units : Nat
  until_ : Nat
deriving DecidableEq, Repr

/-- The module's power registers and governor (R306 to R311, R315). `recent` are the 10 µs samples of the
input power; `unmet` counts consecutive evaluations, `deferred` the panels whose wake is deferred, in
order, `evalAt` the tick of the last evaluation, `inAt` of the last
sample of the input power, `samples` those since the last whole millisecond. -/
structure Power where
  cap : Nat
  volts : Nat
  recent : List Nat
  in1ms : Nat
  in1s : Nat
  secs : List Nat
  peak : Nat
  capUnmet : Nat
  inrushDeferred : Nat
  trips : Nat
  tripPin : Bool
  unmet : Nat
  inrush : List Inrush
  deferred : List Nat
  evalAt : Nat
  inAt : Option Nat
  samples : Nat
deriving DecidableEq, Repr

def Power.init : Power :=
  { cap := 0xA410, volts := 0, recent := [], in1ms := 0, in1s := 0, secs := [], peak := 0, capUnmet := 0
    inrushDeferred := 0, trips := 0, tripPin := false, unmet := 0, inrush := [], deferred := [], evalAt := 0, inAt := none, samples := 0 }

/-- `MSTAT.state` (R275). -/
inductive ModState where
  | castOn
  | ready
  | fault
  | recovery
deriving DecidableEq, Repr

def ModState.code : ModState → Nat
  | .castOn => 2 | .ready => 3 | .fault => 7 | .recovery => 8

/-- Cast-on (R316 to R318, R349): the step in progress, the panels that have been in a wave, completed it
or failed it, the ticks at which cast-on began and at which steps 3 and 9 were reached, the tick of a failure
before step 3. -/
structure CastOn where
  step : Nat
  waved : List Nat
  done : List Nat
  failed : List Nat
  since : Nat
  third : Nat
  ninth : Nat
  failedAt : Option Nat
deriving DecidableEq, Repr

def CastOn.init : CastOn := { step := 1, waved := [], done := [], failed := [], since := 0, third := 0, ninth := 0, failedAt := none }

/-- An entry of the error log (R358). -/
structure LogEntry where
  tick : Nat
  severity : Nat
  cls : Nat
  unit : Nat
  status : Nat
  d0 : Nat
  d1 : Nat
deriving DecidableEq, Repr

/-- The error log (R357): the ring's held entries from tail to head, the indices and counters. -/
structure ErrLog where
  held : List LogEntry
  ring : Tab LogEntry
  head : Nat
  tail : Nat
  written : Nat
  dropped : Nat
  fatal : Nat
deriving DecidableEq, Repr

def ErrLog.init : ErrLog := { held := [], ring := [], head := 0, tail := 0, written := 0, dropped := 0, fatal := 0 }

/-- A hang that has been declared (R352 to R354): its partition (4: no partition), the suspects in order, whether a step was
open, the panels of its partition, and its entry in the error log. -/
structure HangJob where
  part : Nat
  suspects : List (Nat × Nat)
  inStep : Bool
  panels : List Nat
  entry : Option LogEntry
deriving DecidableEq, Repr

/-- A suspect that is being stopped as by a CONTEXT reset (R341, R353), since a tick. -/
structure HangStop where
  n : Nat
  k : Nat
  since : Nat
deriving DecidableEq, Repr

/-- The hang detector of the command processor (R352 to R354): the tick of the last combination; of the hang whose suspects
replay its partition, its suspects, those still to replay, the suspect being replayed with its launch and the snapshots that
have shown its wait, the guilty ones, its panels and its log entry; the hangs declared meanwhile; the suspects being
stopped. -/
structure HangCtl where
  last : Nat
  part : Nat
  suspects : List (Nat × Nat)
  todo : List (Nat × Nat)
  cur : Option (Nat × Nat)
  since : Nat
  snaps : Nat
  guilty : List (Nat × Nat)
  inStep : Bool
  panels : List Nat
  active : Bool
  entry : Option LogEntry
  queue : List HangJob
  stopping : List HangStop
deriving DecidableEq, Repr

def HangCtl.init : HangCtl :=
  { last := 0, part := 0, suspects := [], todo := [], cur := none, since := 0, snaps := 0, guilty := [], inStep := false
    panels := [], active := false, entry := none, queue := [], stopping := [] }

/-- The debug controls of the module (R380): the selected core and context and the last status. Halts are kept by core. -/
structure Debug where
  core : Nat
  ctx : Nat
  lastSt : Nat
deriving DecidableEq, Repr

/-- The pins and buses of chapter 18 and JTAG (R377, R388): PERST# and MODULE_RESET# asserted,
TRAY_PWR_CYCLE_REQ# asserted, the selected JTAG instruction, the TAP held in reset, the boundary register, the I3C dynamic
address, the state-change events sent by PLDM, by source code. -/
structure Pins where
  perst : Bool
  modReset : Bool
  trayReq : Bool
  jtag : JtagCode
  tapReset : Bool
  boundary : BitVec 7
  i3c : Option (BitVec 7)
  pldm : List Nat
  powered : Bool
deriving DecidableEq, Repr

def Pins.init : Pins :=
  { perst := true, modReset := false, trayReq := false, jtag := .idcode, tapReset := true, boundary := 0, i3c := none, pldm := []
    powered := true }

/-- The fuses of the module: the factory bad sites (by panel x 600 + site) and bad lanes (by port x 13 +
lane), the raised reset levels, the field repair bank and the entries queued for it, and what wafer
elements report that differs from the expected (R20, R222, R323, R334, R338). -/
structure Fuses where
  sites : Tab Bool
  lanes : Tab Bool
  levels : Tab Nat
  bank : List W32
  queue : List W32
  gauge : Tab Nat
deriving DecidableEq, Repr

def Fuses.init : Fuses := { sites := [], lanes := [], levels := [], bank := [], queue := [], gauge := [] }

end Sys2Proof.Machine
end

