-- ==== Sys2Proof/Machine/PartParts.lean ====
section
/-! DEFINITION. The state of a partition: its panels and selections, its session, status word, partition
command, and the training step (chapters 11 to 13). -/

namespace Sys2Proof.Machine

/-- The states of a session (R292). -/
inductive Session where
  | none
  | opened
  | suspended
  | closed
deriving DecidableEq, Repr

def Session.code : Session → Nat
  | .none => 0 | .opened => 1 | .suspended => 2 | .closed => 3

/-- A commit token (R236). -/
structure Token where
  origin : Nat
  step : Nat
  hops : Nat
  nf : Bool
deriving DecidableEq, Repr

/-- The kinds of partition command (R281). -/
inductive PCmdKind where
  | power
  | image
  | bindOff
deriving DecidableEq, Repr

/-- A partition command that runs (R281 to R283, R299, R319). `goal` is the target of PARTITION_POWER (0
OFF, 1 STANDBY, 2 READY), `left` the panels still to be raised, `auto` whether waves are automatic; of
LOAD_IMAGE `goal` is the entry word and `reject` the section
rejected, with 2^32 - 1 for the header; of PARTITION_POWER `total` counts the panels raised from OFF; `until_` the tick at which its limit ends, `failed` whether a panel failed, `code` the code
with which the command must end, `lostThen` the panels that were lost when it was accepted. -/
structure PCmd where
  kind : PCmdKind
  goal : Nat
  left : List Nat
  auto : Bool
  total : Nat
  reject : Option Nat
  until_ : Nat
  failed : Bool
  code : Nat
  lostThen : List Nat
deriving DecidableEq, Repr

/-- The training step of a partition (R63, R236 to R242, R250 to R265). `begun` holds the step that each
panel waiting at STEP_BEGIN asked for, `ended` the panels whose STEP_END has taken its sample, `sample`
the OR of the samples, `nf` the non-finite state once the reduction is done, `tokenAt` the tick at which
the own token left, `back` its flag once it has returned, `lastNf` the non-finite state of the last decided
step, `heldToks` the tokens held, `decided` the last decided step that is not yet recorded
as applied and its verdict, `lastStep` the step last decided (2^32: none), `resume` the proposal of the hold and
`resumeAt` the tick at which it last changed, `repeating` the step that is being repeated, `stopped`
that the rollback limit was met, `ever` whether a step was ever begun. -/
structure JobSt where
  stepOpen : Bool
  n : Nat
  replay : Bool
  ever : Bool
  begun : Tab Nat
  ended : Tab Bool
  sample : Bool
  nf : Option Bool
  tokenAt : Option Nat
  back : Option Bool
  lastNf : Bool
  heldToks : List Token
  decided : Option (Nat × Bool)
  lastStep : Nat
  hold : Bool
  down : Bool
  resume : Nat
  resumeAt : Nat
  repeating : Option Nat
  voided : Nat
  stopped : Bool
  cause : Nat
  voids : Nat
  skips : Nat
  replays : Nat
deriving DecidableEq, Repr

def JobSt.init : JobSt :=
  { stepOpen := false, n := 0, replay := false, ever := false, begun := [], ended := [], sample := false, nf := none
    tokenAt := none, back := none, lastNf := false, heldToks := [], decided := none, lastStep := 2 ^ 32, hold := false, down := false, resume := 0
    resumeAt := 0, repeating := none, voided := 0, stopped := false, cause := 0, voids := 0, skips := 0, replays := 0 }

/-- A partition (R274, R282, R290, R299, R300). `key` is the stack key pair that the Ubide block holds (R202),
`suspendedAt` and `resumeS` belong to a suspension. -/
structure Part where
  defined : Bool
  x0 : Nat
  y0 : Nat
  x1 : Nat
  y1 : Nat
  mirroring : Bool
  commanded : Bool
  ceiling : Nat
  session : Session
  key : Option (BitVec 512)
  suspendedAt : Nat
  resumeS : Nat
  attention : Bool
  partial_ : Bool
  opcode : Nat
  code : Nat
  tag : Nat
  progress : Nat
  cmd : Option PCmd
  fault : Bool
  raising : Bool
  job : JobSt
  seqEntry : Nat
deriving DecidableEq, Repr

def Part.init : Part :=
  { defined := false, x0 := 0, y0 := 0, x1 := 0, y1 := 0, mirroring := false, commanded := false, ceiling := 0
    session := .none, key := none, suspendedAt := 0, resumeS := 0, attention := false, partial_ := false
    opcode := 0, code := 0, tag := 0, progress := 0, cmd := none, fault := false, raising := false
    job := JobSt.init, seqEntry := 0 }

/-- What a partition that is undefined keeps of its status word and its last command (R337, R318; log entry 72). -/
def Part.word (K : Part) : Part :=
  { Part.init with attention := K.attention, opcode := K.opcode, code := K.code, tag := K.tag, progress := K.progress }

/-- Whether a panel lies in a partition. -/
def Part.has (k : Part) (p : Nat) : Bool :=
  k.defined && decide (k.x0 ≤ p % 8) && decide (p % 8 ≤ k.x1) && decide (k.y0 ≤ p / 8) && decide (p / 8 ≤ k.y1)

end Sys2Proof.Machine
end

