-- ==== Sys2Proof/Machine/PortParts.lean ====
section
/-! DEFINITION. The state of a link port (chapter 11). -/

namespace Sys2Proof.Machine

/-- `LNK_STAT.state` (R226). -/
inductive LnkState where
  | off
  | training
  | up
  | down
  | failed
  | mismatch
  | absent
deriving DecidableEq, Repr

/-- The codes of R226. -/
def LnkState.code : LnkState → Nat
  | .off => 0 | .training => 1 | .up => 2 | .down => 3 | .failed => 4 | .mismatch => 5 | .absent => 6

/-- The roles of R227. -/
inductive Role where
  | off
  | ring
  | pipe
  | reduce
  | feed
deriving DecidableEq, Repr

/-- The codes of R227. -/
def Role.code : Role → Nat
  | .off => 0 | .ring => 1 | .pipe => 2 | .reduce => 3 | .feed => 4

/-- The operations of an entry (R229). -/
inductive PortOp where
  | send
  | recv
  | reduce
  | relay
deriving DecidableEq, Repr

/-- A posted entry (R229, R230): its number at its port, its fields, the panel whose sequencer its flag is
set in, the message bytes consumed or sent, whether the last byte or flit has gone, the stack requests
out, the first status other than OK, the bytes that a SEND has read for its next flit or a REDUCE for the
flit at the head of the buffer and whether they are asked for, whether the rest of its message is
discarded, and the bytes still to land from message offset `remAt` on: they wait until a line or stack
unit is whole. -/
structure Entry where
  id : Nat
  op : PortOp
  vc : Nat
  fmt : Bool
  rop : Nat
  fwd : Bool
  fwdPort : Nat
  land : Bool
  flag : Nat
  src : Nat
  dst : Nat
  length : Nat
  step : Nat
  panel : Nat
  got : Nat
  last : Bool
  out : Nat
  status : Nat
  read : Option (List Byte × List Bool)
  asked : Bool
  skip : Bool
  rem : List (Byte × Bool)
  remAt : Nat
deriving DecidableEq, Repr

/-- A stack request of a port (R233): its channel and entry, whether it lands data, address, length, the data of
a landing, the epoch that it names, refusals and phase. -/
structure PReq where
  vc : Nat
  eid : Nat
  wr : Bool
  addr : Nat
  len : Nat
  data : List Byte
  pois : List Bool
  epoch : Nat
  refusals : Nat
  phase : ReqPhase
deriving DecidableEq, Repr

/-- The key of an entry of port `o` among the flits in transmission. -/
def entryKey (o id : Nat) : Nat := 16 * id + o

/-- A sequenced flit to be sent, or kept for replay until it is acknowledged (R224): kind, contents, and
the key of the entry that sends it. -/
structure TxFlit where
  kind : Nat
  src : Option Nat
  fl : Flit
deriving DecidableEq, Repr

/-- A message in a channel's transmit order (R230, R231), of a SEND or forwarded: the key of its entry, its flits that wait,
whether its last flit has come. -/
structure FwdMsg where
  src : Nat
  flits : List TxFlit
  done : Bool
deriving DecidableEq, Repr

/-- A DATA or DATA_END flit in a receive buffer. -/
structure RxFlit where
  fin : Bool
  fl : Flit
deriving DecidableEq, Repr

/-- What an IDENT flit says (R226). -/
structure Ident where
  serial : Nat
  port : Nat
  role : Nat
  job : Nat
  bridge : Bool
deriving DecidableEq, Repr

/-- A link port (R216 to R248). `corr` lists the corrected symbols by tick and lane; `sw` the agreed set
of active lanes that a lane switch brings in, `agreed` whether the peer has answered; `owed` the credits
to return; `stuck` the replays in a row, `gap` the acknowledgements without advance since a gap; `since`
the tick at which the state was entered, `lastRx` of the last decodable codeword, `lastAck` of the last
advance of the acknowledgement, `lastReduce` of the last flit on the reduce channel, `rejoinAt` of the
last REJOIN sent, `tried` of the last retrain attempt; `held` that the partition is in HOLD; `nextEntry` numbers the entries; `line` lists the flits
sent, with their kinds, since the port entered its state; `ackDue` that a flit has come that no flit sent since acknowledges;
`spoilt` counts the flits to come that overlap an uncorrectable codeword (R220); `eq` holds the equaliser values of the
lanes and `precode` the lanes with precoding (R226). -/
structure Port where
  state : LnkState
  role : Role
  commitOut : Bool
  job : Nat
  spare : Nat
  bad : BitVec 13
  failed : BitVec 13
  active : BitVec 13
  corr : List (Nat × Nat)
  sw : Option (BitVec 13 × Nat)
  agreed : Bool
  ident : Option Ident
  peerBridge : Bool
  peerPort : Nat
  peerSerial : Nat
  rejoined : Bool
  flushing : Bool
  lastSt : Nat
  nf : Bool
  replay : Nat
  crc : Nat
  fecUnc : Nat
  flushed : Nat
  proto : Nat
  qFull : Nat
  retrain : Nat
  refused : Nat
  timeout : Nat
  commitTimeout : Nat
  cfgNext : Option (Nat × Nat)
  post : Tab W64
  q : Tab (List Entry)
  reqs : Tab PReq
  nextTag : Nat
  txNext : Nat
  buf : List TxFlit
  fwds : Tab (List FwdMsg)
  ctl : List TxFlit
  stuck : Nat
  gap : Option Nat
  rxNext : Nat
  rx : Tab (List RxFlit)
  credits : Tab Nat
  owed : Tab Nat
  since : Nat
  lastRx : Nat
  lastAck : Nat
  lastReduce : Nat
  rejoinAt : Nat
  tried : Nat
  inReset : Bool
  held : Bool
  nextEntry : Nat
  line : List (Nat × Flit)
  ackDue : Bool
  spoilt : Nat
  eq : Tab Nat
  precode : BitVec 13
deriving DecidableEq, Repr

/-- The flits of a channel's receive buffer (R225). -/
def bufferOf (vc : Nat) : Nat := match vc with | 0 => 128 | 1 => 128 | 2 => 256 | _ => 64

/-- The lanes that a port makes active of its good ones: 12, else 8, else none (R222, R243; log entry 139). -/
def pickLanes (good : List Nat) : List Nat :=
  if 12 ≤ good.length then good.take 12 else if 8 ≤ good.length then good.take 8 else []

/-- The lanes that a port makes active at cast-on and its spare lane (R222): lanes the fuses do not mark bad, and the next
good one beside 12 (15: none). -/
def portLanes (bad : BitVec 13) : BitVec 13 × Nat :=
  let good := (List.range 13).filter (fun l => !bad.getLsbD l)
  (BitVec.ofNat 13 ((pickLanes good).map (2 ^ ·)).sum, (good.drop 12).headD 15)

/-- A port after reset (R243 to R248), with the lanes the fuses leave it. -/
def Port.init (bad : BitVec 13) : Port :=
  { state := .off, role := .off, commitOut := false, job := 0, spare := (portLanes bad).2, bad := bad, failed := 0
    active := (portLanes bad).1, corr := [], sw := none, agreed := false, ident := none, peerBridge := false
    peerPort := 0, peerSerial := 0, rejoined := false, flushing := false, lastSt := 0, nf := false, replay := 0
    crc := 0, fecUnc := 0, flushed := 0, proto := 0, qFull := 0, retrain := 0, refused := 0, timeout := 0x1388
    commitTimeout := 0x08000000, cfgNext := none, post := [], q := [], reqs := [], nextTag := 0, txNext := 0
    buf := [], fwds := [], ctl := [], stuck := 0, gap := none, rxNext := 0, rx := [], credits := [], owed := [], since := 0
    lastRx := 0, lastAck := 0, lastReduce := 0, rejoinAt := 0, tried := 0, inReset := false, held := false, nextEntry := 0
    line := [], ackDue := false, spoilt := 0, eq := [], precode := 0 }

end Sys2Proof.Machine
end

