-- ==== Sys2Proof/Machine/State.lean ====
section
/-! DEFINITION. The state of the block as plain data, its faults and refusals, and the state after the
power-on reset. -/

namespace Sys2Proof.Machine

/-- The reasons a step can stop with a fault. -/
inductive Fault where
  /-- INPUT_OUT_OF_RANGE above the absolute maximum of 60 V (R385): the manual gives no behaviour there.
  Safe: the model stops where the part may be damaged. -/
  | aboveAbsoluteMaximum
deriving DecidableEq, Repr

/-- The reasons a command is refused. -/
inductive Refusal where
  /-- DEBUG_WINDOW_ACCESS: a write to the vendor range at debug level D3 (R370, R374), whose effect the manual
  does not give. Safe: the model stops. -/
  | vendorRange
  /-- A command that has no meaning yet: raised by an arm of exec. Safe. -/
  | notModelled (mnemonic : String)
deriving DecidableEq, Repr

/-- The state of the block. A block's epoch is its entry in `epochs` plus `epochBase`, which every MODULE
reset raises (R192); `hubEpochs` is what the hubs' tables hold, and `turns` the input that an output of a router or hub
served last in a class of channels (R174). -/
structure State where
  now : Nat
  cores : Tab Core
  panels : Tab Panel
  mem : List Host.Cell
  lines : Tab Line
  parts : Tab Part
  packets : List Packet
  bcasts : List Bcast
  reds : List RedPkt
  nextPid : Nat
  epochs : Tab Nat
  hubEpochs : Tab Nat
  turns : Tab Nat
  epochBase : Nat
  transit : Tab Nat
  lostAt : Nat
  log : ErrLog
  attention : Bool
  ports : Tab Port
  fuses : Fuses
  host : HostIf
  ubide : Ubide
  rst : ResetCtl
  power : Power
  mstate : ModState
  cast : CastOn
  hang : HangCtl
  dbg : Debug
  pins : Pins
  freeSeq : Nat
  pending : List Instr
deriving DecidableEq, Repr

/-- The block right after the power-on reset (R338). -/
def State.reset : State :=
  { now := 0, cores := [], panels := [], mem := [], lines := [], parts := [], packets := [], bcasts := []
    reds := [], nextPid := 0, epochs := [], hubEpochs := [], turns := [], epochBase := 0, transit := [], lostAt := 0, log := ErrLog.init, attention := false
    ports := [], fuses := Fuses.init, host := HostIf.init, ubide := Ubide.init, rst := ResetCtl.init
    power := Power.init, mstate := .castOn, cast := CastOn.init, hang := HangCtl.init
    dbg := { core := 0, ctx := 0, lastSt := 0 }, pins := Pins.init
    freeSeq := 0, pending := [] }

/-- The logical core with core number `n` (R18). -/
def State.core (s : State) (n : Nat) : Core := Tab.get Core.init s.cores n
/-- Changes core `n` only. -/
def State.onCore (s : State) (n : Nat) (f : Core → Core) : State :=
  { s with cores := Tab.set s.cores n (f (s.core n)) }
/-- The panel with index py x 8 + px. -/
def State.panel (s : State) (p : Nat) : Panel := Tab.get Panel.init s.panels p
/-- Changes panel `p` only. -/
def State.onPanel (s : State) (p : Nat) (f : Panel → Panel) : State :=
  { s with panels := Tab.set s.panels p (f (s.panel p)) }

/-- Partition `k`. -/
def State.part (s : State) (k : Nat) : Part := Tab.get Part.init s.parts k
/-- Changes partition `k` only. -/
def State.onPart (s : State) (k : Nat) (f : Part → Part) : State :=
  { s with parts := Tab.set s.parts k (f (s.part k)) }

/-- The lanes of a port that the fuses or the field repair bank mark bad (R222, R245, R334). -/
def Fuses.laneBits (f : Fuses) (o : Nat) : BitVec 13 :=
  BitVec.ofNat 13 (((List.range 13).filter (fun l =>
    Tab.get false f.lanes (13 * o + l)
      || f.bank.any (fun w => decide (fld w.toNat 31 30 = 2) && fld w.toNat 29 24 == o && fld w.toNat 23 14 == l))).map (2 ^ ·)).sum
/-- Link port `o`. -/
def State.port (s : State) (o : Nat) : Port := Tab.get (Port.init (s.fuses.laneBits o)) s.ports o
/-- Changes port `o` only. -/
def State.onPort (s : State) (o : Nat) (f : Port → Port) : State :=
  { s with ports := Tab.set s.ports o (f (s.port o)) }
/-- Changes the host interface only. -/
def State.onHost (s : State) (f : HostIf → HostIf) : State := { s with host := f s.host }
/-- Changes the Ubide block only. -/
def State.onUbide (s : State) (f : Ubide → Ubide) : State := { s with ubide := f s.ubide }
/-- Changes the reset controller only. -/
def State.onRst (s : State) (f : ResetCtl → ResetCtl) : State := { s with rst := f s.rst }
/-- Changes the module's power registers only. -/
def State.onPower (s : State) (f : Power → Power) : State := { s with power := f s.power }
/-- Changes the training step of partition `k` only. -/
def State.onJob (s : State) (k : Nat) (f : JobSt → JobSt) : State := s.onPart k (fun K => { K with job := f K.job })
/-- The training step of partition `k`. -/
def State.job (s : State) (k : Nat) : JobSt := (s.part k).job

end Sys2Proof.Machine
end

