-- ==== Sys2Proof/Machine/Ops.lean ====
section
/-! DEFINITION. The named operations over the state: core numbers and panels (R17, R18, R20), registers,
bytes, the scratchpad with its check state (chapter 07), the error log (R357), free values. -/

namespace Sys2Proof.Machine

open Sys2Proof

/-! Geometry (R17, R18). -/

/-- Columns and rows of the logical grid. -/
def gridW : Nat := 184
def gridH : Nat := 192
/-- Logical cores of the module (R11). -/
def nCores : Nat := 35328
/-- The grid column and row of a core number. -/
def cxOf (n : Nat) : Nat := n % 184
def cyOf (n : Nat) : Nat := n / 184
/-- The core number of (cx, cy). -/
def coreAt (cx cy : Nat) : Nat := cy * 184 + cx
/-- The panel index of a core. -/
def panelOf (n : Nat) : Nat := (cyOf n / 24) * 8 + cxOf n / 23
/-- The panel-local coordinates of a core. -/
def lxOf (n : Nat) : Nat := cxOf n % 23
def lyOf (n : Nat) : Nat := cyOf n % 24
/-- The local index of a core. -/
def localOf (n : Nat) : Nat := lyOf n * 23 + lxOf n
/-- The core of panel `p` at local (lx, ly). -/
def coreIn (p lx ly : Nat) : Nat := coreAt ((p % 8) * 23 + lx) ((p / 8) * 24 + ly)
/-- The cores of a panel in local-index order. -/
def coresOf (p : Nat) : List Nat := (List.range 552).map (fun i => coreIn p (i % 23) (i / 23))

/-- The physical site (sx, sy) of local (lx, ly) under a panel's map (R20). -/
def siteOf (P : Panel) (lx ly : Nat) : Nat × Nat :=
  let sy := if ly < P.skipRow then ly else ly + 1
  let c := Tab.get 23 P.skipCol sy
  (if lx < c then lx else lx + 1, sy)

/-- The site index of a logical core (R17, R20). -/
def siteIdx (s : State) (n : Nat) : Nat :=
  let (sx, sy) := siteOf (s.panel (panelOf n)) (lxOf n) (lyOf n)
  sy * 24 + sx

/-- Whether a logical core is a hole (R24). -/
def isHole (s : State) (n : Nat) : Bool := Tab.get false (s.panel (panelOf n)).holes (localOf n)

/-- Whether a logical core's site is fenced or bad and not yet darned, or the core is a hole (R32 row 5). -/
def isDead (s : State) (n : Nat) : Bool :=
  isHole s n || decide ((s.core n).power = .fenced) ||
    Tab.get false (s.panel (panelOf n)).bad (siteIdx s n)

/-! Free values. -/

/-- Draws a free value (log entry 3). -/
def freshNat (s : State) : Nat × State :=
  (Config.freeNat s.freeSeq, { s with freeSeq := s.freeSeq + 1 })

/-! Error log (R357, R358). -/

/-- The MSI-X message of an attention bit that has set (R271): sent, or pending while the vector is masked
or the function is in D3hot (R268). -/
def msix (s : State) : State :=
  s.onHost (fun h => if h.msixMasked || h.d3 then { h with msixPending := true } else { h with msixSent := h.msixSent + 1 })

/-- `MSTAT.attention` sets (R271). -/
def attend (s : State) : State := if s.attention then s else msix { s with attention := true }

/-- `PSTAT.attention` of partition `k` sets (R271). -/
def attendPart (k : Nat) (s : State) : State :=
  if (s.part k).attention then s else msix (s.onPart k (fun K => { K with attention := true }))

/-- ALERT# is low while any attention bit is set (R271, R388). -/
def alertLow (s : State) : Bool := s.attention || (List.range 4).any (fun k => (s.part k).attention)

/-- Enters an event in the error log. The tick counts of the control die and of the supervisors start together
(R296). -/
def logErr (severity cls unit status d0 d1 : Nat) (s : State) : State :=
  let l := s.log
  let s := if severity = 2 then attend s else s
  if 512 ≤ l.held.length then { s with log := { l with dropped := inc 16 l.dropped } }
  else
    let e : LogEntry :=
      { tick := s.now - (s.panel 0).railUp, severity := severity, cls := cls, unit := unit, status := status, d0 := d0, d1 := d1 }
    { s with
      log := { l with
        held := l.held ++ [e]
        ring := Tab.set l.ring l.head e
        head := (l.head + 1) % 512
        written := inc 16 l.written
        fatal := if severity = 2 then inc 9 l.fatal else l.fatal } }

/-! Contexts. -/

/-- Context `k` of core `n`. -/
def State.ctxAt (s : State) (n k : Nat) : Ctx := Tab.get Ctx.init (s.core n).ctxs k
/-- Changes context `k` of core `n` only. -/
def State.onCtx (s : State) (n k : Nat) (f : Ctx → Ctx) : State :=
  s.onCore n (fun c => { c with ctxs := Tab.set c.ctxs k (f (Tab.get Ctx.init c.ctxs k)) })
/-- The current context of a core. -/
def Core.ctx (c : Core) : Ctx := Tab.get Ctx.init c.ctxs c.cur
/-- The current context of core `n`. -/
def State.ctx (s : State) (n : Nat) : Ctx := (s.core n).ctx
/-- Changes the current context of core `n` only. -/
def State.onCur (s : State) (n : Nat) (f : Ctx → Ctx) : State := s.onCtx n (s.core n).cur f
/-- Changes the counters of the current context of core `n`. -/
def State.onCounts (s : State) (n : Nat) (f : Counts → Counts) : State :=
  s.onCur n (fun x => { x with counts := f x.counts })
/-- Changes an array of a core. -/
def Core.arr (c : Core) (a : Nat) : Arr := if a = 0 then c.m0 else c.m1
def Core.onArr (c : Core) (a : Nat) (f : Arr → Arr) : Core :=
  if a = 0 then { c with m0 := f c.m0 } else { c with m1 := f c.m1 }
def State.onArr (s : State) (n a : Nat) (f : Arr → Arr) : State := s.onCore n (fun c => c.onArr a f)
/-- Changes a list of a context. -/
def State.listAt (s : State) (n k l : Nat) : SList := Tab.get SList.init (s.ctxAt n k).lists l
def State.onList (s : State) (n k l : Nat) (f : SList → SList) : State :=
  s.onCtx n k (fun x => { x with lists := Tab.set x.lists l (f (Tab.get SList.init x.lists l)) })
/-- A slot of a context. -/
def Ctx.slot (x : Ctx) (q : Nat) : QSlot := Tab.get QSlot.init x.q q
def State.onSlot (s : State) (n k q : Nat) (f : QSlot → QSlot) : State :=
  s.onCtx n k (fun x => { x with q := Tab.set x.q q (f (Tab.get QSlot.init x.q q)) })
/-- Changes the sequencer of a panel. -/
def State.onSeq (s : State) (p : Nat) (f : Seq → Seq) : State :=
  s.onPanel p (fun P => { P with seq := f P.seq })
def State.seq (s : State) (p : Nat) : Seq := (s.panel p).seq

/-- A context that is resident (R52). -/
def Ctx.resident (x : Ctx) : Bool := decide (x.state ≠ .empty)

/-! Registers (R36). -/

/-- s0 reads 0. -/
def Regs.getS (r : Regs) (i : Nat) : W64 := if i = 0 then 0 else Tab.get 0 r.s i
/-- A write of s0 is discarded (R35). -/
def Regs.setS (r : Regs) (i : Nat) (v : W64) : Regs := if i = 0 then r else { r with s := Tab.put 0 r.s i v }
def Regs.getA (r : Regs) (i : Nat) : FAddr := Tab.get 0 r.a i
def Regs.setA (r : Regs) (i : Nat) (v : FAddr) : Regs := { r with a := Tab.put 0 r.a i v }
def Regs.getP (r : Regs) (i : Nat) : Bool := Tab.get false r.p i
def Regs.setP (r : Regs) (i : Nat) (v : Bool) : Regs := { r with p := Tab.put false r.p i v }
/-- k0 reads all ones (R36). -/
def Ctx.getK (x : Ctx) (i : Nat) : W64 := if i = 0 then BitVec.allOnes 64 else Tab.get 0 x.k i
/-- k0 is read-only (R36). -/
def Ctx.setK (x : Ctx) (i : Nat) (v : W64) : Ctx := if i = 0 then x else { x with k := Tab.put 0 x.k i v }
def Ctx.getV (x : Ctx) (r j : Nat) : W32 := Tab.get 0 x.v (64 * r + j)
def Ctx.setV (x : Ctx) (r j : Nat) (v : W32) : Ctx := { x with v := Tab.put 0 x.v (64 * r + j) v }
def Ctx.getVP (x : Ctx) (r q : Nat) : Bool := Tab.get false x.vp (4 * r + q)
def Ctx.setVP (x : Ctx) (r q : Nat) (v : Bool) : Ctx := { x with vp := Tab.put false x.vp (4 * r + q) v }
def Ctx.getC (x : Ctx) (i : Nat) : BitVec 256 := Tab.get 0 x.c i

/-! Bytes of the one memory list. -/

/-- What an unlisted byte reads as (R143, R392; log entry 2). -/
def memDefault : Byte := 0
def memGet (m : List Host.Cell) (a : Nat) : Byte := Tab.get memDefault m a
def memPut (m : List Host.Cell) (a : Nat) (v : Byte) : List Host.Cell := Tab.put memDefault m a v
/-- Writes consecutive bytes. -/
def memPutBytes (m : List Host.Cell) (a : Nat) : List Byte → List Host.Cell
  | [] => m
  | b :: t => memPutBytes (memPut m a b) (a + 1) t
/-- Reads consecutive bytes. -/
def memBytes (m : List Host.Cell) (a len : Nat) : List Byte := (List.range len).map (fun i => memGet m (a + i))
/-- The entries of a table with keys from `lo` to `lo + len - 1`. -/
def Tab.range {α : Type} (t : Tab α) (lo len : Nat) : Tab α :=
  t.filter (fun e => decide (lo ≤ e.1) && decide (e.1 < lo + len))

/-- The canonical form: keys strictly rising, no byte equal to the default. -/
def Memory.wf (m : List Host.Cell) : Bool := Tab.sorted m && m.all (fun e => decide (e.2 ≠ memDefault))

/-- The fabric address of scratchpad offset `off` of core `n` (R29). -/
def spdKey (n off : Nat) : Nat := cyOf n * 2 ^ 38 + cxOf n * 2 ^ 30 + off
/-- The key of byte `off` of a sequencer's memory (R29, R60: control unit 0x01, offset 0x1_0000). -/
def seqKey (p off : Nat) : Nat := 2 * 2 ^ 46 + (p / 8) * 2 ^ 43 + (p % 8) * 2 ^ 40 + 1 * 2 ^ 32 + 0x10000 + off
/-- The key of a stack byte (R29). -/
def stackKey (p off : Nat) : Nat := 2 ^ 46 + (p / 8) * 2 ^ 43 + (p % 8) * 2 ^ 40 + off

/-! Scratchpad (chapter 07). -/

/-- Bytes of a core's scratchpad (R128). -/
def spdSize : Nat := 0x600000
/-- The key of a line's check state. -/
def lineKey (n l : Nat) : Nat := n * 0x18000 + l
def State.line (s : State) (n l : Nat) : Line := Tab.get Line.zero s.lines (lineKey n l)
def State.putLine (s : State) (n l : Nat) (v : Line) : State :=
  { s with lines := Tab.put Line.zero s.lines (lineKey n l) v }

/-- The lowest-numbered valid region that contains an offset (R138). -/
def regionAt (c : Core) (off : Nat) : Option W64 :=
  let pg := off / 0x1000
  ((List.range 16).map (fun r => Tab.get 0 c.regions r)).find? (fun v =>
    v.getLsbD 63 && decide (fld v.toNat 10 0 ≤ pg) && decide (pg ≤ fld v.toNat 42 32))
/-- An attribute bit of the region that holds an offset; 0 in no region (R137, R138). -/
def regionBit (b : Nat) (c : Core) (off : Nat) : Bool :=
  match regionAt c off with
  | some v => v.getLsbD b
  | none => false
def isWeight (c : Core) (off : Nat) : Bool := regionBit 61 c off
def isRo (c : Core) (off : Nat) : Bool := regionBit 60 c off
def isLocal (c : Core) (off : Nat) : Bool := regionBit 59 c off
def isRetain (c : Core) (off : Nat) : Bool := regionBit 62 c off
/-- Some page of a range has the attribute. -/
def rangeBit (f : Core → Nat → Bool) (c : Core) (off len : Nat) : Bool :=
  decide (0 < len) && (span (off / 0x1000) ((off + len - 1) / 0x1000 + 1 - off / 0x1000)).any (fun pg => f c (pg * 0x1000))

/-- The save area of context `k` (R53). -/
def saveBase (k : Nat) : Nat := 0x130000 + k * 0x14000
/-- A range that touches the reserved save area of a resident context (R53). -/
def inSave (c : Core) (off len : Nat) : Bool :=
  (List.range 4).any (fun k => (Tab.get Ctx.init c.ctxs k).resident && overlap off len (saveBase k) 0x14000)

/-- A range that touches a context's code region (R36, R140). -/
def inCode (c : Core) (x : Ctx) (off len : Nat) : Bool :=
  let v := Tab.get 0 c.regions x.region
  let a := fld v.toNat 10 0 * 0x1000
  v.getLsbD 63 && overlap off len a ((fld v.toNat 42 32 + 1) * 0x1000 - a)

/-- The exclusive or of bytes. -/
def xorBytes (l : List Byte) : Byte := l.foldl (· ^^^ ·) 0
/-- The even-numbered (0) or odd-numbered (1) bytes of a line. -/
def halfOf {α : Type} (h : Nat) (l : List α) : List α := (l.zipIdx.filter (fun e => e.2 % 2 == h)).map (·.1)

/-- The line check of 64 bytes (R132). -/
def lineCheck (l : List Byte) : BitVec 16 := xorBytes (halfOf 1 l) ++ xorBytes (halfOf 0 l)
/-- The check bits of 64 bytes (R131). -/
def checkBits (l : List Byte) : W64 :=
  BitVec.ofNat 64 (l.zipIdx.foldl (fun a e => a + b2n (checkBit e.1) * 2 ^ e.2) 0)

/-- The outcome of a line's evaluation (R133). -/
inductive LineOutcome where
  | good
  | corrected (bytes : List Byte)
  | uncorrectable
deriving DecidableEq, Repr

/-- The evaluation of one half-line of a checked weight-class line (R133): the bytes as delivered, and
whether it was good (0), corrected (1) or uncorrectable (2). -/
def evalHalf (stored : Byte) (l : List (Byte × Bool)) : Nat × List Byte :=
  let bytes := l.map (·.1)
  let bad := l.filter (fun e => checkBit e.1 != e.2)
  let diff := stored ^^^ xorBytes bytes
  match bad with
  | [] => if diff = 0 then (0, bytes) else if popcount 8 diff.toNat = 1 then (1, bytes) else (2, bytes)
  | [_] =>
    if diff = 0 then (1, bytes)
    else
      let fix := fun e : Byte × Bool => if checkBit e.1 != e.2 then e.1 ^^^ diff else e.1
      if l.all (fun e => checkBit e.1 == e.2 || checkBit (fix e) == e.2) then (1, l.map fix) else (2, bytes)
  | _ => (2, bytes)

/-- Merges the even and odd halves of a line. -/
def interleave : List Byte → List Byte → List Byte
  | a :: t, b :: u => a :: b :: interleave t u
  | [], u => u
  | t, [] => t

/-- The evaluation of a line (R133). -/
def evalLine (weight : Bool) (ln : Line) (bytes : List Byte) : LineOutcome :=
  let pairs := bytes.zipIdx.map (fun e => (e.1, ln.chk.getLsbD e.2))
  if ln.poison then .uncorrectable
  else if weight && ln.checked then
    let (e, be) := evalHalf (ln.lchk.extractLsb' 0 8) (halfOf 0 pairs)
    let (o, bo) := evalHalf (ln.lchk.extractLsb' 8 8) (halfOf 1 pairs)
    if e = 2 ∨ o = 2 then .uncorrectable
    else if e = 1 ∨ o = 1 then .corrected (interleave be bo)
    else .good
  else if pairs.any (fun e => checkBit e.1 != e.2) then .uncorrectable
  else .good

/-- What a scratchpad read delivers: the bytes, the lines that were uncorrectable, and whether any line
was corrected. -/
structure Rd where
  bytes : List Byte
  bad : List Nat
  corrected : Bool
deriving DecidableEq, Repr

/-- Records the first uncorrectable line (R147). -/
def recordUe (path : Nat) (n l : Nat) (weight checked : Bool) (off : Nat) (s : State) : State :=
  let s := s.onCore n (fun c =>
    { c with
      spd := { c.spd with ue := inc 8 c.spd.ue }
      ueaddr := if c.ueaddr.getLsbD 63 then c.ueaddr
        else BitVec.ofNat 64 (2 ^ 63 + path * 2 ^ 61 + b2n weight * 2 ^ 60 + b2n checked * 2 ^ 59 + off) })
  let s := s.putLine n l { s.line n l with poison := true }
  logErr 1 1 (panelOf n) 0x09 n off s

/-- The seed of the undefined contents of a line, where it lies in a released save area and has not been
written since (R53). -/
def undefSeed (s : State) (n l : Nat) : Option Nat :=
  let c := s.core n
  if Tab.get false c.redef l then none
  else (c.undef.find? (fun e => overlap (64 * l) 64 (saveBase e.1) 0x14000)).map (·.2)

/-- The bytes of a line and its check state. -/
def rawLine (s : State) (n l : Nat) : List Byte × Line :=
  match undefSeed s n l with
  | none => (memBytes (Tab.range s.mem (spdKey n (64 * l)) 64) (spdKey n (64 * l)) 64, s.line n l)
  | some k =>
    let b := (List.range 64).map (fun i => Config.freeByte k (64 * l + i))
    (b, { chk := checkBits b, lchk := lineCheck b, checked := true, poison := false })

/-- Gives a line of undefined contents the bytes that it reads as, before it is written. -/
def materialise (n l : Nat) (s : State) : State :=
  match undefSeed s n l with
  | none => s
  | some _ =>
    let (b, ln) := rawLine s n l
    let s := { s with mem := memPutBytes s.mem (spdKey n (64 * l)) b }
    (s.putLine n l ln).onCore n (fun c => { c with redef := Tab.put false c.redef l true })

/-- Reads line `l` of core `n` (R133, R134, R144). -/
def readLine (path n l : Nat) (s : State) : Rd × State :=
  let c := s.core n
  let (bytes, ln) := rawLine s n l
  let weight := isWeight c (64 * l)
  match evalLine weight ln bytes with
  | .good => ({ bytes := bytes, bad := [], corrected := false }, s)
  | .corrected fixed =>
    ({ bytes := fixed, bad := [], corrected := true },
     s.onCore n (fun c =>
      { c with
        spd := { c.spd with corrected := inc 16 c.spd.corrected }
        wb := c.wb.filter (fun w => w.line != l) ++ [{ line := l, data := fixed }] }))
  | .uncorrectable =>
    let r : Rd := { bytes := bytes, bad := [l], corrected := false }
    if ln.poison then
      (r, s.onCore n (fun c => { c with spd := { c.spd with poisonRd := inc 8 c.spd.poisonRd } }))
    else
      let first := (bytes.zipIdx.find? (fun e => checkBit e.1 != ln.chk.getLsbD e.2)).map (·.2)
      (r, recordUe path n l weight ln.checked (64 * l + first.getD 0) s)

/-- Reads consecutive lines. -/
def readLines (path n : Nat) : List Nat → State → Rd × State
  | [], s => ({ bytes := [], bad := [], corrected := false }, s)
  | l :: t, s =>
    let (r, s) := readLine path n l s
    let (rt, s) := readLines path n t s
    ({ bytes := r.bytes ++ rt.bytes, bad := r.bad ++ rt.bad, corrected := r.corrected || rt.corrected }, s)

/-- The lines that a range of bytes touches. -/
def linesOf (off len : Nat) : List Nat :=
  if len = 0 then [] else span (off / 64) ((off + len - 1) / 64 + 1 - off / 64)

/-- Reads `len` bytes at offset `off` of core `n`'s scratchpad; the whole of each line touched is
evaluated (R133). `path` is that of R147. -/
def spdRead (path n off len : Nat) (s : State) : Rd × State :=
  let (r, s) := readLines path n (linesOf off len) s
  ({ r with bytes := (r.bytes.drop (off % 64)).take len }, s)

/-- A range of bytes of a read touches an uncorrectable line. -/
def Rd.badAt (r : Rd) (off len : Nat) : Bool := r.bad.any (fun l => overlap (64 * l) 64 off len)

/-- The lines of a list of offsets, each once, in order of first appearance. -/
def lineList (bs : List (Nat × Byte)) : List Nat :=
  (bs.foldl (fun (acc : List Nat) b => if acc.contains (b.1 / 64) then acc else (b.1 / 64) :: acc) []).reverse

/-- Writes bytes of one line in one operation (R131, R132, R134, R135, R136, R144): full-line where all
64 bytes are written, narrow otherwise. -/
def storeLine (n l : Nat) (bs : List (Nat × Byte)) (pois : Bool) (s : State) : State :=
  let s := materialise n l s
  let mem := bs.foldl (fun m b => memPut m (spdKey n b.1) b.2) s.mem
  let ln := s.line n l
  let chk := bs.foldl (fun (k : W64) b =>
    let m : W64 := 1#64 <<< (b.1 % 64)
    if checkBit b.2 then k ||| m else k &&& ~~~m) ln.chk
  let full := (span (64 * l) 64).all (fun o => bs.any (fun b => b.1 == o))
  let ln' : Line :=
    if full then
      { chk := chk, lchk := lineCheck (memBytes mem (spdKey n (64 * l)) 64), checked := true, poison := pois }
    else { ln with chk := chk, checked := false, poison := ln.poison || pois }
  let s := { s with mem := mem }
  let s := s.putLine n l ln'
  s.onCore n (fun c =>
    let lost := c.wb.any (fun w => w.line == l)
    let down := !full && ln.checked && isWeight c (64 * l)
    { c with
      wb := c.wb.filter (fun w => w.line != l)
      spd := { c.spd with
        wbLost := if lost then inc 8 c.spd.wbLost else c.spd.wbLost
        downgrade := if down then inc 16 c.spd.downgrade else c.spd.downgrade } })

/-- An SMRG on its way notes a line that is written before it adds its row, with what the line held (R124). -/
def noteHit (l : Nat) (old : List Byte) (A : Arr) : Arr :=
  { A with
    queue := A.queue.map (fun o =>
      if o.kind = .smrg ∧ !o.hit.any (fun h => h.1 == l) then { o with hit := o.hit ++ [(l, some old)] } else o) }

/-- The SMRGs of core `n` note a write of line `l`. -/
def noteStore (n l : Nat) (s : State) : State :=
  if (s.core n).m0.queue.any (fun o => o.kind == .smrg) || (s.core n).m1.queue.any (fun o => o.kind == .smrg) then
    let old := (rawLine s n l).1
    s.onCore n (fun c => { c with m0 := noteHit l old c.m0, m1 := noteHit l old c.m1 })
  else s

/-- A write of one line that is no row add of an SMRG. -/
def writeLine (n l : Nat) (bs : List (Nat × Byte)) (pois : Bool) (s : State) : State := storeLine n l bs pois (noteStore n l s)

/-- Writes (offset, byte) pairs of core `n`'s scratchpad in one operation; `pois` lists the lines that
receive poisoned data. A core holds no byte past its scratchpad (R128). -/
def spdWrite (n : Nat) (pairs : List (Nat × Byte)) (pois : List Nat) (s : State) : State :=
  let bs := pairs.filter (fun b => decide (b.1 < spdSize))
  (lineList bs).foldl (fun s l => writeLine n l (bs.filter (fun b => b.1 / 64 == l)) (pois.contains l) s) s

/-- Consecutive bytes as (offset, byte) pairs. -/
def atOff (off : Nat) (bs : List Byte) : List (Nat × Byte) := bs.zipIdx.map (fun e => (off + e.2, e.1))

/-- Zeroization of a core's scratchpad (R143, R147, R186): every byte, every line's check state, every
region register and reduction entry, and the status registers; the core's PNL_FRESH bit clears (R336). -/
def zeroizeCore (n : Nat) (s : State) : State :=
  let s := { s with
    mem := Tab.delRange s.mem (spdKey n 0) spdSize
    lines := Tab.delRange s.lines (lineKey n 0) 0x18000 }
  let s := s.onPanel (panelOf n) (fun P => { P with fresh := Tab.put false P.fresh (localOf n) false })
  s.onCore n (fun c => { c with regions := [], red := [], spd := SpdStat.init, ueaddr := 0, wb := [], undef := [], redef := [] })

/-- The refresh window of a far-bank offset is open (R48): phase and length are free. -/
def refreshing (s : State) (n off : Nat) : Bool :=
  decide (0x180000 ≤ off) && decide (off < spdSize) &&
    (let j := (off - 0x180000) / 0x40000
     let ph := ((s.panel (panelOf n)).cyc + Config.refreshPhase n) % 288
     decide (16 * j ≤ ph) && decide (ph < 16 * j + min 4 (Config.refreshLen n j)))

/-- The lower-ranked of two exceptions (R57). -/
def minExc : Option Exc → Option Exc → Option Exc
  | none, b => b
  | a, none => a
  | some a, some b => if a.rank ≤ b.rank then some a else some b

/-- The first exception of several checks in the order of R57. -/
def excOf (l : List (Bool × Exc)) : Option Exc :=
  l.foldl (fun a p => if p.1 then minExc a (some p.2) else a) none

/-- The checks of R75, R102 and R138 on a range of scratchpad that a slot of core `n` reads or writes. -/
def rangeExc (c : Core) (x : Ctx) (off len : Nat) (write : Bool) : Option Exc :=
  if len = 0 then none
  else
    excOf [(decide (spdSize < off + len), .addr), (inSave c off len, .access),
      (write && (inCode c x off len || rangeBit isRo c off len), .access)]

/-- The tick count of a panel's supervisor counts from its rail's rise (R296). -/
def panelTick (s : State) (p : Nat) : Nat := s.now - (s.panel p).railUp

/-! Partitions, sequencers' watchdogs, debug halts (R65, R66, R375). -/

/-- The partition that a panel belongs to. -/
def partOf (s : State) (p : Nat) : Option Nat := (List.range 4).find? (fun k => (s.part k).has p)

/-- The partition of a panel is in HOLD. -/
def inHold (s : State) (p : Nat) : Bool := match partOf s p with | some k => (s.job k).hold | none => false

/-- A sequencer that executes, waits, rests or frogs (R66). -/
def Seq.busy (q : Seq) : Bool :=
  match q.state with
  | .running | .waiting | .prest | .frog => true
  | _ => false

/-- The watchdog's countdown stands (R65). -/
def Seq.pauseWd (now : Nat) (q : Seq) : Seq :=
  if q.wdRun then { q with wdRun := false, wdLeft := q.wdLeft - (now - q.wdFrom) } else q

/-- The watchdog counts on, from where it stood (R65). -/
def Seq.resumeWd (now : Nat) (armed : Bool) (q : Seq) : Seq :=
  if armed then { q with wdRun := true, wdFrom := now } else q

/-- The logical cores of panel `p` that hold any state. -/
def coresHeld (s : State) (p : Nat) : List Nat := (s.cores.map (·.1)).filter (fun n => panelOf n == p)

/-- A core is halted for debug: its context is in the debug buffer (R375, R380). -/
def Core.isHalted (c : Core) : Bool := c.halted.isSome && !c.haltReq

/-- A core's debug halt ends; the watchdog of its panel, which stood with it, counts on unless another core of the
panel is halted, or the panel rests or its partition is in HOLD (R65, R375). -/
def unhalt (n : Nat) (s : State) : State :=
  if (s.core n).halted.isNone then s
  else
    let s := s.onCore n (fun c => { c with halted := none })
    let p := panelOf n
    if (coresHeld s p).any (fun m => (s.core m).halted.isSome) then s
    else
      let run := (s.seq p).busy && !inHold s p && decide ((s.panel p).power = .active)
      s.onSeq p (Seq.resumeWd s.now run)

end Sys2Proof.Machine
end

