-- ==== Sys2Proof/Machine/SaveArea.lean ====
section
/-! DEFINITION. The save area of a context (R53, R54, R89, R145): its layout, the save as full-line writes and the
restore through line evaluation. -/

namespace Sys2Proof.Machine

open Sys2Proof

/-- The header (R54): 64 bytes. -/
def imgHeader (x : Ctx) : List Byte :=
  let (ex, slot, epc) : Nat × Nat × Nat := match x.exc with | some r => (r.exc.code, r.slot, r.pc) | none => (0, 0, 0)
  let br := match x.branch with | some (t, m) => t % 2 ^ 20 + (m % 4) * 2 ^ 20 | none => 0
  leBytes 1 x.state.code ++ leBytes 1 ex ++ leBytes 1 (slot + 4 * b2n x.hang)
    ++ leBytes 1 (x.mode.toNat + 16 * b2n x.srs0 + 32 * b2n x.srs1) ++ leBytes 4 x.pc ++ leBytes 4 epc ++ leBytes 1 x.region
    ++ leBytes 3 0 ++ leBytes 4 br ++ leBytes 4 0 ++ leBytes 8 x.cycle ++ leBytes 8 x.issue ++ leBytes 24 0

/-- The exception of a code (R59). -/
def excOfCode (v : Nat) : Option Exc :=
  match v with
  | 1 => some .illegal | 2 => some .addr | 3 => some .ue | 4 => some .metaE | 5 => some .access | 6 => some .bundle
  | _ => none

/-- What a restore loads from a header; the state is the hub's own record. -/
def putHeader (b : List Byte) (x : Ctx) : Ctx :=
  let w := leNat b
  let br := fld w 147 128
  let left := fld w 149 148
  { x with
    exc := (excOfCode (fld w 15 8)).map (fun e => { exc := e, slot := fld w 17 16, pc := fld w 83 64 })
    hang := w.testBit 18, mode := BitVec.ofNat 4 (fld w 27 24), srs0 := w.testBit 28, srs1 := w.testBit 29
    pc := fld w 51 32, region := fld w 99 96, branch := if left = 0 then none else some (br, left)
    cycle := fld w 255 192, issue := fld w 319 256 }

/-- The block at 0x200 (R54): predicates, loop levels, SCRATCH. -/
def imgBlock (x : Ctx) : List Byte :=
  let lv := (List.range 4).flatMap (fun i => match x.loops[i]? with
    | some l => leBytes 4 l.count ++ leBytes 4 l.start ++ leBytes 4 l.stop
    | none => leBytes 12 0)
  leBytes 1 (((List.range 8).filter x.regs.getP).map (2 ^ ·)).sum ++ leBytes 1 x.loops.length ++ leBytes 6 0 ++ lv ++ leBytes 8 x.scratch.toNat

/-- The block at 0x200 written back. A depth above four gives levels that no restore accepts (R44). -/
def putBlock (b : List Byte) (x : Ctx) : Ctx :=
  let w := leNat b
  let lv := (List.range (fld w 10 8)).map (fun i =>
    let o := 64 + 96 * i
    if i < 4 then { count := fld w (o + 31) o, start := fld w (o + 51) (o + 32), stop := fld w (o + 83) (o + 64) : LoopLv }
    else { count := 0, start := 0, stop := 0 })
  { x with
    regs := (List.range 8).foldl (fun r i => r.setP i (w.testBit i)) x.regs
    loops := lv, scratch := BitVec.ofNat 64 (fld w 511 448) }

/-- A slot descriptor (R148) and the slot it stands for. -/
def slotWord (q : QSlot) : Nat :=
  q.base % 2 ^ 23 + q.esz % 16 * 2 ^ 24 + q.mode % 8 * 2 ^ 28 + q.depth % 64 * 2 ^ 32 + q.prod % 256 * 2 ^ 64 + q.cons % 256 * 2 ^ 72
    + q.done.toNat * 2 ^ 128
def putSlotWord (w : Nat) (q : QSlot) : QSlot :=
  { q with
    base := fld w 22 0, esz := fld w 27 24, mode := fld w 30 28, depth := fld w 37 32, prod := fld w 71 64, cons := fld w 79 72
    done := BitVec.ofNat 64 (fld w 191 128) }

/-- The mode bits of a context (R40 MODE). -/
def Ctx.unchecked (x : Ctx) : Bool := x.mode.getLsbD 0
def Ctx.strict (x : Ctx) : Bool := x.mode.getLsbD 1
def Ctx.counter (x : Ctx) : Bool := x.mode.getLsbD 2
def Ctx.indexed (x : Ctx) : Bool := x.mode.getLsbD 3

/-! The whole area (R54). -/

/-- Bytes 0x0_0000 to 0x0_273F of the area of a context (R54). -/
def areaBytes (x : Ctx) : List Byte :=
  imgHeader x
    ++ (List.range 32).flatMap (fun i => leBytes 8 (x.regs.getS i).toNat)
    ++ (List.range 16).flatMap (fun i => leBytes 8 (x.regs.getA i).toNat)
    ++ (List.range 8).flatMap (fun i => leBytes 8 (x.getK i).toNat)
    ++ imgBlock x
    ++ (List.range 8).flatMap (fun i => leBytes 32 (x.getC i).toNat)
    ++ (List.range 16).flatMap (fun i => leBytes 32 (slotWord (x.slot i)))
    ++ (List.range 64).flatMap (fun i => leBytes 8 (Tab.get 0 x.gens i : W64).toNat)
    ++ (List.range 2048).flatMap (fun i => leBytes 4 (Tab.get 0 x.v i : W32).toNat)

/-- The indexed accumulator tiles (R54), 65,536 bytes. -/
def areaTiles (x : Ctx) : List Byte :=
  (List.range 16384).flatMap (fun i => leBytes 4 (Tab.get 0 x.acc i : W32).toNat)

/-- Lines of registers, of vector quarters and of accumulator rows. -/
def areaRegLines : Nat := 29
def areaVecLines : Nat := 128
def areaAccLines : Nat := 1024

/-- The lines that a save of a context writes (R54). -/
def areaLines (x : Ctx) : Nat := areaRegLines + areaVecLines + (if x.indexed then areaAccLines else 0)

/-- The lines of the area with the poison mark of each: a vector quarter and an accumulator row are one line
each (R89, R104). -/
def areaContents (x : Ctx) : List (List Byte × Bool) :=
  let b := areaBytes x ++ (if x.indexed then areaTiles x else [])
  (chunks 64 b.length b).zipIdx.map (fun e =>
    (e.1,
      if e.2 < areaRegLines then false
      else if e.2 < areaRegLines + areaVecLines then Tab.get false x.vp (e.2 - areaRegLines)
      else Tab.get false x.accp (e.2 - areaRegLines - areaVecLines)))

/-- A line as a full-line write leaves it (R131, R132, R135, R144). -/
def freshLine (b : List Byte) (pois : Bool) : Line := { chk := checkBits b, lchk := lineCheck b, checked := true, poison := pois }

/-- Writes whole lines from line `l` on, each in one full-line write (R134, R135). -/
def writeFull (n l : Nat) (ls : List (List Byte × Bool)) (s : State) : State :=
  let bytes := (ls.flatMap (·.1)).zipIdx
  let put := fun (e : Byte × Nat) (m : List Host.Cell) => if e.1 = memDefault then m else Tab.set m (spdKey n (64 * l) + e.2) e.1
  let mark := fun (e : (List Byte × Bool) × Nat) (t : Tab Line) =>
    if freshLine e.1.1 e.1.2 = Line.zero then t else Tab.set t (lineKey n l + e.2) (freshLine e.1.1 e.1.2)
  let s : State := { s with
    mem := bytes.foldr put (Tab.delRange s.mem (spdKey n (64 * l)) (64 * ls.length))
    lines := ls.zipIdx.foldr mark (Tab.delRange s.lines (lineKey n l) ls.length) }
  s.onCore n (fun c =>
    let lost := (c.wb.filter (fun w => decide (l ≤ w.line) && decide (w.line < l + ls.length))).length
    { c with
      wb := c.wb.filter (fun w => !(decide (l ≤ w.line) && decide (w.line < l + ls.length)))
      spd := { c.spd with wbLost := sat 8 (c.spd.wbLost + lost) }
      redef := if c.undef.isEmpty then c.redef else (span l ls.length).foldr (fun k t => Tab.put false t k true) c.redef })

/-- Saves context `k` into its area (R54, R135). -/
def saveArea (n k : Nat) (s : State) : State := writeFull n (saveBase k / 64) (areaContents (s.ctxAt n k)) s

/-- The values of a list that are not the default, by index. -/
def tabOf {α : Type} [DecidableEq α] (d : α) (l : List α) : Tab α :=
  (l.zipIdx.filter (fun e => decide (e.1 ≠ d))).map (fun e => (e.2, e.1))

/-- Little-endian numbers of `k` bytes each. -/
def leNats (k : Nat) (b : List Byte) : List Nat := (chunks k b.length b).map leNat

/-- What a restore loads from the bytes of an area and the marks of its lines (R54, R89, R145). -/
def loadContents (b : List Byte) (marked : Nat → Bool) (x : Ctx) : Ctx :=
  let x := putBlock ((b.drop 0x200).take 64) (putHeader (b.take 64) x)
  let part := fun (off len k : Nat) => leNats k ((b.drop off).take len)
  let marks := fun (l len : Nat) => tabOf false ((List.range len).map (fun i => marked (l + i)))
  { x with
    regs := { x.regs with
      s := tabOf 0 ((part 0x40 256 8).map (BitVec.ofNat 64))
      a := tabOf 0 ((part 0x140 128 8).map (BitVec.ofNat 48)) }
    k := tabOf 0 ((part 0x1C0 64 8).map (BitVec.ofNat 64))
    c := tabOf 0 ((part 0x240 256 32).map (BitVec.ofNat 256))
    q := (part 0x340 512 32).zipIdx.map (fun e => (e.2, putSlotWord e.1 (x.slot e.2)))
    gens := (part 0x540 512 8).zipIdx.map (fun e => (e.2, BitVec.ofNat 64 e.1))
    v := tabOf 0 ((part 0x740 8192 4).map (BitVec.ofNat 32))
    vp := marks areaRegLines areaVecLines
    acc := if x.indexed then tabOf 0 ((part 0x2740 65536 4).map (BitVec.ofNat 32)) else []
    accp := if x.indexed then marks (areaRegLines + areaVecLines) areaAccLines else [] }

/-- Reads the area of context `k` back (R133, R144, R145): every line of it is evaluated. The answer is false where
a line of registers is uncorrectable, or a line of vectors or tiles whose mark was not set; marks of the latter
restore as marks. -/
def loadArea (n k : Nat) (s : State) : Bool × State :=
  let l := saveBase k / 64
  let len := areaLines (s.ctxAt n k)
  let marked := fun (i : Nat) => (rawLine s n (l + i)).2.poison
  let (r, s') := readLines 0 n (span l len) s
  let found := r.bad.any (fun j => decide (j < l + areaRegLines) || !marked (j - l))
  if found then (false, s') else (true, s'.onCtx n k (loadContents r.bytes marked))

end Sys2Proof.Machine
end

