-- ==== Sys2Proof/Machine/Pipe.lean ====
section
/-! DEFINITION. What issue cycles carry (R34, R35, R76, R77, R106): results retiring, stores becoming
visible, shadow parts, array input rows and accumulator writes. -/

namespace Sys2Proof.Machine

/-- Puts a result in flight (R34): `lat` issue cycles after the bundle that issues now. -/
def flyRes (n slot pc lat : Nat) (w : RegW) (s : State) : State :=
  s.onCore n (fun c => { c with flight := c.flight ++ [{ due := c.icyc + lat, slot := slot, pc := pc, w := w }] })

/-- An exception detected in the present issue cycle by a unit behind issue (R58). -/
def lateExc (n slot pc : Nat) (e : Exc) (s : State) : State := flyRes n slot pc 0 (.exc e) s

/-- The register file and register a result writes; none for what is no register (R35). -/
def RegW.reg : RegW → Option (Nat × Nat)
  | .s r _ => if r = 0 then none else some (0, r)
  | .a r _ => some (1, r)
  | .k r _ => some (2, r)
  | .p r _ => some (3, r)
  | .lanes r _ _ => some (4, r)
  | .chain f => some (4, f.vd)
  | .c r _ => some (5, r)
  | .q r _ => some (6, r)
  | _ => none

/-- Writes lanes and quarter poison of a vector register (R103, R104). -/
def putLanes (r : Nat) (lanes : List (Nat × W32)) (pois : List Nat) (x : Ctx) : Ctx :=
  let x1 := lanes.foldl (fun x e => x.setV r e.1 e.2) x
  (List.range 4).foldl (fun x q =>
    let inQ := lanes.filter (fun e => e.1 / 16 == q)
    if inQ.isEmpty then x
    else x.setVP r q (pois.any (fun j => j / 16 == q) || (decide (inQ.length < 16) && x.getVP r q))) x1

/-- Sets the finite flag of a core (R107). -/
def setFlag (n : Nat) (s : State) : State := s.onCore n (fun c => { c with flag := true })

/-- Retires a chain: values, poison, counters, finite flag (R92, R104, R107). -/
def retireChain (n : Nat) (f : Flying) (s : State) : State :=
  let o := evalChain f
  let s := s.onCur n (putLanes f.vd o.lanes o.pois)
  let s := if o.pois.isEmpty then s else s.onCounts n (fun k => { k with vpoisoned := inc 8 k.vpoisoned })
  if o.flagged then
    setFlag n (s.onCounts n (fun k => { k with nonfinite := inc 16 k.nonfinite }))
  else s

/-- Writes `count` back to a group's entry and removes the group from the table (R83, R84). -/
def writeGroupCount (n : Nat) (g : Group) (s : State) : State :=
  spdWrite n (atOff (g.tab + 6) (leBytes 2 g.count)) [] s

/-- Performs what a result writes; MSEED restarts the field position (log entry 103). -/
def applyRes (n : Nat) (w : RegW) (s : State) : State :=
  match w with
  | .s r v => s.onCur n (fun x => { x with regs := x.regs.setS r v })
  | .a r v => s.onCur n (fun x => { x with regs := x.regs.setA r v })
  | .k r v => s.onCur n (fun x => x.setK r v)
  | .p r v => s.onCur n (fun x => { x with regs := x.regs.setP r v })
  | .c r v => s.onCur n (fun x => { x with c := Tab.put 0 x.c r v })
  | .q r v => s.onCur n (fun x => { x with q := Tab.set x.q r v })
  | .lanes r ls qs => s.onCur n (putLanes r ls ((qs.filter (·.2)).map (fun e => 16 * e.1)))
  | .chain f => retireChain n f s
  | .exc _ => s
  | .grpOpen a g grp => s.onCur n (fun x => { x with groups := Tab.set x.groups (8 * a + g) grp })
  | .grpClose a g =>
    match (s.ctx n).groups.find? (fun e => e.1 == 8 * a + g) with
    | some e => writeGroupCount n e.2 (s.onCur n (fun x => { x with groups := Tab.del x.groups (8 * a + g) }))
    | none => s
  | .srs a v => s.onCur n (fun x => if a = 0 then { x with srs0 := v } else { x with srs1 := v })
  | .seedCols a v =>
    s.onArr n a (fun A =>
      { A with
        gens := (List.range 16).foldl (fun g i => Tab.set g i (nonzeroGen (v + BitVec.ofNat 64 i))) A.gens
        gpos := [] })
  | .seedLanes v =>
    s.onCur n (fun x =>
      { x with gens := (List.range 64).foldl (fun g j => Tab.set g j (nonzeroGen (v + BitVec.ofNat 64 j))) x.gens })

/-- Inserts a result by issue cycle and slot, after those equal to it (R35). -/
def insRes (r : Res) : List Res → List Res
  | [] => [r]
  | h :: t => if r.due < h.due ∨ (r.due = h.due ∧ r.slot < h.slot) then r :: h :: t else h :: insRes r t

/-- Results in the order in which they retire. -/
def sortRes (l : List Res) : List Res := l.foldl (fun acc r => insRes r acc) []

/-- The number of results that share issue cycle and register with another (R35). -/
def collisions : List Res → Nat
  | [] => 0
  | r :: t =>
    b2n (r.w.reg.isSome && t.any (fun q => q.due == r.due && q.w.reg == r.w.reg)) + collisions t

/-- Generator values for the stages of the chains in flight that execute in issue cycle `cyc` in
free-running mode (R106). -/
def captureStages (gens : Tab W64) (cyc : Nat) (f : Flying) : Flying :=
  let starts := f.stages.zipIdx.map (fun e =>
    (e.2, f.t + 1 + ((f.stages.take e.2).map Stage.lat).sum, e.1.stoch || e.1.usesU))
  starts.foldl (fun f e =>
    if e.2.2 && decide (e.2.1 ≤ cyc) && !(f.gen1.any (fun g => g.1 == e.1)) then
      { f with gen1 := Tab.set f.gen1 e.1 gens, gen2 := Tab.set f.gen2 e.1 gens }
    else f) f

/-- Takes generator values for every chain in flight of core `n` (R106). -/
def captureGens (n cyc : Nat) (s : State) : State :=
  let g := (s.ctx n).gens
  if (s.ctx n).counter then s
  else s.onCore n (fun c =>
    { c with
      flight := c.flight.map (fun r =>
        match r.w with
        | .chain f => { r with w := .chain (captureStages g cyc f) }
        | _ => r) })

/-- Retires every result due by issue cycle `cyc`; the exception among them that wins, with its slot and
bundle index (R34, R35, R57, R58). -/
def retireUpTo (n cyc : Nat) (s : State) : State × Option ExcRec :=
  let c := s.core n
  let due := sortRes (c.flight.filter (fun r => decide (r.due ≤ cyc)))
  let s := s.onCore n (fun c =>
    { c with
      flight := c.flight.filter (fun r => !decide (r.due ≤ cyc))
      wcollide := sat 4 (c.wcollide + collisions due) })
  let s := due.foldl (fun s r => applyRes n r.w s) s
  let e := due.foldl (fun (a : Option ExcRec) r =>
    match r.w with
    | .exc e =>
      match a with
      | none => some { exc := e, slot := r.slot, pc := r.pc }
      | some b =>
        if e.rank < b.exc.rank ∨ (e.rank = b.exc.rank ∧ r.slot < b.slot) then
          some { exc := e, slot := r.slot, pc := r.pc }
        else a
    | _ => a) none
  (s, e)

/-- Inserts a number into a rising list. -/
def insNat (x : Nat) : List Nat → List Nat
  | [] => [x]
  | h :: t => if x ≤ h then x :: h :: t else h :: insNat x t

/-- Sorts numbers. -/
def sortNat (l : List Nat) : List Nat := l.foldl (fun a x => insNat x a) []

/-- Makes the stores visible that are due by issue cycle `cyc`: in the order of their cycles, the vector
port before the stream port (R40, R102, R130). -/
def commitStores (n cyc : Nat) (s : State) : State :=
  let c := s.core n
  let due := c.stores.filter (fun p => decide (p.due ≤ cyc))
  let cycles := (due.map (·.due)).foldl (fun (a : List Nat) d => if a.contains d then a else a ++ [d]) []
  let cycles := sortNat cycles
  let ordered := cycles.flatMap (fun d =>
    (due.filter (fun p => p.due == d && p.port == 2)) ++ (due.filter (fun p => p.due == d && p.port != 2)))
  let s := s.onCore n (fun c => { c with stores := c.stores.filter (fun p => !decide (p.due ≤ cyc)) })
  ordered.foldl (fun s p => spdWrite n p.bytes p.pois s) s

/-- A read by an array in issue cycle `cyc`: it sees the stores that are visible by then, also where the stream stands
short of that cycle (R46, R77). -/
def arrayRead (n cyc off len : Nat) (s : State) : Rd × State :=
  let (_, t) := spdRead 1 n off len s
  ((spdRead 1 n off len (commitStores n cyc s)).1, t)

/-! Shadow parts (R76, R117). -/

/-- Counts a metadata event and, in strict mode, raises EXC_META (R126, R127). -/
def gmeEvent (n kind count slotPc : Nat) (s : State) : State :=
  if count = 0 then s
  else
    let s := s.onCounts n (fun k =>
      { k with
        gmeFirst := if k.gmeFirst = 0 then kind else k.gmeFirst
        maskDrop := if kind = 1 then sat 16 (k.maskDrop + count) else k.maskDrop
        metaBad := if kind = 2 then sat 16 (k.metaBad + count) else k.metaBad
        idxDrop := if kind = 3 then sat 16 (k.idxDrop + count) else k.idxDrop })
    if (s.ctx n).strict then lateExc n 1 slotPc .metaE s else s

/-- The bytes that part j of `parts` covers of `len` bytes (R76: equal parts in k order). -/
def partRange (len parts j : Nat) : Nat × Nat := (len * j / parts, len * (j + 1) / parts - len * j / parts)

/-- Copies a part into a table of bytes with its poison. -/
def fillPart (tb : Tab Byte) (tp : Tab Bool) (at_ : Nat) (base : Nat) (r : Rd) : Tab Byte × Tab Bool :=
  r.bytes.zipIdx.foldl (fun (a : Tab Byte × Tab Bool) e =>
    (Tab.put 0 a.1 (at_ + e.2) e.1, Tab.put false a.2 (at_ + e.2) (r.badAt (base + e.2) 1))) (tb, tp)

/-- Writes the next part of a shadow load (R76); metadata groups completed by it are checked (R126). -/
def shadowPart (n a : Nat) (s : State) : State :=
  match ((s.core n).arr a).load with
  | none => s
  | some L =>
    let (d0, dl) := partRange L.srcLen L.parts L.next
    let (c0, cl) := partRange L.scLen L.parts L.next
    let (m0, ml) := partRange L.mdLen L.parts L.next
    let (rd, s) := spdRead 1 n (L.src + d0) dl s
    let (rc, s) := spdRead 1 n (L.sc + c0) cl s
    let (rm, s) := spdRead 1 n (L.md + m0) ml s
    let s := s.onArr n a (fun A =>
      let W := A.shadow
      let (data, dataP) := fillPart W.data W.dataP d0 (L.src + d0) rd
      let (scales, scalesP) := fillPart W.scales W.scalesP c0 (L.sc + c0) rc
      let (md, mdP) := fillPart W.md W.mdP m0 (L.md + m0) rm
      { A with
        shadow := { W with data := data, dataP := dataP, scales := scales, scalesP := scalesP, md := md, mdP := mdP }
        load := if L.next + 1 = L.parts then none else some { L with next := L.next + 1 } })
    let W := ((s.core n).arr a).shadow
    let groups := (List.range (ktOf (classOf W.wf) / 2)).flatMap (fun g =>
      (List.range 16).filter (fun col =>
        let b := (32 * g + 16 + col) / 4
        decide (m0 ≤ b) && decide (b < m0 + ml)
          && badGroup W g col))
    gmeEvent n 2 (if W.nm = 1 then groups.length else 0) L.pc s

/-- Writes the parts that fall in issue cycles up to `cyc`; `fuel` bounds their number. -/
def shadowUpTo (n a cyc : Nat) : Nat → State → State
  | 0, s => s
  | fuel + 1, s =>
    match ((s.core n).arr a).load with
    | none => s
    | some L => if L.t + 1 + L.next ≤ cyc then shadowUpTo n a cyc fuel (shadowPart n a s) else s

/-! Array input (R77, R82, R123). -/

/-- Enqueues accumulator writes. -/
def pushRows (n a : Nat) (l : List RowOp) (s : State) : State :=
  s.onArr n a (fun A => { A with rows := A.rows ++ l })

/-- The source rows of MPRE: 16 FP32 or BF16 values (R82). -/
def preVals (pf : Bool) (b : List Byte) : List W32 :=
  (List.range 16).map (fun j =>
    if pf then BitVec.ofNat 32 (65536 * leNat ((b.drop (2 * j)).take 2)) else BitVec.ofNat 32 (leNat ((b.drop (4 * j)).take 4)))

/-- One entry of an SMUL (R122, R123, R126). Where the header is bad or its granule poisoned every entry is null; an
entry in a poisoned granule poisons row 0 of the first tile. A poisoned source record marks the row that it adds
into, as a poisoned activation row does (R89). -/
def smulEntry (n a : Nat) (I : Inp) (x list base stride : Nat) (bad : Bool) (s : State) : State :=
  let e := I.next
  let cyc := I.t + I.v * e
  let due := cyc + 20
  let null : RowOp := { due := due, tile := I.tile, row := 0, srs := I.srs, val := .nothing }
  let (r, s) := arrayRead n cyc (list + 16 + 8 * e) 8 s
  if !r.bad.isEmpty then pushRows n a [{ null with val := .poison }] s
  else if bad then pushRows n a [null] s
  else
      let row := leNat (r.bytes.take 4)
      let src := leNat (r.bytes.drop 4)
      if row = 0xFFFFFFFF then pushRows n a [null] s
      else
        let W := ((s.core n).arr a).active
        let len := rowBytes W + rowScales W
        let off := x + src * stride * 32
        let c := s.core n
        let outside := decide (spdSize < off + len) || inSave c off len || inCode c c.ctx off len
          || rangeBit isLocal c off len || rangeBit isRo c off len
        let d := (row + 2 ^ 32 - base) % 2 ^ 32
        let far := decide (16 * (32 - I.tile) ≤ d)
        if outside then gmeEvent n 3 1 I.pc (pushRows n a [null] s)
        else
          let (r, s) := arrayRead n cyc off len s
          if far then gmeEvent n 3 1 I.pc (pushRows n a [null] s)
          else
            let blocks := rowBlocks W (r.bytes.take (rowBytes W)) (r.bytes.drop (rowBytes W))
            pushRows n a
              [{ due := due, tile := I.tile + d / 16, row := d % 16, srs := I.srs, val := .add blocks (!r.bad.isEmpty || W.poisoned) }] s

/-- The next row of an array's input enters: its operands are read and its accumulator write is put on
its way (R77). -/
def inputRow (n a : Nat) (s : State) : State :=
  match ((s.core n).arr a).inp with
  | none => s
  | some I =>
    let i := I.next
    let cyc := I.t + I.v * i
    let due := cyc + 20
    let fin := fun (k : Nat) (s : State) =>
      s.onArr n a (fun A => { A with inp := if k ≥ I.rows then none else some { I with next := k } })
    match I.kind with
    | .mclr =>
      fin (i + 1) (pushRows n a [{ due := due, tile := I.tile + i, row := 0, srs := false, val := .clear }] s)
    | .mpre true pf src =>
      let (r, s) := arrayRead n cyc src (if pf then 32 else 64) s
      let vals := preVals pf r.bytes
      fin I.rows (pushRows n a ((List.range I.rows).map (fun j =>
        { due := I.t + 20 + j, tile := I.tile + j / 16, row := j % 16, srs := false
          val := .put vals (!r.bad.isEmpty) })) s)
    | .mpre false pf src =>
      let b := if pf then 32 else 64
      let (r, s) := arrayRead n cyc (src + i * b) b s
      fin (i + 1) (pushRows n a
        [{ due := due, tile := I.tile + i / 16, row := i % 16, srs := false
           val := .put (preVals pf r.bytes) (!r.bad.isEmpty) }] s)
    | .mmul x sc =>
      let W := ((s.core n).arr a).active
      let (r, s) := arrayRead n cyc (x + i * rowBytes W) (rowBytes W) s
      let (q, s) := arrayRead n cyc (sc + i * rowScales W) (rowScales W) s
      fin (i + 1) (pushRows n a
        [{ due := due, tile := I.tile + i / 16, row := i % 16, srs := I.srs
           val := .add (rowBlocks W r.bytes q.bytes) (!r.bad.isEmpty || !q.bad.isEmpty || W.poisoned) }] s)
    | .smul x list base stride bad => fin (i + 1) (smulEntry n a I x list base stride bad s)

/-- Rows enter that fall in issue cycles up to `cyc`; `fuel` bounds their number. -/
def inputUpTo (n a cyc : Nat) : Nat → State → State
  | 0, s => s
  | fuel + 1, s =>
    match ((s.core n).arr a).inp with
    | none => s
    | some I => if I.t + I.v * I.next ≤ cyc then inputUpTo n a cyc fuel (inputRow n a s) else s

/-! Accumulator writes (R70, R77, R89). -/

/-- Notes the panel cycle of a write into a tile: it has taken effect from the next one on (R87). -/
def noteWrite (n a : Nat) (op : RowOp) (s : State) : State :=
  s.onArr n a (fun A => { A with wrote := Tab.set A.wrote op.tile ((s.panel (panelOf n)).cyc + 1, op.due) })

/-- Performs one accumulator write of array `a` on the current context. -/
def applyRow (n a : Nat) (op : RowOp) (s : State) : State :=
  let s := match op.val with | .nothing => s | _ => noteWrite n a op s
  let x := s.ctx n
  let A := (s.core n).arr a
  let mark := fun (x : Ctx) (b : Bool) => if x.indexed then x else { x with dirty := Tab.put false x.dirty a b }
  match op.val with
  | .nothing => s
  | .poison => s.onCur n (fun x => { x with accp := Tab.put false x.accp (accRow a op.tile 0) true })
  | .clear => s.onCur n (fun x => mark (clearTile a op.tile x) false)
  | .put vals p => s.onCur n (fun x => mark (putRow a op.tile op.row vals p x) true)
  | .add blocks p =>
    let r := addRow x.counter op.srs a op.tile op.row blocks p x A
    (s.onCur n (fun _ => mark r.1 true)).onArr n a (fun _ => r.2)

/-- Performs the accumulator writes due by issue cycle `cyc`, in order. -/
def rowsUpTo (n a cyc : Nat) (s : State) : State :=
  let due := ((s.core n).arr a).rows.filter (fun r => decide (r.due ≤ cyc))
  let s := s.onArr n a (fun A => { A with rows := A.rows.filter (fun r => !decide (r.due ≤ cyc)) })
  due.foldl (fun s r => applyRow n a r s) s

/-- The work of one array in issue cycles up to `cyc - 1`: shadow parts and input rows (R76, R77). -/
def arrayBefore (n a cyc : Nat) (s : State) : State :=
  if cyc = 0 then s else inputUpTo n a (cyc - 1) 600 (shadowUpTo n a (cyc - 1) 24 s)

/-- Writes that the bundle of issue cycle `t` makes at once are carried out at its end, behind the reads that the arrays
make in that cycle (R77, R130). -/
def writesOf (n t : Nat) (s : State) : State :=
  if (s.core n).stores.any (fun p => decide (p.due ≤ t)) then
    commitStores n t (arrayBefore n 1 (t + 1) (arrayBefore n 0 (t + 1) s))
  else s

/-- Brings core `n` to the start of its next issue cycle: everything that belongs to earlier cycles, then
the stores and results of this one (R34, R40, R76, R77). -/
def catchUp (n : Nat) (s : State) : State × Option ExcRec :=
  let c := (s.core n).icyc
  let s := arrayBefore n 1 c (arrayBefore n 0 c s)
  retireUpTo n c (commitStores n c s)

/-- What happens in issue cycle `c` itself: the accumulator writes due in it, each with the generator's value of
the panel cycle in which it is done, and the values that the stages of chains take (R70, R73, R106). -/
def duringCycle (n c : Nat) (s : State) : State :=
  captureGens n c (rowsUpTo n 1 c (rowsUpTo n 0 c s))

/-- Nothing of fixed latency is on its way in an array, or in a core (R51, R55). -/
def Arr.still (A : Arr) : Bool := A.load.isNone && A.inp.isNone && A.rows.isEmpty
def Core.still (c : Core) : Bool := c.flight.isEmpty && c.stores.isEmpty && c.m0.still && c.m1.still

/-- An issue cycle that passes without a bundle: the fixed-latency work of a core that issues no more goes on
(R51, R55, R58; log entry 92). -/
def passCycle (n : Nat) (s : State) : State × Option ExcRec :=
  let (s, e) := catchUp n s
  let s := duringCycle n (s.core n).icyc s
  (s.onCore n (fun c => { c with icyc := c.icyc + 1 }), e)

end Sys2Proof.Machine
end

