-- ==== Sys2Proof/Machine/Context.lean ====
section
/-! DEFINITION. Contexts: launch, boundary, save and restore, switch, stop, exception (R36, R52 to R59,
R90, R140, R171). -/

namespace Sys2Proof.Machine

/-- A region register may hold code (R140). -/
def regionOk (c : Core) (r : Nat) : Bool :=
  let v := Tab.get 0 c.regions r
  v.getLsbD 63 && v.getLsbD 62 && v.getLsbD 60
    && decide (fld v.toNat 10 0 ≤ fld v.toNat 42 32)
    && decide ((fld v.toNat 42 32 + 1) * 0x1000 ≤ 0x130000)

/-- First byte and size of the code region of a context (R36). -/
def codeBase (c : Core) (x : Ctx) : Nat := fld (Tab.get 0 c.regions x.region).toNat 10 0 * 0x1000
def codeSize (c : Core) (x : Ctx) : Nat :=
  let v := (Tab.get 0 c.regions x.region).toNat
  (fld v 42 32 + 1) * 0x1000 - fld v 10 0 * 0x1000

/-- Each body lies within the one around it, and the LOOP that opened it stood there before its last two bundles
(R44). -/
def loopsNest : List LoopLv → Bool
  | [] => true
  | [_] => true
  | a :: b :: t => decide (a.start < b.start) && decide (b.stop ≤ a.stop) && decide (b.start < a.stop) && loopsNest (b :: t)

/-- Loop levels that R44 allows: nested bodies, at most four. -/
def loopsOk (l : List LoopLv) : Bool := decide (l.length ≤ 4) && l.all (fun v => decide (v.start ≤ v.stop)) && loopsNest l

/-- The control block that the engine writes for a list (R154). -/
def controlBlock (L : SList) : List Byte :=
  let row := match L.cur with | some x => x.row | none => 0
  let byte := match L.cur with | some x => x.byte | none => 0
  leBytes 8 (L.next % 2 ^ 23 + L.state.code * 2 ^ 32 + (row % 2 ^ 16) * 2 ^ 40 + L.fault * 2 ^ 56)
    ++ leBytes 8 L.completed ++ leBytes 8 (byte % 2 ^ 24) ++ List.replicate 40 0

/-- Writes a list's control block as one full-line write (R154). -/
def writeBlock (n k l : Nat) (s : State) : State :=
  let L := s.listAt n k l
  spdWrite n (atOff L.cb (controlBlock L)) [] s

/-- A list that SLIST has started and that is not idle, done or faulted (R154). -/
def SList.live (L : SList) : Bool :=
  match L.state with
  | .running | .atMarker | .slotWait | .stopping => true
  | _ => false

/-- Suspends the lists of a context: every list in use writes its control block (R154, R171). -/
def suspendLists (n k : Nat) (s : State) : State :=
  (List.range 4).foldl (fun s l => if (s.listAt n k l).live then writeBlock n k l s else s) s

/-- The list state that a control block holds (R154). -/
def stateOfCode (v : Nat) : LState :=
  match v with
  | 0 => .idle | 1 => .running | 2 => .atMarker | 3 => .slotWait | 4 => .done | 5 => .fault | _ => .stopping

/-- Reloads a list's state from its control block on resume (R154). -/
def reloadList (n k l : Nat) (s : State) : State :=
  if (s.listAt n k l).live then
    let (r, s) := spdRead 1 n (s.listAt n k l).cb 64 s
    let w0 := leNat (r.bytes.take 8)
    let w1 := leNat ((r.bytes.drop 8).take 8)
    let w2 := leNat ((r.bytes.drop 16).take 8)
    s.onList n k l (fun L =>
      { L with
        next := fld w0 22 0, state := stateOfCode (fld w0 34 32), fault := fld w0 63 56, completed := w1
        cur := L.cur.map (fun x => { x with row := fld w0 55 40, byte := fld w2 23 0 }) })
  else s

def reloadLists (n k : Nat) (s : State) : State := (List.range 4).foldl (fun s l => reloadList n k l s) s

/-- Stops the lists of a context at END: each becomes IDLE or stays DONE or FAULT, and its control block is
written back (R171). -/
def endLists (n k : Nat) (s : State) : State :=
  (List.range 4).foldl (fun s l =>
    let L := s.listAt n k l
    if L.live then writeBlock n k l (s.onList n k l (fun L => { L with state := .idle, cur := none }))
    else if L.state = .done ∨ L.state = .fault then writeBlock n k l s
    else s) s

/-- The bytes, the line states and the pending write-backs of a save area are dropped. -/
def cleanArea (n k : Nat) (s : State) : State :=
  let s := { s with
    mem := Tab.delRange s.mem (spdKey n (saveBase k)) 0x14000
    lines := Tab.delRange s.lines (lineKey n (saveBase k / 64)) 0x500 }
  s.onCore n (fun c =>
    { c with
      undef := Tab.del c.undef k
      redef := c.redef.filter (fun e => !overlap (64 * e.1) 64 (saveBase k) 0x14000)
      wb := c.wb.filter (fun w => !overlap (64 * w.line) 64 (saveBase k) 0x14000) })

/-- The area of a context that becomes EMPTY returns to the program with undefined contents (R53). -/
def releaseArea (n k : Nat) (s : State) : State :=
  let seed := s.freeSeq
  let s := cleanArea n k { s with freeSeq := s.freeSeq + 1 }
  s.onCore n (fun c => { c with undef := Tab.set c.undef k seed })

/-- Writes `count` back for every open group of a context (R83, R90). -/
def writeGroups (n k : Nat) (s : State) : State :=
  (s.ctxAt n k).groups.foldl (fun s e => writeGroupCount n e.2 s) s

/-- The tile-mode tiles of a context are lost: dirty ones are counted (R56, R90). -/
def loseTiles (x : Ctx) : Ctx :=
  if x.indexed then x
  else
    { x with
      acc := [], accp := [], dirty := []
      counts := { x.counts with lost := sat 8 (x.counts.lost + (x.dirty.filter (·.2)).length) } }

/-- The arrays lose their weight tiles and whatever streams through them (R90). -/
def clearArrays (c : Core) : Core :=
  let f := fun (A : Arr) =>
    { A with active := WTile.init, shadow := WTile.init, load := none, inp := none, busy := 0, rows := [], queue := [] }
  { c with m0 := f c.m0, m1 := f c.m1 }

/-- Reopens the groups of a context from their entries (R83, R90): wide sums, interval and count as the entries hold
them now. An uncorrectable entry is used as it stands (log entry 93). -/
def reopenGroups (n k : Nat) (s : State) : State :=
  (s.ctxAt n k).groups.foldl (fun s e =>
    let (r, s) := spdRead 1 n e.2.tab 16 s
    let w := leNat r.bytes
    s.onCtx n k (fun x =>
      { x with groups := Tab.set x.groups e.1 { e.2 with wide := fld w 22 0, interval := fld w 47 32, count := fld w 63 48 } })) s

/-- Saves the current context into its area with a new state (R54, R55, R90, R171). -/
def saveCur (n : Nat) (st : CtxState) (s : State) : State :=
  let k := (s.core n).cur
  let s := suspendLists n k (writeGroups n k s)
  let s := saveArea n k (s.onCtx n k (fun x => { loseTiles x with state := st }))
  s.onCore n (fun c => { clearArrays c with active := false, held := none, wait := none, rest := none, boundary := none, flight := [], stores := [] })

/-- A context that is gone (R52 EMPTY): its counters stay readable until another runs, its invocation
count goes on. -/
def emptied (x : Ctx) : Ctx :=
  { Ctx.init with inv := x.inv, counts := x.counts, mode := x.mode, srs0 := x.srs0, srs1 := x.srs1 }

/-- The seed of column generator i of array a (R73). -/
def colSeed (n a i : Nat) : W64 := BitVec.ofNat 64 (n * 2 ^ 16 + 0x0100 + 16 * a + i)

/-- The column generators as a launched context first runs (R73). -/
def seedArrays (n : Nat) (c : Core) : Core :=
  let f := fun (a : Nat) (A : Arr) =>
    { A with gens := (List.range 16).map (fun i => (i, colSeed n a i)), gpos := [] }
  { c with m0 := f 0 c.m0, m1 := f 1 c.m1 }

/-- A context that may not be restored becomes FAULTED and does not run; its header records it (R54, R58, R145). -/
def restoreFault (n k : Nat) (e : Exc) (s : State) : State :=
  let r : ExcRec := { exc := e, slot := 0, pc := (s.ctxAt n k).pc }
  let s := s.onCtx n k (fun x => { x with state := .faulted, exc := some r })
  let s := writeFull n (saveBase k / 64) [(imgHeader (s.ctxAt n k), false)] s
  s.onCore n (fun c =>
    { c with
      active := false, power := .idle, rest := none, wait := none
      stat := match c.stat with | none => some (r, k) | some v => some v })

/-- Restores context `k` from its area (R54, R83, R90, R145, R171); it goes on in state `st`. -/
def restoreArea (n k : Nat) (st : CtxState) (s : State) : State :=
  match loadArea n k s with
  | (false, s) => restoreFault n k .ue s
  | (true, s) =>
    let x := s.ctxAt n k
    if !regionOk (s.core n) x.region || !loopsOk x.loops then restoreFault n k .illegal s
    else
      let s := s.onCore n (fun c => { clearArrays c with active := true })
      reloadLists n k (reopenGroups n k (s.onCtx n k (fun x => { x with state := st })))

/-- Runs context `k` on core `n`, first from READY or restored from its area (R54, R55, R73, R90). -/
def startCtx (n k : Nat) (s : State) : State :=
  let first := decide ((s.ctxAt n k).state = .ready)
  let s := s.onCore n (fun c => { c with cur := k, power := .run, mark := none, boundary := none })
  if first then
    let s := s.onCore n (fun c => { seedArrays n (clearArrays c) with active := true })
    s.onCtx n k (fun x => { x with state := .running, everRun := true })
  else restoreArea n k .running s

/-- A context that a switch may name (R55). -/
def startable (x : Ctx) : Bool :=
  match x.state with
  | .ready | .parked => true
  | _ => false

/-- No context runs any more: a pending switch to a READY or PARKED context is made, another mark is
dropped, and without a switch the core is idle (R55). -/
def afterStop (n : Nat) (s : State) : State :=
  let c := s.core n
  match c.mark with
  | some k =>
    if startable (s.ctxAt n k) then startCtx n k s
    else s.onCore n (fun c => { c with mark := none, active := false, power := .idle })
  | none => s.onCore n (fun c => { c with active := false, power := .idle })

/-- Bytes of an MX unit of a widening transform (R168). -/
def unitBytes (xf : Nat) : Nat := if xf = 1 then 272 else 528

/-- The length of the landed prefix of a transform's raw bytes, over chunks by rising offset. -/
def prefixLen : Tab (List Byte) → Nat → Nat
  | [], p => p
  | (o, b) :: t, p => if o = p then prefixLen t (p + b.length) else p

/-- Output bytes that raw bytes [0, p) of a transform make ready (R168, R169); of a reduction send whole beats (R187). -/
def Xfer.readyFrom (x : Xfer) (p : Nat) : Nat :=
  if x.red.isSome then p / 128 * 128
  else if x.d.xf ≤ 3 then p / unitBytes x.d.xf * 1024
  else p / (16 * x.d.rowBytes) * (16 * x.d.rowBytes)

/-- Output bytes ready of a transform. -/
def Xfer.ready (x : Xfer) : Nat := x.readyFrom (prefixLen x.raw 0)

/-- Output of a transform or a reduction send that has not yet left for its router or its target (R171). Output for a slot
waits for space with the list. -/
def Xfer.owes (x : Xfer) : Bool := (x.red.isSome || !x.d.dstSlot) && decide (x.outDone < x.ready)

/-- The outstanding work of a boundary is complete (R55, R171): drains, posted stores, list requests and what they have
still to send. -/
def quiet (c : Core) : Bool :=
  let x := c.ctx
  c.m0.queue.isEmpty && c.m1.queue.isEmpty && decide (x.posted = 0)
    && !(c.outst.any (fun e => e.2.ctx == c.cur && e.2.inv == x.inv)) && !(x.lists.any (fun l => l.2.xfs.any (fun e => e.2.owes)))

/-- Records an exception in the context and, if it is the first, in CORE_STAT (R58, R59). -/
def recordExc (n : Nat) (r : ExcRec) (s : State) : State :=
  let k := (s.core n).cur
  let s := s.onCtx n k (fun x => { x with exc := some r })
  s.onCore n (fun c => { c with stat := match c.stat with | none => some (r, k) | some v => some v })

/-- A hub's split changes: at once in a window without a grant, else with the next window (R166). -/
def setSplit (p : Nat) (v : Split) (s : State) : State :=
  s.onPanel p (fun P =>
    { P with hub := if P.hub.grants = 0 then { P.hub with split := v, next := none } else { P.hub with next := some v } })

/-- No core of a panel holds a context. -/
def panelEmpty (s : State) (p : Nat) : Bool :=
  s.cores.all (fun e => panelOf e.1 != p || !(e.2.ctxs.any (fun x => x.2.resident)))

/-- When the last context of a panel stops, its hub's split returns to the basic one (R16). -/
def relaxSplit (p : Nat) (s : State) : State :=
  let H := (s.panel p).hub
  if decide (H.next.getD H.split ≠ Split.basic) && panelEmpty s p then setSplit p Split.basic s else s

/-- Completes a boundary whose outstanding work is done (R55, R83, R90, R171). -/
def finishBoundary (n : Nat) (s : State) : State :=
  let c := s.core n
  let k := c.cur
  match c.boundary with
  | none => s
  | some b =>
    if !(c.still && quiet c) then s
    else
      match b, c.ctx.postExc with
      | .exc, _ => afterStop n (saveCur n .faulted s)
      | _, some e =>
        let s := recordExc n { exc := e, slot := 0, pc := c.bpc } s
        afterStop n (saveCur n .faulted (s.onCtx n k (fun x => { x with postExc := none })))
      | .yieldB, none =>
        match c.mark with
        | some j =>
          if startable (s.ctxAt n j) && j != k then startCtx n j (saveCur n .parked s)
          else (writeGroups n k s).onCore n (fun c => { c with mark := none, boundary := none })
        | none => (writeGroups n k s).onCore n (fun c => { c with boundary := none })
      | .endB, none =>
        let s := endLists n k (writeGroups n k s)
        let s := s.onCtx n k (fun x => emptied (loseTiles x))
        let s := releaseArea n k s
        let s := s.onCore n (fun c => { clearArrays c with boundary := none, held := none, flight := [], stores := [] })
        relaxSplit (panelOf n) (afterStop n s)

/-- The running context stops with an exception (R55, R58): every bundle issued before completes first. A debug step of
it ends (log entry 126). -/
def contextFault (n : Nat) (r : ExcRec) (s : State) : State :=
  finishBoundary n
    ((recordExc n r s).onCore n (fun c => { c with boundary := some .exc, held := none, wait := none, rest := none, stepReq := false }))

/-- Enters a boundary at YIELD or END (R55). -/
def enterBoundary (n : Nat) (b : Boundary) (pc : Nat) (s : State) : State :=
  s.onCore n (fun c => { c with boundary := some b, bpc := pc })

/-- The running context of core `n` is under a CONTEXT reset that drains (R341), or a suspect being stopped so (R353): it
issues nothing more. -/
def ctxQuiesced (s : State) (n : Nat) : Bool :=
  s.rst.running.any (fun r =>
    decide (r.level = 0) && decide (r.phase = .drain) && decide (r.target % 65536 = n) && decide (r.target / 65536 % 4 = (s.core n).cur))
    || s.hang.stopping.any (fun e => e.n == n && e.k == (s.core n).cur)

/-- The debug halt that is asked of core `n` has not been reached and lets no bundle issue (R375), or its context is under
a CONTEXT reset (R341). -/
def haltAsked (s : State) (n : Nat) : Bool :=
  ctxQuiesced s n || (s.core n).haltReq && (s.core n).halted.isNone

/-- A halt that is asked goes on (R375): the core stops issue, its results retire, its drains and requests
complete, its lists are suspended, and the panel's watchdog stands. -/
def haltTry (n : Nat) (s : State) : State :=
  let c := s.core n
  if !c.haltReq || !c.active || c.boundary.isSome || decide (c.power = .doze)
      || decide ((s.panel (panelOf n)).power ≠ .active) || (s.panel (panelOf n)).lost || (s.panel (panelOf n)).shorted || (s.panel (panelOf n)).inReset then s
  else
    let go := fun (s : State) =>
      if quiet (s.core n) then (suspendLists n (s.core n).cur s).onCore n (fun c => { c with haltReq := false }) else s
    match c.halted with
    | some _ => go s
    | none =>
      if !c.still then s
      else
        let s := s.onCore n (fun c => { c with halted := some c.cur, held := none })
        go (s.onSeq (panelOf n) (Seq.pauseWd s.now))

/-- A core whose context issues no more while its earlier bundles complete (R51, R55, R58, R375): at a boundary,
before the entry into a rest, or before a debug halt. -/
def draining (s : State) (n : Nat) : Bool :=
  let c := s.core n
  c.active && decide (c.power = .run) && c.halted.isNone && !c.inReset && !c.still
    && (c.boundary.isSome || (match c.rest with | some r => !r.entered | none => false) || haltAsked s n)

/-- A panel cycle of such a core: one issue cycle passes. An exception that it brings stops the context, unless it
has already stopped by one (R58). -/
def drainCycle (n : Nat) (s : State) : State :=
  if draining s n then
    match passCycle n s with
    | (s, none) => s
    | (s, some r) => if (s.core n).boundary = some .exc then s else contextFault n r s
  else s

/-- Stops context `k` of core `n` at once (R62 CSTOP, R90, R171): it becomes EMPTY; a refused request of it is not
sent again; stores that have issued are carried out (log entry 99). -/
def stopCtx (n k : Nat) (s : State) : State :=
  let c := s.core n
  if !(Tab.get Ctx.init c.ctxs k).resident then s
  else
    let running := c.active && c.cur == k
    let s := if running then unhalt n s else s
    let s := if running then commitStores n (c.icyc + 2 ^ 20) s else s
    let s := if running then s.onCtx n k loseTiles else s
    let s := s.onCtx n k (fun x => emptied x)
    let s := releaseArea n k s
    let s := s.onCore n (fun c =>
      { c with
        stat := match c.stat with | some (r, j) => if j = k then none else some (r, j) | none => none
        outst := c.outst.filter (fun e => !(e.2.ctx == k && (match e.2.phase with | .retry _ => true | _ => false))) })
    if running then
      let s := s.onCore n (fun c =>
        { clearArrays c with
          held := none, wait := none, rest := none, boundary := none, flight := [], stores := [], stepReq := false })
      relaxSplit (panelOf n) (afterStop n s)
    else relaxSplit (panelOf n) s

/-- The context that a launch makes (R36, R52, R106). -/
def launched (n : Nat) (sel : Sel) (entry : Nat) (args : List W64) (old : Ctx) : Ctx :=
  { Ctx.init with
    state := .ready, pc := entry % 2 ^ 20, mode := sel.mode, region := sel.region
    regs := args.zipIdx.foldl (fun r e => r.setS (e.2 + 1) e.1) Regs.init
    gens := (List.range 64).map (fun j => (j, BitVec.ofNat 64 (n * 2 ^ 16 + 0x40 + j)))
    inv := old.inv + 1 }

/-- Launches context `k` on core `n` (R52, R55, R140): none where the core refuses. -/
def launchOn (n k entry : Nat) (args : List W64) (sel : Sel) (s : State) : Option State :=
  let c := s.core n
  if isDead s n || (Tab.get Ctx.init c.ctxs k).resident || !regionOk c sel.region then none
  else
    let s := s.onCtx n k (launched n sel entry args)
    let s := s.onCore n (fun c => { c with gate := .closed, sels := Tab.set c.sels k sel, launches := Tab.set c.launches k (entry, args) })
    if !c.active && c.boundary.isNone && c.halted.isNone then some (startCtx n k s) else some s

/-- Marks a switch to context `k` pending on core `n`; on an idle core it is made at once or dropped (R55,
R62). -/
def markSwitch (n k : Nat) (s : State) : State :=
  let c := s.core n
  if !c.active && c.boundary.isNone then
    if startable (s.ctxAt n k) then startCtx n k s else s
  else s.onCore n (fun c => { c with mark := some k })

end Sys2Proof.Machine
end

