-- ==== Sys2Proof/Machine/Slots.lean ====
section
/-! DEFINITION. The instructions of the four slots of a bundle and of a sequencer word as data, and
their 32-bit encodings (R33, R38, R39, R62, R74, R101, R116, R153): reading a raw slot word (`ofWord`,
none for an undefined opcode) and writing one (`word`). -/

namespace Sys2Proof.Machine


/-- Format CR read from a slot word. -/
def CR.ofWord (w : W32) : CR :=
  { d := w.extractLsb' 19 5
    a := w.extractLsb' 14 5
    b := w.extractLsb' 9 5
    f := w.extractLsb' 0 9 }
/-- Format CR with its opcode. -/
def CR.word (o : BitVec 8) (i : CR) : W32 := o ++ i.d ++ i.a ++ i.b ++ i.f

/-- Format CI read from a slot word. -/
def CI.ofWord (w : W32) : CI :=
  { d := w.extractLsb' 19 5
    a := w.extractLsb' 14 5
    imm := w.extractLsb' 0 14 }
/-- Format CI with its opcode. -/
def CI.word (o : BitVec 8) (i : CI) : W32 := o ++ i.d ++ i.a ++ i.imm

/-- Format CU read from a slot word. -/
def CU.ofWord (w : W32) : CU :=
  { d := w.extractLsb' 19 5
    imm := w.extractLsb' 0 19 }
/-- Format CU with its opcode. -/
def CU.word (o : BitVec 8) (i : CU) : W32 := o ++ i.d ++ i.imm

/-- Format CB read from a slot word. -/
def CB.ofWord (w : W32) : CB :=
  { sense := w.extractLsb' 23 1
    p := w.extractLsb' 20 3
    off := w.extractLsb' 0 20 }
/-- Format CB with its opcode. -/
def CB.word (o : BitVec 8) (i : CB) : W32 := o ++ i.sense ++ i.p ++ i.off

/-- Format CM read from a slot word. -/
def CM.ofWord (w : W32) : CM :=
  { t := w.extractLsb' 19 5
    base := w.extractLsb' 15 4
    size := w.extractLsb' 13 2
    off := w.extractLsb' 0 13 }
/-- Format CM with its opcode. -/
def CM.word (o : BitVec 8) (i : CM) : W32 := o ++ i.t ++ i.base ++ i.size ++ i.off

/-- Format CQ read from a slot word. -/
def CQ.ofWord (w : W32) : CQ :=
  { q := w.extractLsb' 20 4
    a := w.extractLsb' 16 4
    s := w.extractLsb' 11 5
    size := w.extractLsb' 9 2
    z := w.extractLsb' 0 9 }
/-- Format CQ with its opcode. -/
def CQ.word (o : BitVec 8) (i : CQ) : W32 := o ++ i.q ++ i.a ++ i.s ++ i.size ++ i.z

/-- Format CLoop read from a slot word. -/
def CLoop.ofWord (w : W32) : CLoop :=
  { s := w.extractLsb' 19 5
    z := w.extractLsb' 12 7
    body := w.extractLsb' 0 12 }
/-- Format CLoop with its opcode. -/
def CLoop.word (o : BitVec 8) (i : CLoop) : W32 := o ++ i.s ++ i.z ++ i.body

/-- Format CLoopI read from a slot word. -/
def CLoopI.ofWord (w : W32) : CLoopI :=
  { count := w.extractLsb' 12 12
    body := w.extractLsb' 0 12 }
/-- Format CLoopI with its opcode. -/
def CLoopI.word (o : BitVec 8) (i : CLoopI) : W32 := o ++ i.count ++ i.body

/-- Format CE read from a slot word. -/
def CE.ofWord (w : W32) : CE :=
  { s := w.extractLsb' 19 5
    kind := w.extractLsb' 16 3
    arg := w.extractLsb' 8 8
    pd := w.extractLsb' 5 3
    saveOk := w.extractLsb' 4 1
    z := w.extractLsb' 0 4 }
/-- Format CE with its opcode. -/
def CE.word (o : BitVec 8) (i : CE) : W32 := o ++ i.s ++ i.kind ++ i.arg ++ i.pd ++ i.saveOk ++ i.z

/-- Format McfgF read from a slot word. -/
def McfgF.ofWord (w : W32) : McfgF :=
  { arr := w.extractLsb' 23 1
    srs := w.extractLsb' 22 1
    z := w.extractLsb' 0 22 }
/-- Format McfgF with its opcode. -/
def McfgF.word (o : BitVec 8) (i : McfgF) : W32 := o ++ i.arr ++ i.srs ++ i.z

/-- Format MseedF read from a slot word. -/
def MseedF.ofWord (w : W32) : MseedF :=
  { arr := w.extractLsb' 23 1
    s := w.extractLsb' 18 5
    z := w.extractLsb' 0 18 }
/-- Format MseedF with its opcode. -/
def MseedF.word (o : BitVec 8) (i : MseedF) : W32 := o ++ i.arr ++ i.s ++ i.z

/-- Format MldwF read from a slot word. -/
def MldwF.ofWord (w : W32) : MldwF :=
  { arr := w.extractLsb' 23 1
    wf := w.extractLsb' 20 3
    af := w.extractLsb' 17 3
    aw := w.extractLsb' 13 4
    asc := w.extractLsb' 9 4
    z := w.extractLsb' 0 9 }
/-- Format MldwF with its opcode. -/
def MldwF.word (o : BitVec 8) (i : MldwF) : W32 := o ++ i.arr ++ i.wf ++ i.af ++ i.aw ++ i.asc ++ i.z

/-- Format MmulF read from a slot word. -/
def MmulF.ofWord (w : W32) : MmulF :=
  { arr := w.extractLsb' 23 1
    t := w.extractLsb' 18 5
    rows := w.extractLsb' 9 9
    sw := w.extractLsb' 8 1
    ax := w.extractLsb' 4 4
    asc := w.extractLsb' 0 4 }
/-- Format MmulF with its opcode. -/
def MmulF.word (o : BitVec 8) (i : MmulF) : W32 := o ++ i.arr ++ i.t ++ i.rows ++ i.sw ++ i.ax ++ i.asc

/-- Format MpreF read from a slot word. -/
def MpreF.ofWord (w : W32) : MpreF :=
  { arr := w.extractLsb' 23 1
    t := w.extractLsb' 18 5
    n := w.extractLsb' 13 5
    kind := w.extractLsb' 12 1
    pf := w.extractLsb' 11 1
    src := w.extractLsb' 7 4
    z := w.extractLsb' 0 7 }
/-- Format MpreF with its opcode. -/
def MpreF.word (o : BitVec 8) (i : MpreF) : W32 := o ++ i.arr ++ i.t ++ i.n ++ i.kind ++ i.pf ++ i.src ++ i.z

/-- Format MtilesF read from a slot word. -/
def MtilesF.ofWord (w : W32) : MtilesF :=
  { arr := w.extractLsb' 23 1
    t := w.extractLsb' 18 5
    n := w.extractLsb' 13 5
    z := w.extractLsb' 0 13 }
/-- Format MtilesF with its opcode. -/
def MtilesF.word (o : BitVec 8) (i : MtilesF) : W32 := o ++ i.arr ++ i.t ++ i.n ++ i.z

/-- Format MdrainF read from a slot word. -/
def MdrainF.ofWord (w : W32) : MdrainF :=
  { arr := w.extractLsb' 23 1
    t := w.extractLsb' 18 5
    fmt := w.extractLsb' 15 3
    rnd := w.extractLsb' 14 1
    w := w.extractLsb' 13 1
    cl := w.extractLsb' 12 1
    gc := w.extractLsb' 11 1
    ad := w.extractLsb' 7 4
    z := w.extractLsb' 0 7 }
/-- Format MdrainF with its opcode. -/
def MdrainF.word (o : BitVec 8) (i : MdrainF) : W32 := o ++ i.arr ++ i.t ++ i.fmt ++ i.rnd ++ i.w ++ i.cl ++ i.gc ++ i.ad ++ i.z

/-- Format MgrpF read from a slot word. -/
def MgrpF.ofWord (w : W32) : MgrpF :=
  { arr := w.extractLsb' 23 1
    g := w.extractLsb' 20 3
    t := w.extractLsb' 14 5
    n := w.extractLsb' 9 5
    tab := w.extractLsb' 5 4
    z := w.extractLsb' 0 5 }
/-- Format MgrpF with its opcode. -/
def MgrpF.word (o : BitVec 8) (op : BitVec 1) (i : MgrpF) : W32 := o ++ i.arr ++ i.g ++ op ++ i.t ++ i.n ++ i.tab ++ i.z

/-- Format MldsF read from a slot word. -/
def MldsF.ofWord (w : W32) : MldsF :=
  { arr := w.extractLsb' 23 1
    wf := w.extractLsb' 20 3
    af := w.extractLsb' 17 3
    aw := w.extractLsb' 13 4
    am := w.extractLsb' 9 4
    asc := w.extractLsb' 5 4
    nm := w.extractLsb' 4 1
    z := w.extractLsb' 0 4 }
/-- Format MldsF with its opcode. -/
def MldsF.word (o : BitVec 8) (i : MldsF) : W32 := o ++ i.arr ++ i.wf ++ i.af ++ i.aw ++ i.am ++ i.asc ++ i.nm ++ i.z

/-- Format SmulF read from a slot word. -/
def SmulF.ofWord (w : W32) : SmulF :=
  { arr := w.extractLsb' 23 1
    t := w.extractLsb' 18 5
    ax := w.extractLsb' 14 4
    ai := w.extractLsb' 10 4
    sw := w.extractLsb' 9 1
    cnt := w.extractLsb' 1 8
    z := w.extractLsb' 0 1 }
/-- Format SmulF with its opcode. -/
def SmulF.word (o : BitVec 8) (i : SmulF) : W32 := o ++ i.arr ++ i.t ++ i.ax ++ i.ai ++ i.sw ++ i.cnt ++ i.z

/-- Format MdrsF read from a slot word. -/
def MdrsF.ofWord (w : W32) : MdrsF :=
  { arr := w.extractLsb' 23 1
    t := w.extractLsb' 18 5
    fmt := w.extractLsb' 15 3
    rnd := w.extractLsb' 14 1
    w := w.extractLsb' 13 1
    cl := w.extractLsb' 12 1
    gc := w.extractLsb' 11 1
    nm := w.extractLsb' 10 1
    ad := w.extractLsb' 6 4
    am := w.extractLsb' 2 4
    z := w.extractLsb' 0 2 }
/-- Format MdrsF with its opcode. -/
def MdrsF.word (o : BitVec 8) (i : MdrsF) : W32 := o ++ i.arr ++ i.t ++ i.fmt ++ i.rnd ++ i.w ++ i.cl ++ i.gc ++ i.nm ++ i.ad ++ i.am ++ i.z

/-- Format SmrgF read from a slot word. -/
def SmrgF.ofWord (w : W32) : SmrgF :=
  { arr := w.extractLsb' 23 1
    t := w.extractLsb' 18 5
    cl := w.extractLsb' 17 1
    ad := w.extractLsb' 13 4
    ar := w.extractLsb' 9 4
    str := w.extractLsb' 0 9 }
/-- Format SmrgF with its opcode. -/
def SmrgF.word (o : BitVec 8) (i : SmrgF) : W32 := o ++ i.arr ++ i.t ++ i.cl ++ i.ad ++ i.ar ++ i.str

/-- Format ScmpF read from a slot word. -/
def ScmpF.ofWord (w : W32) : ScmpF :=
  { arr := w.extractLsb' 23 1
    wf := w.extractLsb' 20 3
    nm := w.extractLsb' 19 1
    src := w.extractLsb' 15 4
    msk := w.extractLsb' 11 4
    ad := w.extractLsb' 7 4
    adm := w.extractLsb' 3 4
    z := w.extractLsb' 0 3 }
/-- Format ScmpF with its opcode. -/
def ScmpF.word (o : BitVec 8) (i : ScmpF) : W32 := o ++ i.arr ++ i.wf ++ i.nm ++ i.src ++ i.msk ++ i.ad ++ i.adm ++ i.z

/-- Format StrwF read from a slot word. -/
def StrwF.ofWord (w : W32) : StrwF :=
  { arr := w.extractLsb' 23 1
    nm := w.extractLsb' 22 1
    asrc := w.extractLsb' 18 4
    asm := w.extractLsb' 14 4
    ad := w.extractLsb' 10 4
    adm := w.extractLsb' 6 4
    z := w.extractLsb' 0 6 }
/-- Format StrwF with its opcode. -/
def StrwF.word (o : BitVec 8) (i : StrwF) : W32 := o ++ i.arr ++ i.nm ++ i.asrc ++ i.asm ++ i.ad ++ i.adm ++ i.z

/-- Format VmemF read from a slot word. -/
def VmemF.ofWord (w : W32) : VmemF :=
  { r := w.extractLsb' 19 5
    a := w.extractLsb' 15 4
    es := w.extractLsb' 13 2
    k := w.extractLsb' 10 3
    off := w.extractLsb' 0 10 }
/-- Format VmemF with its opcode. -/
def VmemF.word (o : BitVec 8) (i : VmemF) : W32 := o ++ i.r ++ i.a ++ i.es ++ i.k ++ i.off

/-- Format VbcF read from a slot word. -/
def VbcF.ofWord (w : W32) : VbcF :=
  { vd := w.extractLsb' 19 5
    s := w.extractLsb' 14 5
    sel := w.extractLsb' 13 1
    z := w.extractLsb' 0 13 }
/-- Format VbcF with its opcode. -/
def VbcF.word (o : BitVec 8) (i : VbcF) : W32 := o ++ i.vd ++ i.s ++ i.sel ++ i.z

/-- Format VextF read from a slot word. -/
def VextF.ofWord (w : W32) : VextF :=
  { d := w.extractLsb' 19 5
    va := w.extractLsb' 14 5
    lane := w.extractLsb' 8 6
    pd := w.extractLsb' 5 3
    z := w.extractLsb' 0 5 }
/-- Format VextF with its opcode. -/
def VextF.word (o : BitVec 8) (i : VextF) : W32 := o ++ i.d ++ i.va ++ i.lane ++ i.pd ++ i.z

/-- Format VldcF read from a slot word. -/
def VldcF.ofWord (w : W32) : VldcF :=
  { c := w.extractLsb' 21 3
    a := w.extractLsb' 17 4
    off := w.extractLsb' 0 17 }
/-- Format VldcF with its opcode. -/
def VldcF.word (o : BitVec 8) (i : VldcF) : W32 := o ++ i.c ++ i.a ++ i.off

/-- Format VseedF read from a slot word. -/
def VseedF.ofWord (w : W32) : VseedF :=
  { s := w.extractLsb' 19 5
    z := w.extractLsb' 0 19 }
/-- Format VseedF with its opcode. -/
def VseedF.word (o : BitVec 8) (i : VseedF) : W32 := o ++ i.s ++ i.z

/-- Format VqrdF read from a slot word. -/
def VqrdF.ofWord (w : W32) : VqrdF :=
  { vd := w.extractLsb' 19 5
    q := w.extractLsb' 15 4
    z := w.extractLsb' 0 15 }
/-- Format VqrdF with its opcode. -/
def VqrdF.word (o : BitVec 8) (i : VqrdF) : W32 := o ++ i.vd ++ i.q ++ i.z

/-- Format VqwrF read from a slot word. -/
def VqwrF.ofWord (w : W32) : VqwrF :=
  { vs := w.extractLsb' 19 5
    q := w.extractLsb' 15 4
    k := w.extractLsb' 12 3
    z := w.extractLsb' 0 12 }
/-- Format VqwrF with its opcode. -/
def VqwrF.word (o : BitVec 8) (i : VqwrF) : W32 := o ++ i.vs ++ i.q ++ i.k ++ i.z

/-- Format VchF read from a slot word. -/
def VchF.ofWord (w : W32) : VchF :=
  { k := w.extractLsb' 24 3
    id := w.extractLsb' 17 7
    vd := w.extractLsb' 12 5
    va := w.extractLsb' 7 5
    vb := w.extractLsb' 2 5
    gc := w.extractLsb' 1 1
    cp := w.extractLsb' 0 1 }
/-- Format SqcfgF read from a slot word. -/
def SqcfgF.ofWord (w : W32) : SqcfgF :=
  { q := w.extractLsb' 20 4
    a := w.extractLsb' 16 4
    off := w.extractLsb' 0 16 }
/-- Format SqcfgF with its opcode. -/
def SqcfgF.word (o : BitVec 8) (i : SqcfgF) : W32 := o ++ i.q ++ i.a ++ i.off

/-- Format SqcntF read from a slot word. -/
def SqcntF.ofWord (w : W32) : SqcntF :=
  { d := w.extractLsb' 19 5
    q := w.extractLsb' 15 4
    z := w.extractLsb' 0 15 }
/-- Format SqcntF with its opcode. -/
def SqcntF.word (o : BitVec 8) (i : SqcntF) : W32 := o ++ i.d ++ i.q ++ i.z

/-- Format SaddrF read from a slot word. -/
def SaddrF.ofWord (w : W32) : SaddrF :=
  { ad := w.extractLsb' 20 4
    q := w.extractLsb' 16 4
    z := w.extractLsb' 0 16 }
/-- Format SaddrF with its opcode. -/
def SaddrF.word (o : BitVec 8) (i : SaddrF) : W32 := o ++ i.ad ++ i.q ++ i.z

/-- Format SqF read from a slot word. -/
def SqF.ofWord (w : W32) : SqF :=
  { q := w.extractLsb' 20 4
    z := w.extractLsb' 0 20 }
/-- Format SqF with its opcode. -/
def SqF.word (o : BitVec 8) (i : SqF) : W32 := o ++ i.q ++ i.z

/-- Format SlistF read from a slot word. -/
def SlistF.ofWord (w : W32) : SlistF :=
  { l := w.extractLsb' 22 2
    a := w.extractLsb' 18 4
    z := w.extractLsb' 0 18 }
/-- Format SlistF with its opcode. -/
def SlistF.word (o : BitVec 8) (i : SlistF) : W32 := o ++ i.l ++ i.a ++ i.z

/-- Format SlstopF read from a slot word. -/
def SlstopF.ofWord (w : W32) : SlstopF :=
  { l := w.extractLsb' 22 2
    z := w.extractLsb' 0 22 }
/-- Format SlstopF with its opcode. -/
def SlstopF.word (o : BitVec 8) (i : SlstopF) : W32 := o ++ i.l ++ i.z

/-- Format SlstatF read from a slot word. -/
def SlstatF.ofWord (w : W32) : SlstatF :=
  { d := w.extractLsb' 19 5
    l := w.extractLsb' 17 2
    z := w.extractLsb' 0 17 }
/-- Format SlstatF with its opcode. -/
def SlstatF.word (o : BitVec 8) (i : SlstatF) : W32 := o ++ i.d ++ i.l ++ i.z

/-- A control-slot or sequencer instruction (R39, R62). -/
inductive CIns where
  | nop (z : BitVec 24)
  | add (i : CR)
  | sub (i : CR)
  | andS (i : CR)
  | orS (i : CR)
  | xorS (i : CR)
  | shl (i : CR)
  | shr (i : CR)
  | sra (i : CR)
  | minS (i : CR)
  | maxS (i : CR)
  | mul (i : CR)
  | mulh (i : CR)
  | cmp (i : CR)
  | sel (i : CR)
  | addi (i : CI)
  | andi (i : CI)
  | lui (i : CU)
  | ori (i : CI)
  | amov (i : CR)
  | aget (i : CR)
  | aadd (i : CR)
  | aaddi (i : CI)
  | aform (i : CR)
  | kmov (i : CR)
  | kget (i : CR)
  | ktail (i : CR)
  | kop (i : CR)
  | pop (i : CR)
  | ld (i : CM)
  | st (i : CM)
  | ldf (i : CQ)
  | stf (i : CQ)
  | srd (i : CQ)
  | swr (i : CQ)
  | br (i : CB)
  | jmp (i : CB)
  | jr (i : CR)
  | loop (i : CLoop)
  | loopi (i : CLoopI)
  | wait (i : CE)
  | rest (i : CE)
  | yield (i : CR)
  | endC (i : CR)
  | sig (i : CR)
  | arrive (i : CR)
  | mfc (i : CR)
  | mtc (i : CR)
  | launch (i : CR)
  | cswitch (i : CR)
  | cstop (i : CR)
  | xwake (i : CR)
  | fset (i : CR)
  | fclr (i : CR)
  | fwait (i : CR)
  | barrier (i : CR)
  | prest (i : CE)
  | stepBegin (i : CR)
  | stepEnd (i : CR)
  | wdog (i : CR)
  | cwait (i : CR)
deriving DecidableEq, Repr

/-- The encoding. -/
def CIns.word : CIns → W32
  | .nop z => (0x00#8 ++ z : BitVec (8 + 24))
  | .add i => CR.word 0x01#8 i
  | .sub i => CR.word 0x02#8 i
  | .andS i => CR.word 0x03#8 i
  | .orS i => CR.word 0x04#8 i
  | .xorS i => CR.word 0x05#8 i
  | .shl i => CR.word 0x06#8 i
  | .shr i => CR.word 0x07#8 i
  | .sra i => CR.word 0x08#8 i
  | .minS i => CR.word 0x09#8 i
  | .maxS i => CR.word 0x0A#8 i
  | .mul i => CR.word 0x0B#8 i
  | .mulh i => CR.word 0x0C#8 i
  | .cmp i => CR.word 0x0D#8 i
  | .sel i => CR.word 0x0E#8 i
  | .addi i => CI.word 0x10#8 i
  | .andi i => CI.word 0x11#8 i
  | .lui i => CU.word 0x12#8 i
  | .ori i => CI.word 0x13#8 i
  | .amov i => CR.word 0x18#8 i
  | .aget i => CR.word 0x19#8 i
  | .aadd i => CR.word 0x1A#8 i
  | .aaddi i => CI.word 0x1B#8 i
  | .aform i => CR.word 0x1C#8 i
  | .kmov i => CR.word 0x20#8 i
  | .kget i => CR.word 0x21#8 i
  | .ktail i => CR.word 0x22#8 i
  | .kop i => CR.word 0x23#8 i
  | .pop i => CR.word 0x24#8 i
  | .ld i => CM.word 0x28#8 i
  | .st i => CM.word 0x29#8 i
  | .ldf i => CQ.word 0x2C#8 i
  | .stf i => CQ.word 0x2D#8 i
  | .srd i => CQ.word 0x2E#8 i
  | .swr i => CQ.word 0x2F#8 i
  | .br i => CB.word 0x30#8 i
  | .jmp i => CB.word 0x31#8 i
  | .jr i => CR.word 0x32#8 i
  | .loop i => CLoop.word 0x34#8 i
  | .loopi i => CLoopI.word 0x35#8 i
  | .wait i => CE.word 0x38#8 i
  | .rest i => CE.word 0x39#8 i
  | .yield i => CR.word 0x3A#8 i
  | .endC i => CR.word 0x3B#8 i
  | .sig i => CR.word 0x3C#8 i
  | .arrive i => CR.word 0x3D#8 i
  | .mfc i => CR.word 0x40#8 i
  | .mtc i => CR.word 0x41#8 i
  | .launch i => CR.word 0x80#8 i
  | .cswitch i => CR.word 0x81#8 i
  | .cstop i => CR.word 0x82#8 i
  | .xwake i => CR.word 0x83#8 i
  | .fset i => CR.word 0x84#8 i
  | .fclr i => CR.word 0x85#8 i
  | .fwait i => CR.word 0x86#8 i
  | .barrier i => CR.word 0x87#8 i
  | .prest i => CE.word 0x88#8 i
  | .stepBegin i => CR.word 0x89#8 i
  | .stepEnd i => CR.word 0x8A#8 i
  | .wdog i => CR.word 0x8B#8 i
  | .cwait i => CR.word 0x8C#8 i

/-- The instruction that a word holds; none where the opcode is undefined in the slot. -/
def CIns.ofWord (w : W32) : Option CIns :=
  match (w.extractLsb' 24 8).toNat with
  | 0x00 => some (.nop (w.extractLsb' 0 24))
  | 0x01 => some (.add (CR.ofWord w))
  | 0x02 => some (.sub (CR.ofWord w))
  | 0x03 => some (.andS (CR.ofWord w))
  | 0x04 => some (.orS (CR.ofWord w))
  | 0x05 => some (.xorS (CR.ofWord w))
  | 0x06 => some (.shl (CR.ofWord w))
  | 0x07 => some (.shr (CR.ofWord w))
  | 0x08 => some (.sra (CR.ofWord w))
  | 0x09 => some (.minS (CR.ofWord w))
  | 0x0A => some (.maxS (CR.ofWord w))
  | 0x0B => some (.mul (CR.ofWord w))
  | 0x0C => some (.mulh (CR.ofWord w))
  | 0x0D => some (.cmp (CR.ofWord w))
  | 0x0E => some (.sel (CR.ofWord w))
  | 0x10 => some (.addi (CI.ofWord w))
  | 0x11 => some (.andi (CI.ofWord w))
  | 0x12 => some (.lui (CU.ofWord w))
  | 0x13 => some (.ori (CI.ofWord w))
  | 0x18 => some (.amov (CR.ofWord w))
  | 0x19 => some (.aget (CR.ofWord w))
  | 0x1A => some (.aadd (CR.ofWord w))
  | 0x1B => some (.aaddi (CI.ofWord w))
  | 0x1C => some (.aform (CR.ofWord w))
  | 0x20 => some (.kmov (CR.ofWord w))
  | 0x21 => some (.kget (CR.ofWord w))
  | 0x22 => some (.ktail (CR.ofWord w))
  | 0x23 => some (.kop (CR.ofWord w))
  | 0x24 => some (.pop (CR.ofWord w))
  | 0x28 => some (.ld (CM.ofWord w))
  | 0x29 => some (.st (CM.ofWord w))
  | 0x2C => some (.ldf (CQ.ofWord w))
  | 0x2D => some (.stf (CQ.ofWord w))
  | 0x2E => some (.srd (CQ.ofWord w))
  | 0x2F => some (.swr (CQ.ofWord w))
  | 0x30 => some (.br (CB.ofWord w))
  | 0x31 => some (.jmp (CB.ofWord w))
  | 0x32 => some (.jr (CR.ofWord w))
  | 0x34 => some (.loop (CLoop.ofWord w))
  | 0x35 => some (.loopi (CLoopI.ofWord w))
  | 0x38 => some (.wait (CE.ofWord w))
  | 0x39 => some (.rest (CE.ofWord w))
  | 0x3A => some (.yield (CR.ofWord w))
  | 0x3B => some (.endC (CR.ofWord w))
  | 0x3C => some (.sig (CR.ofWord w))
  | 0x3D => some (.arrive (CR.ofWord w))
  | 0x40 => some (.mfc (CR.ofWord w))
  | 0x41 => some (.mtc (CR.ofWord w))
  | 0x80 => some (.launch (CR.ofWord w))
  | 0x81 => some (.cswitch (CR.ofWord w))
  | 0x82 => some (.cstop (CR.ofWord w))
  | 0x83 => some (.xwake (CR.ofWord w))
  | 0x84 => some (.fset (CR.ofWord w))
  | 0x85 => some (.fclr (CR.ofWord w))
  | 0x86 => some (.fwait (CR.ofWord w))
  | 0x87 => some (.barrier (CR.ofWord w))
  | 0x88 => some (.prest (CE.ofWord w))
  | 0x89 => some (.stepBegin (CR.ofWord w))
  | 0x8A => some (.stepEnd (CR.ofWord w))
  | 0x8B => some (.wdog (CR.ofWord w))
  | 0x8C => some (.cwait (CR.ofWord w))
  | _ => none

/-- A matrix-slot instruction (R74, R116). -/
inductive MIns where
  | nop (z : BitVec 24)
  | mcfg (i : McfgF)
  | mseed (i : MseedF)
  | mldw (i : MldwF)
  | mmul (i : MmulF)
  | mpre (i : MpreF)
  | mclr (i : MtilesF)
  | mdrain (i : MdrainF)
  | mspill (i : MtilesF)
  | mgrpOpen (i : MgrpF)
  | mgrpClose (i : MgrpF)
  | mlds (i : MldsF)
  | smul (i : SmulF)
  | mdrs (i : MdrsF)
  | smrg (i : SmrgF)
  | scmp (i : ScmpF)
  | strw (i : StrwF)
deriving DecidableEq, Repr

/-- The encoding. -/
def MIns.word : MIns → W32
  | .nop z => (0x00#8 ++ z : BitVec (8 + 24))
  | .mcfg i => McfgF.word 0x01#8 i
  | .mseed i => MseedF.word 0x02#8 i
  | .mldw i => MldwF.word 0x08#8 i
  | .mmul i => MmulF.word 0x09#8 i
  | .mpre i => MpreF.word 0x0A#8 i
  | .mclr i => MtilesF.word 0x0B#8 i
  | .mdrain i => MdrainF.word 0x0C#8 i
  | .mspill i => MtilesF.word 0x0D#8 i
  | .mgrpOpen i => MgrpF.word 0x0E#8 1#1 i
  | .mgrpClose i => MgrpF.word 0x0E#8 0#1 i
  | .mlds i => MldsF.word 0x20#8 i
  | .smul i => SmulF.word 0x21#8 i
  | .mdrs i => MdrsF.word 0x22#8 i
  | .smrg i => SmrgF.word 0x23#8 i
  | .scmp i => ScmpF.word 0x24#8 i
  | .strw i => StrwF.word 0x25#8 i

/-- The instruction that a word holds; none where the opcode is undefined in the slot. -/
def MIns.ofWord (w : W32) : Option MIns :=
  match (w.extractLsb' 24 8).toNat with
  | 0x00 => some (.nop (w.extractLsb' 0 24))
  | 0x01 => some (.mcfg (McfgF.ofWord w))
  | 0x02 => some (.mseed (MseedF.ofWord w))
  | 0x08 => some (.mldw (MldwF.ofWord w))
  | 0x09 => some (.mmul (MmulF.ofWord w))
  | 0x0A => some (.mpre (MpreF.ofWord w))
  | 0x0B => some (.mclr (MtilesF.ofWord w))
  | 0x0C => some (.mdrain (MdrainF.ofWord w))
  | 0x0D => some (.mspill (MtilesF.ofWord w))
  | 0x0E => if w.getLsbD 19 then some (.mgrpOpen (MgrpF.ofWord w)) else some (.mgrpClose (MgrpF.ofWord w))
  | 0x20 => some (.mlds (MldsF.ofWord w))
  | 0x21 => some (.smul (SmulF.ofWord w))
  | 0x22 => some (.mdrs (MdrsF.ofWord w))
  | 0x23 => some (.smrg (SmrgF.ofWord w))
  | 0x24 => some (.scmp (ScmpF.ofWord w))
  | 0x25 => some (.strw (StrwF.ofWord w))
  | _ => none

/-- A vector-slot instruction (R101). -/
inductive VIns where
  | nop (z : BitVec 24)
  | vld (i : VmemF)
  | vst (i : VmemF)
  | vbc (i : VbcF)
  | vext (i : VextF)
  | vldc (i : VldcF)
  | vseed (i : VseedF)
  | vqrd (i : VqrdF)
  | vqwr (i : VqwrF)
  | vch (i : VchF)
deriving DecidableEq, Repr

/-- The encoding. -/
def VIns.word : VIns → W32
  | .nop z => (0x00#8 ++ z : BitVec (8 + 24))
  | .vld i => VmemF.word 0x01#8 i
  | .vst i => VmemF.word 0x02#8 i
  | .vbc i => VbcF.word 0x03#8 i
  | .vext i => VextF.word 0x04#8 i
  | .vldc i => VldcF.word 0x05#8 i
  | .vseed i => VseedF.word 0x06#8 i
  | .vqrd i => VqrdF.word 0x07#8 i
  | .vqwr i => VqwrF.word 0x08#8 i
  | .vch i => (0b00010#5 ++ i.k ++ i.id ++ i.vd ++ i.va ++ i.vb ++ i.gc ++ i.cp : BitVec (5 + 3 + 7 + 5 + 5 + 5 + 1 + 1))

/-- The instruction that a word holds; none where the opcode is undefined in the slot. -/
def VIns.ofWord (w : W32) : Option VIns :=
  match (w.extractLsb' 24 8).toNat with
  | 0x00 => some (.nop (w.extractLsb' 0 24))
  | 0x01 => some (.vld (VmemF.ofWord w))
  | 0x02 => some (.vst (VmemF.ofWord w))
  | 0x03 => some (.vbc (VbcF.ofWord w))
  | 0x04 => some (.vext (VextF.ofWord w))
  | 0x05 => some (.vldc (VldcF.ofWord w))
  | 0x06 => some (.vseed (VseedF.ofWord w))
  | 0x07 => some (.vqrd (VqrdF.ofWord w))
  | 0x08 => some (.vqwr (VqwrF.ofWord w))
  | 0x10 => some (.vch (VchF.ofWord w))
  | 0x11 => some (.vch (VchF.ofWord w))
  | 0x12 => some (.vch (VchF.ofWord w))
  | 0x13 => some (.vch (VchF.ofWord w))
  | 0x14 => some (.vch (VchF.ofWord w))
  | 0x15 => some (.vch (VchF.ofWord w))
  | 0x16 => some (.vch (VchF.ofWord w))
  | 0x17 => some (.vch (VchF.ofWord w))
  | _ => none

/-- A stream-slot instruction (R153). -/
inductive SIns where
  | nop (z : BitVec 24)
  | sqcfg (i : SqcfgF)
  | sqcnt (i : SqcntF)
  | shead (i : SaddrF)
  | spop (i : SqF)
  | stail (i : SaddrF)
  | spush (i : SqF)
  | slist (i : SlistF)
  | slstop (i : SlstopF)
  | slstat (i : SlstatF)
deriving DecidableEq, Repr

/-- The encoding. -/
def SIns.word : SIns → W32
  | .nop z => (0x00#8 ++ z : BitVec (8 + 24))
  | .sqcfg i => SqcfgF.word 0x01#8 i
  | .sqcnt i => SqcntF.word 0x02#8 i
  | .shead i => SaddrF.word 0x08#8 i
  | .spop i => SqF.word 0x09#8 i
  | .stail i => SaddrF.word 0x0A#8 i
  | .spush i => SqF.word 0x0B#8 i
  | .slist i => SlistF.word 0x10#8 i
  | .slstop i => SlstopF.word 0x11#8 i
  | .slstat i => SlstatF.word 0x12#8 i

/-- The instruction that a word holds; none where the opcode is undefined in the slot. -/
def SIns.ofWord (w : W32) : Option SIns :=
  match (w.extractLsb' 24 8).toNat with
  | 0x00 => some (.nop (w.extractLsb' 0 24))
  | 0x01 => some (.sqcfg (SqcfgF.ofWord w))
  | 0x02 => some (.sqcnt (SqcntF.ofWord w))
  | 0x08 => some (.shead (SaddrF.ofWord w))
  | 0x09 => some (.spop (SqF.ofWord w))
  | 0x0A => some (.stail (SaddrF.ofWord w))
  | 0x0B => some (.spush (SqF.ofWord w))
  | 0x10 => some (.slist (SlistF.ofWord w))
  | 0x11 => some (.slstop (SlstopF.ofWord w))
  | 0x12 => some (.slstat (SlstatF.ofWord w))
  | _ => none

/-- A word with its opcode undefined in the matrix, vector or stream slot is not any of these; the
sequencer-only opcodes (R62) are those of 0x80 to 0x8C. -/
def CIns.seqOnly (w : W32) : Bool := decide (0x80 ≤ (w.extractLsb' 24 8).toNat) && decide ((w.extractLsb' 24 8).toNat < 0xC0)

end Sys2Proof.Machine
end

