-- ==== Sys2Proof/Machine/SlotOp.lean ====
section
/-! DEFINITION. What a slot of a bundle is at issue (R34, R37, R45, R57): the registers it names, the
slots it pops, reads the head of and pushes, when it is held, the exception it raises, and its effect. -/

namespace Sys2Proof.Machine

/-- A slot's part in a bundle. `exc`, `held` and `run` take the core number; `run` takes the state as it
stood before the bundle's slots ran, from which every register and slot state is read, and the state to
change. Register files: 0 s, 1 a, 2 k, 3 p, 4 v, 5 c, 6 q. -/
structure SlotOp where
  whole : Bool
  sport : Bool
  dests : List (Nat × Nat)
  pops : Option Nat
  heads : Option Nat
  pushes : Option Nat
  exc : Nat → State → Option Exc
  held : Nat → State → Bool
  run : Nat → State → State → State

/-- A NOP slot (R33). -/
def SlotOp.nop : SlotOp :=
  { whole := false, sport := false, dests := [], pops := none, heads := none, pushes := none
    exc := fun _ _ => none, held := fun _ _ => false, run := fun _ _ s => s }

/-- A slot whose opcode is undefined (R37, R57). -/
def SlotOp.undef : SlotOp := { SlotOp.nop with exc := fun _ _ => some .illegal }

/-- EXC_ILLEGAL where a condition fails. -/
def needs (b : Bool) : Option Exc := if b then none else some .illegal

/-- A register operation of fixed latency: its results by slot, computed from the context at issue. -/
def SlotOp.reg (slot lat : Nat) (dests : List (Nat × Nat)) (legal : Bool) (f : Nat → Ctx → List RegW) : SlotOp :=
  { SlotOp.nop with
    dests := dests
    exc := fun _ _ => needs legal
    run := fun n s0 s =>
      (f n (s0.ctx n)).foldl (fun s w => flyRes n slot (s0.ctx n).pc lat w s) s }

/-- A register number of a 5-bit field that names a file of 16 or 8 registers (R38). -/
def aReg (f : BitVec 5) : Bool := decide (f.toNat < 16)
def pReg (f : BitVec 5) : Bool := decide (f.toNat < 8)

end Sys2Proof.Machine
end

