-- ==== Sys2Proof/Machine/ScalarOps.lean ====
section
/-! DEFINITION. The control-slot register instructions (R38, R39, R40): their results as functions of the
scalar, address and predicate registers, for cores and sequencers alike, and as slots of a bundle. -/

namespace Sys2Proof.Machine

/-- Fields d, a and b name s registers and f is unused. -/
def crPlain (i : CR) : Bool := i.f == 0

/-- ALU instructions whose three register fields name s registers: the low bit of f is passed. -/
def aluS (f : W64 → W64 → W64) (i : CR) (r : Regs) : List RegW :=
  [.s i.d.toNat (f (r.getS i.a.toNat) (r.getS i.b.toNat))]

/-- A legality check with the results of an instruction on the registers of R36 that a sequencer has
too. -/
structure Alu where
  legal : Bool
  dests : List (Nat × Nat)
  lat : Nat
  res : Regs → List RegW

def aluSSS (i : CR) (legal : Bool) (lat : Nat) (f : W64 → W64 → W64) : Alu :=
  { legal := legal, dests := [(0, i.d.toNat)], lat := lat, res := aluS f i }

/-- ADD. -/
def aluAdd (i : CR) : Alu := aluSSS i (crPlain i) 1 (· + ·)
/-- SUB. -/
def aluSub (i : CR) : Alu := aluSSS i (crPlain i) 1 (· - ·)
/-- AND. -/
def aluAnd (i : CR) : Alu := aluSSS i (crPlain i) 1 (· &&& ·)
/-- OR. -/
def aluOr (i : CR) : Alu := aluSSS i (crPlain i) 1 (· ||| ·)
/-- XOR. -/
def aluXor (i : CR) : Alu := aluSSS i (crPlain i) 1 (· ^^^ ·)
/-- SHL by b[5:0]. -/
def aluShl (i : CR) : Alu := aluSSS i (crPlain i) 1 (fun a b => a <<< (b.toNat % 64))
/-- SHR by b[5:0], logical. -/
def aluShr (i : CR) : Alu := aluSSS i (crPlain i) 1 (fun a b => a >>> (b.toNat % 64))
/-- SRA by b[5:0], arithmetic. -/
def aluSra (i : CR) : Alu := aluSSS i (crPlain i) 1 (fun a b => a.sshiftRight (b.toNat % 64))
/-- MIN; f[0] = 1 unsigned. -/
def aluMin (i : CR) : Alu :=
  aluSSS i (decide (i.f.toNat < 2)) 1 (fun a b =>
    if i.f = 1 then (if a.ult b then a else b) else (if a.slt b then a else b))
/-- MAX; f[0] = 1 unsigned. -/
def aluMax (i : CR) : Alu :=
  aluSSS i (decide (i.f.toNat < 2)) 1 (fun a b =>
    if i.f = 1 then (if a.ult b then b else a) else (if a.slt b then b else a))
/-- MUL, low 64 bits. -/
def aluMul (i : CR) : Alu := aluSSS i (crPlain i) 3 (· * ·)
/-- MULH, signed high 64 bits. -/
def aluMulh (i : CR) : Alu :=
  aluSSS i (crPlain i) 3 (fun a b => BitVec.ofInt 64 (a.toInt * b.toInt / 2 ^ 64))
/-- CMP into pd = d[21:19]. -/
def aluCmp (i : CR) : Alu :=
  { legal := pReg i.d && decide (i.f.toNat < 6), dests := [(3, i.d.toNat)], lat := 1
    res := fun r => [.p i.d.toNat (cmpFlag i.f.toNat (r.getS i.a.toNat) (r.getS i.b.toNat))] }
/-- SEL by p in f[2:0]. -/
def aluSel (i : CR) : Alu :=
  { legal := decide (i.f.toNat < 8), dests := [(0, i.d.toNat)], lat := 1
    res := fun r => [.s i.d.toNat (if r.getP i.f.toNat then r.getS i.a.toNat else r.getS i.b.toNat)] }
/-- ADDI. -/
def aluAddi (i : CI) : Alu :=
  { legal := true, dests := [(0, i.d.toNat)], lat := 1
    res := fun r => [.s i.d.toNat (r.getS i.a.toNat + i.imm.signExtend 64)] }
/-- ANDI. -/
def aluAndi (i : CI) : Alu :=
  { legal := true, dests := [(0, i.d.toNat)], lat := 1
    res := fun r => [.s i.d.toNat (r.getS i.a.toNat &&& i.imm.setWidth 64)] }
/-- LUI. -/
def aluLui (i : CU) : Alu :=
  { legal := true, dests := [(0, i.d.toNat)], lat := 1
    res := fun _ => [.s i.d.toNat (i.imm.signExtend 64 <<< 14)] }
/-- ORI. -/
def aluOri (i : CI) : Alu :=
  { legal := true, dests := [(0, i.d.toNat)], lat := 1
    res := fun r => [.s i.d.toNat (r.getS i.a.toNat ||| i.imm.setWidth 64)] }
/-- AMOV. -/
def aluAmov (i : CR) : Alu :=
  { legal := aReg i.d && i.b == 0 && i.f == 0, dests := [(1, i.d.toNat)], lat := 1
    res := fun r => [.a i.d.toNat ((r.getS i.a.toNat).setWidth 48)] }
/-- AGET. -/
def aluAget (i : CR) : Alu :=
  { legal := aReg i.a && i.b == 0 && i.f == 0, dests := [(0, i.d.toNat)], lat := 1
    res := fun r => [.s i.d.toNat ((r.getA i.a.toNat).setWidth 64)] }
/-- AADD. -/
def aluAadd (i : CR) : Alu :=
  { legal := aReg i.d && aReg i.a && i.f == 0, dests := [(1, i.d.toNat)], lat := 1
    res := fun r => [.a i.d.toNat (r.getA i.a.toNat + (r.getS i.b.toNat).setWidth 48)] }
/-- AADDI. -/
def aluAaddi (i : CI) : Alu :=
  { legal := aReg i.d && aReg i.a, dests := [(1, i.d.toNat)], lat := 1
    res := fun r => [.a i.d.toNat (r.getA i.a.toNat + i.imm.signExtend 48)] }
/-- AFORM. -/
def aluAform (i : CR) : Alu :=
  { legal := aReg i.d && i.f == 0, dests := [(1, i.d.toNat)], lat := 1
    res := fun r =>
      let a := r.getS i.a.toNat
      let b := r.getS i.b.toNat
      [.a i.d.toNat (BitVec.ofNat 48
        (fld a.toNat 15 8 * 2 ^ 38 + fld a.toNat 7 0 * 2 ^ 30 + fld b.toNat 22 0))] }
/-- POP. -/
def aluPop (i : CR) : Alu :=
  { legal := pReg i.d && pReg i.a && pReg i.b && decide (i.f.toNat < 5), dests := [(3, i.d.toNat)], lat := 1
    res := fun r => [.p i.d.toNat (popFlag i.f.toNat (r.getP i.a.toNat) (r.getP i.b.toNat))] }

/-- A register instruction as the control slot of a bundle. -/
def Alu.op (a : Alu) : SlotOp := SlotOp.reg 0 a.lat a.dests a.legal (fun _ x => a.res x.regs)

/-- KMOV: k0 is refused (R35). -/
def opKmov (i : CR) : SlotOp :=
  SlotOp.reg 0 1 [(2, i.d.toNat)] (pReg i.d && i.d != 0 && i.b == 0 && i.f == 0)
    (fun _ x => [.k i.d.toNat (x.regs.getS i.a.toNat)])
/-- KGET. -/
def opKget (i : CR) : SlotOp :=
  SlotOp.reg 0 1 [(0, i.d.toNat)] (pReg i.a && i.b == 0 && i.f == 0)
    (fun _ x => [.s i.d.toNat (x.getK i.a.toNat)])
/-- The mask with ones in lanes 0 to min(v, 64) − 1. -/
def tailMask (v : W64) : W64 := BitVec.ofNat 64 (2 ^ min v.toNat 64 - 1)
/-- KTAIL. -/
def opKtail (i : CR) : SlotOp :=
  SlotOp.reg 0 1 [(2, i.d.toNat)] (pReg i.d && i.d != 0 && i.b == 0 && i.f == 0)
    (fun _ x => [.k i.d.toNat (tailMask (x.regs.getS i.a.toNat))])
/-- The mask operations of KOP. -/
def maskOp (f : Nat) (a b : W64) : W64 :=
  match f with
  | 0 => a &&& b
  | 1 => a ||| b
  | 2 => a ^^^ b
  | _ => a &&& ~~~b
/-- KOP. -/
def opKop (i : CR) : SlotOp :=
  SlotOp.reg 0 1 [(2, i.d.toNat)] (pReg i.d && i.d != 0 && pReg i.a && pReg i.b && decide (i.f.toNat < 4))
    (fun _ x => [.k i.d.toNat (maskOp i.f.toNat (x.getK i.a.toNat) (x.getK i.b.toNat))])

/-- The remaining count of loop level l; 0 where it is not active (R40). -/
def loopCount (l : List LoopLv) (k : Nat) : Nat :=
  match l[k]? with
  | some v => v.count
  | none => 0

/-- What MFC reads in a core (R40). -/
def mfcCore (n : Nat) (s : State) (f : Nat) : W64 :=
  let x := s.ctx n
  match f with
  | 0 => BitVec.ofNat 64 x.cycle
  | 1 => BitVec.ofNat 64 x.issue
  | 2 => BitVec.ofNat 64 (panelTick s (panelOf n))
  | 3 => BitVec.ofNat 64 n
  | 4 => BitVec.ofNat 64 (s.core n).cur
  | 9 => x.mode.setWidth 64
  | 10 => x.scratch
  | k => BitVec.ofNat 64 (loopCount x.loops (k - 5))

/-- MFC. -/
def opMfc (i : CR) : SlotOp :=
  { SlotOp.nop with
    dests := [(0, i.d.toNat)]
    exc := fun _ _ => needs (i.a == 0 && i.b == 0 && decide (i.f.toNat < 11))
    run := fun n s0 s => flyRes n 0 (s0.ctx n).pc 1 (.s i.d.toNat (mfcCore n s0 i.f.toNat)) s }

/-- MTC: SCRATCH alone is writable. -/
def opMtc (i : CR) : SlotOp :=
  { SlotOp.nop with
    exc := fun _ _ => needs (i.d == 0 && i.b == 0 && i.f == 10)
    run := fun n s0 s =>
      let v := (s0.ctx n).regs.getS i.a.toNat
      s.onCur n (fun x => { x with scratch := v }) }

end Sys2Proof.Machine
end

