-- ==== Sys2Proof/Machine/FlowOps.lean ====
section
/-! DEFINITION. Control-slot loads and stores of scratchpad, branches, loops, waits and boundaries as
slots of a bundle (R40, R42 to R44, R49 to R51, R55, R61). -/

namespace Sys2Proof.Machine

/-! LD and ST (R40). -/

/-- The offset of a base register and a signed displacement in units of `size` bytes. -/
def dispOff (base : FAddr) (off : Int) (size : Nat) : Int := ((base.toNat % 2 ^ 23 : Nat) : Int) + off * size

/-- The effective offset of LD and ST. -/
def cmOff (x : Ctx) (i : CM) : Int := dispOff (x.regs.getA i.base.toNat) i.off.toInt (2 ^ i.size.toNat)

/-- The checks on an access of `len` bytes at a computed offset that must be a multiple of `align` (R40, R57, R75,
R102): outside the offsets EXC_ADDR, and of a misalignment and a range check the one that R57 puts first. -/
def accessExc (c : Core) (o : Int) (align len : Nat) (write : Bool) : Option Exc :=
  if o < 0 then some .addr
  else minExc (if o % (align : Int) = 0 then none else some .addr) (rangeExc c c.ctx o.toNat len write)

/-- Alignment and bounds of LD and ST (R40), then the checks of R53 and R138. -/
def cmExc (write : Bool) (i : CM) (n : Nat) (s : State) : Option Exc :=
  let c := s.core n
  accessExc c (cmOff c.ctx i) (2 ^ i.size.toNat) (2 ^ i.size.toNat) write

/-- A slot's access to a far-bank subbank in its refresh window holds the bundle (R45, R48). -/
def offHeld (n : Nat) (o : Int) (s : State) : Bool := decide (0 ≤ o) && refreshing s n o.toNat

/-- Pending C-slot stores as a later LD sees them (R40). -/
def overlay (c : Core) (off : Nat) (bs : List Byte) : List Byte :=
  bs.zipIdx.map (fun e =>
    match ((c.stores.filter (·.cSees)).flatMap (·.bytes)).reverse.find? (fun b => b.1 == off + e.2) with
    | some b => b.2
    | none => e.1)

/-- Near or far latency of a scratchpad load (R40, R101). -/
def bankLat (off near far : Nat) : Nat := if off < 0x180000 then near else far

/-- LD. -/
def opLd (i : CM) : SlotOp :=
  { SlotOp.nop with
    sport := true
    dests := [(0, i.t.toNat)]
    exc := cmExc false i
    held := fun n s => offHeld n (cmOff (s.ctx n) i) s
    run := fun n s0 s =>
      let c := s0.core n
      let off := (cmOff c.ctx i).toNat
      let sz := 2 ^ i.size.toNat
      let (r, s) := spdRead 0 n off sz s
      let v := leNat (overlay c off r.bytes)
      let lat := bankLat off 3 6
      if r.bad.isEmpty then flyRes n 0 c.ctx.pc lat (.s i.t.toNat (BitVec.ofNat 64 v)) s
      else flyRes n 0 c.ctx.pc lat (.exc .ue) s }

/-- ST: visible to an LD at once, to the other ports 3 or 6 issue cycles later. -/
def opSt (i : CM) : SlotOp :=
  { SlotOp.nop with
    sport := true
    exc := cmExc true i
    held := fun n s => offHeld n (cmOff (s.ctx n) i) s
    run := fun n s0 s =>
      let c := s0.core n
      let off := (cmOff c.ctx i).toNat
      let v := (c.ctx.regs.getS i.t.toNat).toNat
      s.onCore n (fun c =>
        { c with
          stores := c.stores ++
            [{ due := c.icyc + bankLat off 3 6, port := 3, cSees := true
               bytes := atOff off (leBytes (2 ^ i.size.toNat) v), pois := [] }] }) }

/-! Branches and loops (R42 to R44). -/

/-- The bundle at pc stands in the last two bundles of an active body (R44). -/
def inLastTwo (x : Ctx) : Bool :=
  x.loops.any (fun l => decide (l.start ≤ x.pc) && decide (x.pc ≤ l.stop) && decide (l.stop ≤ x.pc + 1))

/-- A branch may stand here (R42, R44). -/
def branchOk (x : Ctx) : Bool := x.branch.isNone && !inLastTwo x

/-- Sets the target of a taken branch, with two delay bundles to issue; the count is one higher until
the branch's own bundle has advanced (R42). -/
def setBranch (n : Nat) (t : Int) (s : State) : State :=
  s.onCur n (fun x => { x with branch := some ((t % 2 ^ 20).toNat, 3) })

/-- BR. -/
def opBr (i : CB) : SlotOp :=
  { SlotOp.nop with
    exc := fun n s => needs (branchOk (s.ctx n))
    run := fun n s0 s =>
      let x := s0.ctx n
      if x.regs.getP i.p.toNat == (i.sense == 1) then setBranch n (x.pc + i.off.toInt) s else s }
/-- JMP. -/
def opJmp (i : CB) : SlotOp :=
  { SlotOp.nop with
    exc := fun n s => needs (i.sense == 0 && i.p == 0 && branchOk (s.ctx n))
    run := fun n s0 s => setBranch n ((s0.ctx n).pc + i.off.toInt) s }
/-- JR. -/
def opJr (i : CR) : SlotOp :=
  { SlotOp.nop with
    exc := fun n s => needs (i.d == 0 && i.b == 0 && i.f == 0 && branchOk (s.ctx n))
    run := fun n s0 s => setBranch n (((s0.ctx n).regs.getS i.a.toNat).toNat % 2 ^ 20) s }

/-- A loop level may open here with `body` bundles (R42, R44). -/
def loopOk (x : Ctx) (body : Nat) : Bool :=
  branchOk x && decide (x.loops.length < 4) &&
    (match x.loops.getLast? with
     | some l => decide (x.pc + body ≤ l.stop)
     | none => true)

/-- Opens a loop level at pc (R43); a count of 0 skips the body: the next bundle is pc + body + 1, set as
a level whose only effect is the jump. -/
def openLoop (n count body : Nat) (s : State) : State :=
  s.onCur n (fun x =>
    if count = 0 then { x with pc := x.pc + body }
    else { x with loops := x.loops ++ [{ count := count, start := x.pc + 1, stop := x.pc + body }] })

/-- LOOP. -/
def opLoop (i : CLoop) : SlotOp :=
  { SlotOp.nop with
    exc := fun n s => needs (i.z == 0 && loopOk (s.ctx n) (i.body.toNat + 1))
    run := fun n s0 s =>
      openLoop n (((s0.ctx n).regs.getS i.s.toNat).toNat % 2 ^ 32) (i.body.toNat + 1) s }
/-- LOOPI. -/
def opLoopi (i : CLoopI) : SlotOp :=
  { SlotOp.nop with
    exc := fun n s => needs (loopOk (s.ctx n) (i.body.toNat + 1))
    run := fun n _ s => openLoop n (i.count.toNat + 1) (i.body.toNat + 1) s }

/-- After issuing the bundle at pc: the next bundle index and the levels left (R43). -/
def loopNext (pc : Nat) : List LoopLv → Nat × List LoopLv
  | [] => (pc + 1, [])
  | l :: t =>
    if pc = l.stop then
      if 1 < l.count then (l.start, { l with count := l.count - 1 } :: t) else loopNext pc t
    else (pc + 1, l :: t)

/-- Levels, innermost first, that a branch to `tgt` leaves open (R42). -/
def keepLevels (tgt : Nat) : List LoopLv → List LoopLv
  | [] => []
  | l :: t => if l.start ≤ tgt ∧ tgt ≤ l.stop then l :: t else keepLevels tgt t

/-- The advance of pc, loop levels and pending branch after the bundle at `pc` has issued (R42, R43).
`opened` is whether this bundle opened a level: its own pc is not a body's end. -/
def advancePc (pc : Nat) (x : Ctx) : Ctx :=
  let skipped := decide (x.pc ≠ pc)
  let (nx, lv) := loopNext pc x.loops.reverse
  let nx := if skipped then x.pc + 1 else nx
  let x := { x with loops := lv.reverse, pc := nx % 2 ^ 20 }
  match x.branch with
  | none => x
  | some (t, k) =>
    if k ≤ 1 then { x with pc := t, branch := none, loops := (keepLevels t lv).reverse }
    else { x with branch := some (t, k - 1) }

/-! Events (R50). -/

/-- Kinds and args that the table of R50 allows: WAIT 0, REST 1, PREST 2. -/
def eventOk (who kind arg : Nat) : Bool :=
  match kind with
  | 0 => decide (arg = 0)
  | 1 => decide (arg < 64)
  | 2 => decide (who < 2) && decide (arg < 16)
  | 3 => decide (who < 2) && decide (arg < 16)
  | 4 => decide (who < 2) && decide (arg = 0)
  | 5 => decide (who = 0) && decide (arg = 0)
  | 6 => decide (who = 2) && decide (arg = 0)
  | _ => false

/-- A slot's next entry to read is done (R150, R151). -/
def QSlot.hasEntry (q : QSlot) : Bool := q.done.getLsbD (q.cons % (q.depth + 1))
/-- A slot has space for an entry (R150). -/
def QSlot.hasSpace (q : QSlot) : Bool := decide ((q.prod + 256 - q.cons) % 256 < q.depth + 1)

/-- The event of a WAIT or REST has occurred on core `n` (R50). Kind 0 is the expiry alone. -/
def eventNow (n kind arg : Nat) (s : State) : Bool :=
  let c := s.core n
  match kind with
  | 1 => (s.seq (panelOf n)).flags.getLsbD arg
  | 2 => (c.ctx.slot arg).hasEntry
  | 3 => (c.ctx.slot arg).hasSpace
  | 4 => c.xwake
  | 5 => decide (c.ctx.posted = 0)
  | _ => false

/-- A wait of kind 4 consumes the pending XWAKE (R50). -/
def consumeEvent (n kind : Nat) (s : State) : State :=
  if kind = 4 then s.onCore n (fun c => { c with xwake := false }) else s

/-- Zero fields of CE in WAIT and REST (R38). -/
def ceZero (i : CE) : Bool := i.saveOk == 0 && i.z == 0

/-- WAIT: completes in one issue cycle if its event has occurred, else the context is WAITING (R49). A
failed posted store raises its exception at a WAIT on POSTED (R41). -/
def opWait (i : CE) : SlotOp :=
  { SlotOp.nop with
    whole := true
    dests := [(3, i.pd.toNat)]
    exc := fun n s =>
      if !(ceZero i && eventOk 0 i.kind.toNat i.arg.toNat) then some .illegal
      else if i.kind = 5 then (s.ctx n).postExc
      else none
    run := fun n s0 s =>
      let x := s0.ctx n
      if eventNow n i.kind.toNat i.arg.toNat s0 then
        consumeEvent n i.kind.toNat (flyRes n 0 x.pc 1 (.p i.pd.toNat true) s)
      else
        let s := s.onCur n (fun x => { x with state := .waiting })
        s.onCore n (fun c =>
          { c with
            wait := some
              { kind := i.kind.toNat, arg := i.arg.toNat, pd := i.pd.toNat, since := s0.now
                ticks := (x.regs.getS i.s.toNat).toNat % 2 ^ 32, pc := x.pc } }) }

/-- REST: does not rest if its event has occurred (R51). -/
def opRest (i : CE) : SlotOp :=
  { SlotOp.nop with
    whole := true
    exc := fun _ _ => needs (ceZero i && eventOk 1 i.kind.toNat i.arg.toNat)
    run := fun n s0 s =>
      let x := s0.ctx n
      if eventNow n i.kind.toNat i.arg.toNat s0 then consumeEvent n i.kind.toNat s
      else
        let s := s.onCur n (fun x => { x with state := .waiting })
        s.onCore n (fun c =>
          { c with
            rest := some
              { kind := i.kind.toNat, arg := i.arg.toNat, since := s0.now
                horizon := (x.regs.getS i.s.toNat).toNat % 2 ^ 32, entered := false, entryAt := 0, entryTicks := 0, deferred := false, forced := false } }) }

/-- YIELD and END: the core comes to a context boundary once the bundle has issued (R55). -/
def opBoundary (i : CR) : SlotOp :=
  { SlotOp.nop with
    whole := true
    exc := fun _ _ => needs (i.d == 0 && i.a == 0 && i.b == 0 && i.f == 0) }

/-- SIG sets a flag of the panel's sequencer (R61). -/
def opSig (i : CR) : SlotOp :=
  { SlotOp.nop with
    exc := fun _ _ => needs (i.d == 0 && i.a == 0 && i.b == 0 && decide (i.f.toNat < 64))
    run := fun n _ s => s.onSeq (panelOf n) (fun q => { q with flags := q.flags ||| (1#64 <<< i.f.toNat) }) }

/-- ARRIVE adds 1 to a barrier counter, saturating (R61). -/
def opArrive (i : CR) : SlotOp :=
  { SlotOp.nop with
    exc := fun _ _ => needs (i.d == 0 && i.a == 0 && i.b == 0 && decide (i.f.toNat < 16))
    run := fun n _ s =>
      s.onSeq (panelOf n) (fun q => { q with bar := Tab.put 0 q.bar i.f.toNat (inc 16 (Tab.get 0 q.bar i.f.toNat)) }) }

end Sys2Proof.Machine
end

