-- ==== Sys2Proof/Machine/VectorOps.lean ====
section
/-! DEFINITION. Vector-slot instructions as slots of a bundle (R92, R97, R101 to R106, R110), and the
operations on stream slots that all slots share (R148 to R151). -/

namespace Sys2Proof.Machine

/-! Stream slots (R148 to R151). -/

/-- Entry size in bytes (R148). -/
def QSlot.bytes (q : QSlot) : Nat := 2 ^ (3 + q.esz)
/-- Offset of an entry position (R148). -/
def QSlot.at_ (q : QSlot) (pos : Nat) : Nat := q.base + pos * q.bytes
/-- The positions that a producer adds at and a consumer removes at (R150). -/
def QSlot.tail (q : QSlot) : Nat := q.prod % (q.depth + 1)
def QSlot.head (q : QSlot) : Nat := q.cons % (q.depth + 1)

/-- Sets bit q of STR_STAT.hazard (R151). -/
def setHazard (n q : Nat) (s : State) : State :=
  s.onCounts n (fun k => { k with hazard := k.hazard ||| (1#16 <<< q) })

/-- A poisoned entry of zeros (R158). -/
def putPoisonEntry (n k q : Nat) (s : State) : State :=
  let Q := (s.ctxAt n k).slot q
  let o := Q.at_ Q.tail
  let s := spdWrite n (atOff o (List.replicate Q.bytes 0)) (linesOf o Q.bytes) s
  s.onSlot n k q (fun Q =>
    { Q with done := Q.done ||| (1#64 <<< Q.tail), prod := (Q.prod + 1) % 256, owed := Q.owed - 1 })

/-- Adds owed poisoned entries while the slot has space (R151, R158); `fuel` bounds their number. -/
def payOwed (n k q : Nat) : Nat → State → State
  | 0, s => s
  | fuel + 1, s =>
    let Q := (s.ctxAt n k).slot q
    if Q.owed ≠ 0 ∧ Q.hasSpace then payOwed n k q fuel (putPoisonEntry n k q s) else s

/-- A consumer removes the head entry (R150); in unchecked mode an entry not done is a hazard (R151). -/
def slotPop (n q : Nat) (s : State) : State :=
  let Q := (s.ctx n).slot q
  let s := if Q.hasEntry then s else setHazard n q s
  payOwed n (s.core n).cur q 1 (s.onSlot n (s.core n).cur q (fun Q =>
    { Q with done := Q.done &&& ~~~(1#64 <<< Q.head), cons := (Q.cons + 1) % 256 }))

/-- A producer completes the tail entry (R150); in unchecked mode a full slot overwrites its oldest entry
(R151), and an STF entry lost so is never sent. -/
def slotPush (n q : Nat) (s : State) : State :=
  let Q := (s.ctx n).slot q
  let full := !Q.hasSpace
  let s := if full then setHazard n q s else s
  let s := if full && Q.mode == 4 then s.onCur n (fun x => { x with posted := x.posted - 1 }) else s
  s.onSlot n (s.core n).cur q (fun Q =>
    { Q with
      done := Q.done ||| (1#64 <<< Q.tail), prod := (Q.prod + 1) % 256
      cons := if full then (Q.cons + 1) % 256 else Q.cons })

/-- The checks of R53 and R138 on the entry of slot `q` that an instruction reads or writes. -/
def headExc (q : Nat) (n : Nat) (s : State) : Option Exc :=
  let c := s.core n
  let Q := c.ctx.slot q
  rangeExc c c.ctx (Q.at_ Q.head) Q.bytes false
def tailExc (q : Nat) (n : Nat) (s : State) : Option Exc :=
  let c := s.core n
  let Q := c.ctx.slot q
  rangeExc c c.ctx (Q.at_ Q.tail) Q.bytes true

/-- A write that a bundle makes in its own issue cycle: every port sees it from the next one on (R130). -/
def storeNow (n port : Nat) (bytes : List (Nat × Byte)) (pois : List Nat) (s : State) : State :=
  s.onCore n (fun c => { c with stores := c.stores ++ [{ due := c.icyc, port := port, cSees := false, bytes := bytes, pois := pois }] })

/-- The slot interlock of a consumer and of a producer (R45, R151). -/
def popHeld (q : Nat) (n : Nat) (s : State) : Bool :=
  let x := s.ctx n
  !x.unchecked && !(x.slot q).hasEntry
def pushHeld (q : Nat) (n : Nat) (s : State) : Bool :=
  let x := s.ctx n
  !x.unchecked && !(x.slot q).hasSpace

/-- The slot has the mode and, where one is asked, the entry size (R149). -/
def slotIs (q mode : Nat) (esz : Option Nat) (n : Nat) (s : State) : Bool :=
  let Q := (s.ctx n).slot q
  Q.mode == mode && (match esz with | some e => Q.esz == e | none => true)

/-! Vector memory (R101 to R104). -/

/-- The unmasked lanes of mask k of the current context. -/
def lanesOf (x : Ctx) (k : Nat) : List Nat := (List.range 64).filter (fun j => (x.getK k).getLsbD j)

/-- The vector port is free in this issue cycle (R101). -/
def portFree (c : Core) : Bool := decide (c.vport ≤ c.icyc)
/-- Holds the vector port for `p` issue cycles from this one (R101). -/
def takePort (n p : Nat) (s : State) : State := s.onCore n (fun c => { c with vport := c.icyc + p })

/-- The offset of VLD and VST (R102). -/
def vmOff (x : Ctx) (i : VmemF) : Int := dispOff (x.regs.getA i.a.toNat) i.off.toInt (64 * 2 ^ i.es.toNat)

/-- The checks of VLD and VST: es, port, alignment, then the bytes of the unmasked lanes (R101, R102). -/
def vmExc (write : Bool) (i : VmemF) (n : Nat) (s : State) : Option Exc :=
  let c := s.core n
  let o := vmOff c.ctx i
  let w := 2 ^ i.es.toNat
  let al : Nat := 64 * w
  if i.es = 3 ∨ !portFree c then some .illegal
  else
    (lanesOf c.ctx i.k.toNat).foldl (fun e j => minExc e (accessExc c (o + j * w) 1 w write))
      (if o % (al : Int) = 0 then none else some .addr)

/-- The refresh interlock of VLD and VST: no lane, no access (R103). -/
def vmHeld (i : VmemF) (n : Nat) (s : State) : Bool :=
  let x := s.ctx n
  !(lanesOf x i.k.toNat).isEmpty && offHeld n (vmOff x i) s

/-- Port cycles by lane size (R101). -/
def vmPort (i : VmemF) : Nat := if i.es = 2 then 2 else 1

/-- VLD. -/
def opVld (i : VmemF) : SlotOp :=
  { SlotOp.nop with
    dests := [(4, i.r.toNat)]
    exc := vmExc false i
    held := vmHeld i
    run := fun n s0 s =>
      let x := s0.ctx n
      let o := (vmOff x i).toNat
      let w := 2 ^ i.es.toNat
      let lanes := lanesOf x i.k.toNat
      let lns := lineList (lanes.map (fun j => (o + j * w, (0 : Byte))))
      let (r, s) := readLines 1 n lns s
      let rd := fun (a : Nat) => nth (0 : Byte) r.bytes (64 * lns.idxOf (a / 64) + a % 64)
      let vals := lanes.map (fun j => (j, BitVec.ofNat 32 (leNat ((span (o + j * w) w).map rd))))
      let qs := (List.range 4).filterMap (fun q =>
        let ls := lanes.filter (fun j => j / 16 == q)
        if ls.isEmpty then none else some (q, ls.any (fun j => r.badAt (o + j * w) w)))
      let s := takePort n (vmPort i) s
      flyRes n 2 x.pc (bankLat o 3 6 + (if i.es = 2 then 1 else 0)) (.lanes i.r.toNat vals qs) s }

/-- The quarter of a lane is poisoned. -/
def lanePois (x : Ctx) (r j : Nat) : Bool := x.getVP r (j / 16)

/-- Counts a store or chain that wrote poisoned data (R104). -/
def countPois (n : Nat) (b : Bool) (s : State) : State :=
  if b then s.onCounts n (fun k => { k with vpoisoned := inc 8 k.vpoisoned }) else s

/-- VST. -/
def opVst (i : VmemF) : SlotOp :=
  { SlotOp.nop with
    exc := vmExc true i
    held := vmHeld i
    run := fun n s0 s =>
      let x := s0.ctx n
      let o := (vmOff x i).toNat
      let w := 2 ^ i.es.toNat
      let lanes := lanesOf x i.k.toNat
      let bs := lanes.flatMap (fun j => atOff (o + j * w) (leBytes w (x.getV i.r.toNat j).toNat))
      let pl := (lanes.filter (lanePois x i.r.toNat)).map (fun j => (o + j * w) / 64)
      let s := countPois n (!pl.isEmpty) (takePort n (vmPort i) s)
      s.onCore n (fun c =>
        { c with
          stores := c.stores ++
            [{ due := c.icyc + bankLat o 3 6 + (if i.es = 2 then 1 else 0), port := 2, cSees := false
               bytes := bs, pois := pl }] }) }

/-- VBC. -/
def opVbc (i : VbcF) : SlotOp :=
  SlotOp.reg 2 2 [(4, i.vd.toNat)] (i.z == 0) (fun _ x =>
    let v := x.regs.getS i.s.toNat
    let h : W32 := if i.sel = 0 then v.setWidth 32 else (v >>> 32).setWidth 32
    [.lanes i.vd.toNat ((List.range 64).map (fun j => (j, h))) ((List.range 4).map (fun q => (q, false)))])

/-- VEXT. -/
def opVext (i : VextF) : SlotOp :=
  SlotOp.reg 2 2 [(0, i.d.toNat), (3, i.pd.toNat)] (i.z == 0) (fun _ x =>
    [.s i.d.toNat ((x.getV i.va.toNat i.lane.toNat).setWidth 64), .p i.pd.toNat (!lanePois x i.va.toNat i.lane.toNat)])

/-- The offset of VLDC (R102). -/
def vldcOff (x : Ctx) (i : VldcF) : Int := dispOff (x.regs.getA i.a.toNat) i.off.toInt 32

/-- VLDC: uncorrectable data raise EXC_UE as they arrive (R145). -/
def opVldc (i : VldcF) : SlotOp :=
  { SlotOp.nop with
    dests := [(5, i.c.toNat)]
    exc := fun n s =>
      let c := s.core n
      let o := vldcOff c.ctx i
      if !portFree c then some .illegal else accessExc c o 32 32 false
    held := fun n s => offHeld n (vldcOff (s.ctx n) i) s
    run := fun n s0 s =>
      let x := s0.ctx n
      let o := (vldcOff x i).toNat
      let (r, s) := spdRead 0 n o 32 (takePort n 1 s)
      flyRes n 2 x.pc (bankLat o 3 6)
        (if r.bad.isEmpty then .c i.c.toNat (BitVec.ofNat 256 (leNat r.bytes)) else .exc .ue) s }

/-- VSEED. -/
def opVseed (i : VseedF) : SlotOp :=
  SlotOp.reg 2 1 [] (i.z == 0) (fun _ x => [.seedLanes (x.regs.getS i.s.toNat)])

/-- VQRD. -/
def opVqrd (i : VqrdF) : SlotOp :=
  { SlotOp.nop with
    dests := [(4, i.vd.toNat)]
    pops := some i.q.toNat
    exc := fun n s =>
      if !(i.z == 0 && slotIs i.q.toNat 1 (some 5) n s && portFree (s.core n)) then some .illegal else headExc i.q.toNat n s
    held := fun n s => slotIs i.q.toNat 1 (some 5) n s && popHeld i.q.toNat n s
    run := fun n s0 s =>
      let x := s0.ctx n
      let Q := x.slot i.q.toNat
      let o := Q.at_ Q.head
      let (r, s) := spdRead 1 n o 256 (takePort n 2 s)
      let vals := (List.range 64).map (fun j => (j, BitVec.ofNat 32 (leNat ((r.bytes.drop (4 * j)).take 4))))
      let qs := (List.range 4).map (fun q => (q, r.badAt (o + 64 * q) 64))
      flyRes n 2 x.pc 4 (.lanes i.vd.toNat vals qs) (slotPop n i.q.toNat s) }

/-- VQWR: masked lanes leave the entry's bytes as they were (log entry 11). -/
def opVqwr (i : VqwrF) : SlotOp :=
  { SlotOp.nop with
    pushes := some i.q.toNat
    exc := fun n s =>
      if !(i.z == 0 && slotIs i.q.toNat 2 (some 5) n s && portFree (s.core n)) then some .illegal else tailExc i.q.toNat n s
    held := fun n s => slotIs i.q.toNat 2 (some 5) n s && pushHeld i.q.toNat n s
    run := fun n s0 s =>
      let x := s0.ctx n
      let Q := x.slot i.q.toNat
      let o := Q.at_ Q.tail
      let lanes := lanesOf x i.k.toNat
      let bs := lanes.flatMap (fun j => atOff (o + 4 * j) (leBytes 4 (x.getV i.vs.toNat j).toNat))
      let pl := (lanes.filter (lanePois x i.vs.toNat)).map (fun j => (o + 4 * j) / 64)
      let s := countPois n (!pl.isEmpty) (takePort n 2 s)
      slotPush n i.q.toNat (storeNow n 2 bs pl s) }

/-! Chains (R92, R106, R110). -/

/-- P0-P7 from s28-s31 (R97). -/
def chainParams (x : Ctx) : List W32 :=
  (List.range 4).flatMap (fun j =>
    let v := x.regs.getS (28 + j)
    [v.setWidth 32, (v >>> 32).setWidth 32])

/-- The lanes of a vector register as a table. -/
def lanesTab (x : Ctx) (r : Nat) : Tab W32 := (List.range 64).map (fun j => (j, x.getV r j))
def quarterTab (x : Ctx) (r : Nat) : Tab Bool := (List.range 4).map (fun q => (q, x.getVP r q))

/-- Every generator of an unmasked lane advances once (R106 counter mode). -/
def drawLanes (mask : W64) (g : Tab W64) : Tab W64 :=
  (List.range 64).foldl (fun g j => if mask.getLsbD j then Tab.set g j (xsAdvance (Tab.get 1 g j)) else g) g

/-- The generator uses of a chain in counter mode, in stage order, U before the rounding (R106). -/
def counterDraws (mask : W64) : List (Stage × Nat) → Tab W64 → Tab (Tab W64) → Tab (Tab W64) →
    Tab W64 × Tab (Tab W64) × Tab (Tab W64)
  | [], g, a, b => (g, a, b)
  | (st, k) :: t, g, a, b =>
    let g1 := if st.usesU then drawLanes mask g else g
    let a := if st.usesU then Tab.set a k g1 else a
    let g2 := if st.stoch then drawLanes mask g1 else g1
    let b := if st.stoch then Tab.set b k g2 else b
    counterDraws mask t g2 a b

/-- VCH: a gated chain that meets the gate not at APPLY writes nothing and is counted (R110). -/
def opVch (i : VchF) : SlotOp :=
  { SlotOp.nop with
    dests := [(4, i.vd.toNat)]
    exc := fun n s => needs (chainOf (s.ctx n) i.id.toNat).isSome
    run := fun n s0 s =>
      let c := s0.core n
      let x := c.ctx
      match chainOf x i.id.toNat with
      | none => s
      | some (sts, g) =>
        let gated := g || i.cp == 1
        if gated && c.gate != .apply then
          s.onCounts n (fun k =>
            if c.gate = .skip then { k with gateSkip := inc 8 k.gateSkip } else { k with gateClosed := inc 8 k.gateClosed })
        else
          let mask := x.getK i.k.toNat
          let (g', a, b) := counterDraws mask sts.zipIdx x.gens [] []
          let f : Flying :=
            { vd := i.vd.toNat, stages := sts, la := lanesTab x i.va.toNat, lb := lanesTab x i.vb.toNat
              lc := lanesTab x i.vd.toNat, pa := quarterTab x i.va.toNat, pb := quarterTab x i.vb.toNat
              pc := quarterTab x i.vd.toNat, mask := mask, prm := chainParams x, gc := i.gc == 1, t := c.icyc
              gen1 := if x.counter then a else [], gen2 := if x.counter then b else [] }
          let s := if x.counter then s.onCur n (fun x => { x with gens := g' }) else s
          flyRes n 2 x.pc (chainLat sts) (.chain f) s }

/-- A vector-slot instruction as a slot. -/
def VIns.op : VIns → SlotOp
  | .nop _ => SlotOp.nop
  | .vld i => opVld i
  | .vst i => opVst i
  | .vbc i => opVbc i
  | .vext i => opVext i
  | .vldc i => opVldc i
  | .vseed i => opVseed i
  | .vqrd i => opVqrd i
  | .vqwr i => opVqwr i
  | .vch i => opVch i

/-- The vector slot of a raw word. -/
def slotV (w : W32) : SlotOp := match VIns.ofWord w with | some i => i.op | none => SlotOp.undef

end Sys2Proof.Machine
end

