-- ==== Sys2Proof/Machine/MatrixOps.lean ====
section
/-! DEFINITION. Matrix-slot instructions, dense and sparse, as slots of a bundle (R68, R69, R74 to R88,
R113 to R125): checks at issue, interlocks, and what each puts on its way. -/

namespace Sys2Proof.Machine

/-- The offset that an a register supplies (R74). -/
def aOff (x : Ctx) (r : BitVec 4) : Nat := (x.regs.getA r.toNat).toNat % 2 ^ 23

/-- Alignment of a base, then the checks of R75 on its range; none where the form has no such range (log entry 104). -/
def baseExc (n : Nat) (s : State) (off align len : Nat) (write : Bool) : Option Exc :=
  let c := s.core n
  if len = 0 then none
  else minExc (if off % align = 0 then none else some .addr) (rangeExc c c.ctx off len write)

/-- Running-sum rounding of an array as MCFG set it (R72). -/
def Ctx.srs (x : Ctx) (a : Nat) : Bool := if a = 0 then x.srs0 else x.srs1

/-- Tiles `t` to `t + k − 1` may be named (R79, R80). -/
def tilesOk (x : Ctx) (t k : Nat) : Bool :=
  if x.indexed then decide (t + k ≤ 32) else decide (t = 0) && decide (k = 1)

/-- An operation of the drain unit still has to read tile `t` (R78): queued, or in its read phase. -/
def opReads (cyc : Nat) (op : DrainOp) : Bool :=
  match op.kind with
  | .scmp | .strw => false
  | _ => match op.started with | none => true | some p => decide (cyc < p + 16)

/-- The drain interlock of tiles `t` to `t + k − 1` of array `a` (R78). -/
def drainHeld (n a t k : Nat) (s : State) : Bool :=
  let cyc := (s.panel (panelOf n)).cyc
  ((s.core n).arr a).queue.any (fun op => opReads cyc op && decide (t ≤ op.tile) && decide (op.tile < t + k))

/-- The array's input is free in this issue cycle (R77). -/
def inputFree (n a : Nat) (s : State) : Bool := decide (((s.core n).arr a).busy ≤ (s.core n).icyc)

/-- Room in the drain queue for `k` operations (R87); one that runs counts (log entry 101). -/
def queueRoom (n a k : Nat) (s : State) : Bool := decide (((s.core n).arr a).queue.length + k ≤ 32)

/-- The open groups of an array. -/
def groupsOf (x : Ctx) (a : Nat) : List (Nat × Group) := x.groups.filter (fun e => e.1 / 8 == a)
/-- The open group that a tile belongs to. -/
def groupOfTile (x : Ctx) (a t : Nat) : Option Group :=
  ((groupsOf x a).map (·.2)).find? (fun g => decide (g.t ≤ t) && decide (t < g.t + g.n))
/-- The wide-sum tile of a tile of a group (R83). -/
def Group.wideOf (g : Group) (t : Nat) : Nat := g.wide + 2048 * (t - g.t)

/-- The groups whose last tile lies in tiles `t` to `t + k − 1` (R85). -/
def passGroups (x : Ctx) (a t k : Nat) : List (Nat × Group) :=
  (groupsOf x a).filter (fun e => decide (t ≤ e.2.t + e.2.n - 1) && decide (e.2.t + e.2.n - 1 < t + k))
/-- A pass that triggers the automatic spill of a group (R85). -/
def triggers (g : Group) : Bool := decide (g.interval ≠ 0) && decide (g.count + 1 = g.interval)
/-- Operations that the automatic spills of a pass would queue. -/
def passSpills (x : Ctx) (a t k : Nat) : Nat :=
  ((passGroups x a t k).map (fun e => if triggers e.2 then e.2.n else 0)).sum

/-- A drain-unit operation with every field at rest. -/
def DrainOp.blank (kind : DKind) (tile after pc : Nat) : DrainOp :=
  { kind := kind, tile := tile, fmt := 0, rnd := false, w := false, cl := false, gc := false, nm := 0
    dst := 0, aux := 0, aux2 := 0, aux3 := 0, str := 0, wide := 0, after := after, pc := pc
    started := none, cap := [], capP := [], rands := [], inBytes := [], inBad := [], hit := [] }

/-- Joins an operation to the drain queue of an array (R87). -/
def joinQueue (n a : Nat) (op : DrainOp) (s : State) : State :=
  s.onArr n a (fun A => { A with queue := A.queue ++ [op] })

/-- The spill of tile `t` of a group. -/
def spillOp (g : Group) (t after pc : Nat) : DrainOp :=
  { DrainOp.blank .spill t after pc with wide := g.wideOf t }

/-- A pass of every group whose last tile is touched (R85): counts, and queues the automatic spills, in the order of the
groups (log entry 105), which wait for the pass's last result, due in issue cycle `last`. -/
def doPass (n a t k last pc : Nat) (s : State) : State :=
  (passGroups (s.ctx n) a t k).foldl (fun s e =>
    let g := e.2
    if triggers g then
      let s := s.onCur n (fun x => { x with groups := Tab.set x.groups e.1 { g with count := 0 } })
      (span g.t g.n).foldl (fun s t => joinQueue n a (spillOp g t last pc) s) s
    else s.onCur n (fun x => { x with groups := Tab.set x.groups e.1 { g with count := (g.count + 1) % 65536 } })) s

/-- Occupies an array's input (R77). -/
def takeInput (n a : Nat) (cycles : Nat) (I : Inp) (s : State) : State :=
  s.onArr n a (fun A => { A with inp := some I, busy := I.t + cycles })

/-- The tile that MMUL or SMUL streams through: the shadow where sw = 1 (R76). -/
def tileFor (n a : Nat) (sw : BitVec 1) (s : State) : WTile :=
  if sw = 1 then ((s.core n).arr a).shadow else ((s.core n).arr a).active
/-- sw = 1 makes the shadow active (R76). -/
def swapIn (n a : Nat) (sw : BitVec 1) (s : State) : State :=
  if sw = 1 then s.onArr n a (fun A => { A with active := A.shadow }) else s

/-- MCFG. -/
def opMcfg (i : McfgF) : SlotOp :=
  SlotOp.reg 1 1 [] (i.z == 0) (fun _ _ => [.srs i.arr.toNat (i.srs == 1)])
/-- MSEED. -/
def opMseed (i : MseedF) : SlotOp :=
  SlotOp.reg 1 1 [] (i.z == 0) (fun _ x => [.seedCols i.arr.toNat (x.regs.getS i.s.toNat)])

/-- Formats that R68 lets a tile name. -/
def fmtsOk (wf af : BitVec 3) : Bool :=
  decide (wf.toNat < 7) && decide (af.toNat < 7) && classOf wf.toNat == classOf af.toNat

/-- Starts a shadow load: the formats and the marking are set at issue (R76, R117). A load that it ends still
writes the part of the present cycle. -/
def startLoad (n a : Nat) (wf af nm src sc md pc : Nat) (s : State) : State :=
  let t := (s.core n).icyc
  (shadowUpTo n a t 24 s).onArr n a (fun A =>
    { A with
      shadow := { A.shadow with wf := wf, af := af, nm := nm }
      load := some
        { t := t, parts := loadParts wf, next := 0, src := src, srcLen := tileBytes wf, sc := sc
          scLen := wScaleBytes wf nm, md := md, mdLen := metaBytes wf nm, slot := 1, pc := pc } })

/-- MLDW. -/
def opMldw (i : MldwF) : SlotOp :=
  { SlotOp.nop with
    exc := fun n s =>
      let x := s.ctx n
      if !(i.z == 0 && fmtsOk i.wf i.af) then some .illegal
      else minExc (baseExc n s (aOff x i.aw) 64 (tileBytes i.wf.toNat) false)
        (baseExc n s (aOff x i.asc) 16 (wScaleBytes i.wf.toNat 0) false)
    held := fun n s => refreshing s n (aOff (s.ctx n) i.aw)
    run := fun n s0 s =>
      let x := s0.ctx n
      startLoad n i.arr.toNat i.wf.toNat i.af.toNat 0 (aOff x i.aw) (aOff x i.asc) 0 x.pc s }

/-- MLDS. -/
def opMlds (i : MldsF) : SlotOp :=
  { SlotOp.nop with
    exc := fun n s =>
      let x := s.ctx n
      let nm := i.nm.toNat + 1
      if !(i.z == 0 && fmtsOk i.wf i.af) then some .illegal
      else minExc (baseExc n s (aOff x i.aw) 64 (tileBytes i.wf.toNat) false)
        (minExc (baseExc n s (aOff x i.am) 64 (metaBytes i.wf.toNat nm) false)
          (baseExc n s (aOff x i.asc) 16 (wScaleBytes i.wf.toNat nm) false))
    held := fun n s => refreshing s n (aOff (s.ctx n) i.aw)
    run := fun n s0 s =>
      let x := s0.ctx n
      startLoad n i.arr.toNat i.wf.toNat i.af.toNat (i.nm.toNat + 1) (aOff x i.aw) (aOff x i.asc) (aOff x i.am) x.pc s }

/-- MMUL. -/
def opMmul (i : MmulF) : SlotOp :=
  let a := i.arr.toNat
  let t := i.t.toNat
  let rows := i.rows.toNat + 1
  let k := ceilDiv rows 16
  { SlotOp.nop with
    exc := fun n s =>
      let x := s.ctx n
      let W := tileFor n a i.sw s
      let sp := passSpills x a t k
      if !(tilesOk x t k && inputFree n a s && queueRoom n a sp s) then some .illegal
      else minExc (baseExc n s (aOff x i.ax) 64 (rows * rowBytes W) false)
        (baseExc n s (aOff x i.asc) 1 (rows * rowScales W) false)
    held := fun n s => drainHeld n a t k s || refreshing s n (aOff (s.ctx n) i.ax)
    run := fun n s0 s =>
      let x := s0.ctx n
      let s := swapIn n a i.sw s
      let v := rowInterval ((s.core n).arr a).active
      let I : Inp :=
        { t := (s.core n).icyc, next := 0, rows := rows, v := v, tile := t, srs := x.srs a
          kind := .mmul (aOff x i.ax) (aOff x i.asc), pc := x.pc }
      doPass n a t k (I.t + 20 + v * (rows - 1)) x.pc (takeInput n a (v * rows) I s) }

/-- MPRE. -/
def opMpre (i : MpreF) : SlotOp :=
  let a := i.arr.toNat
  let t := i.t.toNat
  let k := i.n.toNat + 1
  let b := if i.pf = 1 then 32 else 64
  { SlotOp.nop with
    exc := fun n s =>
      if !(i.z == 0 && tilesOk (s.ctx n) t k && inputFree n a s) then some .illegal
      else baseExc n s (aOff (s.ctx n) i.src) 64 (if i.kind = 1 then k * 16 * b else b) false
    held := fun n s => drainHeld n a t k s || refreshing s n (aOff (s.ctx n) i.src)
    run := fun n s0 s =>
      let x := s0.ctx n
      takeInput n a (16 * k)
        { t := (s.core n).icyc, next := 0, rows := 16 * k, v := 1, tile := t, srs := false
          kind := .mpre (i.kind == 0) (i.pf == 1) (aOff x i.src), pc := x.pc } s }

/-- MCLR. -/
def opMclr (i : MtilesF) : SlotOp :=
  let a := i.arr.toNat
  let t := i.t.toNat
  let k := i.n.toNat + 1
  { SlotOp.nop with
    exc := fun n s => needs (i.z == 0 && tilesOk (s.ctx n) t k && inputFree n a s)
    held := fun n s => drainHeld n a t k s
    run := fun n s0 s =>
      takeInput n a k
        { t := (s.core n).icyc, next := 0, rows := k, v := 1, tile := t, srs := false, kind := .mclr
          pc := (s0.ctx n).pc } s }

/-- MDRAIN. -/
def opMdrain (i : MdrainF) : SlotOp :=
  let a := i.arr.toNat
  let t := i.t.toNat
  { SlotOp.nop with
    exc := fun n s =>
      let x := s.ctx n
      let g := groupOfTile x a t
      if !(i.z == 0 && decide (i.fmt.toNat < 5) && tilesOk x t 1 && (i.w == 0 || (x.indexed && g.isSome))
          && queueRoom n a 1 s) then some .illegal
      else
        minExc (baseExc n s (aOff x i.ad) 64 (256 * outBytes i.fmt.toNat) true)
          (match g with
           | some g => if i.w = 1 then baseExc n s (g.wideOf t) 1 2048 (i.cl == 1) else none
           | none => none)
    held := fun n s => drainHeld n a t 1 s
    run := fun n s0 s =>
      let x := s0.ctx n
      joinQueue n a
        { DrainOp.blank .mdrain t 0 x.pc with
          fmt := i.fmt.toNat, rnd := i.rnd == 1, w := i.w == 1, cl := i.cl == 1, gc := i.gc == 1, dst := aOff x i.ad
          wide := match groupOfTile x a t with | some g => g.wideOf t | none => 0 } s }

/-- MSPILL. -/
def opMspill (i : MtilesF) : SlotOp :=
  let a := i.arr.toNat
  let t := i.t.toNat
  let k := i.n.toNat + 1
  { SlotOp.nop with
    exc := fun n s =>
      let x := s.ctx n
      if !(i.z == 0 && x.indexed && tilesOk x t k && (span t k).all (fun t => (groupOfTile x a t).isSome)
          && queueRoom n a k s) then some .illegal
      else (span t k).foldl (fun e t =>
        match groupOfTile x a t with
        | some g => minExc e (baseExc n s (g.wideOf t) 1 2048 true)
        | none => e) none
    held := fun n s => drainHeld n a t k s
    run := fun n s0 s =>
      let x := s0.ctx n
      (span t k).foldl (fun s t =>
        match groupOfTile x a t with
        | some g => joinQueue n a (spillOp g t 0 x.pc) s
        | none => s) s }

/-- MGRP, op 1: opens group g from its entry (R83, R84), an uncorrectable one as it stands (log entry 93). -/
def opMgrpOpen (i : MgrpF) : SlotOp :=
  let a := i.arr.toNat
  let t := i.t.toNat
  let k := i.n.toNat + 1
  { SlotOp.nop with
    exc := fun n s =>
      let x := s.ctx n
      let tab := aOff x i.tab
      let e := leNat (spdRead 1 n tab 16 s).1.bytes
      let clash := (groupsOf x a).any (fun e => e.1 == 8 * a + i.g.toNat || overlap t k e.2.t e.2.n)
      if !(i.z == 0 && x.indexed && decide (t + k ≤ 32) && !clash) then some .illegal
      else
        match baseExc n s tab 16 16 false with
        | some v => some v
        | none =>
          if fld e 31 23 == 0 && fld e 10 0 == 0 && fld e 127 64 == 0 then baseExc n s (fld e 22 0) 1 (2048 * k) true
          else some .illegal
    held := fun n s => refreshing s n (aOff (s.ctx n) i.tab)
    run := fun n s0 s =>
      let x := s0.ctx n
      let tab := aOff x i.tab
      let (r, s) := spdRead 1 n tab 16 s
      let e := leNat r.bytes
      flyRes n 1 x.pc 6 (.grpOpen a i.g.toNat
        { t := t, n := k, tab := tab, wide := fld e 22 0, interval := fld e 47 32, count := fld e 63 48 }) s }

/-- MGRP, op 0: closes group g 6 issue cycles later (R84); a_tab counts for the interlock only (log entry 102). -/
def opMgrpClose (i : MgrpF) : SlotOp :=
  let a := i.arr.toNat
  { SlotOp.nop with
    exc := fun n s =>
      match (s.ctx n).groups.find? (fun e => e.1 == 8 * a + i.g.toNat) with
      | some e => if i.z == 0 then baseExc n s e.2.tab 16 16 true else some .illegal
      | none => some .illegal
    held := fun n s => refreshing s n (aOff (s.ctx n) i.tab)
    run := fun n s0 s => flyRes n 1 (s0.ctx n).pc 6 (.grpClose a i.g.toNat) s }

/-! Sparse forms (R116 to R125). -/

/-- SMUL. -/
def opSmul (i : SmulF) : SlotOp :=
  let a := i.arr.toNat
  let t := i.t.toNat
  let cnt := i.cnt.toNat + 1
  { SlotOp.nop with
    exc := fun n s =>
      let x := s.ctx n
      if !(i.z == 0 && x.indexed && inputFree n a s && queueRoom n a (passSpills x a t (32 - t)) s) then some .illegal
      else minExc (baseExc n s (aOff x i.ai) 64 (16 + 8 * cnt) false)
        (if aOff x i.ax % 32 = 0 then none else some .addr)
    held := fun n s => drainHeld n a t (32 - t) s || refreshing s n (aOff (s.ctx n) i.ai)
    run := fun n s0 s =>
      let x := s0.ctx n
      let s := swapIn n a i.sw s
      let W := ((s.core n).arr a).active
      let (r, s) := spdRead 1 n (aOff x i.ai) 16 s
      let h := leNat r.bytes
      let stride := fld h 47 32
      let wrong := decide (fld h 127 48 ≠ 0) || decide (stride = 0) || decide (stride * 32 < rowBytes W + rowScales W)
      let bad := wrong || !r.bad.isEmpty
      let s := gmeEvent n 2 (if wrong && r.bad.isEmpty then 1 else 0) x.pc s
      let v := rowInterval W
      let I : Inp :=
        { t := (s.core n).icyc, next := 0, rows := cnt, v := v, tile := t, srs := x.srs a
          kind := .smul (aOff x i.ax) (aOff x i.ai) (fld h 31 0) stride bad, pc := x.pc }
      doPass n a t (32 - t) (I.t + 20 + v * (cnt - 1)) x.pc (takeInput n a (v * cnt) I s) }

/-- MDRS. -/
def opMdrs (i : MdrsF) : SlotOp :=
  let a := i.arr.toNat
  let t := i.t.toNat
  let md := if i.nm = 1 then 16 else 32
  let rows := if i.nm = 1 then 4 else 8
  { SlotOp.nop with
    exc := fun n s =>
      let x := s.ctx n
      let g := groupOfTile x a t
      if !(i.z == 0 && decide (i.fmt.toNat < 5) && tilesOk x t 1 && (i.w == 0 || (x.indexed && g.isSome))
          && queueRoom n a 1 s) then some .illegal
      else
        minExc (baseExc n s (aOff x i.ad) 64 (rows * 16 * outBytes i.fmt.toNat) true)
          (minExc (baseExc n s (aOff x i.am) md md false)
            (match g with
             | some g => if i.w = 1 then baseExc n s (g.wideOf t) 1 2048 (i.cl == 1) else none
             | none => none))
    held := fun n s => drainHeld n a t 1 s
    run := fun n s0 s =>
      let x := s0.ctx n
      joinQueue n a
        { DrainOp.blank .mdrs t 0 x.pc with
          fmt := i.fmt.toNat, rnd := i.rnd == 1, w := i.w == 1, cl := i.cl == 1, gc := i.gc == 1
          nm := i.nm.toNat + 1, dst := aOff x i.ad, aux := aOff x i.am
          wide := match groupOfTile x a t with | some g => g.wideOf t | none => 0 } s }

/-- SMRG. -/
def opSmrg (i : SmrgF) : SlotOp :=
  let a := i.arr.toNat
  let t := i.t.toNat
  { SlotOp.nop with
    exc := fun n s =>
      let x := s.ctx n
      if !(tilesOk x t 1 && queueRoom n a 1 s) then some .illegal
      else minExc (if aOff x i.ad % 64 = 0 then none else some .addr) (baseExc n s (aOff x i.ar) 64 64 false)
    held := fun n s => drainHeld n a t 1 s
    run := fun n s0 s =>
      let x := s0.ctx n
      joinQueue n a
        { DrainOp.blank .smrg t 0 x.pc with
          cl := i.cl == 1, dst := aOff x i.ad, aux := aOff x i.ar, str := i.str.toNat } s }

/-- Bytes of the dense region that SCMP reads (R121). -/
def scmpBytes (wf nm : Nat) : Nat := denseK wf nm * 16 * elemBits wf / 8

/-- SCMP; the alignment of its region and the refusal of format 7 are choices (log entries 131 and 132). -/
def opScmp (i : ScmpF) : SlotOp :=
  let a := i.arr.toNat
  let wf := i.wf.toNat
  let nm := i.nm.toNat + 1
  { SlotOp.nop with
    exc := fun n s =>
      let x := s.ctx n
      if !(i.z == 0 && decide (wf < 7) && queueRoom n a 1 s) then some .illegal
      else
        minExc (baseExc n s (aOff x i.src) 64 (scmpBytes wf nm) false)
          (minExc (baseExc n s (aOff x i.msk) 64 (2 * denseK wf nm) false)
            (minExc (baseExc n s (aOff x i.ad) 64 (tileBytes wf) true)
              (baseExc n s (aOff x i.adm) 64 (metaBytes wf nm) true)))
    run := fun n s0 s =>
      let x := s0.ctx n
      joinQueue n a
        { DrainOp.blank .scmp 0 0 x.pc with
          fmt := wf, nm := nm, dst := aOff x i.ad, aux := aOff x i.src, aux2 := aOff x i.msk, aux3 := aOff x i.adm } s }

/-- STRW. -/
def opStrw (i : StrwF) : SlotOp :=
  let a := i.arr.toNat
  let nm := i.nm.toNat + 1
  let tiles := if nm = 1 then 2 else 4
  { SlotOp.nop with
    exc := fun n s =>
      let x := s.ctx n
      if !(i.z == 0 && queueRoom n a 1 s) then some .illegal
      else
        minExc (baseExc n s (aOff x i.asrc) 64 (512 * tiles) false)
          (minExc (baseExc n s (aOff x i.asm) 64 (64 * tiles) false)
            (minExc (baseExc n s (aOff x i.ad) 64 (512 * tiles) true)
              (baseExc n s (aOff x i.adm) 64 (64 * tiles) true)))
    run := fun n s0 s =>
      let x := s0.ctx n
      joinQueue n a
        { DrainOp.blank .strw 0 0 x.pc with
          nm := nm, dst := aOff x i.ad, aux := aOff x i.asrc, aux2 := aOff x i.asm, aux3 := aOff x i.adm } s }

/-- A matrix-slot instruction as a slot. -/
def MIns.op : MIns → SlotOp
  | .nop _ => SlotOp.nop
  | .mcfg i => opMcfg i
  | .mseed i => opMseed i
  | .mldw i => opMldw i
  | .mmul i => opMmul i
  | .mpre i => opMpre i
  | .mclr i => opMclr i
  | .mdrain i => opMdrain i
  | .mspill i => opMspill i
  | .mgrpOpen i => opMgrpOpen i
  | .mgrpClose i => opMgrpClose i
  | .mlds i => opMlds i
  | .smul i => opSmul i
  | .mdrs i => opMdrs i
  | .smrg i => opSmrg i
  | .scmp i => opScmp i
  | .strw i => opStrw i

/-- The matrix slot of a raw word. -/
def slotM (w : W32) : SlotOp := match MIns.ofWord w with | some i => i.op | none => SlotOp.undef

end Sys2Proof.Machine
end

