-- ==== Sys2Proof/Machine/DrainUnit.lean ====
section
/-! DEFINITION. The drain unit (R86 to R89, R119 to R121, R124 to R126): the start of an operation's
read phase, and what each kind of operation writes when it has finished. -/

namespace Sys2Proof.Machine

/-- The outcome of a command. -/
abbrev Out := Host.Outcome State Fault Refusal

/-- A row still to enter writes tile `t` (R77, R123); an entry of SMUL still to enter may write any tile of its touch set
(log entry 129). -/
def Inp.touches (I : Inp) (t : Nat) : Bool :=
  match I.kind with
  | .smul .. => decide (I.tile ≤ t)
  | .mclr => decide (I.tile + I.next ≤ t) && decide (t < I.tile + I.rows)
  | _ => decide (I.tile + I.next / 16 ≤ t) && decide (t < I.tile + ceilDiv I.rows 16)

/-- Every write into the tile from earlier instructions has taken effect (R87); SCMP and STRW read no
tile (R125). -/
def drainReady (cyc : Nat) (A : Arr) (op : DrainOp) : Bool :=
  match op.kind with
  | .scmp | .strw => true
  | _ =>
    !A.rows.any (fun r => r.tile == op.tile || decide (r.due ≤ op.after))
      && !A.wrote.any (fun w => (w.1 == op.tile || decide (w.2.2 ≤ op.after)) && decide (cyc < w.2.1))
      && (match A.inp with | some I => !I.touches op.tile && decide (op.after < I.t + 20 + I.v * I.next) | none => true)

/-- The random fields of one row of a drain, column by column (R73, R88). -/
def drainFields (counter : Bool) (A : Arr) : List Nat × Arr :=
  (List.range 16).foldl (fun (st : List Nat × Arr) j =>
    let (r, A) := colField counter st.2 j
    (st.1 ++ [r], A)) ([], A)

/-- The scratchpad that an operation reads, in the order in which it reads it: metadata of MDRS, list of SMRG, region
and bitmap of SCMP, values and metadata of STRW (R119 to R121, R124, R125). -/
def drainInput (op : DrainOp) : List (Nat × Nat) :=
  let tiles := if op.nm = 1 then 2 else 4
  match op.kind with
  | .mdrs => [(op.aux, if op.nm = 1 then 32 else 16)]
  | .smrg => [(op.aux, 64)]
  | .scmp => [(op.aux, scmpBytes op.fmt op.nm), (op.aux2, 2 * denseK op.fmt op.nm)]
  | .strw => [(op.aux, 512 * tiles), (op.aux2, 64 * tiles)]
  | _ => []

/-- The lines of that input. -/
def inputLines (op : DrainOp) : List Nat := (drainInput op).flatMap (fun r => linesOf r.1 r.2)

/-- A part of the input as it was read: bytes from `lo` of the lines read on, and the uncorrectable lines. -/
def DrainOp.input (op : DrainOp) (lo len : Nat) : Rd :=
  { bytes := (op.inBytes.drop lo).take len, bad := op.inBad, corrected := false }

/-- The metadata that MDRS has read. -/
def mdrsMeta (op : DrainOp) : Rd := op.input (op.aux % 64) (if op.nm = 1 then 32 else 16)

/-- Starts the read phase of the head operation of a drain queue (R87, R125). -/
def drainStart (n a : Nat) (s : State) : State :=
  let c := s.core n
  let x := c.ctx
  let A := c.arr a
  match A.queue with
  | [] => s
  | op :: rest =>
    if op.started.isSome || !drainReady (s.panel (panelOf n)).cyc A op then s
    else
      let op' : DrainOp :=
        { op with
          started := some (s.panel (panelOf n)).cyc
          cap := (List.range 256).map (fun e => Tab.get 0 x.acc (accKey a op.tile 0 e))
          capP := (List.range 16).map (fun i => Tab.get false x.accp (accRow a op.tile i))
          rands := [], inBytes := [], inBad := [] }
      let s := s.onArr n a (fun _ => { A with queue := op' :: rest })
      if op.cl || op.kind == .spill then
        s.onCur n (fun x =>
          let x := clearTile a op.tile x
          if x.indexed then x else { x with dirty := Tab.put false x.dirty a false })
      else s

/-- Panel cycles from the start to the end of an operation (R87, R125). -/
def drainTime (op : DrainOp) : Nat :=
  match op.kind with
  | .mdrain => if op.w then 80 else 16
  | .mdrs => if op.w then 80 else 16
  | .spill => 80
  | .smrg => 80
  | .scmp => ceilDiv (scmpBytes op.fmt op.nm + 2 * denseK op.fmt op.nm) 32 + 8
  | .strw => if op.nm = 1 then 44 else 80

/-- The binary64 wide sums of a tile: values, and by row whether a granule of it is poisoned. -/
def readWide (n off : Nat) (s : State) : List XVal × List Nat × State :=
  let (r, s) := spdRead 1 n off 2048 s
  ((List.range 256).map (fun e => x64 ((r.bytes.drop (8 * e)).take 8)), r.bad, s)

/-- A poisoned granule among those of row i of a wide-sum tile. -/
def wideRowBad (off : Nat) (bad : List Nat) (i : Nat) : Bool :=
  bad.any (fun l => overlap (64 * l) 64 (off + 128 * i) 128)

/-- The converted elements of a drain (R88): bits and whether E4M3 saturated; and the poison by row
(R89). -/
def drainValues (n : Nat) (op : DrainOp) (s : State) : List (Nat × Bool) × List Bool × State :=
  let f := outFmt op.fmt
  let conv := fun (e : Nat) (x : XVal) => f.enc (if op.rnd then .stoch (nth 0 op.rands e) else .even) x
  if op.w then
    let (wide, bad, s) := readWide n op.wide s
    ((List.range 256).map (fun e =>
        conv e (Fmt.fp64.dec (r64 ((nth (.fin false 0 0) wide e).add (x32 (nth 0 op.cap e)))))),
      (List.range 16).map (fun i => nth false op.capP i || wideRowBad op.wide bad i), s)
  else
    ((List.range 256).map (fun e => conv e (x32 (nth 0 op.cap e))), op.capP, s)

/-- What follows the conversion of a drain: the wide sums cleared where cl and w ask it, the row poison
that the wide sums brought, the counter of poisoned drains, the finite flag (R88, R89, R107). -/
def drainTail (n a : Nat) (op : DrainOp) (rowP : List Bool) (anyP flag : Bool) (s : State) : State :=
  let s := if op.w && op.cl then spdWrite n (atOff op.wide (List.replicate 2048 0)) [] s else s
  let s := if op.w && !op.cl then
      s.onCur n (fun x =>
        { x with
          accp := (List.range 16).foldl (fun t i =>
            if nth false rowP i then Tab.put false t (accRow a op.tile i) true else t) x.accp })
    else s
  let s := if anyP then s.onCounts n (fun k => { k with apoisoned := inc 8 k.apoisoned }) else s
  if op.gc && flag then setFlag n s else s

/-- MDRAIN's results (R88, R89). -/
def emitMdrain (n a : Nat) (op : DrainOp) (s : State) : State :=
  let f := outFmt op.fmt
  let b := outBytes op.fmt
  let (vals, rowP, s) := drainValues n op s
  let pl := ((List.range 16).filter (nth false rowP)).flatMap (fun i => linesOf (op.dst + i * 16 * b) (16 * b))
  let s := spdWrite n (atOff op.dst (packVals b (vals.map (·.1)))) pl s
  let flag := vals.any (fun v => v.2 || nonfiniteBits f v.1) || rowP.any id
  drainTail n a op rowP (!pl.isEmpty) flag s

/-- A spill's results (R86). -/
def emitSpill (n : Nat) (op : DrainOp) (s : State) : State :=
  let (wide, bad, s) := readWide n op.wide s
  let vals := (List.range 256).map (fun e =>
    r64 ((nth (.fin false 0 0) wide e).add (x32 (nth 0 op.cap e))))
  let pl := ((List.range 16).filter (nth false op.capP)).flatMap (fun i => linesOf (op.wide + 128 * i) 128) ++ bad
  let s := spdWrite n (atOff op.wide (packVals 8 vals)) pl s
  s.onCounts n (fun k => { k with spills := inc 8 k.spills })

/-- The 2-bit position of element i in metadata bytes (R113). -/
def posIn (md : List Byte) (i : Nat) : Nat := ((nth 0 md (i / 4)).toNat >>> (2 * (i % 4))) % 4

/-- The group of compacted element i of MDRS has two equal positions (R126). -/
def mdrsBad (op : DrainOp) (i : Nat) : Bool :=
  let m := mdrsMeta op
  decide (op.nm = 1) && decide (posIn m.bytes (32 * (i / 32) + i % 16) = posIn m.bytes (32 * (i / 32) + 16 + i % 16))

/-- MDRS's results (R120, R126). -/
def emitMdrs (n a : Nat) (op : DrainOp) (s : State) : State :=
  let f := outFmt op.fmt
  let b := outBytes op.fmt
  let rows := if op.nm = 1 then 8 else 4
  let per := if op.nm = 1 then 2 else 1
  let (vals, rowP, s) := drainValues n op s
  let m := mdrsMeta op
  let row := fun (i : Nat) => 4 * (i / 16 / per) + posIn m.bytes i
  let elems := (List.range (16 * rows)).map (fun i =>
    if mdrsBad op i then ((0, false), !m.bad.isEmpty)
    else (nth (0, false) vals (16 * row i + i % 16), nth false rowP (row i) || !m.bad.isEmpty))
  let pl := (elems.zipIdx.filter (fun e => e.1.2)).map (fun e => (op.dst + e.2 * b) / 64)
  let s := spdWrite n (atOff op.dst (packVals b (elems.map (fun e => e.1.1)))) pl s
  let flag := elems.any (fun e => e.1.2 || nonfiniteBits f e.1.1 || e.2)
  drainTail n a op rowP (!pl.isEmpty) flag s

/-- The destination row of entry `j` of the list that SMRG has read; none for a null id (R124). -/
def smrgDest (op : DrainOp) (j : Nat) : Option Nat :=
  let id := leNat ((op.inBytes.drop (4 * j)).take 4)
  if id = 0xFFFFFFFF then none else some (op.dst + id * (op.str + 1) * 64)

/-- A destination row that SMRG may not add into (R126, R138). -/
def smrgOut (c : Core) (off : Nat) : Bool :=
  decide (spdSize < off + 64) || inSave c off 64 || inCode c c.ctx off 64 || isRo c off || isLocal c off

/-- Changes the head operation of a drain queue. -/
def onHead (n a : Nat) (f : DrainOp → DrainOp) (s : State) : State :=
  s.onArr n a (fun A => { A with queue := match A.queue with | [] => [] | o :: r => f o :: r })

/-- One row add of SMRG: one read-add-write (R124, R126). Of a row that was written since the SMRG issued, the store
stands or the sum of what the row held before it, by a free value (log entry 130). -/
def smrgRow (n a : Nat) (op : DrainOp) (s : State) (j : Nat) : State :=
  match smrgDest op j with
  | none => s
  | some off =>
    let l := off / 64
    let hit := (op.hit.find? (fun h => h.1 == l)).map (·.2)
    if smrgOut (s.core n) off || decide (hit = some none) then s
    else
      let (r, s) := spdRead 1 n off 64 s
      let (old, s) := match hit with
        | some (some old) =>
          let (v, s) := freshNat s
          (if v % 2 = 0 then none else some old, s)
        | _ => (some r.bytes, s)
      match old with
      | none => onHead n a (fun o => { o with hit := o.hit.map (fun h => if h.1 = l then (l, none) else h) }) s
      | some b =>
        let vals := (List.range 16).map (fun k =>
          (fadd (BitVec.ofNat 32 (leNat ((b.drop (4 * k)).take 4))) (nth 0 op.cap (16 * j + k))).toNat)
        let p := nth false op.capP j || !op.inBad.isEmpty || !r.bad.isEmpty
        onHead n a (fun o => { o with hit := o.hit.filter (fun h => h.1 != l) }) (storeLine n l (atOff off (packVals 4 vals)) p s)

/-- Elements of a format packed as R69 packs them. -/
def packElems (code : Nat) (l : List Nat) : List Byte :=
  match elemBits code with
  | 16 => packVals 2 l
  | 8 => packVals 1 l
  | 4 => (chunks 2 l.length l).map (fun c => BitVec.ofNat 8 (nth 0 c 0 + 16 * nth 0 c 1))
  | _ => (chunks 4 l.length l).flatMap (fun c =>
      leBytes 3 (nth 0 c 0 + 64 * nth 0 c 1 + 4096 * nth 0 c 2 + 262144 * nth 0 c 3))

/-- 2-bit positions packed as R113 packs them. -/
def packPos (l : List Nat) : List Byte :=
  (chunks 4 l.length l).map (fun c => BitVec.ofNat 8 (nth 0 c 0 + 4 * nth 0 c 1 + 16 * nth 0 c 2 + 64 * nth 0 c 3))

/-- Fills a group to `k` elements with +0.0 at unused positions; which of them is left open, so it is
drawn (R113; log entry 3). -/
def fillGroup : Nat → List Nat → List (Nat × Nat) → State → List (Nat × Nat) × State
  | 0, _, g, s => (g, s)
  | k + 1, unused, g, s =>
    let (r, s) := freshNat s
    let p := nth 0 unused (r % max 1 unused.length)
    fillGroup k (unused.filter (· != p)) (g ++ [(0, p)]) s

/-- The group that takes the place of one with too many kept positions (R126). -/
def badFill (per : Nat) : List (Nat × Nat) := if per = 2 then [(0, 0), (0, 1)] else [(0, 0)]

/-- A group of (bits, position) pairs in rising position order, filled to `per` elements; a bad group where it held
too many. -/
def makeGroup (per : Nat) (kept : List (Nat × Nat)) (s : State) : List (Nat × Nat) × State :=
  if per < kept.length then (badFill per, s)
  else
    let unused := (List.range 4).filter (fun p => !kept.any (fun e => e.2 == p))
    fillGroup (per - kept.length) unused kept s

/-- Groups made for a list of kept lists. -/
def makeGroups (per : Nat) : List (List (Nat × Nat)) → State → List (List (Nat × Nat)) × State
  | [], s => ([], s)
  | k :: t, s =>
    let (g, s) := makeGroup per k s
    let (gs, s) := makeGroups per t s
    (g :: gs, s)

/-- Writes a compacted tile from its groups (group-major, 16 columns each), with the groups whose input
was poisoned. -/
def writeCompact (n fmt per dst md : Nat) (groups : List (List (Nat × Nat))) (bad : List Bool) (s : State) : State :=
  let rows := groups.length / 16 * per
  let el := (List.range (16 * rows)).map (fun i =>
    let g := 16 * (i / 16 / per) + i % 16
    (nth (0, 0) (nth [] groups g) (i / 16 % per), nth false bad g))
  let badI := (el.zipIdx.filter (fun e => e.1.2)).map (·.2)
  let s := spdWrite n (atOff dst (packElems fmt (el.map (fun e => e.1.1))))
    (badI.map (fun i => (dst + i * elemBits fmt / 8) / 64)) s
  spdWrite n (atOff md (packPos (el.map (fun e => e.1.2)))) (badI.map (fun i => (md + i / 4) / 64)) s

/-- What SCMP has read: by group the kept elements as (bits, position), the number of values outside the mask, and
whether its input was poisoned (R114, R121, R126). -/
def scmpGroups (op : DrainOp) : List (List (Nat × Nat)) × List Nat × List Bool :=
  let kd := denseK op.fmt op.nm
  let eb := elemBits op.fmt
  let r := op.input 0 (scmpBytes op.fmt op.nm)
  let m := op.input (scmpBytes op.fmt op.nm) (2 * kd)
  let rd := fun b => nth (0 : Byte) r.bytes b
  let kept := fun (e : Nat) => (nth (0 : Byte) m.bytes (e / 8)).getLsbD (e % 8)
  let idx := (List.range (kd * 4)).map (fun g => (List.range 4).map (fun p => (16 * (4 * (g / 16) + p) + g % 16, p)))
  (idx.map (fun es => (es.filter (fun e => kept e.1)).map (fun e => (elemBitsAt op.fmt rd e.1, e.2))),
    idx.map (fun es => (es.filter (fun e => !kept e.1 && !(elemAt op.fmt rd e.1).isZero)).length),
    idx.map (fun es => es.any (fun e =>
      r.badAt (op.aux + e.1 * eb / 8) 1 || m.badAt (op.aux2 + e.1 / 8) 1)))

/-- Elements that a group keeps: two of 2:4, one of 1:4 (R112). -/
def DrainOp.per (op : DrainOp) : Nat := if op.nm = 1 then 2 else 1

/-- The groups with more kept elements than the pattern lets a group keep (R126). -/
def overFull (per : Nat) (l : List (List (Nat × Nat))) : Nat := (l.filter (fun k => decide (per < k.length))).length

/-- SCMP's results (R121, R126). -/
def emitScmp (n : Nat) (op : DrainOp) (s : State) : State :=
  let (lists, _, bad) := scmpGroups op
  let (groups, s) := makeGroups op.per lists s
  writeCompact n op.fmt op.per op.dst op.aux3 groups bad s

/-- The listed elements of a compacted 16-bit block (R119): (dense row, dense column, bits, poisoned),
and the groups of it with equal positions (R126). -/
def blockElems (per tiles : Nat) (base mbase : Nat) (d m : Rd) : List (Nat × Nat × Nat × Bool) × Nat :=
  let one := fun (j i : Nat) =>
    let mdj := (m.bytes.drop (64 * j)).take 64
    let k' := i / 16
    let c := i % 16
    let eq := decide (per = 2) && decide (posIn mdj (32 * (k' / 2) + c) = posIn mdj (32 * (k' / 2) + 16 + c))
    let p := if eq then k' % 2 else posIn mdj i
    let v := if eq then 0 else leNat ((d.bytes.drop (512 * j + 2 * i)).take 2)
    ((4 * (k' / per) + p, 16 * j + c, v, d.badAt (base + 512 * j + 2 * i) 1 || m.badAt (mbase + 64 * j + i / 4) 1),
      decide (k' % 2 = 0) && eq)
  let all := (List.range tiles).flatMap (fun j => (List.range 256).map (one j))
  (all.map (·.1), (all.filter (·.2)).length)

/-- What an output group of STRW keeps: the elements that are not +0.0, then listed zeros while there is
room, in rising position order (R119). -/
def transposeGroup (per : Nat) (es : List (Nat × Nat)) : List (Nat × Nat) :=
  let nz := es.filter (fun e => e.1 != 0)
  if per < nz.length then nz
  else
    let z := (es.filter (fun e => e.1 == 0)).take (per - nz.length)
    (List.range 4).filterMap (fun p => (nz ++ z).find? (fun e => e.2 == p))

/-- Tiles of the block of STRW (R119). -/
def DrainOp.tiles (op : DrainOp) : Nat := if op.nm = 1 then 2 else 4

/-- The elements of the block that STRW has read, and its groups with equal positions (R119, R126). -/
def strwBlock (op : DrainOp) : List (Nat × Nat × Nat × Bool) × Nat :=
  blockElems op.per op.tiles op.aux op.aux2 (op.input 0 (512 * op.tiles)) (op.input (512 * op.tiles) (64 * op.tiles))

/-- The groups of output tile j of STRW: what each keeps, and whether its input was poisoned (R119). -/
def strwGroups (op : DrainOp) (src : List (Nat × Nat × Nat × Bool)) (j : Nat) : List (List (Nat × Nat)) × List Bool :=
  let of := fun (g : Nat) => src.filter (fun e => e.1 == 16 * j + g % 16 && e.2.1 / 4 == g / 16)
  let gs := List.range (16 * (16 / op.per))
  (gs.map (fun g => transposeGroup op.per ((of g).map (fun e => (e.2.2.1, e.2.1 % 4)))),
    gs.map (fun g => (of g).any (fun e => e.2.2.2)))

/-- Output tile j of STRW (R119). -/
def emitStrwTile (n : Nat) (op : DrainOp) (src : List (Nat × Nat × Nat × Bool)) (s : State) (j : Nat) : State :=
  let (kept, bad) := strwGroups op src j
  let (groups, s) := makeGroups op.per kept s
  writeCompact n 0 op.per (op.dst + 512 * j) (op.aux3 + 64 * j) groups bad s

/-- STRW's results (R119, R126). -/
def emitStrw (n : Nat) (op : DrainOp) (s : State) : State :=
  (List.range op.tiles).foldl (emitStrwTile n op (strwBlock op).1) s

/-- The metadata events of an operation whose input has been read (R126): counted, and in strict mode raised, as the
engine has read the groups, in their order; within a group of SCMP its drops come first (log entry 133). -/
def inputEvents (n : Nat) (op : DrainOp) (s : State) : State :=
  match op.kind with
  | .mdrs =>
    let rows := if op.nm = 1 then 8 else 4
    gmeEvent n 2 ((List.range (16 * rows)).filter (fun i => mdrsBad op i && i / 16 % 2 == 0)).length op.pc s
  | .scmp =>
    let (lists, drops, _) := scmpGroups op
    (lists.zip drops).foldl (fun s e =>
      gmeEvent n 2 (b2n (decide (op.per < e.1.length))) op.pc (gmeEvent n 1 e.2 op.pc s)) s
  | .smrg =>
    let out := fun (j : Nat) => match smrgDest op j with | some off => smrgOut (s.core n) off | none => false
    gmeEvent n 3 ((List.range 16).filter out).length op.pc s
  | .strw =>
    let (src, nb) := strwBlock op
    gmeEvent n 2 (nb + ((List.range op.tiles).map (fun j => overFull op.per (strwGroups op src j).1)).sum) op.pc s
  | _ => s

/-- The head operation of a drain queue reads line `i` of its input, if it has one; with the last one its groups have
been read. -/
def readInput (n a i : Nat) (op : DrainOp) (rest : List DrainOp) (s : State) : State :=
  match (inputLines op)[i]? with
  | none => s
  | some l =>
    let (r, s) := readLine 1 n l s
    let op := { op with inBytes := op.inBytes ++ r.bytes, inBad := op.inBad ++ r.bad }
    let s := s.onArr n a (fun A => { A with queue := op :: rest })
    if i + 1 = (inputLines op).length then inputEvents n op s else s

/-- A panel cycle of a drain unit (R87, R88, R124, R125): in cycle i of its read phase an operation takes the random
fields of row i, and 32 bytes of its input (a line every second cycle); in its emit phase SMRG adds one row in four
cycles. -/
def drainTick (n a : Nat) (s : State) : State :=
  let A := (s.core n).arr a
  match A.queue with
  | [] => s
  | op :: rest =>
    match op.started with
    | none => s
    | some p =>
      let i := (s.panel (panelOf n)).cyc - p
      let (f, A) := if op.rnd && decide (i < 16) then drainFields (s.ctx n).counter A else ([], A)
      let op := { op with rands := op.rands ++ f }
      let s := s.onArr n a (fun _ => { A with queue := op :: rest })
      let s := if i % 2 = 0 then readInput n a (i / 2) op rest s else s
      if op.kind = .smrg ∧ 16 ≤ i ∧ i % 4 = 0 ∧ i < 80 then smrgRow n a op s ((i - 16) / 4) else s

/-- Writes the results of an operation; the rows of SMRG have been added one by one (R124). -/
def emitOp (n a : Nat) (op : DrainOp) (s : State) : State :=
  match op.kind with
  | .mdrain => emitMdrain n a op s
  | .spill => emitSpill n op s
  | .mdrs => emitMdrs n a op s
  | .smrg => s
  | .scmp => emitScmp n op s
  | .strw => emitStrw n op s

/-- The head operation finishes writing and frees the unit (R87, R125), once its panel cycles have
passed. -/
def drainDone (n a : Nat) (s : State) : State :=
  match ((s.core n).arr a).queue with
  | [] => s
  | op :: rest =>
    match op.started with
    | none => s
    | some p =>
      if (s.panel (panelOf n)).cyc < p + drainTime op then s
      else emitOp n a op (s.onArr n a (fun A => { A with queue := rest }))

/-- The instruction stream of a core stands: held, waiting, resting, at a boundary or halted (R46). -/
def streamStands (c : Core) : Bool :=
  c.held.isSome || c.wait.isSome || c.rest.isSome || c.boundary.isSome || c.halted.isSome

/-- One shadow part of array `a` written ahead of the next issue cycle (R76). -/
def partNow (n a : Nat) (s : State) : State :=
  match ((s.core n).arr a).load with
  | some L => if L.t + 1 + L.next < (s.core n).icyc then shadowPart n a s else s
  | none => s

/-- The earliest accumulator write of array `a` and those of the same cycle, performed once its cycle has
come, or while the stream stands (R46, R70, R77). -/
def accumulateNow (n a : Nat) (s : State) : State :=
  let c := s.core n
  let stand := streamStands c
  let A := c.arr a
  let s := match A.inp with
    | some I => if A.rows.isEmpty && (stand || decide (I.t + I.v * I.next < c.icyc)) then inputRow n a s else s
    | none => s
  match ((s.core n).arr a).rows with
  | [] => s
  | r :: _ => if stand || decide (r.due < c.icyc) then rowsUpTo n a r.due s else s

end Sys2Proof.Machine
end

