-- ==== Sys2Proof/Machine/Fabric.lean ====
section
/-! DEFINITION. Fabric addresses and their checks (R29, R30, R32, R197, R208), partitions, epochs (R192),
packets and routes (R173, R178, R184). -/

namespace Sys2Proof.Machine

/-- The panels of the module. -/
def allPanels : List Nat := List.range 64
/-- The panels of a partition, in index order. -/
def panelsOf (s : State) (k : Nat) : List Nat := allPanels.filter (s.part k).has
/-- The anchor panel of a partition: its first (R274 family; the north-west corner). -/
def anchorOf (s : State) (k : Nat) : Nat := (s.part k).y0 * 8 + (s.part k).x0

/-- The primary and the secondary panel of a port (R216). -/
def portPanels (o : Nat) : Nat × Nat :=
  if o < 4 then (2 * o, 2 * o + 1)
  else if o < 8 then (16 * (o - 4) + 7, 16 * (o - 4) + 15)
  else if o < 12 then (56 + 7 - 2 * (o - 8), 56 + 6 - 2 * (o - 8))
  else (8 * (7 - 2 * (o - 12)), 8 * (6 - 2 * (o - 12)))

/-- The ports of a panel in rising order: control units 0x04 and 0x05 (R216). -/
def portsAt (p : Nat) : List Nat :=
  (List.range 16).filter (fun o => (portPanels o).1 == p || (portPanels o).2 == p)

/-- What a fabric address names (R29). -/
inductive Target where
  | spd (n off : Nat)
  | stk (p off : Nat)
  | ctl (p unit off : Nat)
deriving DecidableEq, Repr

/-- The control units and their extents (R30). -/
def unitOk (u off : Nat) : Bool :=
  match u with
  | 0 => decide (off < 0x10000)
  | 1 => decide (off < 0xC0000)
  | 2 => decide (off < 0x10000)
  | 3 => decide (off < 0x10000)
  | 4 => decide (off < 0x10000)
  | 5 => decide (off < 0x10000)
  | 0x10 => decide (off / 0x10000 < 552)
  | 0x11 => decide (off / 0x10000 < 600)
  | _ => false

/-- Row 1 of R32: the target of an access of `len` bytes, or none. -/
def targetOf (a len : Nat) : Option Target :=
  match fld a 47 46 with
  | 0 =>
    if fld a 37 30 < 184 ∧ fld a 45 38 < 192 ∧ fld a 29 23 = 0 ∧ fld a 22 0 + len ≤ spdSize then
      some (.spd (coreAt (fld a 37 30) (fld a 45 38)) (fld a 22 0))
    else none
  | 1 => if fld a 39 37 = 0 ∧ fld a 36 0 + len ≤ 2 ^ 37 then some (.stk (fld a 45 43 * 8 + fld a 42 40) (fld a 36 0)) else none
  | 2 =>
    if unitOk (fld a 39 32) (fld a 31 0) && unitOk (fld a 39 32) (fld a 31 0 + len - 1) then
      some (.ctl (fld a 45 43 * 8 + fld a 42 40) (fld a 39 32) (fld a 31 0))
    else none
  | _ => none

/-- The panel of a target. -/
def Target.panel : Target → Nat
  | .spd n _ => panelOf n
  | .stk p _ => p
  | .ctl p _ _ => p

/-- A core whose scratchpad is being carried: requests to it are held (R25). -/
def beingCarried (s : State) (n : Nat) : Bool :=
  (s.panel (panelOf n)).darn.steps.any (fun c => c.cores.contains n)

/-- An address of a logical core that is being carried (R25). -/
def carriedTarget (s : State) (a len : Nat) : Bool :=
  match targetOf a len with
  | some (.spd n _) => beingCarried s n
  | some (.ctl p u off) => u == 0x10 && beingCarried s (coreIn p (off / 0x10000 % 23) (off / 0x10000 / 23))
  | _ => false

/-- The block that answers for a target (R192); for the control units that R192 assigns to none it is the sequencer of the
panel (log entry 149). -/
def Target.block : Target → Nat
  | .spd n _ => n
  | .stk p _ => 41000 + p
  | .ctl p u _ =>
    match u with
    | 3 => 41000 + p
    | 4 => 42000 + nth 0 (portsAt p) 0
    | 5 => 42000 + nth 0 (portsAt p) 1
    | _ => 40000 + p

/-- First offsets of the device area and of the staging area, of the copy range of a mirrored stack (R197,
R208). -/
def deviceBase : Nat := 0x1FB8000000
def stagingBase : Nat := 0x1FC0000000
def mirrorBase : Nat := 0x0FDC000000

/-- A range of a stack that requests may not touch (R197, R208): the device and spare areas, and the
partner's copies unless the partner is lost (R210). -/
def stackReserved (s : State) (p off len : Nat) : Bool :=
  overlap off len deviceBase (stagingBase - deviceBase)
    || ((s.panel p).stack.mirrored && !(s.panel p).stack.mirrorLost && overlap off len mirrorBase (deviceBase - mirrorBase))

/-- Row 2 of R32, for a request of a core or stream (`seq` none) or of the sequencer of a panel: it stays
in its partition, writes no control space but a sequencer its own panel's, and does not name unit 0x11. -/
def rowTwo (s : State) (home : Nat) (seq : Bool) (write : Bool) (t : Target) (len : Nat) : Bool :=
  match partOf s home with
  | none => false
  | some k =>
    (s.part k).has t.panel &&
      (match t with
       | .spd _ _ => true
       | .stk p off => !stackReserved s p off len
       | .ctl p u _ => u != 0x11 && (!write || (seq && p == home)))

/-- Rows 1 and 2 of R32 as a status (R8): 0, BAD_ARGUMENT or ACCESS_DENIED. -/
def chk12 (s : State) (home : Nat) (seq write : Bool) (a len : Nat) : Nat :=
  match targetOf a len with
  | none => 0x03
  | some t => if rowTwo s home seq write t len then 0 else 0x0F

/-- The exception of a status for a core's direct access (R32, R41). -/
def statusExc (st : Nat) : Option Exc :=
  match st with
  | 0x00 => none
  | 0x0F => some .access
  | 0x0E => some .ue
  | 0x09 => some .ue
  | _ => some .addr

/-- The current epoch of a block (R192). -/
def epochOf (s : State) (b : Nat) : Nat := (Tab.get 0 s.epochs b + s.epochBase) % 256
/-- A block's epoch increments (R192). -/
def newEpoch (b : Nat) (s : State) : State := { s with epochs := Tab.put 0 s.epochs b ((Tab.get 0 s.epochs b + 1) % 256) }

/-- Every live hub takes the present epochs of some blocks into its table (R192). -/
def noticeEpochs (hit : Nat → Bool) (s : State) : State :=
  { s with
    hubEpochs := (s.epochs.filter (fun e => hit e.1)).foldl (fun t e => Tab.put 0 t e.1 e.2) (s.hubEpochs.filter (fun e => !hit e.1)) }

/-- The epoch of a core increments and its notice reaches the hubs (R192). -/
def coreEpoch (n : Nat) (s : State) : State := noticeEpochs (· == n) (newEpoch n s)

/-- The blocks of a panel (R192), the ports that a reset of it covers among them (R340). -/
def blockOfPanel (p b : Nat) : Bool :=
  (decide (b < 35328) && panelOf b == p) || b == 40000 + p || b == 41000 + p || (portsAt p).any (fun o => b == 42000 + o)

/-- The block and epoch that a request to an address expects, by the hubs' table (R192). -/
def expectOf (s : State) (a : Nat) : Nat × Nat :=
  match targetOf a 1 with
  | some t => (t.block, (Tab.get 0 s.hubEpochs t.block + s.epochBase) % 256)
  | none => (0, 0)

/-- The route class from panel `p` to panel `d` (R178, R184). -/
def classTo (s : State) (p d : Nat) : Route := Tab.get Route.xy (s.panel p).hub.classes d

/-- The panel of a source. -/
def Src.panel : Src → Nat
  | .core n => panelOf n
  | .seq p => p
  | .stack p => p
  | .port o => (portPanels o).1
  | .die => 0

/-- Where a packet of a source enters the network. -/
def Src.entry : Src → Pos
  | .core n => .mesh n
  | .seq p => .hub p
  | .stack p => .hub p
  | .port o => .hub (portPanels o).1
  | .die => .hub 0

/-! Where a stack files an offset (R198). -/

/-- The sector of an offset within its unit. -/
def sectorOf (x : Nat) : Nat := fld x 8 6
/-- The pseudo-channel of an offset. -/
def pseudoOf (x : Nat) : Nat := fld x 9 9
/-- The channel of an offset. -/
def channelOf (x : Nat) : Nat := fld x 14 10 ^^^ fld x 19 15 ^^^ fld x 24 20
/-- The slice of the crossbar that serves an offset. -/
def sliceOf (x : Nat) : Nat := channelOf x / 2
/-- The place of an offset within its pseudo-channel. -/
def placeOf (x : Nat) : Nat := fld x 36 15

/-- The input of a hub's link attachment that a port uses (R180). -/
def portInput (o p : Nat) : Nat := 203 + ((portsAt p).findIdx? (· == o)).getD 0

/-- The input of a router or hub by which a source's packets enter (R174, R179, R180): 0 the own core at a router; at a
hub 0 to 3 the bridges, 16 + q a quad port, 201 the sequencer, 202 the panel units of control space, 203 and 204 the link
attachments, 206 the control network, 208 + i slice i of the stack, 224 the remote port of the stack interface. -/
def Src.input : Src → Nat
  | .core _ => 0
  | .stack _ => 224
  | .seq _ => 201
  | .port o => portInput o (portPanels o).1
  | .die => 206

/-- The quad port of a core (R179). -/
def quadOf (n : Nat) : Nat := 16 + localOf n / 4

/-- The port of the crossbar between the hub and a target (R180): a request that came by a bridge or a link attachment
uses the stack's remote port. -/
def Target.input (remote : Bool) : Target → Nat
  | .spd n _ => quadOf n
  | .stk _ x => if remote then 224 else 208 + sliceOf x
  | .ctl _ u _ => match u with | 1 => 201 | 4 => 203 | 5 => 204 | 0x10 => 202 | _ => 202

/-- The route of a request: a core to another core takes the class of its panel's table; whatever else
travels by hubs (R178, R179). -/
def routeFor (s : State) (src : Src) (a : Nat) : Route :=
  match src, targetOf a 1 with
  | .core n, some (.spd m _) => classTo s (panelOf n) (panelOf m)
  | _, _ => .hub

/-- A request that enters its target's hub from a bridge or from a link attachment (R180). -/
def Packet.remote (k : Packet) : Bool := k.hops != 0 || (match k.src with | .port _ => true | _ => false)

/-- Puts a packet in flight. -/
def launchPacket (k : Packet) (s : State) : State :=
  { s with packets := s.packets ++ [{ k with pid := s.nextPid }], nextPid := s.nextPid + 1 }

/-- The packet with a number. -/
def packetOf (s : State) (pid : Nat) : Option Packet := s.packets.find? (fun k => k.pid == pid)
def dropPacket (pid : Nat) (s : State) : State := { s with packets := s.packets.filter (fun k => k.pid != pid) }
def onPacket (pid : Nat) (f : Packet → Packet) (s : State) : State :=
  { s with packets := s.packets.map (fun k => if k.pid = pid then f k else k) }

/-- Changes a packet that moves on: it stands behind those that are there (R175). -/
def movePacket (pid : Nat) (f : Packet → Packet) (s : State) : State :=
  match packetOf s pid with
  | none => s
  | some k => { s with packets := s.packets.filter (fun q => q.pid != pid) ++ [f k] }

/-- Two packets of one class on the way from one source to one block by one route (R175). -/
def sameWay (a b : Packet) : Bool :=
  a.reply == b.reply && a.src == b.src && decide (a.route = b.route) && (targetOf a.dst 1).map Target.block == (targetOf b.dst 1).map Target.block

/-- Packet `k` stands behind one sent before it on the same way that has come no farther (R175). -/
def overtakes (s : State) (k : Packet) : Bool :=
  (s.packets.takeWhile (fun q => q.pid != k.pid)).any (fun q => sameWay q k && decide (q.pos = k.pos))

/-- A request packet. -/
def mkRequest (s : State) (src : Src) (op : POp) (a len tag ctx inv epoch : Nat) (data : List Byte) (pois : List Bool) : Packet :=
  { pid := 0, reply := false, op := op, status := 0, dst := a, src := src, epoch := epoch, tag := tag, ctx := ctx
    inv := inv, size := len, data := data, pois := pois, pos := src.entry, inp := src.input, path := [], hops := 0, home := src.entry, route := routeFor s src a
    mirror := false, raw := false, lost := false }

/-- The answer to a request, from where the request stands (R173, R178, R193): a posted write receives its
status too. It carries the epoch that the request names: a request of another epoch is not served, and its
requester must learn that (R32 row 6, R192). The control die is reached over the carrier's network. -/
def answer (pid status : Nat) (data : List Byte) (pois : List Bool) (s : State) : State :=
  movePacket pid (fun k =>
    let t := targetOf k.dst 1
    let hub : Pos × Nat := match t with | some t => (.hub t.panel, t.input k.remote) | none => (k.src.entry, k.src.input)
    let at_ : Pos × Nat := if k.src = .die then (.there, k.inp)
      else if k.pos = .there then (match t with | some (.spd n _) => if k.route = .hub then hub else (.mesh n, 0) | _ => hub)
      else (k.pos, k.inp)
    { k with reply := true, status := status, data := data, pois := pois, lost := false, hops := 0, pos := at_.1, inp := at_.2 }) s

end Sys2Proof.Machine
end

