-- ==== Sys2Proof/Machine/StreamOps.lean ====
section
/-! DEFINITION. Control-slot fabric and slot instructions (R41, R149 to R151) and stream-slot instructions
(R152 to R154) as slots of a bundle. -/

namespace Sys2Proof.Machine

/-! LDF, STF, SRD, SWR. -/

/-- The address in an a register. -/
def fabAddr (x : Ctx) (r : BitVec 4) : Nat := (x.regs.getA r.toNat).toNat

/-- The checks of LDF and STF: slot mode and entry size, then rows 1 and 2 of R32 (R41, R149). -/
def fabExc (mode : Nat) (write : Bool) (i : CQ) (n : Nat) (s : State) : Option Exc :=
  if !(i.z == 0 && slotIs i.q.toNat mode (some 1) n s) then some .illegal
  else minExc (if write then tailExc i.q.toNat n s else none) <| statusExc (chk12 s (panelOf n) false write (fabAddr (s.ctx n) i.a) (2 ^ i.size.toNat))

/-- The smallest tag that no outstanding entry of the core uses. -/
def freeTag (c : Core) : Nat := (firstFrom (fun t => !c.outst.any (fun e => e.1 == t)) 1024 0).getD 1024

/-- Opens an outstanding entry and sends its request packet (R160, R173, R192). -/
def sendReq (n : Nat) (op : POp) (q : Req) (s : State) : State :=
  let c := s.core n
  let t := freeTag c
  let (b, e) := expectOf s q.addr
  let s := s.onCore n (fun c => { c with outst := Tab.set c.outst t { q with block := b, epoch := e } })
  launchPacket (mkRequest s (.core n) op q.addr q.len t q.ctx q.inv e q.data q.pois) s

/-- An outstanding entry with nothing answered. -/
def Req.new (x : Ctx) (k : Nat) (use : ReqUse) (addr len : Nat) : Req :=
  { ctx := k, inv := x.inv, list := none, desc := 0, use := use, addr := addr, block := 0, epoch := 0, len := len
    data := [], pois := [], status := 0, corrected := false, refusals := 0, phase := .sent }

/-- Reserves the tail entry of a slot for an LDF; a full slot in unchecked mode loses its oldest (R150,
R151). -/
def reserveTail (n q bytes : Nat) (s : State) : State :=
  let full := !((s.ctx n).slot q).hasSpace
  let s := if full then setHazard n q s else s
  s.onSlot n (s.core n).cur q (fun Q =>
    { Q with
      resv := Tab.set Q.resv Q.tail bytes
      done := Q.done &&& ~~~(1#64 <<< Q.tail)
      prod := (Q.prod + 1) % 256
      cons := if full then (Q.cons + 1) % 256 else Q.cons })

/-- LDF. -/
def opLdf (i : CQ) : SlotOp :=
  { SlotOp.nop with
    pushes := some i.q.toNat
    exc := fabExc 3 false i
    held := fun n s => slotIs i.q.toNat 3 (some 1) n s && pushHeld i.q.toNat n s
    run := fun n s0 s =>
      let x := s0.ctx n
      let q := i.q.toNat
      let pos := (x.slot q).tail
      sendReq n .read (Req.new x (s0.core n).cur (.ldf q pos) (fabAddr x i.a) (2 ^ i.size.toNat)) (reserveTail n q 16 s) }

/-- STF: the entry of R149 is complete at issue, and the engine sends it. -/
def opStf (i : CQ) : SlotOp :=
  { SlotOp.nop with
    pushes := some i.q.toNat
    exc := fabExc 4 true i
    held := fun n s => slotIs i.q.toNat 4 (some 1) n s && pushHeld i.q.toNat n s
    run := fun n s0 s =>
      let x := s0.ctx n
      let Q := x.slot i.q.toNat
      let bs := leBytes 8 (x.regs.getS i.s.toNat).toNat ++ leBytes 6 (fabAddr x i.a) ++ [BitVec.ofNat 8 i.size.toNat, 0]
      let s := slotPush n i.q.toNat (storeNow n 3 (atOff (Q.at_ Q.tail) bs) [] s)
      s.onCur n (fun x => { x with posted := x.posted + 1 }) }

/-- The slot forms that SRD reads: 8-byte IN entries and LDF entries (R149). -/
def srdOk (i : CQ) (n : Nat) (s : State) : Bool :=
  slotIs i.q.toNat 1 (some 0) n s || slotIs i.q.toNat 3 (some 1) n s

/-- SRD: an unserved or poisoned entry raises its exception as the data reach the core (R41, R170). -/
def opSrd (i : CQ) : SlotOp :=
  { SlotOp.nop with
    sport := true
    dests := [(0, i.s.toNat)]
    pops := some i.q.toNat
    exc := fun n s => if !(i.z == 0 && srdOk i n s) then some .illegal else headExc i.q.toNat n s
    held := fun n s => srdOk i n s && popHeld i.q.toNat n s
    run := fun n s0 s =>
      let x := s0.ctx n
      let Q := x.slot i.q.toNat
      let (r, s) := spdRead 0 n (Q.at_ Q.head) Q.bytes s
      let st := if Q.mode = 3 then leNat ((r.bytes.drop 8).take 1) else 0
      let s := slotPop n i.q.toNat s
      let e := if !r.bad.isEmpty then some .ue else statusExc st
      flyRes n 0 x.pc 1 (match e with
        | some e => .exc e
        | none => .s i.s.toNat (BitVec.ofNat 64 (leNat (r.bytes.take 8)))) s }

/-- SWR. -/
def opSwr (i : CQ) : SlotOp :=
  { SlotOp.nop with
    sport := true
    pushes := some i.q.toNat
    exc := fun n s => if !(i.z == 0 && slotIs i.q.toNat 2 (some 0) n s) then some .illegal else tailExc i.q.toNat n s
    held := fun n s => slotIs i.q.toNat 2 (some 0) n s && pushHeld i.q.toNat n s
    run := fun n s0 s =>
      let x := s0.ctx n
      let Q := x.slot i.q.toNat
      slotPush n i.q.toNat
        (storeNow n 3 (atOff (Q.at_ Q.tail) (leBytes 8 (x.regs.getS i.s.toNat).toNat)) [] s) }

/-! S-slot instructions (R152 to R154). -/

/-- The descriptor address of SQCFG. -/
def sqcfgOff (x : Ctx) (i : SqcfgF) : Int := dispOff (x.regs.getA i.a.toNat) i.off.toInt 32

/-- A slot from bits [63:0] of its descriptor (R148, R152). -/
def QSlot.ofWord (w : Nat) : QSlot :=
  { QSlot.init with base := fld w 22 0, esz := fld w 27 24, mode := fld w 30 28, depth := fld w 37 32 }

/-- The slot has an entry that a fill or an LDF has reserved and that is not done (R152). -/
def QSlot.busy (q : QSlot) : Bool := !q.resv.isEmpty

/-- The checks of SQCFG on the descriptor it loads (R152). -/
def sqcfgExc (c : Core) (w : Nat) : Option Exc :=
  let Q := QSlot.ofWord w
  if decide (14 ≤ Q.esz) || decide (5 ≤ Q.mode) || w.testBit 23 || w.testBit 31 || fld w 63 38 != 0 then some .illegal
  else
    let len := (Q.depth + 1) * Q.bytes
    excOf [(Q.base % 64 != 0, .addr), (decide (spdSize < Q.base + len), .addr),
      (inSave c Q.base len, .access), (inCode c c.ctx Q.base len, .access)]

/-- SQCFG. -/
def opSqcfg (i : SqcfgF) : SlotOp :=
  { SlotOp.nop with
    sport := true
    dests := [(6, i.q.toNat)]
    exc := fun n s =>
      let c := s.core n
      let o := sqcfgOff c.ctx i
      if (c.ctx.slot i.q.toNat).busy then some .illegal
      else
        match accessExc c o 32 32 false with
        | some e => some e
        | none => sqcfgExc c (leNat ((spdRead 1 n o.toNat 32 s).1.bytes.take 8))
    held := fun n s => offHeld n (sqcfgOff (s.ctx n) i) s
    run := fun n s0 s =>
      let x := s0.ctx n
      let o := (sqcfgOff x i).toNat
      let (r, s) := spdRead 1 n o 32 s
      flyRes n 3 x.pc (bankLat o 4 7) (.q i.q.toNat (QSlot.ofWord (leNat (r.bytes.take 8)))) s }

/-- The slot is in use (R152). -/
def slotUsed (q : BitVec 4) (n : Nat) (s : State) : Bool := ((s.ctx n).slot q.toNat).mode != 0

/-- SQCNT. -/
def opSqcnt (i : SqcntF) : SlotOp :=
  { SlotOp.nop with
    dests := [(0, i.d.toNat)]
    exc := fun n s => needs (i.z == 0 && slotUsed i.q n s)
    run := fun n s0 s =>
      let x := s0.ctx n
      let Q := x.slot i.q.toNat
      let free := Q.depth + 1 - (Q.prod + 256 - Q.cons) % 256
      flyRes n 3 x.pc 1 (.s i.d.toNat (BitVec.ofNat 64 (popcount 64 Q.done.toNat + 256 * free))) s }

/-- SHEAD. -/
def opShead (i : SaddrF) : SlotOp :=
  { SlotOp.nop with
    dests := [(1, i.ad.toNat)]
    heads := some i.q.toNat
    exc := fun n s => needs (i.z == 0 && slotIs i.q.toNat 1 none n s)
    held := fun n s => slotIs i.q.toNat 1 none n s && popHeld i.q.toNat n s
    run := fun n s0 s =>
      let x := s0.ctx n
      let Q := x.slot i.q.toNat
      flyRes n 3 x.pc 1 (.a i.ad.toNat (BitVec.ofNat 48 (spdKey n (Q.at_ Q.head)))) s }

/-- SPOP. -/
def opSpop (i : SqF) : SlotOp :=
  { SlotOp.nop with
    pops := some i.q.toNat
    exc := fun n s => needs (i.z == 0 && slotIs i.q.toNat 1 none n s)
    held := fun n s => slotIs i.q.toNat 1 none n s && popHeld i.q.toNat n s
    run := fun n _ s => slotPop n i.q.toNat s }

/-- STAIL. -/
def opStail (i : SaddrF) : SlotOp :=
  { SlotOp.nop with
    dests := [(1, i.ad.toNat)]
    exc := fun n s => needs (i.z == 0 && slotIs i.q.toNat 2 none n s)
    held := fun n s => slotIs i.q.toNat 2 none n s && pushHeld i.q.toNat n s
    run := fun n s0 s =>
      let x := s0.ctx n
      let Q := x.slot i.q.toNat
      flyRes n 3 x.pc 1 (.a i.ad.toNat (BitVec.ofNat 48 (spdKey n (Q.at_ Q.tail)))) s }

/-- SPUSH. -/
def opSpush (i : SqF) : SlotOp :=
  { SlotOp.nop with
    pushes := some i.q.toNat
    exc := fun n s => needs (i.z == 0 && slotIs i.q.toNat 2 none n s)
    held := fun n s => slotIs i.q.toNat 2 none n s && pushHeld i.q.toNat n s
    run := fun n _ s => slotPush n i.q.toNat s }

/-- SLIST: reads `next` and starts the list (R154). -/
def opSlist (i : SlistF) : SlotOp :=
  { SlotOp.nop with
    sport := true
    exc := fun n s =>
      let c := s.core n
      if !(i.z == 0) || (s.listAt n c.cur i.l.toNat).live then some .illegal
      else minExc (if aOff c.ctx i.a % 64 = 0 then none else some .addr) (rangeExc c c.ctx (aOff c.ctx i.a) 64 false)
    held := fun n s => refreshing s n (aOff (s.ctx n) i.a)
    run := fun n s0 s =>
      let cb := aOff (s0.ctx n) i.a
      let (r, s) := spdRead 1 n cb 64 s
      s.onList n (s.core n).cur i.l.toNat (fun L =>
        { L with
          cb := cb, next := fld (leNat (r.bytes.take 8)) 22 0, state := .running, fault := 0, completed := 0
          cur := none, acts := L.acts.map (fun a => { a with counted := false }) }) }

/-- SLSTOP: issue ends at once (R154). -/
def opSlstop (i : SlstopF) : SlotOp :=
  { SlotOp.nop with
    exc := fun _ _ => needs (i.z == 0)
    run := fun n _ s =>
      s.onList n (s.core n).cur i.l.toNat (fun L =>
        match L.state with
        | .running | .atMarker | .slotWait => { L with state := .stopping }
        | _ => L) }

/-- SLSTAT. -/
def opSlstat (i : SlstatF) : SlotOp :=
  { SlotOp.nop with
    dests := [(0, i.d.toNat)]
    exc := fun _ _ => needs (i.z == 0)
    run := fun n s0 s =>
      let L := s0.listAt n (s0.core n).cur i.l.toNat
      flyRes n 3 (s0.ctx n).pc 1 (.s i.d.toNat (BitVec.ofNat 64 (leNat ((controlBlock L).take 8)))) s }

/-- A stream-slot instruction as a slot. -/
def SIns.op : SIns → SlotOp
  | .nop _ => SlotOp.nop
  | .sqcfg i => opSqcfg i
  | .sqcnt i => opSqcnt i
  | .shead i => opShead i
  | .spop i => opSpop i
  | .stail i => opStail i
  | .spush i => opSpush i
  | .slist i => opSlist i
  | .slstop i => opSlstop i
  | .slstat i => opSlstat i

/-- The stream slot of a raw word. -/
def slotS (w : W32) : SlotOp := match SIns.ofWord w with | some i => i.op | none => SlotOp.undef

end Sys2Proof.Machine
end

