-- ==== Sys2Proof/Machine/Issue.lean ====
section
/-! DEFINITION. The issue of a bundle (R33, R34, R36, R37, R42 to R46, R55, R57): when a core may issue,
the checks, the interlocks, the effects of the four slots and the advance of the program counter. -/

namespace Sys2Proof.Machine

/-- A control-slot instruction as a slot; the sequencer-only ones are undefined in a core (R39). -/
def CIns.op : CIns → SlotOp
  | .nop _ => SlotOp.nop
  | .add i => (aluAdd i).op
  | .sub i => (aluSub i).op
  | .andS i => (aluAnd i).op
  | .orS i => (aluOr i).op
  | .xorS i => (aluXor i).op
  | .shl i => (aluShl i).op
  | .shr i => (aluShr i).op
  | .sra i => (aluSra i).op
  | .minS i => (aluMin i).op
  | .maxS i => (aluMax i).op
  | .mul i => (aluMul i).op
  | .mulh i => (aluMulh i).op
  | .cmp i => (aluCmp i).op
  | .sel i => (aluSel i).op
  | .addi i => (aluAddi i).op
  | .andi i => (aluAndi i).op
  | .lui i => (aluLui i).op
  | .ori i => (aluOri i).op
  | .amov i => (aluAmov i).op
  | .aget i => (aluAget i).op
  | .aadd i => (aluAadd i).op
  | .aaddi i => (aluAaddi i).op
  | .aform i => (aluAform i).op
  | .kmov i => opKmov i
  | .kget i => opKget i
  | .ktail i => opKtail i
  | .kop i => opKop i
  | .pop i => (aluPop i).op
  | .ld i => opLd i
  | .st i => opSt i
  | .ldf i => opLdf i
  | .stf i => opStf i
  | .srd i => opSrd i
  | .swr i => opSwr i
  | .br i => opBr i
  | .jmp i => opJmp i
  | .jr i => opJr i
  | .loop i => opLoop i
  | .loopi i => opLoopi i
  | .wait i => opWait i
  | .rest i => opRest i
  | .yield i => opBoundary i
  | .endC i => opBoundary i
  | .sig i => opSig i
  | .arrive i => opArrive i
  | .mfc i => opMfc i
  | .mtc i => opMtc i
  | .launch _ | .cswitch _ | .cstop _ | .xwake _ | .fset _ | .fclr _ | .fwait _ | .barrier _ | .prest _
  | .stepBegin _ | .stepEnd _ | .wdog _ | .cwait _ => SlotOp.undef

/-- The control slot of a raw word. -/
def slotC (c : Option CIns) : SlotOp := match c with | some i => i.op | none => SlotOp.undef

/-- The context boundary that a control slot asks for (R55). -/
def boundaryOf : Option CIns → Option Boundary
  | some (.yield _) => some .yieldB
  | some (.endC _) => some .endB
  | _ => none

/-- A panel runs its cores and sequencer (R28, R293, R295): powered, ACTIVE and not in reset. -/
def Panel.live (P : Panel) : Bool := decide (P.power = .active) && !P.lost && !P.shorted && !P.inReset

/-- Core `n` issues bundles: its context runs, nothing stops it, and no other bundle is held. -/
def canIssue (n : Nat) (b : Bundle) (s : State) : Bool :=
  let c := s.core n
  c.active && decide (c.ctx.state = .running) && c.wait.isNone && c.rest.isNone && c.boundary.isNone
    && c.halted.isNone && !haltAsked s n && !c.inReset && decide (c.power = .run) && (s.panel (panelOf n)).live && !isDead s n
    && (match c.held with | none => true | some h => decide (h = b))

/-- The four slots of a bundle, in the order C, M, V, S, with the boundary its control slot asks for. -/
structure Ops where
  c : SlotOp
  m : SlotOp
  v : SlotOp
  s : SlotOp
  bd : Option Boundary

def Ops.list (o : Ops) : List SlotOp := [o.c, o.m, o.v, o.s]

/-- Some slot is at an interlock (R45). -/
def Ops.held (o : Ops) (n : Nat) (s : State) : Bool := o.list.any (fun p => p.held n s)

/-- Some element of a list occurs twice. -/
def hasDup {α : Type} [DecidableEq α] : List α → Bool
  | [] => false
  | a :: t => t.contains a || hasDup t

/-- Slots that are not NOP words beside a whole-bundle instruction (R37). -/
def othersNop (b : Bundle) : Bool :=
  [b.m, b.v, b.s].all (fun w => w.extractLsb' 24 8 == 0)

/-- EXC_BUNDLE (R37): two names of one register are taken within one slot once, across slots never. -/
def Ops.illegal (o : Ops) (b : Bundle) : Bool :=
  (o.c.whole && !othersNop b) || (o.c.sport && o.s.sport)
    || hasDup (o.list.flatMap (fun p => p.dests.dedup))
    || hasDup (o.list.filterMap (fun p => p.pops))
    || hasDup (o.list.filterMap (fun p => p.pushes))

/-- The exception of a bundle at issue, with its slot (R57): the lowest rank, then the first slot. -/
def Ops.exc (o : Ops) (b : Bundle) (n : Nat) (s : State) : Option (Exc × Nat) :=
  if o.illegal b then some (.bundle, 0)
  else
    (o.list.zipIdx.filterMap (fun e => (e.1.exc n s).map (fun x => (x, e.2)))).foldl
      (fun (a : Option (Exc × Nat)) e =>
        match a with
        | none => some e
        | some v => if e.1.rank < v.1.rank then some e else some v) none

/-- The bundle at pc lies in the code region (R36). -/
def fetchOk (c : Core) : Bool := decide (16 * c.ctx.pc + 16 ≤ codeSize c c.ctx)

/-- Reads the line of the bundle at pc (R36, R144, R145): whether it was uncorrectable. -/
def fetchLine (n : Nat) (s : State) : Bool × State :=
  let c := s.core n
  let (r, s) := spdRead 0 n (codeBase c c.ctx + 16 * c.ctx.pc) 16 s
  (!r.bad.isEmpty, s)

/-- The effects of the four slots, each reading the state `s` as it stood; the vector port's immediate
writes come before the stream port's (R34, R130). -/
def Ops.run (o : Ops) (n : Nat) (s : State) : State :=
  o.s.run n s (o.c.run n s (o.v.run n s (o.m.run n s s)))

/-- The bundle has issued: pc, loop levels, delay bundles, ISSUE and the issue-cycle count (R34, R42,
R43); the bundle of a debug step asks the halt behind it (R375). -/
def issued (n pc : Nat) (s : State) : State :=
  let s := s.onCur n (fun x => { advancePc pc x with issue := x.issue + 1 })
  s.onCore n (fun c => { c with icyc := c.icyc + 1, held := none, haltReq := c.haltReq || c.stepReq, stepReq := false })

/-- Issues a bundle whose checks and interlocks let it. A write that the bundle makes at once is seen from the next
issue cycle on (R130). -/
def goIssue (n : Nat) (o : Ops) (s : State) : State :=
  let pc := (s.ctx n).pc
  let t := (s.core n).icyc
  let s := issued n pc (writesOf n t (o.run n (duringCycle n t s)))
  match o.bd with
  | none => s
  | some b => finishBoundary n (enterBoundary n b pc s)

/-- The exception of a bundle at issue, none of whose slots takes effect (R57). -/
def issueFault (n : Nat) (e : Exc) (slot : Nat) (s : State) : State :=
  contextFault n { exc := e, slot := slot, pc := (s.ctx n).pc } s

/-- From the start of the issue cycle on (R34, R36, R45, R57). -/
def issueAt (n : Nat) (b : Bundle) (o : Ops) (s : State) : State :=
  if !fetchOk (s.core n) then issueFault n .access 0 s
  else
    let (bad, s) := fetchLine n s
    if bad then issueFault n .ue 0 s
    else if o.held n s then s.onCore n (fun c => { c with held := some b, late := c.late && c.held.isSome })
    else
      match o.exc b n s with
      | some (e, k) => issueFault n e k s
      | none => goIssue n o s

/-- One attempt to issue a bundle: the issue cycle's earlier work comes first, and a late exception found
there stops the context (R58). -/
def issueOps (n : Nat) (b : Bundle) (o : Ops) (s : State) : State :=
  if !canIssue n b s then s
  else
    match catchUp n s with
    | (s, some r) => contextFault n r s
    | (s, none) => issueAt n b o s

/-- The slots of a bundle of raw words. -/
def rawOps (b : Bundle) : Ops :=
  let ci := CIns.ofWord b.c
  { c := slotC ci, m := slotM b.m, v := slotV b.v, s := slotS b.s, bd := boundaryOf ci }

/-- Issues a bundle given as raw words. -/
def issueRaw (n : Nat) (b : Bundle) (s : State) : State := issueOps n b (rawOps b) s

/-- Issues a bundle whose control slot is given. -/
def issueC (n : Nat) (i : CIns) (m v t : W32) (s : State) : State :=
  issueOps n { c := i.word, m := m, v := v, s := t }
    { c := i.op, m := slotM m, v := slotV v, s := slotS t, bd := boundaryOf (some i) } s

/-- Issues a bundle whose matrix slot is given. -/
def issueM (n : Nat) (i : MIns) (c v t : W32) (s : State) : State :=
  issueOps n { c := c, m := i.word, v := v, s := t }
    { c := slotC (CIns.ofWord c), m := i.op, v := slotV v, s := slotS t, bd := boundaryOf (CIns.ofWord c) } s

/-- Issues a bundle whose vector slot is given. -/
def issueV (n : Nat) (i : VIns) (c m t : W32) (s : State) : State :=
  issueOps n { c := c, m := m, v := i.word, s := t }
    { c := slotC (CIns.ofWord c), m := slotM m, v := i.op, s := slotS t, bd := boundaryOf (CIns.ofWord c) } s

/-- Issues a bundle whose stream slot is given. -/
def issueS (n : Nat) (i : SIns) (c m v : W32) (s : State) : State :=
  issueOps n { c := c, m := m, v := v, s := i.word }
    { c := slotC (CIns.ofWord c), m := slotM m, v := slotV v, s := i.op, bd := boundaryOf (CIns.ofWord c) } s

/-! Commands of the instruction stream that are no issue (R34, R45, R49, R51, R55, R58). -/

/-- Whether a result in flight is a detected exception. -/
def Res.isExc (r : Res) : Bool := match r.w with | .exc _ => true | _ => false

/-- Results due by the next issue cycle retire now (R34). -/
def retireNow (n : Nat) (s : State) : State :=
  let cyc := (s.core n).icyc
  let now := fun (r : Res) => decide (r.due ≤ cyc) && !r.isExc
  let due := sortRes ((s.core n).flight.filter now)
  let s := s.onCore n (fun c =>
    { c with
      flight := c.flight.filter (fun r => !now r)
      wcollide := sat 4 (c.wcollide + collisions due) })
  due.foldl (fun s r => applyRes n r.w s) s

/-- A detected exception in flight stops the context when its issue cycle comes (R58). -/
def lateNow (n : Nat) (s : State) : State :=
  let c := s.core n
  if c.active && c.boundary.isNone && c.flight.any (fun r => decide (r.due ≤ c.icyc) && r.isExc) then
    match catchUp n s with
    | (s, some r) => contextFault n r s
    | (s, none) => s
  else s

/-- A WAIT completes on its event or at its timeout (R49); of kind 0 the expiry counts as the timeout (log entry 95). -/
def waitDone (n : Nat) (s : State) : State :=
  let c := s.core n
  match c.wait with
  | none => s
  | some w =>
    let ev := eventNow n w.kind w.arg s
    let out := decide (w.ticks ≠ 0) && decide (w.since + w.ticks ≤ s.now)
    let fin := fun (v : Bool) (s : State) =>
      let s := flyRes n 0 w.pc 0 (.p w.pd v) s
      let s := s.onCur n (fun x => { x with state := .running })
      s.onCore n (fun c => { c with wait := none })
    if (ev || out) && w.kind == 5 && c.ctx.postExc.isSome then
      match c.ctx.postExc with
      | some e => contextFault n { exc := e, slot := 0, pc := w.pc } (s.onCur n (fun x => { x with postExc := none }))
      | none => s
    else if ev then fin true (consumeEvent n w.kind s)
    else if out then fin false s
    else s

end Sys2Proof.Machine
end

