-- ==== Sys2Proof/Machine/Engine.lean ====
section
/-! DEFINITION. The stream engine of a core (R154 to R161, R165, R168 to R171, R187, R189): descriptors and
their checks, requests, landings, transforms, completions. -/

namespace Sys2Proof.Machine

/-- A descriptor from its 32 bytes (R155). -/
def Desc.ofBytes (b : List Byte) : Desc :=
  let w := leNat b
  { kind := fld w 3 0, xf := fld w 7 4, srcSlot := w.testBit 8, dstSlot := w.testBit 9, qSrc := fld w 13 10
    qDst := fld w 17 14, flag := fld w 23 18, z1 := fld w 31 24, src := fld w 79 32, dst := fld w 127 80
    rowBytes := fld w 151 128, rows := fld w 167 152, srcStride := fld w 207 168, dstStride := fld w 247 208
    z2 := fld w 255 248 }

/-- Raw bytes of a descriptor. -/
def Desc.total (d : Desc) : Nat := d.rowBytes * (d.rows + 1)

/-- R168 and R169 on the fields of a transform. -/
def Desc.xfOk (d : Desc) : Bool :=
  match d.xf with
  | 0 => true
  | 4 => (d.rows + 1) % 16 == 0 && d.rowBytes % 16 == 0 && d.dstStride == 0
  | 5 => (d.rows + 1) % 16 == 0 && d.rowBytes % 32 == 0 && d.dstStride == 0
  | _ => d.rowBytes % unitBytes d.xf == 0 && d.dstStride == 0

/-- Output bytes of a descriptor (R168, R169). -/
def Desc.outTotal (d : Desc) : Nat :=
  if 1 ≤ d.xf ∧ d.xf ≤ 3 ∧ d.xfOk then d.total / unitBytes d.xf * 1024 else d.total

/-- The address of byte 0 of row r at source (COPY) and destination. -/
def Desc.srcRow (d : Desc) (r : Nat) : Nat := d.src + r * d.srcStride
def Desc.dstRow (d : Desc) (r : Nat) : Nat := d.dst + r * (if d.kind = 2 then d.rowBytes else d.dstStride)

/-- The offset of a GATHER's index list (R155). -/
def Desc.idxList (d : Desc) : Nat := d.dstStride % 2 ^ 23

/-- Zero and unused fields (R155, R158). -/
def Desc.shapeOk (d : Desc) : Bool :=
  let noXfer := d.xf == 0 && !d.srcSlot && !d.dstSlot && d.qSrc == 0 && d.qDst == 0 && d.dst == 0
    && d.rowBytes == 0 && d.rows == 0 && d.srcStride == 0 && d.dstStride == 0
  let ends := (d.srcSlot || d.qSrc == 0) && (d.dstSlot || d.qDst == 0)
    && (!d.srcSlot || (d.src == 0 && d.srcStride == 0)) && (!d.dstSlot || d.dst == 0)
  decide (d.kind < 6) && decide (d.xf < 6) && d.z1 == 0 && d.z2 == 0 &&
    (match d.kind with
     | 0 => noXfer && d.flag == 0 && d.src == 0
     | 1 => ends && d.flag == 0 && d.rowBytes != 0 && (!d.dstSlot || d.dstStride == 0)
     | 2 => ends && d.flag == 0 && d.rowBytes != 0 && !d.srcSlot && decide (d.dstStride < 2 ^ 23)
     | 5 => noXfer && d.flag == 0 && decide (d.src < 2 ^ 23)
     | _ => noXfer && d.src == 0)

/-- Rows 1 and 2 of R32, the save areas of the own core (R53) and control space as an endpoint, for one
range of a stream. -/
def streamChk (s : State) (n : Nat) (write : Bool) (a len : Nat) : Nat :=
  match chk12 s (panelOf n) false write a len with
  | 0 =>
    match targetOf a len with
    | some (.spd m off) => if m = n ∧ inSave (s.core n) off len then 0x0F else 0
    | some (.ctl _ _ _) => 0x0F
    | _ => 0
  | st => st

/-- The first status that is not 0. -/
def firstBad (l : List Nat) : Nat := (l.find? (· != 0)).getD 0

/-- The reduction entry of the sending core under which a COPY is a reduction send (R187). -/
def redEntry (c : Core) (d : Desc) : Option Nat :=
  if d.kind ≠ 1 ∨ d.dstSlot then none
  else
    match targetOf d.dst 1 with
    | some (.spd m off) =>
      let top := if d.xf = 0 then off + d.rows * d.dstStride + d.rowBytes else off + d.outTotal
      (List.range 16).find? (fun r =>
        let e := (Tab.get 0 c.red r).toNat
        e.testBit 63 && decide (fld e 10 0 * 4096 ≤ off) && decide (top ≤ (fld e 21 11 + 1) * 4096)
          && decide (fld e 55 48 ≤ cxOf m) && decide (cxOf m ≤ fld e 39 32)
          && decide (fld e 47 40 ≤ cyOf m) && decide (cyOf m ≤ fld e 31 24))
    | _ => none

/-- The slot checks of R158, on the bytes after any transform for either endpoint. -/
def slotChk (x : Ctx) (d : Desc) : Bool :=
  (!d.srcSlot || ((x.slot d.qSrc).mode == 2 && d.outTotal % (x.slot d.qSrc).bytes == 0))
    && (!d.dstSlot || ((x.slot d.qDst).mode == 1 && d.outTotal % (x.slot d.qDst).bytes == 0))

/-- The checks of R158 in the order of its table: 0, or the status of the fault. -/
def descCheck (n : Nat) (d : Desc) (s : State) : Nat :=
  let c := s.core n
  if !d.shapeOk then 0x03
  else if d.kind = 5 then (if d.src % 32 ≠ 0 ∨ spdSize ≤ d.src then 0x03 else 0)
  else if d.kind = 1 ∨ d.kind = 2 then
    let rows := List.range (d.rows + 1)
    let srcs := if d.srcSlot || d.kind == 2 then [] else rows.map (fun r => streamChk s n false (d.srcRow r) d.rowBytes)
    let dsts := if d.dstSlot then []
      else if d.xf ≠ 0 then [streamChk s n true d.dst d.outTotal]
      else rows.map (fun r => streamChk s n true (d.dstRow r) d.rowBytes)
    let idx := d.kind == 2 && decide (spdSize < d.idxList + 4 * (d.rows + 1))
    let stackDst := match targetOf d.dst 1 with | some (.stk _ _) => !d.dstSlot | _ => false
    let spdDst := match targetOf d.dst 1 with | some (.spd _ _) => true | _ => false
    if !slotChk c.ctx d then 0x03
    else if firstBad (srcs ++ dsts) ≠ 0 then firstBad (srcs ++ dsts)
    else if idx then 0x03
    else if d.kind = 2 ∧ (fld d.src 47 46 = 2 ∨ inSave c d.idxList (4 * (d.rows + 1))) then 0x0F
    else if stackDst && (d.dst % 512 != 0 || d.rowBytes % 512 != 0 || (d.kind == 1 && d.dstStride % 512 != 0)) then 0x03
    else if d.xf ≠ 0 ∧ (!d.xfOk || !(d.dstSlot || spdDst)) then 0x03
    else if (redEntry c d).isSome && (d.dst % 128 != 0 || d.dstStride % 128 != 0 || d.rowBytes % 128 != 0 || d.srcSlot || d.xf != 0) then 0x03
    else 0
  else 0

/-- The engine of core `n` works for the lists of its context: what they have issued goes on at a boundary too, and before
a halt is complete (R171, R375). -/
def engineWorks (n : Nat) (s : State) : Bool :=
  let c := s.core n
  c.active && !c.isHalted && !c.inReset && (decide (c.power = .run) || decide (c.power = .idle)) && (s.panel (panelOf n)).live && !isDead s n

/-- The engine of core `n` issues for its context's lists (R171): the context is resident on the core and
not at a boundary. -/
def engineRuns (n : Nat) (s : State) : Bool :=
  engineWorks n s && (s.core n).boundary.isNone && (s.core n).halted.isNone && !ctxQuiesced s n

/-- Adds the poisoned entries of a faulted descriptor (R158). -/
def faultEntries (n k : Nat) (d : Desc) (s : State) : State :=
  let Q := (s.ctxAt n k).slot d.qDst
  if (d.kind = 1 ∨ d.kind = 2) ∧ d.dstSlot ∧ Q.mode = 1 then
    let m := ceilDiv d.outTotal Q.bytes
    payOwed n k d.qDst 64 (s.onSlot n k d.qDst (fun Q => { Q with owed := Q.owed + m }))
  else s

/-- The counters of a context. -/
def onCountsAt (n k : Nat) (f : Counts → Counts) (s : State) : State :=
  s.onCtx n k (fun x => { x with counts := f x.counts })

/-- Records a status in STR_STAT.fault_st if it is empty (R158, R170). -/
def recordFaultSt (n k st : Nat) (s : State) : State :=
  onCountsAt n k (fun c => { c with faultSt := if c.faultSt = 0 then st else c.faultSt }) s

/-- A descriptor faults its list (R158). -/
def descFault (n k l st : Nat) (d : Desc) (s : State) : State :=
  let s := s.onList n k l (fun L => { L with state := .fault, fault := st, cur := none })
  let s := onCountsAt n k (fun c => { c with listFault := c.listFault ||| (1#4 <<< l) }) s
  let s := recordFaultSt n k st s
  writeBlock n k l (faultEntries n k d s)

/-- The descriptor that list `l` of the current context has reached: none while the list is not RUNNING or
is issuing a transfer; its bytes, and whether their line was uncorrectable. The bytes at `next` are used as they stand,
misaligned or past the scratchpad too (log entry 135). -/
def reached (n l : Nat) (s : State) : Option (Desc × Bool × State) :=
  let L := s.listAt n (s.core n).cur l
  if engineRuns n s && decide (l < 4) && decide (L.state = .running) && L.cur.isNone then
    let (r, s) := spdRead 1 n L.next 32 s
    some (Desc.ofBytes r.bytes, !r.bad.isEmpty, s)
  else none

/-- An act of a descriptor that completes by itself. -/
def Act.blank (id : Nat) : Act := { id := id, out := 0, issued := true, signal := none, counted := true }

/-- Removes the leading acts that are complete, counting them (R154 `completed`); a SIGNAL waits for
SIGNAL_FIRE. A transform is complete when its output has landed. -/
def settle (L : SList) : SList :=
  let ended := fun (a : Act) => a.issued && a.out == 0 && a.signal.isNone && !L.xfs.any (fun x => x.1 == a.id)
  { L with
    acts := L.acts.filter (fun a => !ended a)
    completed := L.completed + (L.acts.filter (fun a => ended a && a.counted)).length }

/-- Moves to the next descriptor, 32 bytes on, counting the one reached as complete. -/
def passDesc (n k l : Nat) (s : State) : State :=
  s.onList n k l (fun L => { L with next := (L.next + 32) % 2 ^ 23, completed := L.completed + 1 })

/-- END: the list becomes DONE (R154, R156). -/
def descEndNow (n l : Nat) (s : State) : State :=
  match reached n l s with
  | none => s
  | some (d, bad, s) =>
    if d.kind ≠ 0 then s
    else
      let k := (s.core n).cur
      let st := if bad then 0x09 else descCheck n d s
      if st ≠ 0 then descFault n k l st d s
      else writeBlock n k l (s.onList n k l (fun L => { L with state := .done, completed := L.completed + 1 }))

/-- Starts a transfer (R156, R160). -/
def startXfer (n l : Nat) (d : Desc) (s : State) : State :=
  let k := (s.core n).cur
  s.onList n k l (fun L =>
    let x : Xfer :=
      { id := L.nid, d := d, row := 0, byte := 0, total := 0, raw := [], rawPois := [], outDone := 0, gath := [], gathP := []
        nEnt := 0, ents := [], red := redEntry (s.core n) d, fixed := [] }
    { L with
      next := (L.next + 32) % 2 ^ 23, nid := L.nid + 1, cur := some x
      xfs := if d.xf = 0 ∧ x.red.isNone then L.xfs else Tab.set L.xfs L.nid x
      acts := L.acts ++ [{ Act.blank L.nid with issued := false }] })

/-- COPY and GATHER are reached, and reserved kinds fault here (R156, R158). -/
def descXferNow (kinds : Nat → Bool) (n l : Nat) (s : State) : State :=
  match reached n l s with
  | none => s
  | some (d, bad, s) =>
    if !kinds d.kind then s
    else
      let st := if bad then 0x09 else descCheck n d s
      if st ≠ 0 then descFault n (s.core n).cur l st d s else startXfer n l d s

/-- STITCH (R159). -/
def descStitchNow (n l : Nat) (s : State) : State :=
  match reached n l s with
  | none => s
  | some (d, bad, s) =>
    if d.kind ≠ 3 then s
    else
      let k := (s.core n).cur
      let st := if bad then 0x09 else descCheck n d s
      if st ≠ 0 then descFault n k l st d s
      else if (s.seq (panelOf n)).flags.getLsbD d.flag then passDesc n k l s
      else s.onList n k l (fun L => { L with state := .atMarker })

/-- A list at a marker passes it once its flag is set (R159). -/
def markerPassNow (n l : Nat) (s : State) : State :=
  let k := (s.core n).cur
  let L := s.listAt n k l
  if engineRuns n s && decide (l < 4) && decide (L.state = .atMarker) then
    let (r, s) := spdRead 1 n L.next 32 s
    let d := Desc.ofBytes r.bytes
    if (s.seq (panelOf n)).flags.getLsbD d.flag then
      passDesc n k l (s.onList n k l (fun L => { L with state := .running }))
    else s
  else s

/-- SIGNAL (R156): its flag is set once every earlier descriptor is complete. -/
def descSignalNow (n l : Nat) (s : State) : State :=
  match reached n l s with
  | none => s
  | some (d, bad, s) =>
    if d.kind ≠ 4 then s
    else
      let k := (s.core n).cur
      let st := if bad then 0x09 else descCheck n d s
      if st ≠ 0 then descFault n k l st d s
      else s.onList n k l (fun L =>
        { L with
          next := (L.next + 32) % 2 ^ 23, nid := L.nid + 1
          acts := L.acts ++ [{ Act.blank L.nid with signal := some d.flag }] })

/-- The oldest open descriptor of list `l` is a SIGNAL: it sets its flag (R156). -/
def signalFireNow (n l : Nat) (s : State) : State :=
  let k := (s.core n).cur
  match (s.listAt n k l).acts with
  | a :: t =>
    match a.signal with
    | some f =>
      let s := s.onList n k l (fun L => { L with acts := t, completed := L.completed + b2n a.counted })
      s.onSeq (panelOf n) (fun q => { q with flags := q.flags ||| (1#64 <<< f) })
    | none => s
  | [] => s

/-- LINK (R156). -/
def descLinkNow (n l : Nat) (s : State) : State :=
  match reached n l s with
  | none => s
  | some (d, bad, s) =>
    if d.kind ≠ 5 then s
    else
      let k := (s.core n).cur
      let st := if bad then 0x09 else descCheck n d s
      if st ≠ 0 then descFault n k l st d s
      else s.onList n k l (fun L => { L with next := d.src, completed := L.completed + 1 })

/-! Requests (R160). -/

/-- Poison by 64-byte granule of `len` bytes, from the poison of each byte. -/
def granules (len : Nat) (f : Nat → Bool) : List Bool :=
  (List.range (ceilDiv len 64)).map (fun g => (List.range (min 64 (len - 64 * g))).any (fun i => f (64 * g + i)))

/-- Requests of the lists of a core still outstanding (R160). -/
def listOut (c : Core) : Nat := (c.outst.filter (fun e => e.2.list.isSome)).length

/-- A request of list `l` to the stack of panel `p` waits to retry (R165). -/
def retryBlocks (c : Core) (l p : Nat) : Bool :=
  c.outst.any (fun e => e.2.list == some l && e.2.ctx == c.cur &&
    (match e.2.phase with | .retry _ => true | _ => false) &&
    (match targetOf e.2.addr 1 with | some (.stk q _) => q == p | _ => false))

/-- The source of the next bytes of a transfer: bytes at hand, with their poison and whether a far-bank error was
corrected in them (R47), or an address to read. -/
inductive From where
  | bytes (data : List Byte) (pois : List Bool) (fixed : Bool)
  | remote (addr : Nat)
deriving DecidableEq, Repr

/-- An entry in the outstanding table, for a list's descriptor. -/
def Req.listNew (x : Ctx) (k l id : Nat) (use : ReqUse) (addr len : Nat) : Req :=
  { Req.new x k use addr len with list := some l, desc := id }

/-- Opens an entry whose data are at hand. -/
def localReq (n : Nat) (q : Req) (s : State) : State :=
  s.onCore n (fun c => { c with outst := Tab.set c.outst (freeTag c) { q with phase := .replied } })

/-- One more request of a descriptor is out. -/
def moreOut (n k l id : Nat) (s : State) : State :=
  s.onList n k l (fun L =>
    { L with acts := L.acts.map (fun a => if a.id = id then { a with out := a.out + 1 } else a) })
/-- One request of a descriptor has completed. -/
def lessOut (n k l id : Nat) (s : State) : State :=
  s.onList n k l (fun L =>
    settle { L with acts := L.acts.map (fun a => if a.id = id then { a with out := a.out - 1 } else a) })

/-- Issues one request of a descriptor: `src` and what becomes of the bytes; `late` where an error was corrected in what
led to it (R47). -/
def sendPart (n k l id len : Nat) (src : From) (late : Bool) (use : ReqUse) (dst : Nat) (s : State) : State :=
  let x := s.ctxAt n k
  let s := moreOut n k l id s
  match src with
  | .bytes data pois fixed =>
    match use with
    | .write => sendReq n .write { Req.listNew x k l id .write dst len with data := data, pois := pois } s
    | _ => localReq n { Req.listNew x k l id use dst len with data := data, pois := pois, corrected := fixed || late } s
  | .remote a =>
    let use := match use with | .write => .copyOut dst | u => u
    sendReq n .read { Req.listNew x k l id use a len with corrected := late } s

/-- Free entries of a slot (R150). -/
def QSlot.free (Q : QSlot) : Nat := Q.depth + 1 - (Q.prod + 256 - Q.cons) % 256

/-- Bytes that the entries a fill has reserved beyond output byte `o`, and the free ones, still take (R150). -/
def Xfer.room (x : Xfer) (Q : QSlot) (o : Nat) : Nat := (x.nEnt + Q.free) * Q.bytes - o

/-- Reserves entries for a fill, in the order of its bytes, until `m` are reserved (R150). -/
def reserveEnts (n k m : Nat) (x : Xfer) (s : State) : Xfer × State :=
  let q := x.d.qDst
  let Q := (s.ctxAt n k).slot q
  let new := List.range (m - x.nEnt)
  let pos := fun (j : Nat) => (Q.prod + j) % 256 % (Q.depth + 1)
  ({ x with nEnt := x.nEnt + new.length, ents := new.foldl (fun t j => Tab.set t (x.nEnt + j) (pos j)) x.ents },
   s.onSlot n k q (fun Q =>
    { Q with resv := new.foldl (fun t j => Tab.set t (pos j) Q.bytes) Q.resv, prod := (Q.prod + new.length) % 256 }))

/-- The runs of the ring that output bytes [o, o + len) of a fill enter, one for each entry: first byte and length. -/
def Xfer.runs (x : Xfer) (B o len : Nat) : List (Nat × Nat) :=
  (span (o / B) (ceilDiv (o + len) B - o / B)).map (fun e =>
    let lo := max o (e * B)
    (Tab.get 0 x.ents e * B + (lo - e * B), min (o + len) ((e + 1) * B) - lo))

/-- The entries of a fill below output byte `o` are filled. -/
def Xfer.dropEnts (x : Xfer) (B o : Nat) : Xfer := { x with ents := x.ents.filter (fun e => decide (o / B ≤ e.1)) }

/-- Bytes that the done entries of an OUT slot offer a transfer that has taken `total` bytes. -/
def slotAvail (Q : QSlot) (total : Nat) : Nat :=
  let n := ((List.range (Q.depth + 1)).takeWhile (fun j => Q.done.getLsbD ((Q.cons + j) % 256 % (Q.depth + 1)))).length
  n * Q.bytes - total % Q.bytes

/-- A far-bank error was corrected in a read of a scratchpad (R47, R134). -/
def Rd.late (r : Rd) (off len : Nat) : Bool := r.corrected && decide (0x180000 < off + len)

/-- Takes `len` bytes from the done entries of an OUT slot, removing the entries used up (R150): the bytes with
their poison, and whether a far-bank error was corrected in them. -/
def takeSlot (n k q total len : Nat) (s : State) : List (Byte × Bool) × Bool × State :=
  let Q := (s.ctxAt n k).slot q
  let part := total % Q.bytes
  let ents := ceilDiv (part + len) Q.bytes
  let (bs, fixed, s) := (List.range ents).foldl (fun (a : (List (Byte × Bool)) × Bool × State) j =>
    let o := Q.at_ ((Q.cons + j) % 256 % (Q.depth + 1))
    let (r, s) := spdRead 1 n o Q.bytes a.2.2
    (a.1 ++ r.bytes.zipIdx.map (fun e => (e.1, r.badAt (o + e.2) 1)), a.2.1 || r.late o Q.bytes, s)) ([], false, s)
  let gone := (part + len) / Q.bytes
  let s := s.onSlot n k q (fun Q =>
    { Q with
      done := (List.range gone).foldl (fun d j => d &&& ~~~(1#64 <<< ((Q.cons + j) % 256 % (Q.depth + 1)))) Q.done
      cons := (Q.cons + gone) % 256 })
  ((bs.drop part).take len, fixed, s)

/-- The source row of a GATHER (R156, R170): its address, a row of clean zeros, or a row of poisoned
zeros. -/
inductive Row where
  | at_ (addr : Nat)
  | zeros (pois : Bool)
deriving DecidableEq, Repr

/-- The source row of a GATHER by its index, and whether a far-bank error was corrected in the index (R47). -/
def gatherRow (n : Nat) (d : Desc) (row : Nat) (s : State) : Row × Bool × State :=
  let (r, s) := spdRead 1 n (d.idxList + 4 * row) 4 s
  let i := leNat r.bytes
  let a := d.src + i * d.srcStride
  let late := r.late (d.idxList + 4 * row) 4
  if !r.bad.isEmpty then (.zeros true, late, s)
  else if i = 0xFFFFFFFF then (.zeros false, late, s)
  else if streamChk s n false a d.rowBytes ≠ 0 then (.zeros true, late, s)
  else (.at_ a, late, s)

/-- Reads the own scratchpad for a request. -/
def ownBytes (n off len : Nat) (s : State) : From × State :=
  let (r, s) := spdRead 1 n off len s
  (.bytes r.bytes (granules len (fun i => r.badAt (off + i) 1)) (r.late off len), s)

/-- The bytes at a source address: of the own scratchpad at once, else by a read request. -/
def fromAddr (n a len : Nat) (s : State) : From × State :=
  match targetOf a 1 with
  | some (.spd m off) => if m = n then ownBytes n off len s else (.remote a, s)
  | _ => (.remote a, s)

/-- Moves a transfer on by `len` bytes. -/
def Xfer.advance (x : Xfer) (len : Nat) : Xfer :=
  if x.byte + len ≥ x.d.rowBytes then { x with row := x.row + 1, byte := 0, total := x.total + len }
  else { x with byte := x.byte + len, total := x.total + len }

/-- Records the progress of a list's transfer; after the last row the list goes on to its next
descriptor. -/
def progress (n k l : Nat) (x : Xfer) (s : State) : State :=
  s.onList n k l (fun L =>
    if x.row > x.d.rows then
      settle { L with
        cur := none, state := if L.state = .slotWait then .running else L.state
        acts := L.acts.map (fun a => if a.id = x.id then { a with issued := true } else a) }
    else { L with cur := some x, state := if L.state = .slotWait then .running else L.state })

/-- The list waits for slot space or for a done entry (R159). -/
def slotWaits (n k l : Nat) (s : State) : State := s.onList n k l (fun L => { L with state := .slotWait })

/-- The output byte of a transform up to which raw bytes [0, e) reach in the order of a request's rows (R168, R169). -/
def Xfer.outUpto (x : Xfer) (e : Nat) : Nat :=
  if x.d.xf ≤ 3 then
    let u := unitBytes x.d.xf
    e / u * 1024 + min 1024 ((if x.d.xf = 1 then 4 else 2) * (e % u))
  else
    let el := x.d.xf - 3
    let row := (e - 1) / x.d.rowBytes
    let col := (e - 1) % x.d.rowBytes / el
    row / 16 * 16 * x.d.rowBytes + col / 16 * 256 * el + (16 * (col % 16) + row % 16 + 1) * el

/-- A transform that fills a slot reserves the entries for which its next request, up to raw byte `e`, is the first
(R150). Where the slot cannot hold them beside those it has reserved, and none of these fills from what has issued, they
are reserved as they land; none where the list waits. -/
def reserveXf (n k l : Nat) (x : Xfer) (e : Nat) (s : State) : Option State :=
  let Q := (s.ctxAt n k).slot x.d.qDst
  let X := Tab.get x (s.listAt n k l).xfs x.id
  let m := ceilDiv (X.outUpto e) Q.bytes
  if m - X.nEnt ≤ Q.free then
    let (X, s) := reserveEnts n k m X s
    some (s.onList n k l (fun L => { L with xfs := Tab.set L.xfs x.id X }))
  else
    let fills := X.ents.any (fun e => decide ((e.1 + 1) * Q.bytes ≤ X.readyFrom x.total))
    if Q.depth + 1 < X.ents.length + (m - X.nEnt) ∧ !fills then some s else none

/-- What becomes of the bytes of a request: the use, the transfer with its reservations, the state; none where the
request must wait for slot space (R150, R156). -/
def useOf (n k l : Nat) (x : Xfer) (len dst : Nat) (s : State) : Option (ReqUse × Xfer × State) :=
  if x.d.xf ≠ 0 then
    let use := ReqUse.raw x.id x.total
    if x.d.dstSlot then (reserveXf n k l x (x.total + len) s).map (fun s => (use, x, s)) else some (use, x, s)
  else if x.d.dstSlot then
    let B := ((s.ctxAt n k).slot x.d.qDst).bytes
    let (x, s) := reserveEnts n k (ceilDiv (x.total + len) B) x s
    some (.slot x.d.qDst (x.runs B x.total len), x.dropEnts B (x.total + len), s)
  else if x.red.isSome then some (.raw x.id x.total, x, s)
  else
    match targetOf dst 1 with
    | some (.spd m off) => some (if m = n then .land off else .write, x, s)
    | _ => some (.write, x, s)

/-- A request must not go to the stack at an address while one of its list waits to retry there (R165). -/
def stackBlocked (n l a : Nat) (s : State) : Bool :=
  match targetOf a 1 with | some (.stk p _) => retryBlocks (s.core n) l p | _ => false

/-- The bytes of a source row are at hand: they lie in the own scratchpad, or are the zeros of a GATHER. -/
def Row.here (n : Nat) : Row → Bool
  | .zeros _ => true
  | .at_ a => match targetOf a 1 with | some (.spd m _) => m == n | _ => false

/-- One request of a transfer whose source is no slot. While a request of the list waits to retry at a stack it sends
none there; a read from elsewhere goes on (R165). -/
def issueFromMem (n k l : Nat) (x : Xfer) (src : Row) (late : Bool) (s : State) : State :=
  let d := x.d
  let dst := d.dstRow x.row + x.byte
  let toStack := !d.dstSlot && (match targetOf dst 1 with | some (.stk _ _) => true | _ => false)
  let a := match src with | .at_ a => a + x.byte | .zeros _ => 0
  let lim := if toStack then 512 - dst % 512 else 512 - a % 512
  let len := min (d.rowBytes - x.byte) lim
  let room := if d.dstSlot ∧ d.xf = 0 then x.room ((s.ctxAt n k).slot d.qDst) x.total else len
  let len := min len room
  if len = 0 then slotWaits n k l s
  else if (match src with | .at_ _ => stackBlocked n l a s | .zeros _ => false) || (toStack && src.here n && stackBlocked n l dst s) then s
  else
    match useOf n k l x len dst s with
    | none => slotWaits n k l s
    | some (use, x, s) =>
      let (f, s) := match src with
        | .at_ _ => fromAddr n a len s
        | .zeros p => (From.bytes (List.replicate len 0) (List.replicate (ceilDiv len 64) p) false, s)
      progress n k l (x.advance len) (sendPart n k l x.id len f late use dst s)

/-- Bytes of the ring of an OUT slot from its next byte to a 512-byte boundary of their address, or to the end of the ring
(R160; log entry 136). -/
def QSlot.reach (Q : QSlot) (part : Nat) : Nat :=
  let a := Q.at_ Q.head + part
  min (512 - a % 512) (Q.base + (Q.depth + 1) * Q.bytes - a)

/-- One request of a transfer whose source is an OUT slot; a whole unit is gathered for a stack (R160). -/
def issueFromSlot (n k l : Nat) (x : Xfer) (s : State) : State :=
  let d := x.d
  let dst := d.dstRow x.row + x.byte
  let toStack := !d.dstSlot && (match targetOf dst 1 with | some (.stk _ _) => true | _ => false)
  let taken := x.total + x.gath.length
  let Q := (s.ctxAt n k).slot d.qSrc
  let lim := if toStack then 512 - dst % 512 else Q.reach (taken % Q.bytes)
  let want := min (d.rowBytes - x.byte) lim
  let room := if d.dstSlot ∧ d.xf = 0 then x.room ((s.ctxAt n k).slot d.qDst) x.total else want
  let len := min (min want room - x.gath.length) (slotAvail ((s.ctxAt n k).slot d.qSrc) taken)
  if len = 0 then slotWaits n k l s
  else if toStack && stackBlocked n l dst s then s
  else if toStack ∧ x.gath.length + len < want then
    let (bs, _, s) := takeSlot n k d.qSrc taken len s
    s.onList n k l (fun L => { L with cur := some { x with gath := x.gath ++ bs.map (·.1), gathP := x.gathP ++ bs.map (·.2) } })
  else
    let len' := x.gath.length + len
    match useOf n k l x len' dst s with
    | none => slotWaits n k l s
    | some (use, x, s) =>
      let (bs, fixed, s) := takeSlot n k d.qSrc taken len s
      let ps := x.gathP ++ bs.map (·.2)
      let src : From := .bytes (x.gath ++ bs.map (·.1)) (granules len' (fun i => nth false ps i)) fixed
      progress n k l ({ x with gath := [], gathP := [] }.advance len') (sendPart n k l x.id len' src false use dst s)

/-! Landings (R150, R157, R161, R168 to R170). -/

/-- The lines that the poisoned granules of landed bytes touch. -/
def poisonLines (off : Nat) (len : Nat) (pois : List Bool) : List Nat :=
  (pois.zipIdx.filter (·.1)).flatMap (fun e => linesOf (off + 64 * e.2) (min 64 (len - 64 * e.2)))

/-- Counts landed poisoned granules (R170). -/
def countLanded (n k : Nat) (pois : List Bool) (s : State) : State :=
  let m := (pois.filter id).length
  if m = 0 then s else onCountsAt n k (fun c => { c with poison := sat 8 (c.poison + m) }) s

/-- Lands bytes at a scratchpad offset. -/
def landAt (n k off : Nat) (data : List Byte) (pois : List Bool) (s : State) : State :=
  countLanded n k pois (spdWrite n (atOff off data) (poisonLines off data.length pois) s)

/-- Bytes of an entry have landed: the entry is done once none is missing (R150). -/
def entryLanded (n k q pos m : Nat) (s : State) : State :=
  s.onSlot n k q (fun Q =>
    let left := Tab.get 0 Q.resv pos - m
    if left = 0 then { Q with resv := Tab.del Q.resv pos, done := Q.done ||| (1#64 <<< pos) }
    else { Q with resv := Tab.set Q.resv pos left })

/-- Lands bytes in runs of the ring of an IN slot. -/
def landRuns (n k q : Nat) (runs : List (Nat × Nat)) (data : List Byte) (pois : List Bool) (s : State) : State :=
  let Q := (s.ctxAt n k).slot q
  let offs := runs.flatMap (fun r => span (Q.base + r.1) r.2)
  let s := countLanded n k pois (spdWrite n (offs.zip data) (((offs.zipIdx).filter (fun e => nth false pois (e.2 / 64))).map (·.1 / 64)) s)
  runs.foldl (fun s r => entryLanded n k q (r.1 / Q.bytes) r.2 s) s

/-- Raw byte i of a transform, and whether it is poisoned. -/
def Xfer.rawAt (x : Xfer) (i : Nat) : Byte × Bool :=
  match x.raw.find? (fun e => decide (e.1 ≤ i) && decide (i < e.1 + e.2.length)) with
  | some e => (nth 0 e.2 (i - e.1), nth false (Tab.get [] x.rawPois e.1) ((i - e.1) / 64))
  | none => (0, false)

/-- The BF16 value of element i of an MX unit (R168). -/
def widen (xf : Nat) (rd : Nat → Byte) (i : Nat) : Nat :=
  let code := match xf with | 1 => 6 | 2 => 2 | _ => 3
  let el := if xf = 1 then 256 else 512
  (Fmt.bf16.enc .even ((elemAt code rd i).mul (e8m0 (rd (el + i % 16))))).1

/-- Output byte o of a transform, and whether its unit or block is poisoned (R168 to R170). -/
def Xfer.outByte (x : Xfer) (o : Nat) : Byte × Bool :=
  if x.d.xf ≤ 3 then
    let u := o / 1024
    let ub := unitBytes x.d.xf
    let v := widen x.d.xf (fun b => (x.rawAt (u * ub + b)).1) (o % 1024 / 2)
    (BitVec.ofNat 8 (v / 256 ^ (o % 2)), (List.range ub).any (fun b => (x.rawAt (u * ub + b)).2))
  else
    let e := x.d.xf - 3
    let rb := x.d.rowBytes
    let R := o / (16 * rb)
    let C := o % (16 * rb) / (256 * e)
    let t := o % (256 * e) / e
    let src := fun (a b k : Nat) => (16 * R + b) * rb + (16 * C + a) * e + k
    ((x.rawAt (src (t / 16) (t % 16) (o % e))).1,
      (List.range 256).any (fun q => (List.range e).any (fun k => (x.rawAt (src (q / 16) (q % 16) k)).2)))

/-- An error was corrected in the raw bytes that output bytes [o, o + len) of a transform are made of (R47). -/
def Xfer.lateOut (x : Xfer) (o len : Nat) : Bool :=
  let (u, r) := if x.d.xf ≤ 3 then (1024, unitBytes x.d.xf) else (16 * x.d.rowBytes, 16 * x.d.rowBytes)
  x.fixed.any (fun f => overlap f.1 f.2 (o / u * r) (ceilDiv (o + len) u * r - o / u * r))

/-- A run of output bytes of a transform, with its poison by granule. -/
def Xfer.outRun (x : Xfer) (o len : Nat) : List Byte × List Bool :=
  let bs := (List.range len).map (fun i => x.outByte (o + i))
  (bs.map (·.1), granules len (fun i => (nth (0, false) bs i).2))

/-- The inputs that wait at a router for a reduction id. -/
def redAt (s : State) (n id : Nat) (inp : RedIn) : List RedPkt :=
  s.reds.filter (fun p => p.router == n && p.id == id && p.inp == inp)

/-- A 128-byte beat of a reduction send enters the own router (R187), which buffers two (R174). -/
def putBeat (n k l desc r dst : Nat) (data : List Byte) (pois : List Bool) (s : State) : State :=
  let e := (Tab.get 0 (s.core n).red r).toNat
  match targetOf dst 1 with
  | some (.spd m off) =>
    let own : Option RedOwner :=
      if m = n then some { ctx := k, inv := (s.ctxAt n k).inv, list := l, desc := desc } else none
    let pk : RedPkt :=
      { router := n, id := r, inp := .own, elem := (off - fld e 10 0 * 4096) / 128, fmt := e.testBit 62
        x0 := fld e 55 48, y0 := fld e 47 40, x1 := fld e 39 32, y1 := fld e 31 24, dst := dst
        data := data.take 128, p0 := nth false pois 0, p1 := nth false pois 1, owner := own }
    let s := { s with reds := s.reds ++ [pk] }
    if m = n then moreOut n k l desc s else s
  | _ => s

/-- `len` more output bytes of a transform are out; with the last one it is complete. -/
def outMoved (n k l : Nat) (x : Xfer) (len : Nat) (s : State) : State :=
  let B := ((s.ctxAt n k).slot x.d.qDst).bytes
  s.onList n k l (fun L =>
    settle { L with
      xfs := if x.outDone + len = x.d.outTotal then Tab.del L.xfs x.id
        else Tab.set L.xfs x.id ({ x with outDone := x.outDone + len }.dropEnts B (x.outDone + len)) })

/-- A hold at slot `q` is lengthened by an error corrected in what lands at ring positions `at_` (R47): the consumer waits
for the entry at one of them. Each hold counts once. -/
def countLate (n k q : Nat) (fixed : Bool) (at_ : List Nat) (s : State) : State :=
  let c := s.core n
  let waits : Bool := match c.held with
    | some b =>
      let Q := c.ctx.slot q
      k == c.cur && ((rawOps b).list.flatMap (fun o => o.pops.toList ++ o.heads.toList)).contains q && !Q.hasEntry && at_.contains Q.head
    | none => false
  if fixed && waits && !c.late then s.onCore n (fun c => { c with lateSlot := inc 8 c.lateSlot, late := true }) else s

/-- The next piece of ready output of a transform lands in the own scratchpad, a slot or the own router (R168, R187);
none where there is none or it must wait, or it goes to another core. -/
def flushStep (n k l : Nat) (x : Xfer) (s : State) : Option State :=
  let avail := min 512 (x.ready - x.outDone)
  if avail = 0 then none
  else
    match x.red with
    | some r =>
      if 2 ≤ (redAt s n r .own).length then none
      else
        let bs := (List.range 128).map (fun i => x.rawAt (x.outDone + i))
        let dst := x.d.dstRow (x.outDone / x.d.rowBytes) + x.outDone % x.d.rowBytes
        some (outMoved n k l x 128 (putBeat n k l x.id r dst (bs.map (·.1)) (granules 128 (fun i => (nth (0, false) bs i).2)) s))
    | none =>
      if x.d.dstSlot then
        let Q := (s.ctxAt n k).slot x.d.qDst
        let (x, s) := if x.outDone < x.nEnt * Q.bytes ∨ !Q.hasSpace then (x, s) else reserveEnts n k (x.nEnt + 1) x s
        let len := min avail (x.nEnt * Q.bytes - x.outDone)
        if len = 0 then none
        else
          let (data, pois) := x.outRun x.outDone len
          let runs := x.runs Q.bytes x.outDone len
          let s := countLate n k x.d.qDst (x.lateOut x.outDone len) (runs.map (fun r => r.1 / Q.bytes)) s
          some (outMoved n k l x len (landRuns n k x.d.qDst runs data pois s))
      else
        match targetOf x.d.dst 1 with
        | some (.spd m off) =>
          if m ≠ n then none
          else
            let (data, pois) := x.outRun x.outDone avail
            some (outMoved n k l x avail (landAt n k (off + x.outDone) data pois s))
        | _ => none

/-- Lands a transform's ready output, in pieces of at most 512 bytes, as far as it can; `fuel` bounds their number. -/
def flushXf (n k l id : Nat) : Nat → State → State
  | 0, s => s
  | fuel + 1, s =>
    match (s.listAt n k l).xfs.find? (fun e => e.1 == id) with
    | none => s
    | some (_, x) =>
      match flushStep n k l x s with
      | none => s
      | some s => flushXf n k l id fuel s

/-- The outstanding entry closes. -/
def closeReq (n tag : Nat) (s : State) : State :=
  s.onCore n (fun c => { c with outst := Tab.del c.outst tag })

/-- A reply belongs to an invocation that has ended (R161). -/
def staleReq (s : State) (n : Nat) (q : Req) : Bool :=
  let x := s.ctxAt n q.ctx
  !x.resident || x.inv != q.inv

/-- Counts a reply of an ended invocation (R161, R172). -/
def countStale (n : Nat) (s : State) : State :=
  s.onCounts n (fun c => { c with stale := inc 8 c.stale })

/-- A request of a list completes. -/
def finishPart (n tag : Nat) (q : Req) (s : State) : State :=
  let s := closeReq n tag s
  match q.list with
  | some l => lessOut n q.ctx l q.desc s
  | none => s

/-- The entry of an LDF (R149). -/
def ldfEntry (q : Req) : List Byte :=
  leBytes 8 (leNat (q.data.take 8)) ++ [BitVec.ofNat 8 q.status] ++ List.replicate 7 0

/-- A reply lands (R161): its bytes reach scratchpad, a slot, a transform, another fabric address or the
reduction router. -/
def landReply (n tag : Nat) (s : State) : State :=
  match (s.core n).outst.find? (fun e => e.1 == tag) with
  | none => s
  | some (_, q) =>
    if q.phase ≠ .replied then s
    else if staleReq s n q then countStale n (closeReq n tag s)
    else
      let k := q.ctx
      let l := q.list.getD 0
      let bad := decide (q.status ≠ 0)
      let data := if bad then List.replicate q.len 0 else q.data
      let pois := if bad then List.replicate (ceilDiv q.len 64) true else q.pois
      let s0 := s
      let s := if bad ∧ q.list.isSome then recordFaultSt n k q.status s else s
      match q.use with
      | .land off => finishPart n tag q (landAt n k off data pois s)
      | .slot sl runs =>
        let B := ((s.ctxAt n k).slot sl).bytes
        finishPart n tag q (landRuns n k sl runs data pois (countLate n k sl q.corrected (runs.map (fun r => r.1 / B)) s))
      | .raw id off =>
        let s := s.onList n k l (fun L =>
          { L with
            xfs := L.xfs.map (fun e =>
              if e.1 = id then (e.1, { e.2 with
                raw := Tab.set e.2.raw off data, rawPois := Tab.set e.2.rawPois off pois
                fixed := if q.corrected then e.2.fixed ++ [(off, q.len)] else e.2.fixed }) else e) })
        finishPart n tag q (flushXf n k l id 4096 s)
      | .copyOut dst =>
        if stackBlocked n l dst s then s0 else
        let s := closeReq n tag s
        sendReq n .write { Req.listNew (s.ctxAt n k) k l q.desc .write dst q.len with data := data, pois := pois } s
      | .ldf sl pos =>
        let Q := (s.ctxAt n k).slot sl
        let s := spdWrite n (atOff (Q.at_ pos) (ldfEntry q)) [] (countLate n k sl q.corrected [pos] s)
        closeReq n tag (s.onSlot n k sl (fun Q =>
          { Q with resv := Tab.del Q.resv pos, done := Q.done ||| (1#64 <<< pos) }))
      | .posted _ => s
      | .write => s

/-- The transforms and reduction sends of a list go on as far as they can (R150, R174). -/
def flushAll (n k l : Nat) (s : State) : State :=
  (s.listAt n k l).xfs.foldl (fun s e => flushXf n k l e.1 4096 s) s

/-- A transform of a list whose ready output goes to another core (R168). -/
def outputDue (n k l : Nat) (s : State) : Option Xfer :=
  let far := fun (x : Xfer) => x.red.isNone && !x.d.dstSlot &&
    (match targetOf x.d.dst 1 with | some (.spd m _) => m != n | _ => false)
  ((s.listAt n k l).xfs.find? (fun e => far e.2 && decide (e.2.outDone < e.2.ready))).map (·.2)

/-- The list of a request is issuing: SLSTOP ends its issue (R154). -/
def listIssues (L : SList) : Bool := decide (L.state ≠ .stopping) && decide (L.state ≠ .idle)

/-- The engine issues one request of list `l` (R160, R161): fewer than 64 are outstanding. Output of a transform for
another core goes first, then the transfer that the list is issuing. What a transform or a reduction send still owes goes
out at a boundary and from a STOPPING list too (R154, R171). -/
def engineIssue (n l : Nat) (s : State) : State :=
  let k := (s.core n).cur
  if !engineWorks n s || decide (4 ≤ l) then s
  else
    let s := flushAll n k l s
    let L := s.listAt n k l
    if 64 ≤ listOut (s.core n) then s
    else
      match outputDue n k l s with
      | some x =>
        let len := min 512 (x.ready - x.outDone)
        let (data, pois) := x.outRun x.outDone len
        outMoved n k l x len (sendPart n k l x.id len (.bytes data pois false) false .write (x.d.dst + x.outDone) s)
      | none =>
        if !engineRuns n s || !listIssues L then s else
        match (if L.state = .running ∨ L.state = .slotWait then L.cur else none) with
        | none => s
        | some x =>
          if x.d.srcSlot then issueFromSlot n k l x s
          else if x.d.kind = 2 then
            let (r, late, s) := gatherRow n x.d x.row s
            issueFromMem n k l x r late s
          else issueFromMem n k l x (.at_ (x.d.srcRow x.row)) false s

/-- The engine sends the head entry of an STF slot as a posted store (R149, R41). -/
def stfSend (n sl : Nat) (s : State) : State :=
  let c := s.core n
  let x := c.ctx
  let Q := x.slot sl
  if c.active && (s.panel (panelOf n)).live && !isDead s n && Q.mode == 4 && Q.esz == 1 && Q.hasEntry then
    let (r, s) := spdRead 1 n (Q.at_ Q.head) 16 s
    let sz := 2 ^ ((nth 0 r.bytes 14).toNat % 4)
    let a := leNat ((r.bytes.drop 8).take 6)
    let s := s.onSlot n c.cur sl (fun Q =>
      { Q with done := Q.done &&& ~~~(1#64 <<< Q.head), cons := (Q.cons + 1) % 256 })
    sendReq n .posted
      { Req.new x c.cur (.posted sl) a sz with data := r.bytes.take sz, pois := granules sz (fun _ => !r.bad.isEmpty) } s
  else s

/-- Whether a reply is for the open entry that its tag names, of the block and epoch recorded there (R192). -/
def replyFor (s : State) (k : Packet) (n : Nat) : Option Req :=
  match (s.core n).outst.find? (fun e => e.1 == k.tag) with
  | some (_, q) => if q.epoch = k.epoch ∧ some q.block = (targetOf k.dst 1).map Target.block ∧ q.phase = .sent ∧ q.ctx = k.ctx ∧ q.inv % 256 = k.inv % 256 then some q else none
  | none => none

/-- A reply of an earlier epoch is discarded and counted at the requester's hub (R192). -/
def countEpoch (p : Nat) (s : State) : State :=
  s.onPanel p (fun P => { P with hub := { P.hub with staleEpoch := inc 12 P.hub.staleEpoch } })

/-- The backoff of a refused request (R165). -/
def backoff (refusals : Nat) : Nat := 32 * 2 ^ min (refusals - 1) 5

/-- A request was refused REFUSED_FULL: it waits to be sent again (R165). -/
def refuseReq (n tag : Nat) (q : Req) (s : State) : State :=
  let m := q.refusals + 1
  let s := onCountsAt n q.ctx (fun c => { c with refused := inc 8 c.refused }) s
  s.onCore n (fun c =>
    { c with
      outst := Tab.set c.outst tag
        { q with refusals := m, phase := .retry ((s.panel (panelOf n)).cyc + backoff m) } })

/-- A refused request is sent again once its backoff has passed (R165). -/
def retryReq (n tag : Nat) (s : State) : State :=
  match (s.core n).outst.find? (fun e => e.1 == tag) with
  | none => s
  | some (_, q) =>
    match q.phase with
    | .retry t =>
      if staleReq s n q then closeReq n tag s
      else if (s.panel (panelOf n)).cyc < t then s
      else
        let op := match q.use with | .posted _ => POp.posted | .write => .write | _ => .read
        let (b, e) := expectOf s q.addr
        let s := s.onCore n (fun c => { c with outst := Tab.set c.outst tag { q with phase := .sent, block := b, epoch := e } })
        launchPacket (mkRequest s (.core n) op q.addr q.len tag q.ctx q.inv e q.data q.pois) s
    | _ => s

/-- A read reply reaches its core (R161, R192). -/
def coreReply (k : Packet) (n : Nat) (s : State) : State :=
  let s := dropPacket k.pid s
  match replyFor s k n with
  | none => countEpoch (panelOf n) s
  | some q =>
    if staleReq s n q then countStale n (closeReq n k.tag s)
    else if k.status = 0x0D then refuseReq n k.tag q s
    else
      s.onCore n (fun c =>
        { c with
          outst := Tab.set c.outst k.tag { q with data := k.data, pois := k.pois, status := k.status, phase := .replied } })

/-- A write acknowledgement reaches its core (R156, R170): a list's write completes; a posted store
completes, and one not served is recorded (R41). -/
def coreAck (k : Packet) (n : Nat) (s : State) : State :=
  let s := dropPacket k.pid s
  match replyFor s k n with
  | none => countEpoch (panelOf n) s
  | some q =>
    if staleReq s n q then countStale n (closeReq n k.tag s)
    else if k.status = 0x0D then refuseReq n k.tag q s
    else
      match q.use with
      | .posted _ =>
        let s := closeReq n k.tag (s.onCtx n q.ctx (fun x => { x with posted := x.posted - 1 }))
        if k.status = 0 then s
        else
          let s := s.onCore n (fun c => { c with postFault := true })
          s.onCtx n q.ctx (fun x => { x with postExc := match x.postExc with | some e => some e | none => statusExc k.status })
      | _ =>
        let s := if k.status ≠ 0 then recordFaultSt n q.ctx k.status s else s
        finishPart n k.tag q s

/-- A STOPPING list becomes IDLE once its requests have completed (R154). -/
def listStoppedNow (n k l : Nat) (s : State) : State :=
  let L := s.listAt n k l
  let out := (s.core n).outst.any (fun e => e.2.ctx == k && e.2.list == some l && e.2.inv == (s.ctxAt n k).inv)
  if decide (k < 4) && decide (l < 4) && decide (L.state = .stopping) && !out && !L.xfs.any (fun e => e.2.owes) then
    let s := s.onList n k l (fun L => { L with state := .idle, acts := [], xfs := [] })
    (writeBlock n k l s).onList n k l (fun L => { L with cur := none })
  else s

end Sys2Proof.Machine
end

