-- ==== Sys2Proof/Machine/Mesh.lean ====
section
/-! DEFINITION. The networks (R19, R174, R178 to R190): route tables, forwarding of packets, reduction in
the routers. -/

namespace Sys2Proof.Machine

/-- What the route tables know of a panel (R183, R184): 0 open, 1 mesh-broken, 2 lost, OFF or about to be OFF. -/
def transitOf (s : State) (p : Nat) : Nat :=
  let P := s.panel p
  if P.lost || P.offReq || decide (P.power = .off) then 2 else if P.hub.meshBroken then 1 else 0

/-- The panels of the XY path of panels from `a` to `b`, both ends included (R183). -/
def xyPanels (a b : Nat) : List Nat :=
  let row := (span (min (a % 8) (b % 8)) (max (a % 8) (b % 8) + 1 - min (a % 8) (b % 8))).map (fun x => 8 * (a / 8) + x)
  let col := (span (min (a / 8) (b / 8)) (max (a / 8) (b / 8) + 1 - min (a / 8) (b / 8))).map (fun y => 8 * y + b % 8)
  row ++ col

/-- The neighbouring panel over a bridge: 0 north, 1 east, 2 south, 3 west (R184). -/
def bridge (p dir : Nat) : Option Nat :=
  match dir with
  | 0 => if 8 ≤ p then some (p - 8) else none
  | 1 => if p % 8 < 7 then some (p + 1) else none
  | 2 => if p < 56 then some (p + 8) else none
  | 3 => if 0 < p % 8 then some (p - 1) else none
  | _ => none

/-- Panels next to those of a list. -/
def bordering (l : List Nat) : List Nat := l.flatMap (fun p => (List.range 4).filterMap (bridge p))

/-- Live hubs by distance from a hub (R183): the list of layers; `fuel` bounds their number. -/
def layers (dead : Nat → Bool) : Nat → List Nat → List Nat → List (List Nat)
  | 0, _, _ => []
  | fuel + 1, seen, l =>
    match l with
    | [] => []
    | _ =>
      let nxt := ((bordering l).filter (fun p => !dead p && !seen.contains p && !l.contains p)).dedup
      l :: layers dead fuel (seen ++ l) nxt

/-- The distance of hub `p` from hub `d` over live hubs. -/
def hubDist (dead : Nat → Bool) (d p : Nat) : Option Nat :=
  if dead d then none
  else
    let ls := layers dead 64 [] [d]
    (List.range ls.length).find? (fun i => (nth [] ls i).contains p)

/-- `next_hop` from `p` to `d` (R183): the first bridge of a shortest path, in the order east, south, west,
north; 15 if none. -/
def nextHop (dead : Nat → Bool) (p d : Nat) : Nat :=
  if p = d then 4
  else
    match hubDist dead d p with
    | none => 15
    | some k =>
      (([1, 2, 3, 0] : List Nat).find? (fun dir =>
        match bridge p dir with
        | some q => hubDist dead d q == some (k - 1)
        | none => false)).getD 15

/-- The route class from `p` to `d` (R183). -/
def routeClass (src : Tab Nat) (p d : Nat) : Route :=
  let closed := fun q => Tab.get 0 src q != 0
  let dead := fun q => Tab.get 0 src q == 2
  if p = d then .xy
  else if (xyPanels p d).all (fun q => !closed q) then .xy
  else if (xyPanels d p).all (fun q => !closed q) then .yx
  else if nextHop dead p d ≠ 15 then .hub
  else .unreachable

/-- The root panel of the broadcast tree (R190), if any panel is live. -/
def rootPanel (s : State) : Option Nat := allPanels.find? (fun p => transitOf s p != 2)

/-- The panels that a broadcast reaches: those whose hubs hang on the root over live hubs (R190). -/
def castPanels (s : State) : List Nat :=
  match rootPanel s with
  | some r => (layers (fun p => transitOf s p == 2) 64 [] [r]).flatten
  | none => []

/-- The command processor recomputes the tables: every panel's table is out of date until the new one
reaches it (R183, R184). -/
def tablesChanged (s : State) : State :=
  let s := { s with transit := allPanels.map (fun p => (p, transitOf s p)) }
  allPanels.foldl (fun s p => s.onPanel p (fun P => { P with hub := { P.hub with stale := true } })) s

/-- The tables are recomputed if what they depend on has changed (R183). -/
def tablesAfter (s : State) : State :=
  if s.transit = allPanels.map (fun p => (p, transitOf s p)) then s else tablesChanged s

/-- Every live hub holds its new table (R184). -/
def tablesHeld (s : State) : Bool := allPanels.all (fun p => transitOf s p == 2 || !(s.panel p).hub.stale)

/-- The panel in whose routers or hub a packet stands. -/
def Pos.panel : Pos → Option Nat
  | .mesh n => some (panelOf n)
  | .hub p => some p
  | .there => none

/-- The panel a packet travels to. -/
def Packet.goal (k : Packet) : Nat :=
  if k.reply then k.home.panel.getD k.src.panel else match targetOf k.dst 1 with | some t => t.panel | none => k.src.panel

/-- A class of route as a reply has it: the path from here that is XY for a request is the way back of a YX
(R178). -/
def Route.back : Route → Route
  | .xy => .yx | .yx => .xy | r => r

/-- A held packet is routed again from panel `p`, where it stands (R184). -/
def reroute (s : State) (p : Nat) (k : Packet) : Packet :=
  match k.pos with
  | .mesh _ =>
    let c := classTo s p k.goal
    { k with lost := false, route := if k.reply then c.back else c }
  | _ => { k with lost := false, route := .hub, path := if k.reply then [] else k.path }

/-- Counts packets held in panel `p` and routed again (R184, R195). -/
def countRerouted (p n : Nat) (s : State) : State :=
  s.onPanel p (fun P => { P with hub := { P.hub with rerouted := sat 12 (P.hub.rerouted + n) } })

/-- The new table reaches panel `p` (R184, R194): the packets held there are routed again and counted. -/
def tableArrives (p : Nat) (s : State) : State :=
  let H := (s.panel p).hub
  if !H.stale then s
  else
    let src := s.transit
    let dead := fun q => Tab.get 0 src q == 2
    let here := fun (k : Packet) => k.lost && k.pos.panel == some p
    let moved := (s.packets.filter here).length
    let s := s.onPanel p (fun P =>
      { P with
        hub := { P.hub with
          stale := false, lossDue := false
          hops := allPanels.map (fun d => (d, nextHop dead p d))
          classes := allPanels.map (fun d => (d, routeClass src p d))
          gen := (P.hub.gen + 1) % 256
          closed := (allPanels.filter (fun q => Tab.get 0 src q != 0)).length
          updateTicks := if P.hub.lossDue then s.now - s.lostAt else P.hub.updateTicks
          rerouted := sat 12 (P.hub.rerouted + moved) } })
    let s' := s
    { s with packets := s.packets.map (fun k => if here k then reroute s' p k else k) }

/-- One step of a number toward another. -/
def toward (a b : Nat) : Nat := if a < b then a + 1 else if b < a then a - 1 else a

/-- The next core on the way to `m`: along the row first, or along the column first (R178). -/
def meshNext (rowFirst : Bool) (n m : Nat) : Nat :=
  let cx := cxOf n
  let cy := cyOf n
  if rowFirst then (if cx ≠ cxOf m then coreAt (toward cx (cxOf m)) cy else coreAt cx (toward cy (cyOf m)))
  else (if cy ≠ cyOf m then coreAt cx (toward cy (cyOf m)) else coreAt (toward cx (cxOf m)) cy)

/-- A panel that forwards nothing (R177, R184). -/
def noTransit (s : State) (p : Nat) : Bool := (s.panel p).lost || decide ((s.panel p).power = .off)

/-- A panel forwards nothing now: it gives no transit, or its converters have shut down and the supervisor has not yet
reported it (R293, R355). -/
def stands (s : State) (p : Nat) : Bool := noTransit s p || (s.panel p).shorted

/-- Counts an answer TARGET_ABSENT of a hub or its routers (R193). -/
def countAbsent (p : Nat) (s : State) : State :=
  s.onPanel p (fun P => { P with hub := { P.hub with targetAbsent := inc 12 P.hub.targetAbsent } })

/-- The status of a request that cannot reach panel `q` (R32 rows 3 and 4, R193). -/
def goneStatus (s : State) (q : Nat) : Nat :=
  if !(s.panel q).lost && decide ((s.panel q).power = .off) then 0x04 else 0x06

/-- A request that cannot go on is answered by the last live element, of panel `p` (R193); a reply that cannot is
gone. -/
def endHere (k : Packet) (p : Nat) (s : State) : State :=
  if k.reply then dropPacket k.pid s
  else
    let st := goneStatus s k.goal
    let s := answer k.pid st [] [] s
    if st = 0x06 then countAbsent p s else s

/-- Moves a packet. -/
def moveTo (k : Packet) (q : Pos) (inp : Nat) (s : State) : State :=
  movePacket k.pid (fun k => { k with pos := q, inp := inp }) s

/-- What happens to a packet next (R178, R184, R193): it goes on by an output, entering the next element by an input;
it is at its end; the last live element answers it; it is held at a panel that gives no transit; or it waits. -/
inductive Hop where
  | go (out : Nat) (q : Pos) (inp : Nat)
  | back (out : Nat)
  | ends (out : Nat)
  | hold
  | wait
deriving DecidableEq, Repr

/-- The output of a packet's hop, if it takes one. -/
def Hop.out : Hop → Option Nat
  | .go o _ _ => some o
  | .back o => some o
  | .ends o => some o
  | .hold => none
  | .wait => none

/-- The direction from router `n` to its neighbour `m`: 0 north, 1 east, 2 south, 3 west. -/
def dirOf (n m : Nat) : Nat :=
  if cyOf m < cyOf n then 0 else if cxOf n < cxOf m then 1 else if cyOf n < cyOf m then 2 else 3

/-- The next hop of a packet at the router of core `n` (R178). Outputs 0 to 3 lead to the neighbours, or to a link
port off the wafer (R216), 4 to the own core, 5 to the quad port; it enters a neighbour by input 1 + the direction it came
from. -/
def meshHop (s : State) (k : Packet) (n : Nat) : Hop :=
  let dest : Option Nat :=
    if k.reply then (match k.home with | .mesh m => some m | _ => none)
    else (match targetOf k.dst 1 with | some (.spd m _) => some m | _ => none)
  let quad : Hop := .go 5 (.hub (panelOf n)) (quadOf n)
  match k.route, dest with
  | .unreachable, d => if !k.reply then .ends 4 else if d = some n then .go 4 .there 0 else .wait
  | .hub, _ => quad
  | _, none => quad
  | r, some m =>
    if n = m then .go (match k.reply, k.src with | true, .port o => o / 4 | _, _ => 4) .there 0
    else
      let nx := meshNext (decide (r = .xy) != k.reply) n m
      let q := panelOf nx
      let d := dirOf n nx
      if noTransit s q then (if k.goal = q then .ends d else .hold)
      else if (s.panel q).shorted then .wait
      else .go d (.mesh nx) (1 + (d + 2) % 4)

/-- The output of a hub at which a packet ends. -/
def localOut (k : Packet) : Nat :=
  if k.reply then (match k.home, k.src with | .mesh n, _ => quadOf n | .hub p, .port o => portInput o p | _, src => src.input)
  else match targetOf k.dst 1 with | some t => t.input k.remote | none => 206

/-- The next hop of a packet in the hub of panel `p` (R178, R181, R184): a reply goes back by the hubs of its request, other
packets go by the table. What would pass through a panel in reset waits, and so does what a stack interface sends to its
partner there; a request to that panel goes on and is answered (R193, R210). -/
def hubHop (s : State) (k : Packet) (p : Nat) : Hop :=
  if k.goal = p then .go (localOut k) .there 0
  else
    let dir : Nat := match (if k.reply then k.path.head? else none) with
      | some q => (([0, 1, 2, 3] : List Nat).find? (fun d => bridge p d == some q)).getD 15
      | none => Tab.get 4 (s.panel p).hub.hops k.goal
    match bridge p dir with
    | none => if dir = 15 then .ends 206 else .wait
    | some q =>
      if noTransit s q then (if k.goal = q then .ends dir else .hold)
      else if (s.panel q).shorted || ((s.panel q).inReset && (k.goal != q || k.mirror)) then .wait
      else if k.reply ∧ k.path ≠ [] then .back dir
      else .go dir (.hub q) ((dir + 2) % 4)

/-- The next hop of a packet. -/
def hopOf (s : State) (k : Packet) : Hop :=
  if k.lost then .wait
  else
    match k.pos with
    | .mesh n => if stands s (panelOf n) then .wait else meshHop s k n
    | .hub p => if stands s p then .wait else hubHop s k p
    | .there => .wait

/-- The channel of a packet (R174): 0 and 1 for replies, 2 and 3 for requests, by route class. -/
def Packet.chan (k : Packet) : Nat := (if k.reply then 0 else 2) + b2n (decide (k.route = .yx))

/-- The distance class of the buffer that a packet occupies (R181): the bridges it has crossed, in a hub. -/
def Packet.distance (k : Packet) : Nat := match k.pos with | .hub _ => k.hops | _ => 0

/-- A packet is the first of its input, channel and distance class where it stands (R174, R181). -/
def headOf (s : State) (k : Packet) : Bool :=
  !(s.packets.takeWhile (fun q => q.pid != k.pid)).any (fun q =>
    decide (q.pos = k.pos) && q.inp == k.inp && q.chan == k.chan && q.distance == k.distance)

/-- The classes of channels that an output serves in strict priority (R174): replies, reductions, requests. -/
inductive Serve where
  | reply
  | red
  | request
deriving DecidableEq, Repr
def Serve.code : Serve → Nat
  | .reply => 0 | .red => 1 | .request => 2

/-- The class of channels of a packet. -/
def Packet.serve (k : Packet) : Serve := if k.reply then .reply else .request

/-- The key of an output of a router or hub for a class of channels, that of a quad port, and the input of a packet in its
order of turns (R174, R179). -/
def turnKey (pos : Pos) (out : Nat) (c : Serve) : Nat :=
  let node := match pos with | .mesh n => n | .hub p => 40000 + p | .there => 50000
  (node * 256 + out) * 3 + c.code
def quadKey (n : Nat) (c : Serve) : Nat := (50001 * 256 + panelOf n * 256 + quadOf n) * 3 + c.code
def Packet.turn (k : Packet) : Nat := 512 * k.distance + 2 * k.inp + k.chan % 2

/-- Two places share an output: they are one, or the routers of two cores with one quad port, which output 5 leads to
(R179). -/
def shareOut (a b : Pos) (out : Nat) : Bool :=
  decide (a = b) || (match a, b with
    | .mesh n, .mesh m => out == 5 && panelOf n == panelOf m && quadOf n == quadOf m
    | _, _ => false)

/-- How far a packet is from its turn at an output (R174, R179): at a quad port the cores take turns. -/
def turnsLeft (s : State) (out : Nat) (q : Packet) : Nat :=
  let own := (q.turn + 8191 - Tab.get 0 s.turns (turnKey q.pos out q.serve)) % 8192
  match q.pos with
  | .mesh n => if out = 5 then (localOf n + 3 - Tab.get 0 s.turns (quadKey n q.serve)) % 4 * 8192 + own else own
  | _ => own

/-- A packet has its turn at an output. -/
def served (k : Packet) (out : Nat) (s : State) : State :=
  let t := Tab.set s.turns (turnKey k.pos out k.serve) k.turn
  { s with
    turns := match k.pos with
      | .mesh n => if out = 5 then Tab.set t (quadKey n k.serve) (localOf n % 4) else t
      | _ => t }

/-! Reduction (R187 to R189). -/

/-- The inputs a router expects for a rectangle and a destination (R188); of a core fenced during the reduction its own
still (R189). -/
def expected (s : State) (n : Nat) (p : RedPkt) : List RedIn :=
  let x := cxOf n
  let y := cyOf n
  let xd := fld p.dst 37 30
  let yd := fld p.dst 45 38
  (if isDead s n && !(s.core n).pins.contains p.id then [] else [.own])
    ++ (if p.x0 < x ∧ x ≤ xd then [.west] else [])
    ++ (if xd ≤ x ∧ x < p.x1 then [.east] else [])
    ++ (if x = xd ∧ p.y0 < y ∧ y ≤ yd then [.north] else [])
    ++ (if x = xd ∧ yd ≤ y ∧ y < p.y1 then [.south] else [])

/-- The input of the next router that a packet going from `n` to `m` enters. -/
def inputAt (n m : Nat) : RedIn :=
  if cxOf n < cxOf m then .west else if cxOf m < cxOf n then .east else if cyOf n < cyOf m then .north else .south

/-- The destination core of a reduction packet. -/
def RedPkt.goal (p : RedPkt) : Nat := coreAt (fld p.dst 37 30) (fld p.dst 45 38)

/-- The head packets of the inputs that the router of core `n` expects for reduction id `id` (R188); none while one of them
is missing. -/
def redHeads (s : State) (n id : Nat) : Option (List (RedIn × RedPkt)) :=
  match s.reds.find? (fun p => p.router == n && p.id == id) with
  | none => none
  | some f =>
    let want := expected s n f
    let heads := want.filterMap (fun i => (redAt s n id i).head?.map (fun p => (i, p)))
    if heads.length = want.length ∧ heads ≠ [] then some heads else none

/-- A reduction packet at a router can go on: the panel forwards (R177), at its destination the core is not being carried
(R25); else the next input has room (R174) and its panel is on, or is lost and the new tables have not come (R175, R184). -/
def redCanGo (s : State) (n : Nat) (h : RedPkt) : Bool :=
  let m := h.goal
  let nx := meshNext true n m
  let q := panelOf nx
  !stands s (panelOf n)
    && (if n = m then !carriedTarget s h.dst 128
      else if (s.panel q).lost then (s.panel (panelOf n)).hub.stale
      else !stands s q && decide ((redAt s nx h.id (inputAt n nx)).length < 2))

/-- The output of the router of core `n` that reduction id `id` wants, if it can go on (R188). -/
def redOut (s : State) (n id : Nat) : Option Nat :=
  match redHeads s n id with
  | some (h :: _) =>
    if redCanGo s n h.2 then some (if n = h.2.goal then 4 else dirOf n (meshNext true n h.2.goal)) else none
  | _ => none

/-- Reduction `id` has its turn at an output of the router of core `n`: no reply wants it, and of the reductions that want
it this is the next (R174; log entry 137). -/
def redWins (s : State) (n id out : Nat) : Bool :=
  let last := Tab.get 0 s.turns (turnKey (.mesh n) out .red)
  let dist := fun (i : Nat) => (i + 15 - last) % 16
  !s.packets.any (fun k => k.reply && shareOut k.pos (.mesh n) out && headOf s k && (hopOf s k).out == some out)
    && (List.range 16).all (fun i => redOut s n i != some out || decide (dist id ≤ dist i))

/-- A packet wins its output (R174): no reply and no reduction wants the output if it is a request, and of the first packets
of the inputs that want it with this class it is the next in turn. -/
def winsOutput (s : State) (k : Packet) (out : Nat) : Bool :=
  let want := s.packets.filter (fun q => shareOut q.pos k.pos out && headOf s q && (hopOf s q).out == some out)
  let red := match k.pos with | .mesh n => (List.range 16).any (fun i => redOut s n i == some out) | _ => false
  headOf s k && (k.reply || (!want.any (·.reply) && !red))
    && (want.filter (fun q => q.reply == k.reply)).all (fun q => decide (turnsLeft s out k ≤ turnsLeft s out q))

/-- One hop of a packet that wins its output (R174, R178, R181). One whose next panel gives no transit is held there, and
routed again once the new table is there (R184). -/
def meshForward (pid : Nat) (s : State) : State :=
  match packetOf s pid with
  | none => s
  | some k =>
    match hopOf s k with
    | .wait => s
    | .hold =>
      let p := k.pos.panel.getD 0
      if !headOf s k then s
      else if (s.panel p).hub.stale || decide (hopOf s (reroute s p k) = .hold) then onPacket pid (fun k => { k with lost := true }) s
      else countRerouted p 1 (onPacket pid (reroute s p) s)
    | .ends out => if winsOutput s k out then endHere k (k.pos.panel.getD 0) (served k out s) else s
    | .back out =>
      if winsOutput s k out then
        movePacket pid (fun k => { k with pos := .hub (nth 0 k.path 0), inp := (out + 2) % 4, path := k.path.drop 1, hops := k.hops + 1 }) (served k out s)
      else s
    | .go out q inp =>
      if winsOutput s k out then
        let (left, hops) : List Nat × Nat := match k.pos, q with | .hub p, .hub _ => (p :: k.path, k.hops + 1) | _, _ => (k.path, k.hops)
        movePacket pid (fun k => { k with pos := q, inp := inp, path := left, hops := hops }) (served k out s)
      else s

/-- The sum of two beats element by element (R188). -/
def addBeat (bf16 : Bool) (a b : List Byte) : List Byte :=
  if bf16 then
    (List.range 64).flatMap (fun i =>
      let x := fun (l : List Byte) => BitVec.ofNat 32 (65536 * leNat ((l.drop (2 * i)).take 2))
      leBytes 2 (Fmt.bf16.enc .even (x32 (fadd (x a) (x b)))).1)
  else
    (List.range 32).flatMap (fun i =>
      let x := fun (l : List Byte) => BitVec.ofNat 32 (leNat ((l.drop (4 * i)).take 4))
      leBytes 4 (fadd (x a) (x b)).toNat)

/-- Heads that carry the same element, rectangle and format (R189). -/
def sameHead (a b : RedPkt) : Bool :=
  a.elem == b.elem && a.fmt == b.fmt && a.x0 == b.x0 && a.y0 == b.y0 && a.x1 == b.x1 && a.y1 == b.y1

/-- Removes the first packet that waits at an input. -/
def dropHead (n id : Nat) (inp : RedIn) : List RedPkt → List RedPkt
  | [] => []
  | p :: t => if p.router == n && p.id == id && p.inp == inp then t else p :: dropHead n id inp t

/-- The final sum is written into scratchpad, and the destination core's own send loses one element
(R188, R189). -/
def redLand (p : RedPkt) (s : State) : State :=
  match targetOf p.dst 128 with
  | some (.spd m off) =>
    let s := spdWrite m (atOff off p.data) ((if p.p0 then [off / 64] else []) ++ (if p.p1 then [off / 64 + 1] else [])) s
    match p.owner with
    | some o => if (s.ctxAt m o.ctx).inv = o.inv then lessOut m o.ctx o.list o.desc s else s
    | none => s
  | _ => s

/-- What the heads of a router add up to (R188, R189): with one head its data as they are (log entry 138). -/
def redSum (heads : List (RedIn × RedPkt)) (h : RedPkt) : RedPkt :=
  let t := (heads.drop 1).map (·.2)
  let bad := t.any (fun p => !sameHead h p)
  { h with
    data := t.foldl (fun a p => addBeat h.fmt a p.data) h.data
    p0 := bad || h.p0 || t.any (·.p0), p1 := bad || h.p1 || t.any (·.p1)
    owner := match (h :: t).find? (fun p => p.owner.isSome) with | some p => p.owner | none => none }

/-- The router of core `n` combines the heads of reduction id `id` and forwards the sum once it has its turn (R174, R188,
R189); at a lost panel the sum is discarded and counted while the new tables have not come (R175, R184). -/
def combine (n id : Nat) (s : State) : State :=
  match redHeads s n id, redOut s n id with
  | some ((i, h) :: t), some out =>
    if !redWins s n id out then s
    else
      let heads := (i, h) :: t
      let sum := redSum heads h
      let m := h.goal
      let nx := meshNext true n m
      let s := if t.any (fun p => !sameHead h p.2) then
          s.onPanel (panelOf n) (fun P => { P with hub := { P.hub with redMismatch := inc 12 P.hub.redMismatch } })
        else s
      let s := { s with
        turns := Tab.set s.turns (turnKey (.mesh n) out .red) id
        reds := heads.foldl (fun l i => dropHead n id i.1 l) s.reds }
      if n = m then redLand sum s
      else if (s.panel (panelOf nx)).lost then
        s.onPanel (panelOf n) (fun P => { P with hub := { P.hub with redLost := inc 12 P.hub.redLost } })
      else { s with reds := s.reds ++ [{ sum with router := nx, inp := inputAt n nx, owner := none }] }
  | _, _ => s

end Sys2Proof.Machine
end

