-- ==== Sys2Proof/Machine/StackUnit.lean ====
section
/-! DEFINITION. The panel hub and the memory stack (R162 to R166, R198 to R211, R392): the sector code,
encryption, grants, narrow writes, scrub, retirement, mirroring. -/

namespace Sys2Proof.Machine

/-! Sectors (R199 to R202). -/

/-- The address word of an offset of panel `p`: sector number in bytes 0 to 3, panel in byte 4 (R199). -/
def addrWord (p x : Nat) : Nat := p * 2 ^ 32 + x / 64

def State.stack (s : State) (p : Nat) : Stack := (s.panel p).stack
def State.onStack (s : State) (p : Nat) (f : Stack → Stack) : State :=
  s.onPanel p (fun P => { P with stack := f P.stack })
def State.onHub (s : State) (p : Nat) (f : Hub → Hub) : State :=
  s.onPanel p (fun P => { P with hub := f P.hub })

/-- First offset of the spare area (R197). -/
def spareBase : Nat := 0x1FBC000000

/-- Where an offset lies: a retired page in its spare page (R206). -/
def physOf (k : Stack) (x : Nat) : Nat :=
  match k.retire.find? (fun e => e.1 == x / 4096) with
  | some e => spareBase + e.2 * 4096 + x % 4096
  | none => x

/-- The partner panel of a mirrored panel (R208). -/
def partnerOf (s : State) (p : Nat) : Option Nat :=
  match partOf s p with
  | none => none
  | some k =>
    let P := s.part k
    if !P.mirroring then none
    else
      let rx := p % 8 - P.x0
      let ry := p / 8 - P.y0
      if (P.x1 + 1 - P.x0) % 2 = 0 then some ((P.y0 + ry) * 8 + P.x0 + (rx ^^^ 1))
      else some ((P.y0 + (ry ^^^ 1)) * 8 + P.x0 + rx)

/-- The primary panel and offset of what stack `p` holds at offset `x` (R199, R202, R208, R210): in the copy range of a
mirrored stack the partner's. -/
def homeOf (s : State) (p x : Nat) : Nat × Nat :=
  if (s.stack p).mirrored ∧ mirrorBase ≤ x ∧ x < deviceBase then
    match partnerOf s p with
    | some q => (q, x - mirrorBase)
    | none => (p, x)
  else (p, x)

/-- The address word a reader expects at offset `x` of stack `p`. -/
def expectAw (s : State) (p x : Nat) : Nat := addrWord (homeOf s p x).1 (homeOf s p x).2

/-- The stored bytes of the sector at a physical offset, and its check bytes: a sector not written since the fill has
those of zero bytes (R392). -/
def sectorBytes (s : State) (p phys : Nat) : List Byte := memBytes s.mem (stackKey p phys) 64
def sectorCheckAt (s : State) (p phys aw : Nat) : List Byte :=
  match Tab.get [] (s.stack p).checks (phys / 64) with
  | [] => sectorCheck (List.replicate 64 0) aw false
  | c => c

/-- Stores the bytes and check bytes of a sector. -/
def putSector (p phys : Nat) (data check : List Byte) (s : State) : State :=
  ({ s with mem := memPutBytes s.mem (stackKey p phys) data }).onStack p (fun k => { k with checks := Tab.set k.checks (phys / 64) check })

/-- The decision on the sector stored at `phys`, whose reader expects address word `aw` (R200). -/
def decideAt (s : State) (p phys aw : Nat) : SectorOutcome :=
  decideSector (sectorBytes s p phys) (sectorCheckAt s p phys aw) aw

/-- The sector at `phys` with a corrected byte, as stored. -/
def fixedBytes (s : State) (p phys : Nat) (o : SectorOutcome) : List Byte :=
  match o with
  | .corrected i v => fixByte (sectorBytes s p phys) i v
  | _ => sectorBytes s p phys

/-- The device area is not encrypted (R202). -/
def inDevice (x : Nat) : Bool := decide (deviceBase ≤ x) && decide (x < spareBase)

/-- The tweak of the unit of an offset (R202): x[36:9] of the primary offset, and the primary panel. -/
def tweakOf (h : Nat × Nat) : Nat := h.1 * 2 ^ 28 + h.2 / 512

/-- The plain bytes of a stored sector of offset `x`, and the stored bytes of a plain one, under the loaded key
(R202). -/
def plainSector (s : State) (p x : Nat) (data : List Byte) : List Byte :=
  match (s.stack p).key with
  | some k => if inDevice x then data else xtsDec k (tweakOf (homeOf s p x)) (x % 512 / 16) data
  | none => data
def cipherSector (s : State) (p x : Nat) (data : List Byte) : List Byte :=
  match (s.stack p).key with
  | some k => if inDevice x then data else xtsEnc k (tweakOf (homeOf s p x)) (x % 512 / 16) data
  | none => data

/-- Writes one plain sector at offset `x` with its mark, under the loaded key (R199, R202): a rewrite that waits is
abandoned (R201). -/
def writeSector (p x : Nat) (data : List Byte) (pois : Bool) (s : State) : State :=
  let phys := physOf (s.stack p) x
  let c := cipherSector s p x data
  (putSector p phys c (sectorCheck c (expectAw s p x) pois) s).onStack p (fun k =>
    { k with rewrites := k.rewrites.filter (· != phys / 64) })

/-- Marks a newly uncorrectable sector (R201, R213): it is stored as it is with the poison mark; `source` as STK_UEADDR
has it. -/
def markSector (p x phys aw source : Nat) (addr : Bool) (s : State) : State :=
  let c := sectorBytes s p phys
  let s := (putSector p phys c (sectorCheck c aw true) s).onStack p (fun k =>
    { k with
      ue := inc 8 k.ue
      ueaddr := if k.ueaddr.getLsbD 63 then k.ueaddr
        else BitVec.ofNat 64 (2 ^ 63 + source * 2 ^ 61 + b2n addr * 2 ^ 60 + x / 64 * 64) })
  logErr 1 2 p 0x09 source x s

/-- A corrected sector is counted and waits to be written back (R201). -/
def noteCorrected (p phys : Nat) (s : State) : State :=
  s.onStack p (fun k =>
    { k with
      corrected := inc 12 k.corrected
      rewrites := if k.rewrites.contains (phys / 64) then k.rewrites else k.rewrites ++ [phys / 64] })

/-- The partner whose stack holds a copy of offset `x` that can be read (R209, R210). -/
def copyAt (s : State) (p x : Nat) : Option Nat :=
  if (s.stack p).mirrored && !(s.stack p).mirrorLost && decide (x < mirrorBase) then
    match partnerOf s p with
    | some q => if (s.panel q).lost then none else some q
    | none => none
  else none

/-- Reads the sector at offset `x` (a multiple of 64) of stack `p` (R200, R201), `raw` as ciphertext (R203); none where it
is uncorrectable and a copy is to be read (R209). -/
def readSector (p x source : Nat) (s : State) (raw : Bool := false) : Option SecRd × State :=
  let phys := physOf (s.stack p) x
  let aw := expectAw s p x
  let o := decideAt s p phys aw
  let bytes := if raw then fixedBytes s p phys o else plainSector s p x (fixedBytes s p phys o)
  match o with
  | .good => (some { bytes := bytes, pois := false, fresh := false, fixed := false }, s)
  | .poisoned =>
    (some { bytes := bytes, pois := true, fresh := false, fixed := false }, s.onStack p (fun k => { k with poisonRd := inc 8 k.poisonRd }))
  | .corrected _ _ => (some { bytes := bytes, pois := false, fresh := false, fixed := true }, noteCorrected p phys s)
  | .uncorrectable addr =>
    if (copyAt s p x).isSome then (none, s)
    else (some { bytes := bytes, pois := true, fresh := true, fixed := false }, markSector p x phys aw source addr s)

/-- Reads consecutive sectors that have no copy. -/
def readSectors (p source : Nat) : List Nat → State → List SecRd × State
  | [], s => ([], s)
  | x :: t, s =>
    let (r, s) := readSector p x source s
    let (rs, s) := readSectors p source t s
    (r.toList ++ rs, s)

/-- Reads a range of the staging area: bytes with their poison. -/
def readStack (p x len source : Nat) (s : State) : List (Byte × Bool) × State :=
  let secs := if len = 0 then [] else span (x / 64) ((x + len - 1) / 64 + 1 - x / 64)
  let (rs, s) := readSectors p source (secs.map (· * 64)) s
  (((rs.flatMap (fun r => r.bytes.map (fun b => (b, r.pois)))).drop (x % 64)).take len, s)

/-- Writes whole sectors from offset `x` on with their poison (R199, R202). -/
def writeSectors (p x : Nat) (data : List Byte) (pois : List Bool) (s : State) : State :=
  (List.range (data.length / 64)).foldl (fun s i => writeSector p (x + 64 * i) ((data.drop (64 * i)).take 64) (nth false pois i) s) s

/-- Merges a narrow write at offset `x` into unit `u`, whose sectors as read are `secs` (R204). -/
def mergeUnit (p u x : Nat) (data : List Byte) (pois : List Bool) (secs : List SecRd) (s : State) : State :=
  let base := u * 512
  let inside := fun (o : Nat) => decide (x ≤ o) && decide (o < x + data.length)
  let new := (secs.flatMap (·.bytes)).zipIdx.map (fun e => if inside (base + e.2) then nth 0 data (base + e.2 - x) else e.1)
  let newP := secs.zipIdx.map (fun e =>
    let os := span (base + 64 * e.2) 64
    (!os.all inside && e.1.pois) || os.any (fun o => inside o && nth false pois ((o - x) / 64)))
  writeSectors p base new newP (s.onStack p (fun k => { k with merge := inc 12 k.merge }))

/-! The hub (R162 to R166). -/

/-- The class of a request at hub `p` (R162). -/
def classAt (k : Packet) (p : Nat) : Nat :=
  match k.src with
  | .core n => if panelOf n = p then (if k.op = .read then 0 else 1) else 2
  | _ => 2

/-- The units that a request touches (R162). -/
def unitsOf (off size : Nat) : Nat := (off + size - 1) / 512 + 1 - off / 512

/-- The tracker entries of a request that hub `p` holds (R164): a write gives up that of each unit written, a read keeps
them. -/
def HubReq.entries (s : State) (q : HubReq) : Nat :=
  match packetOf s q.pid with
  | some k => if k.op = .read then unitsOf (k.dst % 2 ^ 37) k.size else q.left
  | none => q.left

/-- The reply to a read of the stack of panel `p` that has not left the hub (R164). -/
def leaving (p : Nat) (k : Packet) : Bool :=
  k.reply && decide (k.op = .read) && decide (k.pos = .hub p) && decide (200 < k.inp)
    && (match targetOf k.dst 1 with | some (.stk q _) => q == p && k.data.length == k.size | _ => false)

/-- Tracker entries that a class holds at hub `p` (R164): an entry is held until its data have left the hub or its write has
been accepted. -/
def entriesOf (s : State) (p cls : Nat) : Nat :=
  (((s.panel p).hub.waiting.filter (fun q => q.cls == cls)).map (HubReq.entries s)).sum
    + ((s.packets.filter (fun k => leaving p k && classAt k p == cls)).map (fun k => unitsOf (k.dst % 2 ^ 37) k.size)).sum
/-- Tracker entries held at hub `p` (R164). -/
def entriesAll (s : State) (p : Nat) : Nat := entriesOf s p 0 + entriesOf s p 1 + entriesOf s p 2

/-- The status with which a stack interface turns a request away, or 0 (R32, R192, R193, R197, R203, R209, R210): what a
partner's interface sends is served in NAP and SLEEP, and in the copy range. -/
def stackStatus (s : State) (p off : Nat) (k : Packet) : Nat :=
  let P := s.panel p
  if P.lost then 0x06
  else if decide (P.power = .off) || (!k.mirror && decide (P.power ≠ .active)) then 0x04
  else if P.inReset then 0x07
  else if !k.mirror && stackReserved s p off k.size then 0x0F
  else if k.epoch ≠ epochOf s (41000 + p) then 0x07
  else if (!k.raw && P.stack.key.isNone) || decide (P.stack.rebuild ≠ .none) then 0x04
  else 0

/-- A request has work left at the partner (R209). -/
def owesPartner (K : Stack) (pid : Nat) : Bool := K.partner.any (fun e => e.pid == pid && decide (e.kind ≠ .rebuild))

/-- A stack request arrives at the hub of its panel: tracked, refused, or answered (R163, R164). -/
def hubArrive (pid : Nat) (s : State) : State :=
  match packetOf s pid with
  | none => s
  | some k =>
    match k.reply, k.pos, targetOf k.dst k.size with
    | false, .there, some (.stk p off) =>
      let H := (s.panel p).hub
      if H.waiting.any (fun q => q.pid == pid) || (s.panel p).shorted || owesPartner (s.stack p) pid || overtakes s k then s
      else
        let st := stackStatus s p off k
        if st = 0x06 then countAbsent p (answer pid st [] [] s)
        else if st ≠ 0 then answer pid st [] [] s
        else
          let cls := classAt k p
          let u := off / 512
          let units := unitsOf off k.size
          if 16 * H.split.of cls < entriesOf s p cls + units ∨ 1024 < entriesAll s p + units then
            answer pid 0x0D [] [] (s.onHub p (fun H => { H with refused := Tab.put 0 H.refused cls (inc 16 (Tab.get 0 H.refused cls)) }))
          else
            s.onHub p (fun H =>
              { H with
                waiting := H.waiting ++
                  [{ pid := pid, cls := cls, unit := u, left := units, fresh := true, late := false, counted := false
                     secs := [], data := [], pois := [], status := 0 }] })
    | _, _, _ => s

/-- A request waits at the stack interface for a copy, a merge or a retirement of its unit (R204, R206, R209). -/
def unitBusy (s : State) (p : Nat) (q : HubReq) : Bool :=
  let K := s.stack p
  K.merges.contains q.pid || !q.secs.isEmpty
    || K.merges.any (fun m => (s.panel p).hub.waiting.any (fun w => w.pid == m && w.unit == q.unit))
    || (match K.retiring with | some pg => pg == q.unit / 8 | none => false)

/-- The grant window moves on; at its end the requests of an exhausted class that arrived in it and still wait are late,
and a new split applies from the next window (R162, R163, R166). -/
def windowStep (cls : Nat) (H : Hub) : Hub :=
  let used := Tab.set H.used cls (Tab.get 0 H.used cls + 1)
  if H.grants + 1 = 64 then
    { H with
      grants := 0, used := []
      waiting := H.waiting.map (fun w =>
        { w with fresh := false, late := w.late || (w.fresh && decide (H.split.of w.cls ≤ Tab.get 0 used w.cls)) }) }
  else { H with grants := H.grants + 1, used := used }

/-- Changes a request that a hub holds. -/
def onWaiting (p pid : Nat) (f : HubReq → HubReq) (s : State) : State :=
  s.onHub p (fun H => { H with waiting := H.waiting.map (fun w => if w.pid = pid then f w else w) })

/-- A delayed request is counted once, at its hub and at its core (R163, R172). -/
def countDelayed (p : Nat) (q : HubReq) (k : Packet) (s : State) : State :=
  let s := onWaiting p q.pid (fun w => { w with counted := true })
    (s.onHub p (fun H => { H with delayed := Tab.put 0 H.delayed q.cls (inc 16 (Tab.get 0 H.delayed q.cls)) }))
  match k.src with
  | .core n => onCountsAt n k.ctx (fun c => { c with delayed := inc 8 c.delayed }) s
  | _ => s

/-- A request is done at its hub: a read is answered with its data, a write with its acknowledgement once its mirror
writes are done (R201, R209). -/
def requestDone (p : Nat) (q : HubReq) (s : State) : State :=
  let s := s.onHub p (fun H => { H with waiting := H.waiting.filter (fun w => w.pid != q.pid) })
  if owesPartner (s.stack p) q.pid then s
  else answer q.pid q.status q.data (granules q.data.length (fun i => nth false q.pois i)) s

/-- A unit of a request is done. -/
def unitDone (p : Nat) (q : HubReq) (s : State) : State :=
  if 1 < q.left then onWaiting p q.pid (fun _ => { q with unit := q.unit + 1, left := q.left - 1, secs := [] }) s
  else requestDone p q s

/-- The partner's stack is to take the writes of this one (R209, R210): a survivor's again once the lost panel has
returned, until it has rebuilt. -/
def mirrorsTo (s : State) (p : Nat) : Option Nat :=
  if !(s.stack p).mirrored then none
  else
    match partnerOf s p with
    | some q => if !(s.stack p).mirrorLost ∨ (!(s.panel q).lost ∧ (s.stack q).rebuild ≠ .none) then some q else none
    | none => none

/-- The offset at the partner of the other copy of an offset (R208). -/
def otherCopy (x : Nat) : Nat := if x < mirrorBase then x + mirrorBase else x - mirrorBase

/-- The write of one unit is to be mirrored (R209). -/
def mirrorDue (p pid x : Nat) (data : List Byte) (pois : List Bool) (s : State) : State :=
  let mine := decide (x < mirrorBase) || ((s.stack p).mirrorLost && decide (x < deviceBase))
  match mirrorsTo s p, packetOf s pid with
  | some _, some k =>
    if k.mirror || !mine then s
    else s.onStack p (fun K => { K with partner := K.partner ++ [{ pid := pid, kind := .write, off := x, data := data, pois := pois, sent := none }] })
  | _, _ => s

/-- Sends a request to the partner's stack (R209): of the remote class, under a tag of the interface. -/
def sendPartner (p q : Nat) (r : MirrorReq) (s : State) : State :=
  let a := 2 ^ 46 + q * 2 ^ 40 + otherCopy r.off
  let (_, e) := expectOf s a
  let t := (s.stack p).tag
  let s := s.onStack p (fun K =>
    { K with tag := (t + 1) % 1024, partner := K.partner.map (fun x => if x = r then { r with sent := some (t, e) } else x) })
  let len := match r.kind with | .write => r.data.length | .copy => 64 | .rebuild => 512
  launchPacket
    { mkRequest s (.stack p) (if r.kind = .write then .write else .read) a len t 0 0 e r.data r.pois with
      mirror := true, raw := decide (r.kind = .rebuild) } s

/-- A read whose reply carries a status of its own: an LDF (R41, R201) or one of the host (R270). -/
def isDirect (s : State) (k : Packet) : Bool :=
  match k.src with
  | .core n => (match (s.core n).outst.find? (fun e => e.1 == k.tag) with | some (_, r) => (match r.use with | .ldf _ _ => true | _ => false) | none => false)
  | .seq _ => true
  | .die => true
  | _ => false

/-- The reply to a read of core `n` comes late for a corrected error (R47). -/
def markCorrected (n : Nat) (k : Packet) (s : State) : State :=
  s.onCore n (fun c =>
    { c with outst := c.outst.map (fun e => if e.1 = k.tag ∧ e.2.ctx = k.ctx ∧ e.2.inv % 256 = k.inv % 256 then (e.1, { e.2 with corrected := true }) else e) })

/-- The part of a request that lies in its present unit: first offset and end. -/
def unitPart (q : HubReq) (k : Packet) : Nat × Nat :=
  let off := k.dst % 2 ^ 37
  (max off (q.unit * 512), min (off + k.size) (q.unit * 512 + 512))

/-- The sectors of the unit of a read are at hand: the read takes what it needs of them (R160, R201). -/
def readDone (p : Nat) (q : HubReq) (k : Packet) (s : State) : State :=
  let (lo, hi) := unitPart q k
  let bs := ((q.secs.flatMap (fun e => e.2.bytes.map (fun b => (b, e.2.pois)))).drop (lo - q.unit * 512)).take (hi - lo)
  let mine := q.secs.filter (fun e => overlap (q.unit * 512 + 64 * e.1) 64 lo (hi - lo))
  let st := if isDirect s k && bs.any (·.2) then (if mine.any (·.2.fresh) then 0x09 else 0x0E) else q.status
  let s := match k.src with
    | .core n => if mine.any (·.2.fixed) then markCorrected n k s else s
    | _ => s
  unitDone p { q with data := q.data ++ bs.map (·.1), pois := q.pois ++ bs.map (·.2), status := st } s

/-- The outcome of sector `i` of the unit of a request; with the last one a read is done, a merge may write. -/
def sectorCame (p : Nat) (q : HubReq) (k : Packet) (i : Nat) (r : SecRd) (s : State) : State :=
  let q := { q with secs := Tab.set q.secs i r }
  if q.secs.length = 8 ∧ k.op = .read then readDone p q k s else onWaiting p q.pid (fun _ => q) s

/-- The request held at a hub with a packet number. -/
def waitingAt (s : State) (p pid : Nat) : Option HubReq := (s.panel p).hub.waiting.find? (fun w => w.pid == pid)

/-- What `STK_UEADDR.source` tells of the read of a unit (R213): a read, a read-merge, a mirror write or rebuild. -/
def readSource (k : Packet) : Nat := if k.raw || (k.mirror && decide (k.op ≠ .read)) then 3 else if k.op = .read then 0 else 2

/-- Reads the eight sectors of the unit of a request, for a read or a merge (R160, R204); where a copy is to be read the
request for it leaves at once (R209). -/
def readUnit (p pid : Nat) (k : Packet) (s : State) : State :=
  (List.range 8).foldl (fun s i =>
    match waitingAt s p pid with
    | none => s
    | some q =>
      let x := q.unit * 512 + 64 * i
      let (r, s) := readSector p x (readSource k) s k.raw
      match r, copyAt s p x with
      | some r, _ => sectorCame p q k i r s
      | none, some m =>
        let c : MirrorReq := { pid := pid, kind := .copy, off := x, data := [], pois := [], sent := none }
        sendPartner p m c (s.onStack p (fun K => { K with partner := K.partner ++ [c] }))
      | none, none => s) s

/-- Serves the granted unit of a request (R160, R199 to R204). -/
def serveUnit (p : Nat) (q : HubReq) (k : Packet) (s : State) : State :=
  let (lo, hi) := unitPart q k
  let off := k.dst % 2 ^ 37
  match k.op with
  | .read => readUnit p q.pid k s
  | _ =>
    if hi - lo = 512 then
      let part := (k.data.drop (lo - off)).take 512
      let pp := k.pois.drop ((lo - off) / 64)
      unitDone p q (mirrorDue p k.pid lo part (pp.take 8) (writeSectors p lo part pp s))
    else readUnit p q.pid k (s.onStack p (fun K => { K with merges := K.merges ++ [q.pid] }))

/-- The hub grants one unit (R162, R163). A stack interface that has lost its key serves nothing (R203). A stack whose
panel rests goes back to its rest (R209). -/
def hubGrant (p : Nat) (s : State) : State :=
  let H0 := (s.panel p).hub
  let s := if H0.grants = 0 then s.onHub p (fun H => { H with split := H.next.getD H.split, next := none }) else s
  let H := (s.panel p).hub
  let cand := if (s.panel p).shorted then [] else H.waiting.filter (fun q => !unitBusy s p q)
  let inShare := fun (q : HubReq) => decide (Tab.get 0 H.used q.cls < H.split.of q.cls)
  match (match cand.find? inShare with | some q => some q | none => cand.head?) with
  | none => s
  | some q =>
    match packetOf s q.pid with
    | none => s.onHub p (fun H => { H with waiting := H.waiting.filter (fun w => w.pid != q.pid) })
    | some k =>
      let late := q.late || (q.fresh && !inShare q)
      let s := if late && !q.counted then countDelayed p q k s else s
      let s := s.onHub p (windowStep q.cls)
      if (s.stack p).key.isNone && !k.raw then requestDone p { q with status := 0x04, data := [], pois := [] } s
      else
        let s := s.onStack p (fun K => { K with power := if (s.panel p).power = .active then .active else K.power, lastUse := s.now })
        match waitingAt s p q.pid with
        | some q => serveUnit p q k s
        | none => s

/-- The oldest read-merge of a stack is done (R204), once its unit has been read; one whose key is gone is not served
(R203). -/
def mergeNow (p : Nat) (s : State) : State :=
  match (s.stack p).merges with
  | [] => s
  | pid :: t =>
    match waitingAt s p pid, packetOf s pid with
    | some q, some k =>
      if (s.stack p).key.isNone then
        requestDone p { q with status := 0x04, data := [], pois := [] } (s.onStack p (fun K => { K with merges := t }))
      else if q.secs.length < 8 then s
      else
        let s := s.onStack p (fun K => { K with merges := t })
        let (lo, hi) := unitPart q k
        let off := k.dst % 2 ^ 37
        let part := (k.data.drop (lo - off)).take (hi - lo)
        let pp := granules part.length (fun i => nth false k.pois ((lo - off + i) / 64))
        unitDone p q (mirrorDue p pid lo part pp (mergeUnit p q.unit lo part pp (q.secs.map (·.2)) s))
    | _, _ => s.onStack p (fun K => { K with merges := t })

/-! Mirroring (R208 to R210). -/

/-- What is to be done at the partner for a request is done; the last of a write acknowledges it (R209). -/
def partnerDone (p : Nat) (r : MirrorReq) (s : State) : State :=
  let s := s.onStack p (fun K => { K with partner := K.partner.filter (fun x => x != r) })
  if decide (r.kind ≠ .write) || (s.stack p).partner.any (fun x => x.pid == r.pid && decide (x.kind = .write))
      || (waitingAt s p r.pid).isSome then s
  else answer r.pid 0 [] [] s

/-- MIRROR_WRITE: the oldest mirror write, or refused copy or rebuild read, that has not been sent leaves for the partner; it waits
while the partner's panel is in reset (R209, R210). Where the partner is lost the write is done, and a sector without its
copy is bad. -/
def mirrorWriteNow (p : Nat) (s : State) : State :=
  match (s.stack p).partner.find? (fun r => r.sent.isNone) with
  | none => s
  | some r =>
    match (if r.kind = .rebuild then partnerOf s p else mirrorsTo s p) with
    | some q => if (s.panel q).inReset then s else sendPartner p q r s
    | none =>
      let s := partnerDone p r s
      if r.kind ≠ .copy then s
      else
        match waitingAt s p r.pid, packetOf s r.pid with
        | some _, some k => readUnit p r.pid k s
        | _, _ => s

/-- The outcome of a copy read (R209): a good copy is delivered as corrected and rewritten at the primary; else the sector
is bad. A stack interface whose key is gone serves the request no longer (R203). -/
def copyCame (p : Nat) (r : MirrorReq) (good : Bool) (data : List Byte) (s : State) : State :=
  match waitingAt s p r.pid, packetOf s r.pid with
  | some q, some k =>
    let i := r.off % 512 / 64
    if (s.stack p).key.isNone then
      requestDone p { q with status := 0x04, data := [], pois := [] }
        (s.onStack p (fun K => { K with merges := K.merges.filter (· != q.pid) }))
    else if good then
      sectorCame p q k i { bytes := data, pois := false, fresh := false, fixed := true }
        ((writeSector p r.off data false s).onStack p (fun K => { K with mirrorFix := inc 8 K.mirrorFix }))
    else
      let phys := physOf (s.stack p) r.off
      let aw := expectAw s p r.off
      let addr : Bool := match decideAt s p phys aw with | .uncorrectable a => a | _ => false
      sectorCame p q k i { bytes := plainSector s p r.off (sectorBytes s p phys), pois := true, fresh := true, fixed := false }
        (markSector p r.off phys aw (readSource k) addr s)
  | _, _ => s

/-- A rebuilding stack takes the sectors of one unit as its partner holds them, with their marks (R203, R210): they carry the
address words that the partner expects of them. -/
def rebuiltUnit (p q : Nat) (r : MirrorReq) (data : List Byte) (pois : List Bool) (s : State) : State :=
  (List.range 8).foldl (fun s i =>
    let d := (data.drop (64 * i)).take 64
    let phys := physOf (s.stack p) (r.off + 64 * i)
    let aw := expectAw s q (otherCopy (r.off + 64 * i))
    (putSector p phys d (sectorCheck d aw (nth false pois i)) s).onStack p (fun K =>
      { K with rewrites := K.rewrites.filter (· != phys / 64) })) s

/-- A reply of the partner's stack reaches the interface (R192, R209): one refused, turned away or reset is sent
again. -/
def stackReply (k : Packet) (p : Nat) (s : State) : State :=
  let s := dropPacket k.pid s
  match (s.stack p).partner.find? (fun r => r.sent == some (k.tag, k.epoch)) with
  | none => countEpoch p s
  | some r =>
    if k.status = 0x0D ∨ k.status = 0x07 ∨ (k.status = 0x04 ∧ r.kind ≠ .copy) then
      s.onStack p (fun K => { K with partner := K.partner.map (fun x => if x = r then { r with sent := none } else x) })
    else
      let s := partnerDone p r s
      match r.kind, partnerOf s p with
      | .copy, _ => copyCame p r (decide (k.status = 0) && !k.pois.any id) k.data s
      | .rebuild, some q => if k.status = 0 then rebuiltUnit p q r k.data k.pois s else s
      | _, _ => s

/-- Reads a sector without its copy. -/
def forceSector (p x source : Nat) (s : State) : SecRd × State :=
  match readSector p x source s with
  | (some r, s) => (r, s)
  | (none, s) =>
    let phys := physOf (s.stack p) x
    let aw := expectAw s p x
    let addr : Bool := match decideAt s p phys aw with | .uncorrectable a => a | _ => false
    ({ bytes := plainSector s p x (sectorBytes s p phys), pois := true, fresh := true, fixed := false }
      , markSector p x phys aw source addr s)

/-- The bytes of the sector at offset `x` as a read without a key decodes them (R200). -/
def decodedBytes (s : State) (p x : Nat) : List Byte :=
  let phys := physOf (s.stack p) x
  fixedBytes s p phys (decideAt s p phys (expectAw s p x))

/-- Writes a part of one unit at once, merged where it is narrow (R204). -/
def putPart (p x : Nat) (data : List Byte) (pois : List Bool) (s : State) : State :=
  if (s.stack p).key.isNone then s
  else if data.length = 512 then writeSectors p x data pois s
  else
    let (rs, s) := (List.range 8).foldl (fun (a : List SecRd × State) i =>
      let (r, s) := forceSector p (x / 512 * 512 + 64 * i) 2 a.2
      (a.1 ++ [r], s)) ([], s)
    mergeUnit p (x / 512) x data pois rs s

/-- Writes what is left of a write that hub `p` holds, with its mirror writes. -/
def finishWrite (p : Nat) (q : HubReq) (k : Packet) (s : State) : State :=
  let off := k.dst % 2 ^ 37
  (List.range q.left).foldl (fun s i =>
    let (lo, hi) := unitPart { q with unit := q.unit + i } k
    let part := (k.data.drop (lo - off)).take (hi - lo)
    let pp := granules part.length (fun j => nth false k.pois ((lo - off + j) / 64))
    let s := putPart p lo part pp s
    match mirrorsTo s p with
    | some m => if k.mirror ∨ mirrorBase ≤ lo then s else putPart m (otherCopy lo) part pp s
    | none => s) s

/-- Every stack interface completes the writes it has accepted (R347): first those that mirror, then its own. -/
def finishWrites (s : State) : State :=
  let held := fun (mirror : Bool) (s : State) =>
    allPanels.foldl (fun s p => (s.panel p).hub.waiting.foldl (fun s q =>
      match packetOf s q.pid with
      | some k => if k.op ≠ .read ∧ k.mirror = mirror then finishWrite p q k s else s
      | none => s) s) s
  let sent := fun (s : State) =>
    allPanels.foldl (fun s p => (s.stack p).partner.foldl (fun s r =>
      match partnerOf s p with
      | some m => if r.kind ≠ .write ∨ (s.panel m).lost then s else putPart m (otherCopy r.off) r.data r.pois s
      | none => s) s) s
  held false (sent (held true s))

/-- Copies the stored sectors of a physical range, bytes and check bytes as they are (R206, R210). -/
def copyStored (p x q y len : Nat) (s : State) : State :=
  let cells := (s.mem.filter (fun e => decide (stackKey p x ≤ e.1) && decide (e.1 < stackKey p x + len))).map
    (fun e => (e.1 - stackKey p x + stackKey q y, e.2))
  let secs := ((s.stack p).checks.filter (fun e => decide (x / 64 ≤ e.1) && decide (e.1 < (x + len) / 64))).map
    (fun e => (e.1 - x / 64 + y / 64, e.2))
  let mem := cells.foldl (fun m e => memPut m e.1 e.2) (Tab.delRange s.mem (stackKey q y) len)
  let s := { s with mem := mem }
  s.onStack q (fun K => { K with checks := secs.foldl (fun t e => Tab.set t e.1 e.2) (Tab.delRange K.checks (y / 64) (len / 64)) })

/-- The sectors of a range of offsets of stack `q` that hold anything, by offset. -/
def heldSectors (s : State) (q x len : Nat) : List Nat :=
  let K := s.stack q
  let raw := (K.checks.map (·.1)) ++ (s.mem.filter (fun e => decide (stackKey q 0 ≤ e.1) && decide (e.1 < stackKey q 0 + 2 ^ 37))).map
    (fun e => (e.1 - stackKey q 0) / 64)
  let offs := raw.filterMap (fun i =>
    if i * 64 < spareBase ∨ stagingBase ≤ i * 64 then some (i * 64)
    else (K.retire.find? (fun e => e.2 == (i * 64 - spareBase) / 4096)).map (fun e => e.1 * 4096 + i * 64 % 4096))
  (offs.filter (fun o => decide (x ≤ o) && decide (o < x + len) && (raw.contains (physOf K o / 64)))).dedup

/-- The units that a rebuilding stack `p` has still to ask of the survivor `q`, from unit `u` on (R210): those that hold
anything there; the others read as both stacks were filled. -/
def rebuildLeft (s : State) (q u : Nat) : List Nat :=
  let held := (heldSectors s q 0 deviceBase).map (fun x => otherCopy x / 512)
  held.filter (fun v => decide (u ≤ v))

/-- MIRROR_REBUILD: the returned panel's stack interface asks the survivor's for the next unit of either range (R210), as a
remote request to its hub (R162). -/
def rebuildNow (p : Nat) (s : State) : State :=
  let K := s.stack p
  match partnerOf s p with
  | some q =>
    if K.rebuild = .none ∨ (s.panel q).lost then s
    else
      let u := if K.rebuild = .due then 0 else K.rebuilt
      match rebuildLeft s q u with
      | [] => s.onStack p (fun K => { K with rebuild := .running, rebuilt := deviceBase / 512 })
      | v :: t =>
        let m := t.foldl min v
        let r : MirrorReq := { pid := 0, kind := .rebuild, off := 512 * m, data := [], pois := [], sent := none }
        let s := s.onStack p (fun K => { K with rebuild := .running, rebuilt := m + 1, partner := K.partner ++ [r] })
        if (s.panel q).inReset then s else sendPartner p q r s
  | none => s

/-- The rebuild ends once every unit has come (R210). -/
def rebuildDone (p : Nat) (s : State) : State :=
  let K := s.stack p
  match partnerOf s p with
  | some q =>
    if K.rebuild ≠ .running ∨ K.rebuilt < deviceBase / 512 ∨ K.partner.any (fun r => decide (r.kind = .rebuild)) then s
    else
      (s.onStack p (fun K => { K with rebuild := .none, mirrorLost := false })).onStack q (fun K => { K with mirrorLost := false })
  | none => s

/-! Scrub, rewrite, fill, retirement, power (R201, R205, R206, R211, R392). -/

/-- The address word that the sector at a physical offset ought to carry (R206, R208). -/
def ownerAw (s : State) (p phys : Nat) : Nat :=
  if spareBase ≤ phys ∧ phys < stagingBase then
    match (s.stack p).retire.find? (fun e => e.2 == (phys - spareBase) / 4096) with
    | some e => expectAw s p (e.1 * 4096 + phys % 4096)
    | none => addrWord p phys
  else expectAw s p phys

/-- Scrubs one sector (R205). -/
def scrubSector (p : Nat) (s : State) (phys : Nat) : State :=
  match decideAt s p phys (ownerAw s p phys) with
  | .corrected _ _ => noteCorrected p phys s
  | .uncorrectable addr => markSector p phys phys (ownerAw s p phys) 1 addr s
  | .poisoned => s.onStack p (fun k => { k with poisonRd := inc 8 k.poisonRd })
  | .good => s

/-- The power of the stack of a panel that is ACTIVE (R211): in self-refresh while the session is SUSPENDED. -/
def wakePower (s : State) (p : Nat) : StackPower :=
  match partOf s p with
  | some k => if (s.part k).session = .suspended then .selfRefresh else .active
  | none => .active

/-- The stacks of a partition follow its session (R211). -/
def stacksFollow (k : Nat) (s : State) : State :=
  (panelsOf s k).foldl (fun s p =>
    if (s.panel p).power = .active ∧ (s.stack p).power ≠ .off then
      let w := wakePower s p
      s.onStack p (fun K => { K with power := w, lastUse := s.now })
    else s) s

/-- The stack can be read: neither in self-refresh nor off. -/
def stackAwake (k : Stack) : Bool := decide (k.power = .active) || decide (k.power = .powerDown)

/-- Patrol scrub reads one unit, when its interval has passed; a commanded pass goes on at once (R205). -/
def scrubNow (p : Nat) (s : State) : State :=
  let K := s.stack p
  if !stackAwake K || decide (K.fill ≠ .none) then s
  else
    match K.pass with
    | some r =>
      let s := (List.range 8).foldl (fun s i => scrubSector p s (r.unit * 512 + 64 * i)) s
      s.onStack p (fun K => { K with pass := if r.left ≤ 1 then none else some { unit := r.unit + 1, left := r.left - 1 } })
    | none =>
      if K.scrubOn && decide (K.lastScrub + K.interval ≤ s.now) then
        let s := (List.range 8).foldl (fun s i => scrubSector p s (K.next * 512 + 64 * i)) s
        s.onStack p (fun K => { K with next := (K.next + 1) % 2 ^ 28, lastScrub := s.now })
      else s

/-- The oldest corrected sector is written back (R201). -/
def rewriteNow (p : Nat) (s : State) : State :=
  match (s.stack p).rewrites with
  | [] => s
  | x :: t =>
    let s := s.onStack p (fun K => { K with rewrites := t })
    let aw := ownerAw s p (x * 64)
    let out := decideAt s p (x * 64) aw
    match out with
    | .corrected _ _ => let data := fixedBytes s p (x * 64) out; putSector p (x * 64) data (sectorCheck data aw false) s
    | _ => s

/-- The contents of a stack are lost (R211). -/
def stackLost (p : Nat) (s : State) : State :=
  let s := { s with mem := Tab.delRange s.mem (stackKey p 0) (2 ^ 37) }
  s.onStack p (fun K =>
    { K with
      power := .off, key := none, checks := [], rewrites := [], merges := [], partner := [], pass := none
      retiring := none, fill := .none })

/-- The fill of a stack begins when the bring-up of its panel is complete, and ends (R392); sectors written since the
bring-up stand. -/
def fillNow (p : Nat) (s : State) : State :=
  if (s.stack p).fill = .due ∧ (s.panel p).power = .active ∧ (s.panel p).bring = .none then s.onStack p (fun K => { K with fill := .running }) else s
def fillDone (p : Nat) (s : State) : State :=
  if (s.stack p).fill = .running then s.onStack p (fun K => { K with fill := .none, next := 0, lastScrub := s.now }) else s

/-- A page retirement completes (R206): the page's ciphertext, check bytes and marks move to the next spare
page, and the entry is written. -/
def retireDone (p : Nat) (s : State) : State :=
  match (s.stack p).retiring with
  | none => s
  | some pg =>
    let K := s.stack p
    let from_ := physOf K (pg * 4096)
    let dst := spareBase + K.spares * 4096
    let s := copyStored p from_ p dst 4096 s
    s.onStack p (fun K =>
      { K with
        retire := Tab.set K.retire pg K.spares
        entries := if K.entries.contains pg then K.entries else K.entries ++ [pg]
        spares := K.spares + 1, retiring := none })

/-- An active stack without a request for 1 µs enters power-down (R211). -/
def powerDownNow (p : Nat) (s : State) : State :=
  let K := s.stack p
  if decide (K.power = .active) && (s.panel p).hub.waiting.isEmpty && K.merges.isEmpty && decide (K.fill = .none)
      && decide (K.lastUse + 100 ≤ s.now) then
    s.onStack p (fun K => { K with power := .powerDown })
  else s

end Sys2Proof.Machine
end

