-- ==== Sys2Proof/Machine/Die.lean ====
section
/-! DEFINITION. The control die's view of partitions and commands: partition states (R275), completion of
window and partition commands (R278 to R283), result windows, step records (R259 to R262). -/

namespace Sys2Proof.Machine

/-! Partitions (R275). -/

/-- A context is resident on core `n` (R52). -/
def Core.residents (c : Core) : Bool := (List.range 4).any (fun k => (Tab.get Ctx.init c.ctxs k).resident)

/-- The logical cores of partition `k` that hold any state. -/
def coresIn (s : State) (k : Nat) : List Nat := (s.cores.map (·.1)).filter (fun n => (s.part k).has (panelOf n))

/-- A context is resident in partition `k`. -/
def partResident (s : State) (k : Nat) : Bool := (coresIn s k).any (fun n => (s.core n).residents)

/-- A BIND_OFF runs. -/
def Part.binding (K : Part) : Bool := match K.cmd with | some c => decide (c.kind = .bindOff) | none => false

/-- Every live panel of a partition is OFF, or rests in SLEEP or is OFF. -/
def allOff (s : State) (k : Nat) : Bool :=
  (panelsOf s k).all (fun p => (s.panel p).lost || decide ((s.panel p).power = .off))
def allAsleep (s : State) (k : Nat) : Bool :=
  (panelsOf s k).all (fun p => (s.panel p).lost || decide ((s.panel p).power = .off) || decide ((s.panel p).power = .sleep))

/-- RUNNING applies to a partition (R275): a context is resident or a sequencer runs. -/
def partRuns (s : State) (k : Nat) : Bool := partResident s k || (panelsOf s k).any (fun p => (s.seq p).busy)

/-- A partition is RUNNING, HOLD, REPEATING or in BIND_OFF, whether or not `PSTAT` shows FAULT before them (R275;
log entry 123). -/
def partBusy (s : State) (k : Nat) : Bool :=
  let K := s.part k
  K.binding || K.job.hold || K.job.repeating.isSome || partRuns s k

/-- The state of a partition (R275): what `PSTAT` shows. -/
def pstate (s : State) (k : Nat) : Nat :=
  let K := s.part k
  if !K.defined then 0
  else if K.fault then 7
  else if K.binding then 9
  else if K.job.hold then 5
  else if K.job.repeating.isSome then 6
  else if partRuns s k then 4
  else if K.raising || (panelsOf s k).any (fun p => decide ((s.panel p).bring ≠ .none)) then 2
  else if allOff s k then 0
  else if allAsleep s k then 1
  else 3

/-- The partition whose panels a port joins (R218). -/
def portPart (s : State) (o : Nat) : Option Nat :=
  (List.range 4).find? (fun k => (s.part k).has (portPanels o).1 && (s.part k).has (portPanels o).2)

/-- A role whose port is a job port (R227). -/
def Role.job (r : Role) : Bool := decide (r = .ring) || decide (r = .pipe) || decide (r = .reduce)

/-- The job ports of a partition, in rising order. -/
def jobPorts (s : State) (k : Nat) : List Nat :=
  (List.range 16).filter (fun o => (s.port o).role.job && portPart s o == some k)

/-! Command window (R278 to R283). -/

/-- Eight result words (R278). -/
def resWords (l : List Nat) : List W64 := (List.range 8).map (fun i => BitVec.ofNat 64 (l.getD i 0))

/-- The window command ends: results, then code and busy in one update (R278). -/
def winEnd (code : Nat) (res : List Nat) (s : State) : State :=
  s.onHost (fun h => { h with res := resWords res, win := none, code := code })

/-- Ends the window command if it is the one with this opcode. -/
def winEndIf (op code : Nat) (res : List Nat) (s : State) : State :=
  match s.host.win with
  | some w => if w.op = op then winEnd code res s else s
  | none => s

/-- The key of byte `x` of the result window of partition `k` (R283). -/
def windowKey (k x : Nat) : Nat := 2 ^ 48 + 0x100000 + k * 0x40000 + x

/-- Zeroes the result window of a partition (R283). -/
def zeroWindow (k : Nat) (s : State) : State :=
  let s := { s with mem := Tab.delRange s.mem (windowKey k 0) 0x40000 }
  s.onPart k (fun K => { K with partial_ := false })

/-- A partition command ends: the command record is written, then busy clears and the code shows (R281,
R283). -/
def partEnd (k code : Nat) (res : List Nat) (s : State) : State :=
  let K := s.part k
  let rec_ := leBytes 4 (K.opcode + 256 * code + 65536 * K.tag) ++ leBytes 4 K.progress
    ++ leBytes 8 (res.getD 0 0) ++ leBytes 8 (res.getD 1 0) ++ leBytes 8 (res.getD 2 0)
  let s := { s with mem := memPutBytes s.mem (windowKey k 0) rec_ }
  s.onPart k (fun K => { K with cmd := none, code := code, raising := false })

/-! Step records (R259 to R262). -/

/-- The header of a partition's records (R260). -/
structure Hdr where
  job : Nat
  applied : Nat
  committed : Nat
  begun : Nat
  gen : Nat
  state : Nat

/-- A step record (R261). -/
structure Rec where
  step : Nat
  job : Nat
  state : Nat
  outcome : Nat
  gen : Nat
  ticks : Nat
  cause : Nat

def hdrBase : Nat := 0x1FB8000000
def recBase (n : Nat) : Nat := 0x1FB8001000 + (n % 1024) * 0x200

/-- The south-east panel of a partition. -/
def southEast (s : State) (k : Nat) : Nat := (s.part k).y1 * 8 + (s.part k).x1

/-- The stack that the device reads records from (R259). -/
def recPanel (s : State) (k : Nat) : Nat := if (s.panel (anchorOf s k)).lost then southEast s k else anchorOf s k

/-- Writes one record unit to both copies (R259): a lost panel keeps none. -/
def putUnit (k off : Nat) (bs : List Byte) (s : State) : State :=
  [anchorOf s k, southEast s k].dedup.foldl (fun s p =>
    if (s.panel p).lost then s
    else
      let data := bs ++ List.replicate (512 - bs.length) 0
      (List.range 8).foldl (fun s i => writeSector p (off + 64 * i) ((data.drop (64 * i)).take 64) false s) s) s

/-- The device reads a sector of the records (R259): what the sector code finds is counted, marked and logged as in any read
(R201). -/
def readUnitAt (k off : Nat) (s : State) : State := (forceSector (recPanel s k) off 0 s).2

/-- The header as the sector code decodes it (R200, R260). -/
def hdrOf (s : State) (k : Nat) : Hdr :=
  let w := leNat ((decodedBytes s (recPanel s k) hdrBase).take 32)
  { job := fld w 15 0, applied := fld w 63 32, committed := fld w 95 64, begun := fld w 127 96, gen := fld w 191 128
    state := fld w 199 192 }

/-- Writes the header. -/
def putHdr (k : Nat) (h : Hdr) (s : State) : State :=
  putUnit k hdrBase (leBytes 4 h.job ++ leBytes 4 h.applied ++ leBytes 4 h.committed ++ leBytes 4 h.begun
    ++ leBytes 8 h.gen ++ leBytes 8 h.state) s

/-- The record of step `n` as the sector code decodes it (R200, R261). -/
def recOf (s : State) (k n : Nat) : Rec :=
  let w := leNat ((decodedBytes s (recPanel s k) (recBase n)).take 32)
  { step := fld w 31 0, job := fld w 47 32, state := fld w 55 48, outcome := fld w 63 56, gen := fld w 127 64
    ticks := fld w 191 128, cause := fld w 199 192 }

/-- Writes the record of step `n`. -/
def putRec (k n : Nat) (r : Rec) (s : State) : State :=
  putUnit k (recBase n) (leBytes 4 r.step ++ leBytes 2 r.job ++ leBytes 1 r.state ++ leBytes 1 r.outcome
    ++ leBytes 8 r.gen ++ leBytes 8 r.ticks ++ leBytes 8 r.cause) s

/-- Reads the header and writes it changed. -/
def editHdr (k : Nat) (f : Hdr → Hdr) (s : State) : State := putHdr k (f (hdrOf s k)) (readUnitAt k hdrBase s)
/-- Reads the record of step `n` and writes it changed. -/
def editRec (k n : Nat) (f : Rec → Rec) (s : State) : State := putRec k n (f (recOf s k n)) (readUnitAt k (recBase n) s)

/-- The value of `applied` and `committed` in fresh records (R262), and the next step count below 0 (R258). -/
def freshStep : Nat := 0xFFFFFFFE
def beforeZero : Nat := 0xFFFFFFFF

/-- Writes the records fresh (R262). -/
def freshRecords (k job : Nat) (s : State) : State :=
  let s := putHdr k { job := job, applied := freshStep, committed := freshStep, begun := freshStep, gen := 0, state := 0 } s
  [anchorOf s k, southEast s k].dedup.foldl (fun s p =>
    if (s.panel p).lost then s
    else
      { s with mem := Tab.delRange s.mem (stackKey p (recBase 0)) (1024 * 512) }.onStack p (fun K =>
        { K with checks := Tab.delRange K.checks (recBase 0 / 64) (1024 * 8) })) s

/-- A header written fresh for a new job (R262): the records stay. -/
def freshHeader (k job : Nat) (s : State) : State :=
  putHdr k { job := job, applied := freshStep, committed := freshStep, begun := freshStep, gen := 0, state := 0 } s

/-- The step after another, modulo 2^32. -/
def stepAfter (n : Nat) : Nat := (n + 1) % 2 ^ 32
/-- The step before another, modulo 2^32. -/
def stepBefore (n : Nat) : Nat := (n + 2 ^ 32 - 1) % 2 ^ 32

/-- A partition's own proposal (R241, R262). -/
def ownProposal (s : State) (k : Nat) : Nat := stepAfter (hdrOf s k).applied

/-- The last decided step is recorded as applied (R257): APPLIED in its record, `applied` and `gen` in the
header. -/
def recordApplied (k : Nat) (s : State) : State :=
  match (s.job k).decided with
  | none => s
  | some (n, apply) =>
    let s := editRec k n (fun r => { r with state := 4 }) s
    let s := editHdr k (fun h => { h with applied := n, gen := if apply then (h.gen + 1) % 2 ^ 64 else h.gen }) s
    s.onJob k (fun J => { J with decided := none })

end Sys2Proof.Machine
end

