-- ==== Sys2Proof/Machine/LinkTx.lean ====
section
/-! DEFINITION. The sending side of a link port: flits and their CRC (R223), credits and the replay buffer
(R224, R225), forwarded messages (R231), control flits (R236, R239, R241). -/

namespace Sys2Proof.Machine

/-- One byte of a reflected CRC. -/
def crcByte (poly reg : Nat) (b : Byte) : Nat :=
  (List.range 8).foldl (fun r _ => if r % 2 = 1 then (r / 2) ^^^ poly else r / 2) (reg ^^^ b.toNat)

/-- A reflected CRC with initial value and final exclusive or of `ones`. -/
def crcOf (poly ones : Nat) (l : List Byte) : Nat := (l.foldl (crcByte poly) ones) ^^^ ones

/-- The frame check sequence of IEEE 802.3 (R223). -/
def crc32 (l : List Byte) : Nat := crcOf 0xEDB88320 0xFFFFFFFF l

/-- The CRC-64 of images (R285). -/
def crc64 (l : List Byte) : Nat := crcOf 0xC96C5795D7870F42 0xFFFFFFFFFFFFFFFF l

/-- Header bits [95:0] of a flit as 12 bytes (R223). -/
def headBytes (kind : Nat) (f : Flit) : List Byte :=
  leBytes 12 (kind + f.vc.toNat * 2 ^ 4 + f.seq.toNat * 2 ^ 6 + f.ack.toNat * 2 ^ 18 + f.credit.toNat * 2 ^ 30
    + f.creditVc.toNat * 2 ^ 38 + f.redOp.toNat * 2 ^ 40 + f.redFmt.toNat * 2 ^ 42 + f.nf.toNat * 2 ^ 43
    + f.poison.toNat * 2 ^ 44 + f.zero.toNat * 2 ^ 45 + f.job.toNat * 2 ^ 48 + f.step.toNat * 2 ^ 64)

/-- The CRC that a flit must carry (R223). -/
def flitCrc (kind : Nat) (f : Flit) : Nat := crc32 (headBytes kind f ++ f.payload)

/-- A payload filled with zeros to 240 bytes. -/
def payload240 (l : List Byte) : List Byte := (l ++ List.replicate 240 0).take 240

/-- A flit before it is sent: sequence number, acknowledgement, credits and CRC are set as it goes. -/
def draft (vc step job : Nat) (nf poison : Bool) (rop : Nat) (fmt : Bool) (data : List Byte) : Flit :=
  { vc := BitVec.ofNat 2 vc, seq := 0, ack := 0, credit := 0, creditVc := 0, redOp := BitVec.ofNat 2 rop
    redFmt := BitVec.ofBool fmt, nf := BitVec.ofBool nf, poison := BitVec.ofBool poison, zero := 0
    job := BitVec.ofNat 16 job, step := BitVec.ofNat 32 step, crc := 0, payload := payload240 data }

/-- Credits held for a channel (R225). -/
def Port.creditOf (P : Port) (vc : Nat) : Nat := Tab.get (bufferOf vc) P.credits vc

/-- A control flit that may use the last 8 buffers of channel 3 (R225). -/
def ctlKind (kind : Nat) : Bool := decide (3 ≤ kind) && decide (kind ≤ 5)

/-- A sequenced flit may be sent (R224, R225): none while the port is quiesced for a reset (R341). -/
def Port.canSend (P : Port) (kind vc : Nat) : Bool :=
  decide (P.state = .up) && !P.inReset && (!P.held || ctlKind kind) && decide (P.buf.length < 512) && decide ((if vc = 3 ∧ !ctlKind kind then 8 else 0) < P.creditOf vc)

/-- What a port needs to know to send: the tick, the partition flag as it stands (R108), the step open in its partition
(R246). -/
structure SendEnv where
  now : Nat
  flag : Bool
  step : Option Nat

/-- The partition that port `o` is a job port of (R227). -/
def jobOf (s : State) (o : Nat) : Option Nat := if (s.port o).role.job then portPart s o else none

/-- The sending environment of a port; only job ports carry the partition flag (R234). -/
def sendEnv (s : State) (o : Nat) : SendEnv :=
  match portPart s o with
  | some k => { now := s.now, flag := (s.port o).role.job && (s.job k).sample, step := if (s.job k).stepOpen then some (s.job k).n else none }
  | none => { now := s.now, flag := false, step := none }

/-- Puts a flit on the line: its header takes the sequence number `seq`, the acknowledgement and the CRC, and credits
if `pay` (R223 to R225). The header's other fields are the draft's. -/
def Port.send (kind seq : Nat) (pay : Bool) (f : Flit) (P : Port) : Flit × Port :=
  let back := if pay then (List.range 4).find? (fun v => Tab.get 0 P.owed v != 0) else none
  let cr := match back with | some v => min 255 (Tab.get 0 P.owed v) | none => f.credit.toNat
  let f : Flit :=
    { f with
      seq := BitVec.ofNat 12 seq, ack := BitVec.ofNat 12 (P.rxNext + 4095), credit := BitVec.ofNat 8 cr
      creditVc := match back with | some v => BitVec.ofNat 2 v | none => f.creditVc }
  let f := { f with crc := BitVec.ofNat 32 (flitCrc kind f) }
  (f, { P with
    line := P.line ++ [(kind, f)], ackDue := false
    owed := match back with | some v => Tab.set P.owed v (Tab.get 0 P.owed v - cr) | none => P.owed })

/-- Sends a sequenced flit, which is kept for replay (R223 to R225), with the partition flag (R234); one of the open step
with `nf` sets LNK_STEP.nf (R246). -/
def Port.emit (v : SendEnv) (t : TxFlit) (P : Port) : Port :=
  let (f, Q) := P.send t.kind P.txNext true { t.fl with nf := t.fl.nf ||| BitVec.ofBool v.flag }
  { Q with
    buf := P.buf ++ [{ t with fl := f }], txNext := (P.txNext + 1) % 4096
    credits := Tab.set P.credits t.fl.vc.toNat (P.creditOf t.fl.vc.toNat - 1)
    nf := P.nf || (f.nf == 1 && v.step == some f.step.toNat)
    lastAck := if P.buf.isEmpty then v.now else P.lastAck }

/-- Sends an unsequenced flit: IDLE, LANE or IDENT (R222, R223, R226). -/
def Port.plain (v : SendEnv) (kind : Nat) (data : List Byte) (P : Port) : Port :=
  (P.send kind P.txNext (decide (kind = 0)) (draft 0 0 P.job v.flag false 0 false data)).2

/-- Sends IDLE flits while credits or an acknowledgement are to be returned and no other flit takes them (R223 to
R225). -/
def Port.idles (v : SendEnv) : Nat → Port → Port
  | 0, P => P
  | fuel + 1, P =>
    if P.state = .up ∧ (P.ackDue ∨ (List.range 4).any (fun c => Tab.get 0 P.owed c != 0)) then Port.idles v fuel (P.plain v 0 [])
    else P

/-- Sends control flits that wait, as far as credits go. -/
def Port.sendCtls (v : SendEnv) : List TxFlit → Port → Port
  | [], P => { P with ctl := [] }
  | t :: l, P => if P.canSend t.kind 3 then Port.sendCtls v l (P.emit v t) else { P with ctl := t :: l }

/-- Sends the flits of a message that wait; the flits left over. -/
def Port.sendRun (v : SendEnv) : List TxFlit → Port → List TxFlit × Port
  | [], P => ([], P)
  | t :: l, P => if P.canSend t.kind t.fl.vc.toNat then Port.sendRun v l (P.emit v t) else (t :: l, P)

/-- Sends the messages of channel `vc` in their order, one whole message after another (R231). -/
def Port.sendFwds (v : SendEnv) (vc : Nat) : List FwdMsg → Port → Port
  | [], P => { P with fwds := Tab.set P.fwds vc [] }
  | m :: t, P =>
    let (rest, Q) := P.sendRun v m.flits
    if rest.isEmpty && m.done then Port.sendFwds v vc t Q
    else { Q with fwds := Tab.set Q.fwds vc ({ m with flits := rest } :: t) }

/-- Sends what waits at a port: control flits, then the messages of each channel. -/
def Port.flush (v : SendEnv) (P : Port) : Port :=
  (List.range 4).foldl (fun P vc => P.sendFwds v vc (Tab.get [] P.fwds vc)) (P.sendCtls v P.ctl)

/-- Puts a control flit in a port's transmit order. -/
def sendCtl (o kind step : Nat) (data : List Byte) (s : State) : State :=
  let v := sendEnv s o
  s.onPort o (fun P =>
    let t : TxFlit := { kind := kind, src := none, fl := draft 3 step P.job false false 0 false data }
    Port.flush v { P with ctl := P.ctl ++ [t] })

/-- Adds a flit to the message that the entry with key `src` sends or forwards through port `o` (R231). -/
def forwardFlit (src o : Nat) (t : TxFlit) (s : State) : State :=
  let v := sendEnv s o
  s.onPort o (fun P =>
    let vc := t.fl.vc.toNat
    let l := Tab.get [] P.fwds vc
    let fin := decide (t.kind = 2)
    let l := if l.any (fun m => m.src == src && !m.done) then
        l.map (fun m => if m.src = src ∧ !m.done then { m with flits := m.flits ++ [t], done := fin } else m)
      else l ++ [{ src := src, flits := [t], done := fin }]
    Port.flush v { P with fwds := Tab.set P.fwds vc l })

/-- Sets flag `f` of the sequencer of panel `p` (R61, R230). -/
def raiseFlag (p f : Nat) (s : State) : State := s.onSeq p (fun q => { q with flags := q.flags ||| (1#64 <<< f) })

/-- Records an entry's status other than OK (R230, R243). -/
def entryStatus (o st : Nat) (s : State) : State :=
  if st = 0 then s else s.onPort o (fun P => { P with lastSt := st })

/-- Every entry of a port. -/
def Port.entries (P : Port) : List Entry := (List.range 4).flatMap (fun vc => Tab.get [] P.q vc)

/-- Discards every posted entry of a port with a status; each sets its flag (R239, R248). Its requests under way go on, and
their replies find no entry. -/
def discardEntries (o st : Nat) (s : State) : State :=
  let es := (s.port o).entries
  let s := es.foldl (fun s e => entryStatus o st (raiseFlag e.panel e.flag s)) s
  s.onPort o (fun P => { P with q := [], reqs := [], fwds := [] })

/-- Discards the data flits that a port holds (R239): their buffers are returned. -/
def flushBuffers (o : Nat) (s : State) : State :=
  s.onPort o (fun P =>
    let cnt := fun vc => (Tab.get [] P.rx vc).length
    { P with
      rx := [], flushed := sat 8 (P.flushed + ((List.range 4).map cnt).sum)
      owed := (List.range 4).foldl (fun t vc => if cnt vc = 0 then t else Tab.set t vc (Tab.get 0 t vc + cnt vc)) P.owed })

/-- The payload of a VOID flit (R239). -/
def voidPayload (down : Bool) : List Byte := leBytes 1 (b2n down)

/-- The payload of a REJOIN flit (R241). -/
def rejoinPayload (s : State) (k : Nat) : List Byte :=
  let h := hdrOf s k
  leBytes 8 Config.serial.toNat ++ leBytes 4 h.applied ++ leBytes 4 h.committed ++ leBytes 4 (s.job k).resume
    ++ leBytes 1 (b2n (s.job k).down)

/-- The payload of a COMMIT flit (R236). -/
def tokenPayload (t : Token) : List Byte :=
  leBytes 8 t.origin ++ leBytes 4 t.step ++ leBytes 2 t.hops ++ leBytes 1 (b2n t.nf)

/-- Sends a REJOIN on a job port that is UP (R240). -/
def sendRejoin (k o : Nat) (s : State) : State :=
  if (s.port o).state = .up then
    (sendCtl o 5 (s.job k).resume (rejoinPayload s k) s).onPort o (fun P => { P with rejoinAt := s.now })
  else s

/-- Sends a REJOIN on every job port that is UP (R240). -/
def sendRejoins (k : Nat) (s : State) : State := (jobPorts s k).foldl (fun s o => sendRejoin k o s) s

/-- Sends VOID on every job port that is UP (R239). -/
def sendVoids (k : Nat) (s : State) : State :=
  (jobPorts s k).foldl (fun s o =>
    if (s.port o).state = .up then sendCtl o 4 (s.job k).voided (voidPayload (s.job k).down) s else s) s

/-- The port through which a partition's tokens leave (R236). -/
def commitPort (s : State) (k : Nat) : Option Nat :=
  (jobPorts s k).find? (fun o => decide ((s.port o).role = .reduce) && (s.port o).commitOut)

/-- Sends a token (R236). -/
def sendToken (k : Nat) (t : Token) (s : State) : State :=
  match commitPort s k with
  | some o => sendCtl o 3 t.step (tokenPayload t) s
  | none => s

end Sys2Proof.Machine
end

