-- ==== Sys2Proof/Machine/Training.lean ====
section
/-! DEFINITION. The training step (R63, R65, R107 to R109, R238 to R242, R250 to R265): opening, sampling,
decision, void, frog, HOLD and rollback. -/

namespace Sys2Proof.Machine

/-! Panels (R63, R65, R109, R305). -/

/-- Sets the update gate of every core of a panel (R109). -/
def setGates (p : Nat) (g : Gate) (s : State) : State :=
  (if g = .closed then coresHeld s p else coresOf p).foldl (fun s n => s.onCore n (fun c => { c with gate := g })) s

/-- Clears the step flags of a panel's cores (R63, R108, R109). -/
def clearStepFlags (p : Nat) (s : State) : State :=
  (coresHeld s p).foldl (fun s n => s.onCore n (fun c => { c with flag := false, gate := .closed })) s

/-- Stops every resident context of a panel as CSTOP does (R62, R63). -/
def stopPanel (p : Nat) (s : State) : State :=
  (coresHeld s p).foldl (fun s n => (List.range 4).foldl (fun s k => stopCtx n k s) s) s

/-- The units a wake of a panel takes (R306). -/
def wakeUnits : PPower → Nat
  | .off => 4 | .sleep => 2 | .nap => 1 | .active => 0

/-- The horizon of the PREST under which a panel rests (R304). -/
def Panel.restHorizon (P : Panel) : Option Nat :=
  match P.seq.prest with | some r => if r.resting then some r.horizon else none | none => none

/-- Asks for the wake of a resting panel (R303, R305). -/
def askWake (forced : Bool) (p : Nat) (s : State) : State :=
  let P := s.panel p
  if (decide (P.power = .nap) || decide (P.power = .sleep)) && P.wake.isNone && !P.lost then
    s.onPanel p (fun P => { P with wake := some { units := wakeUnits P.power, deferred := false, forced := forced, horizon := P.restHorizon } })
  else s

/-- A sequencer frogs (R63): only one that executes, waits or is in PREST. -/
def frogSeq (q : Seq) : Seq :=
  match q.state, q.snap with
  | .running, some n | .waiting, some n | .prest, some n =>
    { q with state := .frog, regs := n.regs, loops := n.loops, pc := n.frog, wait := none, prest := none, stepOpen := false }
  | _, _ => { q with stepOpen := false }

/-- A panel frogs: its contexts stop, the gates close, its sequencer goes back to the frog point (R63, R109). -/
def frogPanel (p : Nat) (s : State) : State :=
  let s := setGates p .closed (stopPanel p s)
  (askWake true p s).onSeq p frogSeq

/-- A sequencer leaves FROG as its partition leaves HOLD (R63). -/
def unfrogSeq (q : Seq) : Seq := if q.state = .frog then { q with state := .running } else q

/-! Void and HOLD (R238 to R242, R263, R264). -/

/-- The causes that set the down bit (R263); cause 5 brings its own. -/
def causeDown (cause : Nat) : Bool := cause == 1 || decide (6 ≤ cause)

/-- The bits of the header's state byte (R260). -/
def hdrState (J : JobSt) : Nat := b2n J.stepOpen + 2 * b2n J.hold + 4 * b2n J.stopped

/-- Writes the header's state byte anew. -/
def saveState (k : Nat) (s : State) : State := editHdr k (fun h => { h with state := hdrState (s.job k) }) s

/-- A partition enters HOLD (R238 to R240, R263): the step is void, entries are discarded, VOID leaves,
panels frog if a step was open. -/
def enterHold (k cause : Nat) (down : Bool) (s : State) : State :=
  let J := s.job k
  let v := if J.stepOpen then J.n else stepAfter (hdrOf s k).begun
  let s := if J.stepOpen && !J.replay then editRec k v (fun r => { r with state := 2, cause := cause }) s else s
  let s := s.onJob k (fun J =>
    { J with
      hold := true, down := down, voided := v, cause := cause, voids := inc 8 J.voids, stepOpen := false
      nf := none, tokenAt := none, back := none, heldToks := [], begun := if J.stepOpen then [] else J.begun
      ended := [], sample := false, repeating := none, resume := ownProposal s k, resumeAt := s.now })
  let s := saveState k s
  let s := (jobPorts s k).foldl (fun s o =>
    (flushBuffers o (discardEntries o 0x08 s)).onPort o (fun P => { P with rejoined := false, flushing := true, held := true })) s
  let s := sendVoids k s
  let s := (panelsOf s k).foldl (fun s p => s.onSeq p (Seq.pauseWd s.now)) s
  let s := if J.stepOpen then (panelsOf s k).foldl (fun s p => frogPanel p s) s else s
  if down then attendPart k s else s

/-- A void of a partition's step (R238, R239, R263). A partition already in HOLD takes a new down bit, and
sends VOID again only then. -/
def voidStep (k cause : Nat) (down : Bool) (s : State) : State :=
  let J := s.job k
  if !(s.part k).defined then s
  else if !J.hold then enterHold k cause down s
  else if down && !J.down then sendRejoins k (sendVoids k (attendPart k (s.onJob k (fun J => { J with down := true }))))
  else s

/-- Voids the step of the partition that a panel belongs to. -/
def voidPanel (p cause : Nat) (s : State) : State :=
  match partOf s p with
  | some k => voidStep k cause (causeDown cause) s
  | none => s

/-- A value of `applied` or `committed` after a rollback to `r` (R264). -/
def lowered (a r : Nat) : Nat := if freshStep ≤ a then a else if r = 0 then beforeZero else min a (r - 1)

/-- The records held that belong to steps from `r` on become VOID, and each step so voided counts (R264). -/
def voidRecords (k r : Nat) (s : State) : State :=
  (List.range 1024).foldl (fun s i =>
    let e := recOf s k i
    let s := readUnitAt k (recBase i) s
    if e.state ≠ 0 ∧ e.state ≠ 2 ∧ r ≤ e.step then
      (putRec k e.step { e with state := 2 } s).onJob k (fun J => { J with voids := inc 8 J.voids })
    else s) s

/-- The state of record `r` from which a rollback restores `gen` (R264). -/
def gensBack (s : State) (k r : Nat) : Option Nat :=
  let e := recOf s k r
  if e.step = r ∧ (e.state = 1 ∨ e.state = 3 ∨ e.state = 4) then some e.gen else none

/-- Rolls back the records to before step `r` (R264). -/
def rollback (k r : Nat) (s : State) : State :=
  let h := hdrOf s k
  let g := (gensBack s k r).getD h.gen
  let s := voidRecords k r s
  let s := editHdr k (fun h => { h with applied := lowered h.applied r, committed := lowered h.committed r, gen := g }) s
  s.onJob k (fun J => { J with decided := match J.decided with | some (n, v) => if r ≤ n then none else some (n, v) | none => none })

/-- The rollback would lower `gen` by more than one (R264). -/
def tooFar (s : State) (k r : Nat) : Bool :=
  match gensBack s k r with
  | some g => decide (g + 1 < (hdrOf s k).gen)
  | none => false

/-- Leaves HOLD for REPEATING (R242, R264, R265): none where the rollback limit is met. The proposal
0xFFFF_FFFF says that no module of the job has applied a step: the next STEP_BEGIN is an ordinary one (R262;
log entry 73). -/
def leaveHold (k : Nat) (s : State) : State :=
  let r := (s.job k).resume
  let none_ := decide (r = beforeZero)
  if !none_ && tooFar s k r then saveState k (s.onJob k (fun J => { J with stopped := true }))
  else
    let s := if none_ then s else rollback k r s
    let s := s.onJob k (fun J => { J with hold := false, down := false, repeating := if none_ then none else some r })
    let s := saveState k s
    let s := (jobPorts s k).foldl (fun s o => s.onPort o (fun P => { P with flushing := false, held := false })) s
    (panelsOf s k).foldl (fun s p =>
      let awake := decide ((s.panel p).power = .active)
      s.onSeq p (fun q => unfrogSeq (q.resumeWd s.now (q.busy && awake)))) s

/-- Every job port is UP and has received a REJOIN in this hold (R242). -/
def portsAgree (s : State) (k : Nat) : Bool :=
  (jobPorts s k).all (fun o => decide ((s.port o).state = .up) && (s.port o).rejoined)

/-- HOLD ends by itself (R242). -/
def holdEnd (k : Nat) (s : State) : State :=
  let J := s.job k
  if J.hold && !J.down && !J.stopped && portsAgree s k && decide (J.resumeAt + 16384 ≤ s.now) then leaveHold k s else s

/-- A proposal received in a hold (R241): the minimum holds, and a change is sent on. -/
def takeProposal (k r : Nat) (down : Bool) (s : State) : State :=
  let J := s.job k
  if r < J.resume ∨ (down ∧ !J.down) then
    let s := s.onJob k (fun J =>
      { J with
        resume := min r J.resume, resumeAt := if r < J.resume then s.now else J.resumeAt, down := J.down || down })
    sendRejoins k (if down && !J.down then attendPart k s else s)
  else s

/-! Opening (R250, R257, R258, R262). -/

/-- The panels that take part in a step: neither lost nor OFF. -/
def stepPanels (s : State) (k : Nat) : List Nat :=
  (panelsOf s k).filter (fun p => !(s.panel p).lost && decide ((s.panel p).power ≠ .off))

/-- The panel whose step count the others must match (R250). -/
def leadPanel (s : State) (k : Nat) : Nat := (stepPanels s k).headD (anchorOf s k)

/-- A panel no longer stands at STEP_BEGIN (R250): its sequencer has halted or is reset. -/
def unarrive (p : Nat) (s : State) : State :=
  match partOf s p with
  | some k => s.onJob k (fun J => { J with begun := Tab.del J.begun p })
  | none => s

/-- A sequencer fault (R66): it halts, and the partition's attention sets; the step is voided (R263). -/
def seqFault (p : Nat) (f : SeqFault) (s : State) : State :=
  let s := unarrive p (s.onSeq p (fun q => { (q.pauseWd s.now) with state := .fault, fault := some f, wait := none, prest := none }))
  match partOf s p with
  | some k => voidStep k 10 true (attendPart k (s.onPart k (fun K => { K with fault := true })))
  | none => s

/-- A sequencer at STEP_BEGIN takes its snapshot, without SCRATCH (log entry 100), and goes on with the step opened
(R63, R250). -/
def beginSeq (n gen : Nat) (q : Seq) : Seq :=
  let d := match q.wait with | some (.stepBegin d) => d | _ => 0
  let (nx, lv) := loopNext q.pc q.loops.reverse
  { q with
    snap := some { regs := q.regs, loops := q.loops, frog := q.pc }
    regs := q.regs.setS d (BitVec.ofNat 64 ((gen % 2 ^ 32) * 2 ^ 32 + n))
    pc := nx % 65536, loops := lv.reverse, wait := none, state := .running, stepOpen := true, step := BitVec.ofNat 32 n }

/-- Opens step `n` on a partition whose panels have all arrived (R250). -/
def openStep (k n : Nat) (s : State) : State :=
  let s := recordApplied k s
  let h := hdrOf s k
  let fresh := decide (h.applied = freshStep)
  let replay := !fresh && decide (h.applied ≠ beforeZero) && decide (n ≤ h.applied) && (s.job k).repeating.isNone
  let s := s.onJob k (fun J =>
    { J with
      stepOpen := true, n := n, replay := replay, ever := true, begun := [], ended := [], sample := false, nf := none
      tokenAt := none, back := none, replays := if replay then inc 8 J.replays else J.replays })
  let s := if replay then s
    else
      let before := if fresh then stepBefore n else h.applied
      let s := readUnitAt k hdrBase s
      let s := putRec k n { step := n, job := h.job, state := 1, outcome := 0, gen := h.gen, ticks := panelTick s (anchorOf s k) % 2 ^ 64, cause := 0 } s
      putHdr k { h with applied := before, committed := if fresh then before else h.committed, begun := n, state := hdrState (s.job k) } s
  let s := (panelsOf s k).foldl (fun s p => clearStepFlags p s) s
  let s := ((List.range 16).filter (fun o => portPart s o == some k && s.ports.any (fun e => e.1 == o))).foldl (fun s o => s.onPort o (fun P =>
    { P with
      nf := false, timeout := match P.cfgNext with | some (t, _) => t | none => P.timeout
      commitTimeout := match P.cfgNext with | some (_, c) => c | none => P.commitTimeout, cfgNext := none })) s
  (stepPanels s k).foldl (fun s p => s.onSeq p (beginSeq n h.gen)) s

/-- STEP_OPEN (R250): every panel has arrived at STEP_BEGIN and the partition is not in HOLD. -/
def stepOpenNow (k : Nat) (s : State) : State :=
  let J := s.job k
  let ps := stepPanels s k
  let asked := fun p => Tab.get 0 J.begun p
  let arrived := fun p => J.begun.any (fun e => e.1 == p)
  if !(s.part k).defined || J.hold || J.stepOpen || ps.isEmpty || !ps.all arrived then s
  else
    match J.repeating with
    | some r => openStep k r s
    | none =>
      match ps.filter (fun p => asked p != asked (leadPanel s k)) with
      | [] => openStep k (asked (leadPanel s k)) s
      | l => l.foldl (fun s p => seqFault p .step s) s

/-! Decision (R108, R252 to R258). -/

/-- The panel flag (R108). -/
def panelFlag (s : State) (p : Nat) : Bool := (coresHeld s p).any (fun n => (s.core n).flag)

/-- The sequencer samples its panel's flag, once, while it waits at STEP_END (R108). -/
def flagSample (p : Nat) (s : State) : State :=
  match partOf s p, (s.seq p).wait with
  | some k, some (.stepEnd _) =>
    if (s.job k).stepOpen && !Tab.get false (s.job k).ended p then
      s.onJob k (fun J => { J with ended := Tab.set J.ended p true, sample := J.sample || panelFlag s p })
    else s
  | _, _ => s

/-- A REDUCE or RELAY entry of step `n` is still posted on a REDUCE port (R252). -/
def reduceLeft (s : State) (k n : Nat) : Bool :=
  (jobPorts s k).any (fun o =>
    decide ((s.port o).role = .reduce) &&
      (s.port o).entries.any (fun e => (decide (e.op = .reduce) || decide (e.op = .relay)) && e.step == n))

/-- Forwards a token with a non-finite state (R236). -/
def forwardToken (k : Nat) (nf : Bool) (t : Token) (s : State) : State :=
  sendToken k { t with hops := (t.hops + 1) % 65536, nf := t.nf || nf } s

/-- REDUCTION_DONE (R252): the non-finite state is fixed, the own token and those held leave. -/
def reductionDone (k : Nat) (s : State) : State :=
  let J := s.job k
  if !J.stepOpen || J.nf.isSome || !(stepPanels s k).all (fun p => Tab.get false J.ended p) || reduceLeft s k J.n then s
  else
    let nf := J.sample || (jobPorts s k).any (fun o => (s.port o).nf)
    let held := J.heldToks
    let s := s.onJob k (fun J => { J with nf := some nf, tokenAt := some s.now, heldToks := [] })
    let s := if (commitPort s k).isSome then
        sendToken k { origin := Config.serial.toNat, step := J.n, hops := 0, nf := nf } s
      else s
    held.foldl (fun s t => forwardToken k nf t s) s

/-- A sequencer at STEP_END goes on with the decision (R63, R255). -/
def endSeq (apply : Bool) (q : Seq) : Seq :=
  match q.wait with
  | some (.stepEnd pd) =>
    let (nx, lv) := loopNext q.pc q.loops.reverse
    { q with regs := q.regs.setP pd apply, pc := nx % 65536, loops := lv.reverse, wait := none, state := .running, stepOpen := false }
  | _ => { q with stepOpen := false }

/-- DECIDE_STEP (R255): the own token has returned, or the partition has no job port and its reduction is
done. -/
def decideStep (k : Nat) (s : State) : State :=
  let J := s.job k
  let flag : Option Bool := match J.back with
    | some b => some b
    | none => if (jobPorts s k).isEmpty then J.nf else none
  match J.stepOpen, flag, J.nf with
  | true, some f, some nf =>
    let apply := !f && !J.replay
    let portNf := (jobPorts s k).any (fun o => (s.port o).nf)
    let s := if J.replay then s
      else editRec k J.n (fun r => { r with
        state := 3, outcome := b2n apply + 2 * b2n J.sample + 4 * b2n portNf + 8 * b2n f }) s
    let s := s.onJob k (fun J =>
      { J with
        stepOpen := false, nf := none, lastNf := nf, tokenAt := none, back := none, lastStep := J.n, repeating := none
        decided := if J.replay then J.decided else some (J.n, apply)
        skips := if apply then J.skips else inc 8 J.skips })
    let s := if J.replay then s else editHdr k (fun h => { h with committed := J.n, state := hdrState (s.job k) }) s
    let s := (panelsOf s k).foldl (fun s p => setGates p (if apply then .apply else .skip) s) s
    (panelsOf s k).foldl (fun s p => s.onSeq p (endSeq apply)) s
  | _, _, _ => s

/-- STEP_VOID: a void by one of the causes of R263. -/
def stepVoidNow (k cause : Nat) (s : State) : State :=
  if 1 ≤ cause ∧ cause ≤ 10 then voidStep k cause (causeDown cause) s else s

end Sys2Proof.Machine
end

