-- ==== Sys2Proof/Machine/LinkRx.lean ====
section
/-! DEFINITION. The receiving side of a link port (R220 to R248): port states and training, lanes, flits
received, entries posted and what they do with messages, stack requests of a port, timeouts. -/

namespace Sys2Proof.Machine

open Sys2Proof

/-! Port states and training (R217, R226). -/

/-- A port changes state (R226). A job port that leaves UP voids the step (R238); one that becomes UP in a
hold sends REJOIN (R240). -/
def portTo (o : Nat) (st : LnkState) (s : State) : State :=
  let old := (s.port o).state
  if old = st then s
  else
    let s := s.onPort o (fun P => { P with state := st, since := s.now, lastRx := s.now, line := [], ackDue := false, spoilt := 0 })
    match jobOf s o with
    | some k =>
      if old = .up then voidStep k 1 true s
      else if st = .up && (s.job k).hold then sendRejoin k o s
      else s
    | none => s

/-- A panel of a port gives it no power or is in reset (R217). -/
def panelGone (P : Panel) : Bool := P.lost || P.inReset || decide (P.power = .off)
def portGone (s : State) (o : Nat) : Bool :=
  panelGone (s.panel (portPanels o).1) || panelGone (s.panel (portPanels o).2)

/-- Lanes that are neither bad nor failed (R222). -/
def Port.goodLanes (P : Port) : List Nat := (List.range 13).filter (fun l => !P.bad.getLsbD l && !P.failed.getLsbD l)
/-- The bits of a list of lanes. -/
def laneMask (l : List Nat) : BitVec 13 := BitVec.ofNat 13 (l.map (2 ^ ·)).sum
/-- The active lanes in rising order. -/
def Port.lanes (P : Port) : List Nat := (List.range 13).filter P.active.getLsbD

/-- Training starts (R226): every good lane from its last trained value, at first use from its preset; the identity is
sent, that of the peer asked for anew. -/
def startTraining (o : Nat) (s : State) : State :=
  let s := portTo o .training (s.onPort o (fun P =>
    { P with
      ident := none, tried := s.now
      eq := P.goodLanes.foldl (fun t l => if t.any (fun e => e.1 == l) then t else Tab.set t l (Config.lanePreset o l)) P.eq }))
  let v := sendEnv s o
  s.onPort o (fun P => P.plain v 7 (Config.identPayload Config.serial.toNat o P.role.code))

/-- Training has settled the equaliser of every good lane, and its precoding, at values of its own (R226). -/
def equalise (o : Nat) (s : State) : State :=
  let (k, s) := freshNat s
  s.onPort o (fun P =>
    { P with eq := P.goodLanes.foldl (fun t l => Tab.set t l (k / 2 ^ (16 + 32 * l) % 2 ^ 32)) P.eq, precode := BitVec.ofNat 13 k })

/-- A link begins anew (R228): sequence numbers and credits are reset; flits of posted entries that wait for
acknowledgement are numbered again. -/
def Port.relink (P : Port) : Port :=
  let buf := P.buf.zipIdx.map (fun e =>
    let f : Flit := { e.1.fl with seq := BitVec.ofNat 12 e.2, ack := BitVec.ofNat 12 4095 }
    { e.1 with fl := { f with crc := BitVec.ofNat 32 (flitCrc e.1.kind f) } })
  { P with
    txNext := P.buf.length % 4096, buf := buf, rxNext := 0, owed := [], stuck := 0, gap := none
    credits := (List.range 4).foldl (fun t vc =>
      let m := (P.buf.filter (fun b => b.fl.vc.toNat == vc)).length
      if m = 0 then t else Tab.set t vc (bufferOf vc - m)) [] }

/-- Identities agree (R226). -/
def Port.agrees (P : Port) (d : Ident) : Bool :=
  (decide (P.role = .feed) && d.bridge) || (!d.bridge && d.role == P.role.code && d.job == P.job)

/-- TRAINING_COMPLETE (R226). One that has too few good lanes FAILED and is logged (R358; log 140). A port that becomes UP sends again what it keeps for replay. -/
def trainingDone (o : Nat) (s : State) : State :=
  let P := s.port o
  if P.state ≠ .training then s
  else if P.goodLanes.length < 8 then logErr 1 10 (o + 0x40) 0 15 0 (portTo o .failed s)
  else
    match P.ident with
    | none => portTo o .down s
    | some d =>
      let s := (equalise o s).onPort o (fun P =>
        { P.relink with peerBridge := d.bridge, peerPort := d.port % 16, peerSerial := d.serial % 2 ^ 32, lastAck := s.now })
      (portTo o (if P.agrees d then .up else .mismatch) s).onPort o (fun P =>
        if P.state = .up then { P with line := P.buf.map (fun t => (t.kind, t.fl)) ++ P.line } else P)

/-- PORT_ABSENT (R217). -/
def portAbsentNow (o : Nat) (s : State) : State :=
  if o < 16 ∧ portGone s o ∧ (s.port o).state ≠ .failed then portTo o .absent s else s

/-- A port whose panels are both live again leaves ABSENT (R226). -/
def portPresent (o : Nat) (s : State) : State :=
  let P := s.port o
  if P.state = .absent && !portGone s o then
    (if P.role = .off then portTo o .off s else startTraining o s)
  else s

/-! Stack and scratchpad accesses of a port (R217, R233). -/

/-- Bridge hops between two panels over live hubs; 64 where there is no way. -/
def hops (s : State) (a b : Nat) : Nat := (hubDist (fun q => Tab.get 0 s.transit q == 2) b a).getD 64

/-- The panel of the attachment that a port uses for a target panel (R217). -/
def attachFor (s : State) (o q : Nat) : Nat :=
  let (a, b) := portPanels o
  if q = a then a else if q = b then b else if hops s b q < hops s a q then b else a

/-- The logical core of panel `p` at place `j` along the edge of port `o`. -/
def edgeCore (o p j : Nat) : Nat :=
  match o / 4 with | 0 => coreIn p j 0 | 1 => coreIn p 22 j | 2 => coreIn p j 23 | _ => coreIn p 0 j

/-- The `i`-th selvedge router of a port: two of its primary panel, two of its secondary (R216). One whose site is fenced
for a router fault gives way to the nearest that works, away from the other of its pair. -/
def selvedge (s : State) (o i : Nat) : Nat :=
  let p := if i < 2 then (portPanels o).1 else (portPanels o).2
  let places := if i % 2 = 0 then (List.range 12).map (11 - ·) else span 12 (if o / 4 % 2 = 0 then 11 else 12)
  let works := fun (j : Nat) => !Tab.get false (s.panel p).routers (siteIdx s (edgeCore o p j))
  edgeCore o p ((places.find? works).getD (11 + i % 2))

/-- The status with which a scratchpad request is answered at core `n`, or 0 (R32 rows 3 to 6, R193). -/
def siteStatus (s : State) (n : Nat) : Nat :=
  let P := s.panel (panelOf n)
  if P.lost then 0x06
  else if P.power ≠ .active then 0x04
  else if isDead s n then 0x06
  else if P.inReset || (s.core n).inReset then 0x07
  else 0

/-- The status of a remote access of `len` bytes at offset `off` of core `n`'s scratchpad, or 0 (R32, R53,
R138, R193). -/
def spdStatus (s : State) (n off len : Nat) (write : Bool) : Nat :=
  let c := s.core n
  let st := siteStatus s n
  if st ≠ 0 then st
  else if inSave c off len || rangeBit isLocal c off len || (write && rangeBit isRo c off len) then 0x0F
  else 0

/-- Sends a request of a port (R191, R217): to a stack by an attachment, to a scratchpad by its four selvedge routers in
turn. -/
def sendPReq (o tag : Nat) (q : PReq) (s : State) : State :=
  let (_, e) := expectOf s q.addr
  let op := if q.wr then POp.write else .read
  let pois := (List.range (ceilDiv q.len 64)).map (fun g => ((q.pois.drop (64 * g)).take 64).any id)
  let k := mkRequest s (.port o) op q.addr q.len tag 0 0 e q.data pois
  let k : Packet := match targetOf q.addr 1 with
    | some (.spd n _) =>
      let m := selvedge s o (tag % 4)
      { k with pos := .mesh m, home := .mesh m, inp := 1 + o / 4, route := classTo s (panelOf m) (panelOf n) }
    | some t => let p := attachFor s o t.panel; { k with pos := .hub p, home := .hub p, inp := portInput o p }
    | none => k
  launchPacket k (s.onPort o (fun P => { P with reqs := Tab.set P.reqs tag { q with epoch := e, phase := .sent } }))

/-- A tag that no open request of a port has, from its next one on (R173). -/
def Port.freeTag (P : Port) : Nat :=
  ((List.range 1024).map (fun i => (P.nextTag + i) % 1024)).find? (fun t => !P.reqs.any (fun r => r.1 == t)) |>.getD P.nextTag

/-- Starts a request of an entry. -/
def newPReq (o vc eid : Nat) (wr : Bool) (addr len : Nat) (data : List Byte) (pois : List Bool) (s : State) : State :=
  let tag := (s.port o).freeTag
  let s := s.onPort o (fun P => { P with nextTag := (tag + 1) % 1024 })
  sendPReq o tag { vc := vc, eid := eid, wr := wr, addr := addr, len := len, data := data, pois := pois, epoch := 0, refusals := 0, phase := .sent } s

/-- Changes entry `id` of a channel. -/
def onEntry (o vc id : Nat) (f : Entry → Entry) (s : State) : State :=
  s.onPort o (fun P => { P with q := Tab.set P.q vc ((Tab.get [] P.q vc).map (fun e => if e.id = id then f e else e)) })

/-- The first status other than OK stays. -/
def Entry.note (st : Nat) (e : Entry) : Entry := if e.status = 0 then { e with status := st } else e

/-- An entry has a stack request that waits to retry (R233). -/
def Port.stalled (P : Port) (id : Nat) : Bool :=
  P.reqs.any (fun r => r.2.eid == id && (match r.2.phase with | .retry _ => true | _ => false))

/-- Data of a read that was not served: of no defined value, and poisoned (log entry 14). -/
def unserved (len : Nat) (s : State) : List Byte × State :=
  let (k, s) := freshNat s
  ((List.range len).map (Config.freeByte k), s)

/-- Reads for an entry. -/
def readFor (o : Nat) (e : Entry) (addr len : Nat) (s : State) : State :=
  newPReq o e.vc e.id false addr len [] [] (onEntry o e.vc e.id (fun e => { e with asked := true }) s)

/-- Writes for an entry. -/
def landFor (o vc id addr : Nat) (bs : List (Byte × Bool)) (s : State) : State :=
  newPReq o vc id true addr bs.length (bs.map (·.1)) (bs.map (·.2)) (onEntry o vc id (fun e => { e with out := e.out + 1 }) s)

/-- The landing unit of an address: a scratchpad line or a stack unit (R230). -/
def landUnit (a : Nat) : Nat := match targetOf a 1 with | some (.stk _ _) => 512 | _ => 64

/-- Lands what an entry holds, as far as lines or units are whole, all of it at the end. -/
def landWhole : Nat → Nat → Nat → Nat → Bool → State → State
  | 0, _, _, _, _, s => s
  | fuel + 1, o, vc, id, fin, s =>
    match (Tab.get [] (s.port o).q vc).find? (fun e => e.id == id) with
    | none => s
    | some e =>
      let a := e.dst + e.remAt
      let u := landUnit a
      let m := u - a % u
      if e.rem.isEmpty then s
      else if m ≤ e.rem.length ∨ fin then
        let part := e.rem.take m
        let s := landFor o vc id a part (onEntry o vc id (fun e => { e with rem := e.rem.drop m, remAt := e.remAt + part.length }) s)
        landWhole fuel o vc id fin s
      else s

/-! The adder (R232). -/

/-- The word of element i of a list of bytes, widened to binary32. -/
def elemWord (fmt : Bool) (l : List Byte) (i : Nat) : W32 :=
  if fmt then BitVec.ofNat 32 (65536 * leNat ((l.drop (2 * i)).take 2)) else BitVec.ofNat 32 (leNat ((l.drop (4 * i)).take 4))

/-- One element of the adder. -/
def reduceElem (fmt : Bool) (rop : Nat) (e a : W32) : List Byte :=
  let r := if rop = 2 then fmax e a else fadd e a
  if fmt then leBytes 2 (Fmt.bf16.enc .even (x32 r)).1 else leBytes 4 (if isNan32 r then nan32 else r).toNat

/-- The adder over a flit's bytes. -/
def reduceBytes (fmt : Bool) (rop : Nat) (d a : List Byte) : List Byte :=
  (List.range (d.length / (if fmt then 2 else 4))).flatMap (fun i => reduceElem fmt rop (elemWord fmt d i) (elemWord fmt a i))

/-- Some element is NaN or infinite (R234). -/
def anyNonfinite (fmt : Bool) (d : List Byte) : Bool :=
  (List.range (d.length / (if fmt then 2 else 4))).any (fun i => nonfinite32 (elemWord fmt d i))

/-! Messages (R230 to R234). -/

/-- Counts a protocol error (R247). -/
def countProto (o : Nat) (s : State) : State := s.onPort o (fun P => { P with proto := inc 8 P.proto })

/-- The flit at the head of a receive buffer leaves it: its credit is returned (R225). -/
def takeRx (o vc : Nat) (s : State) : State :=
  s.onPort o (fun P =>
    { P with rx := Tab.set P.rx vc ((Tab.get [] P.rx vc).drop 1), owed := Tab.set P.owed vc (Tab.get 0 P.owed vc + 1) })

/-- A flit of a message differs from its entry in step, length, operation or format (R231, R232). The header
has no length: the flits give it in units of 240 bytes, and a byte other than zero past the entry's length shows a
longer message (R223; log entry 71). -/
def mismatch (e : Entry) (f : RxFlit) : Bool :=
  (e.step != 0xFFFFFFFF && e.step != f.fl.step.toNat)
    || f.fin != decide (e.length ≤ e.got + 240)
    || (f.fin && (f.fl.payload.drop (e.length - e.got)).any (fun b => b != 0))
    || (decide (e.op = .reduce) && (f.fl.redOp.toNat != e.rop || f.fl.redFmt != BitVec.ofBool e.fmt))

/-- A flit is consumed by its entry: landed and forwarded (R230 to R235). A REDUCE that yields an element that is NaN or
infinite, or poisoned, sets LNK_STEP.nf (R253). -/
def consume (o : Nat) (e : Entry) (f : RxFlit) (add : Option (List Byte × List Bool)) (s : State) : State :=
  let len := min 240 (e.length - e.got)
  let raw := f.fl.payload.take len
  let addP := match add with | some (_, p) => p.any id | none => false
  let data := match add with | some (a, _) => reduceBytes e.fmt e.rop raw a | none => raw
  let poison := f.fl.poison == 1 || addP
  let bad := (decide (e.vc = 2) || decide (e.op = .reduce)) && anyNonfinite (f.fl.redFmt == 1) data
  let nf := f.fl.nf == 1 || f.fl.poison == 1 || bad || addP
  let s := if e.op = .reduce && (bad || poison) then s.onPort o (fun P => { P with nf := true }) else s
  let fin := f.fin
  let s := onEntry o e.vc e.id (fun e =>
    { e with
      got := e.got + len, last := fin, read := none, asked := false
      rem := if e.land then e.rem ++ data.map (fun b => (b, poison)) else e.rem }) (takeRx o e.vc s)
  let s := if e.land then landWhole 8 o e.vc e.id fin s else s
  if e.fwd then
    let t : TxFlit :=
      { kind := if fin then 2 else 1, src := some (entryKey o e.id)
        fl := draft e.vc f.fl.step.toNat (s.port e.fwdPort).job nf poison f.fl.redOp.toNat (f.fl.redFmt == 1) data }
    forwardFlit (entryKey o e.id) e.fwdPort t s
  else s

/-- The message of an entry has flits that wait to leave port `q` (R231). -/
def sendWaits (s : State) (o : Nat) (e : Entry) (q : Nat) : Bool :=
  (Tab.get [] (s.port q).fwds e.vc).any (fun m => m.src == entryKey o e.id && !m.flits.isEmpty)

/-- The message that an entry forwards is given up: others may follow it (log entry 98). -/
def endForward (o : Nat) (e : Entry) (s : State) : State :=
  if e.fwd then
    s.onPort e.fwdPort (fun P =>
      { P with
        fwds := Tab.set P.fwds e.vc ((Tab.get [] P.fwds e.vc).map (fun m => if m.src = entryKey o e.id then { m with done := true } else m)) })
  else s

/-- The receiving entry of a channel and the flit at its buffer's head: consumed, or its addend asked for, or
a protocol error (R230 to R233). -/
def pumpRx : Nat → Nat → Nat → State → State
  | 0, _, _, s => s
  | fuel + 1, o, vc, s =>
    let P := s.port o
    match Tab.get [] P.rx vc, (Tab.get [] P.q vc).find? (fun e => decide (e.op ≠ .send) && !e.last) with
    | f :: _, some e =>
      if e.skip then
        pumpRx fuel o vc (onEntry o vc e.id (fun e => { e with last := f.fin }) (takeRx o vc s))
      else if mismatch e f then
        match jobOf s o with
        | some k => voidStep k 4 false (countProto o (takeRx o vc s))
        | none =>
          pumpRx fuel o vc (onEntry o vc e.id (fun e => { e.note 0x03 with skip := true, last := f.fin, rem := [] })
            (endForward o e (countProto o (takeRx o vc s))))
      else if P.stalled e.id || (e.fwd && sendWaits s o e e.fwdPort) || decide (1008 < P.reqs.length) then s
      else
        match e.op, e.read with
        | .reduce, none =>
          if e.asked then s
          else pumpRx fuel o vc (readFor o e (e.src + e.got) (min 240 (e.length - e.got)) s)
        | .reduce, some a => pumpRx fuel o vc (consume o e f (some a) s)
        | _, _ => pumpRx fuel o vc (consume o e f none s)
    | _, _ => s

/-- The SEND entry of a channel puts flits in the transmit order, one message after another (R230, R231, R234); the next is
read once the one before it has left. -/
def pumpTx : Nat → Nat → Nat → State → State
  | 0, _, _, s => s
  | fuel + 1, o, vc, s =>
    let P := s.port o
    match (Tab.get [] P.q vc).find? (fun e => decide (e.op = .send) && !e.last) with
    | none => s
    | some e =>
      let len := min 240 (e.length - e.got)
      let fin := decide (e.length ≤ e.got + 240)
      if P.state ≠ .up ∨ P.inReset ∨ P.held ∨ P.stalled e.id ∨ sendWaits s o e o ∨ 1008 < P.reqs.length then s
      else
        match e.read with
        | none => if e.asked then s else pumpTx fuel o vc (readFor o e (e.src + e.got) len s)
        | some (data, pois) =>
          let poison := pois.any id
          let nf := poison || (P.role.job && decide (vc = 2) && anyNonfinite e.fmt data)
          let t : TxFlit :=
            { kind := if fin then 2 else 1, src := some (entryKey o e.id)
              fl := draft vc e.step P.job nf poison e.rop e.fmt data }
          pumpTx fuel o vc (onEntry o vc e.id (fun e => { e with got := e.got + len, last := fin, read := none, asked := false })
            (forwardFlit (entryKey o e.id) o t s))

/-- A port goes on as far as it can. -/
def pumpPort (o : Nat) (s : State) : State :=
  let v := sendEnv s o
  let s := s.onPort o (Port.flush v)
  let s := (List.range 4).foldl (fun s vc => pumpTx 600 o vc (pumpRx 600 o vc s)) s
  let v := sendEnv s o
  s.onPort o (Port.idles v 8)

/-- Every port goes on, a port that forwards through another after it. -/
def pumpAll (s : State) : State :=
  let os := s.ports.map (·.1)
  (os ++ os).foldl (fun s o => pumpPort o s) s

/-! Replies to a port (R192, R233). -/

/-- A reply to a request of a port. -/
def portReply (k : Packet) (o : Nat) (s : State) : State :=
  let s := dropPacket k.pid s
  match (s.port o).reqs.find? (fun r =>
      r.1 == k.tag && decide (r.2.phase = .sent) && r.2.epoch == k.epoch
        && decide ((targetOf k.dst 1).map Target.block = (targetOf r.2.addr 1).map Target.block)) with
  | none => countEpochAt (k.home.panel.getD (portPanels o).1) s
  | some (_, q) =>
    if k.status = 0x0D then
      let m := q.refusals + 1
      s.onPort o (fun P =>
        { P with
          refused := min 15 (P.refused + 1)
          reqs := Tab.set P.reqs k.tag { q with refusals := m, phase := .retry (s.now + ceilDiv (128 * 2 ^ min (m - 1) 5) 100) } })
    else
      let s := s.onPort o (fun P => { P with reqs := Tab.del P.reqs k.tag })
      if q.wr then
        pumpAll (onEntry o q.vc q.eid (fun e => { e.note k.status with out := e.out - 1 }) s)
      else if k.status ≠ 0 then
        let (b, s) := unserved q.len s
        pumpAll (onEntry o q.vc q.eid (fun e => { e.note k.status with read := some (b, List.replicate q.len true) }) s)
      else
        let p := (List.range q.len).map (fun i => nth false k.pois (i / 64))
        pumpAll (onEntry o q.vc q.eid (fun e => { e with read := some (k.data, p) }) s)
where
  countEpochAt (p : Nat) (s : State) : State :=
    s.onPanel p (fun P => { P with hub := { P.hub with staleEpoch := inc 12 P.hub.staleEpoch } })

/-- ADDEND_READ_RETRY (R233): a refused request of the channel is sent again once its wait has passed. -/
def retryPort (o vc : Nat) (s : State) : State :=
  match (s.port o).reqs.find? (fun r => r.2.vc == vc && (match r.2.phase with | .retry t => decide (t ≤ s.now) | _ => false)) with
  | some (tag, q) => pumpAll (sendPReq o tag q s)
  | none => s

/-- An entry has done all it must (R230). -/
def entryDone (s : State) (o : Nat) (e : Entry) : Bool :=
  let key := some (entryKey o e.id)
  let gone := fun (P : Port) => !P.buf.any (fun t => t.src == key) && !(Tab.get [] P.fwds e.vc).any (fun m => some m.src == key)
  e.last && e.out == 0 && e.rem.isEmpty &&
    (match e.op with
     | .send => gone (s.port o)
     | _ => !e.fwd || gone (s.port e.fwdPort))

/-- ENTRY_COMPLETE (R230). -/
def entryComplete (o vc : Nat) (s : State) : State :=
  match (Tab.get [] (s.port o).q vc).find? (entryDone s o) with
  | none => s
  | some e =>
    let s := s.onPort o (fun P => { P with q := Tab.set P.q vc ((Tab.get [] P.q vc).filter (fun x => x.id != e.id)) })
    entryStatus o e.status (raiseFlag e.panel e.flag s)

/-! Posting (R229). -/

/-- The fields of a posted entry's four words. -/
def postWord (w0 w1 w2 w3 : W64) : Nat := w0.toNat + w1.toNat * 2 ^ 64 + w2.toNat * 2 ^ 128 + w3.toNat * 2 ^ 192

/-- The address of a post fails rows 1 and 2 of R32, names control space, or is misaligned in a stack. -/
def postAddrBad (s : State) (o : Nat) (wr : Bool) (a len : Nat) : Bool :=
  chk12 s (portPanels o).1 false wr a len != 0
    || (match targetOf a len with
        | some (.stk _ off) => off % 512 != 0 || len % 512 != 0
        | some (.spd _ _) => false
        | _ => true)

/-- The operation of a post. -/
def postOp (w : Nat) : Option PortOp :=
  match fld w 3 0 with
  | 1 => some .send | 2 => some .recv | 3 => some .reduce | 4 => some .relay | _ => none

/-- The post is malformed (R229). -/
def postBad (s : State) (o w : Nat) : Bool :=
  let P := s.port o
  match postOp w with
  | none => true
  | some op =>
    let rop := fld w 8 7
    let len := fld w 159 128
    let two := decide (op = .reduce) || decide (op = .relay)
    let fwd := two && w.testBit 9
    let land := decide (op ≠ .send) && w.testBit 14
    let F := s.port (fld w 13 10)
    rop == 3 || (decide (op = .reduce) && rop == 0) || w.testBit 15 || fld w 31 22 != 0 || fld w 255 192 != 0
      || len == 0 || len % 16 != 0
      || (decide (op = .recv) && !land) || (two && !fwd && !land)
      || (fwd && (decide (F.role ≠ P.role) || F.job != P.job))
      || (fld w 191 160 == 0xFFFFFFFF && decide (P.role ≠ .feed))
      || ((decide (op = .send) || decide (op = .reduce)) && postAddrBad s o false (fld w 79 32) len)
      || (land && postAddrBad s o true (fld w 127 80) len)

/-- A source may write the registers of port `o`: the host, or the sequencer of either of its panels. -/
def sourceAt (o : Nat) : Source → Bool
  | .host => true
  | .seq p => (portPanels o).1 == p || (portPanels o).2 == p

/-- The entry that four words describe. -/
def entryOf (o w : Nat) (src : Source) (id : Nat) (op : PortOp) : Entry :=
  { id := id, op := op, vc := fld w 5 4, fmt := w.testBit 6, rop := fld w 8 7
    fwd := (decide (op = .reduce) || decide (op = .relay)) && w.testBit 9, fwdPort := fld w 13 10
    land := decide (op ≠ .send) && w.testBit 14, flag := fld w 21 16, src := fld w 79 32, dst := fld w 127 80
    length := fld w 159 128, step := fld w 191 160
    panel := (match src with | .host => (portPanels o).1 | .seq p => p)
    got := 0, last := false, out := 0, status := 0, read := none, asked := false, skip := false, rem := [], remAt := 0 }

/-- Posts an entry; answers the status of the write of LNK_POST3 (R229). -/
def postEntry (src : Source) (o w : Nat) (s : State) : Nat × State :=
  match postOp w with
  | none => (0x03, s)
  | some op =>
    if postBad s o w then (0x03, s)
    else if (s.port o).inReset then (0x07, s)
    else if 64 ≤ (Tab.get [] (s.port o).q (fld w 5 4)).length then
      (0x0D, s.onPort o (fun P => { P with qFull := inc 8 P.qFull }))
    else
      (0, pumpAll (s.onPort o (fun P =>
        { P with
          nextEntry := P.nextEntry + 1
          q := Tab.set P.q (fld w 5 4) (Tab.get [] P.q (fld w 5 4) ++ [entryOf o w src P.nextEntry op]) })))

/-- The four words are written and the entry posted. -/
def postWords (src : Source) (o : Nat) (w0 w1 w2 w3 : W64) (s : State) : Nat × State :=
  let s := s.onPort o (fun P => { P with post := [(0, w0), (1, w1), (2, w2), (3, w3)] })
  postEntry src o (postWord w0 w1 w2 w3) s

/-- A POST_* command: the words name this operation and the source may write them. The status is that of the write of
LNK_POST3. -/
def postNow (code : Nat) (src : Source) (o : Nat) (w0 w1 w2 w3 : W64) (s : State) : Nat × State :=
  if o < 16 ∧ sourceAt o src ∧ fld w0.toNat 3 0 = code then postWords src o w0 w1 w2 w3 s else (0, s)

/-! Flits received (R220 to R225). -/

/-- The sequence numbers of a sender's unacknowledged flits that an acknowledgement covers. -/
def ackCovers (P : Port) (ack : Nat) : Nat :=
  let base := match P.buf with | t :: _ => t.fl.seq.toNat | [] => P.txNext
  let m := (ack + 1 + 4096 - base) % 4096
  if m ≤ P.buf.length then m else 0

/-- The acknowledgement that every good flit brings (R224). -/
def Port.hear (now : Nat) (f : Flit) (P : Port) : Port :=
  let m := ackCovers P f.ack.toNat
  { P with
    lastRx := now
    buf := P.buf.drop m
    stuck := if m = 0 then P.stuck else 0
    gap := if m ≠ 0 ∨ P.buf = [] then none else some (P.gap.getD 0 + 1)
    lastAck := if m = 0 then P.lastAck else now }

/-- The credits that a flit brings which is not discarded (R225; log entry 98). -/
def Port.gain (f : Flit) (P : Port) : Port :=
  let vc := f.creditVc.toNat
  if f.credit = 0 then P else { P with credits := Tab.set P.credits vc (min (bufferOf vc) (P.creditOf vc + f.credit.toNat)) }

/-- Channels that a role uses (R227). -/
def Role.uses (r : Role) (vc : Nat) : Bool :=
  match r with
  | .off => false
  | .ring => vc == 0 || vc == 3
  | .pipe => vc == 1 || vc == 3
  | .reduce => vc == 2 || vc == 3
  | .feed => vc == 3

/-- A token arrives (R236, R254). -/
def takeToken (k o : Nat) (f : Flit) (s : State) : State :=
  let J := s.job k
  let b := leNat f.payload
  let t : Token := { origin := fld b 63 0, step := f.step.toNat, hops := fld b 111 96, nf := b.testBit 112 }
  let isOpen := J.stepOpen && t.step == J.n
  let isLast := !isOpen && J.ever && t.step == J.lastStep
  if (s.port o).role ≠ .reduce then countProto o s
  else if t.origin = Config.serial.toNat then
    (if isOpen && J.tokenAt.isSome then s.onJob k (fun J => { J with back := some t.nf }) else countProto o s)
  else if (commitPort s k).isNone then countProto o s
  else if isOpen then
    match J.nf with
    | some nf => forwardToken k nf t s
    | none => s.onJob k (fun J => { J with heldToks := J.heldToks ++ [t] })
  else if isLast then forwardToken k J.lastNf t s
  else countProto o s

/-- A VOID arrives (R239). -/
def takeVoid (k o : Nat) (f : Flit) (s : State) : State :=
  let J := s.job k
  let n := f.step.toNat
  let next := stepAfter (hdrOf s k).begun
  let down := (leNat (f.payload.take 1)).testBit 0
  if (J.stepOpen && n == J.n) || n == next || (J.hold && n == J.voided) then voidStep k 5 down s else countProto o s

/-- A REJOIN arrives (R239, R241). -/
def takeRejoin (k o : Nat) (f : Flit) (s : State) : State :=
  if f.job.toNat ≠ (s.port o).job then portTo o .mismatch s
  else
    let b := leNat f.payload
    let s := s.onPort o (fun P => { P with flushing := false, rejoined := P.rejoined || P.held })
    if (s.job k).hold then takeProposal k (fld b 159 128) (b.testBit 160) s else s

/-- A sequenced flit of kind 1 to 5 delivered in order (R224, R225, R227, R239). Its `nf` counts for the open step, unless
the flit is discarded (R234, R246). -/
def deliver (o kind : Nat) (f : Flit) (s : State) : State :=
  let P := s.port o
  let vc := f.vc.toNat
  let now := f.nf == 1 && (sendEnv s o).step == some f.step.toNat
  let back := fun (s : State) => s.onPort o (fun P => { P with owed := Tab.set P.owed vc (Tab.get 0 P.owed vc + 1) })
  if !P.role.uses vc then back (countProto o s)
  else if kind ≤ 2 then
    if P.flushing && P.role.job then back (s.onPort o (fun P => { P with flushed := inc 8 P.flushed }))
    else
      pumpAll (s.onPort o (fun P =>
        { P with
          rx := Tab.set P.rx vc (Tab.get [] P.rx vc ++ [{ fin := kind == 2, fl := f }])
          nf := P.nf || now
          lastReduce := if vc = 2 then s.now else P.lastReduce }))
  else
    match jobOf s o with
    | none => back (countProto o s)
    | some k =>
      let s := (back s).onPort o (fun P => { P with nf := P.nf || now })
      match kind with
      | 3 => takeToken k o f s
      | 4 => takeVoid k o f s
      | _ => takeRejoin k o f s

/-- A flit arrives at a port (R220, R223): it is discarded where it overlaps an uncorrectable codeword or its CRC fails. The
port then reports the last good number again, and the sender replays (R224). -/
def rxGood (o kind : Nat) (f : Flit) (act : State → State) (s : State) : State :=
  let P := s.port o
  if P.state ≠ .up then s
  else if 0 < P.spoilt then pumpAll (s.onPort o (fun P => { P with spoilt := P.spoilt - 1, ackDue := true }))
  else if flitCrc kind f ≠ f.crc.toNat then pumpAll (s.onPort o (fun P => { P with crc := inc 8 P.crc, ackDue := true }))
  else pumpAll (act s)

/-- A flit that is intact brings its acknowledgement (R224). -/
def rxFlit (o kind : Nat) (f : Flit) (act : State → State) (s : State) : State :=
  rxGood o kind f (fun s => act (s.onPort o (Port.hear s.now f))) s

/-- An unsequenced flit arrives: IDLE, and IDENT on a link that is UP, do no more than bring acknowledgement and
credits. -/
def rxPlain (o kind : Nat) (f : Flit) (s : State) : State := rxFlit o kind f (fun s => s.onPort o (Port.gain f)) s

/-- A sequenced flit arrives: out of order it is discarded (R224). -/
def rxSeq (o kind : Nat) (f : Flit) (s : State) : State :=
  rxFlit o kind f (fun s =>
    let s := s.onPort o (fun P => { P with ackDue := true })
    if f.seq.toNat = (s.port o).rxNext then
      deliver o kind f (s.onPort o (fun P => { P.gain f with rxNext := (P.rxNext + 1) % 4096 }))
    else s) s

/-- A flit of a reserved kind is discarded and counted (R223). -/
def rxReserved (o kind : Nat) (f : Flit) (s : State) : State :=
  rxGood o kind f (fun s => countProto o (s.onPort o (fun P => { P with lastRx := s.now }))) s

/-- FLIT_IDENT (R226): the peer's identity, in training or in MISMATCH, which a changed one ends: the port trains and says
its own again. -/
def rxIdent (o : Nat) (f : Flit) (s : State) : State :=
  let P := s.port o
  let d : Ident :=
    { serial := Config.identField 0 f.payload, port := Config.identField 1 f.payload % 16
      role := Config.identField 2 f.payload, job := f.job.toNat, bridge := Config.identField 3 f.payload % 2 == 1 }
  if P.state = .up then rxPlain o 7 f s
  else if 0 < P.spoilt then s.onPort o (fun P => { P with spoilt := P.spoilt - 1 })
  else if flitCrc 7 f ≠ f.crc.toNat then
    (if P.state = .mismatch ∨ P.state = .training then s.onPort o (fun P => { P with crc := inc 8 P.crc }) else s)
  else
    match P.state with
    | .training => s.onPort o (fun P => { P with ident := some d, lastRx := s.now })
    | .mismatch => if some d = P.ident then s else (startTraining o s).onPort o (fun P => { P with ident := some d })
    | _ => s

/-! Lanes (R220, R222). -/

/-- Queues an entry of the field repair bank (R222, R334). With the bank full the repair counts as unfused at its panel, that
of a lane at the port's primary panel (log 141). -/
def queueRepair (kind unit index : Nat) (s : State) : State :=
  let w : W32 := BitVec.ofNat 32 (kind * 2 ^ 30 + unit * 2 ^ 24 + index * 2 ^ 14)
  if s.fuses.bank.contains w || s.fuses.queue.contains w then s
  else if 4096 ≤ s.fuses.bank.length + s.fuses.queue.length then
    let p := if kind ≤ 1 then unit else (portPanels unit).1
    let s := s.onPanel p (fun P => { P with darn := { P.darn with unfused := inc 8 P.darn.unfused } })
    logErr 1 12 0xFF 0 kind index s
  else { s with fuses := { s.fuses with queue := s.fuses.queue ++ [w] } }

/-- The lanes of a set in rising order. -/
def lanesIn (m : BitVec 13) : List Nat := (List.range 13).filter m.getLsbD

/-- The active lanes and the spare after a failure (R222), from those that a switch in progress brings in. -/
def Port.afterFail (P : Port) (lane : Nat) : BitVec 13 × Nat :=
  let good := P.goodLanes
  let (act, sp) := P.sw.getD (P.active, P.spare)
  let l := lanesIn act
  if !act.getLsbD lane then (act, if sp = lane then 15 else sp)
  else if l.length = 12 then
    (if sp ≤ 12 ∧ good.contains sp then (laneMask (sp :: l.filter (· != lane)), 15) else (laneMask (good.take 8), 15))
  else (laneMask (l.filter (· != lane) ++ (good.filter (fun i => !act.getLsbD i)).take 1), 15)

/-- A lane fails (R222): a switch on a link that is UP is announced by LANE flits, sent three times. -/
def failLane (o lane : Nat) (s : State) : State :=
  let P := s.port o
  if 16 ≤ o ∨ 13 ≤ lane ∨ P.failed.getLsbD lane ∨ P.bad.getLsbD lane then s
  else
    let s := s.onPort o (fun P => { P with failed := P.failed ||| (1#13 <<< lane), corr := P.corr.filter (fun c => c.2 != lane) })
    let P := s.port o
    let (act, sp) := P.afterFail lane
    let s := queueRepair 2 o lane s
    let s := logErr 1 10 (0x40 + o) 0 lane (if P.goodLanes.length < 8 then 0 else ((List.range 13).filter act.getLsbD).length) s
    if P.goodLanes.length < 8 then portTo o .failed s
    else if P.sw.map (·.1) = some act then s.onPort o (fun P => { P with sw := some (act, sp) })
    else if P.state = .up ∧ act ≠ P.active then
      let v := sendEnv s o
      s.onPort o (fun P =>
        (List.range 3).foldl (fun P _ => P.plain v 6 (Config.lanePayload lane)) { P with sw := some (act, sp), agreed := false })
    else s.onPort o (fun P => { P with active := act, spare := sp, sw := none })

/-- FLIT_LANE (R222): the peer answers our lane switch, or begins one. -/
def rxLane (o : Nat) (f : Flit) (s : State) : State :=
  rxFlit o 6 f (fun s =>
    let s := s.onPort o (Port.gain f)
    let s := if (s.port o).sw.isSome then s else failLane o (Config.laneField f.payload % 13) s
    s.onPort o (fun P => { P with agreed := P.sw.isSome })) s

/-- LANE_SWITCH (R222): the switch takes place at the agreed codeword boundary. -/
def laneSwitchNow (o : Nat) (s : State) : State :=
  match (s.port o).sw with
  | some (act, sp) =>
    if (s.port o).agreed then s.onPort o (fun P => { P with active := act, spare := sp, sw := none, agreed := false }) else s
  | none => s

/-- CODEWORD_RECEIVE (R220, R222): up to 15 symbol errors are corrected and traced to their lanes, and a lane with more than
2^12 of them in 2^16 ticks fails; beyond that the codeword is uncorrectable, and the next `flits` flits to come (a codeword
overlaps 4 at most) are discarded, or it is corrected wrongly. -/
def codeword (o : Nat) (errs : List (Nat × BitVec 10)) (flits : Nat) (s : State) : State :=
  let P := s.port o
  let bad := ((errs.filter (fun e => decide (e.1 < 544) && e.2 != 0)).map (·.1)).dedup
  if P.state ≠ .up ∧ P.state ≠ .training ∧ P.state ≠ .mismatch then s
  else if bad.length ≤ 15 then
    let laneOf := fun (i : Nat) => nth 0 P.lanes (i % P.lanes.length)
    let s := s.onPort o (fun P =>
      { P with
        lastRx := s.now
        corr := (P.corr.filter (fun c => decide (s.now < c.1 + 65536))) ++ bad.map (fun i => (s.now, laneOf i)) })
    P.lanes.foldl (fun s l =>
      if 2 ^ 12 < ((s.port o).corr.filter (fun c => c.2 == l)).length then failLane o l s else s) s
  else
    let (v, s) := freshNat s
    if v % 2 = 0 then s.onPort o (fun P => { P with fecUnc := inc 8 P.fecUnc, spoilt := P.spoilt + min 4 flits }) else s.onPort o (fun P => { P with lastRx := s.now })

/-! Replay and timeouts (R224, R226, R237, R240). -/

/-- Sends the flits of the replay buffer again, oldest first, with the acknowledgement of now and the credits they had
(R224). -/
def Port.resend (P : Port) : Port :=
  let (l, Q) := P.buf.foldl (fun (a : List TxFlit × Port) t =>
    let (f, Q) := a.2.send t.kind t.fl.seq.toNat false t.fl
    (a.1 ++ [{ t with fl := f }], Q)) ([], P)
  { Q with buf := l }

/-- A replay (R224). -/
def replayNow (o : Nat) (s : State) : State :=
  let s := s.onPort o (fun P => { P.resend with replay := inc 12 P.replay, stuck := P.stuck + 1, gap := none, lastAck := s.now })
  if 8 ≤ (s.port o).stuck then portTo o .down s else s

/-- REPLAY: the acknowledgement has not advanced across two flits after a gap. -/
def replayGap (o : Nat) (s : State) : State :=
  let P := s.port o
  if P.state = .up ∧ P.buf ≠ [] ∧ 2 ≤ P.gap.getD 0 then replayNow o s else s

/-- REPLAY_TIMEOUT: 200 ticks with unacknowledged flits. -/
def replayLate (o : Nat) (s : State) : State :=
  let P := s.port o
  if P.state = .up ∧ P.buf ≠ [] ∧ P.lastAck + 200 ≤ s.now then replayNow o s else s

/-- LINK_SIGNAL_LOSS. -/
def signalLoss (o : Nat) (s : State) : State :=
  let P := s.port o
  if P.state = .up ∧ P.lastRx + 1000 ≤ s.now then portTo o .down s else s

/-- RETRAIN_ATTEMPT. -/
def retrainNow (o : Nat) (s : State) : State :=
  let P := s.port o
  if P.state = .down ∧ P.role ≠ .off ∧ P.since + 100000 ≤ s.now then
    startTraining o (s.onPort o (fun P => { P with retrain := inc 8 P.retrain }))
  else s

/-- TRAINING_TIMEOUT. -/
def trainingLate (o : Nat) (s : State) : State :=
  let P := s.port o
  if P.state = .training ∧ P.since + 5000000 ≤ s.now then portTo o .down s else s

/-- REDUCE_GAP_TIMEOUT (R237). -/
def gapTimeout (o : Nat) (s : State) : State :=
  let P := s.port o
  match jobOf s o with
  | none => s
  | some k =>
    let J := s.job k
    let due := P.entries.any (fun e => (decide (e.op = .reduce) || decide (e.op = .relay)) && e.step == J.n && !e.last
      && (decide (0 < e.got) || (e.vc == 2 && !(Tab.get [] P.rx 2).isEmpty)))
    if P.role = .reduce ∧ J.stepOpen ∧ due ∧ P.lastReduce + P.timeout ≤ s.now then voidStep k 2 false s else s

/-- COMMIT_TIMEOUT (R237). -/
def commitTimeoutNow (k : Nat) (s : State) : State :=
  let J := s.job k
  match J.tokenAt, commitPort s k with
  | some t, some o =>
    if J.stepOpen ∧ J.back = none ∧ t + (s.port o).commitTimeout ≤ s.now then voidStep k 3 false s else s
  | _, _ => s

/-- REJOIN_SEND (R240). -/
def rejoinDue (o : Nat) (s : State) : State :=
  match jobOf s o with
  | some k => if (s.job k).hold ∧ (s.port o).rejoinAt + 1024 ≤ s.now then sendRejoin k o s else s
  | none => s

/-- A write of LNK_CFG (R237, R248). -/
def writeLnkCfg (src : Source) (o : Nat) (v : W64) (s : State) : State :=
  let t := max 100 (fld v.toNat 47 32)
  let c := max 100 (fld v.toNat 31 0)
  let isOpen := match portPart s o with | some k => (s.job k).stepOpen | none => false
  if !(decide (o < 16) && sourceAt o src) then s
  else if isOpen then s.onPort o (fun P => { P with cfgNext := some (t, c) })
  else s.onPort o (fun P => { P with timeout := t, commitTimeout := c, cfgNext := none })

end Sys2Proof.Machine
end

