-- ==== Sys2Proof/Machine/Regs.lean ====
section
/-! DEFINITION. The registers of the control units (R30): what a read returns and clears (R4 to R7), what a
write does. -/

namespace Sys2Proof.Machine

open Sys2Proof

/-- A field of a register: low bit, width, value, and for an RC field what a clearing read does (R4). -/
structure RFld where
  lo : Nat
  w : Nat
  val : Nat
  clr : Option (State → State)

/-- A field that a read does not clear. -/
def fldOf (lo w val : Nat) : RFld := { lo := lo, w := w, val := val, clr := none }
/-- An RC field. -/
def rcOf (lo w val : Nat) (f : State → State) : RFld := { lo := lo, w := w, val := val, clr := some f }

/-- The value of a register. -/
def regVal (l : List RFld) : Nat := (l.map (fun f => (f.val % 2 ^ f.w) * 2 ^ f.lo)).sum
/-- Clears the RC fields that a read of the bits in `mask` returns. -/
def regClear (l : List RFld) (mask : Nat) (s : State) : State :=
  l.foldl (fun s f => match f.clr with | some g => if mask &&& ((2 ^ f.w - 1) * 2 ^ f.lo) ≠ 0 then g s else s | none => s) s

/-- The bits of an 8-byte register that an access of `len` bytes at byte `b` touches. -/
def byteMask (b len : Nat) : Nat := (2 ^ (8 * min len (8 - b)) - 1) * 2 ^ (8 * b)

/-- Takes the bits of `mask` from `v`, the others from `old`. -/
def mergeBits (old v mask : Nat) : Nat := (old &&& (2 ^ 64 - 1 - mask)) + (v &&& mask)

/-! Panel registers (control unit 0x00). -/

/-- The panel temperature (R307). -/
def Tension.temp (t : Tension) : Nat := t.junction.foldl max t.stackTemp
/-- The hottest sensor (R313): 16 is the stack's. -/
def Tension.hottest (t : Tension) : Nat :=
  match t.junction.zipIdx.find? (fun e => e.1 == t.temp) with | some e => e.2 | none => 16
/-- The 1 s average of a panel's input power, in W (R307); before a whole 1 ms average is kept, the 1 ms average. -/
def Tension.watts1s (T : Tension) : Nat :=
  if T.wsecs.isEmpty then (if T.watts.isEmpty then 0 else T.watts.sum / T.watts.length) else T.wsecs.sum / T.wsecs.length

/-- The average of samples. -/
def average (l : List Nat) : Nat := if l.isEmpty then 0 else l.sum / l.length

/-- Reasons for which a panel is slower than step 0 (R313). -/
def whySlow (s : State) (p : Nat) : Nat :=
  let P := s.panel p
  if P.tension.step = 0 then 0
  else b2n P.firstUse.isSome + 2 * b2n (decide (90 < P.tension.temp)) + 4 * b2n (decide (s.power.cap < s.power.in1ms + 500))
    + 8 * b2n (decide (P.tension.limit ≠ 0))

/-- The learned round-trip cost of DOZE (1), NAP (2) or SLEEP (3) of a panel (R304). -/
def wcost (s : State) (p j : Nat) : Nat :=
  Tab.get (Config.factoryCost p (j - 1) * 3 / 2 % 2 ^ 20) (s.panel p).costs j
/-- The break-even time (R302). -/
def beven (p j : Nat) : Nat := Config.breakEven p (j - 1) % 2 ^ 20

/-- The bad sites of physical row `sy`. -/
def badRow (P : Panel) (sy : Nat) : List Nat := (List.range 24).filter (fun sx => Tab.get false P.bad (24 * sy + sx))
/-- The site left out in a row (R27). -/
def skipColOf (P : Panel) (sy : Nat) : Nat :=
  if sy = P.skipRow then (badRow P sy).headD 23 else Tab.get 23 P.skipCol sy
/-- The sites neither bad nor mapped (R26). -/
def freeSpares (P : Panel) : Nat :=
  let rows := List.range 25
  (rows.map (fun sy =>
    if sy = P.skipRow then 24 - (badRow P sy).length
    else if Tab.get false P.bad (24 * sy + Tab.get 23 P.skipCol sy) then 0 else 1)).sum
/-- Used rows whose skip column is a good site (R26). -/
def rowSpares (P : Panel) : Nat :=
  ((List.range 25).filter (fun sy => sy != P.skipRow && !Tab.get false P.bad (24 * sy + Tab.get 23 P.skipCol sy))).length
/-- Field repair entries written for a panel. -/
def fieldRepairs (s : State) (p : Nat) : Nat :=
  (s.fuses.bank.filter (fun w => decide (fld w.toNat 31 30 ≤ 1) && fld w.toNat 29 24 == p)).length
/-- Holes of a panel. -/
def holeCount (P : Panel) : Nat := (P.holes.filter (·.2)).length
/-- Logical cores neither holes nor fenced (R31). -/
def liveCores (s : State) (p : Nat) : Nat := ((coresOf p).filter (fun n => !isDead s n)).length

/-- Changes the tension of a panel. -/
def onTension (p : Nat) (f : Tension → Tension) (s : State) : State := s.onPanel p (fun P => { P with tension := f P.tension })

/-- The fields of the panel register at an offset (R26, R27, R31, R194, R312 to R314, R335, R336, R359). -/
def panelFlds (p off : Nat) (s : State) : List RFld :=
  let P := s.panel p
  let k := partOf s p
  let T := P.tension
  if off = 0x0000 then
    [fldOf 62 2 P.power.code, fldOf 61 1 (b2n P.lost), fldOf 60 1 (b2n k.isSome), fldOf 58 2 (k.getD 0)
      , fldOf 57 1 (b2n (match k with | some k => anchorOf s k == p | none => false))
      , fldOf 56 1 (b2n (rootPanel s == some p)), fldOf 52 4 P.seq.state.code
      , fldOf 51 1 (b2n (match k with | some k => (s.job k).hold | none => false))
      , fldOf 50 1 (b2n (match k with | some k => (s.job k).stepOpen | none => false))
      , fldOf 49 1 (b2n (decide (P.darn.phase ≠ .idle))), fldOf 48 1 (b2n (P.hang.state != 0)), fldOf 40 8 T.temp
      , fldOf 37 3 T.step, fldOf 16 10 (if P.power = .off ∧ !P.brought then 0 else liveCores s p)
      , fldOf 12 2 (b2n (decide (0 < (portsAt p).length)) + 2 * b2n (decide (1 < (portsAt p).length)))]
  else if off = 0x0008 then
    [fldOf 62 2 P.power.code, fldOf 61 1 (b2n P.lost), fldOf 60 1 (b2n P.wake.isSome)
      , fldOf 58 2 (match k with | some k => (s.part k).ceiling | none => 0), fldOf 57 1 (b2n P.firstUse.isSome)
      , fldOf 56 1 (b2n P.offReq), fldOf 48 8 P.reqSt
      , rcOf 40 8 P.deferred (fun s => s.onPanel p (fun P => { P with deferred := 0 }))
      , rcOf 32 8 P.coreDeferred (fun s => s.onPanel p (fun P => { P with coreDeferred := 0 }))
      , rcOf 16 16 P.wakes (fun s => s.onPanel p (fun P => { P with wakes := 0 }))
      , rcOf 8 8 P.overrun (fun s => s.onPanel p (fun P => { P with overrun := 0 }))]
  else if off = 0x0010 then
    [fldOf 61 3 T.step, fldOf 58 3 T.limit, fldOf 54 4 (whySlow s p), fldOf 52 2 T.last, fldOf 44 8 T.temp
      , fldOf 39 5 (if T.junction.isEmpty then 0 else T.hottest), fldOf 16 16 (average T.watts)
      , rcOf 8 8 T.droop (onTension p (fun T => { T with droop := 0 }))
      , rcOf 0 8 T.slowed (onTension p (fun T => { T with slowed := 0 }))]
  else if off = 0x0018 then
    [fldOf 59 5 P.skipRow, fldOf 58 1 (b2n (decide (P.skipRow = 24) && decide ((badRow P 24).length ≤ 1))), fldOf 40 8 (freeSpares P)
      , fldOf 32 8 (rowSpares P), fldOf 24 8 (sat 8 (holeCount P)), fldOf 16 8 P.fenced, fldOf 0 16 (sat 16 (fieldRepairs s p))]
  else if off = 0x0020 then
    [fldOf 56 8 P.hub.gen, fldOf 55 1 (b2n P.hub.meshBroken), fldOf 54 1 (b2n (rootPanel s == some p))
      , fldOf 40 8 P.hub.bypassed, fldOf 32 8 P.hub.closed, fldOf 0 32 P.hub.updateTicks]
  else if off = 0x0028 then
    let on := fun (f : Hang → Hang) (s : State) => s.onPanel p (fun P => { P with hang := f P.hang })
    [fldOf 62 2 P.hang.state, fldOf 60 2 P.hang.verdict, fldOf 50 10 (sat 10 P.hang.suspects), fldOf 48 2 P.hang.ctx
      , fldOf 32 16 P.hang.core, fldOf 16 16 P.hang.snapshots, rcOf 8 8 P.hang.hangs (on (fun h => { h with hangs := 0 }))
      , rcOf 0 8 P.hang.replays (on (fun h => { h with replays := 0 }))]
  else if off = 0x0030 then
    let on := fun (f : PanelErr → PanelErr) (s : State) => s.onPanel p (fun P => { P with err := f P.err })
    [fldOf 60 4 P.err.source, fldOf 57 3 P.err.level, rcOf 32 16 P.err.coreResets (on (fun e => { e with coreResets := 0 }))
      , rcOf 24 8 P.err.panelResets (on (fun e => { e with panelResets := 0 }))
      , rcOf 16 8 P.err.checks (on (fun e => { e with checks := 0 }))
      , rcOf 8 8 P.err.watchdog (on (fun e => { e with watchdog := 0 }))]
  else if off = 0x0038 then [fldOf 0 64 (panelTick s p)]
  else if off = 0x0040 then [fldOf 40 20 (wcost s p 3), fldOf 20 20 (wcost s p 2), fldOf 0 20 (wcost s p 1)]
  else if off = 0x0048 then [fldOf 40 20 (beven p 3), fldOf 20 20 (beven p 2), fldOf 0 20 (beven p 1)]
  else if off = 0x0050 then
    let on := fun (f : Darn → Darn) (s : State) => s.onPanel p (fun P => { P with darn := f P.darn })
    [fldOf 63 1 (b2n (decide (P.darn.phase ≠ .idle))), fldOf 60 3 P.darn.phase.code, fldOf 56 4 (sat 4 P.darn.queue.length)
      , rcOf 48 8 P.darn.unfused (on (fun d => { d with unfused := 0 })), fldOf 32 16 P.darn.core, fldOf 16 16 P.darn.carried
      , rcOf 8 8 P.darn.holesMade (on (fun d => { d with holesMade := 0 }))
      , rcOf 0 8 P.darn.darned (on (fun d => { d with darned := 0 }))]
  else if 0x0100 ≤ off ∧ off < 0x0100 + 8 * 25 then
    let sy := (off - 0x0100) / 8
    [fldOf 30 1 (b2n (decide (2 ≤ (badRow P sy).length))), fldOf 29 1 (b2n (sy == P.skipRow)), fldOf 24 5 (skipColOf P sy)
      , fldOf 0 24 ((badRow P sy).map (2 ^ ·)).sum]
  else if 0x0200 ≤ off ∧ off < 0x0200 + 8 * 24 then
    let ly := (off - 0x0200) / 8
    [fldOf 0 23 (((List.range 23).filter (fun lx => Tab.get false P.holes (23 * ly + lx))).map (2 ^ ·)).sum]
  else if 0x0300 ≤ off ∧ off < 0x0300 + 8 * 24 then
    let ly := (off - 0x0300) / 8
    [fldOf 0 23 (((List.range 23).filter (fun lx => Tab.get false P.fresh (23 * ly + lx))).map (2 ^ ·)).sum]
  else []

/-- The bound of a panel's clock step (R308). -/
def tensionBound (P : Panel) : Nat := max (if P.firstUse.isSome then 2 else 0) P.tension.limit

/-- An ACTIVE panel faster than its bound slows to it at once (R308), a step at a time (R297). -/
def obeyBound (p : Nat) (s : State) : State :=
  let P := s.panel p
  let b := tensionBound P
  if P.tension.step < b ∧ P.power = .active ∧ P.tension.target = none then
    onTension p (fun T => { T with target := some (T.step + 1), last := 3, slowed := inc 8 T.slowed }) s
  else s

/-- A write of PNL_TENSION.limit (R313). -/
def writeLimit (p v : Nat) (s : State) : State :=
  obeyBound p (onTension p (fun T => { T with limit := if 5 < v then 5 else v }) s)

/-- A request to power a panel off (R301): the outcome is written to `req_st`; an accepted one updates the
route tables first. -/
def offRequest (fromSeq : Bool) (p : Nat) (s : State) : Nat × State :=
  let P := s.panel p
  let sess : Bool := match partOf s p with
    | some k => partResident s k || decide ((s.part k).session = .opened) || decide ((s.part k).session = .suspended)
    | none => false
  let st := if fromSeq then 0x0F else if sess then 0x04 else if P.stack.mirrored then 0x04 else 0
  let s := s.onPanel p (fun P => { P with reqSt := st })
  if st ≠ 0 ∨ P.power = .off then (st, s)
  else (0, tablesChanged (s.onPanel p (fun P => { P with offReq := true })))

/-- A write to a panel register. -/
def panelWrite (fromSeq : Bool) (p off v mask : Nat) (s : State) : Nat × State :=
  if off = 0x0008 then (if (v &&& mask).testBit 56 then offRequest fromSeq p s else (0, s))
  else if off = 0x0010 then (0, if mask.testBit 58 then writeLimit p (fld v 60 58) s else s)
  else if 0x0300 ≤ off ∧ off < 0x0300 + 8 * 24 then
    let ly := (off - 0x0300) / 8
    (0, s.onPanel p (fun P =>
      { P with fresh := (List.range 23).foldl (fun t lx => if (v &&& mask).testBit lx then Tab.put false t (23 * ly + lx) false else t) P.fresh }))
  else (0, s)

/-! Sequencer registers (control unit 0x01). -/

/-- The fields of a sequencer register (R61, R66, R267). -/
def seqFlds (p off : Nat) (s : State) : List RFld :=
  let q := s.seq p
  if off = 0x0000 then
    [fldOf 60 4 q.state.code, fldOf 56 4 (match q.fault with | some f => f.code | none => 0), fldOf 55 1 (b2n q.stepOpen)
      , fldOf 32 16 q.pc, fldOf 0 32 q.step.toNat]
  else if off = 0x0008 then [fldOf 0 64 q.flags.toNat]
  else if off = 0x0010 then [fldOf 0 32 q.period.toNat]
  else if off = 0x0018 then
    match partOf s p with
    | none => []
    | some k =>
      let J := s.job k
      let h := hdrOf s k
      [fldOf 56 8 J.cause, rcOf 48 8 J.voids (fun s => s.onJob k (fun J => { J with voids := 0 }))
        , rcOf 40 8 J.skips (fun s => s.onJob k (fun J => { J with skips := 0 }))
        , rcOf 32 8 J.replays (fun s => s.onJob k (fun J => { J with replays := 0 })), fldOf 0 32 h.gen]
  else if 0x0100 ≤ off ∧ off < 0x0180 then [fldOf 0 16 (Tab.get 0 q.bar ((off - 0x0100) / 8))]
  else []

/-- A write to a sequencer register. -/
def seqWrite (p off v mask : Nat) (s : State) : Nat × State :=
  let q := s.seq p
  if off = 0x0008 then (0, s.onSeq p (fun q => { q with flags := BitVec.ofNat 64 (mergeBits q.flags.toNat v mask) }))
  else if off = 0x0010 then (0, s.onSeq p (fun q => { q with period := BitVec.ofNat 32 (mergeBits q.period.toNat v mask) }))
  else if 0x0100 ≤ off ∧ off < 0x0180 then
    let i := (off - 0x0100) / 8
    (0, s.onSeq p (fun _ => { q with bar := Tab.put 0 q.bar i (mergeBits (Tab.get 0 q.bar i) v mask % 65536) }))
  else (0, s)

/-! Hub registers (control unit 0x02). -/

/-- The fields of a hub register (R167, R184, R195). -/
def hubFlds (p off : Nat) (s : State) : List RFld :=
  let H := (s.panel p).hub
  if off = 0x0020 then
    [rcOf 52 12 H.staleEpoch (fun s => s.onHub p (fun H => { H with staleEpoch := 0 }))
      , rcOf 40 12 H.targetAbsent (fun s => s.onHub p (fun H => { H with targetAbsent := 0 }))
      , rcOf 28 12 H.rerouted (fun s => s.onHub p (fun H => { H with rerouted := 0 }))
      , rcOf 16 12 H.redMismatch (fun s => s.onHub p (fun H => { H with redMismatch := 0 }))
      , rcOf 4 12 H.redLost (fun s => s.onHub p (fun H => { H with redLost := 0 }))]
  else if off = 0x0400 then [fldOf 16 7 H.split.m, fldOf 8 7 H.split.w, fldOf 0 7 H.split.r]
  else if 0x0408 ≤ off ∧ off < 0x0420 then
    let i := (off - 0x0408) / 8
    [fldOf 53 11 (entriesOf s p i)
      , rcOf 32 16 (Tab.get 0 H.delayed i) (fun s => s.onHub p (fun H => { H with delayed := Tab.put 0 H.delayed i 0 }))
      , rcOf 16 16 (Tab.get 0 H.refused i) (fun s => s.onHub p (fun H => { H with refused := Tab.put 0 H.refused i 0 }))]
  else if 0x1000 ≤ off ∧ off < 0x1200 then
    let d := (off - 0x1000) / 8
    [fldOf 4 4 (Tab.get 4 H.hops d), fldOf 0 2 (Tab.get Route.xy H.classes d).code]
  else []

/-! Stack registers (control unit 0x03). -/

/-- The fields of a stack register (R212 to R215). -/
def stkFlds (p off : Nat) (s : State) : List RFld :=
  let K := s.stack p
  if off = 0x0000 then
    [fldOf 62 2 K.power.code, fldOf 61 1 (b2n K.mirrored), fldOf 60 1 (b2n (K.mirrorLost || decide (K.rebuild ≠ .none)))
      , fldOf 59 1 (b2n K.key.isSome), fldOf 48 11 K.entries.length
      , rcOf 40 8 K.ue (fun s => s.onStack p (fun K => { K with ue := 0 }))
      , rcOf 28 12 K.corrected (fun s => s.onStack p (fun K => { K with corrected := 0 }))
      , rcOf 16 12 K.merge (fun s => s.onStack p (fun K => { K with merge := 0 }))
      , rcOf 8 8 K.mirrorFix (fun s => s.onStack p (fun K => { K with mirrorFix := 0 }))
      , rcOf 0 8 K.poisonRd (fun s => s.onStack p (fun K => { K with poisonRd := 0 }))]
  else if off = 0x0008 then [fldOf 0 64 K.ueaddr.toNat]
  else if off = 0x0010 then [fldOf 63 1 (b2n K.scrubOn), fldOf 32 16 K.interval, fldOf 0 28 K.next]
  else if 0x1000 ≤ off ∧ off < 0x3000 then
    let i := (off - 0x1000) / 8
    match K.entries[i]? with
    | some pg => [fldOf 63 1 1, fldOf 14 25 pg, fldOf 0 14 (Tab.get 0 K.retire pg)]
    | none => []
  else []

/-- A write of STK_SCRUB (R205, R214): the bytes written take their place in the register (R4). -/
def writeScrub (p v mask : Nat) (s : State) : State :=
  let w := mergeBits (regVal (stkFlds p 0x0010 s)) v mask
  s.onStack p (fun K =>
    { K with
      scrubOn := w.testBit 63
      interval := if fld mask 47 32 = 0 then K.interval else max 250 (fld w 47 32) })

/-- A write to a stack register. -/
def stkWrite (p off v mask : Nat) (s : State) : Nat × State :=
  if off = 0x0008 then (0, if (v &&& mask).testBit 63 then s.onStack p (fun K => { K with ueaddr := 0 }) else s)
  else if off = 0x0010 then (0, writeScrub p v mask s)
  else (0, s)

/-! Link registers (control units 0x04 and 0x05, BAR0 0x0200_0000). -/

/-- The fields of a register of port `o` (R243 to R248). -/
def lnkFlds (o off : Nat) (s : State) : List RFld :=
  let P := s.port o
  let k := portPart s o
  let J := (k.map s.job).getD JobSt.init
  let jp := P.role.job
  if off = 0x0000 then
    [fldOf 60 4 P.state.code, fldOf 56 4 (if P.state = .up then P.lanes.length else 0), fldOf 55 1 (b2n J.hold), fldOf 54 1 (b2n (J.hold && P.rejoined))
      , fldOf 53 1 (b2n (J.hold && J.down)), fldOf 52 1 (b2n P.peerBridge), fldOf 48 4 P.peerPort
      , rcOf 40 8 P.lastSt (fun s => s.onPort o (fun P => { P with lastSt := 0 })), fldOf 0 32 P.peerSerial]
  else if off = 0x0008 then [fldOf 61 3 P.role.code, fldOf 60 1 (b2n P.commitOut), fldOf 32 16 P.job]
  else if off = 0x0010 then [fldOf 48 4 P.spare, fldOf 32 13 P.bad.toNat, fldOf 16 13 P.failed.toNat, fldOf 0 13 P.active.toNat]
  else if off = 0x0018 then
    [fldOf 32 32 (if jp && J.hold then J.resume else 0), fldOf 31 1 (b2n P.nf), fldOf 30 1 (b2n (jp && J.hold)), fldOf 0 30 J.n]
  else if off = 0x0020 then
    [rcOf 52 12 P.replay (fun s => s.onPort o (fun P => { P with replay := 0 }))
      , rcOf 44 8 P.crc (fun s => s.onPort o (fun P => { P with crc := 0 }))
      , rcOf 36 8 P.fecUnc (fun s => s.onPort o (fun P => { P with fecUnc := 0 }))
      , rcOf 28 8 P.flushed (fun s => s.onPort o (fun P => { P with flushed := 0 }))
      , rcOf 20 8 P.proto (fun s => s.onPort o (fun P => { P with proto := 0 }))
      , rcOf 12 8 P.qFull (fun s => s.onPort o (fun P => { P with qFull := 0 }))
      , rcOf 4 8 P.retrain (fun s => s.onPort o (fun P => { P with retrain := 0 }))
      , rcOf 0 4 P.refused (fun s => s.onPort o (fun P => { P with refused := 0 }))]
  else if off = 0x0028 then
    let (t, c) := P.cfgNext.getD (P.timeout, P.commitTimeout)
    [fldOf 32 16 t, fldOf 0 32 c]
  else if off = 0x0030 then
    match k with
    | some k => if jp then [fldOf 32 32 (hdrOf s k).applied, fldOf 0 32 (hdrOf s k).committed] else []
    | none => []
  else []

/-- A write to a register of port `o`. -/
def lnkWrite (src : Source) (o off v mask : Nat) (s : State) : Nat × State :=
  if off = 0x0028 then
    let old := regVal (lnkFlds o 0x0028 s)
    (0, writeLnkCfg src o (BitVec.ofNat 64 (mergeBits old v mask)) s)
  else if 0x0100 ≤ off ∧ off < 0x0120 then
    let i := (off - 0x0100) / 8
    let w := fun (j : Nat) => (Tab.get 0 (s.port o).post j : W64)
    let s := s.onPort o (fun P => { P with post := Tab.set P.post i (BitVec.ofNat 64 (mergeBits (w i).toNat v mask)) })
    let w := fun (j : Nat) => (Tab.get 0 (s.port o).post j : W64)
    if i = 3 then postEntry src o (postWord (w 0) (w 1) (w 2) (w 3)) s else (0, s)
  else (0, s)

/-! Core registers (control units 0x10 and 0x11). -/

/-- Changes the counters of the context that runs or ran last on core `n`. -/
def clrCount (n : Nat) (f : Counts → Counts) (s : State) : State := s.onCounts n f

/-- The fields of a core register (R59, R91, R111, R127, R137, R146, R147, R172, R186). -/
def coreFlds (n off : Nat) (s : State) : List RFld :=
  let c := s.core n
  let x := c.ctx
  let t := x.counts
  if off = 0x0000 then
    let ex : Nat × Nat × Nat × Nat := match c.stat with
      | some (r, k) => (r.exc.code, r.slot, k, r.pc)
      | none => (0, 0, 0, 0)
    [fldOf 62 2 c.power.code, fldOf 60 2 c.cur, fldOf 48 12 (((List.range 4).map (fun k => (Tab.get Ctx.init c.ctxs k).state.code * 8 ^ k)).sum)
      , fldOf 45 3 ex.1, fldOf 43 2 ex.2.1, fldOf 41 2 ex.2.2.1, fldOf 21 20 ex.2.2.2, fldOf 20 1 (b2n c.postFault)
      , rcOf 8 8 c.lateSlot (fun s => s.onCore n (fun c => { c with lateSlot := 0 }))
      , rcOf 4 4 c.wcollide (fun s => s.onCore n (fun c => { c with wcollide := 0 }))]
  else if off = 0x0008 then
    [fldOf 48 16 t.hazard.toNat, fldOf 44 4 t.listFault.toNat, rcOf 32 8 t.delayed (clrCount n (fun t => { t with delayed := 0 }))
      , rcOf 24 8 t.refused (clrCount n (fun t => { t with refused := 0 }))
      , rcOf 16 8 t.poison (clrCount n (fun t => { t with poison := 0 }))
      , rcOf 8 8 t.stale (clrCount n (fun t => { t with stale := 0 }))
      , rcOf 0 8 t.faultSt (clrCount n (fun t => { t with faultSt := 0 }))]
  else if off = 0x0010 then
    [fldOf 63 1 (b2n (x.mode.getLsbD 1)), rcOf 60 2 t.gmeFirst (clrCount n (fun t => { t with gmeFirst := 0 }))
      , rcOf 32 16 t.maskDrop (clrCount n (fun t => { t with maskDrop := 0 }))
      , rcOf 16 16 t.metaBad (clrCount n (fun t => { t with metaBad := 0 }))
      , rcOf 0 16 t.idxDrop (clrCount n (fun t => { t with idxDrop := 0 }))]
  else if off = 0x0018 then
    let on := fun (f : SpdStat → SpdStat) (s : State) => s.onCore n (fun c => { c with spd := f c.spd })
    [rcOf 48 16 c.spd.downgrade (on (fun d => { d with downgrade := 0 })), rcOf 32 16 c.spd.corrected (on (fun d => { d with corrected := 0 }))
      , rcOf 24 8 c.spd.ue (on (fun d => { d with ue := 0 })), rcOf 16 8 c.spd.poisonRd (on (fun d => { d with poisonRd := 0 }))
      , rcOf 8 8 c.spd.wbLost (on (fun d => { d with wbLost := 0 }))]
  else if off = 0x0020 then
    let grp := fun (a : Nat) => ((List.range 8).map (fun g => b2n (x.groups.any (fun e => e.1 == 8 * a + g)) * 2 ^ g)).sum
    [fldOf 63 1 (b2n (x.mode.getLsbD 3)), fldOf 62 1 (b2n x.srs1), fldOf 61 1 (b2n x.srs0), fldOf 48 8 (grp 1), fldOf 40 8 (grp 0)
      , fldOf 34 6 c.m1.queue.length, fldOf 28 6 c.m0.queue.length, rcOf 20 8 t.lost (clrCount n (fun t => { t with lost := 0 }))
      , rcOf 12 8 t.spills (clrCount n (fun t => { t with spills := 0 }))
      , rcOf 4 8 t.apoisoned (clrCount n (fun t => { t with apoisoned := 0 }))]
  else if off = 0x0028 then
    [fldOf 63 1 (b2n c.flag), fldOf 61 2 c.gate.code, rcOf 32 16 t.nonfinite (clrCount n (fun t => { t with nonfinite := 0 }))
      , rcOf 24 8 t.gateClosed (clrCount n (fun t => { t with gateClosed := 0 }))
      , rcOf 16 8 t.gateSkip (clrCount n (fun t => { t with gateSkip := 0 }))
      , rcOf 8 8 t.vpoisoned (clrCount n (fun t => { t with vpoisoned := 0 }))]
  else if off = 0x0030 then [fldOf 0 64 c.ueaddr.toNat]
  else if 0x0100 ≤ off ∧ off < 0x0180 then [fldOf 0 64 (Tab.get 0 c.regions ((off - 0x0100) / 8) : W64).toNat]
  else if 0x0200 ≤ off ∧ off < 0x0280 then [fldOf 0 64 (Tab.get 0 c.red ((off - 0x0200) / 8) : W64).toNat]
  else []

/-- A context of the core is RUNNING or WAITING (R139). -/
def Core.inUse (c : Core) : Bool := (List.range 4).any (fun k =>
  let st := (Tab.get Ctx.init c.ctxs k).state
  decide (st = .running) || decide (st = .waiting))

/-- The reserved bits of a region register (R137). -/
def regionReserved (v : Nat) : Bool := fld v 58 43 != 0 || fld v 31 11 != 0
/-- The bits that a region register and a reduction entry hold. -/
def regionKeep (v : Nat) : Nat := setFld (setFld v 58 43 0) 31 11 0
def redKeep (v : Nat) : Nat := setFld (setFld v 61 56 0) 23 22 0

/-- A write of a region register (R139, which is followed where R5 differs: log entry 94). -/
def writeRegion (n r v : Nat) (s : State) : Nat × State :=
  if (s.core n).inUse then (0x04, s)
  else if v.testBit 63 && (decide (fld v 42 32 < fld v 10 0) || decide (1535 < fld v 42 32) || regionReserved v) then (0x03, s)
  else (0, s.onCore n (fun c => { c with regions := Tab.put 0 c.regions r (BitVec.ofNat 64 (regionKeep v)) }))

/-- A write of a reduction entry (R186). -/
def writeRed (n r v : Nat) (s : State) : Nat × State :=
  let (x0, y0, x1, y1) := (fld v 55 48, fld v 47 40, fld v 39 32, fld v 31 24)
  let inPart := match partOf s (panelOf n) with
    | some k =>
      let K := s.part k
      decide (K.x0 * 23 ≤ x0) && decide (x1 < (K.x1 + 1) * 23) && decide (K.y0 * 24 ≤ y0) && decide (y1 < (K.y1 + 1) * 24)
    | none => false
  let holds := decide (x0 ≤ cxOf n) && decide (cxOf n ≤ x1) && decide (y0 ≤ cyOf n) && decide (cyOf n ≤ y1)
  let bad := decide (x1 < x0) || decide (y1 < y0) || decide (184 ≤ x1) || decide (192 ≤ y1) || !inPart || !holds
    || decide (fld v 21 11 < fld v 10 0) || decide (1535 < fld v 21 11)
  let busy := (List.range 4).any (fun k => (List.range 4).any (fun l =>
    let st := (s.listAt n k l).state
    decide (st = .running) || decide (st = .atMarker) || decide (st = .slotWait) || decide (st = .stopping)))
  if busy then (0x04, s)
  else if v.testBit 63 && bad then (0x03, s)
  else (0, s.onCore n (fun c => { c with red := Tab.put 0 c.red r (BitVec.ofNat 64 (redKeep v)) }))

/-- A write to a core register. -/
def coreWrite (n off v mask : Nat) (s : State) : Nat × State :=
  let w := v &&& mask
  if off = 0x0000 then (0, if w.testBit 20 then s.onCore n (fun c => { c with postFault := false }) else s)
  else if off = 0x0008 then
    (0, s.onCounts n (fun t =>
      { t with
        hazard := t.hazard &&& ~~~(BitVec.ofNat 16 (fld w 63 48)), listFault := t.listFault &&& ~~~(BitVec.ofNat 4 (fld w 47 44)) }))
  else if off = 0x0030 then (0, if w.testBit 63 then s.onCore n (fun c => { c with ueaddr := 0 }) else s)
  else if 0x0100 ≤ off ∧ off < 0x0180 then
    let r := (off - 0x0100) / 8
    writeRegion n r (mergeBits (Tab.get 0 (s.core n).regions r : W64).toNat v mask) s
  else if 0x0200 ≤ off ∧ off < 0x0280 then
    let r := (off - 0x0200) / 8
    writeRed n r (mergeBits (Tab.get 0 (s.core n).red r : W64).toNat v mask) s
  else (0, s)

/-! Control units by offset (R30). -/

/-- The logical core at site `i` of panel `p`. -/
def coreAtSite (s : State) (p i : Nat) : Option Nat := (coresOf p).find? (fun n => siteIdx s n == i)

/-- The number under which the core registers of a site are kept that no logical core is mapped to (R30). -/
def spareNo (p i : Nat) : Nat := 40000 + 600 * p + i

/-- The core registers of site `i` of panel `p`: those of its logical core, else of the site itself (R30). -/
def siteNo (s : State) (p i : Nat) : Nat := (coreAtSite s p i).getD (spareNo p i)

/-- An unmapped site that is bad or fenced has its core rail off (R28). -/
def sitePower (s : State) (p i : Nat) : State :=
  if (coreAtSite s p i).isNone && Tab.get false (s.panel p).bad i then
    s.onCore (spareNo p i) (fun c => { c with power := .fenced })
  else s

/-- The registers of a panel's unmapped sites are gone, or of those that a logical core is now mapped to. -/
def dropSpares (p : Nat) (all : Bool) (s : State) : State :=
  { s with cores := s.cores.filter (fun e =>
      !(decide (spareNo p 0 ≤ e.1) && decide (e.1 < spareNo p 600) && (all || (coreAtSite s p (e.1 - spareNo p 0)).isSome))) }

/-- The fields of the register at an offset of a control unit; sequencer memory is no register. -/
def unitFlds (p u off : Nat) (s : State) : List RFld :=
  match u with
  | 0 => panelFlds p off s
  | 1 => seqFlds p off s
  | 2 => hubFlds p off s
  | 3 => stkFlds p off s
  | 4 => lnkFlds (nth 16 (portsAt p) 0) off s
  | 5 => lnkFlds (nth 16 (portsAt p) 1) off s
  | 0x10 => coreFlds (coreIn p (off / 0x10000 % 23) (off / 0x10000 / 23)) (off % 0x10000) s
  | _ => coreFlds (siteNo s p (off / 0x10000)) (off % 0x10000) (sitePower s p (off / 0x10000))

/-- Reads the bytes [b, b + len) of one register and clears what they return (R4, R6). -/
def readReg (l : List RFld) (b len : Nat) (s : State) : List Byte × State :=
  (((leBytes 8 (regVal l)).drop b).take len, regClear l (byteMask b len) s)

/-- Whether an offset of unit 0x01 lies in sequencer memory. -/
def inSeqMem (u off : Nat) : Bool := decide (u = 1) && decide (0x10000 ≤ off) && decide (off < 0x50000)

/-- Reads `len` bytes, at most 8, at an offset of a control unit. -/
def unitRead (p u off len : Nat) (s : State) : List Byte × State :=
  if inSeqMem u off then (memBytes s.mem (seqKey p (off - 0x10000)) len, s)
  else
    let b := off % 8
    let m := min len (8 - b)
    let (x, s) := readReg (unitFlds p u (off - b) s) b m s
    if m < len then
      let (y, s) := readReg (unitFlds p u (off - b + 8) s) 0 (len - m) s
      (x ++ y, s)
    else (x, s)

/-- Writes one register of a control unit. -/
def unitWriteReg (src : Source) (p u off v mask : Nat) (s : State) : Nat × State :=
  let fromSeq := match src with | .host => false | .seq _ => true
  match u with
  | 0 => panelWrite fromSeq p off v mask s
  | 1 => seqWrite p off v mask s
  | 2 => (0, s)
  | 3 => stkWrite p off v mask s
  | 4 => lnkWrite src (nth 16 (portsAt p) 0) off v mask s
  | 5 => lnkWrite src (nth 16 (portsAt p) 1) off v mask s
  | 0x10 => coreWrite (coreIn p (off / 0x10000 % 23) (off / 0x10000 / 23)) (off % 0x10000) v mask s
  | _ => coreWrite (siteNo s p (off / 0x10000)) (off % 0x10000) v mask s

/-- Writes bytes, at most 8, at an offset of a control unit: the status of the write. -/
def unitWrite (src : Source) (p u off : Nat) (bs : List Byte) (s : State) : Nat × State :=
  if inSeqMem u off then (0, { s with mem := memPutBytes s.mem (seqKey p (off - 0x10000)) bs })
  else
    let b := off % 8
    let v := leNat bs * 2 ^ (8 * b)
    let (st, s) := unitWriteReg src p u (off - b) (v % 2 ^ 64) (byteMask b bs.length) s
    if 8 < b + bs.length then
      let (st2, s) := unitWriteReg src p u (off - b + 8) (v / 2 ^ 64) (byteMask 0 (b + bs.length - 8)) s
      (if st = 0 then st2 else st, s)
    else (st, s)

end Sys2Proof.Machine
end

