-- ==== Sys2Proof/Machine/Remote.lean ====
section
/-! DEFINITION. Requests that arrive at a scratchpad or a control unit (R32, R138, R145, R193). -/

namespace Sys2Proof.Machine

open Sys2Proof

/-- The first offset of unit 0x01 that names the result window (R284). -/
def winBase : Nat := 0x80000

/-- The status of an access to a control unit, or 0 (R32 rows 3 to 6). The panel registers' own supervisor
does not ask for more than the rows. -/
def ctlStatus (s : State) (p u off : Nat) : Nat :=
  let P := s.panel p
  let o := nth 16 (portsAt p) (u - 4)
  if P.lost then 0x06
  else if (u = 4 ∨ u = 5) ∧ (portsAt p).length ≤ u - 4 then 0x06
  else if P.power ≠ .active then 0x04
  else if u = 0x10 ∧ isDead s (coreIn p (off / 0x10000 % 23) (off / 0x10000 / 23)) then 0x06
  else if P.inReset ∨ ((u = 4 ∨ u = 5) ∧ (s.port o).inReset) then 0x07
  else if u = 0x10 ∧ (s.core (coreIn p (off / 0x10000 % 23) (off / 0x10000 / 23))).inReset then 0x07
  else 0

/-- The granules of a range of bytes whose lines are bad. -/
def granulesBad (off len : Nat) (bad : List Nat) : List Bool := granules len (fun i => bad.contains ((off + i) / 64))

/-- Lines of a write that receive a byte of a poisoned granule (R170). -/
def poisonedLines (off len : Nat) (pois : List Bool) : List Nat :=
  (((List.range len).filter (fun i => nth false pois (i / 64))).map (fun i => (off + i) / 64)).dedup

/-- A request that region attributes do not refuse (R138): a read or landing of the core itself, or one of
the host. -/
def ownAccess (k : Packet) (n : Nat) : Bool := (k.src == Src.core n && decide (k.op ≠ .posted)) || k.src == Src.die

/-- The status of a host access to a scratchpad, or 0: `ro` and `local` do not refuse it (R138). -/
def hostSpdStatus (s : State) (n off len : Nat) : Nat :=
  if siteStatus s n ≠ 0 then siteStatus s n else if inSave (s.core n) off len then 0x0F else 0

/-- Serves a request at a scratchpad. -/
def serveSpd (k : Packet) (n off : Nat) (s : State) : State :=
  let st0 := if ownAccess k n then hostSpdStatus s n off k.size
    else spdStatus s n off k.size (decide (k.op ≠ .read))
  let st := if (st0 = 0 ∨ st0 = 0x0F) ∧ k.epoch ≠ epochOf s n then 0x07 else st0
  if st = 0x06 then countAbsent (panelOf n) (answer k.pid st [] [] s)
  else if st ≠ 0 then answer k.pid st [] [] s
  else
    match k.op with
    | .read =>
      let (r, s) := spdRead (if k.src = .die then 3 else 2) n off k.size s
      let s := match k.src with | .core m => if r.late off k.size then markCorrected m k s else s | _ => s
      let st := if isDirect s k && !r.bad.isEmpty then 0x0E else 0
      answer k.pid st r.bytes (granulesBad off k.size r.bad) s
    | _ =>
      let s := spdWrite n (atOff off k.data) (poisonedLines off k.data.length k.pois) s
      answer k.pid 0 [] [] s

/-- The source of a control write as the registers see it. -/
def Src.asSource : Src → Source
  | .seq p => .seq p
  | _ => .host

/-- Serves a request at a control unit. -/
def serveCtl (k : Packet) (p u off : Nat) (s : State) : State :=
  let blk := match targetOf k.dst 1 with | some t => t.block | none => 0
  let st0 := ctlStatus s p u off
  let st := if st0 = 0 ∧ k.epoch ≠ epochOf s blk then 0x07 else st0
  if st = 0x06 then countAbsent p (answer k.pid st [] [] s)
  else if st ≠ 0 then answer k.pid st [] [] s
  else
    match k.op with
    | .read =>
      let (b, s) := unitRead p u off k.size s
      answer k.pid 0 b [] s
    | _ =>
      let (st, s) := unitWrite k.src.asSource p u off k.data s
      answer k.pid st [] [] s

/-- REMOTE_REQUEST (R32): a request that has reached its scratchpad or control unit is served or
answered. -/
def remoteRequest (pid : Nat) (s : State) : State :=
  match packetOf s pid with
  | none => s
  | some k =>
    match k.reply, k.pos, targetOf k.dst k.size with
    | false, .there, some (.spd n off) => serveSpd k n off s
    | false, .there, some (.ctl p u off) => serveCtl k p u off s
    | false, .there, none => answer pid 0x03 [] [] s
    | _, _, _ => s

/-- CORRECTION_WRITE_BACK (R134): the corrected line is written back as it was delivered. -/
def writeBackNow (n l : Nat) (s : State) : State :=
  match (s.core n).wb.find? (fun w => w.line == l) with
  | none => s
  | some w =>
    let s := s.onCore n (fun c => { c with wb := c.wb.filter (fun w => w.line != l) })
    let s := { s with mem := memPutBytes s.mem (spdKey n (64 * l)) w.data }
    s.putLine n l { s.line n l with chk := checkBits w.data, lchk := lineCheck w.data, checked := true }

end Sys2Proof.Machine
end

