-- ==== Sys2Proof/Machine/SeqOps.lean ====
section
/-! DEFINITION. The panel sequencer (R60 to R66): its instructions, waits, fabric accesses and watchdog. -/

namespace Sys2Proof.Machine

open Sys2Proof

/-- The panel is ACTIVE, live and out of reset. -/
def panelRuns (P : Panel) : Bool := decide (P.power = .active) && !P.lost && !P.shorted && !P.inReset

/-- A hang replay holds the sequencer (R353). -/
def hangHolds (s : State) (p : Nat) : Bool := s.hang.active && s.hang.cur.isSome && s.hang.panels.contains p

/-- The sequencer executes its next word. -/
def seqReady (s : State) (p : Nat) : Bool :=
  decide ((s.seq p).state = .running) && panelRuns (s.panel p) && !hangHolds s p

/-- A result of a register instruction written at once (R60). -/
def regNow (r : Regs) : RegW → Regs
  | .s i v => r.setS i v
  | .a i v => r.setA i v
  | .p i v => r.setP i v
  | _ => r

/-- The word after `pc` (R43, R60): no delay words. -/
def stepSeq (q : Seq) : Seq :=
  let (nx, lv) := loopNext q.pc q.loops.reverse
  { q with pc := nx % 65536, loops := lv.reverse, issue := q.issue + 1 }

/-- Goes on after a word with its effect. -/
def seqGo (p : Nat) (f : Seq → Seq) (s : State) : State := s.onSeq p (fun q => f (stepSeq q))

/-- A register instruction. -/
def seqAlu (a : Alu) (p : Nat) (s : State) : State :=
  if a.legal then
    let r := (s.seq p).regs
    seqGo p (fun q => { q with regs := (a.res r).foldl regNow q.regs }) s
  else seqFault p .illegal s

/-- The last two words of an active body (R44). -/
def seqLastTwo (q : Seq) : Bool :=
  q.loops.any (fun l => decide (l.start ≤ q.pc) && decide (q.pc ≤ l.stop) && decide (l.stop ≤ q.pc + 1))

/-- A taken branch (R42). -/
def seqJump (p : Nat) (t : Int) (s : State) : State :=
  let tgt := (t % 65536).toNat
  s.onSeq p (fun q =>
    let (_, lv) := loopNext q.pc q.loops.reverse
    { q with pc := tgt, loops := (keepLevels tgt lv).reverse, issue := q.issue + 1 })

/-- BR, JMP and JR: refused in the last two words of an active body. -/
def seqBranch (p : Nat) (legal : Bool) (t : Option Int) (s : State) : State :=
  if !legal || seqLastTwo (s.seq p) then seqFault p .illegal s
  else match t with | some t => seqJump p t s | none => seqGo p id s

/-- LOOP and LOOPI (R43, R44). -/
def seqLoop (p : Nat) (legal : Bool) (count body : Nat) (s : State) : State :=
  let q := s.seq p
  let inside := match q.loops.getLast? with | some l => decide (q.pc + body ≤ l.stop) | none => true
  if !legal || seqLastTwo q || decide (4 ≤ q.loops.length) || !inside then seqFault p .illegal s
  else if count = 0 then s.onSeq p (fun q => { q with pc := (q.pc + body + 1) % 65536, issue := q.issue + 1 })
  else
    s.onSeq p (fun q =>
      { q with
        pc := (q.pc + 1) % 65536, issue := q.issue + 1
        loops := q.loops ++ [{ count := count, start := q.pc + 1, stop := q.pc + body }] })

/-- LD and ST on the sequencer's own memory (R60). -/
def seqMem (p : Nat) (i : CM) (st : Bool) (s : State) : State :=
  let q := s.seq p
  let sz := 2 ^ i.size.toNat
  let o := dispOff (q.regs.getA i.base.toNat) i.off.toInt sz
  if o < 0 ∨ o % (sz : Int) ≠ 0 ∨ 0x40000 < o + sz then seqFault p .addr s
  else if st then
    let v := (q.regs.getS i.t.toNat).toNat
    seqGo p id { s with mem := memPutBytes s.mem (seqKey p o.toNat) (leBytes sz v) }
  else
    let v := leNat (memBytes s.mem (seqKey p o.toNat) sz)
    seqGo p (fun q => { q with regs := q.regs.setS i.t.toNat (BitVec.ofNat 64 v) }) s

/-- The sequencer waits (R60). -/
def seqWait (p : Nat) (w : SeqWait) (s : State) : State :=
  s.onSeq p (fun q => { q with state := .waiting, wait := some w, issue := q.issue + 1 })

/-- A wait is over: the next word follows. -/
def seqResume (p : Nat) (f : Seq → Seq) (s : State) : State :=
  s.onSeq p (fun q =>
    let (nx, lv) := loopNext q.pc q.loops.reverse
    f { q with pc := nx % 65536, loops := lv.reverse, state := .running, wait := none, prest := none })

/-! Fabric accesses (R60). -/

/-- The offset of the result window that an address names for the sequencer of panel `p` (R284). -/
def windowOffset (p a size : Nat) : Option Nat :=
  match targetOf a size with
  | some (.ctl d u off) => if d = p ∧ u = 1 ∧ winBase ≤ off then some (off - winBase) else none
  | _ => none

/-- Sends the request of a sequencer. -/
def sendSeqReq (p : Nat) (q : SeqReq) (s : State) : State :=
  let (b, e) := expectOf s q.addr
  let q := { q with phase := .sent, block := b, epoch := e }
  let s := s.onSeq p (fun r => { r with wait := some (.fabric q) })
  launchPacket (mkRequest s (.seq p) (if q.wr.isSome then .write else .read) q.addr q.size 0 0 0 e (q.wr.getD []) []) s

/-- A fabric access ends with a status: an LDF's data go to its register, p7 says whether it was served
(R60). -/
def seqFabDone (p : Nat) (q : SeqReq) (st : Nat) (data : List Byte) (s : State) : State :=
  if q.wr.isSome then seqResume p (fun r => { r with regs := r.regs.setP 7 (decide (st = 0)) }) s
  else
    let served := decide (st = 0) || decide (st = 0x0E) || decide (st = 0x09)
    let (v, s) := if served then (leNat data, s) else freshNat s
    seqResume p (fun r => { r with regs := (r.regs.setS q.dst (BitVec.ofNat 64 (v % 2 ^ (8 * q.size)))).setP 7 (decide (st = 0)) }) s

/-- LDF and STF (R60): rows 1 and 2 of R32 are decided at once. -/
def seqFab (p : Nat) (i : CQ) (st : Bool) (s : State) : State :=
  let r := (s.seq p).regs
  let a := (r.getA i.a.toNat).toNat
  let sz := 2 ^ i.size.toNat
  let wr : Option (List Byte) := if st then some (leBytes sz (r.getS i.s.toNat).toNat) else none
  let q : SeqReq :=
    { addr := a, size := sz, wr := wr, dst := i.s.toNat, block := 0, epoch := 0, refusals := 0, phase := .sent, status := 0, data := [] }
  if i.z ≠ 0 then seqFault p .illegal s
  else
    let s := seqWait p (.fabric q) s
    let bad := chk12 s p true st a sz
    if bad ≠ 0 then seqFabDone p q bad [] s
    else if st && (windowOffset p a sz).isSome then s
    else sendSeqReq p q s

/-- A reply reaches a sequencer (R60, R192). -/
def seqReply (k : Packet) (p : Nat) (s : State) : State :=
  let s := dropPacket k.pid s
  match (s.seq p).wait with
  | some (.fabric q) =>
    if k.epoch ≠ q.epoch ∨ (targetOf k.dst 1).map Target.block ≠ (targetOf q.addr 1).map Target.block ∨ q.phase ≠ .sent then s.onPanel p (fun P => { P with hub := { P.hub with staleEpoch := inc 12 P.hub.staleEpoch } })
    else if k.status = 0x0D then
      let m := q.refusals + 1
      s.onSeq p (fun r => { r with wait := some (.fabric { q with refusals := m, phase := .retry ((s.panel p).cyc + backoff m) }) })
    else
      s.onSeq p (fun r => { r with wait := some (.fabric { q with phase := .replied, status := k.status, data := k.data }) })
  | _ => s.onPanel p (fun P => { P with hub := { P.hub with staleEpoch := inc 12 P.hub.staleEpoch } })

/-- PUBLISH_WORD_WRITE (R284): the STF of a waiting sequencer reaches the result window. -/
def publishNow (p x : Nat) (data : List Byte) (s : State) : State :=
  match (s.seq p).wait with
  | some (.fabric q) =>
    if windowOffset p q.addr q.size = some x ∧ q.wr = some data ∧ q.phase = .sent then
      match partOf s p with
      | none => seqFabDone p q 0x0F [] s
      | some k =>
        if x < 0x40 then seqFabDone p q 0x0F [] s
        else
          let s := { s with mem := memPutBytes s.mem (windowKey k x) data }
          let s := if overlap x data.length 0x40 8 then s.onPart k (fun K => { K with partial_ := true }) else s
          seqFabDone p q 0 [] s
    else s
  | _ => s

/-! Core sets (R62). -/

/-- The cores of a core set of panel `p`; none where the set is malformed. -/
def coreSet (p : Nat) (v : W64) : Option (List Nat) :=
  let (x0, y0, x1, y1) := (fld v.toNat 7 0, fld v.toNat 15 8, fld v.toNat 23 16, fld v.toNat 31 24)
  if 22 < x1 ∨ 23 < y1 ∨ x1 < x0 ∨ y1 < y0 then none
  else some ((span y0 (y1 + 1 - y0)).flatMap (fun y => (span x0 (x1 + 1 - x0)).map (fun x => coreIn p x y)))

/-- An instruction on a core set: fields, then the set, then its effect. -/
def seqSet (p : Nat) (legal : Bool) (a : BitVec 5) (f : List Nat → State → State) (s : State) : State :=
  if !legal then seqFault p .illegal s
  else match coreSet p ((s.seq p).regs.getS a.toNat) with
    | none => seqFault p .addr s
    | some l => f l s

/-- The selections under which a context id was last launched by the host (R52); zeros where it never was (log entry
96). -/
def selOf (c : Core) (k : Nat) : Sel := Tab.get { mode := 0, region := 0 } c.sels k

/-- Launches a context on cores; whether every one accepted (R62). -/
def launchSet (k entry : Nat) (args : List W64) : List Nat → State → Bool × State
  | [], s => (true, s)
  | n :: t, s =>
    match launchOn n k entry args (selOf (s.core n) k) s with
    | some s => launchSet k entry args t s
    | none => let (_, s) := launchSet k entry args t s; (false, s)

/-! The instructions. -/

/-- LAUNCH, at bundle s_b modulo 2^20 (log entry 97). -/
def seqLaunch (p : Nat) (i : CR) (s : State) : State :=
  let r := (s.seq p).regs
  let args := (List.range 4).map (fun j => r.getS (j + 1))
  seqSet p (pReg i.d && decide (i.f.toNat < 4)) i.a (fun l s =>
    let (ok, s) := launchSet i.f.toNat ((r.getS i.b.toNat).toNat % 2 ^ 20) args l s
    seqGo p (fun q => { q with regs := q.regs.setP i.d.toNat ok }) s) s

/-- CSWITCH. -/
def seqCswitch (p : Nat) (i : CR) (s : State) : State :=
  seqSet p (i.d == 0 && i.b == 0 && decide (i.f.toNat < 4)) i.a (fun l s =>
    seqGo p id (l.foldl (fun s n => if isDead s n then s else markSwitch n i.f.toNat s) s)) s

/-- CSTOP. -/
def seqCstop (p : Nat) (i : CR) (s : State) : State :=
  seqSet p (i.d == 0 && i.b == 0 && decide (i.f.toNat < 4)) i.a (fun l s =>
    seqGo p id (l.foldl (fun s n => if isDead s n then s else stopCtx n i.f.toNat s) s)) s

/-- XWAKE. -/
def seqXwake (p : Nat) (i : CR) (s : State) : State :=
  seqSet p (i.d == 0 && i.b == 0 && i.f == 0) i.a (fun l s =>
    seqGo p id (l.foldl (fun s n => if isDead s n then s else s.onCore n (fun c => { c with xwake := true })) s)) s

/-- A flag of the sequencer itself. -/
def seqFlag (p : Nat) (i : CR) (set : Bool) (s : State) : State :=
  if i.d == 0 && i.a == 0 && i.b == 0 && decide (i.f.toNat < 64) then
    let m : W64 := 1#64 <<< i.f.toNat
    seqGo p (fun q => { q with flags := if set then q.flags ||| m else q.flags &&& ~~~m }) s
  else seqFault p .illegal s

/-- FWAIT. -/
def seqFwait (p : Nat) (i : CR) (s : State) : State :=
  if i.d == 0 && i.a == 0 && i.b == 0 && decide (i.f.toNat < 64) then seqWait p (.flag i.f.toNat) s else seqFault p .illegal s

/-- BARRIER. -/
def seqBarrier (p : Nat) (i : CR) (s : State) : State :=
  let r := (s.seq p).regs
  if i.d == 0 && decide (i.f.toNat < 16) then
    seqWait p (.barrier i.f.toNat (r.getS i.b.toNat).toNat ((r.getS i.a.toNat).toNat % 64)) s
  else seqFault p .illegal s

/-- PREST (R64). -/
def seqPrest (p : Nat) (i : CE) (s : State) : State :=
  if i.z == 0 && eventOk 2 i.kind.toNat i.arg.toNat then
    let h := ((s.seq p).regs.getS i.s.toNat).toNat % 2 ^ 32
    s.onSeq p (fun q =>
      { q with
        state := .prest, issue := q.issue + 1
        prest := some { kind := i.kind.toNat, arg := i.arg.toNat, horizon := h, since := none, saveOk := i.saveOk == 1, pd := i.pd.toNat, resting := false } })
  else seqFault p .illegal s

/-- STEP_BEGIN (R63, R250). -/
def seqStepBegin (p : Nat) (i : CR) (s : State) : State :=
  if !(i.b == 0 && i.f == 0) then seqFault p .illegal s
  else if (s.seq p).stepOpen then seqFault p .step s
  else
    let n := ((s.seq p).regs.getS i.a.toNat).toNat % 2 ^ 32
    let s := seqWait p (.stepBegin i.d.toNat) s
    match partOf s p with
    | some k => s.onJob k (fun J => { J with begun := Tab.set J.begun p n })
    | none => s

/-- STEP_END (R63). -/
def seqStepEnd (p : Nat) (i : CR) (s : State) : State :=
  if pReg i.d && i.a == 0 && i.b == 0 && i.f == 0 then seqWait p (.stepEnd i.d.toNat) s else seqFault p .illegal s

/-- The watchdog counts from its period again (R65). -/
def armWd (now : Nat) (run : Bool) (q : Seq) : Seq :=
  { q with wdLeft := q.period.toNat, wdRun := run, wdFrom := now }

/-- WDOG (R65). -/
def seqWdog (p : Nat) (i : CR) (s : State) : State :=
  if i.d == 0 && i.b == 0 && i.f == 0 then
    let v := ((s.seq p).regs.getS i.a.toNat).toNat % 2 ^ 32
    let run := !inHold s p
    seqGo p (fun q => armWd s.now run { q with period := if v = 0 then q.period else BitVec.ofNat 32 v }) s
  else seqFault p .illegal s

/-- CWAIT. -/
def seqCwait (p : Nat) (i : CR) (s : State) : State :=
  seqSet p (pReg i.d && i.b == 0 && decide (i.f.toNat < 4)) i.a (fun _ s =>
    seqWait p (.cwait i.f.toNat ((s.seq p).regs.getS i.a.toNat) i.d.toNat) s) s

/-- What MFC reads in a sequencer (R40). -/
def seqMfcVal (s : State) (p f : Nat) : W64 :=
  let q := s.seq p
  match f with
  | 0 => BitVec.ofNat 64 q.cycle
  | 1 => BitVec.ofNat 64 q.issue
  | 2 => BitVec.ofNat 64 (panelTick s p)
  | 3 => BitVec.ofNat 64 p
  | 4 | 9 => 0
  | 10 => q.scratch
  | k => BitVec.ofNat 64 (loopCount q.loops (k - 5))

/-- MFC. -/
def seqMfc (p : Nat) (i : CR) (s : State) : State :=
  if i.a == 0 && i.b == 0 && decide (i.f.toNat < 11) then
    let v := seqMfcVal s p i.f.toNat
    seqGo p (fun q => { q with regs := q.regs.setS i.d.toNat v }) s
  else seqFault p .illegal s

/-- MTC. -/
def seqMtc (p : Nat) (i : CR) (s : State) : State :=
  if i.d == 0 && i.b == 0 && i.f == 10 then
    let v := (s.seq p).regs.getS i.a.toNat
    seqGo p (fun q => { q with scratch := v }) s
  else seqFault p .illegal s

/-- One word of a sequencer (R39, R60, R62). -/
def seqExec (p : Nat) (i : CIns) (s : State) : State :=
  let q := s.seq p
  match i with
  | .nop _ => seqGo p id s
  | .add i => seqAlu (aluAdd i) p s
  | .sub i => seqAlu (aluSub i) p s
  | .andS i => seqAlu (aluAnd i) p s
  | .orS i => seqAlu (aluOr i) p s
  | .xorS i => seqAlu (aluXor i) p s
  | .shl i => seqAlu (aluShl i) p s
  | .shr i => seqAlu (aluShr i) p s
  | .sra i => seqAlu (aluSra i) p s
  | .minS i => seqAlu (aluMin i) p s
  | .maxS i => seqAlu (aluMax i) p s
  | .mul i => seqAlu (aluMul i) p s
  | .mulh i => seqAlu (aluMulh i) p s
  | .cmp i => seqAlu (aluCmp i) p s
  | .sel i => seqAlu (aluSel i) p s
  | .addi i => seqAlu (aluAddi i) p s
  | .andi i => seqAlu (aluAndi i) p s
  | .lui i => seqAlu (aluLui i) p s
  | .ori i => seqAlu (aluOri i) p s
  | .amov i => seqAlu (aluAmov i) p s
  | .aget i => seqAlu (aluAget i) p s
  | .aadd i => seqAlu (aluAadd i) p s
  | .aaddi i => seqAlu (aluAaddi i) p s
  | .aform i => seqAlu (aluAform i) p s
  | .pop i => seqAlu (aluPop i) p s
  | .ld i => seqMem p i false s
  | .st i => seqMem p i true s
  | .ldf i => seqFab p i false s
  | .stf i => seqFab p i true s
  | .br i => seqBranch p true (if q.regs.getP i.p.toNat == (i.sense == 1) then some (q.pc + i.off.toInt) else none) s
  | .jmp i => seqBranch p (i.sense == 0 && i.p == 0) (some (q.pc + i.off.toInt)) s
  | .jr i => seqBranch p (i.d == 0 && i.b == 0 && i.f == 0) (some ((q.regs.getS i.a.toNat).toNat % 2 ^ 20 : Nat)) s
  | .loop i => seqLoop p (i.z == 0) ((q.regs.getS i.s.toNat).toNat % 2 ^ 32) (i.body.toNat + 1) s
  | .loopi i => seqLoop p true (i.count.toNat + 1) (i.body.toNat + 1) s
  | .sig i => seqFlag p i true s
  | .mfc i => seqMfc p i s
  | .mtc i => seqMtc p i s
  | .launch i => seqLaunch p i s
  | .cswitch i => seqCswitch p i s
  | .cstop i => seqCstop p i s
  | .xwake i => seqXwake p i s
  | .fset i => seqFlag p i true s
  | .fclr i => seqFlag p i false s
  | .fwait i => seqFwait p i s
  | .barrier i => seqBarrier p i s
  | .prest i => seqPrest p i s
  | .stepBegin i => seqStepBegin p i s
  | .stepEnd i => seqStepEnd p i s
  | .wdog i => seqWdog p i s
  | .cwait i => seqCwait p i s
  | .kmov _ | .kget _ | .ktail _ | .kop _ | .srd _ | .swr _ | .wait _ | .rest _ | .yield _ | .endC _ | .arrive _ =>
    seqFault p .illegal s

/-- A word that the sequencer of a panel executes, if it executes. -/
def seqStep (p : Nat) (i : CIns) (s : State) : State := if seqReady s p then seqExec p i s else s

/-- An undefined word (R39, R60). -/
def seqUndefined (p : Nat) (s : State) : State := if seqReady s p then seqFault p .illegal s else s

/-! Waits (R60, R62). -/

/-- The event of a PREST has occurred (R50, R64). -/
def prestEvent (s : State) (p : Nat) (r : PrestRec) : Bool :=
  match r.kind with
  | 1 => (s.seq p).flags.getLsbD r.arg
  | 6 => (s.seq p).release
  | _ => match r.since with | some t => decide (t + r.horizon ≤ s.now) | none => false

/-- PREST completes; a wait of kind 6 consumes the pending release (R50). -/
def prestDone (p : Nat) (r : PrestRec) (s : State) : State :=
  seqResume p (fun q => { q with release := if r.kind = 6 then false else q.release }) s

/-- SEQ_WAIT_END: a wait ends once its condition holds. -/
def seqWaitEnd (p : Nat) (s : State) : State :=
  let q := s.seq p
  if !panelRuns (s.panel p) || hangHolds s p then s
  else
    match q.state, q.wait, q.prest with
    | .waiting, some (.flag f), _ => if q.flags.getLsbD f then seqResume p id s else s
    | .waiting, some (.barrier c v f), _ =>
      if v ≤ Tab.get 0 q.bar c then
        seqResume p (fun q => { q with bar := Tab.put 0 q.bar c (Tab.get 0 q.bar c - v), flags := q.flags ||| (1#64 <<< f) }) s
      else s
    | .waiting, some (.cwait k set pd), _ =>
      let st := fun (n : Nat) => (s.ctxAt n k).state
      let l := ((coreSet p set).getD []).filter (fun n => !isDead s n)
      if l.all (fun n => decide (st n = .empty) || decide (st n = .faulted)) then
        seqResume p (fun q => { q with regs := q.regs.setP pd (l.all (fun n => decide (st n = .empty))) }) s
      else s
    | .waiting, some (.fabric r), _ =>
      (match r.phase with
       | .replied => seqFabDone p r r.status r.data s
       | .retry t => if t ≤ (s.panel p).cyc then sendSeqReq p r s else s
       | .sent => s)
    | .prest, _, some r => if r.since.isSome && !r.resting && prestEvent s p r then prestDone p r s else s
    | _, _, _ => s

/-- The host starts a sequencer at an entry word (R60, R65). -/
def startSeq (p entry : Nat) (s : State) : State :=
  let run := !inHold s p
  s.onSeq p (fun q =>
    armWd s.now run
      { q with
        state := .running, fault := none, pc := entry % 65536, regs := Regs.init, loops := [], scratch := 0, cycle := 0, issue := 0
        release := false, wait := none, prest := none })

/-- A sequencer halts at a host command. -/
def haltSeq (p : Nat) (s : State) : State :=
  unarrive p (s.onSeq p (fun q => { (q.pauseWd s.now) with state := .halted, wait := none, prest := none }))

end Sys2Proof.Machine
end

