-- ==== Sys2Proof/Machine/Rest.lean ====
section
/-! DEFINITION. Panel cycles, rest and wake of cores and panels, inrush, the tension governor and its
sensors (chapter 14, R51, R64, R73, R106, R171, R211). -/

namespace Sys2Proof.Machine

open Sys2Proof

/-! One panel cycle (R40, R73, R106). -/

/-- What a panel cycle does to a core: CYCLE, and the generators in free-running mode; a halted context stands in its
saved image (R375). -/
def cycleCore (c : Core) : Core :=
  if c.power = .fenced then c
  else
    let x := c.ctx
    let adv : Tab W64 → Tab W64 := fun g => g.map (fun e => (e.1, xsAdvance e.2))
    let cols := fun (A : Arr) => if x.counter then A else { A with gens := adv A.gens }
    let runs := c.active && (decide (x.state = .running) || decide (x.state = .waiting)) && decide (c.power ≠ .doze) && !c.isHalted
    let c := { c with m0 := cols c.m0, m1 := cols c.m1 }
    if runs then
      { c with
        ctxs := Tab.set c.ctxs c.cur
          { x with cycle := (x.cycle + 1) % 2 ^ 64, gens := if x.counter then x.gens else adv x.gens } }
    else c

/-- The rest of a panel cycle of core `n` (R51, R55, R87, R88, R124, R125): a core that issues no more passes an issue
cycle, its drain units go on, and its generators and CYCLE advance. -/
def coreCycle (n : Nat) (s : State) : State :=
  if (s.core n).power = .fenced ∨ (s.core n).inReset ∨ isDead s n then s.onCore n cycleCore
  else haltTry n ((drainTick n 1 (drainTick n 0 (drainCycle n s))).onCore n cycleCore)

/-- LANE_GENERATOR_ADVANCE: one cycle of an ACTIVE panel comes to its end. -/
def panelCycle (p : Nat) (s : State) : State :=
  let P := s.panel p
  if P.power ≠ .active ∨ P.lost ∨ P.shorted then s
  else
    let s := (coresHeld s p).foldl (fun s n => coreCycle n s) s
    s.onPanel p (fun P =>
      { P with cyc := P.cyc + 1, seq := if P.seq.busy then { P.seq with cycle := (P.seq.cycle + 1) % 2 ^ 64 } else P.seq })

/-! Rest of a core (R51, R302 to R304, R306). -/

/-- The ceiling of the partition that a panel belongs to (R300). -/
def ceilingOf (s : State) (p : Nat) : Nat := match partOf s p with | some k => (s.part k).ceiling | none => 0

/-- A core has a stream transfer in progress (R171). -/
def streaming (c : Core) : Bool :=
  !c.outst.isEmpty || c.ctxs.any (fun e => e.2.resident && e.2.lists.any (fun l => l.2.live))

/-- The wake event of a REST has occurred (R51). -/
def restEvent (n : Nat) (r : RestRec) (s : State) : Bool :=
  if r.kind = 0 then decide (r.since + r.horizon ≤ s.now) else eventNow n r.kind r.arg s

/-- The rest ends: the core is in RUN and its context goes on. -/
def restOver (n : Nat) (r : RestRec) (s : State) : State :=
  let s := consumeEvent n r.kind s
  let s := s.onCur n (fun x => { x with state := .running })
  s.onCore n (fun c => { c with rest := none, power := .run })

/-- A core may go on with its REST: its panel runs, it is neither halted, fenced nor in reset. -/
def restRuns (s : State) (n : Nat) : Bool :=
  panelRuns (s.panel (panelOf n)) && !(s.core n).inReset && (s.core n).halted.isNone && !isDead s n

/-- REST_STATE_ENTRY: once every earlier result has retired, the core chooses IDLE or DOZE and enters it
(R51, R302). The entry takes at most 50 ticks. -/
def restEntry (n : Nat) (s : State) : State :=
  match (s.core n).rest with
  | none => s
  | some r =>
    if r.entered || !restRuns s n || !(s.core n).still then s
    else if restEvent n r s then restOver n r s
    else
      let p := panelOf n
      let c := s.core n
      let free := c.m0.queue.isEmpty && c.m1.queue.isEmpty && !streaming c
      let doze := decide (1 ≤ ceilingOf s p) && free && decide (wcost s p 1 + beven p 1 ≤ r.horizon)
      let (e, s) := freshNat s
      s.onCore n (fun c =>
        { c with
          power := if doze then .doze else .idle
          rest := some { r with entered := true, entryAt := s.now, entryTicks := e % 51 } })

/-- A measured round trip from state `j` of panel `p` (R304): the learned cost follows it where `upd` says so, and one above
the horizon is counted. -/
def learn (p j m : Nat) (horizon : Option Nat) (upd : Bool) (s : State) : State :=
  let w := wcost s p j
  let w' := if w ≤ m then min m (2 ^ 20 - 1) else w - (w - m) / 8
  s.onPanel p (fun P =>
    { P with
      costs := if upd then Tab.set P.costs j w' else P.costs
      overrun := match horizon with | some h => if h < m then inc 8 P.overrun else P.overrun | none => P.overrun })

/-- A core whose wake was deferred still waits for it. -/
def stillDeferred (s : State) (n : Nat) : Bool := match (s.core n).rest with | some r => r.deferred | none => false

/-- CORE_WAKE (R303 to R306): a core leaves DOZE within 200 ticks, at most 184 of a panel at once; further ones are
deferred and go in the order they asked. One that the device forces out of DOZE waits for its event in IDLE. A wake that is
forced, or whose event came before the entry was complete, is not learned. -/
def coreWake (n : Nat) (s : State) : State :=
  let p := panelOf n
  match (s.core n).rest with
  | none => s
  | some r =>
    let event := restEvent n r s
    if !r.entered || !restRuns s n || !(event || r.forced) then s
    else if (s.core n).power ≠ .doze then (if event then restOver n r s else s)
    else
      let going := ((s.panel p).leaving).filter (fun t => decide (s.now < t))
      let waits := (s.panel p).coreWaits.filter (stillDeferred s)
      if 184 ≤ going.length ∨ (waits ≠ [] ∧ waits.head? ≠ some n) then
        if waits.contains n then s
        else
          let s := s.onPanel p (fun P => { P with coreDeferred := inc 8 P.coreDeferred, leaving := going, coreWaits := waits ++ [n] })
          s.onCore n (fun c => { c with rest := some { r with deferred := true } })
      else
        let (f, s) := freshNat s
        let d := f % 201
        let s := s.onPanel p (fun P => { P with leaving := going ++ [s.now + d], coreWaits := waits.drop 1 })
        let known := event && !r.forced && decide (r.entryAt + r.entryTicks ≤ s.now)
        let s := learn p 1 (r.entryTicks + d) (some r.horizon) known s
        if event then restOver n r s
        else s.onCore n (fun c => { c with power := .idle, rest := some { r with forced := false, deferred := false } })

/-! Rest of a panel (R64, R171, R211, R302, R308). -/

/-- A core lets PREST go on (R64): it rests, and no debug halt is asked of it (R376), or no context of it is RUNNING or
WAITING. -/
def coreAtRest (s : State) (n : Nat) : Bool :=
  let c := s.core n
  isDead s n || (c.halted.isNone && (match c.rest with | some r => r.entered && !haltAsked s n | none => !c.inUse))

/-- Suspends the lists of every context of a core (R171). -/
def suspendCore (n : Nat) (s : State) : State := (List.range 4).foldl (fun s k => suspendLists n k s) s

/-- The contexts of a core are in their save areas and its core rail is off (R56, R64, R90, R298). -/
def sleepCore (n : Nat) (s : State) : State :=
  let c := s.core n
  let k := c.cur
  let s := if c.active then saveArea n k ((writeGroups n k s).onCtx n k loseTiles) else s
  s.onCore n clearArrays

/-- A panel enters NAP or SLEEP (R64, R65, R171, R211). -/
def enterRest (p : Nat) (st : PPower) (s : State) : State :=
  let held := (coresHeld s p).filter (fun n => !isDead s n)
  let s := held.foldl (fun s n => suspendCore n s) s
  let s := if st = .sleep then held.foldl (fun s n => sleepCore n s) s else s
  s.onPanel p (fun P =>
    { P with
      power := st, seq := P.seq.pauseWd s.now, firstUse := P.firstUse.map (fun t => s.now - t)
      stack := { P.stack with power := if st = .sleep then .selfRefresh else .powerDown } })

/-- The panel state that PREST chooses (R302). -/
def restChoice (s : State) (p : Nat) (r : PrestRec) : PPower :=
  let c := ceilingOf s p
  if c = 3 ∧ r.saveOk ∧ wcost s p 3 + beven p 3 ≤ r.horizon then .sleep
  else if 2 ≤ c ∧ wcost s p 2 + beven p 2 ≤ r.horizon then .nap
  else .active

/-- PANEL_REST_ENTRY: the wait condition of PREST holds and the panel chooses (R64, R302). -/
def panelRestEntry (p : Nat) (s : State) : State :=
  let q := s.seq p
  match q.state, q.prest with
  | .prest, some r =>
    let held := coresHeld s p
    if r.since.isSome || !panelRuns (s.panel p) || hangHolds s p || !held.all (coreAtRest s) then s
    else
      let now := { r with since := some s.now }
      if prestEvent s p now then prestDone p r s
      else
        let ch := restChoice s p r
        let calm := held.all (fun n => (s.core n).outst.isEmpty)
        let drained := held.all (fun n => (s.core n).m0.queue.isEmpty && (s.core n).m1.queue.isEmpty)
        if ch = .active then s.onSeq p (fun q => { q with prest := some now })
        else if !calm || (decide (ch = .sleep) && !drained) then s
        else enterRest p ch (s.onSeq p (fun q => { q with prest := some { now with resting := true } }))
  | _, _ => s

/-- A context that rested through SLEEP comes back from its save area (R54, R64, R145). -/
def restoreRest (n : Nat) (s : State) : State :=
  let c := s.core n
  if c.active then restoreArea n c.cur c.ctx.state s else s

/-! Inrush and wake (R303 to R306). -/

/-- The units in use (R306, R315). -/
def unitsInUse (s : State) : Nat := ((s.power.inrush.filter (fun i => decide (s.now < i.until_))).map (·.units)).sum

/-- The ticks for which a wake holds its units (R306). -/
def wakeTicks : PPower → Nat
  | .off => 600000 | .sleep => 40000 | .nap => 2500 | .active => 0

/-- Takes units for a wake of a panel; none where that would take them beyond 16 (R306). -/
def takeUnits (p : Nat) (s : State) : Option State :=
  let P := s.panel p
  let u := wakeUnits P.power
  if 16 < unitsInUse s + u then none
  else
    some (s.onPower (fun W =>
      { W with
        inrush := W.inrush.filter (fun i => decide (s.now < i.until_)) ++ [{ panel := p, units := u, until_ := s.now + wakeTicks P.power }]
        deferred := W.deferred.filter (· != p) }))

/-- The first deferred wake has its units and is to start before any later one (R306). -/
def firstFits (s : State) : Bool :=
  match s.power.deferred with
  | [] => false
  | q :: _ => decide (unitsInUse s + wakeUnits (s.panel q).power ≤ 16)

/-- Takes units for a wake that is asked for now: none where it must wait for units, or behind a deferred wake that goes
first (R306). -/
def takeNew (p : Nat) (s : State) : Option State := if firstFits s then none else takeUnits p s

/-- A wake is deferred (R306). -/
def deferWake (p : Nat) (forced : Bool) (s : State) : State :=
  let s := s.onPanel p (fun P =>
    { P with deferred := inc 8 P.deferred, wake := some { units := wakeUnits P.power, deferred := true, forced := forced, horizon := (P.wake.bind (·.horizon)).or P.restHorizon } })
  s.onPower (fun W => { W with inrushDeferred := inc 16 W.inrushDeferred, deferred := W.deferred ++ [p] })

/-- The panel is ACTIVE again (R65, R171, R211, R303, R304). A rest by PREST ends with its event; a wake
that the device forces leaves the sequencer waiting for it. -/
def wakeDone (p : Nat) (forced : Bool) (s : State) : State :=
  let P := s.panel p
  let from_ := P.power
  let (f, s) := freshNat s
  let m := f % 2 ^ 20
  let hor := (P.wake.bind (·.horizon)).or P.restHorizon
  let s := learn p (if from_ = .nap then 2 else 3) m hor (!forced) s
  let run := P.seq.busy && !inHold s p
  let pw := wakePower s p
  let s := s.onPanel p (fun P =>
    { P with
      power := .active, wake := none, wakes := inc 16 P.wakes, hang := P.hang.fresh, probed := 0, missed := [], firstUse := P.firstUse.map (fun t => s.now - t)
      seq := { (P.seq.resumeWd s.now run) with prest := P.seq.prest.map (fun r => { r with resting := false }) }
      stack := { P.stack with power := pw, lastUse := s.now } })
  let held := (coresHeld s p).filter (fun n => !isDead s n)
  let s := if from_ = .sleep then held.foldl (fun s n => restoreRest n s) s
    else held.foldl (fun s n => reloadLists n (s.core n).cur s) s
  let s := obeyBound p s
  match (s.seq p).state, (s.seq p).prest with
  | .prest, some r => if !forced && prestEvent s p r then prestDone p r s else s
  | _, _ => s

/-- The event of a panel that rests under PREST has occurred (R303). -/
def restCalls (s : State) (p : Nat) : Bool :=
  match (s.seq p).state, (s.seq p).prest with
  | .prest, some r => r.resting && prestEvent s p r
  | _, _ => false

/-- PANEL_WAKE: a resting panel wakes on its event, or because a command or the device asks for it; a wake
beyond the inrush allowance is deferred (R303, R305, R306). -/
def panelWake (p : Nat) (s : State) : State :=
  let P := s.panel p
  let rests := (decide (P.power = .nap) || decide (P.power = .sleep)) && !P.lost && !P.shorted
  match P.wake with
  | some w =>
    if !rests || w.deferred then s
    else match takeNew p s with
      | some s => wakeDone p w.forced s
      | none => deferWake p w.forced s
  | none =>
    if rests && restCalls s p then
      match takeNew p s with
      | some s => wakeDone p false s
      | none => deferWake p false s
    else s

/-- INRUSH_DEFERRED_WAKE: the first deferred wake starts once units are free (R306). A panel that rises from
OFF goes on with its bring-up. -/
def inrushWake (s : State) : State :=
  match s.power.deferred with
  | [] => s
  | p :: _ =>
    match takeUnits p s with
    | none => s
    | some s =>
      let P := s.panel p
      if P.power = .off then s.onPanel p (fun P => { P with wake := P.wake.map (fun w => { w with deferred := false }) })
      else wakeDone p (match P.wake with | some w => w.forced | none => false) s

/-! Sensors and governor (R307 to R311, R315). -/

/-- SENSOR_SAMPLE: a panel's sensors and its input power, unless it is OFF, and once in 1,000 ticks the module's input power.
Averages are over 100 samples (1 ms) and over 1,000 such averages (1 s). -/
def sensorSample (p : Nat) (junction : List Nat) (stack watts input : Nat) (s : State) : State :=
  let keep := fun (l : List Nat) (x n : Nat) => (l ++ [x]).drop (l.length + 1 - n)
  let s := if (s.panel p).power = .off ∨ (s.panel p).lost then s
    else onTension p (fun T =>
      let recent := keep T.watts watts 100
      let full := decide (100 ≤ T.wsamples + 1)
      { T with
        junction := junction.take 16, stackTemp := stack, watts := recent, wsamples := if full then 0 else T.wsamples + 1
        wsecs := if full then keep T.wsecs (average recent) 1000 else T.wsecs }) s
  let due : Bool := match s.power.inAt with | none => true | some t => decide (t + 1000 ≤ s.now)
  if !due then s
  else
    s.onPower (fun W =>
      let recent := keep W.recent input 100
      let ms := average recent
      let full := decide (100 ≤ W.samples + 1)
      let secs := if full then keep W.secs ms 1000 else W.secs
      { W with
        recent := recent, in1ms := ms, peak := max W.peak ms, inAt := some s.now
        samples := if full then 0 else W.samples + 1
        secs := secs, in1s := if secs.isEmpty then ms else average secs })

/-- The step a panel runs at or changes to (R297). -/
def stepOf (T : Tension) : Nat := T.target.getD T.step

/-- Starts a step change of a panel (R297). -/
def changeStep (p n last : Nat) (s : State) : State :=
  onTension p (fun T =>
    { T with
      target := some n, last := if T.step < n then last else T.last, slowed := if T.step < n then inc 8 T.slowed else T.slowed }) s

/-- The hottest, and the coolest, of some panels; the lowest index on a tie (R308). -/
def hottestOf (s : State) (l : List Nat) : Option Nat :=
  l.find? (fun p => l.all (fun q => decide ((s.panel q).tension.temp ≤ (s.panel p).tension.temp)))
def coolestOf (s : State) (l : List Nat) : Option Nat :=
  l.find? (fun p => l.all (fun q => decide ((s.panel p).tension.temp ≤ (s.panel q).tension.temp)))

/-- The choice of an evaluation (R308): the panel, its new step and the cause of a slowing. A panel whose step change is in
progress is passed over: changes go one step at a time (R297; log 147). -/
def governorChoice (s : State) : Option (Nat × Nat × Nat) :=
  let act := allPanels.filter (fun p =>
    decide ((s.panel p).power = .active) && !(s.panel p).lost && (s.panel p).tension.target.isNone)
  let st := fun p => (s.panel p).tension.step
  let temp := fun p => (s.panel p).tension.temp
  let hot := act.filter (fun p => decide (95 ≤ temp p) && decide (st p < 5))
  let slow := act.filter (fun p => decide (st p < 5))
  let cand := act.filter (fun p =>
    decide (tensionBound (s.panel p) < st p) && decide (temp p ≤ 90) && decide (s.power.in1ms + 500 ≤ s.power.cap))
  if !hot.isEmpty then (hottestOf s hot).map (fun p => (p, st p + 1, 1))
  else if s.power.cap < s.power.in1ms then (hottestOf s slow).map (fun p => (p, st p + 1, 2))
  else (coolestOf s cand).map (fun p => (p, st p - 1, 0))

/-- GOVERNOR_EVAL: once in 100,000 ticks (R308, R309). -/
def governorEval (s : State) : State :=
  if s.now < s.power.evalAt + 100000 then s
  else
    let act := allPanels.filter (fun p => decide ((s.panel p).power = .active) && !(s.panel p).lost)
    let unmet := act.all (fun p => decide (stepOf (s.panel p).tension = 5)) && decide (s.power.cap < s.power.in1ms)
    let s' := match governorChoice s with | some (p, n, c) => changeStep p n c s | none => s
    let s' := s'.onPower (fun W => { W with evalAt := s.now, unmet := if unmet then W.unmet + 1 else 0 })
    if 100 ≤ s'.power.unmet then
      logErr 1 11 0xFF 0 s'.power.cap s'.power.in1ms
        (s'.onPower (fun W => { W with unmet := 0, capUnmet := inc 16 W.capUnmet }))
    else s'

/-- CLOCK_STEP_CHANGE_DONE (R297). -/
def stepChanged (p : Nat) (s : State) : State :=
  match (s.panel p).tension.target with
  | none => s
  | some n => obeyBound p (onTension p (fun T => { T with step := n, target := none }) s)

/-- FIRST_USE_HOLD_END (R308): 10,000,000 ticks of ACTIVE after a power-up from OFF. -/
def firstUseEnd (p : Nat) (s : State) : State :=
  match (s.panel p).power, (s.panel p).firstUse with
  | .active, some t => if t + 10000000 ≤ s.now then s.onPanel p (fun P => { P with firstUse := none }) else s
  | _, _ => s

/-- DROOP (R310): counted; the step does not change. -/
def droopNow (p : Nat) (s : State) : State :=
  if (s.panel p).power = .off ∨ (s.panel p).lost then s else onTension p (fun T => { T with droop := inc 8 T.droop }) s

/-- PWR_CAP takes a value, clamped (R309). -/
def writeCap (v : Nat) (s : State) : State := s.onPower (fun W => { W with cap := max 16000 (min v 42000) })

/-- THERM_TRIP_RELEASE (R338): every sensor reads below 95 °C. -/
def tripRelease (s : State) : State :=
  if allPanels.all (fun p => decide ((s.panel p).power = .off) || decide ((s.panel p).tension.temp < 95)) then
    s.onPower (fun W => { W with tripPin := false })
  else s

/-! A panel goes OFF (R299, R301, R211). -/

/-- The state of a panel that is OFF: scratchpads, sequencer memory and stack are lost; what the always-on
rail holds stays. -/
def panelOff (p : Nat) (s : State) : State :=
  let s := (coresHeld s p).foldl (fun s n => (zeroizeCore n s).onCore n (fun _ => Core.init)) (dropSpares p true (unarrive p s))
  let s := (stackLost p s).onPower (fun W => { W with deferred := W.deferred.filter (· != p) })
  let s := { s with
    mem := Tab.delRange s.mem (seqKey p 0) 0x40000
    reds := s.reds.filter (fun r => panelOf r.router != p) }
  let s := s.onPanel p (fun P =>
    { P with
      power := .off, offReq := false, wake := none, brought := false, bring := .none, fresh := []
      firstUse := none, leaving := [], coreWaits := [], hub := { P.hub with waiting := [], split := Split.basic, next := none }
      darn := { P.darn with phase := .idle, queue := [], steps := [] } })
  (tablesAfter ((portsAt p).foldl (fun s o => if portGone s o then portAbsentNow o s else s) s)).onSeq p (fun _ => Seq.init)

/-- PANEL_OFF_DONE: a panel commanded OFF has reached it (R301), once every hub holds the table without it (R184). -/
def panelOffDone (p : Nat) (s : State) : State := if (s.panel p).offReq && tablesHeld s then panelOff p s else s

end Sys2Proof.Machine
end

