-- ==== Sys2Proof/Machine/Repair.lean ====
section
/-! DEFINITION. The repair map, liveness probes, fencing and darning (R20 to R27, R185, R325 to R336). -/

namespace Sys2Proof.Machine

open Sys2Proof

/-! The map (R325, R326). -/

/-- The sites of a panel that the fuses call bad: the factory list and the field repair bank (R325). -/
def fuseBad (s : State) (p : Nat) : Tab Bool :=
  let named := fun (i : Nat) => s.fuses.bank.any (fun w =>
    decide (fld w.toNat 31 30 ≤ 1) && fld w.toNat 29 24 == p && fld w.toNat 23 14 == i)
  ((List.range 600).filter (fun i => Tab.get false s.fuses.sites (600 * p + i) || named i)).map (fun i => (i, true))

/-- The sites of a panel whose routers the field repair bank calls bad (R334). -/
def fuseRouters (s : State) (p : Nat) : Tab Bool :=
  ((List.range 600).filter (fun i => s.fuses.bank.any (fun w =>
    decide (fld w.toNat 31 30 = 1) && fld w.toNat 29 24 == p && fld w.toNat 23 14 == i))).map (fun i => (i, true))

/-- Two router-fenced sites are neighbours in a row or a column (R185). -/
def meshBreak (r : Tab Bool) : Bool :=
  r.any (fun e => e.2 && ((decide (e.1 % 24 < 23) && Tab.get false r (e.1 + 1)) || Tab.get false r (e.1 + 24)))

/-- The row left out: of the rows with two or more bad sites that with the most, the lowest on a tie
(R326). -/
def skipRowFor (P : Panel) : Nat :=
  let n := fun (sy : Nat) => (badRow P sy).length
  let rows2 := (List.range 25).filter (fun sy => decide (2 ≤ n sy))
  (rows2.find? (fun sy => rows2.all (fun t => decide (n t ≤ n sy)))).getD 24

/-- The local indices whose site is bad under a panel's map. -/
def holesFor (P : Panel) : Tab Bool :=
  ((List.range 552).filter (fun i =>
    let (sx, sy) := siteOf P (i % 23) (i / 23)
    Tab.get false P.bad (24 * sy + sx))).map (fun i => (i, true))

/-- What the hub shows of the panel's failed routers (R185, R194). -/
def Panel.routersNow (P : Panel) : Panel :=
  { P with hub := { P.hub with meshBroken := meshBreak P.routers, bypassed := sat 8 (P.routers.filter (·.2)).length } }

/-- Builds the map of a panel from its bad sites (R326). -/
def buildMap (P : Panel) : Panel :=
  let cols : Tab Nat := ((List.range 25).map (fun sy => (sy, (badRow P sy).headD 23))).filter (fun e => e.2 != 23)
  let P := { P with skipRow := skipRowFor P, skipCol := cols }
  Panel.routersNow { P with holes := holesFor P }

/-- The fuses give a panel its bad sites and its map (R316 step 2, R325). -/
def loadMap (p : Nat) (s : State) : State :=
  let b := fuseBad s p
  let r := fuseRouters s p
  dropSpares p true (s.onPanel p (fun P => buildMap { P with bad := b, routers := r }))

/-! Fencing (R329). -/

/-- A core without its rail: every context EMPTY; what hub and supervisor hold of it stays (R107, R109,
R353). -/
def bareCore (c : Core) (pw : CorePower) : Core :=
  { Core.init with
    power := pw, flag := c.flag, gate := c.gate, sels := c.sels, launches := c.launches
    ctxs := c.ctxs.map (fun e => (e.1, { Ctx.init with inv := e.2.inv })) }

/-- Requests that have reached a core and are not answered receive a status (R193). -/
def answerAt (hit : Packet → Bool) (st : Nat) (s : State) : State :=
  (s.packets.filter (fun k => !k.reply && decide (k.pos = .there) && hit k)).foldl (fun s k => answer k.pid st [] [] s) s

/-- A packet addressed to core `n`. -/
def Packet.toCore (n : Nat) (k : Packet) : Bool :=
  match targetOf k.dst k.size with
  | some (.spd m _) => m == n
  | some (.ctl p u off) => u == 0x10 && coreIn p (off / 0x10000 % 23) (off / 0x10000 / 23) == n
  | _ => false

/-- Automatic repair in the partition of a panel (R330). -/
def autoRepair (s : State) (p : Nat) : Bool :=
  match partOf s p with | some k => !(s.part k).commanded | none => true

/-- Marks a site bad. -/
def markBad (p site : Nat) (s : State) : State := s.onPanel p (fun P => { P with bad := Tab.set P.bad site true })

/-- A site is fenced (R26, R329 step 4). -/
def countFence (p site : Nat) (s : State) : State :=
  (markBad p site s).onPanel p (fun P => { P with fenced := inc 8 P.fenced })

/-- The reductions in which a core has still to take part: its lists send under the id, or packets of it from the core's
rectangle are on their way (R189). -/
def runningReds (s : State) (n : Nat) : List Nat :=
  (List.range 16).filter (fun r =>
    s.reds.any (fun p => p.id == r && decide (p.x0 ≤ cxOf n) && decide (cxOf n ≤ p.x1) && decide (p.y0 ≤ cyOf n) && decide (cyOf n ≤ p.y1))
      || (s.core n).ctxs.any (fun e => e.2.lists.any (fun l => l.2.xfs.any (fun x => x.2.red == some r))))

/-- Fences the core whose site has failed (R329, R332). A fenced core whose new site fails while it is darned is
fenced again. -/
def fenceCore (n : Nat) (s : State) : State :=
  if isHole s n || Tab.get false (s.panel (panelOf n)).bad (siteIdx s n) then s
  else
    let p := panelOf n
    let site := siteIdx s n
    let s := answerAt (Packet.toCore n) 0x07 s
    let pins := runningReds s n
    let s := coreEpoch n ((unhalt n s).onCore n (fun c => { bareCore c .fenced with pins := pins }))
    let s := (countFence p site s).onPanel p (fun P =>
      { P with
        darn := { P.darn with
          steps := (P.darn.steps.map (fun c => { c with cores := c.cores.filter (· != n) })), failed := Tab.set P.darn.failed n site } })
    let s := relaxSplit p (voidPanel p 6 s)
    let s := logErr 1 3 p 0 n site s
    if autoRepair s p && !(s.panel p).darn.queue.contains n then
      s.onPanel p (fun P => { P with darn := { P.darn with queue := P.darn.queue ++ [n] } })
    else s

/-- A router has failed: it is fenced with its site, its neighbours bypass it, and the route tables are computed
anew (R27, R28, R185, R328, R329). -/
def routerFault (p site : Nat) (s : State) : State :=
  if 64 ≤ p ∨ 600 ≤ site ∨ !panelRuns (s.panel p) ∨ Tab.get false (s.panel p).routers site then s
  else
    let s := s.onPanel p (fun P => Panel.routersNow { P with routers := Tab.set P.routers site true })
    let s := match coreAtSite s p site with
      | some n => fenceCore n s
      | none => if Tab.get false (s.panel p).bad site then s else countFence p site s
    tablesAfter s

/-! Liveness (R327, R328). -/

/-- LIVENESS_PROBE: once in 2^14 ticks. -/
def probeNow (p : Nat) (s : State) : State :=
  let P := s.panel p
  if panelRuns P ∧ P.probed + 2 ^ 14 ≤ s.now then s.onPanel p (fun P => { P with probed := s.now, missed := [] }) else s

/-- A core is probed: mapped, its site in RUN or IDLE, and not halted for debug (R327, R375). -/
def probed (s : State) (n : Nat) : Bool :=
  let c := s.core n
  panelRuns (s.panel (panelOf n)) && !isDead s n && c.halted.isNone && (decide (c.power = .run) || decide (c.power = .idle))

/-- PROBE_TIMEOUT: a probe has had no answer for 1,024 ticks; it is repeated, and a second miss fences. -/
def probeTimeout (p n : Nat) (s : State) : State :=
  let P := s.panel p
  if panelOf n ≠ p ∨ 35328 ≤ n ∨ !probed s n ∨ P.probed = 0 then s
  else
    match P.missed.find? (fun e => e.1 == n) with
    | none => if P.probed + 1024 ≤ s.now then s.onPanel p (fun P => { P with missed := Tab.set P.missed n s.now }) else s
    | some e => if e.2 + 1024 ≤ s.now then fenceCore n (s.onPanel p (fun P => { P with missed := Tab.del P.missed n })) else s

/-- MACHINE_CHECK (R328): the core at a site reports a parity error of its own, or the site's router has failed its
mesh link checks. -/
def machineCheck (p site : Nat) (router : Bool) (s : State) : State :=
  if router then routerFault p site s
  else if 64 ≤ p ∨ 600 ≤ site ∨ !panelRuns (s.panel p) then s
  else
    match coreAtSite s p site with
    | none => s
    | some n =>
      if isDead s n then s
      else fenceCore n (s.onPanel p (fun P => { P with err := { P.err with checks := inc 8 P.err.checks } }))

/-! Darning (R23, R330 to R332). -/

/-- The map change for a failed site (R23): the row's skip column moves to it, else the row is left out. -/
def chooseChange (P : Panel) (site : Nat) : Option Panel :=
  let sy := site / 24
  let c := Tab.get 23 P.skipCol sy
  if sy ≠ P.skipRow ∧ !Tab.get false P.bad (24 * sy + c) then some { P with skipCol := Tab.set P.skipCol sy (site % 24) }
  else if P.skipRow = 24 ∧ sy ≠ 24 then
    some { P with skipRow := sy, skipCol := Tab.set P.skipCol 24 ((badRow P 24).headD 23) }
  else none

/-- The logical cores of panel `p` whose site the change moves (R23). -/
def movedCores (p : Nat) (P Q : Panel) : List Nat :=
  (coresOf p).filter (fun n => decide (siteOf P (lxOf n) (lyOf n) ≠ siteOf Q (lxOf n) (lyOf n)))

/-- The carry steps of a change (R23, R331): a row shift moves one core after another, beginning beside the
spare; a panel row shift moves a logical row a step, the southern first. -/
def carrySteps (p : Nat) (P Q : Panel) (l : List Nat) : List Carry :=
  if P.skipRow = Q.skipRow then
    let east := l.any (fun n => decide ((siteOf P (lxOf n) (lyOf n)).1 < (siteOf Q (lxOf n) (lyOf n)).1))
    (if east then l.reverse else l).map (fun n => { cores := [n] })
  else
    ((List.range 24).reverse.map (fun ly => { cores := l.filter (fun n => lyOf n == ly && panelOf n == p) : Carry })).filter
      (fun c => !c.cores.isEmpty)

/-- Stops every context of a core as CSTOP does (R62). -/
def stopAll (n : Nat) (s : State) : State := (List.range 4).foldl (fun s k => stopCtx n k s) s

/-- Ends a DARN command that waits for core `n` (R333). -/
def darnEnds (n code r0 r1 : Nat) (s : State) : State :=
  match s.host.win with
  | some w => if w.op = 0x50 ∧ w.wait = [n] then winEnd code [r0, r1] s else s
  | none => s

/-- Changes the darning record of a panel. -/
def onDarn (p : Nat) (f : Darn → Darn) (s : State) : State := s.onPanel p (fun P => { P with darn := f P.darn })

/-- The core becomes a hole (R24). -/
def makeHole (n : Nat) (s : State) : State :=
  let p := panelOf n
  let s := s.onPanel p (fun P =>
    { P with
      holes := Tab.set P.holes (localOf n) true
      darn := { P.darn with phase := .idle, core := n, steps := [], carried := 0, holesMade := inc 8 P.darn.holesMade } })
  darnEnds n 0x0D 0xFFFF 0 (logErr 1 4 p 0 n 0 s)

/-- Cores whose new site is bad are failed cores in turn (R23): fenced, with that site as the one that failed, and darned after
the present darning, whatever the repair of the partition. -/
def furtherFailed (p : Nat) (l : List Nat) (s : State) : State :=
  let bad := l.filter (fun n => Tab.get false (s.panel p).bad (siteIdx s n) && !isHole s n)
  relaxSplit p (bad.foldl (fun s n =>
    let s := if (s.core n).power = .fenced then s
      else
        let pins := runningReds s n
        let s := onDarn p (fun d => { d with failed := Tab.set d.failed n (siteIdx s n) }) s
        coreEpoch n ((unhalt n (answerAt (Packet.toCore n) 0x07 s)).onCore n (fun c => { bareCore c .fenced with pins := pins }))
    if (s.panel p).darn.queue.contains n then s
    else onDarn p (fun d => { d with queue := d.queue ++ [n] }) s) s)

/-- DARNING_START (R330): the first fenced core that waits is darned; the partition's step is void (R263). -/
def darnStart (p : Nat) (s : State) : State :=
  let P := s.panel p
  match P.darn.queue with
  | [] => s
  | n :: t =>
    if P.darn.phase ≠ .idle ∨ !panelRuns P then s
    else
      let s := onDarn p (fun d => { d with queue := t }) s
      let new := siteIdx s n
      let moved := !Tab.get false P.bad new
      let site := if moved then Tab.get new P.darn.failed n else new
      let begin_ := fun (ph : DarnPhase) (st : List Carry) (s : State) =>
        voidPanel p 6 (onDarn p (fun d => { d with phase := ph, core := n, site := site, carried := 0, steps := st }) s)
      if isHole s n then s
      else if moved then begin_ .zeroizing [] s
      else
        match chooseChange P site with
        | none => makeHole n s
        | some Q =>
          let moved := (movedCores p P Q).filter (· != n)
          let s := dropSpares p false (s.onPanel p (fun P => { P with skipRow := Q.skipRow, skipCol := Q.skipCol }))
          let bad := moved.filter (fun m => Tab.get false P.bad (siteIdx s m))
          let carried := moved.filter (fun m => !bad.contains m && decide ((s.core m).power ≠ .fenced) && !isHole s m)
          let s := carried.foldl (fun s m => stopAll m s) s
          let s := furtherFailed p (if Tab.get false P.bad (siteIdx s n) then n :: bad else bad) s
          let st := carrySteps p P Q carried
          begin_ (if st.isEmpty then .zeroizing else .carrying) st s

/-- CARRY_STEP_DONE (R331): the scratchpad of the cores of one step is at its new site. -/
def carryDone (p : Nat) (s : State) : State :=
  let D := (s.panel p).darn
  match D.phase, D.steps with
  | .carrying, c :: t =>
    onDarn p (fun d => { d with steps := t, carried := d.carried + c.cores.length, phase := if t.isEmpty then .zeroizing else .carrying }) s
  | _, _ => s

/-- DARNING_DONE (R330): the spare is zeroized, the core's epoch increments, it serves requests again. -/
def darnDone (p : Nat) (s : State) : State :=
  let D := (s.panel p).darn
  if D.phase ≠ .zeroizing then s
  else
    let n := D.core
    if Tab.get false (s.panel p).bad (siteIdx s n) then
      onDarn p (fun d => { d with phase := .idle, queue := if d.queue.contains n then d.queue else d.queue ++ [n] }) s
    else
      let s := zeroizeCore n s
      let s := coreEpoch n (s.onCore n (fun c => { c with power := .run, pins := [] }))
      let s := s.onPanel p (fun P =>
        { P with
          fresh := Tab.set P.fresh (localOf n) true
          darn := { P.darn with phase := .idle, darned := inc 8 P.darn.darned } })
      let s := queueRepair (if Tab.get false (s.panel p).routers D.site then 1 else 0) p D.site s
      darnEnds n 0 (siteIdx s n) D.carried s

/-- FIELD_REPAIR_FUSE_WRITE (R334). -/
def fuseWrite (s : State) : State :=
  match s.fuses.queue with
  | [] => s
  | w :: t => { s with fuses := { s.fuses with queue := t, bank := s.fuses.bank ++ [w] } }

/-! The FENCE and DARN commands (R333). -/

/-- The state of a panel for a command on a core or site of it (R333): 0 where it is ACTIVE. -/
def panelFor (P : Panel) : Nat := if P.lost then 0x06 else if P.power ≠ .active then 0x04 else 0

/-- FENCE of a site: the code. -/
def fenceSite (p site : Nat) (s : State) : Nat × State :=
  let P := s.panel p
  if panelFor P ≠ 0 then (panelFor P, s)
  else if Tab.get false P.bad site then (0, s)
  else
    match coreAtSite s p site with
    | some n => (0, fenceCore n s)
    | none => (0, markBad p site s)

/-- REMOTE_REQUEST (R25, R32, R175): held while the core is being carried, and until the requests sent before it
on its way have been served. -/
def remoteNow (pid : Nat) (s : State) : State :=
  match packetOf s pid with
  | none => s
  | some k =>
    let off : Bool := match targetOf k.dst 1 with | some t => (s.panel t.panel).shorted | none => false
    if off || carriedTarget s k.dst k.size || overtakes s k then s else remoteRequest pid s

end Sys2Proof.Machine
end

