-- ==== Sys2Proof/Machine/Reset.lean ====
section
/-! DEFINITION. Resets (R337 to R348), the loss of a panel (R355), the entry into FAULT and RECOVERY (R317,
R349), loss and return of the 50 V input (R385). -/

namespace Sys2Proof.Machine

open Sys2Proof

/-! Targets (R337, R340, R346). -/

/-- The core of a CONTEXT or CORE target. -/
def targetCore (t : Nat) : Nat := t % 65536
/-- The context of a CONTEXT target. -/
def targetCtx (t : Nat) : Nat := t / 65536 % 4

/-- The panel of a target of CONTEXT, CORE or PANEL level. -/
def targetPanel (level t : Nat) : Nat := if level = 2 then t % 64 else panelOf (targetCore t)

/-- A target of level `lvl` covers one of level `l` (R340). -/
def covers (s : State) (lvl t l u : Nat) : Bool :=
  match lvl with
  | 0 => decide (l = 0) && decide (u = t)
  | 1 => (decide (l = 0) || decide (l = 1)) && decide (targetCore u = targetCore t)
  | 2 => (decide (l ≤ 2) && decide (targetPanel l u = t))
      || (decide (l = 6) && (decide ((portPanels u).1 = t) || decide ((portPanels u).2 = t)))
  | 3 => (decide (l ≤ 2) && (s.part t).has (targetPanel l u)) || (decide (l = 3) && decide (u = t))
      || (decide (l = 6) && portPart s u == some t)
  | 6 => decide (l = 6) && decide (u = t)
  | _ => decide (l ≤ lvl) || decide (l = 6)

/-- The place of a level in the order of the ladder; PORT stands below PANEL, to which it escalates (R337,
R343). -/
def rankOf (level : Nat) : Nat := if level = 6 then 1 else level

/-- The panels that a target touches. -/
def panelsUnder (s : State) (level t : Nat) : List Nat :=
  allPanels.filter (fun p => decide (level ≤ 5) && (covers s level t 2 p || (decide (level ≤ 1) && decide (targetPanel level t = p))))

/-! Cause and beginning (R338 to R341, R345). -/

/-- The word that RESET_CAUSE holds (R345). -/
def causeWord (R : ResetCtl) : Nat := R.source * 2 ^ 60 + R.level * 2 ^ 57 + b2n R.escalated * 2 ^ 56 + R.target

/-- RESET_CAUSE names this reset, and the panels that it covers record it (R345, R359). -/
def markCause (r : RunReset) (s : State) : State :=
  let s := s.onRst (fun R => { R with source := r.source, level := r.level, escalated := r.escalated, target := r.target })
  (allPanels.filter (fun p => covers s r.level r.target 2 p)).foldl (fun s p => s.onPanel p (fun P =>
    { P with err := { P.err with source := r.source, level := r.level } })) s

/-- Records the reset that begins: its cause, the counters, the log (R345, R346, R358, R359). A watchdog reset is counted
where it fires, not again where it escalates. -/
def recordReset (r : RunReset) (s : State) : State :=
  let s := (markCause r s).onRst (fun R => { R with blockResets := if r.level ≤ 2 ∨ r.level = 6 then inc 16 R.blockResets else R.blockResets })
  let s := (panelsUnder s r.level r.target).foldl (fun s p => s.onPanel p (fun P =>
    { P with
      err := { P.err with
        coreResets := if r.level = 1 then inc 16 P.err.coreResets else P.err.coreResets
        panelResets := if r.level = 2 then inc 8 P.err.panelResets else P.err.panelResets
        watchdog := if r.source = 4 ∧ !r.escalated then inc 8 P.err.watchdog else P.err.watchdog } })) s
  if r.level = 4 ∨ r.level = 5 then s
  else
    let unit := if r.level = 6 then r.target + 0x40 else if r.level ≤ 2 then targetPanel r.level r.target else 0xFF
    logErr 1 9 unit 0 (causeWord s.rst) 0 s

/-- The window command ends if it is a RESET below MODULE level. -/
def resetEnds (code : Nat) (res : List Nat) (s : State) : State := winEndIf 0x40 code res s

/-- Of two sources that fire in one tick at one level on one target, the lower code counts as the first, and
the other is absorbed (R340): the reset is the lower one's. -/
def creditFirst (source level target : Nat) (s : State) : State :=
  let same := fun (r : RunReset) =>
    decide (r.at_ = s.now) && decide (r.level = level) && decide (r.target = target) && decide (source < r.source) && !r.escalated
  if s.rst.running.any same then
    let s := s.onRst (fun R =>
      { R with
        running := R.running.map (fun r => if same r then { r with source := source } else r)
        source := if 4 ≤ level then R.source else source })
    if 4 ≤ level then s
    else (allPanels.filter (fun p => covers s level target 2 p)).foldl (fun s p => s.onPanel p (fun P => { P with err := { P.err with source := source } })) s
  else s

/-- Of two sources that fire in one tick, the one that counts as the later (R340). -/
def RunReset.later (a b : RunReset) : Bool :=
  decide (a.at_ = b.at_) && !a.escalated && !b.escalated
    && (decide (rankOf b.level < rankOf a.level) || (decide (rankOf b.level = rankOf a.level) && decide (b.source < a.source)))

/-- Marks the block of a reset as in reset, or no longer (R341 steps 1 and 6). -/
def markReset (level t : Nat) (b : Bool) (s : State) : State :=
  if level = 1 then s.onCore (targetCore t) (fun c => { c with inReset := b })
  else if level = 2 then s.onPanel t (fun P => { P with inReset := b })
  else if level = 6 then s.onPort t (fun P => { P with inReset := b })
  else s

/-- A source fires (R340): absorbed, or it begins, abandoning what it covers at a lower level. A reset that
is to fire later (R344) does not yet count. Of the sources of one tick each counts in its place, whichever the model takes
first: one of a lower level that a higher one of the tick covers began before it and was abandoned, and RESET_CAUSE keeps
the later one. -/
def fireReset (source level target : Nat) (escalated : Bool) (s : State) : State :=
  let R := s.rst.running
  let live := fun (r : RunReset) => decide (r.since ≤ s.now)
  let r : RunReset :=
    { source := source, level := level, target := target, escalated := escalated, phase := .fired, since := s.now, at_ := s.now }
  match R.find? (fun q => live q && covers s q.level q.target level target && decide (rankOf level ≤ rankOf q.level)) with
  | some q =>
    if q.later r && decide (rankOf level < rankOf q.level) then
      let s := if source = 3 then resetEnds 0x0C [q.level] s else s
      let s := recordReset r s
      if q.level ≤ 3 ∨ q.level = 6 then markCause q s else s
    else
    let s := if escalated then s else creditFirst source level target s
    if source = 3 then (if escalated then resetEnds 0x0C [level] s else resetEnds 0 [] s) else s
  | none =>
    let gone := fun (r : RunReset) =>
      live r && decide (rankOf r.level < rankOf level) && covers s level target r.level r.target
    let s := if R.any (fun r => gone r && decide (r.source = 3)) && !escalated then resetEnds 0x0C [level] s else s
    let s := (R.filter gone).foldl (fun s r => markReset r.level r.target false s) s
    let s := s.onRst (fun C => { C with running := C.running.filter (fun q => !gone q) ++ [r] })
    let s := if level = 1 ∨ level = 2 ∨ level = 3 then (panelsUnder s level target).foldl (fun s p => askWake true p s) s else s
    if 4 ≤ level ∧ level ≤ 5 then s
    else
      match R.find? (fun q => q.later r && !gone q && R.all (fun z => gone z || !z.later q)) with
      | some q => if 4 ≤ q.level ∧ q.level ≤ 5 then recordReset r s else markCause q (recordReset r s)
      | none => recordReset r s

/-! What a block reset does (R337, R341). -/

/-- The core keeps no state but what hub and supervisor hold of it (R337 CORE). -/
def wipeCore (n : Nat) (s : State) : State :=
  let dead := Tab.get false (s.panel (panelOf n)).bad (siteIdx s n) || isHole s n
  (zeroizeCore n (unhalt n s)).onCore n (fun c =>
    { bareCore c (if dead then .fenced else .run) with flag := false, gate := .closed, sels := c.sels, inReset := c.inReset })

/-- A packet addressed to the stack, sequencer or a core of panel `p`, or with `ports` to a port attachment there. -/
def Packet.toPanel (ports : Bool) (p : Nat) (k : Packet) : Bool :=
  match targetOf k.dst k.size with
  | some (.ctl q u _) => q == p && (ports || (u != 4 && u != 5))
  | some t => t.panel == p
  | none => false

/-- CORE level (R337): requests accepted are answered, outstanding entries dropped, the epoch renewed. -/
def resetCore (n : Nat) (s : State) : State :=
  let s := answerAt (Packet.toCore n) 0x07 s
  let s := newEpoch n (wipeCore n s)
  relaxSplit (panelOf n) s

/-- The registers of a stack interface after a reset: retire entries, contents and the scrub position
stay (R205, R207, R337). -/
def Stack.interfaceReset (K : Stack) (key : Option (BitVec 512)) (power : StackPower) : Stack :=
  { Stack.init with
    power := power, key := key, checks := K.checks, mirrored := K.mirrored, mirrorLost := K.mirrorLost
    rebuild := (if K.rebuild = .none then .none else .due), next := K.next, lastScrub := K.lastScrub, retire := K.retire, entries := K.entries, spares := K.spares
    fill := K.fill }

/-- The key that the Ubide block loads into the stack interface of panel `p` (R202, R203). -/
def keyFor (s : State) (p : Nat) : Option (BitVec 512) :=
  match partOf s p with
  | some k => if (s.part k).session = .opened then (s.part k).key else none
  | none => none

/-- PANEL level (R337). -/
def resetPanel (p : Nat) (s : State) : State :=
  let s := answerAt (Packet.toPanel false p) 0x07 (unarrive p s)
  let s := dropSpares p true (s.onPanel p buildMap)
  let s := (coresOf p).foldl (fun s n => if s.cores.any (fun e => e.1 == n) then newEpoch n (wipeCore n s) else newEpoch n s) s
  let s := { s with mem := Tab.delRange s.mem (seqKey p 0) 0x40000 }
  let key := keyFor s p
  let pw := wakePower s p
  let s := s.onPanel p (fun P =>
    { P with
      seq := Seq.init, fresh := [], missed := []
      stack := P.stack.interfaceReset key pw
      hub := { P.hub with waiting := [] }
      darn := { P.darn with phase := .idle, queue := [], steps := [] } })
  let s := (portsAt p).foldl (fun s o => newEpoch (42000 + o) s) s
  setSplit p Split.basic (newEpoch (40000 + p) (newEpoch (41000 + p) s))

/-- The counters and queues of a port after its reset (R248, R337 PORT). -/
def resetPort (o : Nat) (s : State) : State :=
  let s := discardEntries o 0x07 s
  let s := flushBuffers o s
  let s := s.onPort o (fun P =>
    { P with
      buf := [], ctl := [], post := [], replay := 0, crc := 0, fecUnc := 0, flushed := 0, proto := 0, qFull := 0
      retrain := 0, refused := 0, ident := none, rejoined := false })
  newEpoch (42000 + o) (if (s.port o).state = .failed then s else portTo o .off s)

/-- The drain of a reset is complete (R341 step 2). -/
def drained (s : State) (r : RunReset) : Bool :=
  if r.level = 0 then (s.core (targetCore r.target)).outst.all (fun e => e.2.ctx != targetCtx r.target)
  else if r.level = 1 then (s.core (targetCore r.target)).outst.isEmpty
  else if r.level = 2 then
    (s.panel r.target).hub.waiting.isEmpty && (coresHeld s r.target).all (fun n => (s.core n).outst.isEmpty)
      && (match (s.seq r.target).wait with | some (.fabric _) => false | _ => true)
  else if r.level = 6 then (s.port r.target).buf.isEmpty
  else true

/-- Replaces the `i`-th reset. -/
def putReset (i : Nat) (r : RunReset) (s : State) : State := s.onRst (fun R => { R with running := R.running.set i r })
/-- Removes the `i`-th reset. -/
def dropReset (i : Nat) (s : State) : State := s.onRst (fun R => { R with running := R.running.eraseIdx i })

/-- A reset is complete (R341 step 6, R344). -/
def resetDone (i : Nat) (r : RunReset) (s : State) : State :=
  let s := dropReset i s
  if r.source ≠ 3 then s else if r.escalated then resetEnds 0x0C [r.level] s else resetEnds 0 [] s

/-- The block is reset (R341 steps 3 and 4); a context has no epoch and keeps its scratchpad, so its reset is complete. -/
def blockNow (i : Nat) (r : RunReset) (s : State) : State :=
  if r.level = 0 then resetDone i r (stopCtx (targetCore r.target) (targetCtx r.target) s)
  else
    let s := if r.level = 1 then resetCore (targetCore r.target) s
      else if r.level = 2 then resetPanel r.target s
      else resetPort r.target s
    putReset i { r with phase := .notice } s

/-- A block reset must wait before it begins: for a darning, or for its panel to wake (R337, R341). -/
def mustWait (s : State) (r : RunReset) : Bool :=
  let p := targetPanel r.level r.target
  decide (r.level ≤ 2) &&
    ((decide (r.level = 1) && decide ((s.panel p).darn.phase ≠ .idle))
      || (decide (1 ≤ r.level) && (decide ((s.panel p).power = .nap) || decide ((s.panel p).power = .sleep)) && !(s.panel p).lost))

/-- The quiesce request (R341 step 1): the step is void, a panel's sequencer halts, its ports are absent. -/
def quiesce (r : RunReset) (s : State) : State :=
  let s := markReset r.level r.target true s
  if r.level = 1 then voidPanel (panelOf (targetCore r.target)) 8 s
  else if r.level = 2 then
    let s := voidPanel r.target 8 s
    let s := if (s.seq r.target).busy then haltSeq r.target s else s
    (portsAt r.target).foldl (fun s o => portAbsentNow o s) s
  else s

/-- BLOCK_RESET: the next part of the `i`-th reset of CONTEXT, CORE, PANEL or PORT level: it begins, or its
drain is complete and the block is reset. -/
def blockReset (i : Nat) (s : State) : State :=
  match s.rst.running[i]? with
  | none => s
  | some r =>
    if r.level = 3 ∨ r.level = 4 ∨ r.level = 5 then s
    else
      match r.phase with
      | .fired =>
        if mustWait s r then s
        else if r.level = 0 ∧ drained s r then blockNow i r s
        else quiesce r (putReset i { r with phase := .drain, since := s.now } s)
      | .drain => if drained s r then blockNow i r s else s
      | .notice => s

/-- The ticks a drain may take (R341). -/
def drainLimit (level : Nat) : Nat := if level = 2 then 100000 else if level = 6 then 10000 else 1000

/-- RESET_DRAIN_TIMEOUT (R341 step 3). -/
def drainTimeout (i : Nat) (s : State) : State :=
  match s.rst.running[i]? with
  | none => s
  | some r =>
    match r.phase with
    | .drain =>
      if r.since + drainLimit r.level ≤ s.now ∧ !drained s r then
        blockNow i r (s.onRst (fun R => { R with forced := inc 16 R.forced }))
      else s
    | _ => s

/-- The blocks whose epochs a block reset renews (R192, R337). -/
def blockUnder (level t b : Nat) : Bool :=
  if level = 1 then b == targetCore t else if level = 2 then blockOfPanel t b else level == 6 && b == 42000 + t

/-- EPOCH_NOTICE: every live hub has acknowledged the notice of the `i`-th reset, and the block is released
(R192, R341 steps 4 to 6). A port trains again if its role is not OFF, unless a panel of it is gone or it has FAILED (R217, R226). -/
def epochNotice (i : Nat) (s : State) : State :=
  match s.rst.running[i]? with
  | none => s
  | some r =>
    match r.phase with
    | .notice =>
      let s := noticeEpochs (blockUnder r.level r.target) (markReset r.level r.target false s)
      let s := if r.level = 2 then (portsAt r.target).foldl (fun s o => portPresent o s) s
        else if r.level ≠ 6 ∨ (s.port r.target).state = .failed then s
        else if portGone s r.target then portTo r.target .absent s
        else if (s.port r.target).role ≠ .off then startTraining r.target s
        else s
      resetDone i r s
    | _ => s

/-- The ticks within which a reset must complete (R343). -/
def resetLimit (level : Nat) : Nat :=
  match level with | 0 => 1000 | 1 => 2000 | 6 => 50000 | 2 => 500000 | 3 => 5000000 | _ => 1000000

/-- The next level and target of the ladder (R343). -/
def nextLevel (s : State) (level t : Nat) : Nat × Nat :=
  match level with
  | 0 => (1, targetCore t)
  | 1 => (2, panelOf (targetCore t))
  | 6 => (2, if (s.panel (portPanels t).1).lost then (portPanels t).2 else (portPanels t).1)
  | 2 => match partOf s t with | some k => (3, k) | none => (4, 0)
  | 3 => (4, 0)
  | _ => (5, 0)

/-- RESET_ESCALATE (R343): a reset that has not been released within its limit, which counts from its step 1: a block
reset that waits for a wake or for the end of a darning has not come to it (R337, R341). -/
def escalate (i : Nat) (s : State) : State :=
  match s.rst.running[i]? with
  | none => s
  | some r =>
    if r.level = 5 ∨ s.now < r.since + resetLimit r.level ∨ (r.phase = .fired ∧ (r.level = 1 ∨ r.level = 2 ∨ r.level = 6)) then s
    else
      let (l, t) := nextLevel s r.level r.target
      let s := markReset r.level r.target false (dropReset i s)
      let s := s.onRst (fun R => { R with escalations := inc 16 R.escalations })
      let s := if l = 4 ∧ r.source = 3 then resetEnds 0x0C [4] s else s
      fireReset r.source l t true s

/-! PARTITION level (R337). -/

/-- A partition's job ports go OFF (R282 BIND_OFF, R291, R337). -/
def portsOff (k : Nat) (s : State) : State :=
  (jobPorts s k).foldl (fun s o =>
    let s := if (s.port o).state = .failed then s else portTo o .off s
    let s := discardEntries o 0x08 s
    s.onPort o (fun P => { P with role := .off, commitOut := false, job := 0, buf := [], ctl := [], rx := [], held := false, flushing := false })) s

/-- The training step of a partition ends with no record written (R337): a step decided and not yet
recorded stays so. -/
def dropJob (k : Nat) (s : State) : State :=
  let s := s.onJob k (fun J => { JobSt.init with lastStep := J.lastStep, cause := J.cause, voids := J.voids, skips := J.skips, replays := J.replays })
  saveState k s

/-- The training step of a partition that no longer runs (R275, R282): the last decided step is recorded. -/
def endJob (k : Nat) (s : State) : State := dropJob k (recordApplied k s)

/-- PARTITION_RESET (R337), once resting panels have been woken: every panel as PANEL, the result window zeroed, the job ports OFF; the other
ports of those panels are ABSENT meanwhile (R217). -/
def partitionReset (k : Nat) (s : State) : State :=
  match s.rst.running.findIdx? (fun r => decide (r.level = 3) && decide (r.target = k)) with
  | none => s
  | some i =>
    match s.rst.running[i]? with
    | none => s
    | some r =>
      if (panelsOf s k).any (fun p => decide ((s.panel p).power = .nap) || decide ((s.panel p).power = .sleep)) then s else
      let s := (panelsOf s k).foldl (fun s p => s.onSeq p (fun _ => Seq.init)) s
      let s := portsOff k s
      let live := (panelsOf s k).filter (fun p => !((s.panel p).lost || decide ((s.panel p).power = .off)))
      let ports := ((live.flatMap portsAt).dedup).filter (fun o => decide ((s.port o).role ≠ .off) && decide ((s.port o).state ≠ .failed))
      let s := ports.foldl (fun s o => portTo o .absent s) s
      let s := live.foldl (fun s p => noticeEpochs (blockOfPanel p) (resetPanel p s)) s
      let s := ports.foldl (fun s o => portPresent o s) s
      let s := dropJob k s
      let s := zeroWindow k (if (s.part k).cmd.isSome then partEnd k 0x07 [] s else s)
      let s := s.onPart k (fun K => { K with fault := false })
      resetDone i r s

/-! MODULE level (R337, R347, R290). -/

/-- What a panel keeps through a MODULE reset: everything on its always-on rail; its stack is in self-refresh
(R211, R304, R347, R359), with the source and level of the reset that covers it, and the host's step limit. Without a partition the stack is mirrored no longer (R208); a rebuild begins again. -/
def modulePanel (kept : Bool) (source level : Nat) (P : Panel) : Panel :=
  { Panel.init with
    lost := P.lost, shorted := P.shorted, railUp := P.railUp, costs := P.costs
    bad := P.bad, skipRow := P.skipRow, skipCol := P.skipCol, holes := P.holes, routers := P.routers
    tension := { Tension.init with limit := P.tension.limit, junction := P.tension.junction, stackTemp := P.tension.stackTemp, watts := P.tension.watts, wsamples := P.tension.wsamples, wsecs := P.tension.wsecs }
    err := { PanelErr.init with source := source, level := level }
    hang := { Hang.init with state := P.hang.state, verdict := P.hang.verdict, suspects := P.hang.suspects, ctx := P.hang.ctx, core := P.hang.core }
    stack := { Stack.init with
      power := if P.power = .off ∧ P.stack.power = .off then .off else .selfRefresh
      checks := P.stack.checks, mirrored := kept && P.stack.mirrored, mirrorLost := kept && P.stack.mirrorLost
      rebuild := (if kept ∧ P.stack.rebuild ≠ .none then .due else .none), next := P.stack.next
      retire := P.stack.retire, entries := P.stack.entries, spares := P.stack.spares } }

/-- A partition after a MODULE reset: its definition stays until cast-on ends, an OPEN session is SUSPENDED, a CLOSED one
stays so (R290, R318). Its status word stays (R337; log entry 72), and a partition command ends TARGET_RESET. -/
def modulePart (now resumeS : Nat) (K : Part) : Part :=
  let kept : Part :=
    { K.word with
      code := if K.cmd.isSome then 0x07 else K.code
      defined := K.defined, x0 := K.x0, y0 := K.y0, x1 := K.x1, y1 := K.y1, mirroring := K.mirroring, commanded := K.commanded
      ceiling := K.ceiling
      session := K.session }
  match K.session with
  | .opened => { kept with session := .suspended, key := K.key, suspendedAt := now, resumeS := resumeS }
  | .suspended => { kept with key := K.key, suspendedAt := K.suspendedAt, resumeS := K.resumeS }
  | _ => kept

/-- The host interface after a MODULE reset: link and configuration space are kept unless the source is
power-on or PERST#. The command processor restarts: a command that holds the window ends TARGET_RESET. A
request still out is completed as not served with TARGET_RESET, in the fabric window too (R270, R277, R337, R347; log entry
72). -/
def moduleHost (cold : Bool) (h : HostIf) : HostIf :=
  let base := if cold then HostIf.init
    else if h.win.isSome then { h with win := none, code := 0x07, reqs := [] } else { h with reqs := [] }
  let left := (h.reqs.filter (fun e => !e.2.fab && !e.2.aborted)).length
  let fab := h.reqs.find? (fun e => e.2.fab)
  if cold ∨ h.reqs = [] then base
  else
    { base with
      ur := sat 16 (h.ur + left), lastSt := 0x07
      fabStatus := if fab.isSome then 0x07 else h.fabStatus
      fabData := if fab.any (fun e => !e.2.wr) then 0 else h.fabData
      out := if left ≠ 0 then { data := [], ep := false, status := 2 }
        else match fab with | some e => { data := if e.2.wr then [] else List.replicate 8 0, ep := false, status := 0 } | none => h.out }

/-- A link port after a MODULE reset: its queues are gone, a job port is OFF, a FEED port keeps its role and
is ABSENT while its panels are OFF (R217, R337, R347). `fresh` is the port as the fuses leave it. -/
def modulePort (fresh P : Port) : Port :=
  let feed := decide (P.role = .feed)
  { fresh with
    state := if feed then .absent else .off, role := if feed then .feed else .off
    timeout := P.timeout, commitTimeout := P.commitTimeout, since := P.since, eq := P.eq, precode := P.precode }

/-- A MODULE reset (R337, R347): everything stops at once, and cast-on begins at step 1. -/
def moduleReset (r : RunReset) (s : State) : State :=
  let cold := decide (r.source ≤ 1)
  let s := finishWrites s
  let kept := fun (p : Nat) => (partOf s p).isSome
  let s := (allPanels.filter (fun p => decide ((s.panel p).power ≠ .off) || s.panels.any (fun e => e.1 == p))).foldl
    (fun s p => s.onPanel p (modulePanel (kept p) r.source r.level)) s
  let resumeS := s.ubide.resumeS
  { s with
    cores := [], lines := [], packets := [], bcasts := [], reds := [], transit := []
    ports := s.ports.map (fun e => (e.1, modulePort (Port.init (s.fuses.laneBits e.1)) e.2))
    mem := s.mem.filter (fun c => (decide (2 ^ 46 ≤ c.1) && decide (c.1 < 2 ^ 47)) || decide (2 ^ 48 + 0x200000 ≤ c.1)
      || (decide (2 ^ 48 + 0x10000 ≤ c.1) && decide (c.1 < 2 ^ 48 + 0x20000)))
    epochBase := (s.epochBase + 1) % 256, hubEpochs := s.epochs, turns := []
    parts := s.parts.map (fun e => (e.1, modulePart s.now resumeS e.2))
    log := ErrLog.init
    host := moduleHost cold s.host
    ubide := { s.ubide with dbg := 0, dpart := 0 }
    rst := { ResetCtl.init with
      source := r.source, level := r.level, escalated := r.escalated, target := r.target, failedStarts := s.rst.failedStarts }
    power := { s.power with inrush := [], deferred := [], unmet := 0 }
    mstate := .castOn, cast := { CastOn.init with since := s.now }, hang := HangCtl.init
    dbg := { core := 0, ctx := 0, lastSt := 0 } }

/-- A MODULE or TRAY_POWER_CYCLE reset that has fired and whose time has come. -/
def readyReset (s : State) (level : Nat) : Option RunReset :=
  s.rst.running.find? (fun r => decide (r.level = level) && decide (r.since ≤ s.now))

/-- MODULE_RESET (R347). -/
def moduleResetNow (s : State) : State :=
  match readyReset s 4 with
  | some r => moduleReset r s
  | none => s

/-- The key of a partition is destroyed, in the Ubide block and in the stack interfaces (R203, R369). -/
def dropKey (k : Nat) (s : State) : State :=
  let s := (panelsOf s k).foldl (fun s p => s.onPanel p (fun P => { P with stack := { P.stack with key := none } })) s
  s.onPart k (fun K => { K with key := none })

/-- A session becomes CLOSED by the loss of its key (R290, R348). -/
def closeKeyless (k : Nat) (s : State) : State :=
  let s := dropKey k s
  stacksFollow k (s.onPart k (fun K => { K with session := if K.session = .none then .none else .closed }))

/-- TRAY_POWER_CYCLE (R348): keys destroyed, sessions CLOSED, the tray asked to cut the input, then a MODULE
reset. -/
def trayCycle (s : State) : State :=
  match readyReset s 5 with
  | none => s
  | some r =>
    let s := (List.range 4).foldl (fun s k => closeKeyless k s) s
    let s := { s with pins := { s.pins with trayReq := true, pldm := s.pins.pldm ++ [r.source] } }
    moduleReset r s

/-! Sources (R338, R339). -/

/-- The level of a source on A1, raised where the fuses raise it (R338). -/
def levelOf (s : State) (source : Nat) : Nat :=
  let a1 := match source with | 4 => 2 | 7 => 2 | 8 => 5 | _ => 4
  if source = 1 ∨ source = 2 ∨ source = 4 ∨ source = 6 then max a1 (min 5 (Tab.get 0 s.fuses.levels source)) else a1

/-- The target of a source's level, for a source that belongs to a panel (R338). -/
def raisedTarget (s : State) (level p : Nat) : Nat × Nat :=
  if level = 2 then (2, p)
  else if level = 3 then (match partOf s p with | some k => (3, k) | none => (4, 0))
  else (level, 0)

/-- WATCHDOG_EXPIRE (R65, R338): the countdown of a running sequencer has reached zero. -/
def watchdogExpire (p : Nat) (s : State) : State :=
  let q := s.seq p
  let halted := (coresHeld s p).any (fun n => (s.core n).halted.isSome)
  if panelRuns (s.panel p) && q.wdRun && q.busy && !halted && !inHold s p && decide (q.wdFrom + q.wdLeft ≤ s.now) then
    let (l, t) := raisedTarget s (levelOf s 4) p
    fireReset 4 l t false (s.onSeq p (fun q => { q with wdRun := false }))
  else s

/-- THERMAL_TRIP (R311). -/
def thermalTrip (p : Nat) (s : State) : State :=
  let T := (s.panel p).tension
  if (s.panel p).power ≠ .off ∧ (T.junction.any (fun t => decide (115 ≤ t)) ∨ 105 ≤ T.stackTemp) ∧ !s.power.tripPin then
    let s := s.onPower (fun W => { W with tripPin := true, trips := inc 16 W.trips })
    let s := logErr 2 14 p 0 p T.temp (attend s)
    let l := levelOf s 6
    fireReset 6 l 0 false s
  else s

/-- PERST# is asserted for 200 ticks (R339); while the module is unpowered only the pin changes (R390). -/
def perstAssert (s : State) : State :=
  if s.pins.perst then s
  else
    let s := { s with pins := { s.pins with perst := true } }
    if s.pins.powered then fireReset 1 (levelOf s 1) 0 false s else s

/-- MODULE_RESET# is asserted for 200 ticks (R339). -/
def moduleResetPin (s : State) : State :=
  if s.pins.modReset then s
  else
    let s := { s with pins := { s.pins with modReset := true } }
    if s.pins.powered then fireReset 2 (levelOf s 2) 0 false s else s

/-- MODULE_RESET# deasserts: the module is held no longer (R339). -/
def moduleResetRelease (s : State) : State :=
  if s.pins.modReset then
    { s with pins := { s.pins with modReset := false }, cast := if s.cast.step = 1 then { s.cast with since := s.now } else s.cast }
  else s

/-- SECURITY_VIOLATION (R338). -/
def securityViolation (s : State) : State := if s.pins.powered then fireReset 8 5 0 false s else s

/-! Failed starts (R317, R349). -/

/-- A panel that a failed cast-on leaves without power on the way into RECOVERY (R350): OFF, with the stack of a SUSPENDED
session kept in self-refresh (R211, R290). -/
def darkPanel (p : Nat) (s : State) : State :=
  let P := s.panel p
  let kept : Bool := match partOf s p with | some k => decide ((s.part k).session = .suspended) | none => false
  if P.power = .off ∧ P.bring = .none then s
  else if kept then
    let s := { s with
      cores := s.cores.filter (fun e => panelOf e.1 != p), power := { s.power with deferred := s.power.deferred.filter (· != p) } }
    s.onPanel p (fun P => modulePanel true P.err.source P.err.level P)
  else panelOff p s

/-- A cast-on fails with a code; at the third failure the module enters RECOVERY (R349). In RECOVERY only the always-on domain, the Ubide block and PCIe run (R350). -/
def castFail (code : Nat) (s : State) : State :=
  let n := min 255 (s.rst.failedStarts + 1)
  let rec_ := decide (3 ≤ n)
  let s := if rec_ then allPanels.foldl (fun s p => darkPanel p s) s else s
  let s := s.onRst (fun R => { R with failedStarts := n })
  let step := s.cast.step
  let s := s.onHost (fun h => { h with code := code })
  let s := logErr 2 7 0xFF code step n (attend s)
  if rec_ then
    { s with
      mstate := .recovery
      ubide := if s.ubide.life = .recovery then s.ubide else { s.ubide with former := s.ubide.life, life := .recovery } }
  else { s with mstate := .fault, cast := { s.cast with failedAt := if step < 3 then some s.now else none } }

/-- CAST_ON_FAIL (R316, R317): a step fails with its code, or the 30 s limit of steps 4 to 8 or the 10 ms limit of step 9
passes. -/
def castOnFail (code : Nat) (s : State) : State :=
  let step := s.cast.step
  let ok := (decide (code = 0x0B) && decide (step = 1)) || (decide (code = 0x09) && decide (step ≤ 2))
    || (decide (code = 0x05) && decide (3 ≤ step) && decide (step ≤ 8) && decide (s.cast.third + 3000000000 ≤ s.now))
    || (decide (code = 0x05) && decide (step = 9) && decide (s.cast.ninth + 1000000 ≤ s.now))
  if s.mstate = .castOn ∧ s.pins.powered ∧ ok then castFail code s else s

/-! Loss of a panel (R355). -/

/-- PANEL_SUPPLY_SHORT: the eFuse trips and the converters shut down; from then on nothing of the panel runs or forwards
(R293, R355 step 1). -/
def supplyShort (p : Nat) (s : State) : State :=
  if (s.panel p).lost ∨ (s.panel p).power = .off ∨ 64 ≤ p then s else s.onPanel p (fun P => { P with shorted := true })

/-- A panel that is lost holds no retire entries, and a mirrored partner goes on alone (R207, R210, R355). -/
def loseStack (p : Nat) (s : State) : State :=
  let s := s.onStack p (fun K => { K with retire := [], entries := [], spares := 0 })
  match partnerOf s p with
  | some q => if (s.stack q).mirrored then s.onStack q (fun K => { K with mirrorLost := true }) else s
  | none => s

/-- A hub that stands in for those of a lost panel: a live neighbour in the order east, south, west, north, else any live
hub. -/
def standIn (s : State) (p : Nat) : Option Nat :=
  ((([1, 2, 3, 0] : List Nat).filterMap (bridge p)) ++ allPanels).find? (fun q => q != p && !noTransit s q)

/-- What the loss of a panel does to the packets (R184, R193): a reply to it and what its own blocks had not yet sent out
are gone; the answers it owes leave by the hub that stands in for its own, which counts them; what passed through it is
held there. -/
def packetsLost (p : Nat) (s : State) : State :=
  let inside := fun (k : Packet) => k.pos.panel == some p
  let mine := fun (k : Packet) => k.home.panel == some p && k.src != Src.die
  let kept := s.packets.filter (fun k => !(mine k && (inside k || k.reply)))
  match standIn s p with
  | none => { s with packets := kept.filter (fun k => !inside k) }
  | some q =>
    let owed := (kept.filter (fun k => inside k && k.reply && k.status == 6)).length
    let s := (List.range owed).foldl (fun s _ => countAbsent q s) s
    { s with
      packets := kept.map (fun k =>
        if inside k then { k with pos := .hub q, inp := 0, route := .hub, path := [], lost := decide (!(k.reply && k.status == 6)) } else k) }

/-- PANEL_LOST: the supervisor reports the loss (R355). A reset of a block of the panel ends with it, its command as that of
a target whose panel is lost (R344). -/
def panelLost (p : Nat) (s : State) : State :=
  if !(s.panel p).shorted then s
  else
    let r : RunReset :=
      { source := 7, level := 2, target := p, escalated := false, phase := .fired, since := s.now, at_ := s.now }
    let ended := s.rst.running.filter (fun q => covers s 2 p q.level q.target)
    let s := ended.foldl (fun s q => markReset q.level q.target false s) s
    let s := if ended.any (fun q => decide (q.source = 3)) then resetEnds 0x06 [] s else s
    let s := s.onRst (fun R => { R with source := 7, level := 2, escalated := false, target := p })
    let s := s.onPanel p (fun P => { P with err := { P.err with source := r.source, level := r.level } })
    let s := packetsLost p (answerAt (Packet.toPanel true p) 0x06 (unarrive p s))
    let s := (coresOf p).foldl (fun s n => newEpoch n s) s
    let s := (portsAt p).foldl (fun s o => newEpoch (42000 + o) s) (newEpoch (40000 + p) (newEpoch (41000 + p) s))
    let s := noticeEpochs (blockOfPanel p) s
    let s := { s with
      cores := s.cores.filter (fun e => panelOf e.1 != p && !(decide (spareNo p 0 ≤ e.1) && decide (e.1 < spareNo p 600)))
      reds := s.reds.filter (fun r => panelOf r.router != p)
      lines := s.lines.filter (fun e => panelOf (e.1 / 0x18000) != p)
      mem := (s.mem.filter (fun c => !(decide (c.1 < 2 ^ 46) && panelOf (coreAt (c.1 / 2 ^ 30 % 256) (c.1 / 2 ^ 38)) == p)))
      lostAt := s.now
      rst := { s.rst with running := s.rst.running.filter (fun q => !covers s 2 p q.level q.target) } }
    let s := (stackLost p { s with mem := Tab.delRange s.mem (seqKey p 0) 0x40000 }).onPower (fun W =>
      { W with deferred := W.deferred.filter (· != p) })
    let s := s.onPanel p (fun P =>
      { P with
        power := .off, lost := true, shorted := false, inReset := false, wake := none, brought := false
        firstUse := none, offReq := false, leaving := [], coreWaits := [], missed := [], fresh := [], bring := .none
        hub := { P.hub with waiting := [], split := Split.basic, next := none, grants := 0, used := [] }, costs := []
        darn := { P.darn with phase := .idle, queue := [], steps := [] } })
    let s := logErr 2 5 p 0 p 0 s
    let s := match partOf s p with
      | some k => attendPart k (s.onPart k (fun K => { K with fault := true }))
      | none => s
    let s := (portsAt p).foldl (fun s o => portAbsentNow o s) (voidPanel p 7 s)
    let s := allPanels.foldl (fun s q => s.onPanel q (fun P => { P with hub := { P.hub with lossDue := true } })) s
    (tablesChanged (loseStack p s)).onSeq p (fun _ => Seq.init)

/-! The 50 V input (R385). -/

/-- The input leaves its range beyond ride-through: the module is unpowered. What fuses and the Ubide block's
store hold stays. -/
def inputLost (s : State) : State :=
  { State.reset with
    now := s.now, freeSeq := s.freeSeq, nextPid := s.nextPid, pending := s.pending
    fuses := { s.fuses with queue := [] }
    mstate := .castOn
    ubide := { Ubide.init with
      life := (if s.ubide.life = .recovery then s.ubide.former else s.ubide.life), former := s.ubide.former, record := s.ubide.record
      store := s.ubide.store, floor := s.ubide.floor, failures := 4, unlocks := s.ubide.unlocks, lastFail := 0, nextKey := s.ubide.nextKey }
    pins := { s.pins with powered := false, trayReq := false, i3c := none, jtag := .idcode, pldm := [] } }

/-- POWER_ON (R385, R338): the input has stayed in range for 10 ms; source 0 fires and cast-on begins. The tray holds PERST#
asserted from the input entering range (R390). -/
def powerOn (s : State) : State :=
  if s.pins.powered then s
  else
    { s with
      pins := { s.pins with powered := true, perst := true }
      panels := allPanels.map (fun p => (p, { s.panel p with railUp := s.now }))
      cast := { CastOn.init with since := s.now }, mstate := .castOn
      rst := { ResetCtl.init with source := 0, level := 4 } }

end Sys2Proof.Machine
end

