-- ==== Sys2Proof/Machine/Hang.lean ====
section
/-! DEFINITION. The hang detector (R351 to R354): engines, their waits and edges, snapshots, declaration,
replay of suspects and verdict. -/

namespace Sys2Proof.Machine

open Sys2Proof

/-! Engines and edges (R351). -/

/-- What never waits: a block without engines, by its key in the table of epochs. -/
def Eng.rock (b : Nat) : Eng := .entry b 0 0

/-- The panel that holds an engine. -/
def Eng.panel : Eng → Nat
  | .ctx n _ => panelOf n
  | .list n _ _ => panelOf n
  | .seq p => p
  | .red n _ _ => panelOf n
  | .entry o _ _ => if o < 16 then (portPanels o).1 else 0

/-- A context stands in a wait-for edge: it is not EMPTY, or it is a stopped suspect of a replay (R353). -/
def ctxStands (s : State) (n k : Nat) : Bool :=
  (s.ctxAt n k).resident || (s.hang.active && s.hang.suspects.contains (n, k))

/-- The contexts of a core that stand. -/
def coreCtxs (s : State) (n : Nat) : List Eng := ((List.range 4).filter (ctxStands s n)).map (fun k => Eng.ctx n k)
/-- A list has ready output of a transform that waits for slot space (R159). -/
def slotBlocked (s : State) (n k l : Nat) : Bool :=
  (s.listAt n k l).xfs.any (fun e =>
    let Q := (s.ctxAt n k).slot e.2.d.qDst
    e.2.d.dstSlot && decide (e.2.outDone < e.2.ready) && decide (e.2.nEnt * Q.bytes ≤ e.2.outDone) && !Q.hasSpace)

/-- The lists of a context that are not IDLE, DONE or FAULT, or wait for slot space with output. -/
def ctxLists (s : State) (n k : Nat) : List Nat :=
  (List.range 4).filter (fun l => (s.listAt n k l).live || slotBlocked s n k l)
/-- The lists of a core. -/
def coreLists (s : State) (n : Nat) : List Eng :=
  (List.range 4).flatMap (fun k => (ctxLists s n k).map (fun l => Eng.list n k l))

/-- The engines of a target block (R351): a core stands for its contexts and lists; a block without engines,
and a dead core, never waits. -/
def blockEngs (s : State) (b : Nat) : List Eng :=
  if b < nCores then (if isDead s b then [Eng.rock b] else coreCtxs s b ++ coreLists s b)
  else if 40000 ≤ b ∧ b < 40064 then [.seq (b - 40000)]
  else [Eng.rock b]

/-- The contexts of a panel that are not EMPTY. -/
def panelCtxs (s : State) (p : Nat) : List Eng := (coresHeld s p).flatMap (coreCtxs s)

/-- The engines that may set flag `f` of panel `p` (R351). -/
def flagEngs (s : State) (p f : Nat) : List Eng :=
  panelCtxs s p ++ [.seq p] ++
    (portsAt p).flatMap (fun o => (((s.port o).entries.filter (fun e => e.panel == p && e.flag == f)).map (fun e => Eng.entry o e.vc e.id)))

/-- The descriptors of a list from its next one to its END, following LINKs, once around. -/
def descsAhead (s : State) (n start : Nat) : Nat → Nat → List Desc
  | 0, _ => []
  | f + 1, a =>
    let d := Desc.ofBytes (memBytes s.mem (spdKey n a) 32)
    let b := if d.kind = 5 then d.src else (a + 32) % 2 ^ 23
    if d.kind = 0 ∨ 6 ≤ d.kind then [] else if b = start then [d] else d :: descsAhead s n start f b

/-- List `l` of a context has an unfinished descriptor that names a slot, as destination or as source
(R351). -/
def namesSlot (s : State) (n k l q : Nat) (dst : Bool) : Bool :=
  let L := s.listAt n k l
  let hit := fun (d : Desc) => (decide (d.kind = 1) || decide (d.kind = 2)) && (if dst then d.dstSlot && d.qDst == q else d.srcSlot && d.qSrc == q)
  (match L.cur with | some x => hit x.d | none => false)
    || L.xfs.any (fun e => hit e.2.d)
    || (dst && (s.core n).outst.any (fun e => e.2.ctx == k && e.2.list == some l && (match e.2.use with | .slot r _ => r == q | _ => false)))
    || (descsAhead s n L.next (spdSize / 32) L.next).any hit

/-- The lists of a context that name a slot. -/
def slotLists (s : State) (n k q : Nat) (dst : Bool) : List Eng :=
  ((ctxLists s n k).filter (fun l => namesSlot s n k l q dst)).map (fun l => Eng.list n k l)

/-- The edges of a consumer of slot `q` (R351): none where the wait is not listed. An LDF slot without an LDF outstanding has
no edge, as an IN slot that no list fills. -/
def popEdges (s : State) (n k q : Nat) : Option (List Eng) :=
  match ((s.ctxAt n k).slot q).mode with
  | 1 => some (slotLists s n k q true)
  | 3 =>
    let mine := (s.core n).outst.filter (fun e => e.2.ctx == k && (match e.2.use with | .ldf r _ => r == q | _ => false))
    let head := ((s.ctxAt n k).slot q).cons % (((s.ctxAt n k).slot q).depth + 1)
    let oldest := (mine.find? (fun e => match e.2.use with | .ldf _ pos => pos == head | _ => false)).or mine.head?
    match oldest with
    | some e => some (blockEngs s e.2.block)
    | none => some []
  | _ => none

/-- The edges of a producer of slot `q`. -/
def pushEdges (s : State) (n k q : Nat) : Option (List Eng) :=
  match ((s.ctxAt n k).slot q).mode with
  | 2 => some (slotLists s n k q false)
  | _ => none

/-- The edges of the running context of core `n`: those of the slots that hold its bundle, or of its WAIT
without a timeout; none where it does not wait (R351). -/
def ctxEdges (s : State) (n k : Nat) : Option (List Eng) :=
  let c := s.core n
  if !c.active || c.cur != k || c.halted.isSome then none
  else
    match c.wait with
    | some w =>
      if w.ticks ≠ 0 then none
      else
        (match w.kind with
         | 1 => some (flagEngs s (panelOf n) w.arg)
         | 2 => popEdges s n k w.arg
         | 3 => pushEdges s n k w.arg
         | _ => none)
    | none =>
      match c.held with
      | none => none
      | some b =>
        let o := (rawOps b).list
        let pops := (o.filterMap (fun i => i.pops)).filter (fun q => !(c.ctx.slot q).hasEntry)
        let pushes := (o.filterMap (fun i => i.pushes)).filter (fun q => !(c.ctx.slot q).hasSpace)
        let all := pops.map (popEdges s n k) ++ pushes.map (pushEdges s n k)
        if all.isEmpty || all.any (fun e => e.isNone) then none else some (all.filterMap id).flatten

/-- The edges of a list (R351). -/
def listEdges (s : State) (n k l : Nat) : Option (List Eng) :=
  if (s.core n).halted.isSome then none else
  let L := s.listAt n k l
  let out := (s.core n).outst.filter (fun e => e.2.ctx == k && e.2.list == some l && e.2.phase == .sent)
  if slotBlocked s n k l then some [.ctx n k] else
  match L.state with
  | .slotWait => some [.ctx n k]
  | .atMarker => some (flagEngs s (panelOf n) (Desc.ofBytes (memBytes s.mem (spdKey n L.next) 32)).flag)
  | _ => if out.isEmpty then none else some (out.flatMap (fun e => blockEngs s e.2.block))

/-- The edges of a sequencer (R351). -/
def seqEdges (s : State) (p : Nat) : Option (List Eng) :=
  match (s.seq p).state, (s.seq p).wait with
  | .waiting, some (.flag f) => some (flagEngs s p f)
  | .waiting, some (.barrier _ _ _) => some (panelCtxs s p)
  | .waiting, some (.cwait k set _) =>
    some ((((coreSet p set).getD []).filter (fun n =>
      !isDead s n && ctxStands s n k && decide ((s.ctxAt n k).state ≠ .faulted))).map (fun n => Eng.ctx n k))
  | .waiting, some (.stepBegin _) =>
    (match partOf s p with
     | some k =>
       let late := (stepPanels s k).filter (fun q => !(s.job k).begun.any (fun e => e.1 == q))
       if late.isEmpty then none else some (late.map Eng.seq)
     | none => none)
  | _, _ => none

/-- The core that feeds an input of a router. -/
def feeder (n : Nat) : RedIn → Nat
  | .own => n | .west => n - 1 | .east => n + 1 | .north => n - gridW | .south => n + gridW

/-- The engines for which an input of router `n` waits that misses a packet of `p`'s reduction (R351): the lists of the
cores whose own contribution is missing, found over the routers before it; one that misses none never waits. -/
def redBehind (s : State) (p : RedPkt) : Nat → Nat → RedIn → List Eng
  | 0, _, _ => []
  | f + 1, n, i =>
    match i with
    | .own => if isDead s n then [Eng.rock n] else coreLists s n
    | _ =>
      let m := feeder n i
      let missing := (expected s m p).filter (fun j => (redAt s m p.id j).isEmpty)
      if missing.isEmpty then [Eng.rock m] else missing.flatMap (redBehind s p f m)

/-- The inputs of router `n` that wait for a packet of reduction `r`, with their edges: the router has some packet of it,
but none at this input (R351). -/
def redEdges (s : State) (n r : Nat) : List (RedIn × List Eng) :=
  match s.reds.find? (fun p => p.router == n && p.id == r) with
  | none => []
  | some p =>
    ((expected s n p).filter (fun i => (redAt s n r i).isEmpty)).map (fun i => (i, redBehind s p 400 n i))

/-! Snapshots (R352). -/

/-- What a hub records of an engine. -/
def record (e : Eng) (edges : Option (List Eng)) (mark : List Nat) : EngRec :=
  { eng := e, waits := edges.isSome, edges := (edges.getD []).dedup, mark := mark }

/-- The counts by which a list's progress shows. -/
def listMark (s : State) (n k l : Nat) : List Nat :=
  let L := s.listAt n k l
  let x := match L.cur with | some x => [x.id, x.total] | none => []
  [L.state.code, L.completed, L.nid] ++ x ++ L.xfs.flatMap (fun e => [e.1, e.2.outDone]) ++
    ((s.core n).outst.filter (fun e => e.2.ctx == k && e.2.list == some l)).flatMap (fun e => [e.1, e.2.desc, e.2.addr, e.2.refusals])

/-- The engines of a panel (R351, R352). -/
def engines (s : State) (p : Nat) : List EngRec :=
  let cores := (coresHeld s p).filter (fun n => !isDead s n)
  let ctxs := cores.flatMap (fun n => ((List.range 4).filter (fun k => (s.ctxAt n k).resident)).map (fun k =>
    record (.ctx n k) (ctxEdges s n k) [(s.ctxAt n k).issue, (s.ctxAt n k).pc, (s.ctxAt n k).inv]))
  let lists := cores.flatMap (fun n => (List.range 4).flatMap (fun k => (ctxLists s n k).map (fun l =>
    record (.list n k l) (listEdges s n k l) (listMark s n k l))))
  let reds := ((s.reds.filter (fun q => panelOf q.router == p)).map (fun q => (q.router, q.id))).dedup.flatMap (fun e =>
    (redEdges s e.1 e.2).map (fun w =>
      record (.red e.1 e.2 w.1.code) (some w.2)
        ((s.reds.filter (fun q => q.router == e.1 && q.id == e.2)).flatMap (fun q => [q.inp.code, q.elem]))))
  ctxs ++ lists ++ [record (.seq p) (seqEdges s p) [(s.seq p).issue, (s.seq p).state.code]] ++ reds

/-- HANG_SNAPSHOT: once in 2^16 ticks of a panel that is ACTIVE (R352). -/
def hangSnapshotNow (p : Nat) (s : State) : State :=
  let H := (s.panel p).hang
  if panelRuns (s.panel p) ∧ p < 64 ∧ H.last + 65536 ≤ s.now then
    let snap := engines s p
    let mine : Bool := match s.hang.cur with | some (n, _) => panelOf n == p | none => false
    let s := s.onPanel p (fun P =>
      { P with hang := { P.hang with last := s.now, prev := P.hang.snap, snap := snap, snapshots := inc 16 P.hang.snapshots } })
    if mine then { s with hang := { s.hang with snaps := s.hang.snaps + 1 } } else s
  else s

/-! Declaration (R352). -/

/-- The engines of a panel that waited, with the same edges and without progress, in its two latest
snapshots. -/
def stuckIn (s : State) (p : Nat) : List EngRec :=
  let H := (s.panel p).hang
  if panelRuns (s.panel p) ∧ 2 ≤ H.snapshots then H.snap.filter (fun e => e.waits && H.prev.contains e) else []

/-- The largest set of engines every edge of which leads into it. -/
def closedSet : Nat → List EngRec → List EngRec
  | 0, l => l
  | f + 1, l =>
    let m := l.filter (fun e => e.edges.all (fun d => l.any (fun x => x.eng == d)))
    if m.length = l.length then l else closedSet f m

/-- The panels of a partition, or with 4 those of none. -/
def hangArea (s : State) (k : Nat) : List Nat :=
  if k < 4 then panelsOf s k else allPanels.filter (fun p => (partOf s p).isNone)

/-- An engine of a snapshot that no declared hang holds: not a held sequencer, nor of a suspect (R353). -/
def hangFree (s : State) (e : Eng) : Bool :=
  let taken := fun (n k : Nat) => s.hang.suspects.contains (n, k) || s.hang.queue.any (fun j => j.suspects.contains (n, k))
  match e with
  | .ctx n k => !taken n k
  | .list n k _ => !taken n k
  | .seq p => !hangHolds s p
  | _ => true

/-- The hang of a partition, as its hubs' latest snapshots show it. -/
def hangSet (s : State) (k : Nat) : List EngRec :=
  let l := ((hangArea s k).flatMap (stuckIn s)).filter (fun e => hangFree s e.eng)
  closedSet l.length l

/-- A context before another: by core number, then context id (R353). -/
def ctxLe (a b : Nat × Nat) : Bool := decide (a.1 < b.1) || (decide (a.1 = b.1) && decide (a.2 ≤ b.2))

/-- Puts a context in its place. -/
def insertCtx (x : Nat × Nat) : List (Nat × Nat) → List (Nat × Nat)
  | [] => [x]
  | y :: t => if x = y then y :: t else if ctxLe x y then x :: y :: t else y :: insertCtx x t

/-- The suspects of a hang (R353). -/
def suspectsOf (S : List EngRec) : List (Nat × Nat) :=
  S.foldl (fun l e => match e.eng with
    | .ctx n k => insertCtx (n, k) l
    | .list n k _ => insertCtx (n, k) l
    | _ => l) []

/-- Changes `PNL_HANG` of panels. -/
def onHangs (ps : List Nat) (f : Hang → Hang) (s : State) : State :=
  ps.foldl (fun s p => s.onPanel p (fun P => { P with hang := f P.hang })) s

/-- The hang whose suspects are to replay next takes its turn (R353). -/
def nextHang (s : State) : State :=
  match s.hang.active, s.hang.queue with
  | false, j :: t =>
    { s with
      hang := { s.hang with
        part := j.part, suspects := j.suspects, todo := j.suspects, cur := none, since := s.now, snaps := 0, guilty := []
        inStep := j.inStep, panels := j.panels, active := true, entry := j.entry, queue := t } }
  | _, _ => s

/-- Declares the hang `S` of partition `k` (R352, R353): its suspects are stopped as by a CONTEXT reset, and replay after those
of the hangs before it. -/
def declareHang (k : Nat) (S : List EngRec) (s : State) : State :=
  let sus := suspectsOf S
  let ps := (S.map (fun e => e.eng.panel)).dedup
  let inStep := (s.job k).stepOpen
  let s := onHangs ps (fun H =>
    { H with
      state := if sus.isEmpty then 3 else 1, verdict := if sus.isEmpty then 3 else 0
      suspects := min sus.length 1023, hangs := inc 8 H.hangs, core := 0, ctx := 0 }) s
  let room := decide (s.log.held.length < 512)
  let s := logErr 1 8 (ps.headD 0xFF) 0 sus.length 0xFFFF s
  let entry := if room then s.log.held.getLast? else none
  let s := if inStep then voidStep k 8 true s else s
  if sus.isEmpty then
    (allPanels.filter (fun p => S.any (fun e => e.eng == .seq p))).foldl (fun s p => fireReset 5 2 p false s) s
  else
    let job : HangJob := { part := k, suspects := sus, inStep := inStep, panels := hangArea s k, entry := entry }
    nextHang { s with
      hang := { s.hang with
        queue := s.hang.queue ++ [job]
        stopping := s.hang.stopping ++ sus.map (fun x => { n := x.1, k := x.2, since := s.now }) } }

/-- HANG_COMBINE: once in 2^16 ticks of the control die every hang that the snapshots show is declared (R352). -/
def hangCombineNow (s : State) : State :=
  if s.now < s.hang.last + 65536 then s
  else
    let s := { s with hang := { s.hang with last := s.now } }
    (List.range 5).foldl (fun s k => let S := hangSet s k; if S.isEmpty then s else declareHang k S s) s

/-! Replay (R353). -/

/-- The panels whose `PNL_HANG` records the hang under replay. -/
def hangPanels (s : State) : List Nat :=
  s.hang.panels.filter (fun p => decide ((s.panel p).hang.state = 1) || decide ((s.panel p).hang.state = 2))

/-- The drain of a suspect that is being stopped is complete, or its 10 µs have passed (R341, R353). -/
def HangStop.due (s : State) (e : HangStop) : Bool :=
  (s.core e.n).outst.all (fun q => q.2.ctx != e.k) || decide (e.since + 1000 ≤ s.now)

/-- Suspects whose drain is complete are stopped. -/
def stopsNow (s : State) : State :=
  let due := s.hang.stopping.filter (HangStop.due s)
  let s' := due.foldl (fun s e => stopCtx e.n e.k s) s
  { s' with hang := { s'.hang with stopping := s.hang.stopping.filter (fun e => !e.due s) } }

/-- SUSPECT_REPLAY: the suspects are stopped, and the next one is launched from its launch record. A resting panel wakes
first; the contexts of a lost or OFF panel are gone (log 148); a failure to launch escalates. -/
def suspectReplayNow (s : State) : State :=
  let s := nextHang (stopsNow s)
  match s.hang.active, s.hang.cur, s.hang.todo with
  | true, none, (n, k) :: t =>
    let P := s.panel (panelOf n)
    if s.hang.stopping.any (fun e => s.hang.suspects.contains (e.n, e.k)) then s
    else if P.lost || decide (P.power = .off) then { s with hang := { s.hang with todo := t } }
    else if decide (P.power ≠ .active) then askWake true (panelOf n) s
    else if !panelRuns P then s else
    let c := s.core n
    let s := { s with hang := { s.hang with todo := t } }
    let lost := fun (s : State) => fireReset 5 1 n true (s.onRst (fun R => { R with escalations := inc 16 R.escalations }))
    match c.launches.find? (fun e => e.1 == k) with
    | none => lost s
    | some (_, entry, args) =>
      match launchOn n k entry args (selOf c k) s with
      | none => lost s
      | some s =>
        let s := onHangs (hangPanels s) (fun H => { H with state := 2 }) s
        let s := s.onPanel (panelOf n) (fun P => { P with hang := { P.hang with replays := inc 8 P.hang.replays } })
        { s with hang := { s.hang with cur := some (n, k), since := s.now, snaps := 0 } }
  | _, _, _ => s

/-- An engine belongs to a context. -/
def Eng.own (n k : Nat) : Eng → Bool
  | .ctx m j => m == n && j == k
  | .list m j _ => m == n && j == k
  | _ => false

/-- The verdict of a replay that is to end: whether the context is guilty (R353). -/
def replayVerdict (s : State) (n k : Nat) : Option Bool :=
  let x := s.ctxAt n k
  let st := (stuckIn s (panelOf n)).filter (fun e => e.eng.own n k)
  let two := decide (2 ≤ s.hang.snaps)
  if x.state = .empty ∨ x.state = .faulted then some false
  else if two && !(closedSet st.length st).isEmpty then some true
  else if two && st.any (fun e => e.edges.any (fun d => !d.own n k)) then some false
  else if s.hang.since + 2 ^ 20 ≤ s.now then some false
  else none

/-- Stops a suspect after its replay with its state saved (R353, R354): requests still out are stale. -/
def shelve (n k : Nat) (s : State) : State :=
  let c := s.core n
  if (s.ctxAt n k).state = .empty ∨ (s.ctxAt n k).state = .faulted then s
  else
    let st := (s.ctxAt n k).state
    let s := if c.active ∧ c.cur = k then afterStop n (saveCur n .faulted (commitStores n (c.icyc + 2 ^ 20) s))
      else
        let s := s.onCtx n k (fun x => { x with state := .faulted })
        if st = .ready then saveArea n k s else spdWrite n [(saveBase k, BitVec.ofNat 8 CtxState.faulted.code)] [] s
    s.onCtx n k (fun x => { x with inv := x.inv + 1, posted := 0, postExc := none })

/-- SUSPECT_REPLAY_END. -/
def suspectReplayEndNow (s : State) : State :=
  match s.hang.active, s.hang.cur with
  | true, some (n, k) =>
    (match replayVerdict s n k with
     | none => s
     | some g =>
       let s := shelve n k s
       { s with hang := { s.hang with cur := none, guilty := if g then s.hang.guilty ++ [(n, k)] else s.hang.guilty } })
  | _, _ => s

/-! Verdict (R354). -/

/-- A suspect that is held FAULTED for the hang: its state is saved, and the header of its save area marks the hang (R54,
R354). -/
def blame (x : Nat × Nat) (s : State) : State :=
  if isDead s x.1 then s
  else
    let old := (s.ctxAt x.1 x.2).state
    let s := s.onCtx x.1 x.2 (fun c => { c with state := .faulted, hang := true })
    let h := imgHeader (s.ctxAt x.1 x.2)
    if old = .empty then saveArea x.1 x.2 s
    else spdWrite x.1 [(saveBase x.2, nth 0 h 0), (saveBase x.2 + 2, nth 0 h 2)] [] s

/-- The log entry of the hang under verdict takes the first guilty core (R358; log 140). -/
def blameLog (n : Nat) (s : State) : State :=
  match s.hang.entry with
  | none => s
  | some e =>
    let set := fun (x : LogEntry) => if x = e then { x with d1 := n } else x
    { s with log := { s.log with held := s.log.held.map set, ring := s.log.ring.map (fun r => (r.1, set r.2)) } }

/-- A suspect that becomes EMPTY; the record of an exception of its replay stays (R58). -/
def acquit (x : Nat × Nat) (s : State) : State :=
  let st := (s.core x.1).stat
  (stopCtx x.1 x.2 s).onCore x.1 (fun c => { c with stat := st })

/-- Launches a suspect again from its launch record. -/
def relaunch (x : Nat × Nat) (s : State) : State :=
  let c := s.core x.1
  match c.launches.find? (fun e => e.1 == x.2) with
  | some (_, entry, args) => (launchOn x.1 x.2 entry args (selOf c x.2) s).getD s
  | none => s

/-- HANG_VERDICT: every suspect has been replayed; the next hang takes its turn. -/
def hangVerdictNow (s : State) : State :=
  match s.hang.active, s.hang.cur, s.hang.todo with
  | true, none, [] =>
    let g := s.hang.guilty
    let first := (if g.isEmpty then (0, 0) else g.headD (0, 0))
    let s := onHangs (hangPanels s) (fun H => { H with state := 3, verdict := if g.isEmpty then 2 else 1, core := first.1, ctx := first.2 }) s
    let others := s.hang.suspects.filter (fun x => !g.contains x)
    let s :=
      if g.isEmpty then s.hang.suspects.foldl (fun s x => blame x s) s
      else
        let s := others.foldl (fun s x => acquit x s) (g.foldl (fun s x => blame x s) s)
        if s.hang.inStep then s else others.foldl (fun s x => relaunch x s) s
    let s := if g.isEmpty then s else blameLog first.1 s
    nextHang { s with hang := { HangCtl.init with last := s.hang.last, queue := s.hang.queue, stopping := s.hang.stopping } }
  | _, _, _ => s

end Sys2Proof.Machine
end

