-- ==== Sys2Proof/Machine/Window.lean ====
section
/-! DEFINITION. The command window (R278 to R282): latch, refusal, the checks of R280, and the commands on
partitions, contexts, repair and stacks that need nothing beyond the state of chapters 2 to 12. -/

namespace Sys2Proof.Machine

open Sys2Proof

/-- PCIe is up (R316, R339, R350): powered, PERST# released, and cast-on at step 3 or beyond, or RECOVERY. -/
def pcieUp (s : State) : Bool :=
  s.pins.powered && !s.pins.perst && !s.pins.modReset && (decide (3 ≤ s.cast.step) || decide (s.mstate = .recovery))

/-- The eight arguments of a command. -/
def argsOf (q : Cmd) : List W64 := [q.a0, q.a1, q.a2, q.a3, q.a4, q.a5, q.a6, q.a7]
/-- Argument `i` as a number. -/
def argN (q : Cmd) (i : Nat) : Nat := ((argsOf q).getD i 0).toNat

/-- What R280 checks of a command: check 1 (`bad`), the partition it names, whether its session must be
OPEN, check 5 (`denied`) and the code of the command's own state conditions. -/
structure Rules where
  bad : Bool
  part : Option Nat
  session : Bool
  denied : Bool
  own : Nat

/-- A command with arguments checked and nothing else. -/
def Rules.plain (bad : Bool) : Rules := { bad := bad, part := none, session := false, denied := false, own := 0 }
/-- A command that names partition `n`. -/
def Rules.on (bad : Bool) (n own : Nat) : Rules := { bad := bad, part := some n, session := false, denied := false, own := own }

/-- Reserved bits of an argument that are set: bits outside `mask`. -/
def strays (a mask : Nat) : Bool := decide (a &&& (2 ^ 64 - 1 - mask) ≠ 0)
/-- Some argument from `i` on is not zero. -/
def argsFrom (q : Cmd) (i : Nat) : Bool := ((argsOf q).drop i).any (fun a => a != 0)

/-- Check 2 of R280, with R320. -/
def stateAllows (s : State) (op : Nat) : Bool :=
  match s.mstate with
  | .recovery => [0x01, 0x05, 0x40, 0x71].contains op
  | .castOn => [0x01, 0x12, 0x13, 0x40].contains op
  | .ready => op != 0x71
  | .fault => op != 0x71 && op != 0x12

/-- The first failing check of R280, as its code; 0 where every check passes. -/
def cmdCode (op : Nat) (r : Rules) (s : State) : Nat :=
  let busy : Bool := match r.part with | some n => (s.part n).cmd.isSome | none => false
  let closed : Bool := match r.part with | some n => decide ((s.part n).session ≠ .opened) | none => true
  if r.bad then 0x03
  else if !stateAllows s op then 0x04
  else if busy && op != 0x40 then 0x01
  else if r.session && closed then 0x02
  else if r.denied then 0x0F
  else r.own

/-- The host writes CMD_ARG, CMD_TAG and CMD_OP (R278). -/
def writeArgs (q : Cmd) (s : State) : State := s.onHost (fun h => { h with args := argsOf q, cmdTag := q.tag.toNat })

/-- A command refused because the window holds one (R279). -/
def refuseCmd (op : Nat) (s : State) : State :=
  s.onHost (fun h =>
    if h.rejValid then { h with rejCount := inc 8 h.rejCount }
    else { h with rejValid := true, rejTag := h.cmdTag, rejOp := op, rejCount := inc 8 h.rejCount })

/-- The latch (R278). -/
def latch (op : Nat) (q : Cmd) (s : State) : State :=
  s.onHost (fun h =>
    { h with
      win := some { op := op, tag := q.tag.toNat, args := argsOf q, since := s.now, wait := [], res0 := 0, res1 := 0 }
      opcode := op, tag := q.tag.toNat, code := 0, progress := 0 })

/-- A DEBUG_UNLOCK that is refused is counted (R379). -/
def countDenied (op : Nat) (s : State) : State :=
  if op = 0x60 then s.onUbide (fun u => { u with denied := inc 8 u.denied }) else s

/-- A command: written, latched, checked, then carried out by `body`, which ends the window or leaves it held
(R278 to R281). -/
def runCmd (op : Nat) (q : Cmd) (r : State → Rules) (body : State → State) (s : State) : State :=
  if !pcieUp s then s
  else
    let s := writeArgs q s
    if s.host.win.isSome then refuseCmd op s
    else
      let s := latch op q s
      let c := cmdCode op (r s) s
      if c ≠ 0 then winEnd c [] (countDenied op s) else body s

/-- Changes the command that holds the window. -/
def onWin (f : Win → Win) (s : State) : State := s.onHost (fun h => { h with win := h.win.map f })

/-! IDENTIFY (R282). -/

/-- The fewest free spares of any panel, and holes of the module (R22). -/
def fewestSpares (s : State) : Nat := (allPanels.map (fun p => freeSpares (s.panel p))).foldl min 600
def allHoles (s : State) : Nat := (allPanels.map (fun p => holeCount (s.panel p))).sum

/-- RES1 of IDENTIFY: the repair summary. -/
def repairWord (s : State) : Nat := allHoles s % 2 ^ 16 + (s.fuses.bank.length % 2 ^ 16) * 2 ^ 16 + (fewestSpares s % 256) * 2 ^ 32

/-- The revision of the fuse map (R2). -/
def fuseRev : Nat := 0x01

/-- The installed image of kind 0, 1 or 2: the one in the store, else the one of the factory (R362). -/
def installed (s : State) (k : Nat) : Firmware :=
  match s.ubide.store.find? (fun e => e.1 == k) with
  | some (_, f) => f
  | none =>
    let l := Config.factoryImage k
    { bytes := l, version := leNat ((l.drop 8).take 4), svn := leNat ((l.drop 12).take 4) }

/-- IDENTIFY. RES3, whose encoding the manual does not give, is the version of the installed image of kind 1. -/
def cmdIdentify (q : Cmd) (s : State) : State :=
  runCmd 0x01 q (fun _ => Rules.plain (argsFrom q 0)) (fun s =>
    let ver := (installed s 1).version
    winEnd 0 [Config.serial.toNat, repairWord s
      , s.ubide.life.code + 256 * min 255 s.rst.failedStarts + 65536 * fuseRev, ver] s) s

/-! PARTITION_DEFINE (R282, R16, R290). -/

/-- Removes a partition: its state is NONE (R291). Its panels stay as they are. -/
def removePart (n : Nat) (s : State) : State :=
  let s := (panelsOf s n).foldl (fun s p => s.onStack p (fun K => { K with key := none, mirrored := false, mirrorLost := false, rebuild := .none })) s
  s.onPart n (fun _ => Part.init)

/-- Defines a partition over whole panels. A mirrored one whose panel has a lost partner starts with
`mirror_lost`. -/
def definePart (n x0 y0 x1 y1 : Nat) (mirror commanded : Bool) (s : State) : State :=
  let s := s.onPart n (fun _ => { Part.init with defined := true, x0 := x0, y0 := y0, x1 := x1, y1 := y1, mirroring := mirror, commanded := commanded })
  (panelsOf s n).foldl (fun s p =>
    let alone := match partnerOf s p with | some q => (s.panel q).lost | none => false
    s.onStack p (fun K => { K with mirrored := mirror, mirrorLost := mirror && alone, rebuild := .none })) s

/-- PARTITION_DEFINE. -/
def cmdDefine (q : Cmd) (s : State) : State :=
  let a := argN q 0
  let n := fld a 1 0
  let (x0, y0, x1, y1) := (fld a 10 8, fld a 14 12, fld a 18 16, fld a 22 20)
  let mirror := a.testBit 24
  let remove := a.testBit 31
  let inside := fun (p : Nat) => decide (x0 ≤ p % 8) && decide (p % 8 ≤ x1) && decide (y0 ≤ p / 8) && decide (p / 8 ≤ y1)
  let odd := ((x1 + 1 - x0) * (y1 + 1 - y0)) % 2 == 1
  let bad := strays a 0x83777703 || argsFrom q 1 || (!remove && (decide (x1 < x0) || decide (y1 < y0) || (mirror && odd)))
  runCmd 0x10 q (fun s =>
    let K := s.part n
    let own : Nat :=
      if remove then (if !K.defined || decide (K.session = .opened) || decide (K.session = .suspended) then 0x04 else 0)
      else if K.defined || allPanels.any (fun p => inside p && (partOf s p).isSome) then 0x04 else 0
    { bad := bad, part := some n, session := false
      denied := remove && decide (s.ubide.dbg = 2) && decide (s.ubide.dpart = n), own := own })
    (fun s => winEnd 0 [] (if remove then removePart n s else definePart n x0 y0 x1 y1 mirror (a.testBit 25) s)) s

/-! Rectangles, CONTEXT_LAUNCH, CONTEXT_STOP, ZEROIZE (R282). -/

/-- A rectangle of logical cores. -/
structure Rect where
  x0 : Nat
  y0 : Nat
  x1 : Nat
  y1 : Nat
deriving DecidableEq, Repr

/-- The rectangle of an argument: none where it is malformed. -/
def rectOf (v : Nat) : Option Rect :=
  let r : Rect := { x0 := fld v 7 0, y0 := fld v 15 8, x1 := fld v 23 16, y1 := fld v 31 24 }
  if strays v 0xFFFFFFFF || decide (r.x1 < r.x0) || decide (r.y1 < r.y0) || decide (gridW ≤ r.x1) || decide (gridH ≤ r.y1) then none else some r

/-- The rectangle lies in a partition. -/
def rectIn (K : Part) (r : Rect) : Bool :=
  decide (K.x0 * 23 ≤ r.x0) && decide (r.x1 < (K.x1 + 1) * 23) && decide (K.y0 * 24 ≤ r.y0) && decide (r.y1 < (K.y1 + 1) * 24)

/-- The cores of a rectangle in core-number order. -/
def Rect.cores (r : Rect) : List Nat :=
  (span r.y0 (r.y1 + 1 - r.y0)).flatMap (fun y => (span r.x0 (r.x1 + 1 - r.x0)).map (fun x => coreAt x y))
/-- The panels that a rectangle touches. -/
def Rect.panels (r : Rect) : List Nat :=
  allPanels.filter (fun p => decide (p % 8 * 23 ≤ r.x1) && decide (r.x0 < (p % 8 + 1) * 23) && decide (p / 8 * 24 ≤ r.y1) && decide (r.y0 < (p / 8 + 1) * 24))

/-- The rectangle of argument 1 is malformed or, for a defined partition, reaches outside it. -/
def rectBad (s : State) (n v : Nat) : Bool :=
  match rectOf v with
  | none => true
  | some r => (s.part n).defined && !rectIn (s.part n) r

/-- The split that a split word selects (R166). -/
def splitOf (w : Nat) : Split := if w = 0 then Split.basic else { r := fld w 6 0, w := fld w 14 8, m := fld w 22 16 }
/-- A malformed split word. -/
def splitBad (w : Nat) : Bool :=
  let v := splitOf w
  strays w 0x7F7F7F || decide (v.r = 0) || decide (v.w = 0) || decide (v.m = 0) || decide (v.r + v.w + v.m ≠ 64)

/-- A context is running on a panel (R16): resident. -/
def panelBusy (s : State) (p : Nat) : Bool := !panelEmpty s p

/-- Launches a context on cores by the host: holes are skipped, refusals counted (R282, R52, R140). -/
def launchHost (k entry : Nat) (sel : Sel) (args : List W64) : List Nat → Nat × Nat → State → (Nat × Nat) × State
  | [], acc, s => (acc, s)
  | n :: t, (ok, no), s =>
    if isHole s n || (s.panel (panelOf n)).lost then launchHost k entry sel args t (ok, no) s
    else if !panelRuns (s.panel (panelOf n)) then launchHost k entry sel args t (ok, no + 1) s
    else
      match launchOn n k entry args sel s with
      | some s => launchHost k entry sel args t (ok + 1, no) s
      | none => launchHost k entry sel args t (ok, no + 1) s

/-- A sequencer that the host may start (R282): one that is IDLE. -/
def Seq.startable (q : Seq) : Bool := decide (q.state = .idle)

/-- CONTEXT_LAUNCH. -/
def cmdLaunch (q : Cmd) (s : State) : State :=
  let a := argN q 0
  let n := fld a 1 0
  let start := a.testBit 16
  let sp := splitOf (argN q 3)
  runCmd 0x21 q (fun s =>
    let ps := ((rectOf (argN q 1)).map Rect.panels).getD []
    let live := ps.filter (fun p => !(s.panel p).lost)
    let own : Nat :=
      if live.any (fun p => panelBusy s p && decide (((s.panel p).hub.next.getD (s.panel p).hub.split) ≠ sp)) then 0x04
      else if start && live.any (fun p => !(s.seq p).startable) then 0x04 else 0
    { bad := strays a 0x1FF33 || rectBad s n (argN q 1) || strays (argN q 2) 0xFFFFF || splitBad (argN q 3)
      part := some n, session := true, denied := false, own := own })
    (fun s =>
      match rectOf (argN q 1) with
      | none => winEnd 0x03 [] s
      | some r =>
        let live := r.panels.filter (fun p => !(s.panel p).lost)
        let s := live.foldl (fun s p => if panelBusy s p then s else setSplit p sp s) s
        let sel : Sel := { mode := BitVec.ofNat 4 (fld a 15 12), region := fld a 11 8 }
        let ((ok, no), s) := launchHost (fld a 5 4) (argN q 2) sel ((argsOf q).drop 4) r.cores (0, 0) s
        let s := live.foldl (fun s p => relaxSplit p s) s
        let s := if start then live.foldl (fun s p => startSeq p (s.part n).seqEntry s) s else s
        winEnd 0 [ok, no] s) s

/-- A command that names a partition wakes its panels that rest and its cores in DOZE (R305). -/
def wakeFor (k : Nat) (s : State) : State :=
  (panelsOf s k).foldl (fun s p =>
    (coresHeld s p).foldl (fun s n => s.onCore n (fun c =>
      if c.power = .doze then { c with rest := c.rest.map (fun r => { r with forced := true }) } else c)) (askWake true p s)) s

/-- Stops context `k` on cores; how many were stopped. -/
def stopHost (k : Nat) : List Nat → Nat → State → Nat × State
  | [], c, s => (c, s)
  | n :: t, c, s =>
    if !isDead s n && (s.ctxAt n k).resident then stopHost k t (c + 1) (stopCtx n k s) else stopHost k t c s

/-- CONTEXT_STOP. -/
def cmdStop (q : Cmd) (s : State) : State :=
  let a := argN q 0
  let n := fld a 1 0
  runCmd 0x22 q (fun s =>
    { bad := strays a 0x133 || rectBad s n (argN q 1) || argsFrom q 2, part := some n, session := true, denied := false, own := 0 })
    (fun s =>
      match rectOf (argN q 1) with
      | none => winEnd 0x03 [] s
      | some r =>
        let s := wakeFor n s
        let s := if a.testBit 8 then (r.panels.filter (fun p => !(s.panel p).lost)).foldl (fun s p => haltSeq p s) s else s
        let (c, s) := stopHost (fld a 5 4) (r.cores.filter (fun m => s.cores.any (fun e => e.1 == m))) 0 s
        winEnd 0 [c] s) s

/-- ZEROIZE: a core is zeroized as R143 gives; a hole or fenced core has no scratchpad. -/
def cmdZeroize (q : Cmd) (s : State) : State :=
  let a := argN q 0
  let n := fld a 1 0
  runCmd 0x54 q (fun s =>
    let cores := ((rectOf (argN q 1)).map Rect.cores).getD []
    let held := cores.filter (fun m => s.cores.any (fun e => e.1 == m))
    let own : Nat := if (pstate s n ≠ 3 ∧ !(s.job n).hold) ∨ held.any (fun m => (s.core m).residents) then 0x04 else 0
    { bad := strays a 0x3 || rectBad s n (argN q 1) || argsFrom q 2, part := some n, session := true, denied := false, own := own })
    (fun s =>
      match rectOf (argN q 1) with
      | none => winEnd 0x03 [] s
      | some r => winEnd 0 [] (r.cores.foldl (fun s m => zeroizeCore m s) (wakeFor n s))) s

/-! STEP_RELEASE (R242, R264, R282, R353). -/

/-- STEP_RELEASE. -/
def cmdRelease (q : Cmd) (s : State) : State :=
  let n := fld (argN q 0) 1 0
  runCmd 0x23 q (fun s =>
    let J := s.job n
    let down := J.hold && J.down && !J.stopped
    let replaying := s.hang.active && s.hang.cur.isSome && decide (s.hang.part = n)
    let own : Nat := if replaying then 0x04 else if down then (if portsAgree s n then 0 else 0x04)
      else if !J.hold && partRuns s n then 0 else 0x04
    { bad := strays (argN q 0) 0x3 || argsFrom q 1, part := some n, session := true, denied := false, own := own })
    (fun s =>
      if (s.job n).hold then
        let r := (s.job n).resume
        let s := leaveHold n s
        if (s.job n).hold then winEnd 0x04 [] s else winEnd 0 [r] s
      else
        winEnd 0 [] ((panelsOf s n).foldl (fun s p => s.onSeq p (fun q => { q with release := true })) s)) s

/-! Repair and stack commands (R333, R206, R205). -/

/-- DARN (R333): ends with DARNING_DONE, a hole, or at once. -/
def cmdDarn (q : Cmd) (s : State) : State :=
  let n := argN q 0
  let p := panelOf n
  runCmd 0x50 q (fun s =>
    let P := s.panel p
    let own : Nat := if 35328 ≤ n then 0x03 else if isHole s n ∨ P.lost then 0x06 else if P.power ≠ .active then 0x04 else 0
    { bad := strays n 0xFFFF || decide (35328 ≤ n) || argsFrom q 1, part := none, session := false, denied := false, own := own })
    (fun s =>
      let s := onWin (fun w => { w with wait := [n] }) s
      let s := if isDead s n then s else fenceCore n s
      let s := if (s.panel p).darn.queue.contains n ∨ ((s.panel p).darn.phase ≠ .idle ∧ (s.panel p).darn.core = n) then s
        else onDarn p (fun d => { d with queue := d.queue ++ [n] }) s
      s) s

end Sys2Proof.Machine
end

