-- ==== Sys2Proof/Machine/Commands.lean ====
section
/-! DEFINITION. Further commands of the window (R282): FENCE, RETIRE_PAGE, SCRUB, RESET, LINK_TRAIN, LINK_ROLE,
BIND_OFF, and the ends of commands that take time (R281). -/

namespace Sys2Proof.Machine

open Sys2Proof

/-! FENCE (R333). -/

/-- FENCE of a core or of a site. -/
def cmdFence (q : Cmd) (s : State) : State :=
  let a := argN q 0
  let bySite := a.testBit 31
  let p := if bySite then fld a 37 32 else panelOf (fld a 15 0)
  let bad := argsFrom q 1 || (if bySite then strays a 0x3F800003FF || decide (599 < fld a 9 0) else strays a 0xFFFF || decide (35328 ≤ a))
  let site := fun (s : State) => if bySite then fld a 9 0 else siteIdx s (fld a 15 0)
  runCmd 0x51 q (fun s => { Rules.plain bad with own := panelFor (s.panel p) })
    (fun s => let (c, s) := fenceSite p (site s) s; winEnd c [] s) s

/-! RETIRE_PAGE and SCRUB (R205, R206). -/

/-- The code with which a command on a stack is turned away: the panel is lost, or its stack is off or in
self-refresh. -/
def stackFor (P : Panel) : Nat := if P.lost then 0x06 else if !stackAwake P.stack then 0x04 else 0

/-- RETIRE_PAGE: ends with PAGE_RETIRE_DONE. -/
def cmdRetire (q : Cmd) (s : State) : State :=
  let p := argN q 0
  let pg := argN q 1
  let bad := strays p 0x3F || strays pg 0x1FFFFFF || argsFrom q 2
    || (decide (deviceBase / 4096 ≤ pg) && decide (pg < stagingBase / 4096))
  runCmd 0x52 q (fun s =>
    let K := s.stack p
    let full := (!K.entries.contains pg && decide (1024 ≤ K.entries.length)) || decide (16384 ≤ K.spares)
    { Rules.plain bad with
      own := if stackFor (s.panel p) ≠ 0 then stackFor (s.panel p) else if K.retiring.isSome then 0x04 else if full then 0x0D else 0 })
    (fun s => onWin (fun w => { w with wait := [p] }) (s.onStack p (fun K => { K with retiring := some pg }))) s

/-- PAGE_RETIRE_DONE, with the end of its command: RES0 is the spare page. -/
def pageRetired (p : Nat) (s : State) : State :=
  let sp := (s.stack p).spares
  if (s.stack p).retiring.isNone then s
  else
    let s := retireDone p s
    match s.host.win with
    | some w => if w.op = 0x52 ∧ w.wait = [p] then winEnd 0 [sp] s else s
    | none => s

/-- SCRUB: ends when its pass has read its last unit. -/
def cmdScrub (q : Cmd) (s : State) : State :=
  let p := argN q 0
  let u := argN q 1
  let m := argN q 2
  let bad := strays p 0x3F || strays u 0xFFFFFFF || argsFrom q 3 || decide (m = 0) || decide (2 ^ 20 < m) || decide (2 ^ 28 < u + m)
  runCmd 0x53 q (fun s => { Rules.plain bad with own := stackFor (s.panel p) })
    (fun s => onWin (fun w => { w with wait := [p] }) (s.onStack p (fun K => { K with pass := some { unit := u, left := m } }))) s

/-- The corrected and the uncorrectable sectors that the next unit of a commanded pass meets. -/
def passCounts (s : State) (p : Nat) (r : ScrubPass) : Nat × Nat :=
  let l := (List.range 8).map (fun i => decideAt s p (r.unit * 512 + 64 * i) (ownerAw s p (r.unit * 512 + 64 * i)))
  ((l.filter (fun o => match o with | .corrected _ _ => true | _ => false)).length
    , (l.filter (fun o => match o with | .uncorrectable _ => true | _ => false)).length)

/-- PATROL_SCRUB_READ, with the counts and the end of a SCRUB command. -/
def scrubRead (p : Nat) (s : State) : State :=
  match (s.stack p).pass with
  | none => scrubNow p s
  | some r =>
    if !stackAwake (s.stack p) || decide ((s.stack p).fill ≠ .none) then s
    else
      let (c, u) := passCounts s p r
      let s := scrubNow p s
      match s.host.win with
      | some w =>
        if w.op = 0x53 ∧ w.wait = [p] then
          let s := onWin (fun w => { w with res0 := w.res0 + c, res1 := w.res1 + u }) s
          if (s.stack p).pass.isNone then winEnd 0 [w.res0 + c, w.res1 + u] s else s
        else s
      | none => s

/-! RESET (R344). -/

/-- The mask of a target of a level (R346). -/
def targetMask (level : Nat) : Nat :=
  match level with
  | 0 => 0x3FFFF | 1 => 0xFFFF | 2 => 0x3F | 3 => 0x3 | 6 => 0xF | _ => 0

/-- Check 1 of RESET. -/
def resetBad (s : State) (level t : Nat) : Bool :=
  decide (level = 7) || strays t (targetMask level) || (decide (level ≤ 1) && decide (35328 ≤ targetCore t))
    || (decide (level = 3) && !(s.part t).defined)

/-- RESET's own conditions. -/
def resetOwn (s : State) (level t : Nat) : Nat :=
  if level ≤ 1 then
    let n := targetCore t
    let P := s.panel (panelOf n)
    if isHole s n ∨ P.lost then 0x06 else if P.power = .off then 0x04 else 0
  else if level = 2 then (if (s.panel t).lost then 0x06 else if (s.panel t).power = .off then 0x04 else 0)
  else if level = 3 then (if (panelsOf s t).any (fun p => decide ((s.panel p).power = .off) && !(s.panel p).lost) then 0x04 else 0)
  else 0

/-- A MODULE or TRAY_POWER_CYCLE reset of source 3 fires 1 ms after the latch (R344). -/
def scheduleReset (level : Nat) (s : State) : State :=
  let r : RunReset := { source := 3, level := level, target := 0, escalated := false, phase := .fired, since := s.now + 100000, at_ := s.now + 100000 }
  s.onRst (fun C => { C with running := C.running ++ [r] })

/-- RESET. -/
def cmdReset (q : Cmd) (s : State) : State :=
  let level := fld (argN q 0) 2 0
  let t := argN q 1
  runCmd 0x40 q (fun s =>
    { Rules.plain (strays (argN q 0) 0x7 || argsFrom q 2 || resetBad s level t) with own := resetOwn s level t })
    (fun s =>
      if level = 4 ∨ level = 5 then scheduleReset level (winEnd 0 [] s)
      else fireReset 3 level t false s) s

/-! Links (R226, R228, R249, R282). -/

/-- LINK_TRAIN ends once no named port is in TRAINING. -/
def trainEnds (s : State) : State :=
  match s.host.win with
  | some w =>
    if w.op = 0x30 ∧ w.wait.all (fun o => decide ((s.port o).state ≠ .training)) then
      let up := ((w.wait.filter (fun o => decide ((s.port o).state = .up))).map (2 ^ ·)).sum
      let down := ((w.wait.filter (fun o => decide ((s.port o).state ≠ .up))).map (2 ^ ·)).sum
      winEnd 0 [up, down] s
    else s
  | none => s

/-- LINK_TRAIN reaches a port: one that is DOWN or in MISMATCH trains (R226). -/
def trainPort (o : Nat) (s : State) : State :=
  let P := s.port o
  if (P.state = .down ∨ P.state = .mismatch) ∧ P.role ≠ .off ∧ !P.inReset then startTraining o s else s

/-- LINK_TRAIN. -/
def cmdTrain (q : Cmd) (s : State) : State :=
  let a := argN q 0
  let ports := (List.range 16).filter (fun o => a.testBit o)
  runCmd 0x30 q (fun _ => Rules.plain (strays a 0xFFFF || argsFrom q 1))
    (fun s => trainEnds (onWin (fun w => { w with wait := ports }) (ports.foldl (fun s o => trainPort o s) s))) s

/-- The role of a code. -/
def roleOf (c : Nat) : Role := match c with | 1 => .ring | 2 => .pipe | 3 => .reduce | 4 => .feed | _ => .off

/-- A job port's partition loads its records (R228, R240, R262): a new job's header is fresh, and a partition in HOLD then
proposes what it gives. -/
def loadRecords (k job : Nat) (s : State) : State :=
  let h := hdrOf s k
  let J := s.job k
  let s := readUnitAt k hdrBase s
  if job ≠ h.job then
    let s := freshHeader k job (s.onJob k (fun J => { J with decided := none, lastStep := 2 ^ 32, stopped := false, repeating := none }))
    if J.hold then sendRejoins k (saveState k (s.onJob k (fun J => { J with resume := ownProposal s k, resumeAt := s.now }))) else s
  else if !J.hold && !J.stepOpen && J.decided.isNone && decide (h.begun ≠ freshStep) && decide (h.begun ≠ h.applied) then
    (enterHold k J.cause true s).onJob k (fun L => { L with voided := h.begun, voids := J.voids })
  else s

/-- The port takes a new role (R228): its link drops, its numbers and credits are reset, it trains. -/
def assignRole (o : Nat) (r : Role) (commit : Bool) (job : Nat) (s : State) : State :=
  let gone := decide ((s.port o).state = .failed) || decide ((s.port o).state = .absent)
  let s := if gone then s else portTo o .off s
  let s := s.onPort o (fun P =>
    { ({ P with buf := [], ctl := [], rx := [], fwds := [] } : Port).relink with
      role := r, commitOut := commit, job := job, flushing := false, rejoined := false, held := false })
  let s := if r.job then (match portPart s o with
    | some k =>
      let s := loadRecords k job s
      s.onPort o (fun P => { P with held := (s.job k).hold, flushing := (s.job k).hold })
    | none => s) else s
  if gone then s else if r = .off then s else if portGone s o then portTo o .absent s else startTraining o s

/-- LINK_ROLE. -/
def cmdRole (q : Cmd) (s : State) : State :=
  let a := argN q 0
  let o := fld a 3 0
  let r := roleOf (fld a 6 4)
  let job := fld a 31 16
  runCmd 0x31 q (fun s =>
    let k := portPart s o
    let other := decide (r ≠ .off) && (List.range 16).any (fun p =>
      p != o && (s.port p).role.job && decide ((s.port p).job = job) && (portPart s p).isSome && portPart s p != k)
    let bad := strays a 0xFFFF00FF || argsFrom q 1 || decide (4 < fld a 6 4) || (decide (r ≠ .off) && k.isNone) || other
    let open_ : Bool := match k with | some k => (s.job k).stepOpen | none => false
    { bad := bad, part := k, session := r.job, denied := false
      own := if !(s.port o).entries.isEmpty || open_ then 0x04 else 0 })
    (fun s => winEnd 0 [] (assignRole o r (a.testBit 7) job s)) s

/-! Partition commands (R281, R282). -/

/-- A partition command is accepted: the window completes OK, the partition is busy. -/
def acceptPart (n op : Nat) (q : Cmd) (c : PCmd) (s : State) : State :=
  winEnd 0 [] (s.onPart n (fun K => { K with cmd := some c, opcode := op, tag := q.tag.toNat, code := 0, progress := 0 }))

/-- A partition command with nothing set. -/
def PCmd.mk0 (kind : PCmdKind) (until_ : Nat) : PCmd :=
  { kind := kind, goal := 0, left := [], auto := false, total := 0, reject := none, until_ := until_, failed := false, code := 0, lostThen := [] }

/-- The last decided step (RES0 of BIND_OFF and SESSION_CLOSE): the last of this run, else the header's. -/
def lastDecided (s : State) (k : Nat) : Nat := if (s.job k).lastStep < 2 ^ 32 then (s.job k).lastStep else (hdrOf s k).committed

/-- Contexts stopped, sequencers halted, job ports OFF (R282 BIND_OFF step 2). -/
def quietPart (k : Nat) (s : State) : State :=
  let s := wakeFor k s
  let s := (panelsOf s k).foldl (fun s p => stopPanel p s) s
  let s := ((panelsOf s k).filter (fun p => !(s.panel p).lost)).foldl (fun s p => haltSeq p s) s
  portsOff k s

/-- BIND_OFF. -/
def cmdBindOff (q : Cmd) (s : State) : State :=
  let n := fld (argN q 0) 1 0
  let lim := if argN q 1 = 0 then 10 ^ 9 else argN q 1
  runCmd 0x41 q (fun _ => { Rules.on (strays (argN q 0) 0x3 || argsFrom q 2) n 0 with session := true })
    (fun s => acceptPart n 0x41 q (PCmd.mk0 .bindOff (s.now + lim)) s) s

/-- BIND_OFF goes on once no step is open. -/
def bindOffEnd (k : Nat) (s : State) : State :=
  if (s.job k).stepOpen then s
  else
    let r := lastDecided s k
    let s := endJob k (quietPart k s)
    partEnd k 0 [r] (s.onPart k (fun K => { K with fault := false }))

/-- BIND_OFF_TIMEOUT: its limit has passed with the step still open. The void takes cause 3. -/
def bindOffTimeoutNow (k : Nat) (s : State) : State :=
  match (s.part k).cmd with
  | some c =>
    if c.kind = .bindOff ∧ c.until_ ≤ s.now ∧ (s.job k).stepOpen then
      partEnd k 0x05 [] (quietPart k (voidStep k 3 false s))
    else s
  | none => s

/-! Limits of window commands (R281). -/

/-- The limit of a command that holds the window, in ticks (R282); RESET ends by its own rules. -/
def winLimit (op : Nat) : Option Nat :=
  match op with
  | 0x12 => some 5000000
  | 0x30 => some 6000000
  | 0x50 => some 1000000
  | 0x52 => some 100000
  | 0x53 => some 100000000
  | _ => none

end Sys2Proof.Machine
end

