-- ==== Sys2Proof/Machine/Image.lean ====
section
/-! DEFINITION. The context image (R54, R375) as the debug window reads and writes it, byte by byte: the debug
buffer of a halted context. -/

namespace Sys2Proof.Machine

open Sys2Proof

/-- Byte `i` of a number. -/
def byteN (v i : Nat) : Byte := BitVec.ofNat 8 (v / 256 ^ i)
/-- A number with byte `i` replaced. -/
def setByteN (v i : Nat) (b : Byte) : Nat := setFld v (8 * i + 7) (8 * i) b.toNat

/-- Byte `off` of the debug buffer of context `k` of core `n` (R375). What a save would not write is the save area's
own byte. -/
def imgByte (s : State) (n k off : Nat) : Byte :=
  let x := s.ctxAt n k
  let raw := memGet s.mem (spdKey n (saveBase k + off))
  if off < 0x40 then nth 0 (imgHeader x) off
  else if off < 0x140 then byteN (x.regs.getS ((off - 0x40) / 8)).toNat (off % 8)
  else if off < 0x1C0 then byteN (x.regs.getA ((off - 0x140) / 8)).toNat (off % 8)
  else if off < 0x200 then byteN (x.getK ((off - 0x1C0) / 8)).toNat (off % 8)
  else if off < 0x240 then nth 0 (imgBlock x) (off - 0x200)
  else if off < 0x340 then byteN (x.getC ((off - 0x240) / 32)).toNat (off % 32)
  else if off < 0x540 then byteN (slotWord (x.slot ((off - 0x340) / 32))) (off % 32)
  else if off < 0x740 then byteN (Tab.get 0 x.gens ((off - 0x540) / 8) : W64).toNat (off % 8)
  else if off < 0x2740 then byteN (x.getV ((off - 0x740) / 256) ((off - 0x740) / 4 % 64)).toNat (off % 4)
  else if off < 0x12740 ∧ x.indexed then byteN (Tab.get 0 x.acc ((off - 0x2740) / 4) : W32).toNat (off % 4)
  else raw

/-- A vector quarter or accumulator row that the image shows poisoned (R54, R145). -/
def imgPois (s : State) (n k off : Nat) : Bool :=
  let x := s.ctxAt n k
  if 0x740 ≤ off ∧ off < 0x2740 then x.getVP ((off - 0x740) / 256) ((off - 0x740) / 64 % 4)
  else if 0x2740 ≤ off ∧ off < 0x12740 ∧ x.indexed then Tab.get false x.accp ((off - 0x2740) / 64)
  else false

/-- Writes byte `off` of the image into the context; a generator is what was written, zero too (log entry 134). -/
def imgPutCtx (off : Nat) (b : Byte) (x : Ctx) : Ctx :=
  if off < 0x40 then putHeader ((imgHeader x).set off b) x
  else if off < 0x140 then
    let r := (off - 0x40) / 8
    { x with regs := x.regs.setS r (BitVec.ofNat 64 (setByteN (x.regs.getS r).toNat (off % 8) b)) }
  else if off < 0x1C0 then
    let r := (off - 0x140) / 8
    { x with regs := x.regs.setA r (BitVec.ofNat 48 (setByteN (x.regs.getA r).toNat (off % 8) b)) }
  else if off < 0x200 then
    let r := (off - 0x1C0) / 8
    x.setK r (BitVec.ofNat 64 (setByteN (x.getK r).toNat (off % 8) b))
  else if off < 0x240 then putBlock ((imgBlock x).set (off - 0x200) b) x
  else if off < 0x340 then
    let r := (off - 0x240) / 32
    { x with c := Tab.put 0 x.c r (BitVec.ofNat 256 (setByteN (x.getC r).toNat (off % 32) b)) }
  else if off < 0x540 then
    let r := (off - 0x340) / 32
    { x with q := Tab.set x.q r (putSlotWord (setByteN (slotWord (x.slot r)) (off % 32) b) (x.slot r)) }
  else if off < 0x740 then
    let r := (off - 0x540) / 8
    { x with gens := Tab.set x.gens r (BitVec.ofNat 64 (setByteN (Tab.get 0 x.gens r : W64).toNat (off % 8) b)) }
  else if off < 0x2740 then
    let (r, j) := ((off - 0x740) / 256, (off - 0x740) / 4 % 64)
    x.setV r j (BitVec.ofNat 32 (setByteN (x.getV r j).toNat (off % 4) b))
  else if off < 0x12740 ∧ x.indexed then
    let r := (off - 0x2740) / 4
    { x with acc := Tab.put 0 x.acc r (BitVec.ofNat 32 (setByteN (Tab.get 0 x.acc r : W32).toNat (off % 4) b)) }
  else x

/-- Writes byte `off` of the image of context `k` of core `n`. -/
def imgPut (n k off : Nat) (b : Byte) (s : State) : State :=
  let x := s.ctxAt n k
  if off < 0x2740 ∨ (off < 0x12740 ∧ x.indexed) then s.onCtx n k (imgPutCtx off b)
  else spdWrite n [(saveBase k + off, b)] [] s

/-- Writes consecutive bytes of the image. -/
def imgWrite (n k : Nat) : Nat → List Byte → State → State
  | _, [], s => s
  | off, b :: t, s => imgWrite n k (off + 1) t (imgPut n k off b s)

end Sys2Proof.Machine
end

