-- ==== Sys2Proof/Machine/DebugWin.lean ====
section
/-! DEFINITION. The debug window and JTAG (R374 to R377, R380): halting, resuming and stepping a core, and
what each access meets. -/

namespace Sys2Proof.Machine

open Sys2Proof

/-! Level and target (R370, R376). -/

/-- The level that governs core `n`: D2 holds for the cores of its partition only. -/
def levelFor (s : State) (n : Nat) : Nat :=
  if s.ubide.dbg = 2 ∧ partOf s (panelOf n) ≠ some s.ubide.dpart then 1 else s.ubide.dbg

/-- The status of an access to the selected core that needs level `need`: 0 where R376 serves it. -/
def dbgTarget (s : State) (need : Nat) : Nat :=
  let n := s.dbg.core
  if s.ubide.dbg = 0 then 0x0F
  else if nCores ≤ n then 0x06
  else
    let P := s.panel (panelOf n)
    if P.lost || isDead s n then 0x06
    else if levelFor s n < need then 0x0F
    else if P.power ≠ .active then 0x04
    else if P.inReset || (s.core n).inReset then 0x07
    else 0

/-- Core `n` is halted, its context saved in the debug buffer. -/
def isHalted (s : State) (n : Nat) : Bool := (s.core n).isHalted

/-- The status of an access to the context image (R375, R376). -/
def dbgImage (s : State) : Nat :=
  let st := dbgTarget s 2
  if st ≠ 0 then st
  else
    let n := s.dbg.core
    let k := s.dbg.ctx
    if (s.core n).power = .doze ∧ !isHalted s n then 0x04
    else
    match (s.ctxAt n k).state with
    | .parked | .faulted => 0
    | .running | .waiting => if isHalted s n && (s.core n).halted == some k then 0 else 0x04
    | _ => 0x04

/-! Halt, resume, step (R375). -/

/-- Resumes a halted core: the image, as it stands, is restored (R54, R375). -/
def resumeCore (n : Nat) (s : State) : State :=
  match (s.core n).halted with
  | none => s
  | some k =>
    let x := s.ctxAt n k
    let s := (unhalt n s).onCore n (fun c => { c with haltReq := false, stepReq := false })
    if regionOk (s.core n) x.region && loopsOk x.loops then reloadLists n k s
    else contextFault n { exc := .illegal, slot := 0, pc := x.pc } s

/-- Leaving D2 resumes every halted core, and a halt or step that has not come about is dropped (R373). -/
def resumeAll (s : State) : State :=
  (s.cores.map (·.1)).foldl (fun s n =>
    if (s.core n).haltReq || (s.core n).stepReq || (s.core n).halted.isSome then
      (resumeCore n s).onCore n (fun c => { c with haltReq := false, stepReq := false })
    else s) s

/-- A refused window access (R374). -/
def dbgRefuse (st : Nat) (s : State) : State :=
  let s := { s with dbg := { s.dbg with lastSt := st } }
  s.onHost (fun h => { h with aer := h.aer + 1, ur := inc 16 h.ur, lastSt := st, out := { data := [], ep := false, status := 1 } })

/-- DBG_CTL.halt: it is asked of the selected core and stays so, whatever is selected then (log entry 126). -/
def haltNow (s : State) : State :=
  let st := dbgTarget s 2
  if st ≠ 0 then dbgRefuse st s
  else if isHalted s s.dbg.core then s
  else haltTry s.dbg.core (s.onCore s.dbg.core (fun c => { c with haltReq := true, stepReq := false }))

/-- DBG_CTL.resume. -/
def resumeNow (s : State) : State :=
  let st := dbgTarget s 2
  if st ≠ 0 then dbgRefuse st s
  else if isHalted s s.dbg.core then resumeCore s.dbg.core s else s

/-- The bundle at pc of the running context as its fetch delivers it (R33, R36, R134); the issue that follows counts
the read. -/
def bundleAt (s : State) (n : Nat) : Bundle :=
  let c := s.core n
  let w := leNat (spdRead 0 n (codeBase c c.ctx + 16 * c.ctx.pc) 16 s).1.bytes
  { c := BitVec.ofNat 32 (fld w 127 96), m := BitVec.ofNat 32 (fld w 95 64), v := BitVec.ofNat 32 (fld w 63 32), s := BitVec.ofNat 32 (fld w 31 0) }

/-- DBG_CTL.step: the image is restored, one bundle issues, and the core halts again. A bundle that an interlock holds,
and the end of a wait or rest that the context stands in, come first. -/
def stepNow (s : State) : State :=
  let n := s.dbg.core
  let st := dbgTarget s 2
  if st ≠ 0 then dbgRefuse st s
  else if !isHalted s n then s
  else
    let s := resumeCore n s
    if !(s.core n).active || (s.core n).boundary.isSome then s
    else
      let s := s.onCore n (fun c => { c with stepReq := true })
      if (s.ctx n).state = .running then haltTry n (issueRaw n (bundleAt s n) s) else s

/-- A write of DBG_SEL (R380). -/
def selWrite (v : Nat) (s : State) : State :=
  if s.ubide.dbg = 0 then dbgRefuse 0x0F s
  else if isHalted s s.dbg.core then dbgRefuse 0x04 s
  else { s with dbg := { s.dbg with core := fld v 15 0, ctx := fld v 17 16 } }

/-- A write of DBG_CTL (R374, R380); of several of its bits set, the first of halt, resume and step acts (log entry 127). -/
def ctlWrite (v : Nat) (s : State) : State :=
  if s.ubide.dbg < 2 then dbgRefuse 0x0F s
  else if v.testBit 63 then haltNow s
  else if v.testBit 62 then resumeNow s
  else if v.testBit 61 then stepNow s
  else s

/-- Whether a selected core reads as one at all. -/
def selAbsent (s : State) : Bool := decide (nCores ≤ s.dbg.core)

/-- The fields of DBG_SEL and DBG_CTL (R380). -/
def dbgFlds (off : Nat) (s : State) : List RFld :=
  if off = 0 then [fldOf 16 2 s.dbg.ctx, fldOf 0 16 s.dbg.core]
  else if off = 8 then
    [fldOf 63 1 (b2n (!selAbsent s && (s.core s.dbg.core).haltReq)), fldOf 60 1 (b2n (!selAbsent s && isHalted s s.dbg.core))
      , rcOf 40 8 s.dbg.lastSt (fun s => { s with dbg := { s.dbg with lastSt := 0 } })]
  else []

/-! The window (R374). -/

/-- What an access returned to its requester (R269, R270). -/
def reply (data : List Byte) (ep : Bool) (status : Nat) (s : State) : State :=
  s.onHost (fun h => { h with out := { data := data, ep := ep, status := status }, ep := if ep then inc 16 h.ep else h.ep })

/-- A read or write of the selected core's scratchpad: as a host access (R374). -/
def dbgSpd (off size : Nat) (wr : Bool) (v : Nat) (s : State) : State :=
  let n := s.dbg.core
  let st := dbgTarget s 2
  let st := if st ≠ 0 then st else hostSpdStatus s n off size
  if st ≠ 0 then dbgRefuse st s
  else if wr then reply [] false 0 (spdWrite n (atOff off (leBytes size v)) [] s)
  else
    let (r, s) := spdRead 3 n off size s
    reply r.bytes (!r.bad.isEmpty) 0 s

/-- An access to the image of context `k` of core `n`: the debug buffer of a halted context, and the save area of a
PARKED or FAULTED one, read and written as a host reads and writes scratchpad (R133, R135, R145, R147, R375). -/
def imgAccess (n k off size : Nat) (wr : Bool) (v : Nat) (s : State) : State :=
  if (s.core n).halted = some k then
    if wr then reply [] false 0 (imgWrite n k off (leBytes size v) s)
    else reply ((List.range size).map (fun i => imgByte s n k (off + i))) ((List.range size).any (fun i => imgPois s n k (off + i))) 0 s
  else if wr then reply [] false 0 (spdWrite n (atOff (saveBase k + off) (leBytes size v)) [] s)
  else
    let (r, s) := spdRead 3 n (saveBase k + off) size s
    reply r.bytes (!r.bad.isEmpty) 0 s

/-- An access at window offset `y`. The vendor range at D3 has no stated contents: a read returns free bytes (log
entry 3), and what a write does is not given. -/
def windowAccess (y size : Nat) (wr : Bool) (v : Nat) (s : State) : Host.Outcome State Fault Refusal :=
  if (size ≠ 4 ∧ size ≠ 8) ∨ y % size ≠ 0 ∨ 2 ^ 24 ≤ y then .next (s.onHost (fun h => { h with aer := h.aer + 1, ur := inc 16 h.ur, out := { data := [], ep := false, status := 1 } }))
  else if y < 0x10 then
    if s.ubide.dbg = 0 then .next (dbgRefuse 0x0F s)
    else if wr then
      let w := if y % 8 = 0 then v else v * 2 ^ 32
      .next (let s := reply [] false 0 s; if y < 8 then selWrite (if y = 0 then v else s.dbg.core + s.dbg.ctx * 2 ^ 16) s else ctlWrite w s)
    else
      let (b, s) := readReg (dbgFlds (y - y % 8) s) (y % 8) size s
      .next (reply b false 0 s)
  else if 0x10000 ≤ y ∧ y < 0x20000 then
    let st := dbgTarget s 1
    if st ≠ 0 then .next (dbgRefuse st s)
    else if wr then .next (reply [] false 0 s)
    else
      let p := panelOf s.dbg.core
      let (b, s) := unitRead p 0x10 (localOf s.dbg.core * 0x10000 + (y - 0x10000)) size s
      .next (reply b false 0 s)
  else if 0x20000 ≤ y ∧ y < 0x34000 then
    let st := dbgImage s
    let (n, k, off) := (s.dbg.core, s.dbg.ctx, y - 0x20000)
    if st ≠ 0 then .next (dbgRefuse st s)
    else .next (imgAccess n k off size wr v s)
  else if 0x400000 ≤ y ∧ y < 0xA00000 then .next (dbgSpd (y - 0x400000) size wr v s)
  else if 0xA00000 ≤ y then
    if s.ubide.dbg < 3 then .next (dbgRefuse 0x0F s)
    else if wr then .refused .vendorRange
    else
      let (v, s) := freshNat s
      .next (reply (leBytes size v) false 0 s)
  else .next (reply (if wr then [] else List.replicate size 0) false 0 s)

/-- DEBUG_WINDOW_ACCESS: over BAR0, or over JTAG where DBGACC reaches the window (R374, R377). -/
def windowNow (jtag : Bool) (y size : Nat) (wr : Bool) (v : Nat) (s : State) : Host.Outcome State Fault Refusal :=
  let reached := if jtag then s.pins.powered && !s.pins.tapReset && decide (s.pins.jtag = .dbgacc) && decide (2 ≤ s.ubide.dbg) else pcieUp s
  if reached then windowAccess y size wr v s else .next s

/-! JTAG (R377). -/

/-- The levels of the sideband pins, in the order in which R377 names them, bit 0 first; the two of I3C are what the tray
drives (log entry 128). Under EXTEST the outputs carry what the boundary register holds. -/
def pinLevels (s : State) : BitVec 7 × State :=
  let (i, s) := freshNat s
  let own := fun (b : Nat) (v : Bool) => if s.pins.jtag = .extest ∧ !s.pins.tapReset then s.pins.boundary.getLsbD b else v
  (BitVec.ofNat 7 (b2n (!s.pins.perst) + 2 * b2n (!s.pins.modReset) + 4 * b2n (own 2 (!alertLow s))
    + 8 * b2n (own 3 (!s.power.tripPin)) + 16 * b2n (own 4 (!s.pins.trayReq)) + 32 * (i % 4)), s)

/-- JTAG_INSTRUCTION: what is no instruction of R377, and DBGACC below D2, selects the bypass register; SAMPLE/PRELOAD
captures the sideband pins. A module without input has no TAP; an instruction that arrives says that TRST# is high (R388;
log entry 128). -/
def jtagNow (c : JtagCode) (s : State) : State :=
  if !s.pins.powered then s
  else
    let (b, s) := if c = .samplePreload then pinLevels s else (s.pins.boundary, s)
    { s with pins := { s.pins with tapReset := false, boundary := b, jtag := match c with | .other => .bypass | c => c } }

/-- The 32 bits of IDCODE (R377). -/
def idcode : Nat := 0x10B648B1

/-- The register that the TAP connects: IDCODE, boundary scan, the debug window, or bypass. -/
def tapPath (s : State) : JtagCode := if s.pins.jtag = .dbgacc ∧ s.ubide.dbg < 2 then .bypass else s.pins.jtag

/-- TAP_RESET. -/
def tapResetNow (s : State) : State := { s with pins := { s.pins with tapReset := true, jtag := .idcode } }

/-- DYNAMIC_ADDRESS_ASSIGNMENT (R388). -/
def assignI3c (da : BitVec 7) (s : State) : State :=
  if s.pins.powered then { s with pins := { s.pins with i3c := some da } } else s

end Sys2Proof.Machine
end

