-- ==== Sys2Proof/Machine/Session.lean ====
section
/-! DEFINITION. Sessions, attestation, firmware, the owner record and the debug level (R288 to R292, R360 to
R373, R350). -/

namespace Sys2Proof.Machine

open Sys2Proof

/-! The owner record (R365) and byte fields. -/

/-- Bytes [o, o + n) of a record. -/
def cut (l : List Byte) (o n : Nat) : List Byte := (l.drop o).take n
/-- A little-endian field. -/
def cutN (l : List Byte) (o n : Nat) : Nat := leNat (cut l o n)
/-- A list of exactly `n` bytes. -/
def fix (n : Nat) (l : List Byte) : List Byte := (l ++ List.replicate n 0).take n
/-- Every byte is zero. -/
def allZero (l : List Byte) : Bool := l.all (fun b => b == 0)
/-- The module serial in 8 bytes (R288). -/
def serialBytes : List Byte := leBytes 8 Config.serial.toNat

/-- Key `k` is enrolled in a record. -/
def enrolled (r : List Byte) (k : Nat) : Bool := (cutN r 88 1).testBit k
/-- Its public key. -/
def recordKey (r : List Byte) (k : Nat) : List Byte := cut r (96 + 32 * k) 32

/-! Lockout (R289). -/

/-- The tick until which sessions are locked out; 0 without a lockout. -/
def lockUntil (u : Ubide) : Nat :=
  if u.failures < 5 then 0 else u.lastFail + min (2 ^ (u.failures - 5)) 4096 * 100000000
/-- The milliseconds of lockout left. -/
def lockMs (s : State) : Nat := ceilDiv (lockUntil s.ubide - s.now) 100000
/-- A lockout runs. -/
def locked (s : State) : Bool := decide (s.now < lockUntil s.ubide)
/-- A failure is counted. -/
def countFail (s : State) : State := s.onUbide (fun u => { u with failures := inc 8 u.failures, lastFail := s.now })

/-! Opening, resuming, closing (R288, R290, R291). -/

/-- Zeroizes every core of a partition (R142, R143): those that hold nothing are zero already. -/
def zeroizePart (k : Nat) (s : State) : State := (coresIn s k).foldl (fun s n => zeroizeCore n s) (
  let s := { s with
    lines := s.lines.filter (fun e => !(s.part k).has (panelOf (e.1 / 0x18000)))
    mem := s.mem.filter (fun c => !(decide (c.1 < 2 ^ 46) && (s.part k).has (panelOf (coreAt (c.1 / 2 ^ 30 % 256) (c.1 / 2 ^ 38))))) }
  (panelsOf s k).foldl (fun s p => s.onPanel p (fun P => { P with fresh := [] })) s)

/-- Loads the partition's key into its stack interfaces (R202). -/
def loadKey (k : Nat) (s : State) : State :=
  (panelsOf s k).foldl (fun s p => s.onStack p (fun K => { K with key := (s.part k).key })) s

/-- The session becomes OPEN (R288): key, fresh records, zeroized scratchpad. -/
def openSession (k : Nat) (s : State) : State :=
  let key := s.ubide.nextKey
  let s := s.onUbide (fun u => { u with nextKey := key + 1 })
  let s := loadKey k (s.onPart k (fun K => { K with key := some (Config.sessionKey key) }))
  let s := s.onJob k (fun J => { JobSt.init with cause := J.cause, voids := J.voids, skips := J.skips, replays := J.replays })
  let s := freshRecords k 0 s
  let s := zeroWindow k (zeroizePart k s)
  s.onPart k (fun K => { K with session := .opened })

/-- The session is resumed (R290): the same key, the records kept. -/
def resumeSession (k : Nat) (s : State) : State :=
  stacksFollow k (loadKey k (s.onPart k (fun K => { K with session := .opened })))

/-- D2 falls to D1 where its partition's session leaves OPEN (R373). -/
def dropD2 (k : Nat) (s : State) : State :=
  if s.ubide.dbg = 2 ∧ s.ubide.dpart = k then (resumeAll s).onUbide (fun u => { u with dbg := 1 }) else s

/-- The first part of closing a session (R291): with force its contexts and sequencers stop, and the last step is
recorded. -/
def closeBegin (k : Nat) (force : Bool) (s : State) : State :=
  let s := dropD2 k s
  endJob k (if force then quietPart k s else s)

/-- The rest of closing a session (R291): scratchpad zeroized, key destroyed. -/
def closeEnd (k : Nat) (s : State) : State :=
  let s := dropKey k (zeroWindow k (zeroizePart k s))
  stacksFollow k (s.onPart k (fun K => { K with session := .closed }))

/-- Closes the session of a partition at once. -/
def closeSession (k : Nat) (force : Bool) (s : State) : State := closeEnd k (closeBegin k force s)

/-- The panels of a partition that rest. -/
def restingOf (s : State) (k : Nat) : List Nat :=
  (panelsOf s k).filter (fun p => !(s.panel p).lost && (decide ((s.panel p).power = .nap) || decide ((s.panel p).power = .sleep)))

/-- SESSION_CLOSE ends once the panels that it has raised are ACTIVE: they are zeroized with the others and go back to their
former state (R143, R291). `res1` of the window tells those that were in SLEEP. -/
def closeEnds (s : State) : State :=
  match s.host.win with
  | some w =>
    let k := fld (w.args.headD 0).toNat 1 0
    if w.op = 0x04 ∧ w.wait ≠ [] ∧ !w.wait.any (fun p => (restingOf s k).contains p) then
      let s := w.wait.foldl (fun s p =>
        if (s.panel p).power = .active ∧ !(s.panel p).lost then enterRest p (if w.res1.testBit p then .sleep else .nap) s else s) (closeEnd k s)
      winEnd 0 [w.res0] s
    else s
  | none => s

/-- SESSION_CLOSE once R280 lets it. -/
def closeBody (k : Nat) (force : Bool) (s : State) : State :=
  let r := lastDecided s k
  let s := closeBegin k force s
  let rest := restingOf s k
  if rest = [] then winEnd 0 [r] (closeEnd k s)
  else
    onWin (fun w =>
      { w with wait := rest, res0 := r, res1 := ((rest.filter (fun p => decide ((s.panel p).power = .sleep))).map (2 ^ ·)).sum })
      (wakeFor k s)

/-- A session opened or resumed needs this of its partition. -/
def authState (s : State) (k : Nat) (resume : Bool) : Bool :=
  let st := (s.part k).session
  (s.part k).defined && decide (pstate s k = 3) &&
    (if resume then decide (st = .suspended) else decide (st = .none) || decide (st = .closed))

/-- The proof of a challenge is good (R288). -/
def proofOk (s : State) (c : Challenge) : Bool :=
  match s.ubide.record with
  | none => false
  | some r =>
    if c.byKey then
      enrolled r c.idx && Config.ed25519Verify (recordKey r c.idx) (c.nonce ++ leBytes 1 c.n ++ serialBytes) s.ubide.proof
    else !allZero (cut r 24 64) && decide (sha512 (cut r 24 64 ++ c.nonce) = s.ubide.proof)

/-- The words of a byte string. -/
def wordsOf (n : Nat) (l : List Byte) : List Nat := (List.range n).map (fun i => cutN l (8 * i) 8)

/-- Phase 0 draws a challenge (R288). -/
def challengeNow (k : Nat) (byKey : Bool) (idx : Nat) (s : State) : State :=
  let (f, s) := freshNat s
  let nonce := leBytes 32 f
  let salt := match s.ubide.record with | some r => cut r 8 16 | none => List.replicate 16 0
  let s := s.onUbide (fun u => { u with challenge := some { nonce := nonce, n := k, byKey := byKey, idx := idx, since := s.now }, nonce := nonce })
  winEnd 0 (wordsOf 4 nonce ++ wordsOf 2 salt ++ [s.ubide.failures]) s

/-- The pending challenge is consumed (R288, R292). -/
def consumeChallenge (s : State) : State := s.onUbide (fun u => { u with challenge := none, nonce := List.replicate 32 0 })

/-- Phase 1 with the challenge that was pending (R288, R289). -/
def proveNow (resume : Bool) (k : Nat) (byKey : Bool) (idx : Nat) (c : Option Challenge) (s : State) : State :=
  match c with
  | none => winEnd 0x04 [] s
  | some c =>
    if c.since + 10 ^ 9 < s.now then winEnd 0x04 [] s
    else if c.n ≠ k ∨ c.byKey ≠ byKey ∨ c.idx ≠ idx then winEnd 0x03 [] s
    else if !proofOk s c then winEnd 0x02 [] (countFail s)
    else
      let s := s.onUbide (fun u => { u with failures := 0 })
      winEnd 0 [] (if resume then resumeSession k s else openSession k s)

/-- SESSION_OPEN and SESSION_RESUME once R280 lets them: lifecycle, lockout, partition, then the phase. -/
def authBody (resume : Bool) (a : Nat) (s : State) : State :=
  let k := fld a 1 0
  let c := s.ubide.challenge
  let phase1 := a.testBit 4
  let s := if phase1 then consumeChallenge s else s
  if s.ubide.life = .blank ∨ s.ubide.life = .retired then winEnd 0x04 [] s
  else if locked s then winEnd 0x10 [lockMs s] s
  else if !authState s k resume then winEnd 0x04 [] s
  else if phase1 then proveNow resume k (a.testBit 5) (fld a 10 8) c s
  else challengeNow k (a.testBit 5) (fld a 10 8) s

/-- The rules of SESSION_OPEN and SESSION_RESUME. -/
def authRules (q : Cmd) (s : State) : Rules :=
  { bad := strays (argN q 0) 0x733 || argsFrom q 1, part := some (fld (argN q 0) 1 0), session := false
    denied := decide (s.ubide.dbg = 3), own := 0 }

/-- SESSION_OPEN. -/
def cmdOpen (q : Cmd) (s : State) : State := runCmd 0x02 q (authRules q) (authBody false (argN q 0)) s
/-- SESSION_RESUME. -/
def cmdResume (q : Cmd) (s : State) : State := runCmd 0x03 q (authRules q) (authBody true (argN q 0)) s

/-- SESSION_CLOSE. -/
def cmdClose (q : Cmd) (s : State) : State :=
  let a := argN q 0
  let n := fld a 1 0
  runCmd 0x04 q (fun s =>
    { bad := strays a 0x103 || argsFrom q 1, part := some n, session := true, denied := false
      own := if !a.testBit 8 && (s.part n).defined && partBusy s n then 0x04 else 0 })
    (closeBody n (a.testBit 8)) s

/-- RESUME_TIMEOUT (R290). -/
def resumeTimeoutNow (k : Nat) (s : State) : State :=
  let K := s.part k
  if K.session = .suspended ∧ K.suspendedAt + K.resumeS * 100000000 ≤ s.now then closeKeyless k s else s

/-! Attestation (R361). -/

/-- Where SEC_REPORT and SEC_CERT stand (R292). -/
def reportKey : Nat := 2 ^ 48 + 0x11000
def certKey : Nat := 2 ^ 48 + 0x12000
/-- Where the update buffer stands (R270). -/
def bufferKey : Nat := 2 ^ 49

/-- Bytes 0 to 447 of a report. -/
def reportBody (s : State) (nonce : List Byte) : List Byte :=
  let u := s.ubide
  let img := fun k => sha512 (installed s k).bytes
  let ver := fun k => leBytes 4 (installed s k).version
  let own := match u.record with | some r => sha512 r | none => List.replicate 64 0
  leBytes 4 0x54535441 ++ leBytes 2 1 ++ leBytes 2 512 ++ serialBytes ++ leBytes 1 u.life.code ++ leBytes 1 u.dbg
    ++ leBytes 1 fuseRev ++ leBytes 1 0 ++ leBytes 4 u.floor ++ leBytes 8 (repairWord s) ++ nonce
    ++ fix 32 Config.identityKey ++ img 0 ++ img 1 ++ img 2 ++ own ++ fix 64 Config.vendorDigest
    ++ ver 0 ++ ver 1 ++ ver 2 ++ leBytes 4 (match u.record with | some r => cutN r 4 4 | none => 0) ++ leBytes 16 0

/-- ATTEST. -/
def cmdAttest (q : Cmd) (s : State) : State :=
  runCmd 0x05 q (fun _ => Rules.plain (argsFrom q 4)) (fun s =>
    let b := reportBody s ((List.range 4).flatMap (fun i => leBytes 8 (argN q i)))
    let r := b ++ fix 64 (Config.identitySign (sha512 b))
    winEnd 0 [512] { s with mem := memPutBytes s.mem reportKey r }) s

/-! Firmware (R362 to R364, R350). -/

/-- An image of kinds 0 to 2: 0, or the code with which it is turned away (R363, R364). -/
def imageCode (l : List Byte) (floor : Nat) : Nat :=
  if cutN l 0 4 ≠ 0x4D524946 ∨ !allZero (cut l 5 3) ∨ !allZero (cut l 20 44) ∨ cutN l 16 4 + 128 ≠ l.length
      ∨ sha512 Config.vendorKey ≠ Config.vendorDigest
      ∨ !Config.ed25519Verify Config.vendorKey (sha512 (cut l 0 64 ++ l.drop 128)) (cut l 64 64) then 0x0B
  else if cutN l 12 4 < floor then 0x0B
  else 0

/-- Installs an image of a kind. -/
def installImage (k : Nat) (l : List Byte) (s : State) : State :=
  s.onUbide (fun u => { u with store := Tab.set u.store k { bytes := l, version := cutN l 8 4, svn := cutN l 12 4 } })

/-- A range of the update buffer holds a poisoned line (R270). -/
def bufferBad (s : State) (y len : Nat) : Bool :=
  s.ubide.bufPois.any (fun e => e.2 && overlap y len (64 * e.1) 64)

/-- The bytes at the start of the update buffer. -/
def bufferBytes (s : State) (len : Nat) : List Byte := memBytes s.mem bufferKey len

/-- The whole module is closed: sessions by force, keys destroyed, every core zeroized (R367, R372). -/
def closeAll (s : State) : State :=
  let s : State := (List.range 4).foldl (fun s k =>
    if (s.part k).session = .opened ∨ (s.part k).session = .suspended then closeSession k true s else dropKey k s) s
  let s : State := { s with panels := s.panels.map (fun e => (e.1, { e.2 with fresh := [] })) }
  ((s.cores.map (·.1)).filter (fun n => decide (n < 35328))).foldl (fun s n => zeroizeCore n s)
    { s with lines := [], mem := s.mem.filter (fun c => !decide (c.1 < 2 ^ 46)) }

/-- Retirement (R367). -/
def retireModule (s : State) : State := (closeAll s).onUbide (fun u => { u with record := none, life := .retired })

/-- The record's zero fields (R365). -/
def recordZero (r : List Byte) : Bool :=
  allZero (cut r 90 6) && allZero (cut r 417 95) && decide (cutN r 89 1 < 2)

/-- D of R366. -/
def recordDigest (r : List Byte) : List Byte := sha512 (cut r 0 352 ++ serialBytes)

/-- R366: the code of a record. -/
def recordCode (s : State) (r : List Byte) : Nat :=
  let auth := cut r 352 64
  let who := cutN r 416 1
  match s.ubide.life with
  | .recovery | .retired => 0x04
  | .blank =>
    if cutN r 0 4 ≠ 0x524E574F then 0x0B
    else if (allZero (cut r 24 64) && cutN r 88 1 == 0) || !recordZero r then 0x03 else 0
  | .provisioned =>
    let old := s.ubide.record.getD []
    if cutN r 0 4 ≠ 0x524E574F ∨ !recordZero r then 0x0B
    else if cutN r 4 4 ≤ cutN old 4 4 then 0x0B
    else if who < 8 ∧ enrolled old who ∧ Config.ed25519Verify (recordKey old who) (recordDigest r) auth then 0
    else if who = 0xFF ∧ cutN old 88 1 = 0 ∧ auth = sha512 (cut old 24 64 ++ recordDigest r) then 0
    else 0x02

/-- Installs a record (R366, R367). -/
def installRecord (r : List Byte) (s : State) : State :=
  let s := s.onUbide (fun u => { u with record := some r, life := .provisioned, failures := 0 })
  if cutN r 89 1 % 2 = 1 then retireModule s else s

/-- FIRMWARE_UPDATE of kind 3. -/
def updateRecord (len : Nat) (s : State) : State :=
  if s.ubide.life = .recovery ∨ s.ubide.life = .retired then winEnd 0x04 [] s
  else if locked s then winEnd 0x10 [lockMs s] s
  else if len ≠ 512 then winEnd 0x03 [] s
  else
    let r := bufferBytes s 512
    let c := if bufferBad s 0 512 then 0x0B else recordCode s r
    if c = 0 then winEnd 0 [cutN r 4 4] (installRecord r s)
    else winEnd c [] (if c = 0x02 then countFail s else s)

/-- FIRMWARE_UPDATE. -/
def cmdFirmware (q : Cmd) (s : State) : State :=
  let k := fld (argN q 0) 1 0
  let len := argN q 1
  runCmd 0x70 q (fun s =>
    { Rules.plain (strays (argN q 0) 0x3 || argsFrom q 2 || decide (2 ^ 23 < len) || decide (len < 128)) with
      denied := decide (s.ubide.dbg = 3) && decide (k = 3) })
    (fun s =>
      if k = 3 then updateRecord len s
      else if bufferBad s 0 len then winEnd 0x0B [] s
      else
        let l := bufferBytes s len
        if cutN l 4 1 ≠ k then winEnd 0x03 [] s
        else
          let c := imageCode l s.ubide.floor
          if c ≠ 0 then winEnd c [] s else winEnd 0 [cutN l 8 4] (installImage k l s)) s

/-- RECOVERY_IMAGE (R350). -/
def cmdRecovery (q : Cmd) (s : State) : State :=
  let len := argN q 0
  runCmd 0x71 q (fun _ => Rules.plain (argsFrom q 1 || decide (2 ^ 23 < len) || decide (len < 128)))
    (fun s =>
      let l := bufferBytes s len
      if bufferBad s 0 len then winEnd 0x0B [] s
      else if 2 < cutN l 4 1 then winEnd 0x03 [] s
      else
        let c := imageCode l s.ubide.floor
        if c ≠ 0 then winEnd c [] s
        else
          let s := s.onRst (fun R => { R with failedStarts := 0 })
          scheduleReset 4 (winEnd 0 [] (installImage (cutN l 4 1) l s))) s

/-! The debug level (R370 to R373). -/

/-- A refusal of DEBUG_UNLOCK by its own checks (R372, R379). -/
def unlockRefused (code : Nat) (res : List Nat) (s : State) : State := winEnd code res (countDenied 0x60 s)

/-- A certificate is good for level `L` (R371, R372). -/
def certOk (s : State) (L : Nat) (c : List Byte) : Bool :=
  let who := cutN c 5 1
  let key : Option (List Byte) :=
    if L = 3 then (if who = 0xFF then some Config.vendorDebugKey else none)
    else match s.ubide.record with
      | some r => if who < 8 ∧ enrolled r who then some (recordKey r who) else none
      | none => none
  decide (cutN c 0 4 = 0x47424444) && decide (cutN c 4 1 = L) && decide (cut c 8 8 = serialBytes)
    && decide (cutN c 16 4 = s.ubide.unlocks + 1)
    && (match key with | some k => Config.ed25519Verify k (cut c 0 64) (cut c 64 64) | none => false)

/-- The open step of a partition is voided by a rise of the level (R373). -/
def voidOpen (k : Nat) (s : State) : State := if (s.job k).stepOpen then voidStep k 9 true s else s

/-- DEBUG_UNLOCK once R280 lets it (R372). -/
def unlockBody (L : Nat) (s : State) : State :=
  let u := s.ubide
  let c := memBytes s.mem certKey 128
  let part := cutN c 6 1
  if L < u.dbg ∨ (L = u.dbg ∧ !(L = 2 ∧ part ≠ u.dpart)) then winEnd 0 [] s
  else if L = 1 then winEnd 0 [] (((List.range 4).foldl (fun s k => voidOpen k s) s).onUbide (fun u => { u with dbg := 1 }))
  else if locked s then unlockRefused 0x10 [lockMs s] s
  else if L = 2 ∧ (4 ≤ part ∨ (s.part part).session ≠ .opened) then unlockRefused 0x02 [] s
  else if L = 2 ∧ u.dbg = 2 then unlockRefused 0x04 [] s
  else if !certOk s L c then unlockRefused 0x02 [] (countFail s)
  else if L = 2 then
    winEnd 0 [] ((voidOpen part s).onUbide (fun u => { u with dbg := 2, dpart := part, unlocks := inc 32 u.unlocks }))
  else winEnd 0 [] ((closeAll s).onUbide (fun u => { u with dbg := 3, unlocks := inc 32 u.unlocks }))

/-- DEBUG_UNLOCK. -/
def cmdUnlock (q : Cmd) (s : State) : State :=
  runCmd 0x60 q (fun _ => Rules.plain (strays (argN q 0) 0x3 || argsFrom q 1)) (unlockBody (fld (argN q 0) 1 0)) s

/-- DEBUG_LOCK (R373). -/
def cmdLock (q : Cmd) (s : State) : State :=
  let L := fld (argN q 0) 1 0
  runCmd 0x61 q (fun _ => Rules.plain (strays (argN q 0) 0x3 || argsFrom q 1))
    (fun s =>
      let d := s.ubide.dbg
      if d ≤ L then winEnd 0 [] s
      else
        let s := (if d = 2 then resumeAll s else s).onUbide (fun u => { u with dbg := L })
        if d = 3 then scheduleReset 4 (winEnd 0 [] s) else winEnd 0 [] s) s

end Sys2Proof.Machine
end

