-- ==== Sys2Proof/Machine/LoadImage.lean ====
section
/-! DEFINITION. Pattern images: LOAD_IMAGE and the broadcast of its sections (R285 to R287, R141, R190). -/

namespace Sys2Proof.Machine

open Sys2Proof

/-- A section header (R286). -/
structure Sect where
  kind : Nat
  rect : Rect
  panels : Nat
  src : Nat
  dst : Nat
  len : Nat
  crc : Nat

/-- The section header of 64 bytes. -/
def sectOf (b : List Byte) : Sect :=
  { kind := cutN b 0 1, rect := { x0 := cutN b 4 1, y0 := cutN b 5 1, x1 := cutN b 6 1, y1 := cutN b 7 1 }
    panels := cutN b 8 8, src := cutN b 16 8, dst := cutN b 24 4, len := cutN b 28 4, crc := cutN b 32 8 }

/-- The bytes of a staging area: none where the range leaves the area or the stack cannot be read; with
them, whether none is poisoned. -/
def stagingRead (k off len : Nat) (s : State) : Option (List Byte × Bool) × State :=
  let p := anchorOf s k
  let P := s.panel p
  if 2 ^ 30 < off + len ∨ P.lost ∨ P.power ≠ .active ∨ P.stack.key.isNone ∨ P.stack.rebuild ≠ .none then (none, s)
  else
    let (l, s) := readStack p (stagingBase + off) len 0 s
    (some (l.map (·.1), l.all (fun e => !e.2)), s)

/-- The header of an image with its section table, where it passes the checks of R287: entry word, image
length and sections. A count outside 1 to 4,096, an entry word beyond 65,535 and data that cannot be read
are taken as a bad header. -/
def imageHeader (k base : Nat) (s : State) : Option (Nat × Nat × List Sect) × State :=
  match stagingRead k base 64 s with
  | (some (h, true), s) =>
    let n := cutN h 6 2
    if n = 0 ∨ 4096 < n then (none, s)
    else
      match stagingRead k (base + 64) (64 * n) s with
      | (some (t, true), s) =>
        let good := decide (cutN h 0 4 = 0x4950584C) && decide (cutN h 4 2 = 1) && decide (base + cutN h 8 8 ≤ 2 ^ 30)
          && decide (cutN h 16 4 < 65536) && decide (crc64 (h.take 56 ++ t) = cutN h 56 8)
        (if good then some (cutN h 16 4, cutN h 8 8, (List.range n).map (fun i => sectOf (cut t (64 * i) 64))) else none, s)
      | (_, s) => (none, s)
  | (_, s) => (none, s)

/-- The data of a section with whether it can be trusted; data past the image's end cannot be read. -/
def sectData (k base size : Nat) (c : Sect) (s : State) : (List Byte × Bool) × State :=
  if size < c.src + c.len then (([], false), s)
  else
    match stagingRead k (base + c.src) c.len s with
    | (some d, s) => (d, s)
    | (none, s) => (([], false), s)

/-- The data of all sections. -/
def sectsData (k base size : Nat) : List Sect → State → List (Sect × List Byte × Bool) × State
  | [], s => ([], s)
  | c :: t, s =>
    let (d, s) := sectData k base size c s
    let (r, s) := sectsData k base size t s
    ((c, d) :: r, s)

/-- The section names cores or sequencers of its partition only. -/
def sectInside (K : Part) (c : Sect) : Bool :=
  if c.kind = 1 then allPanels.all (fun p => !c.panels.testBit p || K.has p)
  else decide (c.rect.x0 ≤ c.rect.x1) && decide (c.rect.y0 ≤ c.rect.y1) && rectIn K c.rect

/-- A core takes sections: it is no hole, is not fenced, and the broadcast reaches its panel (R190, R287). -/
def takesCopy (s : State) (n : Nat) : Bool :=
  !isDead s n && (castPanels s).contains (panelOf n)

/-- The cores or panels that take a section (R190). -/
def sectTargets (s : State) (kind : Nat) (r : Rect) (panels : Nat) : List Nat :=
  if kind = 1 then allPanels.filter (fun p => panels.testBit p && (castPanels s).contains p)
  else r.cores.filter (takesCopy s)

/-- The 16 register values of a section of kind 2 or 3. -/
def sectWords (d : List Byte) : List Nat := (List.range 16).map (fun i => cutN d (8 * i) 8)

/-- A region register value that R139 refuses. -/
def regionBad (v : Nat) : Bool :=
  v.testBit 63 && (decide (fld v 42 32 < fld v 10 0) || decide (1535 < fld v 42 32) || regionReserved v)

/-- A core's region registers as they will stand once the image's kind 2 sections are applied (R287). -/
def regionsAfter (s : State) (l : List (Sect × List Byte × Bool)) (n : Nat) : Core :=
  let c := s.core n
  l.foldl (fun c e =>
    let r := e.1.rect
    if e.1.kind = 2 ∧ r.x0 ≤ cxOf n ∧ cxOf n ≤ r.x1 ∧ r.y0 ≤ cyOf n ∧ cyOf n ≤ r.y1 then
      (sectWords e.2.1).zipIdx.foldl (fun c v =>
        if regionBad v.1 then c else { c with regions := Tab.put 0 c.regions v.2 (BitVec.ofNat 64 (regionKeep v.1)) }) c
    else c) c

/-- A range lies wholly in one valid region with `retain` (R141). -/
def retained (c : Core) (off len : Nat) : Bool :=
  decide (len = 0) || ((List.range 16).map (fun r => (Tab.get 0 c.regions r).toNat)).any (fun v =>
    v.testBit 63 && v.testBit 62 && decide (fld v 10 0 * 0x1000 ≤ off) && decide (off + len ≤ (fld v 42 32 + 1) * 0x1000))

/-- A section that rejects the image before anything is loaded (R287). -/
def sectBad (s : State) (K : Part) (l : List (Sect × List Byte × Bool)) (c : Sect) (d : List Byte) : Bool :=
  decide (3 < c.kind) || !sectInside K c
    || (match c.kind with
      | 0 => decide (spdSize < c.dst + c.len)
          || (sectTargets s 0 c.rect 0).any (fun n => !retained (regionsAfter s l n) c.dst c.len)
      | 1 => decide (0x40000 < c.dst + c.len)
      | 2 => decide (c.len ≠ 128) || (sectWords d).any regionBad
      | _ => decide (c.len ≠ 128))

/-- What the checks of LOAD_IMAGE find: a context resident on a target core, the first section rejected
before anything is loaded (2^32 - 1: the header), the entry word, the image's length, and the sections in the order in
which they are applied with their numbers, their data and whether these were read unpoisoned. -/
structure Plan where
  resident : Bool
  reject : Option Nat
  entry : Nat
  size : Nat
  order : List (Nat × Sect × List Byte × Bool)

/-- The checks of LOAD_IMAGE (R287). -/
def imagePlan (k base : Nat) (s : State) : Plan × State :=
  match imageHeader k base s with
  | (none, s) => ({ resident := false, reject := some (2 ^ 32 - 1), entry := 0, size := 0, order := [] }, s)
  | (some (entry, size, sects), s) =>
    let K := s.part k
    let (l, s) := sectsData k base size sects s
    let res := l.any (fun e => e.1.kind ≠ 1 && sectInside K e.1 && (sectTargets s e.1.kind e.1.rect 0).any (fun n => (s.core n).residents))
    let rej := (l.zipIdx.find? (fun e => sectBad s K l e.1.1 e.1.2.1)).map (·.2)
    let num := l.zipIdx.map (fun e => (e.2, e.1.1, e.1.2.1, e.1.2.2))
    ({ resident := res, reject := rej, entry := entry, size := size
       order := num.filter (fun e => decide (2 ≤ e.2.1.kind)) ++ num.filter (fun e => decide (e.2.1.kind < 2)) }, s)

/-- The broadcast of a section: its data stand at `src` of the staging area, where the image holds them. -/
def sectCast (k i : Nat) (c : Sect) (d : List Byte) (good : Bool) (src : Option Nat) (s : State) : State :=
  let b : Bcast :=
    { pid := s.nextPid, part := k, kind := c.kind, sect := i, panels := c.panels, x0 := c.rect.x0, y0 := c.rect.y0, x1 := c.rect.x1
      y1 := c.rect.y1, off := c.dst, data := d, taken := []
      src := src, len := c.len, crc := c.crc, good := good, again := false, reports := [] }
  { s with nextPid := s.nextPid + 1, bcasts := s.bcasts ++ [b] }

/-- The receivers of a broadcast that have still to take their copy: of a second sending, those that reported the first. -/
def castLeft (s : State) (b : Bcast) : List Nat :=
  (sectTargets s b.kind { x0 := b.x0, y0 := b.y0, x1 := b.x1, y1 := b.y1 } b.panels).filter (fun n => !Tab.get false b.taken n)

/-- The second sending of a section (R287): its data are read again and go to the receivers that reported a mismatch. -/
def castAgain (b : Bcast) (s : State) : State :=
  let r := match b.src with | some x => stagingRead b.part x b.len s | none => (none, s)
  let d := r.1.getD ([], false)
  let s := r.2
  { s with bcasts := s.bcasts.map (fun c =>
      if c.pid = b.pid then
        { c with data := d.1, good := d.2, again := true, taken := b.reports.foldl (fun m n => Tab.del m n) c.taken, reports := [] }
      else c) }

/-- The sections of a partition's image that are left are dropped: section `i` was rejected (R287). -/
def castReject (k i : Nat) (s : State) : State :=
  let s := { s with bcasts := s.bcasts.filter (fun c => c.part != k) }
  s.onPart k (fun K =>
    match K.cmd with
    | some c => { K with cmd := some { c with reject := some i } }
    | none => K)

/-- The broadcast of partition `k` that runs: its sections go in order. -/
def castOf (s : State) (k : Nat) : Option Bcast := s.bcasts.find? (fun b => b.part == k)

/-- LOAD_IMAGE runs in partition `k`. -/
def loading (s : State) (k : Nat) : Option PCmd :=
  match (s.part k).cmd with
  | some c => if c.kind = .image then some c else none
  | none => none

/-- A broadcast with no receiver left is complete, and `PSTAT.progress` counts the section; one that receivers reported
is sent once more to them, and rejects the image the second time (R287). So up to the first with a receiver left. -/
def castsSettle (k : Nat) : Nat → State → State
  | 0, s => s
  | fuel + 1, s =>
    match loading s k, castOf s k with
    | some _, some b =>
      if !(castLeft s b).isEmpty then s
      else if b.reports ≠ [] then (if b.again then castReject k b.sect s else castsSettle k fuel (castAgain b s))
      else
        castsSettle k fuel (({ s with bcasts := s.bcasts.filter (fun c => c.pid != b.pid) }).onPart k (fun K => { K with progress := K.progress + 1 }))
    | _, _ => s

/-- LOAD_IMAGE starts (R281, R287): with every check passed the sections are broadcast in order. -/
def startImage (k : Nat) (q : Cmd) (s : State) : State :=
  let (P, s) := imagePlan k (argN q 1) s
  let s := { s with bcasts := s.bcasts.filter (fun b => b.part != k) }
  match P.reject with
  | some i => acceptPart k 0x20 q { PCmd.mk0 .image s.now with reject := some i } s
  | none =>
    let base := argN q 1
    let s := acceptPart k 0x20 q { PCmd.mk0 .image s.now with goal := P.entry } s
    castsSettle k (2 * P.order.length) (P.order.foldl (fun s e =>
      let c := e.2.1
      sectCast k e.1 c e.2.2.1 e.2.2.2 (if P.size < c.src + c.len then none else some (base + c.src)) s) s)

/-- LOAD_IMAGE. -/
def cmdLoad (q : Cmd) (s : State) : State :=
  let a := argN q 0
  let k := fld a 1 0
  let base := argN q 1
  runCmd 0x20 q (fun s =>
    let own : Nat := if (pstate s k ≠ 3 ∧ !(s.job k).hold) ∨ (imagePlan k base s).1.resident then 0x04 else 0
    { bad := strays a 0x3 || decide (base % 64 ≠ 0) || decide (2 ^ 30 ≤ base) || argsFrom q 2, part := some k, session := true
      denied := false, own := own })
    (startImage k q) s

/-- A receiver checks a section's `crc` (R287); poisoned data are a mismatch (log 65). -/
def Bcast.matches (b : Bcast) : Bool := b.good && decide (crc64 b.data = b.crc)

/-- A receiver takes its copy of a section (R287). -/
def takeCopy (b : Bcast) (n : Nat) (s : State) : State :=
  match b.kind with
  | 0 => spdWrite n (atOff b.off b.data) [] s
  | 1 => { s with mem := memPutBytes s.mem (seqKey n b.off) b.data }
  | 2 => (sectWords b.data).zipIdx.foldl (fun s v => (writeRegion n v.2 v.1 s).2) s
  | _ => (sectWords b.data).zipIdx.foldl (fun s v => (writeRed n v.2 v.1 s).2) s

/-- The copy for a core that is being carried is held (R25). -/
def castHeld (s : State) (b : Bcast) (n : Nat) : Bool := decide (b.kind ≠ 1) && beingCarried s n

/-- BROADCAST_DELIVERY: the section of packet `pid` reaches core or panel `n`, which checks it and takes it, or reports a
mismatch. -/
def deliverCast (pid n : Nat) (s : State) : State :=
  match s.bcasts.find? (fun b => b.pid == pid) with
  | none => s
  | some b =>
    match loading s b.part, castOf s b.part with
    | some _, some f =>
      if f.pid = pid ∧ (castLeft s b).contains n ∧ !castHeld s b n then
        let ok := b.matches
        let s := if ok then takeCopy b n s else s
        let s := { s with bcasts := s.bcasts.map (fun c =>
          if c.pid = pid then { c with taken := Tab.set c.taken n true, reports := if ok then c.reports else c.reports ++ [n] } else c) }
        castsSettle b.part (2 * s.bcasts.length) s
      else s
    | _, _ => s

/-- LOAD_IMAGE ends once no section is left (R282, R287). -/
def imageEnd (k : Nat) (c : PCmd) (s : State) : State :=
  let s := castsSettle k (2 * s.bcasts.length) s
  let done := (s.part k).progress
  if (castOf s k).isSome then s
  else
    match ((s.part k).cmd.getD c).reject with
    | some i => partEnd k 0x0B [done, i] s
    | none => partEnd k 0 [done, 2 ^ 32 - 1] (s.onPart k (fun K => { K with seqEntry := c.goal }))

end Sys2Proof.Machine
end

