-- ==== Sys2Proof/Machine/CastOn.lean ====
section
/-! DEFINITION. Cast-on, panel waves, bring-up and the gauge check (R316 to R326, R349), PARTITION_POWER (R299)
and the ends of partition commands (R281). -/

namespace Sys2Proof.Machine

open Sys2Proof

/-! Waves (R306, R319, R320). -/

/-- A panel that a wave may raise: OFF or lost, and not already rising. -/
def raisable (P : Panel) : Bool := (P.lost || decide (P.power = .off)) && decide (P.bring = .none)

/-- A wave raises a panel: its bring-up starts, or is deferred until four inrush units are free (R306). -/
def raisePanel (p : Nat) (s : State) : State :=
  let s := { s.onPanel p (fun P => { P with bring := .due, offReq := false }) with
    cast := { s.cast with failed := s.cast.failed.filter (· != p) } }
  match takeNew p s with
  | some s => s.onPanel p (fun P => { P with wake := some { units := 4, deferred := false, forced := false, horizon := none } })
  | none => deferWake p false s

/-- The bitmap of the panels of a list that meet a condition. -/
def panelBits (l : List Nat) (f : Nat → Bool) : Nat := ((l.filter f).map (2 ^ ·)).sum

/-- RES0 and RES1 of a PANEL_WAVE: the panels named that are ACTIVE, and those it raised that failed (R320). -/
def waveResult (w : Win) (s : State) : List Nat :=
  [panelBits w.wait (fun p => decide ((s.panel p).power = .active) && !(s.panel p).lost)
    , panelBits w.wait (fun p => w.res0.testBit p && ((s.panel p).lost || decide ((s.panel p).power = .off)))]

/-- PANEL_WAVE ends once none of its panels is rising (R320) and every hub holds its table (R184). `res0` of the window holds the panels it
raised. -/
def waveEnds (s : State) : State :=
  match s.host.win with
  | some w =>
    if w.op = 0x12 ∧ tablesHeld s ∧ w.wait.all (fun p => decide ((s.panel p).bring = .none)) then
      winEnd 0 (waveResult w s) s
    else s
  | none => s

/-- PARTITION_POWER runs in partition `k`. -/
def powering (s : State) (k : Nat) : Option PCmd :=
  match (s.part k).cmd with
  | some c => if c.kind = .power then some c else none
  | none => none

/-- A panel belongs to a partition whose automatic waves run: panels are left to raise, or some rise (R319, R320). -/
def inAutoWave (s : State) (p : Nat) : Bool :=
  match partOf s p with
  | some k =>
    (match powering s k with
     | some c =>
       c.auto && decide (c.goal ≠ 0)
         && (!c.left.isEmpty || (panelsOf s k).any (fun q => decide ((s.panel q).bring ≠ .none)))
     | none => false)
  | none => false

/-- PANEL_WAVE (R320). -/
def cmdWave (q : Cmd) (s : State) : State :=
  let a := argN q 0
  let named := allPanels.filter (fun p => a.testBit p)
  runCmd 0x12 q (fun s =>
    let down := named.filter (fun p => (s.panel p).lost || decide ((s.panel p).power = .off))
    { Rules.plain (argsFrom q 1 || decide (4 < down.length)) with
      own := if named.any (inAutoWave s) || s.power.tripPin then 0x04 else 0 })
    (fun s =>
      let up := named.filter (fun p => raisable (s.panel p))
      let s := up.foldl (fun s p => raisePanel p s) s
      let s := if s.mstate = .castOn then
          { s with cast := { s.cast with step := max 4 s.cast.step, waved := (s.cast.waved ++ named).dedup } }
        else s
      waveEnds (onWin (fun w => { w with wait := named, res0 := panelBits up (fun _ => true) }) s)) s

/-- AUTOMATIC_WAVE: once the wave before it has ended, the next four panels are raised (R319). -/
def autoWave (k : Nat) (s : State) : State :=
  match powering s k with
  | none => s
  | some c =>
    if !c.auto || c.left.isEmpty || (panelsOf s k).any (fun p => decide ((s.panel p).bring ≠ .none)) then s
    else
      let s := s.onPart k (fun K => { K with cmd := some { c with left := c.left.drop 4 } })
      ((c.left.take 4).filter (fun p => raisable (s.panel p))).foldl (fun s p => raisePanel p s) s

/-! Bring-up of a panel (R321, R322, R325, R326). -/

/-- The stack of a panel belongs to a suspended session and is in self-refresh (R211, R321). -/
def keepsStack (s : State) (p : Nat) : Bool :=
  decide ((s.stack p).power = .selfRefresh)
    && (match partOf s p with | some k => decide ((s.part k).session = .suspended) | none => false)

/-- A site that self-test or firmware check finds bad, and neither fuses nor bank name, is written to the
bank (R325). -/
def testSites (p : Nat) (bad : List Nat) (s : State) : State :=
  bad.foldl (fun s i =>
    if 600 ≤ i ∨ Tab.get false (fuseBad s p) i then s else markBad p i (queueRepair 0 p i s)) s

/-- PANEL_BRING_UP: rails, PLL, self-test with the sites that fail it, map, zeroization and stack
(R321 steps 1 to 4). The stack of a suspended session is out of self-refresh until the panel is up. -/
def bringUp (p : Nat) (bad : List Nat) (s : State) : State :=
  let P := s.panel p
  let started : Bool := match P.wake with | some w => !w.deferred | none => false
  if 64 ≤ p ∨ P.bring ≠ .due ∨ !started then s
  else
    let keep := keepsStack s p
    let s := loadMap p (s.onPanel p (fun P => { P with lost := false }))
    let s := testSites p bad s
    let s := s.onPanel p buildMap
    let s := (coresOf p).foldl (fun s n =>
      if isHole s n || Tab.get false (s.panel p).bad (siteIdx s n) then s.onCore n (fun c => bareCore c .fenced)
      else if s.cores.any (fun e => e.1 == n) then (zeroizeCore n s).onCore n (fun _ => Core.init) else s) s
    let s := if keep then s else stackLost p s
    s.onPanel p (fun P =>
      { P with
        bring := .built, fenced := 0, fresh := []
        tension := { P.tension with step := 2, target := none }
        stack := { P.stack with power := .active, fill := if keep then .none else .due } })

/-- A panel of a partition under PARTITION_POWER has changed: the limit counts anew (R319). -/
def noteChange (p : Nat) (failed : Bool) (s : State) : State :=
  match partOf s p with
  | none => s
  | some k =>
    match powering s k with
    | none => s
    | some c =>
      s.onPart k (fun K =>
        { K with
          progress := K.progress + 1
          cmd := some { c with until_ := s.now + 10 ^ 9, failed := c.failed || failed, left := c.left.filter (· != p) } })

/-- A panel that completes its bring-up is ACTIVE (R321, R308, R183, R210). -/
def broughtUp (p : Nat) (s : State) : State :=
  let back := (s.stack p).mirrored && (match partnerOf s p with | some q => (s.stack q).mirrorLost && !(s.panel q).lost | none => false)
  let key := keyFor s p
  let pw := wakePower s p
  let s := s.onPanel p (fun P =>
    { P with
      power := .active, bring := .none, wake := none, brought := true, firstUse := some s.now, wakes := inc 16 P.wakes, hang := P.hang.fresh
      probed := 0, missed := []
      stack := { P.stack with power := pw, key := key, rebuild := if back then .due else P.stack.rebuild, lastUse := s.now } })
  let s := (portsAt p).foldl (fun s o => portPresent o s) (tablesChanged s)
  let s := if s.mstate = .castOn then { s with cast := { s.cast with done := s.cast.done.filter (· != p) ++ [p] } } else s
  noteChange p false (obeyBound p s)

/-- A panel fails its wave at a step, or with 0 at the wave's limit: it is OFF, reported and logged (R316, R317, R321; log
145). One that completed step 1 is no longer lost. -/
def bringFailed (p stepNo : Nat) (s : State) : State :=
  let lost := decide (stepNo = 1) || (decide (stepNo = 0) && (s.panel p).lost)
  let s := (coresHeld s p).foldl (fun s n => (zeroizeCore n s).onCore n (fun _ => Core.init)) s
  let s := stackLost p s
  let s := if stepNo = 1 then loseStack p s else s
  let s := s.onPanel p (fun P => { P with power := .off, bring := .none, wake := none, brought := false, fresh := [], lost := lost })
  let s := s.onPower (fun W => { W with deferred := W.deferred.filter (· != p) })
  let s := logErr 1 6 p 0 p stepNo s
  let s := { s with cast := { s.cast with failed := s.cast.failed ++ [p] } }
  noteChange p true s

/-- PANEL_BRING_UP_DONE: the firmware has been broadcast, or step `stepNo` has failed (R321, R322). -/
def bringDone (p : Nat) (ok : Bool) (stepNo : Nat) (s : State) : State :=
  let P := s.panel p
  if 64 ≤ p then s
  else if ok then (if P.bring = .built then waveEnds (broughtUp p s) else s)
  else if (P.bring = .due ∧ (stepNo = 1 ∨ stepNo = 2 ∨ stepNo = 4)) ∨ (P.bring = .built ∧ stepNo = 5) then waveEnds (bringFailed p stepNo s)
  else s

/-- COMMAND_TIMEOUT: what the command has begun goes on; the panels of a PANEL_WAVE that are still rising have failed it
(R281, R316, R320). -/
def commandTimeoutNow (s : State) : State :=
  match s.host.win with
  | none => s
  | some w =>
    match winLimit w.op with
    | none => s
    | some l =>
      if s.now < w.since + l then s
      else if w.op = 0x12 then
        let late := w.wait.filter (fun p => decide ((s.panel p).bring ≠ .none))
        let s := late.foldl (fun s p => bringFailed p 0 s) s
        winEnd 0x05 (waveResult w s) s
      else winEnd 0x05 [] s

/-! The gauge check (R323, R324). -/

/-- What an element ought to report, over the panels of a check; none where it is no element of it. A
presence is reported as 1. -/
def gaugeExpected (s : State) (cover : List Nat) (kind p dir idx : Nat) : Option Nat :=
  let live : Option Nat → Bool := fun o => match o with | some q => cover.contains q | none => false
  if !cover.contains p then none
  else
    match kind with
    | 1 => if dir = 0 ∧ idx = 0 then some p else none
    | 2 => if live (bridge p dir) ∧ idx = 0 then some 1 else none
    | 3 => if (dir = 1 ∧ idx < 24 ∨ dir = 2 ∧ idx < 23) ∧ live (bridge p dir) then some 1 else none
    | 4 => if dir = 0 then (match idx with | 0 => some 128 | 1 => some 32 | 2 => some 128 | _ => none) else none
    | 5 =>
      let (x, y) := (idx % 23, idx / 23)
      if 552 ≤ idx then none
      else
        match dir with
        | 0 => if 0 < y then some (idx - 23) else if live (bridge p 0) then some (23 * 23 + x) else none
        | 1 => if x < 22 then some (idx + 1) else if live (bridge p 1) then some (23 * y) else none
        | 2 => if y < 23 then some (idx + 23) else if live (bridge p 2) then some x else none
        | _ => if 0 < x then some (idx - 1) else if live (bridge p 3) then some (23 * y + 22) else none
    | 6 => if dir = 0 ∧ (portsAt p).contains idx then some 1 else none
    | 7 => if dir = 0 ∧ idx = 0 then some (552 - holeCount (s.panel p)) else none
    | _ => none

/-- The place of an element in the order of the check, RES0 [63:32] (R324). -/
def gaugeKey (kind p dir idx : Nat) : Nat := kind * 2 ^ 28 + p * 2 ^ 22 + dir * 2 ^ 20 + idx

/-- The differences of a check: element, expected and discovered value. A panel that failed its wave does not
answer; the broadcast does not reach a fenced core that is not yet darned. What else the elements report is what is expected
of them unless the factory's table says otherwise. -/
def gaugeDiffs (s : State) (cover failed : List Nat) : List (Nat × Nat × Nat) :=
  failed.map (fun p => (gaugeKey 1 p 0 0, p, 0))
    ++ s.fuses.gauge.filterMap (fun e =>
      match gaugeExpected s cover (fld e.1 31 28) (fld e.1 27 22) (fld e.1 21 20) (fld e.1 19 0) with
      | some x => if x = e.2 ∨ 2 ^ 32 ≤ e.1 then none else some (e.1, x, e.2)
      | none => none)
    ++ cover.filterMap (fun p =>
      let x := 552 - holeCount (s.panel p)
      let d := liveCores s p
      if x = d ∨ s.fuses.gauge.any (fun e => e.1 == gaugeKey 7 p 0 0) then none else some (gaugeKey 7 p 0 0, x, d))

/-- RES0 of a check: the first difference, or 0. -/
def gaugeWord (l : List (Nat × Nat × Nat)) : Nat :=
  match l.find? (fun d => l.all (fun e => decide (d.1 ≤ e.1))) with
  | some (k, x, d) => k * 2 ^ 32 + (x % 65536) * 65536 + d % 65536
  | none => 0

/-- The panels that have completed their bring-up. -/
def broughtPanels (s : State) (l : List Nat) : List Nat := l.filter (fun p => (s.panel p).brought && !(s.panel p).lost)

/-- A router that fails the echo of kind 5 is fenced with its site (R328). -/
def gaugeFence (l : List (Nat × Nat × Nat)) (s : State) : State :=
  (l.filter (fun d => d.1 / 2 ^ 28 == 5)).foldl (fun s d =>
    let p := fld d.1 27 22
    let i := fld d.1 19 0
    routerFault p (siteIdx s (coreIn p (i % 23) (i / 23))) s) s

/-- GAUGE_CHECK (R324). -/
def cmdGauge (q : Cmd) (s : State) : State :=
  runCmd 0x13 q (fun s =>
    { Rules.plain (argsFrom q 0) with
      own := if s.mstate = .castOn ∧ allPanels.any (fun p => !s.cast.waved.contains p) then 0x04 else 0 })
    (fun s =>
      if s.mstate = .castOn then
        let l := gaugeDiffs s (broughtPanels s allPanels) s.cast.failed
        let r := gaugeWord l
        let s := gaugeFence l { s with cast := { s.cast with step := 8 } }
        if r = 0 then winEnd 0 [0] { s with cast := { s.cast with step := 9, ninth := s.now } }
        else castFail 0x0A (winEnd 0x0A [r] s)
      else
        let l := gaugeDiffs s (broughtPanels s allPanels) s.cast.failed
        let r := gaugeWord l
        let s := gaugeFence l s
        if r = 0 then winEnd 0 [0] s else winEnd 0x0A [r] (logErr 1 13 0xFF 0x0A r 0 s)) s

/-! Module cast-on (R316 to R318, R349). -/

/-- CAST_ON: the ROM verifies the images of the firmware store, the fuses are read, and PCIe comes up once
PERST# is released (R316 steps 1 to 3). The images of the factory are good. -/
def castOnNow (s : State) : State :=
  if s.mstate ≠ .castOn ∨ 3 ≤ s.cast.step ∨ !s.pins.powered ∨ s.pins.modReset then s
  else if s.ubide.store.any (fun e => decide (imageCode e.2.bytes 0 ≠ 0)) then castFail 0x0B s
  else
    let s := allPanels.foldl (fun s p => loadMap p s) s
    if s.pins.perst then { s with cast := { s.cast with step := 2 } }
    else { s with cast := { s.cast with step := 3, third := s.now } }

/-- PERST_DEASSERT (R316 step 3). -/
def perstRelease (s : State) : State :=
  let s := { s with pins := { s.pins with perst := false } }
  if s.mstate = .castOn ∧ s.cast.step = 2 then { s with cast := { s.cast with step := 3, third := s.now } } else s

/-- A partition that R290 restores. -/
def restores (s : State) (p : Nat) : Bool :=
  match partOf s p with | some k => decide ((s.part k).session = .suspended) | none => false

/-- At READY a partition that R290 does not restore is undefined; its status word stays (R318; log entry 72). -/
def undefineRest (k : Nat) (s : State) : State :=
  let K := s.part k
  if K.session = .suspended then s
  else (removePart k s).onPart k (fun _ => K.word)

/-- CAST_ON_FINISH (R318, R349, R350, R364): the panels are placed, and the module is READY. -/
def castFinish (s : State) : State :=
  if s.mstate ≠ .castOn ∨ s.cast.step ≠ 9 then s
  else
    let s := allPanels.foldl (fun s p =>
      if (s.panel p).power = .off then s
      else if restores s p then enterRest p .sleep s
      else panelOff p s) s
    let s := (List.range 4).foldl (fun s k => undefineRest k s) s
    let svn := (s.ubide.store.map (fun e => e.2.svn)).foldl max s.ubide.floor
    { s with
      mstate := .ready
      rst := { s.rst with failedStarts := 0 }
      ubide := { s.ubide with floor := svn, life := if s.ubide.life = .recovery then s.ubide.former else s.ubide.life } }

/-- CAST_ON_RESTART: a cast-on that failed before step 3 begins again 1 s later (R349). -/
def castRestart (s : State) : State :=
  match s.cast.failedAt with
  | none => s
  | some t =>
    if s.mstate = .fault ∧ t + 100000000 ≤ s.now then { s with mstate := .castOn, cast := { CastOn.init with since := s.now } } else s

/-! PARTITION_POWER (R299, R300). -/

/-- A panel is at a target (R299): a panel that rests under PREST counts as READY. -/
def atTarget (P : Panel) (goal : Nat) : Bool :=
  let rests : Bool := match P.seq.prest with | some r => r.resting | none => false
  match goal with
  | 0 => decide (P.power = .off)
  | 1 => decide (P.power = .sleep) && !rests
  | _ => decide (P.power = .active) || ((decide (P.power = .nap) || decide (P.power = .sleep)) && rests)

/-- The panels of a partition at a target, without those that were lost at the time of the command, as a bitmap. -/
def targetBits (s : State) (k : Nat) (c : PCmd) : Nat :=
  panelBits (panelsOf s k) (fun p => !c.lostThen.contains p && atTarget (s.panel p) c.goal)

/-- Every live panel of a partition is at a target. -/
def targetHeld (s : State) (k goal : Nat) : Bool :=
  (panelsOf s k).all (fun p => (s.panel p).lost || atTarget (s.panel p) goal)

/-- PARTITION_POWER moves the panels of its partition: OFF is asked for, resting panels wake for READY, and OFF
panels are left to waves. -/
def startPower (k goal : Nat) (q : Cmd) (s : State) : State :=
  let live := (panelsOf s k).filter (fun p => !(s.panel p).lost)
  let off := live.filter (fun p => decide ((s.panel p).power = .off))
  let rest := live.filter (fun p => !atTarget (s.panel p) goal && decide ((s.panel p).power ≠ .off))
  let held := targetHeld s k goal
  let cmd : PCmd :=
    { PCmd.mk0 .power (s.now + 10 ^ 9) with
      lostThen := (panelsOf s k).filter (fun p => (s.panel p).lost)
      goal := goal, left := if goal = 0 then [] else off, auto := decide (goal ≠ 0) && decide (off.length ≤ 16)
      total := if held || goal = 0 then 0 else off.length + (if goal = 2 then rest.length else 0) }
  let s := acceptPart k 0x11 q cmd s
  let s := s.onPart k (fun K => { K with raising := decide (goal ≠ 0) && !off.isEmpty })
  if goal = 0 then
    tablesChanged (rest.foldl (fun s p => s.onPanel p (fun P => { P with offReq := true })) s)
  else if goal = 2 then rest.foldl (fun s p => askWake false p s) s
  else s

/-- PARTITION_POWER. A command whose target already holds changes the ceiling alone. -/
def cmdPower (q : Cmd) (s : State) : State :=
  let a := argN q 0
  let k := fld a 1 0
  let goal := fld a 9 8
  runCmd 0x11 q (fun s =>
    let K := s.part k
    let bound := decide (K.session = .opened) || decide (K.session = .suspended)
    let own : Nat :=
      if !K.defined ∨ (goal ≠ 0 ∧ s.power.tripPin) then 0x04
      else if targetHeld s k goal then 0
      else if goal = 0 ∧ bound then 0x04
      else if goal ≤ 1 ∧ partResident s k then 0x04 else 0
    Rules.on (strays a 0x3303 || decide (goal = 3) || argsFrom q 1) k own)
    (fun s => startPower k goal q (s.onPart k (fun K => { K with ceiling := fld a 13 12 }))) s

/-- A panel goes to SLEEP by STANDBY, with its stack in self-refresh (R299). A PREST under which it rested goes on once the
panel is ACTIVE again (log 146). -/
def standPanel (p : Nat) (s : State) : State :=
  let P := s.panel p
  if P.lost then s
  else
    match P.power with
    | .active => enterRest p .sleep s
    | .nap | .sleep =>
      s.onPanel p (fun P =>
        { P with
          power := .sleep, wake := none, seq := { P.seq with prest := P.seq.prest.map (fun r => { r with resting := false }) }
          stack := { P.stack with power := .selfRefresh } })
    | _ => s

/-- PARTITION_POWER ends: at its target with every table in force, with a difference of the gauge check, or at its
limit (R184, R281, R282, R319). -/
def powerEnd (k : Nat) (c : PCmd) (s : State) : State :=
  let ps := panelsOf s k
  let live := ps.filter (fun p => !(s.panel p).lost)
  let failed := ps.filter (fun p => (s.panel p).lost || decide ((s.panel p).power = .off))
  let still := ps.any (fun p => decide ((s.panel p).bring ≠ .none)) || !c.left.isEmpty
  let faulty := fun (s : State) => attendPart k (s.onPart k (fun K => { K with fault := true }))
  let end_ := fun (code : Nat) (s : State) => partEnd k code [targetBits s k c] s
  let up := c.goal = 0 ∨ live.all (fun p =>
    let P := s.panel p
    decide (P.power = .off) || atTarget P 2 || (decide (c.goal = 1) && decide (P.power = .sleep)))
  if !tablesHeld s ∧ s.now < c.until_ then s
  else if c.goal = 0 then
    (if targetHeld s k 0 then end_ 0 s else if c.until_ ≤ s.now then end_ 0x05 s else s)
  else if still || !up then (if c.until_ ≤ s.now then end_ 0x05 (faulty s) else s)
  else if c.total ≠ 0 ∧ (c.failed ∨ gaugeDiffs s (broughtPanels s ps) (if c.failed then failed else []) ≠ []) then
    end_ 0x0A (faulty (gaugeFence (gaugeDiffs s (broughtPanels s ps) []) s))
  else if c.goal = 1 then
    let s := live.foldl (fun s p => standPanel p s) s
    end_ 0 s
  else end_ 0 s

/-- PARTITION_COMMAND_END (R281). -/
def partCommandEnd (k : Nat) (s : State) : State :=
  match (s.part k).cmd with
  | none => s
  | some c =>
    match c.kind with
    | .power => powerEnd k c s
    | .image => imageEnd k c s
    | .bindOff => bindOffEnd k s

end Sys2Proof.Machine
end

