-- ==== Sys2Proof/Machine/HostIo.lean ====
section
/-! DEFINITION. The host's accesses (R268 to R279, R284, R292, R315, R345, R357, R379): BAR0 registers, BAR2,
the fabric window, MSI-X, function level reset. -/

namespace Sys2Proof.Machine

open Sys2Proof

/-! Outputs: ALERT# and the sensors of PLDM (R271, R388, R389). -/

/-- A PLDM numeric sensor (R389): input voltage and power, and each panel's temperature, step and stack temperature. -/
inductive Sensor where
  | volts
  | in1ms
  | in1s
  | temp (p : Nat)
  | clock (p : Nat)
  | stackTemp (p : Nat)
deriving DecidableEq, Repr

/-- What a numeric sensor reads; those of an OFF panel are unavailable (R389). -/
def sensorRead (s : State) (x : Sensor) : Option Nat :=
  let of := fun (p v : Nat) => if (s.panel p).power = .off then none else some v
  match x with
  | .volts => some s.power.volts
  | .in1ms => some s.power.in1ms
  | .in1s => some s.power.in1s
  | .temp p => of p (s.panel p).tension.temp
  | .clock p => of p (s.panel p).tension.step
  | .stackTemp p => of p (s.panel p).tension.stackTemp

/-- The PLDM state sensors (R389): `MSTAT.state`, the four `PSTAT` states, the lifecycle, `RESET_CAUSE`. -/
def stateSensors (s : State) : List Nat :=
  [s.mstate.code] ++ (List.range 4).map (pstate s) ++ [s.ubide.life.code, causeWord s.rst]

/-! Status words (R274, R317). -/

/-- `MSTAT.progress` (R274, R317). -/
def mstatProgress (s : State) : Nat :=
  if s.mstate = .castOn then s.cast.step + 256 * min 255 s.cast.done.length + 65536 * min 255 s.cast.failed.length
  else s.host.progress

/-- `MSTAT` (R274). -/
def mstatWord (s : State) : List RFld :=
  let h := s.host
  [fldOf 60 4 s.mstate.code, fldOf 59 1 (b2n h.win.isSome), fldOf 57 1 (b2n s.attention), fldOf 48 8 h.opcode, fldOf 40 8 h.code
    , fldOf 32 8 h.tag, fldOf 0 32 (mstatProgress s)]

/-- `PSTAT` of partition `k` (R274). -/
def pstatWord (s : State) (k : Nat) : List RFld :=
  let K := s.part k
  let prog := if K.cmd.isSome then K.progress else if K.defined then (s.seq (anchorOf s k)).step.toNat else 0
  [fldOf 60 4 (pstate s k), fldOf 59 1 (b2n K.cmd.isSome), fldOf 58 1 (b2n K.partial_), fldOf 57 1 (b2n K.attention)
    , fldOf 48 8 K.opcode, fldOf 40 8 K.code, fldOf 32 8 K.tag, fldOf 0 32 prog]

/-! The module block (R2, R273 to R279). -/

/-- The identity of the PCI Express function: Vendor ID, Device ID and Revision ID (R268). -/
def pciIdentity : Nat × Nat × Nat := (0x4C58, 0x0B64, 0xA1)

/-- The fields of a register of the module block. -/
def modFlds (off : Nat) (s : State) : List RFld :=
  let h := s.host
  if off = 0x0000 then [fldOf 48 16 0x4C58, fldOf 32 16 0x0B64, fldOf 28 4 0xA, fldOf 24 4 0x1, fldOf 16 8 fuseRev]
  else if off = 0x0008 then
    [fldOf 56 8 0x40, fldOf 48 8 0x10, fldOf 44 4 0x4, fldOf 32 12 0x228, fldOf 16 16 0x80, fldOf 8 8 0x08, fldOf 1 1 1, fldOf 0 1 1]
  else if off = 0x0010 then [fldOf 0 3 h.sel]
  else if off = 0x0018 then
    [rcOf 48 16 h.retry (fun s => s.onHost (fun h => { h with retry := 0 }))
      , rcOf 32 16 h.ur (fun s => s.onHost (fun h => { h with ur := 0 }))
      , rcOf 16 16 h.ep (fun s => s.onHost (fun h => { h with ep := 0 }))
      , rcOf 8 8 h.lastSt (fun s => s.onHost (fun h => { h with lastSt := 0 }))]
  else if off = 0x0020 then [fldOf 56 8 h.fabStatus, fldOf 54 1 (b2n h.fabInc), fldOf 52 2 h.fabSize, fldOf 0 48 h.fabAddr]
  else if off = 0x0028 then [fldOf 0 64 h.fabData.toNat]
  else if off = 0x0100 then mstatWord s
  else if 0x0108 ≤ off ∧ off < 0x0128 then pstatWord s ((off - 0x0108) / 8)
  else if off = 0x0200 then [fldOf 0 8 h.cmdTag]
  else if 0x0208 ≤ off ∧ off < 0x0248 then [fldOf 0 64 (h.args.getD ((off - 0x0208) / 8) 0).toNat]
  else if off = 0x0288 then
    let c := rcOf 16 8 h.rejCount (fun s => s.onHost (fun h => { h with rejCount := 0 }))
    if h.rejValid then [fldOf 63 1 1, fldOf 40 8 0x01, fldOf 32 8 h.rejTag, fldOf 24 8 h.rejOp, c] else [c]
  else if 0x0300 ≤ off ∧ off < 0x0340 then [fldOf 0 64 (h.res.getD ((off - 0x0300) / 8) 0).toNat]
  else if off = 0xF000 then [fldOf 0 64 h.msixAddr.toNat]
  else if off = 0xF008 then [fldOf 32 1 (b2n h.msixMasked), fldOf 0 32 h.msixData.toNat]
  else if off = 0xF800 then [fldOf 0 1 (b2n h.msixPending)]
  else []

/-! Other blocks of the control die. -/

/-- The fields of a register of the session and security block (R292, R379). -/
def secFlds (off : Nat) (s : State) : List RFld :=
  let u := s.ubide
  if off < 0x20 then [fldOf 0 64 (cutN u.nonce off 8)]
  else if off = 0xC0 then
    [fldOf 62 2 u.life.code, fldOf 60 2 u.dbg] ++ (List.range 4).map (fun k => fldOf (4 * k) 4 (s.part k).session.code)
  else if off = 0xC8 then [fldOf 56 8 u.failures, fldOf 0 32 (lockMs s)]
  else if off = 0xD0 then [fldOf 0 16 u.resumeS]
  else if off = 0xD8 then
    [fldOf 58 2 (if u.dbg = 2 then u.dpart else 0), fldOf 48 10 (min 1023 (s.cores.filter (fun e => e.2.isHalted)).length)
      , rcOf 40 8 u.denied (fun s => s.onUbide (fun u => { u with denied := 0 })), fldOf 0 32 u.unlocks]
  else []

/-- The fields of a power register (R315). -/
def pwrFlds (off : Nat) (s : State) : List RFld :=
  let w := s.power
  if off = 0 then [fldOf 0 16 w.cap]
  else if off = 8 then
    [fldOf 48 16 w.volts, fldOf 32 16 w.in1ms, fldOf 16 16 w.in1s, rcOf 0 16 w.peak (fun s => s.onPower (fun w => { w with peak := 0 }))]
  else if off = 0x10 then
    [rcOf 48 16 w.capUnmet (fun s => s.onPower (fun w => { w with capUnmet := 0 }))
      , rcOf 32 16 w.inrushDeferred (fun s => s.onPower (fun w => { w with inrushDeferred := 0 }))
      , fldOf 16 16 w.trips, fldOf 8 8 (unitsInUse s)]
  else []

/-- An entry of the error log as its 32 bytes (R358). -/
def LogEntry.bytes (e : LogEntry) : List Byte :=
  leBytes 8 e.tick ++ leBytes 1 e.severity ++ leBytes 1 e.cls ++ leBytes 1 e.unit ++ leBytes 1 e.status ++ leBytes 4 0
    ++ leBytes 8 e.d0 ++ leBytes 8 e.d1

/-- The fields of a register of the error log; its entries are read word by word (R357). -/
def errFlds (off : Nat) (s : State) : List RFld :=
  let l := s.log
  if off = 0 then
    [fldOf 48 16 l.written, rcOf 32 16 l.dropped (fun s => { s with log := { s.log with dropped := 0 } }), fldOf 16 9 l.head
      , rcOf 0 9 l.fatal (fun s => { s with log := { s.log with fatal := 0 } })]
  else if off = 8 then [fldOf 0 9 l.tail]
  else if 0x1000 ≤ off ∧ off < 0x5000 then
    match l.ring.find? (fun e => e.1 == (off - 0x1000) / 32) with
    | some (_, e) => [fldOf 0 64 (cutN e.bytes (off % 32) 8)]
    | none => []
  else []

/-- The fields of a register of the reset controller (R345, R346). -/
def rstFlds (off : Nat) (s : State) : List RFld :=
  let r := s.rst
  if off = 0 then [fldOf 0 64 (causeWord r)]
  else if off = 8 then
    [fldOf 56 8 r.failedStarts, rcOf 32 16 r.forced (fun s => s.onRst (fun r => { r with forced := 0 }))
      , rcOf 16 16 r.escalations (fun s => s.onRst (fun r => { r with escalations := 0 }))
      , rcOf 0 16 r.blockResets (fun s => s.onRst (fun r => { r with blockResets := 0 }))]
  else if off = 0x10 then (List.range 9).map (fun i => fldOf (4 * i) 4 (if i = 3 ∨ i = 5 then 0xF else levelOf s i))
  else []

/-! BAR0 (R269, R272). -/

/-- The fields of the 8-byte register at a BAR0 address. -/
def bar0Flds (a : Nat) (s : State) : List RFld :=
  if a < 0x10000 then modFlds a s
  else if a < 0x20000 then secFlds (a - 0x10000) s
  else if a < 0x30000 then pwrFlds (a - 0x20000) s
  else if a < 0x40000 then errFlds (a - 0x30000) s
  else if a < 0x50000 then rstFlds (a - 0x40000) s
  else if 0x1000000 ≤ a ∧ a < 0x1400000 then panelFlds ((a - 0x1000000) / 0x10000) (a % 0x10000) s
  else if 0x2000000 ≤ a ∧ a < 0x2100000 then lnkFlds ((a - 0x2000000) / 0x10000) (a % 0x10000) s
  else []

/-- BAR0 addresses that read memory of the control die: result windows and SEC_REPORT (R283, R292). -/
def bar0Raw (a : Nat) : Bool :=
  (decide (0x100000 ≤ a) && decide (a < 0x200000)) || (decide (0x11000 ≤ a) && decide (a < 0x12000))

/-- The host reads the publish word of partition `k` (R284). -/
def publishRead (k : Nat) (s : State) : State := s.onPart k (fun K => { K with partial_ := false })

/-- A read of 4 or 8 bytes of BAR0. -/
def bar0Read (a len : Nat) (s : State) : List Byte × State :=
  if bar0Raw a then
    let b := memBytes s.mem (2 ^ 48 + a) len
    let k := (a - 0x100000) / 0x40000
    (b, if 0x100000 ≤ a ∧ overlap (a % 0x40000) len 0x40 8 then publishRead k s else s)
  else readReg (bar0Flds (a - a % 8) s) (a % 8) len s

/-! MSI-X (R268, R271). -/

/-- A pending message leaves once nothing holds it. -/
def msixGo (s : State) : State :=
  s.onHost (fun h => if h.msixPending && !h.msixMasked && !h.d3 then { h with msixPending := false, msixSent := h.msixSent + 1 } else h)

/-- MSIX_UNMASK. -/
def msixUnmask (s : State) : State := if !pcieUp s then s else msixGo (s.onHost (fun h => { h with msixMasked := false }))

/-- PCIE_POWER_STATE_CHANGE (R268). -/
def pciePower (d3 : Bool) (s : State) : State := if !pcieUp s then s else msixGo (s.onHost (fun h => { h with d3 := d3 }))

/-- FUNCTION_LEVEL_RESET (R268). -/
def flrNow (s : State) : State :=
  if !pcieUp s then s
  else
    s.onHost (fun h =>
      { h with
        sel := 0, retry := 0, ur := 0, ep := 0, lastSt := 0, fabStatus := 0, fabInc := false, fabSize := 3, fabAddr := 0
        rejValid := false, rejTag := 0, rejOp := 0, rejCount := 0, msixAddr := 0, msixData := 0, msixMasked := true, msixPending := false })

/-- A host access that was not served leaves its status (R276). -/
def noteUnserved (st : Nat) (s : State) : State := s.onHost (fun h => { h with lastSt := if st = 0 then h.lastSt else st })

/-! The fabric window (R277). -/

/-- Counts an access completed Unsupported Request or Completer Abort, with its status if it has one, and reports it
through AER (R268, R269; log 143). -/
def hostUr (completion st : Nat) (s : State) : State :=
  s.onHost (fun h =>
    { h with
      aer := h.aer + 1, ur := inc 16 h.ur, lastSt := if st = 0 then h.lastSt else st, out := { data := [], ep := false, status := completion } })

/-- A fabric-window access ends: status, and for a read its data, zero where it was not served. -/
def fabDone (wr : Bool) (st : Nat) (data : List Byte) (ep : Bool) (s : State) : State :=
  let served := decide (st = 0) || decide (st = 0x0E) || decide (st = 0x09)
  let d := fix 8 (if served then data else [])
  let s := s.onHost (fun h => { h with fabStatus := st, lastSt := if st = 0 then h.lastSt else st })
  if wr then reply [] false 0 s
  else reply d ep 0 (s.onHost (fun h => { h with fabData := BitVec.ofNat 64 (leNat d) }))

/-- The checks of R277 before the target's own: rows 1 and the host's row 2. -/
def fabCheck (s : State) (a len : Nat) (wr : Bool) : Nat :=
  match targetOf a len with
  | none => 0x03
  | some t =>
    let closed : Bool := match partOf s t.panel with | some k => decide ((s.part k).session ≠ .opened) | none => false
    let guarded : Bool := match t with | .ctl _ _ _ => wr | _ => true
    let dev : Bool := match t with | .stk p off => stackReserved s p off len | _ => false
    if closed && guarded then 0x02 else if dev then 0x0F else 0

/-- The panel to which a host request goes. -/
def hostPanel (q : HostReq) : Nat := match targetOf q.addr 1 with | some t => t.panel | none => 0

/-- Sends a host request to its stack or scratchpad. -/
def sendHost (tag : Nat) (q : HostReq) (s : State) : State :=
  let (_, e) := expectOf s q.addr
  let k := mkRequest s .die (if q.wr then .write else .read) q.addr q.len tag 0 0 e q.data
    (if q.wr then List.replicate (ceilDiv q.len 64) q.pois else [])
  launchPacket { k with pos := .there } s

/-- Starts a host request (R270, R277). -/
def newHost (fab wr : Bool) (addr len : Nat) (data : List Byte) (pois : Bool) (s : State) : State :=
  let tag := s.host.nextTag
  let q : HostReq :=
    { fab := fab, wr := wr, addr := addr, len := len, data := data, pois := pois, since := s.now, refusals := 0, phase := .sent
      aborted := false }
  sendHost tag q (s.onHost (fun h => { h with nextTag := tag + 1, reqs := Tab.set h.reqs tag q }))

/-- A fabric-window access (R276, R277). -/
def fabAccess (wr : Option W64) (s : State) : State :=
  let h := s.host
  let (a, len) := (h.fabAddr, 2 ^ h.fabSize)
  let isW := wr.isSome
  let data := leBytes len (wr.getD 0).toNat
  if a % len ≠ 0 then fabDone isW 0x03 [] false s
  else
    let s := if h.fabInc then s.onHost (fun h => { h with fabAddr := (a + len) % 2 ^ 48 }) else s
    let c := fabCheck s a len isW
    if c ≠ 0 then fabDone isW c [] false s
    else
      match targetOf a len with
      | some (.spd n off) =>
        if beingCarried s n then newHost true isW a len (if isW then data else []) false s
        else
          let st := hostSpdStatus s n off len
          if st ≠ 0 then fabDone isW st [] false s
          else if isW then fabDone true 0 [] false (spdWrite n (atOff off data) [] s)
          else
            let (r, s) := spdRead 3 n off len s
            fabDone false (if r.bad.isEmpty then 0 else 0x0E) r.bytes (!r.bad.isEmpty) s
      | some (.ctl p u off) =>
        let st := ctlStatus s p u off
        if carriedTarget s a len then newHost true isW a len (if isW then data else []) false s
        else if st ≠ 0 then fabDone isW st [] false s
        else if isW then
          let (st, s) := unitWrite .host p u off data s
          fabDone true st [] false s
        else
          let (b, s) := unitRead p u off len s
          fabDone false 0 b false s
      | some (.stk _ _) => newHost true isW a len (if isW then data else []) false s
      | none => fabDone isW 0x03 [] false s

/-- FAB_DATA_READ and FAB_DATA_WRITE. -/
def fabRead (s : State) : State := if pcieUp s then fabAccess none s else s
def fabWrite (v : W64) (s : State) : State := if pcieUp s then fabAccess (some v) s else s

/-! BAR2 (R270). -/

/-- What BAR2 reaches: the fabric address of the staging area, or none for the update buffer. -/
inductive Bar2 where
  | staging (base : Nat)
  | buffer
  | unsupported

/-- The target that BAR2_SEL names (R270, R276, R350). -/
def bar2Target (s : State) : Bar2 :=
  if s.host.sel = 7 then .buffer
  else if 4 ≤ s.host.sel ∨ s.mstate = .recovery ∨ !(s.part s.host.sel).defined then .unsupported
  else .staging (stackKey (anchorOf s s.host.sel) stagingBase)

/-- A write of the update buffer: with EP its lines of 64 bytes are marked poisoned; a write that covers a whole line
without EP clears its mark (R270; log 144). -/
def bufferWrite (y : Nat) (data : List Byte) (ep : Bool) (s : State) : State :=
  let lines := (List.range (ceilDiv (y + data.length) 64 - y / 64)).map (fun i => y / 64 + i)
  let s := { s with mem := memPutBytes s.mem (bufferKey + y) data }
  s.onUbide (fun u =>
    { u with
      bufPois := lines.foldl (fun m l =>
        if ep then Tab.set m l true else if y ≤ 64 * l ∧ 64 * l + 64 ≤ y + data.length then Tab.del m l else m) u.bufPois })

/-- BAR2_READ. -/
def bar2Read (y len : Nat) (s : State) : State :=
  if !pcieUp s then s
  else if len = 0 ∨ 4096 < len ∨ 2 ^ 30 < y + len then hostUr 1 0 s
  else
    match bar2Target s with
    | .unsupported => hostUr 1 0 s
    | .buffer =>
      let ep := bufferBad s y (min len (2 ^ 23 - y))
      reply ((List.range len).map (fun i => if y + i < 2 ^ 23 then memGet s.mem (bufferKey + y + i) else 0)) ep 0
        (if ep then s.onHost (fun h => { h with lastSt := 0x0E }) else s)
    | .staging b => newHost false false (b + y) len [] false s

/-- BAR2_WRITE. -/
def bar2Write (y : Nat) (data : List Byte) (ep : Bool) (s : State) : State :=
  if !pcieUp s then s
  else if data = [] ∨ 512 < data.length ∨ 2 ^ 30 < y + data.length then hostUr 1 0 s
  else
    match bar2Target s with
    | .unsupported => hostUr 1 0 s
    | .buffer => reply [] false 0 (bufferWrite y (data.take (2 ^ 23 - y)) ep s)
    | .staging b => reply [] false 0 (newHost false true (b + y) data.length data ep s)

/-- A reply reaches the control die for the host (R270, R277). A request refused for a full tracker waits to be sent
again, on the schedule of R165, counted in the cycles of the panel that refused it (log 142). -/
def hostReply (k : Packet) (s : State) : State :=
  let s := dropPacket k.pid s
  match s.host.reqs.find? (fun e => e.1 == k.tag) with
  | none => s
  | some (_, q) =>
    if k.status = 0x0D then
      let m := q.refusals + 1
      let q := { q with refusals := m, phase := .retry ((s.panel (hostPanel q)).cyc + backoff m) }
      s.onHost (fun h => { h with reqs := Tab.set h.reqs k.tag q })
    else
      let s := s.onHost (fun h => { h with reqs := Tab.del h.reqs k.tag })
      let bad := k.pois.any id || decide (k.status = 0x0E) || decide (k.status = 0x09)
      let st := if k.status = 0 ∧ !q.wr ∧ bad then 0x0E else k.status
      if q.fab then fabDone q.wr st k.data (!q.wr && bad) s
      else if st = 0 then (if q.wr then s else reply k.data false 0 s)
      else if !q.wr ∧ bad then reply k.data true 0 (s.onHost (fun h => { h with lastSt := st }))
      else if q.wr then s.onHost (fun h => { h with ur := inc 16 h.ur, lastSt := st })
      else hostUr 1 st s

/-- REQUEST_RETRY of the control die: a refused request goes out again once its backoff has passed, and counts (R270). -/
def retryHost (tag : Nat) (s : State) : State :=
  match s.host.reqs.find? (fun e => e.1 == tag) with
  | some (_, q) =>
    match q.phase with
    | .retry t =>
      let P := s.panel (hostPanel q)
      if P.cyc < t ∧ !P.lost ∧ P.power ≠ .off then s
      else
        let q := { q with phase := .sent }
        sendHost tag q (s.onHost (fun h => { h with retry := inc 16 h.retry, reqs := Tab.set h.reqs tag q }))
    | _ => s
  | none => s

/-- HOST_COMPLETION_ABORT: the oldest BAR2 access not served within 50 ms of its arrival (R270). A write
completes later at the stack. -/
def hostAbort (s : State) : State :=
  match s.host.reqs.find? (fun e => !e.2.fab && !e.2.aborted && decide (e.2.since + 5000000 ≤ s.now)) with
  | none => s
  | some (tag, q) =>
    if q.wr then
      s.onHost (fun h =>
        { h with ur := inc 16 h.ur, lastSt := 0x05, aer := h.aer + 1, reqs := Tab.set h.reqs tag { q with aborted := true } })
    else hostUr 2 0x05 (s.onHost (fun h => { h with reqs := Tab.del h.reqs tag }))

/-! Writes (R4, R272). -/

/-- The host clears an attention bit (R271). -/
def clearAttention (s : State) : State := { s with attention := false }

/-- SEC_CFG.resume_s (R292). -/
def writeResume (v : Nat) (s : State) : State := s.onUbide (fun u => { u with resumeS := if v = 0 then 1 else v })

/-- ERR_TAIL (R357): entries before the new tail are freed; a value that is not between tail and head is
ignored. -/
def writeTail (v : Nat) (s : State) : State :=
  let n := (v + 512 - s.log.tail) % 512
  if s.log.held.length < n then s else { s with log := { s.log with held := s.log.held.drop n, tail := v % 512 } }

/-- The proof registers take a word (R288, R292). -/
def writeProof (i : Nat) (v mask : Nat) (s : State) : State :=
  s.onUbide (fun u =>
    let w := mergeBits (cutN u.proof (8 * i) 8) v mask
    { u with proof := u.proof.take (8 * i) ++ leBytes 8 w ++ u.proof.drop (8 * i + 8) })

/-- The opcodes of R282 with their meanings. -/
def opMeaning (op : Nat) : Option (Cmd → State → State) :=
  match op with
  | 0x01 => some cmdIdentify | 0x02 => some cmdOpen | 0x03 => some cmdResume | 0x04 => some cmdClose | 0x05 => some cmdAttest
  | 0x10 => some cmdDefine | 0x11 => some cmdPower | 0x12 => some cmdWave | 0x13 => some cmdGauge
  | 0x20 => some cmdLoad | 0x21 => some cmdLaunch | 0x22 => some cmdStop | 0x23 => some cmdRelease
  | 0x30 => some cmdTrain | 0x31 => some cmdRole | 0x40 => some cmdReset | 0x41 => some cmdBindOff
  | 0x50 => some cmdDarn | 0x51 => some cmdFence | 0x52 => some cmdRetire | 0x53 => some cmdScrub | 0x54 => some cmdZeroize
  | 0x60 => some cmdUnlock | 0x61 => some cmdLock | 0x70 => some cmdFirmware | 0x71 => some cmdRecovery
  | _ => none

/-- A write of CMD_OP with an opcode that R282 does not list (R280). -/
def cmdUndefined (op : Nat) (q : Cmd) (s : State) : State :=
  match opMeaning op with
  | some f => f q s
  | none => runCmd op q (fun _ => Rules.plain true) id s

/-- A write of CMD_OP after the arguments and the tag (R278). -/
def opWrite (op : Nat) (s : State) : State :=
  let a := fun (i : Nat) => s.host.args.getD i 0
  cmdUndefined op
    { tag := BitVec.ofNat 8 s.host.cmdTag, a0 := a 0, a1 := a 1, a2 := a 2, a3 := a 3, a4 := a 4, a5 := a 5, a6 := a 6, a7 := a 7 } s

/-- A write to the module block. -/
def modWrite (off v mask : Nat) (s : State) : State :=
  let w := v &&& mask
  let merged := mergeBits (regVal (modFlds off s)) v mask
  if off = 0x0010 then s.onHost (fun h => { h with sel := merged % 8 })
  else if off = 0x0020 then
    s.onHost (fun h => { h with fabInc := merged.testBit 54, fabSize := fld merged 53 52, fabAddr := fld merged 47 0 })
  else if off = 0x0028 then fabAccess (some (BitVec.ofNat 64 w)) s
  else if off = 0x0100 then (if w.testBit 57 then clearAttention s else s)
  else if 0x0108 ≤ off ∧ off < 0x0128 then
    (if w.testBit 57 then s.onPart ((off - 0x0108) / 8) (fun K => { K with attention := false }) else s)
  else if off = 0x0200 then s.onHost (fun h => { h with cmdTag := merged % 256 })
  else if 0x0208 ≤ off ∧ off < 0x0248 then
    s.onHost (fun h => { h with args := h.args.set ((off - 0x0208) / 8) (BitVec.ofNat 64 merged) })
  else if off = 0x0280 then (if mask.testBit 0 then opWrite (w % 256) s else s)
  else if off = 0x0288 then
    (if w.testBit 63 then s.onHost (fun h => { h with rejValid := false, rejTag := 0, rejOp := 0 }) else s)
  else if off = 0xF000 then s.onHost (fun h => { h with msixAddr := BitVec.ofNat 64 merged })
  else if off = 0xF008 then
    msixGo (s.onHost (fun h => { h with msixData := BitVec.ofNat 32 merged, msixMasked := merged.testBit 32 }))
  else s

/-- A write of 4 or 8 bytes of BAR0: `v` and `mask` are those of the 8-byte register that holds them. -/
def bar0Write (a v mask : Nat) (s : State) : State :=
  let off := a - a % 8
  if off < 0x10000 then modWrite off v mask s
  else if 0x10040 ≤ off ∧ off < 0x10080 then writeProof ((off - 0x10040) / 8) v mask s
  else if off = 0x100D0 then (if mask.testBit 0 then writeResume (fld v 15 0) s else s)
  else if 0x12000 ≤ off ∧ off < 0x13000 then
    let b := (leBytes 8 v).zipIdx.filter (fun e => mask.testBit (8 * e.2))
    { s with mem := b.foldl (fun m e => memPut m (2 ^ 48 + off + e.2) e.1) s.mem }
  else if off = 0x20000 then (if mask.testBit 0 then writeCap (fld v 15 0) s else s)
  else if off = 0x30008 then (if mask.testBit 0 then writeTail (fld v 8 0) s else s)
  else if 0x1000000 ≤ off ∧ off < 0x1400000 then (panelWrite false ((off - 0x1000000) / 0x10000) (off % 0x10000) v mask s).2
  else if 0x2000000 ≤ off ∧ off < 0x2100000 then
    let (st, s) := lnkWrite .host ((off - 0x2000000) / 0x10000) (off % 0x10000) v mask s
    noteUnserved st s
  else s

/-! The commands of a register read and a register write. -/

/-- A BAR0 access that R269 accepts. -/
def bar0Valid (a size : Nat) : Bool := (decide (size = 4) || decide (size = 8)) && decide (a % size = 0) && decide (a < 2 ^ 26)

/-- BAR0_ACCESS_INVALID (R269). -/
def bar0Invalid (a size : Nat) (s : State) : State := if pcieUp s && !bar0Valid a size then hostUr 1 0 s else s

/-- A register access of a sequencer, of 8 bytes, to a control unit of its own panel. -/
def seqReg (p a size : Nat) : Option (Nat × Nat) :=
  match targetOf a 8 with
  | some (.ctl q u off) => if q = p ∧ u ≠ 0x11 ∧ size = 8 then some (u, off) else none
  | _ => none

/-- CLEARING_READ (R4, R6, R269): a read over BAR0, or by a sequencer of its own panel's control units. -/
def clearingRead (src : Source) (a size : Nat) (s : State) : Host.Outcome State Fault Refusal :=
  match src with
  | .host =>
    if !pcieUp s then .next s
    else if !bar0Valid a size then .next (hostUr 1 0 s)
    else if 0x3000000 ≤ a then windowNow false (a - 0x3000000) size false 0 s
    else if a / 8 * 8 = 0x28 then .next (fabAccess none s)
    else
      let (b, s) := bar0Read a size s
      .next (reply b false 0 s)
  | .seq p =>
    match seqReg p a size with
    | some (u, off) => .next (if ctlStatus s p u off = 0 ∧ !carriedTarget s a 8 then (unitRead p u off 8 s).2 else s)
    | none => .next s

/-- REGISTER_WRITE (R4, R269). -/
def registerWrite (src : Source) (a size : Nat) (v : W64) (s : State) : Host.Outcome State Fault Refusal :=
  match src with
  | .host =>
    if !pcieUp s then .next s
    else if !bar0Valid a size then .next (hostUr 1 0 s)
    else if 0x3000000 ≤ a then windowNow false (a - 0x3000000) size true (v.toNat % 256 ^ size) s
    else
      let sh := 2 ^ (8 * (a % 8))
      .next (bar0Write a (v.toNat % 256 ^ size * sh) (byteMask (a % 8) size) s)
  | .seq p =>
    match seqReg p a size with
    | some (u, off) => .next (if ctlStatus s p u off = 0 ∧ !carriedTarget s a 8 then (unitWrite (.seq p) p u off (leBytes 8 v.toNat) s).2 else s)
    | none => .next s

/-- PUBLISH_WORD_READ (R284). -/
def publishWordRead (k : Nat) (s : State) : State :=
  if pcieUp s ∧ k < 4 then
    let (b, s) := bar0Read (0x100000 + k * 0x40000 + 0x40) 8 s
    reply b false 0 s
  else s

/-! Registers with a row of their own. -/

/-- SEC_CFG_WRITE, ERR_TAIL_WRITE, PWR_CAP_WRITE, DBG_SEL_WRITE: the host's own. -/
def hostWrite (f : State → State) (s : State) : State := if pcieUp s then f s else s

/-- A write of a register of a panel or port block by its source: over BAR0, or by the panel's own sequencer
where R32 serves it. -/
def blockWrite (src : Source) (p u off : Nat) (f : State → State) (s : State) : State :=
  match src with
  | .host => if pcieUp s then f s else s
  | .seq q => if q = p ∧ ctlStatus s p u off = 0 then f s else s

/-! Replies (R156, R170, R192). -/

/-- A reply that has reached its requester. -/
def replyNow (k : Packet) (s : State) : State :=
  match k.src with
  | .core n => if k.op = .read then coreReply k n s else coreAck k n s
  | .seq p => seqReply k p s
  | .port o => portReply k o s
  | .die => hostReply k s
  | .stack p => stackReply k p s

/-- REPLY_ARRIVAL, WRITE_ACKNOWLEDGE and POSTED_STORE_FAULT: the reply of packet `pid`, of the kind that a
command names. -/
def replyIf (kind : Packet → Bool) (pid : Nat) (s : State) : State :=
  match packetOf s pid with
  | some k => if k.reply && decide (k.pos = .there) && kind k then replyNow k s else s
  | none => s

/-- SCRATCHPAD_ZEROIZATION (R143): a core on which no context is resident. -/
def zeroizeNow (n : Nat) (s : State) : State :=
  if 35328 ≤ n ∨ isDead s n ∨ (s.core n).residents then s else zeroizeCore n s

end Sys2Proof.Machine
end

