-- ==== Sys2Proof/Machine/Forms.lean ====
section
/-! DEFINITION. The shared shapes of the commands: an issue of a slot by a core or a sequencer, and a write
of a register by its source. -/

namespace Sys2Proof.Machine

open Sys2Proof

/-- The words of a panel: a sequencer exists on each of the 64 panels (R60). -/
def seqWord (p : Nat) (i : CIns) (s : State) : State := if p < 64 then seqStep p i s else s

/-- A word without a meaning on a sequencer (R60). -/
def seqNoWord (p : Nat) (s : State) : State := if p < 64 then seqUndefined p s else s

/-- The issue of a control slot (R33, R60). -/
def atC (w : Site) (i : CIns) (s : State) : Host.Outcome State Fault Refusal :=
  match w.agent with
  | .core n => .next (if n < 35328 then issueC n i w.w1 w.w2 w.w3 s else s)
  | .seq p => .next (seqWord p i s)

/-- The issue of a matrix slot; a sequencer word has no matrix slot (R60). -/
def atM (w : Site) (i : MIns) (s : State) : Host.Outcome State Fault Refusal :=
  match w.agent with
  | .core n => .next (if n < 35328 then issueM n i w.w1 w.w2 w.w3 s else s)
  | .seq p => .next (seqNoWord p s)

/-- The issue of a vector slot; a sequencer word has none (R60). -/
def atV (w : Site) (i : VIns) (s : State) : Host.Outcome State Fault Refusal :=
  match w.agent with
  | .core n => .next (if n < 35328 then issueV n i w.w1 w.w2 w.w3 s else s)
  | .seq p => .next (seqNoWord p s)

/-- The issue of a stream slot; a sequencer word has none (R60). -/
def atS (w : Site) (i : SIns) (s : State) : Host.Outcome State Fault Refusal :=
  match w.agent with
  | .core n => .next (if n < 35328 then issueS n i w.w1 w.w2 w.w3 s else s)
  | .seq p => .next (seqNoWord p s)

/-- A word that spells no instruction, issued by a core or a sequencer (R57, R60). -/
def atRaw (g : Agent) (b : Bundle) (s : State) : Host.Outcome State Fault Refusal :=
  match g with
  | .core n => .next (if n < 35328 then issueRaw n b s else s)
  | .seq p => .next (seqNoWord p s)

/-- A held bundle tries again (R45). -/
def releaseHeld (n : Nat) (s : State) : State :=
  match (s.core n).held with
  | some b => haltTry n (issueRaw n b s)
  | none => s

/-- The store of sequencer `q` that has reached its address is answered with a status (R60). -/
def answerStf (q a : Nat) (data : List Byte) (st : Nat) (s : State) : State :=
  match s.packets.find? (fun k => k.src == Src.seq q && !k.reply && decide (k.pos = .there) && k.dst == a && k.data == data) with
  | some k => answer k.pid st [] [] s
  | none => s

/-- An 8-byte write of a control unit over the fabric by its source: the host, which gets its status in the fabric window
(R277), or the panel's own sequencer, where R32 serves it, which gets it as the status of its store. A write to a core that
is being carried waits (R25). -/
def fabricWrite (src : Source) (p u off : Nat) (v : W64) (f : State → Nat × State) (s : State) : State :=
  let a := 2 ^ 47 + p * 2 ^ 40 + u * 2 ^ 32 + off
  let data := leBytes 8 v.toNat
  if 64 ≤ p then s
  else
    match src with
    | .host =>
      let c := fabCheck s a 8 true
      let st := ctlStatus s p u off
      if !pcieUp s then s
      else if c ≠ 0 then fabDone true c [] false s
      else if carriedTarget s a 8 then newHost true true a 8 data false s
      else if st ≠ 0 then fabDone true st [] false s
      else let (st, s) := f s; fabDone true st [] false s
    | .seq q =>
      if q ≠ p ∨ ctlStatus s p u off ≠ 0 ∨ carriedTarget s a 8 then s
      else let (st, s) := f s; answerStf q a data st s

/-- A write of register `r` of 16 of core `n`, of the region registers or the reduction entries (R137, R186). -/
def coreRegister (src : Source) (n base r : Nat) (v : W64) (f : State → Nat × State) (s : State) : State :=
  if n < 35328 ∧ r < 16 then
    fabricWrite src (panelOf n) 0x10 ((lyOf n * 23 + lxOf n) * 0x10000 + base + 8 * r) v f s
  else s

/-- PNL_POWER_OFF (R301). A sequencer's write is refused, as the status of its store, and its p7 clears. -/
def powerOffWrite (src : Source) (p : Nat) (s : State) : State :=
  if 64 ≤ p then s
  else
    match src with
    | .host => if pcieUp s then (offRequest false p s).2 else s
    | .seq q =>
      let a := 2 ^ 47 + p * 2 ^ 40 + 0x0008
      let s := (offRequest true p s).2.onSeq q (fun r => { r with regs := r.regs.setP 7 false })
      match s.packets.find? (fun k =>
          k.src == Src.seq q && !k.reply && decide (k.pos = .there) && k.dst == a && (leNat k.data).testBit 56) with
      | some k => answer k.pid 0x0F [] [] s
      | none => s

/-- A write of a register of port `o`: over BAR0, or by the sequencer of one of the port's panels (R220). -/
def linkWrite (src : Source) (o : Nat) (f : State → State) (s : State) : State :=
  if 16 ≤ o then s
  else
    match src with
    | .host => if pcieUp s then f s else s
    | .seq q =>
      let i := (portsAt q).idxOf o
      if i < (portsAt q).length ∧ ctlStatus s q (4 + i) 0 = 0 then f s else s

/-- A post by its source (R229): a refused one leaves its status with the host, or with the store of the sequencer. -/
def linkPost (code : Nat) (src : Source) (o : Nat) (w0 w1 w2 w3 : W64) (s : State) : State :=
  linkWrite src o (fun s =>
    let (st, s) := postNow code src o w0 w1 w2 w3 s
    match src with
    | .host => noteUnserved st s
    | .seq q =>
      let i := (portsAt q).idxOf o
      answerStf q (2 ^ 47 + q * 2 ^ 40 + (4 + i) * 2 ^ 32 + 0x118) (leBytes 8 w3.toNat) st s) s

/-- The 50 V input at a voltage in mV for longer than the ride-through (R385): in range it is reported, out of
range the module is unpowered, above the absolute maximum nothing is guaranteed. -/
def inputRange (mv : Nat) (s : State) : Host.Outcome State Fault Refusal :=
  if 60000 < mv then .fault .aboveAbsoluteMaximum
  else if 46000 ≤ mv ∧ mv ≤ 54000 then .next (s.onPower (fun w => { w with volts := mv / 10 }))
  else .next (inputLost s)

end Sys2Proof.Machine
end

