-- ==== Sys2Proof/Machine/CastOnEvents.lean ====
section
/-! DEFINITION. The meanings of the commands of one family: cast-on and bring-up (chapter 15). -/

namespace Sys2Proof.Machine

open Sys2Proof

/-- CAST_ON (R316). Module cast-on verifies firmware, reads fuses and awaits PCIe and panel waves. -/
def execCastOn (s : State) : Host.Outcome State Fault Refusal := .next (castOnNow s)

/-- CAST_ON_FINISH (R318). After a clean gauge check the panels are placed and the module becomes READY. -/
def execCastOnFinish (s : State) : Host.Outcome State Fault Refusal := .next (castFinish s)

/-- CAST_ON_FAIL (R317). A cast-on step fails or the 30 s limit passes, setting FAULT or RECOVERY. -/
def execCastOnFail (code : BitVec 8) (s : State) : Host.Outcome State Fault Refusal :=
  .next (Sys2Proof.Machine.castOnFail code.toNat s)

/-- CAST_ON_RESTART (R349). A cast-on that failed before step 3 restarts 1 s later. -/
def execCastOnRestart (s : State) : Host.Outcome State Fault Refusal := .next (castRestart s)

/-- PANEL_BRING_UP (R321). A panel of a wave ramps rails, locks its PLL, self-tests, builds its map and trains its
stack. -/
def execPanelBringUp (p : Nat) (bad : List Nat) (s : State) : Host.Outcome State Fault Refusal :=
  .next (if p < 64 then bringUp p bad s else s)

/-- PANEL_BRING_UP_DONE (R321). A panel completes or fails bring-up after firmware broadcast. -/
def execPanelBringUpDone (p : Nat) (ok : Bool) (stepNo : Nat) (s : State) : Host.Outcome State Fault Refusal :=
  .next (if p < 64 then bringDone p ok stepNo s else s)

end Sys2Proof.Machine
end

