-- ==== Sys2Proof/Machine/ControlSlot.lean ====
section
/-! DEFINITION. The meanings of the commands of one family: the control slot of a core and the words that cores and sequencers share (chapter 03). -/

namespace Sys2Proof.Machine

open Sys2Proof

/-- ADD (R39). Control-slot ADD writes the sum of two scalar registers. -/
def execAdd (w : Site) (i : CR) (s : State) : Host.Outcome State Fault Refusal := atC w (.add i) s

/-- SUB (R39). Control-slot SUB writes the difference of two scalar registers. -/
def execSub (w : Site) (i : CR) (s : State) : Host.Outcome State Fault Refusal := atC w (.sub i) s

/-- AND (R39). Control-slot AND writes the bitwise AND of two scalar registers. -/
def execAndS (w : Site) (i : CR) (s : State) : Host.Outcome State Fault Refusal := atC w (.andS i) s

/-- OR (R39). Control-slot OR writes the bitwise OR of two scalar registers. -/
def execOrS (w : Site) (i : CR) (s : State) : Host.Outcome State Fault Refusal := atC w (.orS i) s

/-- XOR (R39). Control-slot XOR writes the bitwise XOR of two scalar registers. -/
def execXorS (w : Site) (i : CR) (s : State) : Host.Outcome State Fault Refusal := atC w (.xorS i) s

/-- SHL (R39). Control-slot SHL shifts a scalar left by b[5:0]. -/
def execShl (w : Site) (i : CR) (s : State) : Host.Outcome State Fault Refusal := atC w (.shl i) s

/-- SHR (R39). Control-slot SHR shifts a scalar right logically by b[5:0]. -/
def execShr (w : Site) (i : CR) (s : State) : Host.Outcome State Fault Refusal := atC w (.shr i) s

/-- SRA (R39). Control-slot SRA shifts a scalar right arithmetically by b[5:0]. -/
def execSra (w : Site) (i : CR) (s : State) : Host.Outcome State Fault Refusal := atC w (.sra i) s

/-- MIN (R39). Control-slot MIN writes the signed or unsigned minimum of two scalars. -/
def execMinS (w : Site) (i : CR) (s : State) : Host.Outcome State Fault Refusal := atC w (.minS i) s

/-- MAX (R39). Control-slot MAX writes the signed or unsigned maximum of two scalars. -/
def execMaxS (w : Site) (i : CR) (s : State) : Host.Outcome State Fault Refusal := atC w (.maxS i) s

/-- MUL (R39). Control-slot MUL writes the low 64 bits of a product with latency 3. -/
def execMul (w : Site) (i : CR) (s : State) : Host.Outcome State Fault Refusal := atC w (.mul i) s

/-- MULH (R39). Control-slot MULH writes the signed high 64 bits of a product. -/
def execMulh (w : Site) (i : CR) (s : State) : Host.Outcome State Fault Refusal := atC w (.mulh i) s

/-- CMP (R39). Control-slot CMP writes a predicate from a comparison selected by f. -/
def execCmp (w : Site) (i : CR) (s : State) : Host.Outcome State Fault Refusal := atC w (.cmp i) s

/-- SEL (R39). Control-slot SEL selects one of two scalars by a predicate. -/
def execSel (w : Site) (i : CR) (s : State) : Host.Outcome State Fault Refusal := atC w (.sel i) s

/-- ADDI (R39). Control-slot ADDI adds a sign-extended 14-bit immediate. -/
def execAddi (w : Site) (i : CI) (s : State) : Host.Outcome State Fault Refusal := atC w (.addi i) s

/-- ANDI (R39). Control-slot ANDI ANDs a zero-extended 14-bit immediate. -/
def execAndi (w : Site) (i : CI) (s : State) : Host.Outcome State Fault Refusal := atC w (.andi i) s

/-- LUI (R39). Control-slot LUI loads a sign-extended 19-bit immediate shifted left by 14. -/
def execLui (w : Site) (i : CU) (s : State) : Host.Outcome State Fault Refusal := atC w (.lui i) s

/-- ORI (R39). Control-slot ORI ORs a zero-extended 14-bit immediate. -/
def execOri (w : Site) (i : CI) (s : State) : Host.Outcome State Fault Refusal := atC w (.ori i) s

/-- AMOV (R39). AMOV copies scalar bits [47:0] into an address register. -/
def execAmov (w : Site) (i : CR) (s : State) : Host.Outcome State Fault Refusal := atC w (.amov i) s

/-- AGET (R39). AGET zero-extends an address register into a scalar. -/
def execAget (w : Site) (i : CR) (s : State) : Host.Outcome State Fault Refusal := atC w (.aget i) s

/-- AADD (R39). AADD adds a scalar to an address register modulo 2^48. -/
def execAadd (w : Site) (i : CR) (s : State) : Host.Outcome State Fault Refusal := atC w (.aadd i) s

/-- AADDI (R39). AADDI adds a sign-extended immediate to an address register modulo 2^48. -/
def execAaddi (w : Site) (i : CI) (s : State) : Host.Outcome State Fault Refusal := atC w (.aaddi i) s

/-- AFORM (R39). AFORM builds a space-00 scratchpad address from cy, cx and an offset. -/
def execAform (w : Site) (i : CR) (s : State) : Host.Outcome State Fault Refusal := atC w (.aform i) s

/-- KMOV (R39). KMOV copies a scalar into a lane mask register, refusing k0. -/
def execKmov (w : Site) (i : CR) (s : State) : Host.Outcome State Fault Refusal := atC w (.kmov i) s

/-- KGET (R39). KGET copies a lane mask into a scalar. -/
def execKget (w : Site) (i : CR) (s : State) : Host.Outcome State Fault Refusal := atC w (.kget i) s

/-- KTAIL (R39). KTAIL sets a mask with ones in lanes 0 to min(s,64)-1. -/
def execKtail (w : Site) (i : CR) (s : State) : Host.Outcome State Fault Refusal := atC w (.ktail i) s

/-- KOP (R39). KOP combines two lane masks by AND, OR, XOR or ANDN. -/
def execKop (w : Site) (i : CR) (s : State) : Host.Outcome State Fault Refusal := atC w (.kop i) s

/-- POP (R39). POP combines predicates by a logical operation. -/
def execPop (w : Site) (i : CR) (s : State) : Host.Outcome State Fault Refusal := atC w (.pop i) s

/-- LD (R40). LD loads a scalar from scratchpad with near or far latency, or from sequencer memory. -/
def execLd (w : Site) (i : CM) (s : State) : Host.Outcome State Fault Refusal := atC w (.ld i) s

/-- ST (R40). ST stores a scalar to scratchpad or sequencer memory as a narrow write. -/
def execSt (w : Site) (i : CM) (s : State) : Host.Outcome State Fault Refusal := atC w (.st i) s

/-- LDF (R41). LDF reserves an LDF slot entry and sends a fabric read request. -/
def execLdf (w : Site) (i : CQ) (s : State) : Host.Outcome State Fault Refusal := atC w (.ldf i) s

/-- STF (R41). STF pushes an address and data into an STF slot for a posted store. -/
def execStf (w : Site) (i : CQ) (s : State) : Host.Outcome State Fault Refusal := atC w (.stf i) s

/-- SRD (R41). SRD reads the next 8-byte entry of a slot into a scalar, raising the entry's status exception. -/
def execSrd (w : Site) (i : CQ) (s : State) : Host.Outcome State Fault Refusal := atC w (.srd i) s

/-- SWR (R149). SWR pushes a scalar as an 8-byte entry into an OUT slot. -/
def execSwr (w : Site) (i : CQ) (s : State) : Host.Outcome State Fault Refusal := atC w (.swr i) s

/-- BR (R42). BR branches by off20 after two delay bundles if the predicate matches sense. -/
def execBr (w : Site) (i : CB) (s : State) : Host.Outcome State Fault Refusal := atC w (.br i) s

/-- JMP (R42). JMP branches unconditionally by off20 after two delay bundles. -/
def execJmp (w : Site) (i : CB) (s : State) : Host.Outcome State Fault Refusal := atC w (.jmp i) s

/-- JR (R42). JR branches to the bundle index held in a scalar. -/
def execJr (w : Site) (i : CR) (s : State) : Host.Outcome State Fault Refusal := atC w (.jr i) s

/-- LOOP (R43). LOOP opens a hardware loop level with a count from a scalar. -/
def execLoop (w : Site) (i : CLoop) (s : State) : Host.Outcome State Fault Refusal := atC w (.loop i) s

/-- LOOPI (R43). LOOPI opens a hardware loop level with an immediate count. -/
def execLoopi (w : Site) (i : CLoopI) (s : State) : Host.Outcome State Fault Refusal := atC w (.loopi i) s

/-- WAIT (R49). WAIT waits with the clock running for an event or a tick timeout. -/
def execWait (w : Site) (i : CE) (s : State) : Host.Outcome State Fault Refusal := atC w (.wait i) s

/-- REST (R51). REST declares a horizon and wake event and enters the deepest allowed core state once results retire.
-/
def execRest (w : Site) (i : CE) (s : State) : Host.Outcome State Fault Refusal := atC w (.rest i) s

/-- YIELD (R55). YIELD is a context boundary at which a pending switch is made. -/
def execYield (w : Site) (i : CR) (s : State) : Host.Outcome State Fault Refusal := atC w (.yield i) s

/-- END (R55). END ends the context, which becomes EMPTY after its outstanding work completes. -/
def execEndC (w : Site) (i : CR) (s : State) : Host.Outcome State Fault Refusal := atC w (.endC i) s

/-- SIG (R61). SIG sets a sequencer flag of the core's panel. -/
def execSig (w : Site) (i : CR) (s : State) : Host.Outcome State Fault Refusal := atC w (.sig i) s

/-- ARRIVE (R61). ARRIVE adds 1 to a sequencer barrier counter. -/
def execArrive (w : Site) (i : CR) (s : State) : Host.Outcome State Fault Refusal := atC w (.arrive i) s

/-- MFC (R40). MFC reads a control register such as CYCLE, ISSUE, TICK or SCRATCH. -/
def execMfc (w : Site) (i : CR) (s : State) : Host.Outcome State Fault Refusal := atC w (.mfc i) s

/-- MTC (R40). MTC writes the SCRATCH control register. -/
def execMtc (w : Site) (i : CR) (s : State) : Host.Outcome State Fault Refusal := atC w (.mtc i) s

/-- NOP (R33). A bundle whose four slots all hold NOP issues, advancing pc and any loop level. -/
def execNop (w : Site) (s : State) : Host.Outcome State Fault Refusal := atC w (.nop 0) s

/-- UNDEFINED_OPCODE (R57). A bundle slot or sequencer word with an undefined opcode raises EXC_ILLEGAL at issue, or
sequencer fault ILLEGAL. -/
def execUndefinedOpcode (g : Agent) (b : Bundle) (s : State) : Host.Outcome State Fault Refusal := atRaw g b s

end Sys2Proof.Machine
end

