-- ==== Sys2Proof/Machine/CoreEvents.lean ====
section
/-! DEFINITION. The meanings of the commands of one family: what a core does between the issue of bundles (chapters 03 to 07). -/

namespace Sys2Proof.Machine

open Sys2Proof

/-- WAIT_COMPLETE (R49). A WAIT completes when its event occurs or its timeout expires, writing pd. -/
def execWaitComplete (n : Nat) (s : State) : Host.Outcome State Fault Refusal := .next (if n < 35328 then waitDone n s else s)

/-- REST_STATE_ENTRY (R302). Once earlier results retire, the core chooses IDLE or DOZE from learned costs and enters
it. -/
def execRestStateEntry (n : Nat) (s : State) : Host.Outcome State Fault Refusal := .next (if n < 35328 then restEntry n s else s)

/-- CORE_WAKE (R303). A resting core wakes on its event or horizon expiry and returns to RUN, updating W for DOZE. -/
def execCoreWake (n : Nat) (s : State) : Host.Outcome State Fault Refusal :=
  .next (if n < 35328 then haltTry n (Sys2Proof.Machine.coreWake n s) else s)

/-- RESULT_RETIRE (R34). A fixed-latency result retires into its register L issue cycles after issue. -/
def execResultRetire (n : Nat) (s : State) : Host.Outcome State Fault Refusal := .next (if n < 35328 then retireNow n s else s)

/-- INTERLOCK_RELEASE (R45). A bundle held at the slot, drain or refresh interlock issues all slots once every
interlock releases. -/
def execInterlockRelease (n : Nat) (s : State) : Host.Outcome State Fault Refusal :=
  .next (if n < 35328 then releaseHeld n s else s)

/-- LATE_EXCEPTION (R58). An exception detected when data reach the core stops the context at that issue cycle. -/
def execLateException (n : Nat) (s : State) : Host.Outcome State Fault Refusal := .next (if n < 35328 then lateNow n s else s)

/-- CONTEXT_BOUNDARY_SWITCH (R55). After outstanding work completes at a boundary, the context is saved and a pending
switch restores another. -/
def execContextBoundarySwitch (n : Nat) (s : State) : Host.Outcome State Fault Refusal :=
  .next (if n < 35328 then haltTry n (finishBoundary n s) else s)

/-- POSTED_STORE_FAULT (R41). A posted store completes unserved, setting post_fault for the next WAIT POSTED, YIELD or
END. -/
def execPostedStoreFault (pid : Nat) (s : State) : Host.Outcome State Fault Refusal :=
  .next (replyIf (fun k => decide (k.op = .posted) && decide (k.status ≠ 0) && decide (k.status ≠ 0x0D)) pid s)

/-- SHADOW_PART_WRITE (R76). A part of a weight tile is read and written into the shadow in its cycle after issue. -/
def execShadowPartWrite (n : Nat) (arr : Nat) (s : State) : Host.Outcome State Fault Refusal :=
  .next (if n < 35328 ∧ arr < 2 then partNow n arr s else s)

/-- ACCUMULATE_ROW (R70). An output row is added into its accumulator row 20 cycles after its input cycle. -/
def execAccumulateRow (n : Nat) (arr : Nat) (s : State) : Host.Outcome State Fault Refusal :=
  .next (if n < 35328 ∧ arr < 2 then accumulateNow n arr s else s)

/-- DRAIN_OP_START (R87). A queued drain-unit operation starts its read phase once it heads the queue, the unit is
free and its tile's writes have landed. -/
def execDrainOpStart (n : Nat) (arr : Nat) (s : State) : Host.Outcome State Fault Refusal :=
  .next (if n < 35328 ∧ arr < 2 then drainStart n arr s else s)

/-- DRAIN_OP_EMIT_DONE (R87). A drain-unit operation finishes writing its results and frees the unit. -/
def execDrainOpEmitDone (n : Nat) (arr : Nat) (s : State) : Host.Outcome State Fault Refusal :=
  .next (if n < 35328 ∧ arr < 2 then drainDone n arr s else s)

/-- LANE_GENERATOR_ADVANCE (R106). Free-running lane and column generators advance once per active panel cycle. -/
def execLaneGeneratorAdvance (p : Nat) (s : State) : Host.Outcome State Fault Refusal :=
  .next (if p < 64 then panelCycle p s else s)

/-- CORRECTION_WRITE_BACK (R134). A corrected scratchpad line is written back within 64 cycles unless a write came
first. -/
def execCorrectionWriteBack (n : Nat) (line : Nat) (s : State) : Host.Outcome State Fault Refusal :=
  .next (if n < 35328 then writeBackNow n line s else s)

/-- SCRATCHPAD_ZEROIZATION (R143). A core's whole scratchpad, marks and region registers are zeroized. -/
def execScratchpadZeroization (n : Nat) (s : State) : Host.Outcome State Fault Refusal :=
  .next (if n < 35328 then zeroizeNow n s else s)

end Sys2Proof.Machine
end

