-- ==== Sys2Proof/Machine/DebugAccess.lean ====
section
/-! DEFINITION. The meanings of the commands of one family: debug, JTAG and I3C (R374 to R380, R388). -/

namespace Sys2Proof.Machine

open Sys2Proof

/-- DBG_SEL_WRITE (R380). A write to DBG_SEL selects a core and context unless the selected core is halted. -/
def execDbgSelWrite (v : W64) (s : State) : Host.Outcome State Fault Refusal := .next (hostWrite (selWrite v.toNat) s)

/-- DBG_HALT (R375). Writing DBG_CTL.halt stops the selected core and saves its context to the debug buffer. -/
def execDbgHalt (s : State) : Host.Outcome State Fault Refusal := .next (hostWrite haltNow s)

/-- DBG_RESUME (R375). Writing DBG_CTL.resume restores the image and continues issue. -/
def execDbgResume (s : State) : Host.Outcome State Fault Refusal := .next (hostWrite resumeNow s)

/-- DBG_STEP (R375). Writing DBG_CTL.step restores the image, issues one bundle and halts again. -/
def execDbgStep (s : State) : Host.Outcome State Fault Refusal := .next (hostWrite stepNow s)

/-- DEBUG_WINDOW_ACCESS (R374). An access through the debug window is served or refused by level and target state. -/
def execDebugWindowAccess (jtag : Bool) (y : Nat) (size : Nat) (wr : Bool) (v : W64) (s : State) : Host.Outcome State Fault Refusal :=
  windowNow jtag y size wr v.toNat s

/-- JTAG_INSTRUCTION (R377). A JTAG instruction selects IDCODE, BYPASS, boundary scan or DBGACC. -/
def execJtagInstruction (code : JtagCode) (s : State) : Host.Outcome State Fault Refusal := .next (jtagNow code s)

/-- TAP_RESET (R377). TRST# assertion, or the test-logic reset, resets the TAP and selects IDCODE. -/
def execTapReset (s : State) : Host.Outcome State Fault Refusal := .next (tapResetNow s)

/-- DYNAMIC_ADDRESS_ASSIGNMENT (R388). The tray's I3C controller assigns the module's dynamic address as an I3C
target. -/
def execDynamicAddressAssignment (da : BitVec 7) (s : State) : Host.Outcome State Fault Refusal := .next (assignI3c da s)

end Sys2Proof.Machine
end

