-- ==== Sys2Proof/Machine/FabricEvents.lean ====
section
/-! DEFINITION. The meanings of the commands of one family: the fabric (chapters 02, 07 and 09). -/

namespace Sys2Proof.Machine

open Sys2Proof

/-- REMOTE_REQUEST (R32). A request arrives at a target and is checked in the order of R32 and served or answered. -/
def execRemoteRequest (pid : Nat) (s : State) : Host.Outcome State Fault Refusal := .next (remoteNow pid s)

/-- REPLY_ARRIVAL (R192). A reply arrives at a requester and is accepted or discarded for a stale epoch. -/
def execReplyArrival (pid : Nat) (s : State) : Host.Outcome State Fault Refusal :=
  .next (replyIf (fun k => decide (k.op = .read)) pid s)

/-- MESH_FORWARD (R178). A router, seam, crossbar or bridge forwards a packet by its route class. -/
def execMeshForward (pid : Nat) (s : State) : Host.Outcome State Fault Refusal := .next (Sys2Proof.Machine.meshForward pid s)

/-- REDUCTION_COMBINE (R188). When all expected inputs carry the same element, a router adds them in fixed order and
forwards the sum. -/
def execReductionCombine (n : Nat) (r : Nat) (s : State) : Host.Outcome State Fault Refusal :=
  .next (if n < 35328 ∧ r < 16 then combine n r s else s)

/-- BROADCAST_DELIVERY (R190). A broadcast packet spreads over the tree and cores in its rectangle take copies. -/
def execBroadcastDelivery (pid : Nat) (n : Nat) (s : State) : Host.Outcome State Fault Refusal :=
  .next (if n < 35328 then deliverCast pid n s else s)

/-- EPOCH_NOTICE (R192). A changed epoch travels to every hub and the block is released once all acknowledge. -/
def execEpochNotice (i : Nat) (s : State) : Host.Outcome State Fault Refusal :=
  .next (trainEnds (Sys2Proof.Machine.epochNotice i s))

/-- ROUTE_TABLE_UPDATE (R183). The command processor recomputes route tables and the broadcast tree after a panel
change. -/
def execRouteTableUpdate (s : State) : Host.Outcome State Fault Refusal := .next (tablesAfter s)

/-- ROUTE_TABLE_ARRIVAL (R184). A new table reaches a hub or router and held packets are routed again. -/
def execRouteTableArrival (p : Nat) (s : State) : Host.Outcome State Fault Refusal :=
  .next (if p < 64 then waveEnds (tableArrives p s) else s)

/-- SPD_REGION_WRITE (R139). A write to a region register is applied or refused WRONG_STATE or BAD_ARGUMENT. -/
def execSpdRegionWrite (src : Source) (n : Nat) (r : Nat) (v : W64) (s : State) : Host.Outcome State Fault Refusal :=
  .next (coreRegister src n 0x100 r v (writeRegion n r v.toNat) s)

/-- FAB_RED_WRITE (R186). A write to a reduction entry is applied or refused. -/
def execFabRedWrite (src : Source) (n : Nat) (r : Nat) (v : W64) (s : State) : Host.Outcome State Fault Refusal :=
  .next (coreRegister src n 0x200 r v (writeRed n r v.toNat) s)

end Sys2Proof.Machine
end

