-- ==== Sys2Proof/Machine/HostAccess.lean ====
section
/-! DEFINITION. The meanings of the commands of one family: accesses over PCI Express and to registers (R4, R6, R268 to R277, R284). -/

namespace Sys2Proof.Machine

open Sys2Proof

/-- BAR0_ACCESS_INVALID (R269). A BAR0 access of the wrong size or alignment completes Unsupported Request. -/
def execBar0AccessInvalid (addr : Nat) (size : Nat) (s : State) : Host.Outcome State Fault Refusal :=
  .next (bar0Invalid addr size s)

/-- BAR2_READ (R270). A host read through BAR2 reaches the staging area or update buffer. -/
def execBar2Read (y : Nat) (len : Nat) (s : State) : Host.Outcome State Fault Refusal :=
  .next (Sys2Proof.Machine.bar2Read y len s)

/-- BAR2_WRITE (R270). A host write through BAR2 reaches the staging area or update buffer. -/
def execBar2Write (y : Nat) (data : List Byte) (ep : Bool) (s : State) : Host.Outcome State Fault Refusal :=
  .next (Sys2Proof.Machine.bar2Write y data ep s)

/-- HOST_COMPLETION_ABORT (R270). A BAR2 request not served within 50 ms completes Completer Abort. -/
def execHostCompletionAbort (s : State) : Host.Outcome State Fault Refusal := .next (hostAbort s)

/-- FAB_DATA_READ (R277). A read of FAB_DATA performs a checked fabric read at FAB_ADDR. -/
def execFabDataRead (s : State) : Host.Outcome State Fault Refusal := .next (fabRead s)

/-- FAB_DATA_WRITE (R277). A write of FAB_DATA performs a checked fabric write at FAB_ADDR. -/
def execFabDataWrite (v : W64) (s : State) : Host.Outcome State Fault Refusal := .next (fabWrite v s)

/-- PUBLISH_WORD_WRITE (R284). A sequencer STF to the result window writes bytes and, at the publish word, sets
PSTAT.partial. -/
def execPublishWordWrite (p : Nat) (x : Nat) (data : List Byte) (s : State) : Host.Outcome State Fault Refusal :=
  .next (if p < 64 then publishNow p x data s else s)

/-- PUBLISH_WORD_READ (R284). A host read of the publish word clears PSTAT.partial. -/
def execPublishWordRead (k : Nat) (s : State) : Host.Outcome State Fault Refusal :=
  .next (if k < 4 then Sys2Proof.Machine.publishWordRead k s else s)

/-- FUNCTION_LEVEL_RESET (R268). A PCIe FLR resets the host-side registers and MSI-X state. -/
def execFunctionLevelReset (s : State) : Host.Outcome State Fault Refusal := .next (flrNow s)

/-- PCIE_POWER_STATE_CHANGE (R268). The function moves between D0 and D3hot, stopping or resuming MSI-X. -/
def execPciePowerStateChange (d3 : Bool) (s : State) : Host.Outcome State Fault Refusal := .next (pciePower d3 s)

/-- PNL_POWER_OFF (R301). Writing 1 to PNL_POWER.off requests one panel to power off. -/
def execPnlPowerOff (src : Source) (p : Nat) (s : State) : Host.Outcome State Fault Refusal := .next (powerOffWrite src p s)

/-- PNL_TENSION_LIMIT_WRITE (R313). A write to PNL_TENSION.limit sets the host step limit, clamping 6 and 7 to 5. -/
def execPnlTensionLimitWrite (src : Source) (p : Nat) (v : BitVec 3) (s : State) : Host.Outcome State Fault Refusal :=
  .next (if p < 64 then blockWrite src p 0 0x0010 (writeLimit p v.toNat) s else s)

/-- PWR_CAP_WRITE (R309). A write to PWR_CAP sets the module power cap clamped to 16-42 kW. -/
def execPwrCapWrite (v : BitVec 16) (s : State) : Host.Outcome State Fault Refusal := .next (hostWrite (writeCap v.toNat) s)

/-- SEC_CFG_WRITE (R292). A write to SEC_CFG.resume_s sets the resume timeout for the next suspension. -/
def execSecCfgWrite (v : BitVec 16) (s : State) : Host.Outcome State Fault Refusal := .next (hostWrite (writeResume v.toNat) s)

/-- ERR_TAIL_WRITE (R357). A write to ERR_TAIL frees error-log entries if it lies between tail and head. -/
def execErrTailWrite (v : BitVec 9) (s : State) : Host.Outcome State Fault Refusal := .next (hostWrite (writeTail v.toNat) s)

/-- REGISTER_WRITE (R4). A write to a register with no row of its own acts by its access code. -/
def execRegisterWrite (src : Source) (addr : Access) (v : W64) (s : State) : Host.Outcome State Fault Refusal :=
  Sys2Proof.Machine.registerWrite src addr.addr addr.size v s

/-- CLEARING_READ (R6). A read of an RC field returns its value and then clears it, with a same-cycle event winning.
-/
def execClearingRead (src : Source) (addr : Access) (s : State) : Host.Outcome State Fault Refusal :=
  Sys2Proof.Machine.clearingRead src addr.addr addr.size s

/-- MSIX_UNMASK (R271). The host unmasks the MSI-X vector and the device sends the message whose pending bit was set.
-/
def execMsixUnmask (s : State) : Host.Outcome State Fault Refusal := .next (Sys2Proof.Machine.msixUnmask s)

end Sys2Proof.Machine
end

