-- ==== Sys2Proof/Machine/HostCommands.lean ====
section
/-! DEFINITION. The meanings of the commands of one family: the commands of the command window (R278 to R282). -/

namespace Sys2Proof.Machine

open Sys2Proof

/-- IDENTIFY (R282). IDENTIFY returns serial, repair summary, lifecycle and firmware version. -/
def execIdentify (q : Cmd) (s : State) : Host.Outcome State Fault Refusal := .next (cmdIdentify q s)

/-- SESSION_OPEN (R288). SESSION_OPEN issues a challenge in phase 0 or verifies a proof and opens the session in phase
1. -/
def execSessionOpen (q : Cmd) (s : State) : Host.Outcome State Fault Refusal := .next (cmdOpen q s)

/-- SESSION_RESUME (R290). SESSION_RESUME authenticates and reloads the key of a suspended session. -/
def execSessionResume (q : Cmd) (s : State) : Host.Outcome State Fault Refusal := .next (cmdResume q s)

/-- SESSION_CLOSE (R291). SESSION_CLOSE records the last step, zeroizes, destroys the key and closes the session. -/
def execSessionClose (q : Cmd) (s : State) : Host.Outcome State Fault Refusal := .next (cmdClose q s)

/-- ATTEST (R361). ATTEST writes a signed attestation report over a host nonce. -/
def execAttest (q : Cmd) (s : State) : Host.Outcome State Fault Refusal := .next (cmdAttest q s)

/-- PARTITION_DEFINE (R282). PARTITION_DEFINE defines or removes a partition of whole panels. -/
def execPartitionDefine (q : Cmd) (s : State) : Host.Outcome State Fault Refusal := .next (cmdDefine q s)

/-- PARTITION_POWER (R299). PARTITION_POWER sets a partition's target power state and ceiling. -/
def execPartitionPower (q : Cmd) (s : State) : Host.Outcome State Fault Refusal := .next (cmdPower q s)

/-- PANEL_WAVE (R320). PANEL_WAVE raises up to four named panels from OFF or lost. -/
def execPanelWave (q : Cmd) (s : State) : Host.Outcome State Fault Refusal := .next (cmdWave q s)

/-- GAUGE_CHECK (R324). GAUGE_CHECK compares discovered and expected topology and reports the first difference. -/
def execGaugeCheck (q : Cmd) (s : State) : Host.Outcome State Fault Refusal := .next (cmdGauge q s)

/-- LOAD_IMAGE (R287). LOAD_IMAGE checks a pattern image and broadcasts its sections. -/
def execLoadImage (q : Cmd) (s : State) : Host.Outcome State Fault Refusal := .next (cmdLoad q s)

/-- CONTEXT_LAUNCH (R282). CONTEXT_LAUNCH launches a context on a rectangle with selections and may start sequencers.
-/
def execContextLaunch (q : Cmd) (s : State) : Host.Outcome State Fault Refusal := .next (cmdLaunch q s)

/-- CONTEXT_STOP (R282). CONTEXT_STOP stops a context on a rectangle and may stop sequencers. -/
def execContextStop (q : Cmd) (s : State) : Host.Outcome State Fault Refusal := .next (cmdStop q s)

/-- STEP_RELEASE (R242). STEP_RELEASE ends a down-bit HOLD or sends event kind 6 to the sequencers. -/
def execStepRelease (q : Cmd) (s : State) : Host.Outcome State Fault Refusal := .next (cmdRelease q s)

/-- LINK_TRAIN (R226). LINK_TRAIN trains the named ports. -/
def execLinkTrain (q : Cmd) (s : State) : Host.Outcome State Fault Refusal := .next (cmdTrain q s)

/-- LINK_ROLE (R228). LINK_ROLE sets a port's role, job and commit_out, retrains and loads step records. -/
def execLinkRole (q : Cmd) (s : State) : Host.Outcome State Fault Refusal := .next (cmdRole q s)

/-- RESET (R344). RESET starts a reset of the given level on a target. -/
def execReset (q : Cmd) (s : State) : Host.Outcome State Fault Refusal := .next (cmdReset q s)

/-- BIND_OFF (R282). BIND_OFF waits for the step's outcome, stops contexts and ports and makes the partition READY. -/
def execBindOff (q : Cmd) (s : State) : Host.Outcome State Fault Refusal := .next (cmdBindOff q s)

/-- DARN (R333). DARN fences if needed and darns a core. -/
def execDarn (q : Cmd) (s : State) : Host.Outcome State Fault Refusal := .next (cmdDarn q s)

/-- FENCE (R333). FENCE fences a core or site by command. -/
def execFence (q : Cmd) (s : State) : Host.Outcome State Fault Refusal := .next (cmdFence q s)

/-- RETIRE_PAGE (R206). RETIRE_PAGE redirects a stack page to a spare page. -/
def execRetirePage (q : Cmd) (s : State) : Host.Outcome State Fault Refusal := .next (cmdRetire q s)

/-- SCRUB (R205). SCRUB runs an immediate scrub pass over a unit range. -/
def execScrub (q : Cmd) (s : State) : Host.Outcome State Fault Refusal := .next (cmdScrub q s)

/-- ZEROIZE (R282). ZEROIZE zeroizes the scratchpad of cores in a rectangle. -/
def execZeroize (q : Cmd) (s : State) : Host.Outcome State Fault Refusal := .next (cmdZeroize q s)

/-- DEBUG_UNLOCK (R372). DEBUG_UNLOCK raises the debug level after certificate checks. -/
def execDebugUnlock (q : Cmd) (s : State) : Host.Outcome State Fault Refusal := .next (cmdUnlock q s)

/-- DEBUG_LOCK (R373). DEBUG_LOCK lowers the debug level. -/
def execDebugLock (q : Cmd) (s : State) : Host.Outcome State Fault Refusal := .next (cmdLock q s)

/-- FIRMWARE_UPDATE (R364). FIRMWARE_UPDATE verifies and installs a firmware image or owner record. -/
def execFirmwareUpdate (q : Cmd) (s : State) : Host.Outcome State Fault Refusal := .next (cmdFirmware q s)

/-- RECOVERY_IMAGE (R350). RECOVERY_IMAGE verifies and installs an image in RECOVERY and schedules a MODULE reset. -/
def execRecoveryImage (q : Cmd) (s : State) : Host.Outcome State Fault Refusal := .next (cmdRecovery q s)

/-- UNDEFINED_COMMAND (R280). A write to CMD_OP with an undefined opcode completes BAD_ARGUMENT. -/
def execUndefinedCommand (op : BitVec 8) (q : Cmd) (s : State) : Host.Outcome State Fault Refusal :=
  .next (cmdUndefined op.toNat q s)

end Sys2Proof.Machine
end

