-- ==== Sys2Proof/Machine/HostEvents.lean ====
section
/-! DEFINITION. The meanings of the commands of one family: how commands and sessions go on and end (R281, R289, R290, R319). -/

namespace Sys2Proof.Machine

open Sys2Proof

/-- AUTOMATIC_WAVE (R319). The command processor raises the next four panels of an automatic power-up. -/
def execAutomaticWave (k : Nat) (s : State) : Host.Outcome State Fault Refusal := .next (if k < 4 then autoWave k s else s)

/-- BIND_OFF_TIMEOUT (R282). BIND_OFF's limit expires, voiding the step and completing TIMEOUT. -/
def execBindOffTimeout (k : Nat) (s : State) : Host.Outcome State Fault Refusal :=
  .next (if k < 4 then bindOffTimeoutNow k s else s)

/-- COMMAND_TIMEOUT (R281). A window command not ended within its limit completes TIMEOUT. -/
def execCommandTimeout (s : State) : Host.Outcome State Fault Refusal := .next (commandTimeoutNow s)

/-- PARTITION_COMMAND_END (R281). A partition command ends, writes its command record and clears PSTAT.busy. -/
def execPartitionCommandEnd (k : Nat) (s : State) : Host.Outcome State Fault Refusal :=
  .next (if k < 4 then partCommandEnd k s else s)

/-- RESUME_TIMEOUT (R290). resume_s passes after a reset without resume and the key is destroyed. -/
def execResumeTimeout (k : Nat) (s : State) : Host.Outcome State Fault Refusal :=
  .next (if k < 4 then resumeTimeoutNow k s else s)

/-- LOCKOUT_EXPIRY (R289). The lockout of 2^(f-5) s after the last failure expires, and SESSION_OPEN and
SESSION_RESUME are accepted again. -/
def execLockoutExpiry (s : State) : Host.Outcome State Fault Refusal := .next (s)

end Sys2Proof.Machine
end

