-- ==== Sys2Proof/Machine/LinkEvents.lean ====
section
/-! DEFINITION. The meanings of the commands of one family: link ports (chapter 11). -/

namespace Sys2Proof.Machine

open Sys2Proof

/-- LANE_FAIL (R222). A lane loses signal, lock or exceeds its corrected-symbol count and is spared, dropped or fails
the port. -/
def execLaneFail (o : Nat) (lane : Nat) (s : State) : Host.Outcome State Fault Refusal :=
  .next (if o < 16 then trainEnds (failLane o lane s) else s)

/-- LANE_SWITCH (R222). Both sides switch the failed lane's symbols at an agreed codeword boundary. -/
def execLaneSwitch (o : Nat) (s : State) : Host.Outcome State Fault Refusal := .next (if o < 16 then laneSwitchNow o s else s)

/-- CODEWORD_RECEIVE (R220). An RS(544,514) codeword is decoded, discarding overlapping flits if uncorrectable. -/
def execCodewordReceive (o : Nat) (errs : List (Nat × BitVec 10)) (flits : Nat) (s : State) : Host.Outcome State Fault Refusal :=
  .next (if o < 16 then trainEnds (codeword o errs flits s) else s)

/-- FLIT_IDLE (R223). An IDLE flit delivers acks and credits. -/
def execFlitIdle (o : Nat) (fl : Flit) (s : State) : Host.Outcome State Fault Refusal :=
  .next (if o < 16 then rxPlain o 0 fl s else s)

/-- FLIT_DATA (R230). A DATA flit is delivered in order to its channel and consumed by an entry. -/
def execFlitData (o : Nat) (fl : Flit) (s : State) : Host.Outcome State Fault Refusal :=
  .next (if o < 16 then rxSeq o 1 fl s else s)

/-- FLIT_DATA_END (R230). A DATA_END flit ends a message, which its entry lands, reduces or relays. -/
def execFlitDataEnd (o : Nat) (fl : Flit) (s : State) : Host.Outcome State Fault Refusal :=
  .next (if o < 16 then rxSeq o 2 fl s else s)

/-- FLIT_COMMIT (R236). A COMMIT flit arrives and is held, forwarded, discarded or returns to its origin. -/
def execFlitCommit (o : Nat) (fl : Flit) (s : State) : Host.Outcome State Fault Refusal :=
  .next (if o < 16 then rxSeq o 3 fl s else s)

/-- FLIT_VOID (R239). A VOID flit voids the step or updates the down bit, or is discarded. -/
def execFlitVoid (o : Nat) (fl : Flit) (s : State) : Host.Outcome State Fault Refusal :=
  .next (if o < 16 then rxSeq o 4 fl s else s)

/-- FLIT_REJOIN (R241). A REJOIN flit updates the proposal and ends flushing of old data. -/
def execFlitRejoin (o : Nat) (fl : Flit) (s : State) : Host.Outcome State Fault Refusal :=
  .next (if o < 16 then rxSeq o 5 fl s else s)

/-- FLIT_LANE (R222). A LANE flit agrees a lane switch. -/
def execFlitLane (o : Nat) (fl : Flit) (s : State) : Host.Outcome State Fault Refusal :=
  .next (if o < 16 then trainEnds (rxLane o fl s) else s)

/-- FLIT_IDENT (R226). An IDENT flit carries the peer identity during training. -/
def execFlitIdent (o : Nat) (fl : Flit) (s : State) : Host.Outcome State Fault Refusal :=
  .next (if o < 16 then rxIdent o fl s else s)

/-- FLIT_RESERVED (R223). A flit of a reserved kind is discarded and counted. -/
def execFlitReserved (o : Nat) (kind : BitVec 4) (fl : Flit) (s : State) : Host.Outcome State Fault Refusal :=
  .next (if o < 16 then if 8 ≤ kind.toNat then rxReserved o kind.toNat fl s else s else s)

/-- REPLAY (R224). The sender replays go-back-N from the oldest unacknowledged flit. -/
def execReplay (o : Nat) (s : State) : Host.Outcome State Fault Refusal := .next (if o < 16 then replayGap o s else s)

/-- REPLAY_TIMEOUT (R224). 200 ticks pass with unacknowledged flits and a replay starts. -/
def execReplayTimeout (o : Nat) (s : State) : Host.Outcome State Fault Refusal := .next (if o < 16 then replayLate o s else s)

/-- LINK_SIGNAL_LOSS (R226). No decodable codeword for 1,000 ticks takes the port DOWN. -/
def execLinkSignalLoss (o : Nat) (s : State) : Host.Outcome State Fault Refusal := .next (if o < 16 then signalLoss o s else s)

/-- RETRAIN_ATTEMPT (R226). A DOWN port starts a retrain every 100,000 ticks. -/
def execRetrainAttempt (o : Nat) (s : State) : Host.Outcome State Fault Refusal := .next (if o < 16 then retrainNow o s else s)

/-- TRAINING_COMPLETE (R226). Training ends UP, MISMATCH or DOWN after equalisation and identity exchange. -/
def execTrainingComplete (o : Nat) (s : State) : Host.Outcome State Fault Refusal :=
  .next (if o < 16 then trainEnds (trainingDone o s) else s)

/-- TRAINING_TIMEOUT (R226). Training not complete within 50 ms ends DOWN. -/
def execTrainingTimeout (o : Nat) (s : State) : Host.Outcome State Fault Refusal :=
  .next (if o < 16 then trainEnds (trainingLate o s) else s)

/-- PORT_ABSENT (R217). A port becomes ABSENT when a panel is lost, in reset or OFF. -/
def execPortAbsent (o : Nat) (s : State) : Host.Outcome State Fault Refusal :=
  .next (if o < 16 then trainEnds (portAbsentNow o s) else s)

/-- POST_SEND (R229). Writing LNK_POST3 with op SEND posts a SEND entry. -/
def execPostSend (src : Source) (o : Nat) (w0 : W64) (w1 : W64) (w2 : W64) (w3 : W64) (s : State) : Host.Outcome State Fault Refusal :=
  .next (linkPost 1 src o w0 w1 w2 w3 s)

/-- POST_RECV (R229). Writing LNK_POST3 with op RECV posts a RECV entry. -/
def execPostRecv (src : Source) (o : Nat) (w0 : W64) (w1 : W64) (w2 : W64) (w3 : W64) (s : State) : Host.Outcome State Fault Refusal :=
  .next (linkPost 2 src o w0 w1 w2 w3 s)

/-- POST_REDUCE (R229). Writing LNK_POST3 with op REDUCE posts a REDUCE entry. -/
def execPostReduce (src : Source) (o : Nat) (w0 : W64) (w1 : W64) (w2 : W64) (w3 : W64) (s : State) : Host.Outcome State Fault Refusal :=
  .next (linkPost 3 src o w0 w1 w2 w3 s)

/-- POST_RELAY (R229). Writing LNK_POST3 with op RELAY posts a RELAY entry. -/
def execPostRelay (src : Source) (o : Nat) (w0 : W64) (w1 : W64) (w2 : W64) (w3 : W64) (s : State) : Host.Outcome State Fault Refusal :=
  .next (linkPost 4 src o w0 w1 w2 w3 s)

/-- ENTRY_COMPLETE (R230). A port entry completes and sets its flag, recording any non-OK status. -/
def execEntryComplete (o : Nat) (vc : Nat) (s : State) : Host.Outcome State Fault Refusal :=
  .next (if o < 16 ∧ vc < 4 then Sys2Proof.Machine.entryComplete o vc s else s)

/-- ADDEND_READ_RETRY (R233). A port stack request refused REFUSED_FULL is retried after its backoff. -/
def execAddendReadRetry (o : Nat) (vc : Nat) (s : State) : Host.Outcome State Fault Refusal :=
  .next (if o < 16 ∧ vc < 4 then retryPort o vc s else s)

/-- LNK_CFG_WRITE (R237). A write to LNK_CFG sets link timeouts, clamped to at least 100, deferred if a step is open.
-/
def execLnkCfgWrite (src : Source) (o : Nat) (v : W64) (s : State) : Host.Outcome State Fault Refusal :=
  .next (linkWrite src o (writeLnkCfg src o v) s)

end Sys2Proof.Machine
end

