-- ==== Sys2Proof/Machine/MatrixSlot.lean ====
section
/-! DEFINITION. The meanings of the commands of one family: the matrix slot (chapters 04 and 06). -/

namespace Sys2Proof.Machine

open Sys2Proof

/-- MCFG (R74). MCFG sets the running-sum rounding of an array. -/
def execMcfg (w : Site) (i : McfgF) (s : State) : Host.Outcome State Fault Refusal := atM w (.mcfg i) s

/-- MSEED (R73). MSEED seeds an array's column generators from a scalar. -/
def execMseed (w : Site) (i : MseedF) (s : State) : Host.Outcome State Fault Refusal := atM w (.mseed i) s

/-- MLDW (R76). MLDW loads a dense weight tile and scales into the shadow over 16 or 24 cycles. -/
def execMldw (w : Site) (i : MldwF) (s : State) : Host.Outcome State Fault Refusal := atM w (.mldw i) s

/-- MMUL (R77). MMUL streams activation rows through the active tile, optionally swapping the shadow in. -/
def execMmul (w : Site) (i : MmulF) (s : State) : Host.Outcome State Fault Refusal := atM w (.mmul i) s

/-- MPRE (R82). MPRE preloads tiles with a bias row or residual rows. -/
def execMpre (w : Site) (i : MpreF) (s : State) : Host.Outcome State Fault Refusal := atM w (.mpre i) s

/-- MCLR (R77). MCLR sets tiles to +0.0 and clears their poison. -/
def execMclr (w : Site) (i : MtilesF) (s : State) : Host.Outcome State Fault Refusal := atM w (.mclr i) s

/-- MDRAIN (R88). MDRAIN queues a drain of one tile, converted to an output format, into scratchpad. -/
def execMdrain (w : Site) (i : MdrainF) (s : State) : Host.Outcome State Fault Refusal := atM w (.mdrain i) s

/-- MSPILL (R86). MSPILL queues spills of tiles into their binary64 wide sums. -/
def execMspill (w : Site) (i : MtilesF) (s : State) : Host.Outcome State Fault Refusal := atM w (.mspill i) s

/-- MGRP_OPEN (R84). MGRP with op 1 opens an accumulation group from its scratchpad entry. -/
def execMgrpOpen (w : Site) (i : MgrpF) (s : State) : Host.Outcome State Fault Refusal := atM w (.mgrpOpen i) s

/-- MGRP_CLOSE (R84). MGRP with op 0 writes count back and closes a group. -/
def execMgrpClose (w : Site) (i : MgrpF) (s : State) : Host.Outcome State Fault Refusal := atM w (.mgrpClose i) s

/-- MLDS (R117). MLDS loads a compacted N:M tile with metadata and scales into the shadow. -/
def execMlds (w : Site) (i : MldsF) (s : State) : Host.Outcome State Fault Refusal := atM w (.mlds i) s

/-- SMUL (R123). SMUL streams a chunk of gathered rows, adding each by row id into indexed tiles. -/
def execSmul (w : Site) (i : SmulF) (s : State) : Host.Outcome State Fault Refusal := atM w (.smul i) s

/-- MDRS (R120). MDRS queues a drain of a tile compacted through metadata. -/
def execMdrs (w : Site) (i : MdrsF) (s : State) : Host.Outcome State Fault Refusal := atM w (.mdrs i) s

/-- SMRG (R124). SMRG queues a scatter-add of a tile's rows into scratchpad rows by id. -/
def execSmrg (w : Site) (i : SmrgF) (s : State) : Host.Outcome State Fault Refusal := atM w (.smrg i) s

/-- SCMP (R121). SCMP queues compaction of a dense region through a mask bitmap. -/
def execScmp (w : Site) (i : ScmpF) (s : State) : Host.Outcome State Fault Refusal := atM w (.scmp i) s

/-- STRW (R119). STRW queues a transpose of a compacted 16-bit block. -/
def execStrw (w : Site) (i : StrwF) (s : State) : Host.Outcome State Fault Refusal := atM w (.strw i) s

end Sys2Proof.Machine
end

