-- ==== Sys2Proof/Machine/PowerEvents.lean ====
section
/-! DEFINITION. The meanings of the commands of one family: power, clocks and sensors (chapter 14). -/

namespace Sys2Proof.Machine

open Sys2Proof

/-- SENSOR_SAMPLE (R307). Every 10 µs the supervisor samples temperatures and power. -/
def execSensorSample (p : Nat) (junction : List Nat) (stack : Nat) (watts : Nat) (inputWatts : Nat) (s : State) : Host.Outcome State Fault Refusal :=
  .next (if p < 64 then Sys2Proof.Machine.sensorSample p junction stack watts inputWatts s else s)

/-- GOVERNOR_EVAL (R308). Every 1 ms the governor changes at most one panel by one step. -/
def execGovernorEval (s : State) : Host.Outcome State Fault Refusal := .next (Sys2Proof.Machine.governorEval s)

/-- CLOCK_STEP_CHANGE_DONE (R297). A one-step clock and voltage change completes. -/
def execClockStepChangeDone (p : Nat) (s : State) : Host.Outcome State Fault Refusal :=
  .next (if p < 64 then stepChanged p s else s)

/-- FIRST_USE_HOLD_END (R308). The first-use hold ends 10,000,000 ticks after power-up. -/
def execFirstUseHoldEnd (p : Nat) (s : State) : Host.Outcome State Fault Refusal := .next (if p < 64 then firstUseEnd p s else s)

/-- DROOP (R310). A rail droop stretches the panel clock and is counted. -/
def execDroop (p : Nat) (s : State) : Host.Outcome State Fault Refusal := .next (if p < 64 then droopNow p s else s)

/-- THERMAL_TRIP (R311). A sensor at trip temperature asserts THERM_TRIP#, sets attention and fires its reset source.
-/
def execThermalTrip (p : Nat) (s : State) : Host.Outcome State Fault Refusal :=
  .next (if p < 64 then Sys2Proof.Machine.thermalTrip p s else s)

/-- THERM_TRIP_RELEASE (R338). THERM_TRIP# deasserts when every sensor reads below 95 °C. -/
def execThermTripRelease (s : State) : Host.Outcome State Fault Refusal := .next (tripRelease s)

/-- INRUSH_DEFERRED_WAKE (R306). A deferred wake starts when inrush units free up. -/
def execInrushDeferredWake (s : State) : Host.Outcome State Fault Refusal := .next (closeEnds (inrushWake s))

/-- PANEL_OFF_DONE (R301). A panel commanded OFF reaches OFF within 1 ms, and PNL_POWER.off reads 0. -/
def execPanelOffDone (p : Nat) (s : State) : Host.Outcome State Fault Refusal :=
  .next (if p < 64 then trainEnds (Sys2Proof.Machine.panelOffDone p s) else s)

end Sys2Proof.Machine
end

