-- ==== Sys2Proof/Machine/RepairEvents.lean ====
section
/-! DEFINITION. The meanings of the commands of one family: probes, darning and the hang detector (R327 to R336, R351 to R354). -/

namespace Sys2Proof.Machine

open Sys2Proof

/-- LIVENESS_PROBE (R327). Every 2^14 ticks the sequencer probes every running mapped core. -/
def execLivenessProbe (p : Nat) (s : State) : Host.Outcome State Fault Refusal := .next (if p < 64 then probeNow p s else s)

/-- PROBE_TIMEOUT (R327). A probe unanswered in 1,024 ticks is repeated, and a second miss fences the core. -/
def execProbeTimeout (p : Nat) (n : Nat) (s : State) : Host.Outcome State Fault Refusal :=
  .next (if p < 64 ∧ n < 35328 then Sys2Proof.Machine.probeTimeout p n s else s)

/-- MACHINE_CHECK (R328). A core reports a parity error in its own state and is fenced. -/
def execMachineCheck (n : CheckReport) (s : State) : Host.Outcome State Fault Refusal :=
  .next (Sys2Proof.Machine.machineCheck n.panel n.site n.router s)

/-- DARNING_START (R330). Darning of a fenced core starts, choosing a map change and stopping carried contexts. -/
def execDarningStart (p : Nat) (s : State) : Host.Outcome State Fault Refusal := .next (if p < 64 then darnStart p s else s)

/-- CARRY_STEP_DONE (R331). One carry step of a core's scratchpad to its new site completes. -/
def execCarryStepDone (p : Nat) (s : State) : Host.Outcome State Fault Refusal := .next (if p < 64 then carryDone p s else s)

/-- DARNING_DONE (R330). Darning zeroizes the spare, increments the epoch, sets PNL_FRESH, releases requests and
queues the fuse entry. -/
def execDarningDone (p : Nat) (s : State) : Host.Outcome State Fault Refusal := .next (if p < 64 then darnDone p s else s)

/-- FIELD_REPAIR_FUSE_WRITE (R334). A queued field repair entry is written to the fuse bank. -/
def execFieldRepairFuseWrite (s : State) : Host.Outcome State Fault Refusal := .next (fuseWrite s)

/-- HANG_SNAPSHOT (R352). Every 2^16 ticks a hub snapshots engine waits, edges and progress. -/
def execHangSnapshot (p : Nat) (s : State) : Host.Outcome State Fault Refusal := .next (if p < 64 then hangSnapshotNow p s else s)

/-- HANG_COMBINE (R352). The command processor combines hub snapshots and declares a hang if a closed set persists. -/
def execHangCombine (s : State) : Host.Outcome State Fault Refusal := .next (hangCombineNow s)

/-- SUSPECT_REPLAY (R353). A suspect context is launched alone from its launch record. -/
def execSuspectReplay (s : State) : Host.Outcome State Fault Refusal := .next (suspectReplayNow s)

/-- SUSPECT_REPLAY_END (R353). A replay ends by END, exception, hang, external wait or 2^20 ticks with a verdict. -/
def execSuspectReplayEnd (s : State) : Host.Outcome State Fault Refusal := .next (suspectReplayEndNow s)

/-- HANG_VERDICT (R354). After replays, guilty or all suspects become FAULTED and others EMPTY. -/
def execHangVerdict (s : State) : Host.Outcome State Fault Refusal := .next (hangVerdictNow s)

end Sys2Proof.Machine
end

