-- ==== Sys2Proof/Machine/ResetEvents.lean ====
section
/-! DEFINITION. The meanings of the commands of one family: resets, the loss of a panel, pins and the input (chapters 16 and 18). -/

namespace Sys2Proof.Machine

open Sys2Proof

/-- PANEL_SUPPLY_SHORT (R355). A short trips a panel's eFuse and shuts its converters. -/
def execPanelSupplyShort (p : Nat) (s : State) : Host.Outcome State Fault Refusal := .next (if p < 64 then supplyShort p s else s)

/-- PANEL_LOST (R355). The supervisor reports PANEL_LOST, epochs change, ports go ABSENT and the step is voided. -/
def execPanelLost (p : Nat) (s : State) : Host.Outcome State Fault Refusal :=
  .next (if p < 64 then closeEnds (trainEnds (Sys2Proof.Machine.panelLost p s)) else s)

/-- BLOCK_RESET (R341). A CONTEXT, CORE, PANEL or PORT reset quiesces, drains, resets, renews the epoch and releases.
-/
def execBlockReset (i : Nat) (s : State) : Host.Outcome State Fault Refusal :=
  .next (trainEnds (Sys2Proof.Machine.blockReset i s))

/-- RESET_DRAIN_TIMEOUT (R341). A reset's drain meets its limit and the block is reset forcibly. -/
def execResetDrainTimeout (i : Nat) (s : State) : Host.Outcome State Fault Refusal := .next (trainEnds (drainTimeout i s))

/-- RESET_ESCALATE (R343). A reset not complete within its limit escalates to the next level. -/
def execResetEscalate (i : Nat) (s : State) : Host.Outcome State Fault Refusal := .next (escalate i s)

/-- PARTITION_RESET (R337). A PARTITION reset resets every panel, zeroes the result window and sets job ports OFF. -/
def execPartitionReset (k : Nat) (s : State) : Host.Outcome State Fault Refusal :=
  .next (if k < 4 then trainEnds (Sys2Proof.Machine.partitionReset k s) else s)

/-- MODULE_RESET (R347). A MODULE reset stops every block, suspends sessions and starts cast-on. -/
def execModuleReset (s : State) : Host.Outcome State Fault Refusal := .next (moduleResetNow s)

/-- TRAY_POWER_CYCLE (R348). A tray power cycle destroys keys, requests 50 V removal and takes a MODULE reset. -/
def execTrayPowerCycle (s : State) : Host.Outcome State Fault Refusal := .next (trayCycle s)

/-- PERST_ASSERT (R339). PERST# asserted for 200 ticks fires reset source 1. -/
def execPerstAssert (s : State) : Host.Outcome State Fault Refusal := .next (Sys2Proof.Machine.perstAssert s)

/-- PERST_DEASSERT (R316). PERST# deasserts and PCIe comes up at cast-on step 3. -/
def execPerstDeassert (s : State) : Host.Outcome State Fault Refusal := .next (perstRelease s)

/-- MODULE_RESET_PIN (R339). MODULE_RESET# asserted for 200 ticks fires reset source 2. -/
def execModuleResetPin (s : State) : Host.Outcome State Fault Refusal := .next (Sys2Proof.Machine.moduleResetPin s)

/-- SECURITY_VIOLATION (R338). A Ubide glitch or voltage detector fires a TRAY_POWER_CYCLE. -/
def execSecurityViolation (s : State) : Host.Outcome State Fault Refusal := .next (Sys2Proof.Machine.securityViolation s)

/-- INPUT_OUT_OF_RANGE (R385). The 50 V input leaves range beyond ride-through and the module powers down. -/
def execInputOutOfRange (millivolts : Nat) (s : State) : Host.Outcome State Fault Refusal :=
  Sys2Proof.Machine.inputRange millivolts s

/-- POWER_ON (R385). The input stays in range for 10 ms and the power-on source fires. -/
def execPowerOn (s : State) : Host.Outcome State Fault Refusal := .next (Sys2Proof.Machine.powerOn s)

/-- MODULE_RESET_DEASSERT (R339). MODULE_RESET# deasserts and releases the module held at the start of cast-on step 1.
-/
def execModuleResetDeassert (s : State) : Host.Outcome State Fault Refusal := .next (moduleResetRelease s)

end Sys2Proof.Machine
end

