-- ==== Sys2Proof/Machine/SequencerEvents.lean ====
section
/-! DEFINITION. The meanings of the commands of one family: what a sequencer and its panel do between words (R60, R64, R65, R108, R250, R302). -/

namespace Sys2Proof.Machine

open Sys2Proof

/-- SEQ_WAIT_END (R60). A sequencer wait ends within 64 cycles after its condition holds. -/
def execSeqWaitEnd (p : Nat) (s : State) : Host.Outcome State Fault Refusal :=
  .next (if p < 64 then Sys2Proof.Machine.seqWaitEnd p s else s)

/-- PANEL_REST_ENTRY (R302). Once PREST's wait condition holds the panel chooses ACTIVE, NAP or SLEEP and enters it,
saving contexts for SLEEP. -/
def execPanelRestEntry (p : Nat) (s : State) : Host.Outcome State Fault Refusal :=
  .next (if p < 64 then Sys2Proof.Machine.panelRestEntry p s else s)

/-- PANEL_WAKE (R303). A resting panel wakes on its event, horizon or a device cause, restores contexts and updates W.
-/
def execPanelWake (p : Nat) (s : State) : Host.Outcome State Fault Refusal :=
  .next (if p < 64 then closeEnds (Sys2Proof.Machine.panelWake p s) else s)

/-- STEP_OPEN (R250). When every panel has arrived, the previous step is recorded applied, record n written BEGUN,
flags cleared and snapshots taken. -/
def execStepOpen (k : Nat) (s : State) : Host.Outcome State Fault Refusal := .next (if k < 4 then stepOpenNow k s else s)

/-- PANEL_FLAG_SAMPLE (R108). The sequencer samples the panel flag 32 cycles after STEP_END issues. -/
def execPanelFlagSample (p : Nat) (s : State) : Host.Outcome State Fault Refusal := .next (if p < 64 then flagSample p s else s)

/-- WATCHDOG_EXPIRE (R65). The sequencer watchdog countdown reaches zero and raises a watchdog reset. -/
def execWatchdogExpire (p : Nat) (s : State) : Host.Outcome State Fault Refusal :=
  .next (if p < 64 then Sys2Proof.Machine.watchdogExpire p s else s)

end Sys2Proof.Machine
end

