-- ==== Sys2Proof/Machine/SequencerWords.lean ====
section
/-! DEFINITION. The meanings of the commands of one family: the words of a panel sequencer alone (R62 to R65). -/

namespace Sys2Proof.Machine

open Sys2Proof

/-- LAUNCH (R62). Sequencer LAUNCH launches a context on a core set with arguments from its registers. -/
def execLaunch (p : Nat) (i : CR) (s : State) : Host.Outcome State Fault Refusal := .next (seqWord p (.launch i) s)

/-- CSWITCH (R62). CSWITCH marks a context switch pending on a core set, made at once on idle cores. -/
def execCswitch (p : Nat) (i : CR) (s : State) : Host.Outcome State Fault Refusal := .next (seqWord p (.cswitch i) s)

/-- CSTOP (R62). CSTOP stops a context on a core set at once as a CONTEXT-level reset. -/
def execCstop (p : Nat) (i : CR) (s : State) : Host.Outcome State Fault Refusal := .next (seqWord p (.cstop i) s)

/-- XWAKE (R62). XWAKE sends event kind 4 to a core set, latching pending XWAKE. -/
def execXwake (p : Nat) (i : CR) (s : State) : Host.Outcome State Fault Refusal := .next (seqWord p (.xwake i) s)

/-- FSET (R62). FSET sets a sequencer flag. -/
def execFset (p : Nat) (i : CR) (s : State) : Host.Outcome State Fault Refusal := .next (seqWord p (.fset i) s)

/-- FCLR (R62). FCLR clears a sequencer flag. -/
def execFclr (p : Nat) (i : CR) (s : State) : Host.Outcome State Fault Refusal := .next (seqWord p (.fclr i) s)

/-- FWAIT (R62). FWAIT waits until a sequencer flag is set. -/
def execFwait (p : Nat) (i : CR) (s : State) : Host.Outcome State Fault Refusal := .next (seqWord p (.fwait i) s)

/-- BARRIER (R62). BARRIER waits for a counter to reach a value, subtracts it and sets a flag. -/
def execBarrier (p : Nat) (i : CR) (s : State) : Host.Outcome State Fault Refusal := .next (seqWord p (.barrier i) s)

/-- PREST (R64). PREST waits for every core to rest or be idle, then enters the deepest allowed panel state. -/
def execPrest (p : Nat) (i : CE) (s : State) : Host.Outcome State Fault Refusal := .next (seqWord p (.prest i) s)

/-- STEP_BEGIN (R250). STEP_BEGIN records the frog point and waits for the partition to arrive and leave HOLD. -/
def execStepBegin (p : Nat) (i : CR) (s : State) : Host.Outcome State Fault Refusal := .next (seqWord p (.stepBegin i) s)

/-- STEP_END (R63). STEP_END samples the panel flag after 32 cycles and waits for the commit decision. -/
def execStepEnd (p : Nat) (i : CR) (s : State) : Host.Outcome State Fault Refusal := .next (seqWord p (.stepEnd i) s)

/-- WDOG (R62). WDOG re-arms the sequencer watchdog with a period in ticks. -/
def execWdog (p : Nat) (i : CR) (s : State) : Host.Outcome State Fault Refusal := .next (seqWord p (.wdog i) s)

/-- CWAIT (R62). CWAIT waits until a context is EMPTY or FAULTED on every core of a set. -/
def execCwait (p : Nat) (i : CR) (s : State) : Host.Outcome State Fault Refusal := .next (seqWord p (.cwait i) s)

end Sys2Proof.Machine
end

