-- ==== Sys2Proof/Machine/StackEvents.lean ====
section
/-! DEFINITION. The meanings of the commands of one family: the panel hub and the memory stack (chapters 08 and 10). -/

namespace Sys2Proof.Machine

open Sys2Proof

/-- HUB_REQUEST_ARRIVAL (R163). A stack request arrives at a hub and is tracked or refused REFUSED_FULL. -/
def execHubRequestArrival (pid : Nat) (s : State) : Host.Outcome State Fault Refusal := .next (hubArrive pid s)

/-- HUB_GRANT (R162). The hub grants one 512-byte unit to the oldest request within share, or the oldest waiting. -/
def execHubGrant (p : Nat) (s : State) : Host.Outcome State Fault Refusal :=
  .next (if p < 64 then Sys2Proof.Machine.hubGrant p s else s)

/-- STACK_SECTOR_REWRITE (R201). A corrected stack sector is rewritten within 10 µs unless a write came first. -/
def execStackSectorRewrite (p : Nat) (s : State) : Host.Outcome State Fault Refusal :=
  .next (if p < 64 then rewriteNow p s else s)

/-- READ_MERGE (R204). A narrow stack write reads, decrypts, merges, re-encrypts and writes back its unit. -/
def execReadMerge (p : Nat) (s : State) : Host.Outcome State Fault Refusal := .next (if p < 64 then mergeNow p s else s)

/-- PATROL_SCRUB_READ (R205). Every interval ticks patrol scrub reads and decides one unit. -/
def execPatrolScrubRead (p : Nat) (s : State) : Host.Outcome State Fault Refusal := .next (if p < 64 then scrubRead p s else s)

/-- STACK_FILL (R392). After an initialising bring-up the stack interface fills every sector with zeros and then
starts scrub. -/
def execStackFill (p : Nat) (s : State) : Host.Outcome State Fault Refusal := .next (if p < 64 then fillNow p s else s)

/-- STACK_FILL_DONE (R392). The stack fill ends and patrol scrub starts at offset 0. -/
def execStackFillDone (p : Nat) (s : State) : Host.Outcome State Fault Refusal := .next (if p < 64 then fillDone p s else s)

/-- MIRROR_WRITE (R209). The primary sends a mirrored write to the partner, acknowledged when both copies are
accepted. -/
def execMirrorWrite (p : Nat) (s : State) : Host.Outcome State Fault Refusal := .next (if p < 64 then mirrorWriteNow p s else s)

/-- MIRROR_REBUILD (R210). A returning mirrored panel rebuilds both ranges from the survivor before serving requests.
-/
def execMirrorRebuild (p : Nat) (s : State) : Host.Outcome State Fault Refusal := .next (if p < 64 then rebuildNow p s else s)

/-- MIRROR_REBUILD_DONE (R210). The rebuild ends and mirror_lost clears. -/
def execMirrorRebuildDone (p : Nat) (s : State) : Host.Outcome State Fault Refusal :=
  .next (if p < 64 then rebuildDone p s else s)

/-- STACK_POWER_DOWN (R211). An active stack enters power-down after 1 µs without a request. -/
def execStackPowerDown (p : Nat) (s : State) : Host.Outcome State Fault Refusal := .next (if p < 64 then powerDownNow p s else s)

/-- PAGE_RETIRE_DONE (R206). A page retirement copies the page to a spare, writes the entry and releases held
requests. -/
def execPageRetireDone (p : Nat) (s : State) : Host.Outcome State Fault Refusal := .next (if p < 64 then pageRetired p s else s)

/-- STK_SCRUB_WRITE (R205). A write to STK_SCRUB sets enable and interval, clamping interval to at least 250. -/
def execStkScrubWrite (src : Source) (p : Nat) (v : W64) (s : State) : Host.Outcome State Fault Refusal :=
  .next (fabricWrite src p 3 0x0010 v (fun s => (0, writeScrub p v.toNat (2 ^ 64 - 1) s)) s)

end Sys2Proof.Machine
end

