-- ==== Sys2Proof/Machine/StepEvents.lean ====
section
/-! DEFINITION. The meanings of the commands of one family: the training step (chapters 11 and 12). -/

namespace Sys2Proof.Machine

open Sys2Proof

/-- REDUCE_GAP_TIMEOUT (R237). No reduce flit for timeout ticks after a message began voids the step. -/
def execReduceGapTimeout (o : Nat) (s : State) : Host.Outcome State Fault Refusal := .next (if o < 16 then gapTimeout o s else s)

/-- COMMIT_TIMEOUT (R237). The module's own token not returned within commit_timeout voids the step. -/
def execCommitTimeout (k : Nat) (s : State) : Host.Outcome State Fault Refusal :=
  .next (if k < 4 then commitTimeoutNow k s else s)

/-- REDUCTION_DONE (R252). When STEP_END samples and reduce entries are complete, the non-finite state is fixed and
the token sent. -/
def execReductionDone (k : Nat) (s : State) : Host.Outcome State Fault Refusal :=
  .next (if k < 4 then Sys2Proof.Machine.reductionDone k s else s)

/-- DECIDE_STEP (R255). When its own token returns the partition decides APPLY or SKIP, writes COMMITTED, sets gates
and completes STEP_END. -/
def execDecideStep (k : Nat) (s : State) : Host.Outcome State Fault Refusal :=
  .next (if k < 4 then Sys2Proof.Machine.decideStep k s else s)

/-- STEP_VOID (R238). A void cause voids the open or next step, enters HOLD, discards entries, sends VOID and frogs.
-/
def execStepVoid (k : Nat) (cause : Nat) (s : State) : Host.Outcome State Fault Refusal :=
  .next (if k < 4 then stepVoidNow k cause s else s)

/-- REJOIN_SEND (R240). Each UP job port sends REJOIN every 1,024 ticks while in HOLD. -/
def execRejoinSend (o : Nat) (s : State) : Host.Outcome State Fault Refusal := .next (if o < 16 then rejoinDue o s else s)

/-- HOLD_END (R242). HOLD ends once ports agree and the proposal is stable for 16,384 ticks, entering REPEATING. -/
def execHoldEnd (k : Nat) (s : State) : Host.Outcome State Fault Refusal :=
  .next (if k < 4 then Sys2Proof.Machine.holdEnd k s else s)

end Sys2Proof.Machine
end

