-- ==== Sys2Proof/Machine/StreamEvents.lean ====
section
/-! DEFINITION. The meanings of the commands of one family: the stream engine and its requests (chapter 08). -/

namespace Sys2Proof.Machine

open Sys2Proof

/-- LIST_STOPPED (R154). A STOPPING list becomes IDLE once its issued requests complete. -/
def execListStopped (n : Nat) (k : Nat) (l : Nat) (s : State) : Host.Outcome State Fault Refusal :=
  .next (if n < 35328 ∧ k < 4 ∧ l < 4 then listStoppedNow n k l s else s)

/-- DESC_END (R156). An END descriptor makes its list DONE. -/
def execDescEnd (n : Nat) (l : Nat) (s : State) : Host.Outcome State Fault Refusal :=
  .next (if n < 35328 ∧ l < 4 then descEndNow n l s else s)

/-- DESC_COPY (R156). A COPY descriptor moves rows between fabric addresses or slots, possibly transformed or as a
reduction send. -/
def execDescCopy (n : Nat) (l : Nat) (s : State) : Host.Outcome State Fault Refusal :=
  .next (if n < 35328 ∧ l < 4 then descXferNow (fun k => decide (k = 1) || decide (6 ≤ k)) n l s else s)

/-- DESC_GATHER (R156). A GATHER descriptor moves rows selected by an index list. -/
def execDescGather (n : Nat) (l : Nat) (s : State) : Host.Outcome State Fault Refusal :=
  .next (if n < 35328 ∧ l < 4 then descXferNow (fun k => decide (k = 2)) n l s else s)

/-- DESC_STITCH (R159). A STITCH descriptor passes if its flag is set or puts the list AT_MARKER. -/
def execDescStitch (n : Nat) (l : Nat) (s : State) : Host.Outcome State Fault Refusal :=
  .next (if n < 35328 ∧ l < 4 then descStitchNow n l s else s)

/-- MARKER_PASS (R159). A list at a marker passes it within 8 cycles after its flag is set. -/
def execMarkerPass (n : Nat) (l : Nat) (s : State) : Host.Outcome State Fault Refusal :=
  .next (if n < 35328 ∧ l < 4 then markerPassNow n l s else s)

/-- DESC_SIGNAL (R156). A SIGNAL descriptor arms a flag set once earlier descriptors complete. -/
def execDescSignal (n : Nat) (l : Nat) (s : State) : Host.Outcome State Fault Refusal :=
  .next (if n < 35328 ∧ l < 4 then descSignalNow n l s else s)

/-- SIGNAL_FIRE (R156). When every earlier descriptor of the list completes, the SIGNAL sets its flag. -/
def execSignalFire (n : Nat) (l : Nat) (s : State) : Host.Outcome State Fault Refusal :=
  .next (if n < 35328 ∧ l < 4 then signalFireNow n l s else s)

/-- DESC_LINK (R156). A LINK descriptor continues the list at another offset. -/
def execDescLink (n : Nat) (l : Nat) (s : State) : Host.Outcome State Fault Refusal :=
  .next (if n < 35328 ∧ l < 4 then descLinkNow n l s else s)

/-- ENGINE_REQUEST_ISSUE (R160). The stream engine issues one request of up to 512 bytes when fewer than 64 are
outstanding. -/
def execEngineRequestIssue (n : Nat) (l : Nat) (s : State) : Host.Outcome State Fault Refusal :=
  .next (if n < 35328 ∧ l < 4 then engineIssue n l s else s)

/-- REPLY_LANDING (R161). A reply lands in scratchpad or a slot entry, with poison and stale checks, possibly
completing an entry or descriptor. -/
def execReplyLanding (n : Nat) (tag : Nat) (s : State) : Host.Outcome State Fault Refusal :=
  .next (if n < 35328 then landReply n tag s else s)

/-- STF_ENTRY_SEND (R149). The engine sends a completed STF slot entry as a posted store. -/
def execStfEntrySend (n : Nat) (q : Nat) (s : State) : Host.Outcome State Fault Refusal :=
  .next (if n < 35328 then stfSend n q s else s)

/-- WRITE_ACKNOWLEDGE (R156). A write acknowledgement arrives, completing a write descriptor or posted store. -/
def execWriteAcknowledge (pid : Nat) (s : State) : Host.Outcome State Fault Refusal :=
  .next (replyIf (fun k => decide (k.op = .write) || (decide (k.op = .posted) && (decide (k.status = 0) || decide (k.status = 0x0D)))) pid s)

/-- REQUEST_RETRY (R165). A request refused REFUSED_FULL is retried after its backoff expires. -/
def execRequestRetry (who : Option Nat) (tag : Nat) (s : State) : Host.Outcome State Fault Refusal :=
  .next (match who with
    | some n => if n < 35328 then retryReq n tag s else s
    | none => retryHost tag s)

end Sys2Proof.Machine
end

