-- ==== Sys2Proof/Machine/StreamSlot.lean ====
section
/-! DEFINITION. The meanings of the commands of one family: the stream slot (chapter 08). -/

namespace Sys2Proof.Machine

open Sys2Proof

/-- SQCFG (R152). SQCFG configures a slot from scratchpad and resets its counters. -/
def execSqcfg (w : Site) (i : SqcfgF) (s : State) : Host.Outcome State Fault Refusal := atS w (.sqcfg i) s

/-- SQCNT (R153). SQCNT reads a slot's done and free entry counts. -/
def execSqcnt (w : Site) (i : SqcntF) (s : State) : Host.Outcome State Fault Refusal := atS w (.sqcnt i) s

/-- SHEAD (R153). SHEAD returns the address of an IN slot's head entry. -/
def execShead (w : Site) (i : SaddrF) (s : State) : Host.Outcome State Fault Refusal := atS w (.shead i) s

/-- SPOP (R150). SPOP removes the head entry of an IN slot. -/
def execSpop (w : Site) (i : SqF) (s : State) : Host.Outcome State Fault Refusal := atS w (.spop i) s

/-- STAIL (R153). STAIL returns the address of an OUT slot's tail entry. -/
def execStail (w : Site) (i : SaddrF) (s : State) : Host.Outcome State Fault Refusal := atS w (.stail i) s

/-- SPUSH (R150). SPUSH completes the tail entry of an OUT slot. -/
def execSpush (w : Site) (i : SqF) (s : State) : Host.Outcome State Fault Refusal := atS w (.spush i) s

/-- SLIST (R154). SLIST starts a descriptor list from its control block. -/
def execSlist (w : Site) (i : SlistF) (s : State) : Host.Outcome State Fault Refusal := atS w (.slist i) s

/-- SLSTOP (R154). SLSTOP ends issue of a list and moves it to STOPPING. -/
def execSlstop (w : Site) (i : SlstopF) (s : State) : Host.Outcome State Fault Refusal := atS w (.slstop i) s

/-- SLSTAT (R153). SLSTAT reads bytes 0-7 of a list's live control state. -/
def execSlstat (w : Site) (i : SlstatF) (s : State) : Host.Outcome State Fault Refusal := atS w (.slstat i) s

end Sys2Proof.Machine
end

