-- ==== Sys2Proof/Machine/VectorSlot.lean ====
section
/-! DEFINITION. The meanings of the commands of one family: the vector slot (chapter 05). -/

namespace Sys2Proof.Machine

open Sys2Proof

/-- VLD (R102). VLD loads unmasked lanes of a vector register from scratchpad. -/
def execVld (w : Site) (i : VmemF) (s : State) : Host.Outcome State Fault Refusal := atV w (.vld i) s

/-- VST (R102). VST stores unmasked lanes of a vector register to scratchpad. -/
def execVst (w : Site) (i : VmemF) (s : State) : Host.Outcome State Fault Refusal := atV w (.vst i) s

/-- VBC (R101). VBC broadcasts half of a scalar to every lane. -/
def execVbc (w : Site) (i : VbcF) (s : State) : Host.Outcome State Fault Refusal := atV w (.vbc i) s

/-- VEXT (R101). VEXT extracts one lane into a scalar and reports its poison. -/
def execVext (w : Site) (i : VextF) (s : State) : Host.Outcome State Fault Refusal := atV w (.vext i) s

/-- VLDC (R102). VLDC loads 32 bytes into a chain descriptor register. -/
def execVldc (w : Site) (i : VldcF) (s : State) : Host.Outcome State Fault Refusal := atV w (.vldc i) s

/-- VSEED (R106). VSEED seeds the lane generators from a scalar. -/
def execVseed (w : Site) (i : VseedF) (s : State) : Host.Outcome State Fault Refusal := atV w (.vseed i) s

/-- VQRD (R101). VQRD reads the next 256-byte slot entry into a vector register. -/
def execVqrd (w : Site) (i : VqrdF) (s : State) : Host.Outcome State Fault Refusal := atV w (.vqrd i) s

/-- VQWR (R101). VQWR pushes a vector register as a 256-byte slot entry. -/
def execVqwr (w : Site) (i : VqwrF) (s : State) : Host.Outcome State Fault Refusal := atV w (.vqwr i) s

/-- VCH (R92). VCH runs a library or descriptor chain under a lane mask, possibly gated and gradient class. -/
def execVch (w : Site) (i : VchF) (s : State) : Host.Outcome State Fault Refusal := atV w (.vch i) s

end Sys2Proof.Machine
end

