-- ==== Sys2Proof/Machine/Dispatch.lean ====
section
/-! DEFINITION. One arm per command: its meaning. -/

namespace Sys2Proof.Machine

open Sys2Proof

def exec (i : Instr) (s : State) : Host.Outcome State Fault Refusal :=
  match i with
  | .add w j => Sys2Proof.Machine.execAdd w j s
  | .sub w j => Sys2Proof.Machine.execSub w j s
  | .andS w j => Sys2Proof.Machine.execAndS w j s
  | .orS w j => Sys2Proof.Machine.execOrS w j s
  | .xorS w j => Sys2Proof.Machine.execXorS w j s
  | .shl w j => Sys2Proof.Machine.execShl w j s
  | .shr w j => Sys2Proof.Machine.execShr w j s
  | .sra w j => Sys2Proof.Machine.execSra w j s
  | .minS w j => Sys2Proof.Machine.execMinS w j s
  | .maxS w j => Sys2Proof.Machine.execMaxS w j s
  | .mul w j => Sys2Proof.Machine.execMul w j s
  | .mulh w j => Sys2Proof.Machine.execMulh w j s
  | .cmp w j => Sys2Proof.Machine.execCmp w j s
  | .sel w j => Sys2Proof.Machine.execSel w j s
  | .addi w j => Sys2Proof.Machine.execAddi w j s
  | .andi w j => Sys2Proof.Machine.execAndi w j s
  | .lui w j => Sys2Proof.Machine.execLui w j s
  | .ori w j => Sys2Proof.Machine.execOri w j s
  | .amov w j => Sys2Proof.Machine.execAmov w j s
  | .aget w j => Sys2Proof.Machine.execAget w j s
  | .aadd w j => Sys2Proof.Machine.execAadd w j s
  | .aaddi w j => Sys2Proof.Machine.execAaddi w j s
  | .aform w j => Sys2Proof.Machine.execAform w j s
  | .kmov w j => Sys2Proof.Machine.execKmov w j s
  | .kget w j => Sys2Proof.Machine.execKget w j s
  | .ktail w j => Sys2Proof.Machine.execKtail w j s
  | .kop w j => Sys2Proof.Machine.execKop w j s
  | .pop w j => Sys2Proof.Machine.execPop w j s
  | .ld w j => Sys2Proof.Machine.execLd w j s
  | .st w j => Sys2Proof.Machine.execSt w j s
  | .ldf w j => Sys2Proof.Machine.execLdf w j s
  | .stf w j => Sys2Proof.Machine.execStf w j s
  | .srd w j => Sys2Proof.Machine.execSrd w j s
  | .swr w j => Sys2Proof.Machine.execSwr w j s
  | .br w j => Sys2Proof.Machine.execBr w j s
  | .jmp w j => Sys2Proof.Machine.execJmp w j s
  | .jr w j => Sys2Proof.Machine.execJr w j s
  | .loop w j => Sys2Proof.Machine.execLoop w j s
  | .loopi w j => Sys2Proof.Machine.execLoopi w j s
  | .wait w j => Sys2Proof.Machine.execWait w j s
  | .waitComplete n => Sys2Proof.Machine.execWaitComplete n s
  | .rest w j => Sys2Proof.Machine.execRest w j s
  | .restStateEntry n => Sys2Proof.Machine.execRestStateEntry n s
  | .coreWake n => Sys2Proof.Machine.execCoreWake n s
  | .yield w j => Sys2Proof.Machine.execYield w j s
  | .endC w j => Sys2Proof.Machine.execEndC w j s
  | .sig w j => Sys2Proof.Machine.execSig w j s
  | .arrive w j => Sys2Proof.Machine.execArrive w j s
  | .mfc w j => Sys2Proof.Machine.execMfc w j s
  | .mtc w j => Sys2Proof.Machine.execMtc w j s
  | .resultRetire n => Sys2Proof.Machine.execResultRetire n s
  | .interlockRelease n => Sys2Proof.Machine.execInterlockRelease n s
  | .lateException n => Sys2Proof.Machine.execLateException n s
  | .contextBoundarySwitch n => Sys2Proof.Machine.execContextBoundarySwitch n s
  | .postedStoreFault pid => Sys2Proof.Machine.execPostedStoreFault pid s
  | .launch p j => Sys2Proof.Machine.execLaunch p j s
  | .cswitch p j => Sys2Proof.Machine.execCswitch p j s
  | .cstop p j => Sys2Proof.Machine.execCstop p j s
  | .xwake p j => Sys2Proof.Machine.execXwake p j s
  | .fset p j => Sys2Proof.Machine.execFset p j s
  | .fclr p j => Sys2Proof.Machine.execFclr p j s
  | .fwait p j => Sys2Proof.Machine.execFwait p j s
  | .barrier p j => Sys2Proof.Machine.execBarrier p j s
  | .seqWaitEnd p => Sys2Proof.Machine.execSeqWaitEnd p s
  | .prest p j => Sys2Proof.Machine.execPrest p j s
  | .panelRestEntry p => Sys2Proof.Machine.execPanelRestEntry p s
  | .panelWake p => Sys2Proof.Machine.execPanelWake p s
  | .stepBegin p j => Sys2Proof.Machine.execStepBegin p j s
  | .stepOpen k => Sys2Proof.Machine.execStepOpen k s
  | .stepEnd p j => Sys2Proof.Machine.execStepEnd p j s
  | .panelFlagSample p => Sys2Proof.Machine.execPanelFlagSample p s
  | .wdog p j => Sys2Proof.Machine.execWdog p j s
  | .cwait p j => Sys2Proof.Machine.execCwait p j s
  | .watchdogExpire p => Sys2Proof.Machine.execWatchdogExpire p s
  | .mcfg w j => Sys2Proof.Machine.execMcfg w j s
  | .mseed w j => Sys2Proof.Machine.execMseed w j s
  | .mldw w j => Sys2Proof.Machine.execMldw w j s
  | .shadowPartWrite n arr => Sys2Proof.Machine.execShadowPartWrite n arr s
  | .mmul w j => Sys2Proof.Machine.execMmul w j s
  | .accumulateRow n arr => Sys2Proof.Machine.execAccumulateRow n arr s
  | .mpre w j => Sys2Proof.Machine.execMpre w j s
  | .mclr w j => Sys2Proof.Machine.execMclr w j s
  | .mdrain w j => Sys2Proof.Machine.execMdrain w j s
  | .mspill w j => Sys2Proof.Machine.execMspill w j s
  | .mgrpOpen w j => Sys2Proof.Machine.execMgrpOpen w j s
  | .mgrpClose w j => Sys2Proof.Machine.execMgrpClose w j s
  | .drainOpStart n arr => Sys2Proof.Machine.execDrainOpStart n arr s
  | .drainOpEmitDone n arr => Sys2Proof.Machine.execDrainOpEmitDone n arr s
  | .mlds w j => Sys2Proof.Machine.execMlds w j s
  | .smul w j => Sys2Proof.Machine.execSmul w j s
  | .mdrs w j => Sys2Proof.Machine.execMdrs w j s
  | .smrg w j => Sys2Proof.Machine.execSmrg w j s
  | .scmp w j => Sys2Proof.Machine.execScmp w j s
  | .strw w j => Sys2Proof.Machine.execStrw w j s
  | .vld w j => Sys2Proof.Machine.execVld w j s
  | .vst w j => Sys2Proof.Machine.execVst w j s
  | .vbc w j => Sys2Proof.Machine.execVbc w j s
  | .vext w j => Sys2Proof.Machine.execVext w j s
  | .vldc w j => Sys2Proof.Machine.execVldc w j s
  | .vseed w j => Sys2Proof.Machine.execVseed w j s
  | .vqrd w j => Sys2Proof.Machine.execVqrd w j s
  | .vqwr w j => Sys2Proof.Machine.execVqwr w j s
  | .vch w j => Sys2Proof.Machine.execVch w j s
  | .laneGeneratorAdvance p => Sys2Proof.Machine.execLaneGeneratorAdvance p s
  | .sqcfg w j => Sys2Proof.Machine.execSqcfg w j s
  | .sqcnt w j => Sys2Proof.Machine.execSqcnt w j s
  | .shead w j => Sys2Proof.Machine.execShead w j s
  | .spop w j => Sys2Proof.Machine.execSpop w j s
  | .stail w j => Sys2Proof.Machine.execStail w j s
  | .spush w j => Sys2Proof.Machine.execSpush w j s
  | .slist w j => Sys2Proof.Machine.execSlist w j s
  | .slstop w j => Sys2Proof.Machine.execSlstop w j s
  | .slstat w j => Sys2Proof.Machine.execSlstat w j s
  | .listStopped n k l => Sys2Proof.Machine.execListStopped n k l s
  | .descEnd n l => Sys2Proof.Machine.execDescEnd n l s
  | .descCopy n l => Sys2Proof.Machine.execDescCopy n l s
  | .descGather n l => Sys2Proof.Machine.execDescGather n l s
  | .descStitch n l => Sys2Proof.Machine.execDescStitch n l s
  | .markerPass n l => Sys2Proof.Machine.execMarkerPass n l s
  | .descSignal n l => Sys2Proof.Machine.execDescSignal n l s
  | .signalFire n l => Sys2Proof.Machine.execSignalFire n l s
  | .descLink n l => Sys2Proof.Machine.execDescLink n l s
  | .engineRequestIssue n l => Sys2Proof.Machine.execEngineRequestIssue n l s
  | .replyLanding n tag => Sys2Proof.Machine.execReplyLanding n tag s
  | .stfEntrySend n q => Sys2Proof.Machine.execStfEntrySend n q s
  | .writeAcknowledge pid => Sys2Proof.Machine.execWriteAcknowledge pid s
  | .requestRetry who tag => Sys2Proof.Machine.execRequestRetry who tag s
  | .hubRequestArrival pid => Sys2Proof.Machine.execHubRequestArrival pid s
  | .hubGrant p => Sys2Proof.Machine.execHubGrant p s
  | .remoteRequest pid => Sys2Proof.Machine.execRemoteRequest pid s
  | .replyArrival pid => Sys2Proof.Machine.execReplyArrival pid s
  | .meshForward pid => Sys2Proof.Machine.execMeshForward pid s
  | .reductionCombine n r => Sys2Proof.Machine.execReductionCombine n r s
  | .broadcastDelivery pid n => Sys2Proof.Machine.execBroadcastDelivery pid n s
  | .epochNotice j => Sys2Proof.Machine.execEpochNotice j s
  | .routeTableUpdate => Sys2Proof.Machine.execRouteTableUpdate s
  | .routeTableArrival p => Sys2Proof.Machine.execRouteTableArrival p s
  | .correctionWriteBack n line => Sys2Proof.Machine.execCorrectionWriteBack n line s
  | .spdRegionWrite src n r v => Sys2Proof.Machine.execSpdRegionWrite src n r v s
  | .fabRedWrite src n r v => Sys2Proof.Machine.execFabRedWrite src n r v s
  | .scratchpadZeroization n => Sys2Proof.Machine.execScratchpadZeroization n s
  | .stackSectorRewrite p => Sys2Proof.Machine.execStackSectorRewrite p s
  | .readMerge p => Sys2Proof.Machine.execReadMerge p s
  | .patrolScrubRead p => Sys2Proof.Machine.execPatrolScrubRead p s
  | .stackFill p => Sys2Proof.Machine.execStackFill p s
  | .stackFillDone p => Sys2Proof.Machine.execStackFillDone p s
  | .mirrorWrite p => Sys2Proof.Machine.execMirrorWrite p s
  | .mirrorRebuild p => Sys2Proof.Machine.execMirrorRebuild p s
  | .mirrorRebuildDone p => Sys2Proof.Machine.execMirrorRebuildDone p s
  | .stackPowerDown p => Sys2Proof.Machine.execStackPowerDown p s
  | .pageRetireDone p => Sys2Proof.Machine.execPageRetireDone p s
  | .laneFail o lane => Sys2Proof.Machine.execLaneFail o lane s
  | .laneSwitch o => Sys2Proof.Machine.execLaneSwitch o s
  | .codewordReceive o errs flits => Sys2Proof.Machine.execCodewordReceive o errs flits s
  | .flitIdle o fl => Sys2Proof.Machine.execFlitIdle o fl s
  | .flitData o fl => Sys2Proof.Machine.execFlitData o fl s
  | .flitDataEnd o fl => Sys2Proof.Machine.execFlitDataEnd o fl s
  | .flitCommit o fl => Sys2Proof.Machine.execFlitCommit o fl s
  | .flitVoid o fl => Sys2Proof.Machine.execFlitVoid o fl s
  | .flitRejoin o fl => Sys2Proof.Machine.execFlitRejoin o fl s
  | .flitLane o fl => Sys2Proof.Machine.execFlitLane o fl s
  | .flitIdent o fl => Sys2Proof.Machine.execFlitIdent o fl s
  | .flitReserved o kind fl => Sys2Proof.Machine.execFlitReserved o kind fl s
  | .replay o => Sys2Proof.Machine.execReplay o s
  | .replayTimeout o => Sys2Proof.Machine.execReplayTimeout o s
  | .linkSignalLoss o => Sys2Proof.Machine.execLinkSignalLoss o s
  | .retrainAttempt o => Sys2Proof.Machine.execRetrainAttempt o s
  | .trainingComplete o => Sys2Proof.Machine.execTrainingComplete o s
  | .trainingTimeout o => Sys2Proof.Machine.execTrainingTimeout o s
  | .portAbsent o => Sys2Proof.Machine.execPortAbsent o s
  | .postSend src o w0 w1 w2 w3 => Sys2Proof.Machine.execPostSend src o w0 w1 w2 w3 s
  | .postRecv src o w0 w1 w2 w3 => Sys2Proof.Machine.execPostRecv src o w0 w1 w2 w3 s
  | .postReduce src o w0 w1 w2 w3 => Sys2Proof.Machine.execPostReduce src o w0 w1 w2 w3 s
  | .postRelay src o w0 w1 w2 w3 => Sys2Proof.Machine.execPostRelay src o w0 w1 w2 w3 s
  | .entryComplete o vc => Sys2Proof.Machine.execEntryComplete o vc s
  | .addendReadRetry o vc => Sys2Proof.Machine.execAddendReadRetry o vc s
  | .reduceGapTimeout o => Sys2Proof.Machine.execReduceGapTimeout o s
  | .commitTimeout k => Sys2Proof.Machine.execCommitTimeout k s
  | .reductionDone k => Sys2Proof.Machine.execReductionDone k s
  | .decideStep k => Sys2Proof.Machine.execDecideStep k s
  | .stepVoid k cause => Sys2Proof.Machine.execStepVoid k cause s
  | .rejoinSend o => Sys2Proof.Machine.execRejoinSend o s
  | .holdEnd k => Sys2Proof.Machine.execHoldEnd k s
  | .identify q => Sys2Proof.Machine.execIdentify q s
  | .sessionOpen q => Sys2Proof.Machine.execSessionOpen q s
  | .sessionResume q => Sys2Proof.Machine.execSessionResume q s
  | .sessionClose q => Sys2Proof.Machine.execSessionClose q s
  | .attest q => Sys2Proof.Machine.execAttest q s
  | .partitionDefine q => Sys2Proof.Machine.execPartitionDefine q s
  | .partitionPower q => Sys2Proof.Machine.execPartitionPower q s
  | .panelWave q => Sys2Proof.Machine.execPanelWave q s
  | .automaticWave k => Sys2Proof.Machine.execAutomaticWave k s
  | .gaugeCheck q => Sys2Proof.Machine.execGaugeCheck q s
  | .loadImage q => Sys2Proof.Machine.execLoadImage q s
  | .contextLaunch q => Sys2Proof.Machine.execContextLaunch q s
  | .contextStop q => Sys2Proof.Machine.execContextStop q s
  | .stepRelease q => Sys2Proof.Machine.execStepRelease q s
  | .linkTrain q => Sys2Proof.Machine.execLinkTrain q s
  | .linkRole q => Sys2Proof.Machine.execLinkRole q s
  | .reset q => Sys2Proof.Machine.execReset q s
  | .bindOff q => Sys2Proof.Machine.execBindOff q s
  | .bindOffTimeout k => Sys2Proof.Machine.execBindOffTimeout k s
  | .darn q => Sys2Proof.Machine.execDarn q s
  | .fence q => Sys2Proof.Machine.execFence q s
  | .retirePage q => Sys2Proof.Machine.execRetirePage q s
  | .scrub q => Sys2Proof.Machine.execScrub q s
  | .zeroize q => Sys2Proof.Machine.execZeroize q s
  | .debugUnlock q => Sys2Proof.Machine.execDebugUnlock q s
  | .debugLock q => Sys2Proof.Machine.execDebugLock q s
  | .firmwareUpdate q => Sys2Proof.Machine.execFirmwareUpdate q s
  | .recoveryImage q => Sys2Proof.Machine.execRecoveryImage q s
  | .commandTimeout => Sys2Proof.Machine.execCommandTimeout s
  | .partitionCommandEnd k => Sys2Proof.Machine.execPartitionCommandEnd k s
  | .bar0AccessInvalid addr size => Sys2Proof.Machine.execBar0AccessInvalid addr size s
  | .bar2Read y len => Sys2Proof.Machine.execBar2Read y len s
  | .bar2Write y data ep => Sys2Proof.Machine.execBar2Write y data ep s
  | .hostCompletionAbort => Sys2Proof.Machine.execHostCompletionAbort s
  | .fabDataRead => Sys2Proof.Machine.execFabDataRead s
  | .fabDataWrite v => Sys2Proof.Machine.execFabDataWrite v s
  | .publishWordWrite p x data => Sys2Proof.Machine.execPublishWordWrite p x data s
  | .publishWordRead k => Sys2Proof.Machine.execPublishWordRead k s
  | .functionLevelReset => Sys2Proof.Machine.execFunctionLevelReset s
  | .pciePowerStateChange d3 => Sys2Proof.Machine.execPciePowerStateChange d3 s
  | .pnlPowerOff src p => Sys2Proof.Machine.execPnlPowerOff src p s
  | .pnlTensionLimitWrite src p v => Sys2Proof.Machine.execPnlTensionLimitWrite src p v s
  | .pwrCapWrite v => Sys2Proof.Machine.execPwrCapWrite v s
  | .stkScrubWrite src p v => Sys2Proof.Machine.execStkScrubWrite src p v s
  | .lnkCfgWrite src o v => Sys2Proof.Machine.execLnkCfgWrite src o v s
  | .secCfgWrite v => Sys2Proof.Machine.execSecCfgWrite v s
  | .errTailWrite v => Sys2Proof.Machine.execErrTailWrite v s
  | .dbgSelWrite v => Sys2Proof.Machine.execDbgSelWrite v s
  | .dbgHalt => Sys2Proof.Machine.execDbgHalt s
  | .dbgResume => Sys2Proof.Machine.execDbgResume s
  | .dbgStep => Sys2Proof.Machine.execDbgStep s
  | .debugWindowAccess jtag y size wr v => Sys2Proof.Machine.execDebugWindowAccess jtag y size wr v s
  | .registerWrite src addr v => Sys2Proof.Machine.execRegisterWrite src addr v s
  | .jtagInstruction code => Sys2Proof.Machine.execJtagInstruction code s
  | .livenessProbe p => Sys2Proof.Machine.execLivenessProbe p s
  | .probeTimeout p n => Sys2Proof.Machine.execProbeTimeout p n s
  | .machineCheck n => Sys2Proof.Machine.execMachineCheck n s
  | .darningStart p => Sys2Proof.Machine.execDarningStart p s
  | .carryStepDone p => Sys2Proof.Machine.execCarryStepDone p s
  | .darningDone p => Sys2Proof.Machine.execDarningDone p s
  | .fieldRepairFuseWrite => Sys2Proof.Machine.execFieldRepairFuseWrite s
  | .hangSnapshot p => Sys2Proof.Machine.execHangSnapshot p s
  | .hangCombine => Sys2Proof.Machine.execHangCombine s
  | .suspectReplay => Sys2Proof.Machine.execSuspectReplay s
  | .suspectReplayEnd => Sys2Proof.Machine.execSuspectReplayEnd s
  | .hangVerdict => Sys2Proof.Machine.execHangVerdict s
  | .sensorSample p junction stack watts inputWatts => Sys2Proof.Machine.execSensorSample p junction stack watts inputWatts s
  | .governorEval => Sys2Proof.Machine.execGovernorEval s
  | .clockStepChangeDone p => Sys2Proof.Machine.execClockStepChangeDone p s
  | .firstUseHoldEnd p => Sys2Proof.Machine.execFirstUseHoldEnd p s
  | .droop p => Sys2Proof.Machine.execDroop p s
  | .thermalTrip p => Sys2Proof.Machine.execThermalTrip p s
  | .thermTripRelease => Sys2Proof.Machine.execThermTripRelease s
  | .inrushDeferredWake => Sys2Proof.Machine.execInrushDeferredWake s
  | .panelSupplyShort p => Sys2Proof.Machine.execPanelSupplyShort p s
  | .panelLost p => Sys2Proof.Machine.execPanelLost p s
  | .blockReset j => Sys2Proof.Machine.execBlockReset j s
  | .resetDrainTimeout j => Sys2Proof.Machine.execResetDrainTimeout j s
  | .resetEscalate j => Sys2Proof.Machine.execResetEscalate j s
  | .partitionReset k => Sys2Proof.Machine.execPartitionReset k s
  | .moduleReset => Sys2Proof.Machine.execModuleReset s
  | .trayPowerCycle => Sys2Proof.Machine.execTrayPowerCycle s
  | .perstAssert => Sys2Proof.Machine.execPerstAssert s
  | .perstDeassert => Sys2Proof.Machine.execPerstDeassert s
  | .moduleResetPin => Sys2Proof.Machine.execModuleResetPin s
  | .securityViolation => Sys2Proof.Machine.execSecurityViolation s
  | .inputOutOfRange millivolts => Sys2Proof.Machine.execInputOutOfRange millivolts s
  | .powerOn => Sys2Proof.Machine.execPowerOn s
  | .castOn => Sys2Proof.Machine.execCastOn s
  | .castOnFinish => Sys2Proof.Machine.execCastOnFinish s
  | .castOnFail code => Sys2Proof.Machine.execCastOnFail code s
  | .castOnRestart => Sys2Proof.Machine.execCastOnRestart s
  | .panelBringUp p bad => Sys2Proof.Machine.execPanelBringUp p bad s
  | .panelBringUpDone p ok stepNo => Sys2Proof.Machine.execPanelBringUpDone p ok stepNo s
  | .resumeTimeout k => Sys2Proof.Machine.execResumeTimeout k s
  | .nop w => Sys2Proof.Machine.execNop w s
  | .undefinedOpcode g b => Sys2Proof.Machine.execUndefinedOpcode g b s
  | .undefinedCommand op q => Sys2Proof.Machine.execUndefinedCommand op q s
  | .clearingRead src addr => Sys2Proof.Machine.execClearingRead src addr s
  | .moduleResetDeassert => Sys2Proof.Machine.execModuleResetDeassert s
  | .tapReset => Sys2Proof.Machine.execTapReset s
  | .dynamicAddressAssignment da => Sys2Proof.Machine.execDynamicAddressAssignment da s
  | .msixUnmask => Sys2Proof.Machine.execMsixUnmask s
  | .lockoutExpiry => Sys2Proof.Machine.execLockoutExpiry s
  | .panelOffDone p => Sys2Proof.Machine.execPanelOffDone p s

end Sys2Proof.Machine
end

