-- ==== Sys2Proof/Machine/Step.lean ====
section
/-! DEFINITION. One step of the block: the command at the front of the queue, or one tick. -/

namespace Sys2Proof.Machine

open Sys2Proof

/-- The block with nothing to do lets one tick of 10 ns pass (R9). DESIGN CHOICE (log 1). -/
def idle (s : State) : State := { s with now := s.now + 1 }

/-- One step: the command at the front of the queue takes effect on the block with the queue's rest. -/
def step (s : State) : Host.Outcome State Fault Refusal :=
  match s.pending with
  | [] => .next (idle s)
  | c :: rest => exec c { s with pending := rest }

/-- The state with the command that a word spells at the front of its queue; unchanged where it spells
none. -/
def State.withFetchWord (s : State) (nbits w : Nat) : State :=
  match decodeTableWord nbits w with
  | some c => { s with pending := c :: s.pending }
  | none => s

end Sys2Proof.Machine
end

