-- ==== Sys2Proof/WellFormed.lean ====
section
/-! DEFINITION. The well-formed commands: the operands that the manual admits for each row. The machine
answers every command, well-formed or not. -/

namespace Sys2Proof

/-- A logical core exists (R18): 192 rows of 184. -/
def coreOk (n : Nat) : Bool := decide (n < 35328)
/-- A panel exists (R17). -/
def panelOk (p : Nat) : Bool := decide (p < 64)
/-- A link port exists (R217). -/
def portOk (o : Nat) : Bool := decide (o < 16)
/-- A core or a sequencer exists. -/
def agentOk : Agent → Bool
  | .core n => coreOk n
  | .seq p => panelOk p
/-- A slot instruction is issued by a core or a sequencer that exists; a sequencer word has no other slots
(R60). -/
def siteOk (w : Site) : Bool :=
  agentOk w.agent
    && (match w.agent with | .core _ => true | .seq _ => decide (w.w1 = 0) && decide (w.w2 = 0) && decide (w.w3 = 0))
/-- A register is accessed by the host or by the sequencer of a panel that exists. -/
def sourceOk : Source → Bool
  | .host => true
  | .seq p => panelOk p
/-- A flit carries 240 payload bytes and zero in its reserved bits (R223). -/
def flitOk (f : Flit) : Bool := decide (f.payload.length = 240) && decide (f.zero = 0)
/-- A bundle with an undefined opcode in some slot, or a sequencer word with one (R57, R60). -/
def spellsNone : Agent → Bundle → Bool
  | .core _, b =>
    (match Machine.CIns.ofWord b.c with | some _ => Machine.CIns.seqOnly b.c | none => true)
      || (Machine.MIns.ofWord b.m).isNone || (Machine.VIns.ofWord b.v).isNone || (Machine.SIns.ofWord b.s).isNone
  | .seq _, b => (Machine.CIns.ofWord b.c).isNone && decide (b.m = 0) && decide (b.v = 0) && decide (b.s = 0)
/-- The opcodes of the command window (R282). -/
def commandCodes : List Nat :=
  [0x01, 0x02, 0x03, 0x04, 0x05, 0x10, 0x11, 0x12, 0x13, 0x20, 0x21, 0x22, 0x23, 0x30, 0x31, 0x40, 0x41, 0x50, 0x51, 0x52, 0x53
    , 0x54, 0x60, 0x61, 0x70, 0x71]

/-- The operands of a command are ones that the manual admits. -/
def Instr.wellFormed : Instr → Bool
  | .add w _ => siteOk w
  | .sub w _ => siteOk w
  | .andS w _ => siteOk w
  | .orS w _ => siteOk w
  | .xorS w _ => siteOk w
  | .shl w _ => siteOk w
  | .shr w _ => siteOk w
  | .sra w _ => siteOk w
  | .minS w _ => siteOk w
  | .maxS w _ => siteOk w
  | .mul w _ => siteOk w
  | .mulh w _ => siteOk w
  | .cmp w _ => siteOk w
  | .sel w _ => siteOk w
  | .addi w _ => siteOk w
  | .andi w _ => siteOk w
  | .lui w _ => siteOk w
  | .ori w _ => siteOk w
  | .amov w _ => siteOk w
  | .aget w _ => siteOk w
  | .aadd w _ => siteOk w
  | .aaddi w _ => siteOk w
  | .aform w _ => siteOk w
  | .kmov w _ => siteOk w
  | .kget w _ => siteOk w
  | .ktail w _ => siteOk w
  | .kop w _ => siteOk w
  | .pop w _ => siteOk w
  | .ld w _ => siteOk w
  | .st w _ => siteOk w
  | .ldf w _ => siteOk w
  | .stf w _ => siteOk w
  | .srd w _ => siteOk w
  | .swr w _ => siteOk w
  | .br w _ => siteOk w
  | .jmp w _ => siteOk w
  | .jr w _ => siteOk w
  | .loop w _ => siteOk w
  | .loopi w _ => siteOk w
  | .wait w _ => siteOk w
  | .waitComplete n => coreOk n
  | .rest w _ => siteOk w
  | .restStateEntry n => coreOk n
  | .coreWake n => coreOk n
  | .yield w _ => siteOk w
  | .endC w _ => siteOk w
  | .sig w _ => siteOk w
  | .arrive w _ => siteOk w
  | .mfc w _ => siteOk w
  | .mtc w _ => siteOk w
  | .resultRetire n => coreOk n
  | .interlockRelease n => coreOk n
  | .lateException n => coreOk n
  | .contextBoundarySwitch n => coreOk n
  | .postedStoreFault _ => true
  | .launch p _ => panelOk p
  | .cswitch p _ => panelOk p
  | .cstop p _ => panelOk p
  | .xwake p _ => panelOk p
  | .fset p _ => panelOk p
  | .fclr p _ => panelOk p
  | .fwait p _ => panelOk p
  | .barrier p _ => panelOk p
  | .seqWaitEnd p => panelOk p
  | .prest p _ => panelOk p
  | .panelRestEntry p => panelOk p
  | .panelWake p => panelOk p
  | .stepBegin p _ => panelOk p
  | .stepOpen k => decide (k < 4)
  | .stepEnd p _ => panelOk p
  | .panelFlagSample p => panelOk p
  | .wdog p _ => panelOk p
  | .cwait p _ => panelOk p
  | .watchdogExpire p => panelOk p
  | .mcfg w _ => siteOk w
  | .mseed w _ => siteOk w
  | .mldw w _ => siteOk w
  | .shadowPartWrite n arr => coreOk n && decide (arr < 2)
  | .mmul w _ => siteOk w
  | .accumulateRow n arr => coreOk n && decide (arr < 2)
  | .mpre w _ => siteOk w
  | .mclr w _ => siteOk w
  | .mdrain w _ => siteOk w
  | .mspill w _ => siteOk w
  | .mgrpOpen w _ => siteOk w
  | .mgrpClose w _ => siteOk w
  | .drainOpStart n arr => coreOk n && decide (arr < 2)
  | .drainOpEmitDone n arr => coreOk n && decide (arr < 2)
  | .mlds w _ => siteOk w
  | .smul w _ => siteOk w
  | .mdrs w _ => siteOk w
  | .smrg w _ => siteOk w
  | .scmp w _ => siteOk w
  | .strw w _ => siteOk w
  | .vld w _ => siteOk w
  | .vst w _ => siteOk w
  | .vbc w _ => siteOk w
  | .vext w _ => siteOk w
  | .vldc w _ => siteOk w
  | .vseed w _ => siteOk w
  | .vqrd w _ => siteOk w
  | .vqwr w _ => siteOk w
  | .vch w _ => siteOk w
  | .laneGeneratorAdvance p => panelOk p
  | .sqcfg w _ => siteOk w
  | .sqcnt w _ => siteOk w
  | .shead w _ => siteOk w
  | .spop w _ => siteOk w
  | .stail w _ => siteOk w
  | .spush w _ => siteOk w
  | .slist w _ => siteOk w
  | .slstop w _ => siteOk w
  | .slstat w _ => siteOk w
  | .listStopped n k l => coreOk n && decide (k < 4) && decide (l < 4)
  | .descEnd n l => coreOk n && decide (l < 4)
  | .descCopy n l => coreOk n && decide (l < 4)
  | .descGather n l => coreOk n && decide (l < 4)
  | .descStitch n l => coreOk n && decide (l < 4)
  | .markerPass n l => coreOk n && decide (l < 4)
  | .descSignal n l => coreOk n && decide (l < 4)
  | .signalFire n l => coreOk n && decide (l < 4)
  | .descLink n l => coreOk n && decide (l < 4)
  | .engineRequestIssue n l => coreOk n && decide (l < 4)
  | .replyLanding n _ => coreOk n
  | .stfEntrySend n q => coreOk n && decide (q < 16)
  | .writeAcknowledge _ => true
  | .requestRetry who _ => who.all coreOk
  | .hubRequestArrival _ => true
  | .hubGrant p => panelOk p
  | .remoteRequest _ => true
  | .replyArrival _ => true
  | .meshForward _ => true
  | .reductionCombine n r => coreOk n && decide (r < 16)
  | .broadcastDelivery _ n => coreOk n
  | .epochNotice _ => true
  | .routeTableUpdate => true
  | .routeTableArrival p => panelOk p
  | .correctionWriteBack n line => coreOk n && decide (line < 98304)
  | .spdRegionWrite src n r _ => sourceOk src && coreOk n && decide (r < 16)
  | .fabRedWrite src n r _ => sourceOk src && coreOk n && decide (r < 16)
  | .scratchpadZeroization n => coreOk n
  | .stackSectorRewrite p => panelOk p
  | .readMerge p => panelOk p
  | .patrolScrubRead p => panelOk p
  | .stackFill p => panelOk p
  | .stackFillDone p => panelOk p
  | .mirrorWrite p => panelOk p
  | .mirrorRebuild p => panelOk p
  | .mirrorRebuildDone p => panelOk p
  | .stackPowerDown p => panelOk p
  | .pageRetireDone p => panelOk p
  | .laneFail o lane => portOk o && decide (lane < 13)
  | .laneSwitch o => portOk o
  | .codewordReceive o errs _ => portOk o && errs.all (fun e => decide (e.1 < 544) && decide (e.2 ≠ 0))
  | .flitIdle o fl => portOk o && flitOk fl
  | .flitData o fl => portOk o && flitOk fl
  | .flitDataEnd o fl => portOk o && flitOk fl
  | .flitCommit o fl => portOk o && flitOk fl
  | .flitVoid o fl => portOk o && flitOk fl
  | .flitRejoin o fl => portOk o && flitOk fl
  | .flitLane o fl => portOk o && flitOk fl
  | .flitIdent o fl => portOk o && flitOk fl
  | .flitReserved o kind fl => portOk o && flitOk fl && decide (8#4 ≤ kind)
  | .replay o => portOk o
  | .replayTimeout o => portOk o
  | .linkSignalLoss o => portOk o
  | .retrainAttempt o => portOk o
  | .trainingComplete o => portOk o
  | .trainingTimeout o => portOk o
  | .portAbsent o => portOk o
  | .postSend src o w0 _ _ _ => sourceOk src && portOk o && decide (w0.extractLsb' 0 4 = 1#4)
  | .postRecv src o w0 _ _ _ => sourceOk src && portOk o && decide (w0.extractLsb' 0 4 = 2#4)
  | .postReduce src o w0 _ _ _ => sourceOk src && portOk o && decide (w0.extractLsb' 0 4 = 3#4)
  | .postRelay src o w0 _ _ _ => sourceOk src && portOk o && decide (w0.extractLsb' 0 4 = 4#4)
  | .entryComplete o vc => portOk o && decide (vc < 4)
  | .addendReadRetry o vc => portOk o && decide (vc < 4)
  | .reduceGapTimeout o => portOk o
  | .commitTimeout k => decide (k < 4)
  | .reductionDone k => decide (k < 4)
  | .decideStep k => decide (k < 4)
  | .stepVoid k cause => decide (k < 4) && decide (1 ≤ cause) && decide (cause ≤ 10)
  | .rejoinSend o => portOk o
  | .holdEnd k => decide (k < 4)
  | .identify _ => true
  | .sessionOpen _ => true
  | .sessionResume _ => true
  | .sessionClose _ => true
  | .attest _ => true
  | .partitionDefine _ => true
  | .partitionPower _ => true
  | .panelWave _ => true
  | .automaticWave k => decide (k < 4)
  | .gaugeCheck _ => true
  | .loadImage _ => true
  | .contextLaunch _ => true
  | .contextStop _ => true
  | .stepRelease _ => true
  | .linkTrain _ => true
  | .linkRole _ => true
  | .reset _ => true
  | .bindOff _ => true
  | .bindOffTimeout k => decide (k < 4)
  | .darn _ => true
  | .fence _ => true
  | .retirePage _ => true
  | .scrub _ => true
  | .zeroize _ => true
  | .debugUnlock _ => true
  | .debugLock _ => true
  | .firmwareUpdate _ => true
  | .recoveryImage _ => true
  | .commandTimeout => true
  | .partitionCommandEnd k => decide (k < 4)
  | .bar0AccessInvalid addr _ => decide (addr < 2 ^ 26)
  | .bar2Read _ len => decide (0 < len)
  | .bar2Write _ data _ => decide (0 < data.length)
  | .hostCompletionAbort => true
  | .fabDataRead => true
  | .fabDataWrite _ => true
  | .publishWordWrite p _ data => panelOk p && decide (0 < data.length)
  | .publishWordRead k => decide (k < 4)
  | .functionLevelReset => true
  | .pciePowerStateChange _ => true
  | .pnlPowerOff src p => sourceOk src && panelOk p
  | .pnlTensionLimitWrite src p _ => sourceOk src && panelOk p
  | .pwrCapWrite _ => true
  | .stkScrubWrite src p _ => sourceOk src && panelOk p
  | .lnkCfgWrite src o _ => sourceOk src && portOk o
  | .secCfgWrite _ => true
  | .errTailWrite _ => true
  | .dbgSelWrite _ => true
  | .dbgHalt => true
  | .dbgResume => true
  | .dbgStep => true
  | .debugWindowAccess _ y size _ _ => (decide (size = 4) || decide (size = 8)) && decide (y % size = 0)
  | .registerWrite src _ _ => sourceOk src
  | .jtagInstruction _ => true
  | .livenessProbe p => panelOk p
  | .probeTimeout p n => panelOk p && coreOk n
  | .machineCheck n => panelOk n.panel && decide (n.site < 600)
  | .darningStart p => panelOk p
  | .carryStepDone p => panelOk p
  | .darningDone p => panelOk p
  | .fieldRepairFuseWrite => true
  | .hangSnapshot p => panelOk p
  | .hangCombine => true
  | .suspectReplay => true
  | .suspectReplayEnd => true
  | .hangVerdict => true
  | .sensorSample p _ _ _ _ => panelOk p
  | .governorEval => true
  | .clockStepChangeDone p => panelOk p
  | .firstUseHoldEnd p => panelOk p
  | .droop p => panelOk p
  | .thermalTrip p => panelOk p
  | .thermTripRelease => true
  | .inrushDeferredWake => true
  | .panelSupplyShort p => panelOk p
  | .panelLost p => panelOk p
  | .blockReset _ => true
  | .resetDrainTimeout _ => true
  | .resetEscalate _ => true
  | .partitionReset k => decide (k < 4)
  | .moduleReset => true
  | .trayPowerCycle => true
  | .perstAssert => true
  | .perstDeassert => true
  | .moduleResetPin => true
  | .securityViolation => true
  | .inputOutOfRange _ => true
  | .powerOn => true
  | .castOn => true
  | .castOnFinish => true
  | .castOnFail _ => true
  | .castOnRestart => true
  | .panelBringUp p _ => panelOk p
  | .panelBringUpDone p _ _ => panelOk p
  | .resumeTimeout k => decide (k < 4)
  | .nop w => siteOk w
  | .undefinedOpcode g b => agentOk g && spellsNone g b
  | .undefinedCommand op _ => !commandCodes.contains op.toNat
  | .clearingRead src _ => sourceOk src
  | .moduleResetDeassert => true
  | .tapReset => true
  | .dynamicAddressAssignment _ => true
  | .msixUnmask => true
  | .lockoutExpiry => true
  | .panelOffDone p => panelOk p

end Sys2Proof
end

