-- ==== Sys2Proof/Safety.lean ====
section
/-! DEFINITION. What a safe step is, and the conditions in terms of which the statements speak of a bundle: that
it issues, and the state that its slots leave. -/

namespace Sys2Proof.Machine

open Sys2Proof

/-- A command that completes: it answers a next state. -/
def Completes (c : Instr) (s : State) : Prop := ∃ t, exec c s = .next t

/-- A safe state: the next step is neither a fault nor a refusal. -/
def Safe (s : State) : Prop := ∃ t, step s = .next t

/-- The outcome of a command that answers `t`. -/
abbrev goes (t : State) : Host.Outcome State Fault Refusal := .next t

/-- Core `n` at the checks of its next bundle: the work of earlier issue cycles done (R34) and the bundle read
(R36). -/
def atChecks (n : Nat) (s : State) : State := (fetchLine n (catchUp n s).1).2

/-- The state that the slots of that bundle read: what the arrays do in the issue cycle itself comes first (R34,
R70, R106). -/
def fetched (n : Nat) (s : State) : State := duringCycle n ((atChecks n s).core n).icyc (atChecks n s)

/-- Core `n` comes to the checks of its bundle `b`: it may issue, no earlier bundle raises a late exception
now, and the bundle lies in the code region and reads without an uncorrectable line. -/
def fetchable (n : Nat) (b : Bundle) (s : State) : Bool :=
  decide (n < 35328) && canIssue n b s && (catchUp n s).2.isNone && fetchOk ((catchUp n s).1.core n)
    && !(fetchLine n (catchUp n s).1).1

/-- The bundle `b` with the slots `o` issues: no interlock holds it and none of its slots raises an exception
(R45, R57). -/
def issuable (n : Nat) (b : Bundle) (o : Ops) (s : State) : Bool :=
  fetchable n b s && !o.held n (atChecks n s) && (o.exc b n (atChecks n s)).isNone

/-- The slots of a bundle by a control-slot instruction and three raw words, and so on for the other slots. -/
def opsC (i : CIns) (m v t : W32) : Ops := { c := i.op, m := slotM m, v := slotV v, s := slotS t, bd := boundaryOf (some i) }
def opsM (i : MIns) (c v t : W32) : Ops :=
  { c := slotC (CIns.ofWord c), m := i.op, v := slotV v, s := slotS t, bd := boundaryOf (CIns.ofWord c) }
def opsV (i : VIns) (c m t : W32) : Ops :=
  { c := slotC (CIns.ofWord c), m := slotM m, v := i.op, s := slotS t, bd := boundaryOf (CIns.ofWord c) }
def opsS (i : SIns) (c m v : W32) : Ops :=
  { c := slotC (CIns.ofWord c), m := slotM m, v := slotV v, s := i.op, bd := boundaryOf (CIns.ofWord c) }

/-- The bundles of those slots. -/
def bundleC (i : CIns) (m v t : W32) : Bundle := { c := i.word, m := m, v := v, s := t }
def bundleM (i : MIns) (c v t : W32) : Bundle := { c := c, m := i.word, v := v, s := t }
def bundleV (i : VIns) (c m t : W32) : Bundle := { c := c, m := m, v := i.word, s := t }
def bundleS (i : SIns) (c m v : W32) : Bundle := { c := c, m := m, v := v, s := i.word }

/-- The bundle of a control-slot instruction issues, beside three words; and so on. -/
def issuesC (n : Nat) (i : CIns) (m v t : W32) (s : State) : Bool := issuable n (bundleC i m v t) (opsC i m v t) s
def issuesM (n : Nat) (i : MIns) (c v t : W32) (s : State) : Bool := issuable n (bundleM i c v t) (opsM i c v t) s
def issuesV (n : Nat) (i : VIns) (c m t : W32) (s : State) : Bool := issuable n (bundleV i c m t) (opsV i c m t) s
def issuesS (n : Nat) (i : SIns) (c m v : W32) (s : State) : Bool := issuable n (bundleS i c m v) (opsS i c m v) s

/-- Core `n` after the bundle that it issues at `s` and whose slots leave `v`: what they wrote at once is seen from
the next issue cycle on (R130), and the bundle has issued. -/
def afterSlots (n : Nat) (s v : State) : State :=
  issued n ((atChecks n s).ctx n).pc (writesOf n ((atChecks n s).core n).icyc v)

/-- Core `n` after a bundle whose control slot does `f`, beside three words. -/
def afterC (n : Nat) (m v t : W32) (s : State) (f : State → State) : State :=
  let u := fetched n s
  afterSlots n s ((slotS t).run n u (f ((slotV v).run n u ((slotM m).run n u u))))

/-- Core `n` after a bundle of one instruction that does `f`, the other slots NOP. -/
def afterOne (n : Nat) (s : State) (f : State → State) : State := afterSlots n s (f (fetched n s))

end Sys2Proof.Machine
end

