-- ==== Sys2Proof/Certificates/Slice0/Obligations.lean ====
section
/-! DEFINITION. The statements about the model that the provers take up, each from the rules it cites. -/

open Sys2Proof Sys2Proof.Machine

/-- A step runs the command at the front of the queue; an empty queue lets one tick pass.
(95_what_each_step_holds.md) For every state and command c with c at the front of the queue and rest behind it,
step answers what exec answers for c on the state whose queue is the rest. With an empty queue, step answers the
state one tick later and nothing else changed (the model's choice, log entry 1). -/
def Obligations.StepRunsTheFrontCommand : Prop :=
  (∀ (c : Instr) (rest : List Instr) (s : State), s.pending = c :: rest → step s = exec c { s with pending := rest }) ∧
  (∀ s : State, s.pending = [] → step s = .next { s with now := s.now + 1 })

/-- Every command, with every operand and in every state, answers a next state; the two forms that stop are named.
(R269, R374, R377, R385, 95_what_each_step_holds.md) For every constructor of Instr with every operand, and
every state, exec answers a next state, except INPUT_OUT_OF_RANGE above 60,000 mV (absolute maximum exceeded)
and a write at D3 to the vendor range of the debug window, by DEBUG_WINDOW_ACCESS or by a BAR0 REGISTER_WRITE,
whose effect the manual does not give. Those two answer their fault and their refusal: the first always, the
second where the access is valid and its path reaches the window (BAR0 with the function up, or JTAG with DBGACC
selected). -/
def Obligations.EveryCommandCompletes : Prop :=
  (∀ (c : Instr) (s : State), (∀ mv, c = .inputOutOfRange mv → mv ≤ 60000) →
    (∀ j y size v, c = .debugWindowAccess j y size true v → y < 0xA00000 ∨ 2 ^ 24 ≤ y ∨ s.ubide.dbg < 3) →
    (∀ a size v, c = .registerWrite .host ⟨a, size⟩ v → a < 0x3A00000 ∨ 2 ^ 26 ≤ a ∨ s.ubide.dbg < 3) → ∃ t, exec c s = goes t) ∧
  (∀ (mv : Nat) (s : State), 60000 < mv → exec (.inputOutOfRange mv) s = .fault .aboveAbsoluteMaximum) ∧
  (∀ (y size : Nat) (v : W64) (s : State), s.ubide.dbg = 3 → (size = 4 ∨ size = 8) → y % size = 0 → 0xA00000 ≤ y → y < 2 ^ 24 →
    (pcieUp s = true → exec (.debugWindowAccess false y size true v) s = .refused .vendorRange) ∧
    (s.pins.powered = true → s.pins.tapReset = false → s.pins.jtag = .dbgacc →
      exec (.debugWindowAccess true y size true v) s = .refused .vendorRange)) ∧
  (∀ (a size : Nat) (v : W64) (s : State), s.ubide.dbg = 3 → pcieUp s = true → (size = 4 ∨ size = 8) → a % size = 0 → 0x3A00000 ≤ a →
    a < 2 ^ 26 → exec (.registerWrite .host ⟨a, size⟩ v) s = .refused .vendorRange)

/-- Scalar, address, mask and predicate instructions: result and latency. (R34, 03_core_programs.md) Whenever a
bundle that holds ADD, SUB, AND, OR, XOR, SHL, SHR, SRA, MIN, MAX, MUL, MULH, SEL, ADDI, ANDI, ORI or LUI issues
in a core, beside any three other slot words, the command answers a next state: the result R39 gives is in
flight to the s register of d with latency 1 (3 for MUL and MULH), computed from the registers as they stood
before the bundle, beside the effects of the other slots, and the bundle has issued. Whenever a bundle that
holds AMOV, AGET, AADD, AADDI, AFORM, KMOV, KGET, KTAIL, KOP, CMP or POP issues in a core, beside any three
other slot words, the command answers a next state in which the result R39 gives is in flight with latency 1 to
the a, s, k or p register it names: AFORM builds the address of row cy, column cx and offset, KTAIL min(s, 64)
ones, CMP its six relations by f, POP and KOP their functions by f. -/
def Obligations.ScalarAddressMaskAndPredicateResults : Prop :=
  (
    ∀ (n : Nat) (w1 w2 w3 : W32) (s : State) (i : CR) (j : CI) (k : CU),
      let u := fetched n s
      let x := u.ctx n
      let r := x.regs
      let site : Site := { agent := .core n, w1 := w1, w2 := w2, w3 := w3 }
      let fly := fun (lat : Nat) (w : RegW) => goes (afterC n w1 w2 w3 s (flyRes n 0 x.pc lat w))
      (issuesC n (.add i) w1 w2 w3 s → exec (.add site i) s = fly 1 (.s i.d.toNat (r.getS i.a.toNat + r.getS i.b.toNat))) ∧
      (issuesC n (.sub i) w1 w2 w3 s → exec (.sub site i) s = fly 1 (.s i.d.toNat (r.getS i.a.toNat - r.getS i.b.toNat))) ∧
      (issuesC n (.andS i) w1 w2 w3 s → exec (.andS site i) s = fly 1 (.s i.d.toNat (r.getS i.a.toNat &&& r.getS i.b.toNat))) ∧
      (issuesC n (.orS i) w1 w2 w3 s → exec (.orS site i) s = fly 1 (.s i.d.toNat (r.getS i.a.toNat ||| r.getS i.b.toNat))) ∧
      (issuesC n (.xorS i) w1 w2 w3 s → exec (.xorS site i) s = fly 1 (.s i.d.toNat (r.getS i.a.toNat ^^^ r.getS i.b.toNat))) ∧
      (issuesC n (.shl i) w1 w2 w3 s → exec (.shl site i) s = fly 1 (.s i.d.toNat (r.getS i.a.toNat <<< ((r.getS i.b.toNat).toNat % 64)))) ∧
      (issuesC n (.shr i) w1 w2 w3 s → exec (.shr site i) s = fly 1 (.s i.d.toNat (r.getS i.a.toNat >>> ((r.getS i.b.toNat).toNat % 64)))) ∧
      (issuesC n (.sra i) w1 w2 w3 s → exec (.sra site i) s = fly 1 (.s i.d.toNat ((r.getS i.a.toNat).sshiftRight ((r.getS i.b.toNat).toNat % 64)))) ∧
      (issuesC n (.minS i) w1 w2 w3 s → exec (.minS site i) s = fly 1 (.s i.d.toNat (if (if i.f = 1 then (r.getS i.a.toNat).ult (r.getS i.b.toNat) else (r.getS i.a.toNat).slt (r.getS i.b.toNat)) then r.getS i.a.toNat else r.getS i.b.toNat))) ∧
      (issuesC n (.maxS i) w1 w2 w3 s → exec (.maxS site i) s = fly 1 (.s i.d.toNat (if (if i.f = 1 then (r.getS i.a.toNat).ult (r.getS i.b.toNat) else (r.getS i.a.toNat).slt (r.getS i.b.toNat)) then r.getS i.b.toNat else r.getS i.a.toNat))) ∧
      (issuesC n (.mul i) w1 w2 w3 s → exec (.mul site i) s = fly 3 (.s i.d.toNat (r.getS i.a.toNat * r.getS i.b.toNat))) ∧
      (issuesC n (.mulh i) w1 w2 w3 s → exec (.mulh site i) s = fly 3 (.s i.d.toNat (BitVec.ofInt 64 (((r.getS i.a.toNat).toInt * (r.getS i.b.toNat).toInt) / 2 ^ 64)))) ∧
      (issuesC n (.sel i) w1 w2 w3 s → exec (.sel site i) s = fly 1 (.s i.d.toNat (if r.getP i.f.toNat then r.getS i.a.toNat else r.getS i.b.toNat))) ∧
      (issuesC n (.addi j) w1 w2 w3 s → exec (.addi site j) s = fly 1 (.s j.d.toNat (r.getS j.a.toNat + j.imm.signExtend 64))) ∧
      (issuesC n (.andi j) w1 w2 w3 s → exec (.andi site j) s = fly 1 (.s j.d.toNat (r.getS j.a.toNat &&& j.imm.setWidth 64))) ∧
      (issuesC n (.ori j) w1 w2 w3 s → exec (.ori site j) s = fly 1 (.s j.d.toNat (r.getS j.a.toNat ||| j.imm.setWidth 64))) ∧
      (issuesC n (.lui k) w1 w2 w3 s → exec (.lui site k) s = fly 1 (.s k.d.toNat ((k.imm.signExtend 64) <<< 14)))) ∧
  (
    ∀ (n : Nat) (w1 w2 w3 : W32) (s : State) (i : CR) (j : CI),
      let u := fetched n s
      let x := u.ctx n
      let r := x.regs
      let site : Site := { agent := .core n, w1 := w1, w2 := w2, w3 := w3 }
      let fly := fun (lat : Nat) (w : RegW) => goes (afterC n w1 w2 w3 s (flyRes n 0 x.pc lat w))
      (issuesC n (.amov i) w1 w2 w3 s → exec (.amov site i) s = fly 1 (.a i.d.toNat ((r.getS i.a.toNat).setWidth 48))) ∧
      (issuesC n (.aget i) w1 w2 w3 s → exec (.aget site i) s = fly 1 (.s i.d.toNat ((r.getA i.a.toNat).setWidth 64))) ∧
      (issuesC n (.aadd i) w1 w2 w3 s → exec (.aadd site i) s = fly 1 (.a i.d.toNat (r.getA i.a.toNat + (r.getS i.b.toNat).setWidth 48))) ∧
      (issuesC n (.aaddi j) w1 w2 w3 s → exec (.aaddi site j) s = fly 1 (.a j.d.toNat (r.getA j.a.toNat + j.imm.signExtend 48))) ∧
      (issuesC n (.aform i) w1 w2 w3 s → exec (.aform site i) s = fly 1 (.a i.d.toNat (((r.getS i.a.toNat).extractLsb' 8 8).setWidth 48 <<< 38 ||| ((r.getS i.a.toNat).extractLsb' 0 8).setWidth 48 <<< 30 ||| ((r.getS i.b.toNat).extractLsb' 0 23).setWidth 48))) ∧
      (issuesC n (.kmov i) w1 w2 w3 s → exec (.kmov site i) s = fly 1 (.k i.d.toNat (r.getS i.a.toNat))) ∧
      (issuesC n (.kget i) w1 w2 w3 s → exec (.kget site i) s = fly 1 (.s i.d.toNat (x.getK i.a.toNat))) ∧
      (issuesC n (.ktail i) w1 w2 w3 s → exec (.ktail site i) s = fly 1 (.k i.d.toNat (BitVec.ofNat 64 (2 ^ min (r.getS i.a.toNat).toNat 64 - 1)))) ∧
      (issuesC n (.kop i) w1 w2 w3 s → exec (.kop site i) s = fly 1 (.k i.d.toNat (if i.f = 0 then x.getK i.a.toNat &&& x.getK i.b.toNat else if i.f = 1 then x.getK i.a.toNat ||| x.getK i.b.toNat else if i.f = 2 then x.getK i.a.toNat ^^^ x.getK i.b.toNat else x.getK i.a.toNat &&& ~~~(x.getK i.b.toNat)))) ∧
      (issuesC n (.cmp i) w1 w2 w3 s → exec (.cmp site i) s = fly 1 (.p i.d.toNat (if i.f = 0 then decide (r.getS i.a.toNat = r.getS i.b.toNat) else if i.f = 1 then decide (r.getS i.a.toNat ≠ r.getS i.b.toNat) else if i.f = 2 then decide ((r.getS i.a.toNat).toInt < (r.getS i.b.toNat).toInt) else if i.f = 3 then decide ((r.getS i.a.toNat).toInt ≤ (r.getS i.b.toNat).toInt) else if i.f = 4 then decide ((r.getS i.a.toNat).toNat < (r.getS i.b.toNat).toNat) else decide ((r.getS i.a.toNat).toNat ≤ (r.getS i.b.toNat).toNat)))) ∧
      (issuesC n (.pop i) w1 w2 w3 s → exec (.pop site i) s = fly 1 (.p i.d.toNat (if i.f = 0 then r.getP i.a.toNat && r.getP i.b.toNat else if i.f = 1 then r.getP i.a.toNat || r.getP i.b.toNat else if i.f = 2 then r.getP i.a.toNat != r.getP i.b.toNat else if i.f = 3 then r.getP i.a.toNat && !r.getP i.b.toNat else !r.getP i.a.toNat))))

/-- LD and ST, NOP, MFC, MTC, SIG and ARRIVE in a core. (R40, 03_core_programs.md) Whenever a bundle whose control
slot holds LD issues beside three NOP slots, and the lines of its bytes read without an uncorrectable line, the
little-endian value of the 2^size bytes at base + off x size (with the core's own waiting stores laid over them)
is in flight to the s register, latency 3 in the near bank and 6 in the far bank; with an uncorrectable line the
exception UE is in flight in its place. ST queues the low bytes of its register at that offset, seen by a later
LD at once and by the other ports 3 or 6 issue cycles later. Whenever a bundle that holds one of them issues in
a core, beside any three other slot words, the command answers a next state. NOP changes nothing of its own. MFC
puts CYCLE, ISSUE, TICK, the core number, the context id, a loop level's count, MODE or SCRATCH (by f) in flight
to s_d with latency 1. MTC writes SCRATCH at once. SIG sets flag f of the panel's sequencer and ARRIVE adds 1 to
its barrier counter f, which stops at 65,535. -/
def Obligations.LoadsStoresControlRegistersFlags : Prop :=
  (
    ∀ (n : Nat) (s : State) (i : CM),
      let u := fetched n s
      let x := u.ctx n
      let o := (dispOff (x.regs.getA i.base.toNat) i.off.toInt (2 ^ i.size.toNat)).toNat
      let lat := if o < 0x180000 then 3 else 6
      let rd := spdRead 0 n o (2 ^ i.size.toNat) u
      let site : Site := { agent := .core n, w1 := 0, w2 := 0, w3 := 0 }
      (issuesC n (.ld i) 0 0 0 s → rd.1.bad = [] →
        exec (.ld site i) s = goes (afterOne n s (fun _ =>
          flyRes n 0 x.pc lat (.s i.t.toNat (BitVec.ofNat 64 (leNat (overlay (u.core n) o rd.1.bytes)))) rd.2))) ∧
      (issuesC n (.ld i) 0 0 0 s → rd.1.bad ≠ [] →
        exec (.ld site i) s = goes (afterOne n s (fun _ => flyRes n 0 x.pc lat (.exc .ue) rd.2))) ∧
      (issuesC n (.st i) 0 0 0 s →
        exec (.st site i) s = goes (afterOne n s (fun t => t.onCore n (fun c =>
          { c with
            stores := c.stores ++
              [{ due := c.icyc + lat, port := 3, cSees := true
                 bytes := atOff o (leBytes (2 ^ i.size.toNat) (x.regs.getS i.t.toNat).toNat), pois := [] }] }))))) ∧
  (
    ∀ (n : Nat) (w1 w2 w3 : W32) (s : State) (i : CR),
      let u := fetched n s
      let x := u.ctx n
      let r := x.regs
      let site : Site := { agent := .core n, w1 := w1, w2 := w2, w3 := w3 }
      let does := fun (f : State → State) => goes (afterC n w1 w2 w3 s f)
      let fly := fun (lat : Nat) (w : RegW) => goes (afterC n w1 w2 w3 s (flyRes n 0 x.pc lat w))
      (issuesC n (.nop 0) w1 w2 w3 s → exec (.nop site) s = does id) ∧
      (issuesC n (.mfc i) w1 w2 w3 s → exec (.mfc site i) s = fly 1 (.s i.d.toNat
        (if i.f = 0 then BitVec.ofNat 64 x.cycle else if i.f = 1 then BitVec.ofNat 64 x.issue
         else if i.f = 2 then BitVec.ofNat 64 (panelTick u (panelOf n)) else if i.f = 3 then BitVec.ofNat 64 n
         else if i.f = 4 then BitVec.ofNat 64 (u.core n).cur else if i.f = 9 then x.mode.setWidth 64
         else if i.f = 10 then x.scratch
         else BitVec.ofNat 64 (((x.loops[i.f.toNat - 5]?).map LoopLv.count).getD 0)))) ∧
      (issuesC n (.mtc i) w1 w2 w3 s →
        exec (.mtc site i) s = does (fun t => t.onCur n (fun y => { y with scratch := r.getS i.a.toNat }))) ∧
      (issuesC n (.sig i) w1 w2 w3 s →
        exec (.sig site i) s = does (fun t => t.onSeq (panelOf n) (fun q => { q with flags := q.flags ||| (1#64 <<< i.f.toNat) }))) ∧
      (issuesC n (.arrive i) w1 w2 w3 s →
        exec (.arrive site i) s = does (fun t => t.onSeq (panelOf n) (fun q =>
          { q with bar := Tab.put 0 q.bar i.f.toNat (min (2 ^ 16 - 1) (Tab.get 0 q.bar i.f.toNat + 1)) }))))

/-- Branches and loops in a core, and how pc, loop levels and delay bundles advance. (R42, R43, 03_core_programs.md)
Whenever a bundle that holds one of them issues beside any three slot words, the command answers a next state. A
taken branch (BR where its predicate equals sense, JMP, JR) sets its target, pc + off for BR and JMP and s_a for
JR, taken after two more bundles; a BR not taken changes nothing. LOOP and LOOPI open a level over the next body
bundles with their count, and LOOP with a count of 0 skips the body. After the bundle at pc has issued, an
innermost level whose body ends at pc and whose count is above 1 goes back to its start with the count one
lower; a level whose count is 1 ends, and so does every level around it that ends there with count 1; without a
level that ends here the next bundle is pc + 1. The bundle of a branch and the first of its two delay bundles go
on to pc + 1 with one less to issue; after the second the next bundle is the target, and the levels whose body
the target leaves, up to the first that holds it, are closed. -/
def Obligations.BranchesLoopsAndTheirAdvance : Prop :=
  (
    ∀ (n : Nat) (w1 w2 w3 : W32) (s : State) (i : CR) (b : CB) (l : CLoop) (m : CLoopI),
      let u := fetched n s
      let x := u.ctx n
      let r := x.regs
      let site : Site := { agent := .core n, w1 := w1, w2 := w2, w3 := w3 }
      let does := fun (f : State → State) => goes (afterC n w1 w2 w3 s f)
      let jump := fun (t : Int) => does (fun v => v.onCur n (fun y => { y with branch := some ((t % 2 ^ 20).toNat, 3) }))
      let loops := fun (count body : Nat) => does (fun v => v.onCur n (fun y =>
        { y with loops := y.loops ++ [{ count := count, start := y.pc + 1, stop := y.pc + body }] }))
      (issuesC n (.br b) w1 w2 w3 s → r.getP b.p.toNat = decide (b.sense = 1) →
        exec (.br site b) s = jump (x.pc + b.off.toInt)) ∧
      (issuesC n (.br b) w1 w2 w3 s → r.getP b.p.toNat ≠ decide (b.sense = 1) → exec (.br site b) s = does id) ∧
      (issuesC n (.jmp b) w1 w2 w3 s → exec (.jmp site b) s = jump (x.pc + b.off.toInt)) ∧
      (issuesC n (.jr i) w1 w2 w3 s → exec (.jr site i) s = jump ((r.getS i.a.toNat).toNat : Int)) ∧
      (issuesC n (.loop l) w1 w2 w3 s → (r.getS l.s.toNat).toNat % 2 ^ 32 ≠ 0 →
        exec (.loop site l) s = loops ((r.getS l.s.toNat).toNat % 2 ^ 32) (l.body.toNat + 1)) ∧
      (issuesC n (.loop l) w1 w2 w3 s → (r.getS l.s.toNat).toNat % 2 ^ 32 = 0 →
        exec (.loop site l) s = does (fun v => v.onCur n (fun y => { y with pc := y.pc + (l.body.toNat + 1) }))) ∧
      (issuesC n (.loopi m) w1 w2 w3 s → exec (.loopi site m) s = loops (m.count.toNat + 1) (m.body.toNat + 1))) ∧
  (
    ∀ (pc : Nat) (x : Ctx) (l : LoopLv) (outer : List LoopLv), x.pc = pc → pc + 1 < 2 ^ 20 → l.start < 2 ^ 20 →
      (x.branch = none → x.loops = outer ++ [l] → l.stop = pc → 1 < l.count →
        (advancePc pc x).pc = l.start ∧ (advancePc pc x).loops = outer ++ [{ l with count := l.count - 1 }]) ∧
      (∀ ends : List LoopLv, x.branch = none → (∀ v ∈ ends, v.stop = pc ∧ v.count = 1) →
        (∀ v, x.loops = outer ++ [v] ++ ends → v.stop = pc → 1 < v.count → v.start < 2 ^ 20 →
          (advancePc pc x).pc = v.start ∧ (advancePc pc x).loops = outer ++ [{ v with count := v.count - 1 }]) ∧
        (∀ v, x.loops = outer ++ [v] ++ ends → v.stop ≠ pc →
          (advancePc pc x).pc = pc + 1 ∧ (advancePc pc x).loops = outer ++ [v]) ∧
        (x.loops = ends → (advancePc pc x).pc = pc + 1 ∧ (advancePc pc x).loops = [])) ∧
      (x.branch = none → (∀ v ∈ x.loops, v.stop ≠ pc) →
        (advancePc pc x).pc = pc + 1 ∧ (advancePc pc x).loops = x.loops) ∧
      (∀ t k : Nat, k = 3 ∨ k = 2 → x.branch = some (t, k) → (∀ v ∈ x.loops, v.stop ≠ pc) →
        (advancePc pc x).pc = pc + 1 ∧ (advancePc pc x).branch = some (t, k - 1) ∧ (advancePc pc x).loops = x.loops) ∧
      (∀ t : Nat, x.branch = some (t, 1) → (advancePc pc x).pc = t ∧ (advancePc pc x).branch = none ∧
        ((∀ v ∈ x.loops, v.stop ≠ pc) → ∀ left, (∀ v ∈ left, t < v.start ∨ v.stop < t) →
          (x.loops = left → (advancePc pc x).loops = []) ∧
          (∀ v, x.loops = outer ++ [v] ++ left → v.start ≤ t → t ≤ v.stop → (advancePc pc x).loops = outer ++ [v]))))

/-- WAIT, REST, YIELD and END in a core, and what a context boundary does. (R49, R51, R55, 03_core_programs.md)
Whenever a bundle of WAIT, REST, YIELD or END issues, the command answers a next state. WAIT whose event has
occurred puts pd = 1 in flight with latency 1 and consumes a pending XWAKE; otherwise the context is WAITING
with the event, its destination, the tick of issue and the timeout s[31:0]. REST whose event has occurred goes
on; otherwise the core waits to rest with the event and its horizon. YIELD and END bring the core to a context
boundary: it is recorded with the bundle's index and, where every fixed-latency result has retired and the
outstanding work is complete, carried out. At a context boundary with every earlier result retired, the
outstanding work complete and no debug halt asked of it, the command answers a next state. At YIELD without a
pending switch the core writes the counts of its open groups back and goes on in its context. At YIELD with a
switch pending to another READY context, the old context is PARKED and the new one runs. At END the context is
EMPTY, and without a pending switch the core is idle. -/
def Obligations.WaitRestBoundariesAndSwitches : Prop :=
  (
    ∀ (n : Nat) (s : State) (i : CE) (j : CR),
      let u := fetched n s
      let x := u.ctx n
      let site : Site := { agent := .core n, w1 := 0, w2 := 0, w3 := 0 }
      let ticks := (x.regs.getS i.s.toNat).toNat % 2 ^ 32
      let waiting := fun (t : State) => t.onCur n (fun y => { y with state := .waiting })
      (issuesC n (.wait i) 0 0 0 s → eventNow n i.kind.toNat i.arg.toNat u = true →
        exec (.wait site i) s = goes (afterOne n s (fun t => consumeEvent n i.kind.toNat (flyRes n 0 x.pc 1 (.p i.pd.toNat true) t)))) ∧
      (issuesC n (.wait i) 0 0 0 s → eventNow n i.kind.toNat i.arg.toNat u = false →
        exec (.wait site i) s = goes (afterOne n s (fun t => (waiting t).onCore n (fun c =>
          { c with wait := some { kind := i.kind.toNat, arg := i.arg.toNat, pd := i.pd.toNat, since := u.now, ticks := ticks, pc := x.pc } })))) ∧
      (issuesC n (.rest i) 0 0 0 s → eventNow n i.kind.toNat i.arg.toNat u = true →
        exec (.rest site i) s = goes (afterOne n s (consumeEvent n i.kind.toNat))) ∧
      (issuesC n (.rest i) 0 0 0 s → eventNow n i.kind.toNat i.arg.toNat u = false →
        exec (.rest site i) s = goes (afterOne n s (fun t => (waiting t).onCore n (fun c =>
          { c with rest := some { kind := i.kind.toNat, arg := i.arg.toNat, since := u.now, horizon := ticks, entered := false, entryAt := 0, entryTicks := 0, deferred := false, forced := false } })))) ∧
      (issuesC n (.yield j) 0 0 0 s →
        exec (.yield site j) s = goes (finishBoundary n
          ((afterOne n s id).onCore n (fun c => { c with boundary := some .yieldB, bpc := ((atChecks n s).ctx n).pc })))) ∧
      (issuesC n (.endC j) 0 0 0 s →
        exec (.endC site j) s = goes (finishBoundary n
          ((afterOne n s id).onCore n (fun c => { c with boundary := some .endB, bpc := ((atChecks n s).ctx n).pc }))))) ∧
  (
    ∀ (n : Nat) (s : State), n < 35328 → (s.core n).haltReq = false → (s.core n).still = true → quiet (s.core n) = true → (s.ctx n).postExc = none →
      ((s.core n).boundary = some .yieldB → (s.core n).mark = none →
        exec (.contextBoundarySwitch n) s = goes ((writeGroups n (s.core n).cur s).onCore n (fun c => { c with boundary := none }))) ∧
      (∀ j : Nat, (s.core n).boundary = some .yieldB → (s.core n).mark = some j → j ≠ (s.core n).cur →
        (s.ctxAt n j).state = .ready →
        ∃ t, exec (.contextBoundarySwitch n) s = goes t ∧ (t.core n).cur = j ∧ (t.core n).active = true ∧
          (t.ctxAt n j).state = .running ∧ (t.ctxAt n (s.core n).cur).state = .parked ∧ (t.core n).mark = none ∧
          (t.core n).boundary = none) ∧
      ((s.core n).boundary = some .endB → (s.core n).mark = none →
        ∃ t, exec (.contextBoundarySwitch n) s = goes t ∧ (t.ctxAt n (s.core n).cur).state = .empty ∧
          (t.core n).active = false ∧ (t.core n).power = .idle ∧ (t.core n).flight = [] ∧ (t.core n).boundary = none))

/-- A bundle that issues runs its four slots on the state before it, whatever stands beside the instruction. (R34)
For every instruction of the control, matrix, vector or stream slot and every three other slot words, a bundle
that its core may issue, that no interlock holds and none of whose slots raises an exception issues: each slot
reads the state as it stood, the slots' effects are carried out (a write made at once is seen from the next
issue cycle on), pc, loops, ISSUE and the issue cycle advance, and a bundle that is no boundary leaves exactly
that state. -/
def Obligations.FourSlotsIssueTogether : Prop :=
  ∀ (n : Nat) (w1 w2 w3 : W32) (s : State),
    let u := fetched n s
    let run := fun (c m v t : SlotOp) => afterSlots n s (t.run n u (c.run n u (v.run n u (m.run n u u))))
    (∀ i : CIns, issuesC n i w1 w2 w3 s → boundaryOf (some i) = none →
      atC { agent := .core n, w1 := w1, w2 := w2, w3 := w3 } i s = goes (run i.op (slotM w1) (slotV w2) (slotS w3))) ∧
    (∀ i : MIns, issuesM n i w1 w2 w3 s → boundaryOf (CIns.ofWord w1) = none →
      atM { agent := .core n, w1 := w1, w2 := w2, w3 := w3 } i s = goes (run (slotC (CIns.ofWord w1)) i.op (slotV w2) (slotS w3))) ∧
    (∀ i : VIns, issuesV n i w1 w2 w3 s → boundaryOf (CIns.ofWord w1) = none →
      atV { agent := .core n, w1 := w1, w2 := w2, w3 := w3 } i s = goes (run (slotC (CIns.ofWord w1)) (slotM w2) i.op (slotS w3))) ∧
    (∀ i : SIns, issuesS n i w1 w2 w3 s → boundaryOf (CIns.ofWord w1) = none →
      atS { agent := .core n, w1 := w1, w2 := w2, w3 := w3 } i s = goes (run (slotC (CIns.ofWord w1)) (slotM w2) (slotV w3) i.op))

/-- A held bundle waits and is released; an exception at issue stops the context. (R45, R57, R58) A held bundle at
its checks that an interlock still holds stays: the core notes it (and whether its wait has been counted late,
R47) and nothing else of it takes effect. A held bundle that now issues and is no boundary answers the state
that its slots leave. In both cases a debug halt that is asked of the core goes on from there. A bundle at its
checks that no interlock holds and that raises exception e in slot k stops the context without any slot's
effect: the context holds the record of e, k and the bundle's index, and CORE_STAT holds it if it held none. A
legal bundle of which some slot has an undefined opcode raises EXC_ILLEGAL, and a bundle that does not lie in
the code region raises EXC_ACCESS. A word without a meaning puts a running sequencer into FAULT with ILLEGAL. -/
def Obligations.BundlesHeldOrStoppedAtIssue : Prop :=
  (
    ∀ (n : Nat) (b : Bundle) (s : State), (s.core n).held = some b →
      let u := atChecks n s
      (fetchable n b s → (rawOps b).held n u = true →
        exec (.interlockRelease n) s = goes (haltTry n (u.onCore n (fun c => { c with held := some b, late := c.late && c.held.isSome })))) ∧
      (issuable n b (rawOps b) s → (rawOps b).bd = none →
        exec (.interlockRelease n) s = goes (haltTry n (afterSlots n s ((rawOps b).run n (fetched n s)))))) ∧
  (
    ∀ (n : Nat) (b : Bundle) (s : State),
      let u := atChecks n s
      let k0 := (u.core n).cur
      (∀ (e : Exc) (k : Nat), fetchable n b s → (rawOps b).held n u = false → (rawOps b).exc b n u = some (e, k) →
        ∃ t, exec (.undefinedOpcode (.core n) b) s = goes t ∧
          t = contextFault n { exc := e, slot := k, pc := (u.ctx n).pc } u ∧
          (t.ctxAt n k0).exc = some { exc := e, slot := k, pc := (u.ctx n).pc } ∧
          ((u.core n).stat = none → (u.core n).mark = none →
            (t.core n).stat = some ({ exc := e, slot := k, pc := (u.ctx n).pc }, k0))) ∧
      (fetchable n b s → (rawOps b).held n u = false → (rawOps b).illegal b = false →
        (CIns.ofWord b.c = none ∨ MIns.ofWord b.m = none ∨ VIns.ofWord b.v = none ∨ SIns.ofWord b.s = none) →
        ∃ t k, exec (.undefinedOpcode (.core n) b) s = goes t ∧
          (t.ctxAt n k0).exc = some { exc := .illegal, slot := k, pc := (u.ctx n).pc }) ∧
      (n < 35328 → canIssue n b s = true → (catchUp n s).2 = none → fetchOk ((catchUp n s).1.core n) = false →
        exec (.undefinedOpcode (.core n) b) s =
          goes (contextFault n { exc := .access, slot := 0, pc := ((catchUp n s).1.ctx n).pc } (catchUp n s).1)) ∧
      (∀ p : Nat, p < 64 → seqReady s p = true →
        ∃ t, exec (.undefinedOpcode (.seq p) b) s = goes t ∧ (t.seq p).state = .fault ∧ (t.seq p).fault = some .illegal))

/-- MCFG, MSEED, MLDW, MMUL, MPRE and MCLR at issue, and the passes of open groups. (R76, R77, R72, R73,
04_matrix_engine.md, R85) Whenever a bundle of one of them issues beside NOP slots, the command answers a next
state. MCFG and MSEED put the array's rounding and its column seeds in flight with latency 1. MLDW starts the
load of the shadow: formats, dense marking, sources and sizes, from this issue cycle on. MMUL with sw = 1 makes
the shadow active and starts its rows; MPRE and MCLR start theirs: each occupies the array's input from this
issue cycle for v x rows, 16 n and n issue cycles. An MMUL that issues beside NOP slots and touches the last
tile of exactly one open group counts there: below the interval (or with interval 0) the count rises by 1 and
nothing joins the drain queue; where the count reaches the nonzero interval it returns to 0 and a spill of each
of the group's tiles, lowest first, joins the queue of the array, each to its wide-sum tile. -/
def Obligations.MatrixInstructionsAndPassesAtIssue : Prop :=
  (
    ∀ (n : Nat) (s : State) (g : McfgF) (e : MseedF) (l : MldwF) (i : MmulF) (q : MpreF) (c : MtilesF),
      let u := fetched n s
      let x := u.ctx n
      let pc := x.pc
      let now := (u.core n).icyc
      let site : Site := { agent := .core n, w1 := 0, w2 := 0, w3 := 0 }
      let fly := fun (w : RegW) => goes (afterOne n s (flyRes n 1 pc 1 w))
      (issuesM n (.mcfg g) 0 0 0 s → exec (.mcfg site g) s = fly (.srs g.arr.toNat (decide (g.srs = 1)))) ∧
      (issuesM n (.mseed e) 0 0 0 s → exec (.mseed site e) s = fly (.seedCols e.arr.toNat (x.regs.getS e.s.toNat))) ∧
      (issuesM n (.mldw l) 0 0 0 s → ∃ t, exec (.mldw site l) s = goes t ∧
        ((t.core n).arr l.arr.toNat).shadow.wf = l.wf.toNat ∧ ((t.core n).arr l.arr.toNat).shadow.af = l.af.toNat ∧
        ((t.core n).arr l.arr.toNat).shadow.nm = 0 ∧
        ((t.core n).arr l.arr.toNat).load = some
          { t := now, parts := loadParts l.wf.toNat, next := 0, src := aOff x l.aw, srcLen := tileBytes l.wf.toNat
            sc := aOff x l.asc, scLen := wScaleBytes l.wf.toNat 0, md := 0, mdLen := metaBytes l.wf.toNat 0, slot := 1, pc := pc } ∧
        ((t.core n).arr l.arr.toNat).active = ((u.core n).arr l.arr.toNat).active) ∧
      (issuesM n (.mmul i) 0 0 0 s → ∃ t, exec (.mmul site i) s = goes t ∧
        ((t.core n).arr i.arr.toNat).active =
          (if i.sw = 1 then ((u.core n).arr i.arr.toNat).shadow else ((u.core n).arr i.arr.toNat).active) ∧
        ((t.core n).arr i.arr.toNat).inp = some
          { t := now, next := 0, rows := i.rows.toNat + 1, v := rowInterval ((t.core n).arr i.arr.toNat).active, tile := i.t.toNat
            srs := x.srs i.arr.toNat, kind := .mmul (aOff x i.ax) (aOff x i.asc), pc := pc } ∧
        ((t.core n).arr i.arr.toNat).busy = now + rowInterval ((t.core n).arr i.arr.toNat).active * (i.rows.toNat + 1)) ∧
      (issuesM n (.mpre q) 0 0 0 s → ∃ t, exec (.mpre site q) s = goes t ∧
        ((t.core n).arr q.arr.toNat).busy = now + 16 * (q.n.toNat + 1) ∧
        ((t.core n).arr q.arr.toNat).inp = some
          { t := now, next := 0, rows := 16 * (q.n.toNat + 1), v := 1, tile := q.t.toNat, srs := false
            kind := .mpre (decide (q.kind = 0)) (decide (q.pf = 1)) (aOff x q.src), pc := pc }) ∧
      (issuesM n (.mclr c) 0 0 0 s → ∃ t, exec (.mclr site c) s = goes t ∧
        ((t.core n).arr c.arr.toNat).busy = now + (c.n.toNat + 1) ∧
        ((t.core n).arr c.arr.toNat).inp = some
          { t := now, next := 0, rows := c.n.toNat + 1, v := 1, tile := c.t.toNat, srs := false, kind := .mclr, pc := pc })) ∧
  (
    ∀ (n : Nat) (s : State) (i : MmulF) (key : Nat) (g : Group),
      let u := fetched n s
      let x := u.ctx n
      let site : Site := { agent := .core n, w1 := 0, w2 := 0, w3 := 0 }
      let a := i.arr.toNat
      issuesM n (.mmul i) 0 0 0 s → passGroups x a i.t.toNat (ceilDiv (i.rows.toNat + 1) 16) = [(key, g)] →
      ∃ t, exec (.mmul site i) s = goes t ∧
        (¬ (g.interval ≠ 0 ∧ g.count + 1 = g.interval) →
          ((t.core n).arr a).queue = ((u.core n).arr a).queue ∧
          (t.ctx n).groups = Tab.set x.groups key { g with count := (g.count + 1) % 65536 }) ∧
        (g.interval ≠ 0 → g.count + 1 = g.interval →
          (t.ctx n).groups = Tab.set x.groups key { g with count := 0 } ∧
          ∃ sp : List DrainOp, ((t.core n).arr a).queue = ((u.core n).arr a).queue ++ sp ∧
            sp.map (fun o => o.tile) = (List.range g.n).map (fun j => g.t + j) ∧
            sp.map (fun o => o.wide) = (List.range g.n).map (fun j => g.wide + 2048 * j) ∧
            ∀ o ∈ sp, o.kind = .spill ∧ o.started = none))

/-- Drains, groups and the sparse forms at issue. (R83, R84, R86, R88, 04_matrix_engine.md, R117, R119, R120, R121,
R122, R124, 06_sparse_operands.md) Whenever a bundle of one of them issues beside NOP slots, the command answers
a next state. MDRAIN joins one drain of its tile to the array's queue with its format, rounding, w, cl, gc and
destination. MSPILL joins a spill of each of its n tiles, lowest first. MGRP puts the opening of its group, read
from the 16-byte entry, or its closing, in flight with latency 6. Whenever a bundle of one of them issues beside
NOP slots, the command answers a next state. MLDS starts the load of an N:M tile with its metadata. SMUL with a
good list header starts its entries with the header's base and stride. MDRS, SMRG, SCMP and STRW each join one
operation to the array's drain queue with their addresses. -/
def Obligations.DrainsGroupsAndSparseFormsAtIssue : Prop :=
  (
    ∀ (n : Nat) (s : State) (d : MdrainF) (c : MtilesF) (g : MgrpF),
      let u := fetched n s
      let x := u.ctx n
      let pc := x.pc
      let site : Site := { agent := .core n, w1 := 0, w2 := 0, w3 := 0 }
      let tab := aOff x g.tab
      let rd := spdRead 1 n tab 16 u
      let e := leNat rd.1.bytes
      (issuesM n (.mdrain d) 0 0 0 s → ∃ t o, exec (.mdrain site d) s = goes t ∧
        ((t.core n).arr d.arr.toNat).queue = ((u.core n).arr d.arr.toNat).queue ++ [o] ∧
        o.kind = .mdrain ∧ o.tile = d.t.toNat ∧ o.fmt = d.fmt.toNat ∧ o.rnd = decide (d.rnd = 1) ∧ o.w = decide (d.w = 1) ∧
        o.cl = decide (d.cl = 1) ∧ o.gc = decide (d.gc = 1) ∧ o.dst = aOff x d.ad ∧ o.started = none ∧
        (d.w = 1 → ∃ grp, groupOfTile x d.arr.toNat d.t.toNat = some grp ∧ o.wide = grp.wide + 2048 * (d.t.toNat - grp.t))) ∧
      (issuesM n (.mspill c) 0 0 0 s → ∃ t sp, exec (.mspill site c) s = goes t ∧
        ((t.core n).arr c.arr.toNat).queue = ((u.core n).arr c.arr.toNat).queue ++ sp ∧
        sp.map (fun o => o.tile) = (List.range (c.n.toNat + 1)).map (fun j => c.t.toNat + j) ∧
        ∀ o ∈ sp, o.kind = .spill ∧ o.started = none) ∧
      (issuesM n (.mgrpOpen g) 0 0 0 s → exec (.mgrpOpen site g) s = goes (afterOne n s (fun _ =>
        flyRes n 1 pc 6 (.grpOpen g.arr.toNat g.g.toNat
          { t := g.t.toNat, n := g.n.toNat + 1, tab := tab, wide := e % 2 ^ 23, interval := e / 2 ^ 32 % 2 ^ 16, count := e / 2 ^ 48 % 2 ^ 16 }) rd.2))) ∧
      (issuesM n (.mgrpClose g) 0 0 0 s →
        exec (.mgrpClose site g) s = goes (afterOne n s (flyRes n 1 pc 6 (.grpClose g.arr.toNat g.g.toNat))))) ∧
  (
    ∀ (n : Nat) (s : State) (l : MldsF) (i : SmulF) (d : MdrsF) (m : SmrgF) (c : ScmpF) (w : StrwF),
      let u := fetched n s
      let x := u.ctx n
      let pc := x.pc
      let now := (u.core n).icyc
      let site : Site := { agent := .core n, w1 := 0, w2 := 0, w3 := 0 }
      let joins := fun (a : BitVec 1) (t : State) (o : DrainOp) => ((t.core n).arr a.toNat).queue = ((u.core n).arr a.toNat).queue ++ [o]
      (issuesM n (.mlds l) 0 0 0 s → ∃ t, exec (.mlds site l) s = goes t ∧
        ((t.core n).arr l.arr.toNat).shadow.nm = l.nm.toNat + 1 ∧ ((t.core n).arr l.arr.toNat).shadow.wf = l.wf.toNat ∧
        ((t.core n).arr l.arr.toNat).shadow.af = l.af.toNat ∧
        ((t.core n).arr l.arr.toNat).load = some
          { t := now, parts := loadParts l.wf.toNat, next := 0, src := aOff x l.aw, srcLen := tileBytes l.wf.toNat
            sc := aOff x l.asc, scLen := wScaleBytes l.wf.toNat (l.nm.toNat + 1), md := aOff x l.am
            mdLen := metaBytes l.wf.toNat (l.nm.toNat + 1), slot := 1, pc := pc }) ∧
      (issuesM n (.smul i) 0 0 0 s →
        let W := if i.sw = 1 then ((u.core n).arr i.arr.toNat).shadow else ((u.core n).arr i.arr.toNat).active
        let rd := (spdRead 1 n (aOff x i.ai) 16 (swapIn n i.arr.toNat i.sw u)).1
        let h := leNat rd.bytes
        rd.bad = [] → h / 2 ^ 48 = 0 → 0 < h / 2 ^ 32 → rowBytes W + rowScales W ≤ h / 2 ^ 32 * 32 →
        ∃ t, exec (.smul site i) s = goes t ∧ ((t.core n).arr i.arr.toNat).active = W ∧
          ((t.core n).arr i.arr.toNat).busy = now + rowInterval W * (i.cnt.toNat + 1) ∧
          ((t.core n).arr i.arr.toNat).inp = some
            { t := now, next := 0, rows := i.cnt.toNat + 1, v := rowInterval W, tile := i.t.toNat, srs := x.srs i.arr.toNat
              kind := .smul (aOff x i.ax) (aOff x i.ai) (h % 2 ^ 32) (h / 2 ^ 32) false, pc := pc }) ∧
      (issuesM n (.mdrs d) 0 0 0 s → ∃ t o, exec (.mdrs site d) s = goes t ∧ joins d.arr t o ∧ o.kind = .mdrs ∧
        o.tile = d.t.toNat ∧ o.fmt = d.fmt.toNat ∧ o.nm = d.nm.toNat + 1 ∧ o.dst = aOff x d.ad ∧ o.aux = aOff x d.am ∧
        o.rnd = decide (d.rnd = 1) ∧ o.w = decide (d.w = 1) ∧ o.cl = decide (d.cl = 1) ∧ o.gc = decide (d.gc = 1) ∧ o.started = none) ∧
      (issuesM n (.smrg m) 0 0 0 s → ∃ t o, exec (.smrg site m) s = goes t ∧ joins m.arr t o ∧ o.kind = .smrg ∧
        o.tile = m.t.toNat ∧ o.cl = decide (m.cl = 1) ∧ o.dst = aOff x m.ad ∧ o.aux = aOff x m.ar ∧ o.str = m.str.toNat ∧ o.started = none) ∧
      (issuesM n (.scmp c) 0 0 0 s → ∃ t o, exec (.scmp site c) s = goes t ∧ joins c.arr t o ∧ o.kind = .scmp ∧
        o.fmt = c.wf.toNat ∧ o.nm = c.nm.toNat + 1 ∧ o.dst = aOff x c.ad ∧ o.aux = aOff x c.src ∧ o.aux2 = aOff x c.msk ∧
        o.aux3 = aOff x c.adm ∧ o.started = none) ∧
      (issuesM n (.strw w) 0 0 0 s → ∃ t o, exec (.strw site w) s = goes t ∧ joins w.arr t o ∧ o.kind = .strw ∧
        o.nm = w.nm.toNat + 1 ∧ o.dst = aOff x w.ad ∧ o.aux = aOff x w.asrc ∧ o.aux2 = aOff x w.asm ∧ o.aux3 = aOff x w.adm ∧ o.started = none))

/-- Vector register instructions and vector loads: their results. (R101, R103, R104, R106, 05_vector_chains.md)
Whenever a bundle of one of them issues beside NOP slots, the command answers a next state. VBC broadcasts half
sel of a scalar to all 64 lanes with clean quarters, latency 2. VEXT extracts a lane into s_d and whether its
quarter is clean into pd, latency 2. VLDC loads 32 bytes into a chain register, latency 3 near and 6 far (UE in
flight where a line is uncorrectable). VSEED seeds the lane generators. VST queues the low bytes of its unmasked
lanes, with the lines that take poison from their quarters. Whenever a bundle of VLD issues beside NOP slots and
every line that its unmasked lanes touch reads good, one result is in flight to its vector register with latency
3 in the near bank and 6 in the far bank, 1 more for 32-bit lanes: it lists exactly the unmasked lanes in rising
order, each with the little-endian value of its 2^es bytes of memory, and marks no quarter poisoned. The vector
port is taken for 1 issue cycle, 2 for 32-bit lanes. -/
def Obligations.VectorRegisterAndLoadResults : Prop :=
  (
    ∀ (n : Nat) (s : State) (b : VbcF) (e : VextF) (c : VldcF) (g : VseedF) (m : VmemF),
      let u := fetched n s
      let x := u.ctx n
      let pc := x.pc
      let now := (u.core n).icyc
      let site : Site := { agent := .core n, w1 := 0, w2 := 0, w3 := 0 }
      let o := (vldcOff x c).toNat
      let rd := spdRead 0 n o 32 (takePort n 1 u)
      let half := fun (v : W64) => if b.sel = 0 then v.setWidth 32 else (v >>> 32).setWidth 32
      (issuesV n (.vbc b) 0 0 0 s → exec (.vbc site b) s = goes (afterOne n s (flyRes n 2 pc 2
        (.lanes b.vd.toNat ((List.range 64).map (fun j => (j, half (x.regs.getS b.s.toNat)))) ((List.range 4).map (fun q => (q, false))))))) ∧
      (issuesV n (.vext e) 0 0 0 s → exec (.vext site e) s = goes (afterOne n s (fun t =>
        flyRes n 2 pc 2 (.p e.pd.toNat (!x.getVP e.va.toNat (e.lane.toNat / 16)))
          (flyRes n 2 pc 2 (.s e.d.toNat ((x.getV e.va.toNat e.lane.toNat).setWidth 64)) t)))) ∧
      (issuesV n (.vldc c) 0 0 0 s → exec (.vldc site c) s = goes (afterOne n s (fun _ =>
        flyRes n 2 pc (if o < 0x180000 then 3 else 6)
          (if rd.1.bad = [] then .c c.c.toNat (BitVec.ofNat 256 (leNat rd.1.bytes)) else .exc .ue) rd.2))) ∧
      (issuesV n (.vseed g) 0 0 0 s →
        exec (.vseed site g) s = goes (afterOne n s (flyRes n 2 pc 1 (.seedLanes (x.regs.getS g.s.toNat))))) ∧
      (issuesV n (.vst m) 0 0 0 s →
        let off := (vmOff x m).toNat
        let w := 2 ^ m.es.toNat
        let lanes := (List.range 64).filter (fun j => (x.getK m.k.toNat).getLsbD j)
        ∃ t, exec (.vst site m) s = goes t ∧ (t.core n).vport = now + (if m.es = 2 then 2 else 1) ∧
          (t.core n).stores = (u.core n).stores ++
            [{ due := now + (if off < 0x180000 then 3 else 6) + (if m.es = 2 then 1 else 0), port := 2, cSees := false
               bytes := lanes.flatMap (fun j => atOff (off + j * w) (leBytes w (x.getV m.r.toNat j).toNat))
               pois := (lanes.filter (fun j => x.getVP m.r.toNat (j / 16))).map (fun j => (off + j * w) / 64) }])) ∧
  (
    ∀ (n : Nat) (s : State) (m : VmemF),
      let u := fetched n s
      let x := u.ctx n
      let pc := x.pc
      let now := (u.core n).icyc
      let site : Site := { agent := .core n, w1 := 0, w2 := 0, w3 := 0 }
      let o := (vmOff x m).toNat
      let w := 2 ^ m.es.toNat
      let lanes := (List.range 64).filter (fun j => (x.getK m.k.toNat).getLsbD j)
      issuesV n (.vld m) 0 0 0 s →
      (∀ j ∈ lanes, undefSeed u n ((o + j * w) / 64) = none ∧
        evalLine (isWeight (u.core n) (64 * ((o + j * w) / 64))) (u.line n ((o + j * w) / 64))
          (memBytes u.mem (spdKey n (64 * ((o + j * w) / 64))) 64) = .good) →
      ∃ t qs, exec (.vld site m) s = goes t ∧ (t.core n).vport = now + (if m.es = 2 then 2 else 1) ∧
        (t.core n).flight = (u.core n).flight ++
          [{ due := now + (if o < 0x180000 then 3 else 6) + (if m.es = 2 then 1 else 0), slot := 2, pc := pc
             w := .lanes m.r.toNat (lanes.map (fun j => (j, BitVec.ofNat 32 (leNat (memBytes u.mem (spdKey n (o + j * w)) w))))) qs }] ∧
        (∀ q ∈ qs, q.2 = false) ∧ (∀ a, memGet t.mem a = memGet u.mem a))

/-- VCH, VQRD and VQWR in a core. (R92, R97, R106, R110, 05_vector_chains.md) Whenever a bundle of one of them
issues beside NOP slots, the command answers a next state. A chain that is not gated, or is gated with the gate
at APPLY, is in flight with its stages, every lane of A, B and C with the poison of the quarter in which it
lies, the mask, P0 to P7 from s28 to s31 and its latency; a gated chain at SKIP or CLOSED writes nothing and is
counted gate_skip or gate_closed. VQRD puts the 64 lanes of the head entry of its slot in flight with latency 4
and removes the entry. VQWR writes its unmasked lanes into the tail entry, at the end of the issue cycle, and
completes it. -/
def Obligations.ChainsAndVectorSlots : Prop :=
  ∀ (n : Nat) (s : State) (i : VchF) (q : VqrdF) (w : VqwrF) (sts : List Stage) (g : Bool),
    let u := fetched n s
    let x := u.ctx n
    let pc := x.pc
    let now := (u.core n).icyc
    let site : Site := { agent := .core n, w1 := 0, w2 := 0, w3 := 0 }
    (issuesV n (.vch i) 0 0 0 s → chainOf x i.id.toNat = some (sts, g) → ((g || decide (i.cp = 1)) = false ∨ (u.core n).gate = .apply) →
      ∃ t f, exec (.vch site i) s = goes t ∧
        (t.core n).flight = (u.core n).flight ++ [{ due := now + chainLat sts, slot := 2, pc := pc, w := .chain f }] ∧
        f.vd = i.vd.toNat ∧ f.stages = sts ∧ f.mask = x.getK i.k.toNat ∧
        (∀ j, j < 4 → nth (0 : W32) f.prm (2 * j) = (x.regs.getS (28 + j)).setWidth 32 ∧ nth (0 : W32) f.prm (2 * j + 1) = (x.regs.getS (28 + j) >>> 32).setWidth 32) ∧ f.gc = decide (i.gc = 1) ∧
        f.t = now ∧ (∀ j < 64, Tab.get 0 f.la j = x.getV i.va.toNat j ∧ Tab.get 0 f.lb j = x.getV i.vb.toNat j ∧
          Tab.get 0 f.lc j = x.getV i.vd.toNat j) ∧
        (∀ j, j < 64 → Tab.get false f.pa (j / 16) = x.getVP i.va.toNat (j / 16) ∧ Tab.get false f.pb (j / 16) = x.getVP i.vb.toNat (j / 16) ∧
          Tab.get false f.pc (j / 16) = x.getVP i.vd.toNat (j / 16))) ∧
    (issuesV n (.vch i) 0 0 0 s → chainOf x i.id.toNat = some (sts, g) → (g || decide (i.cp = 1)) = true → (u.core n).gate ≠ .apply →
      ∃ t, exec (.vch site i) s = goes t ∧ (t.core n).flight = (u.core n).flight ∧
        ((u.core n).gate = .skip → (t.ctx n).counts.gateSkip = min 255 (x.counts.gateSkip + 1)) ∧
        ((u.core n).gate = .closed → (t.ctx n).counts.gateClosed = min 255 (x.counts.gateClosed + 1))) ∧
    (issuesV n (.vqrd q) 0 0 0 s →
      let Q := x.slot q.q.toNat
      let rd := spdRead 1 n (Q.at_ Q.head) 256 (takePort n 2 u)
      exec (.vqrd site q) s = goes (afterOne n s (fun _ => flyRes n 2 pc 4
        (.lanes q.vd.toNat ((List.range 64).map (fun j => (j, BitVec.ofNat 32 (leNat ((rd.1.bytes.drop (4 * j)).take 4)))))
          ((List.range 4).map (fun p => (p, rd.1.badAt (Q.at_ Q.head + 64 * p) 64)))) (slotPop n q.q.toNat rd.2)))) ∧
    (issuesV n (.vqwr w) 0 0 0 s →
      let Q := x.slot w.q.toNat
      let lanes := (List.range 64).filter (fun j => (x.getK w.k.toNat).getLsbD j)
      exec (.vqwr site w) s = goes (afterOne n s (fun t => slotPush n w.q.toNat
        (storeNow n 2 (lanes.flatMap (fun j => atOff (Q.at_ Q.tail + 4 * j) (leBytes 4 (x.getV w.vs.toNat j).toNat)))
          ((lanes.filter (fun j => x.getVP w.vs.toNat (j / 16))).map (fun j => (Q.at_ Q.tail + 4 * j) / 64))
          (countPois n (!((lanes.filter (fun j => x.getVP w.vs.toNat (j / 16))).isEmpty)) (takePort n 2 t))))))

/-- The stream-slot instructions, and what a pop and a push do to a slot. (R148, R150, R152, R153, R154,
08_streams.md) Whenever a bundle of one of them issues beside NOP slots, the command answers a next state. SQCFG
puts the slot of its descriptor (base, entry size, mode, depth, empty) in flight with latency 4 near and 7 far.
SQCNT gives the done entries and the free ones, SHEAD and STAIL the fabric address of the head or tail entry,
SLSTAT word 0 of the control block, each with latency 1. SPOP removes the head entry and SPUSH completes the
tail entry. SLIST starts the list RUNNING at the offset in its control block with no descriptor done. SLSTOP
turns a list that runs, stands at a marker or waits for a slot to STOPPING. Removing the head entry of a slot
whose head is done clears exactly that entry's done bit and moves the consumer one on; completing the tail entry
of a slot with space sets exactly that entry's done bit and moves the producer one on. Base, entry size, mode
and depth stay, and so does every byte of memory on a completion. -/
def Obligations.StreamSlotInstructionsAndEntries : Prop :=
  (
    ∀ (n : Nat) (s : State) (c : SqcfgF) (k : SqcntF) (h : SaddrF) (p : SqF) (l : SlistF) (e : SlstopF) (a : SlstatF),
      let u := fetched n s
      let x := u.ctx n
      let pc := x.pc
      let site : Site := { agent := .core n, w1 := 0, w2 := 0, w3 := 0 }
      let cur := (u.core n).cur
      let off := (sqcfgOff x c).toNat
      let rd := spdRead 1 n off 32 u
      let w := leNat (rd.1.bytes.take 8)
      let rl := spdRead 1 n (aOff x l.a) 64 u
      let fly := fun (v : RegW) => goes (afterOne n s (flyRes n 3 pc 1 v))
      (issuesS n (.sqcfg c) 0 0 0 s → exec (.sqcfg site c) s = goes (afterOne n s (fun _ =>
        flyRes n 3 pc (if off < 0x180000 then 4 else 7) (.q c.q.toNat
          { QSlot.init with base := w % 2 ^ 23, esz := w / 2 ^ 24 % 16, mode := w / 2 ^ 28 % 8, depth := w / 2 ^ 32 % 64 }) rd.2))) ∧
      (issuesS n (.sqcnt k) 0 0 0 s → exec (.sqcnt site k) s = fly (.s k.d.toNat (BitVec.ofNat 64
        (popcount 64 (x.slot k.q.toNat).done.toNat +
          256 * ((x.slot k.q.toNat).depth + 1 - ((x.slot k.q.toNat).prod + 256 - (x.slot k.q.toNat).cons) % 256))))) ∧
      (issuesS n (.shead h) 0 0 0 s →
        exec (.shead site h) s = fly (.a h.ad.toNat (BitVec.ofNat 48 (spdKey n ((x.slot h.q.toNat).at_ (x.slot h.q.toNat).head))))) ∧
      (issuesS n (.stail h) 0 0 0 s →
        exec (.stail site h) s = fly (.a h.ad.toNat (BitVec.ofNat 48 (spdKey n ((x.slot h.q.toNat).at_ (x.slot h.q.toNat).tail))))) ∧
      (issuesS n (.spop p) 0 0 0 s → exec (.spop site p) s = goes (afterOne n s (slotPop n p.q.toNat))) ∧
      (issuesS n (.spush p) 0 0 0 s → exec (.spush site p) s = goes (afterOne n s (slotPush n p.q.toNat))) ∧
      (issuesS n (.slist l) 0 0 0 s → ∃ t, exec (.slist site l) s = goes t ∧
        (t.listAt n cur l.l.toNat).state = .running ∧ (t.listAt n cur l.l.toNat).cb = aOff x l.a ∧
        (t.listAt n cur l.l.toNat).next = leNat (rl.1.bytes.take 8) % 2 ^ 23 ∧ (t.listAt n cur l.l.toNat).completed = 0 ∧
        (t.listAt n cur l.l.toNat).fault = 0 ∧ (t.listAt n cur l.l.toNat).cur = none) ∧
      (issuesS n (.slstop e) 0 0 0 s →
        (u.listAt n cur e.l.toNat).state ∈ [LState.running, LState.atMarker, LState.slotWait] →
        ∃ t, exec (.slstop site e) s = goes t ∧ (t.listAt n cur e.l.toNat).state = .stopping) ∧
      (issuesS n (.slstat a) 0 0 0 s →
        exec (.slstat site a) s = fly (.s a.d.toNat (BitVec.ofNat 64 (leNat ((controlBlock (u.listAt n cur a.l.toNat)).take 8)))))) ∧
  (
    ∀ (n q : Nat) (s : State),
      let Q := (s.ctx n).slot q
      (Q.hasEntry = true → Q.owed = 0 →
        let R := ((slotPop n q s).ctx n).slot q
        R.done = Q.done &&& ~~~(1#64 <<< (Q.cons % (Q.depth + 1))) ∧ R.cons = (Q.cons + 1) % 256 ∧ R.prod = Q.prod ∧
          R.base = Q.base ∧ R.esz = Q.esz ∧ R.mode = Q.mode ∧ R.depth = Q.depth ∧ (slotPop n q s).mem = s.mem) ∧
      (Q.hasSpace = true →
        let R := ((slotPush n q s).ctx n).slot q
        R.done = Q.done ||| (1#64 <<< (Q.prod % (Q.depth + 1))) ∧ R.prod = (Q.prod + 1) % 256 ∧ R.cons = Q.cons ∧
          R.base = Q.base ∧ R.esz = Q.esz ∧ R.mode = Q.mode ∧ R.depth = Q.depth ∧ (slotPush n q s).mem = s.mem))

/-- LDF, STF, SRD and SWR in a core. (R41, R149, 08_streams.md) Whenever a bundle of one of them issues beside NOP
slots, the command answers a next state. LDF reserves the tail entry of its slot and sends one read of 2^size
bytes at its address. STF completes the tail entry of its slot with data, address and size, and, where the slot
has space, one more posted store is outstanding. SRD reads the first 8 bytes of the head entry into s with
latency 1, or puts its exception in flight (UE for an uncorrectable line, else the entry's status), and removes
the entry. SWR completes the tail entry with 8 bytes. -/
def Obligations.FabricLoadsStoresAndSlotScalars : Prop :=
  ∀ (n : Nat) (s : State) (i : CQ),
    let u := fetched n s
    let x := u.ctx n
    let pc := x.pc
    let site : Site := { agent := .core n, w1 := 0, w2 := 0, w3 := 0 }
    let q := i.q.toNat
    let Q := x.slot q
    let rd := spdRead 0 n (Q.at_ Q.head) Q.bytes u
    let st := if Q.mode = 3 then (rd.1.bytes.getD 8 0).toNat else 0
    (issuesC n (.ldf i) 0 0 0 s → exec (.ldf site i) s = goes (afterOne n s (fun t =>
      sendReq n .read (Req.new x (u.core n).cur (.ldf q Q.tail) (x.regs.getA i.a.toNat).toNat (2 ^ i.size.toNat)) (reserveTail n q 16 t)))) ∧
    (issuesC n (.stf i) 0 0 0 s → ∃ t, exec (.stf site i) s = goes t ∧ (Q.hasSpace = true → (t.ctx n).posted = x.posted + 1) ∧
      t = afterOne n s (fun t => (slotPush n q (storeNow n 3 (atOff (Q.at_ Q.tail)
        (leBytes 8 (x.regs.getS i.s.toNat).toNat ++ leBytes 6 (x.regs.getA i.a.toNat).toNat ++ [BitVec.ofNat 8 i.size.toNat, 0])) [] t)).onCur n
          (fun y => { y with posted := y.posted + 1 }))) ∧
    (issuesC n (.srd i) 0 0 0 s → rd.1.bad = [] → st = 0 → exec (.srd site i) s = goes (afterOne n s (fun _ =>
      flyRes n 0 pc 1 (.s i.s.toNat (BitVec.ofNat 64 (leNat (rd.1.bytes.take 8)))) (slotPop n q rd.2)))) ∧
    (∀ e, issuesC n (.srd i) 0 0 0 s → rd.1.bad = [] → statusExc st = some e → exec (.srd site i) s = goes (afterOne n s (fun _ =>
      flyRes n 0 pc 1 (.exc e) (slotPop n q rd.2)))) ∧
    (issuesC n (.srd i) 0 0 0 s → rd.1.bad ≠ [] → exec (.srd site i) s = goes (afterOne n s (fun _ =>
      flyRes n 0 pc 1 (.exc .ue) (slotPop n q rd.2)))) ∧
    (issuesC n (.swr i) 0 0 0 s → exec (.swr site i) s = goes (afterOne n s (fun t =>
      slotPush n q (storeNow n 3 (atOff (Q.at_ Q.tail) (leBytes 8 (x.regs.getS i.s.toNat).toNat)) [] t))))

/-- Register words of a sequencer, and the core words that fault it. (R60, 03_core_programs.md, R66) A running
sequencer that executes a register word with legal fields answers the state in which the s, a or p register
holds the result R39 gives, computed from the registers before the word, the next word follows (an innermost
loop level that ends goes back or ends) and ISSUE is one higher. Nothing else changes. A running sequencer that
is given KMOV, KGET, KTAIL, KOP, SRD, SWR, WAIT, REST, YIELD, END or ARRIVE, or any instruction of the matrix,
vector or stream slot, faults: its state is FAULT with ILLEGAL and its registers stay. The same holds of a
register word whose fields are not legal in a sequencer: a nonzero reserved field, an a register above 15 or a p
register above 7. -/
def Obligations.SequencerRegisterWordsAndFaults : Prop :=
  (
    ∀ (p : Nat) (s : State) (i : CR) (j : CI) (k : CU), p < 64 → seqReady s p = true →
      let r := (s.seq p).regs
      let site : Site := { agent := .seq p, w1 := 0, w2 := 0, w3 := 0 }
      let go := fun (f : Seq → Seq) => goes (s.onSeq p (fun q => f (stepSeq q)))
      (i.f = 0 → exec (.add site i) s = go (fun q => { q with regs := r.setS i.d.toNat (r.getS i.a.toNat + r.getS i.b.toNat) })) ∧
      (i.f = 0 → exec (.sub site i) s = go (fun q => { q with regs := r.setS i.d.toNat (r.getS i.a.toNat - r.getS i.b.toNat) })) ∧
      (i.f = 0 → exec (.andS site i) s = go (fun q => { q with regs := r.setS i.d.toNat (r.getS i.a.toNat &&& r.getS i.b.toNat) })) ∧
      (i.f = 0 → exec (.orS site i) s = go (fun q => { q with regs := r.setS i.d.toNat (r.getS i.a.toNat ||| r.getS i.b.toNat) })) ∧
      (i.f = 0 → exec (.xorS site i) s = go (fun q => { q with regs := r.setS i.d.toNat (r.getS i.a.toNat ^^^ r.getS i.b.toNat) })) ∧
      (i.f = 0 → exec (.shl site i) s = go (fun q => { q with regs := r.setS i.d.toNat (r.getS i.a.toNat <<< ((r.getS i.b.toNat).toNat % 64)) })) ∧
      (i.f = 0 → exec (.shr site i) s = go (fun q => { q with regs := r.setS i.d.toNat (r.getS i.a.toNat >>> ((r.getS i.b.toNat).toNat % 64)) })) ∧
      (i.f = 0 → exec (.sra site i) s = go (fun q => { q with regs := r.setS i.d.toNat ((r.getS i.a.toNat).sshiftRight ((r.getS i.b.toNat).toNat % 64)) })) ∧
      (i.f.toNat < 2 → exec (.minS site i) s = go (fun q => { q with regs := r.setS i.d.toNat (if (if i.f = 1 then (r.getS i.a.toNat).ult (r.getS i.b.toNat) else (r.getS i.a.toNat).slt (r.getS i.b.toNat)) then r.getS i.a.toNat else r.getS i.b.toNat) })) ∧
      (i.f.toNat < 2 → exec (.maxS site i) s = go (fun q => { q with regs := r.setS i.d.toNat (if (if i.f = 1 then (r.getS i.a.toNat).ult (r.getS i.b.toNat) else (r.getS i.a.toNat).slt (r.getS i.b.toNat)) then r.getS i.b.toNat else r.getS i.a.toNat) })) ∧
      (i.f = 0 → exec (.mul site i) s = go (fun q => { q with regs := r.setS i.d.toNat (r.getS i.a.toNat * r.getS i.b.toNat) })) ∧
      (i.f = 0 → exec (.mulh site i) s = go (fun q => { q with regs := r.setS i.d.toNat (BitVec.ofInt 64 (((r.getS i.a.toNat).toInt * (r.getS i.b.toNat).toInt) / 2 ^ 64)) })) ∧
      (i.f.toNat < 8 → exec (.sel site i) s = go (fun q => { q with regs := r.setS i.d.toNat (if r.getP i.f.toNat then r.getS i.a.toNat else r.getS i.b.toNat) })) ∧
      (exec (.addi site j) s = go (fun q => { q with regs := r.setS j.d.toNat (r.getS j.a.toNat + j.imm.signExtend 64) })) ∧
      (exec (.andi site j) s = go (fun q => { q with regs := r.setS j.d.toNat (r.getS j.a.toNat &&& j.imm.setWidth 64) })) ∧
      (exec (.ori site j) s = go (fun q => { q with regs := r.setS j.d.toNat (r.getS j.a.toNat ||| j.imm.setWidth 64) })) ∧
      (exec (.lui site k) s = go (fun q => { q with regs := r.setS k.d.toNat ((k.imm.signExtend 64) <<< 14) })) ∧
      (i.d.toNat < 16 → i.b = 0 → i.f = 0 → exec (.amov site i) s = go (fun q => { q with regs := r.setA i.d.toNat ((r.getS i.a.toNat).setWidth 48) })) ∧
      (i.a.toNat < 16 → i.b = 0 → i.f = 0 → exec (.aget site i) s = go (fun q => { q with regs := r.setS i.d.toNat ((r.getA i.a.toNat).setWidth 64) })) ∧
      (i.d.toNat < 16 → i.a.toNat < 16 → i.f = 0 → exec (.aadd site i) s = go (fun q => { q with regs := r.setA i.d.toNat (r.getA i.a.toNat + (r.getS i.b.toNat).setWidth 48) })) ∧
      (i.d.toNat < 16 → i.f = 0 → exec (.aform site i) s = go (fun q => { q with regs := r.setA i.d.toNat (((r.getS i.a.toNat).extractLsb' 8 8).setWidth 48 <<< 38 ||| ((r.getS i.a.toNat).extractLsb' 0 8).setWidth 48 <<< 30 ||| ((r.getS i.b.toNat).extractLsb' 0 23).setWidth 48) })) ∧
      (j.d.toNat < 16 → j.a.toNat < 16 → exec (.aaddi site j) s = go (fun q => { q with regs := r.setA j.d.toNat (r.getA j.a.toNat + j.imm.signExtend 48) })) ∧
      (i.d.toNat < 8 → i.f.toNat < 6 → exec (.cmp site i) s = go (fun q => { q with regs := r.setP i.d.toNat (cmpFlag i.f.toNat (r.getS i.a.toNat) (r.getS i.b.toNat)) })) ∧
      (i.d.toNat < 8 → i.a.toNat < 8 → i.b.toNat < 8 → i.f.toNat < 5 → exec (.pop site i) s = go (fun q => { q with regs := r.setP i.d.toNat (popFlag i.f.toNat (r.getP i.a.toNat) (r.getP i.b.toNat)) }))) ∧
  (
    ∀ (p : Nat) (s : State) (i : CR) (q : CQ) (e : CE) (m1 : McfgF) (m2 : MseedF) (m3 : MldwF) (m4 : MmulF) (m5 : MpreF) (m6 : MtilesF) (m7 : MdrainF)
      (m8 : MgrpF) (m9 : MldsF) (m10 : SmulF) (m11 : MdrsF) (m12 : SmrgF) (m13 : ScmpF) (m14 : StrwF) (v1 : VmemF) (v2 : VbcF) (v3 : VextF)
      (v4 : VldcF) (v5 : VseedF) (v6 : VchF) (v7 : VqrdF) (v8 : VqwrF) (l1 : SqcfgF) (l2 : SqcntF) (l3 : SaddrF) (l4 : SqF) (l5 : SlistF)
      (l6 : SlstopF) (l7 : SlstatF), p < 64 → seqReady s p = true →
      let site : Site := { agent := .seq p, w1 := 0, w2 := 0, w3 := 0 }
      let faults := fun (c : Instr) => ∃ t, exec c s = goes t ∧ (t.seq p).state = .fault ∧ (t.seq p).fault = some .illegal ∧ (t.seq p).regs = (s.seq p).regs
      (∀ c ∈ [Instr.kmov site i, .kget site i, .ktail site i, .kop site i, .srd site q, .swr site q, .wait site e, .rest site e,
          .yield site i, .endC site i, .arrive site i, .mcfg site m1, .mseed site m2, .mldw site m3, .mmul site m4, .mpre site m5, .mclr site m6,
          .mdrain site m7, .mspill site m6, .mgrpOpen site m8, .mgrpClose site m8, .mlds site m9, .smul site m10, .mdrs site m11, .smrg site m12,
          .scmp site m13, .strw site m14], faults c) ∧
      (∀ c ∈ [Instr.vld site v1, .vst site v1, .vbc site v2, .vext site v3, .vldc site v4, .vseed site v5, .vch site v6, .vqrd site v7,
          .vqwr site v8, .sqcfg site l1, .sqcnt site l2, .shead site l3, .stail site l3, .spop site l4, .spush site l4, .slist site l5,
          .slstop site l6, .slstat site l7], faults c) ∧
      (i.f ≠ 0 → ∀ c ∈ [Instr.add site i, .sub site i, .andS site i, .orS site i, .xorS site i, .shl site i, .shr site i, .sra site i, .mul site i,
          .mulh site i, .amov site i, .aget site i, .aadd site i, .aform site i], faults c) ∧
      (16 ≤ i.d.toNat → ∀ c ∈ [Instr.amov site i, .aadd site i, .aform site i], faults c) ∧
      (8 ≤ i.d.toNat → ∀ c ∈ [Instr.cmp site i, .pop site i], faults c))

/-- LD, ST, BR, JMP, JR, LOOP, LOOPI, MFC, MTC, SIG and NOP on a sequencer. (R42, R43, R60, 03_core_programs.md) A
running sequencer reads and writes its own 256 KiB memory with LD and ST inside it; branches with no delay
words; opens loop levels; reads and writes its control registers; SIG sets its own flag. Each command answers
the state given. -/
def Obligations.SequencerMemoryAndBranches : Prop :=
  ∀ (p : Nat) (s : State) (m : CM) (b : CB) (i : CR) (l : CLoop) (h : CLoopI), p < 64 → seqReady s p = true →
    let q := s.seq p
    let r := q.regs
    let site : Site := { agent := .seq p, w1 := 0, w2 := 0, w3 := 0 }
    let go := fun (f : Seq → Seq) => goes (s.onSeq p (fun q => f (stepSeq q)))
    let o := dispOff (r.getA m.base.toNat) m.off.toInt (2 ^ m.size.toNat)
    let sz : Nat := 2 ^ m.size.toNat
    (0 ≤ o → o % (sz : Int) = 0 → o + (sz : Int) ≤ 0x40000 →
      exec (.ld site m) s = go (fun q => { q with regs := r.setS m.t.toNat (BitVec.ofNat 64 (leNat (memBytes s.mem (seqKey p o.toNat) sz))) }) ∧
      ∃ t, exec (.st site m) s = goes t ∧ t.seq p = stepSeq q ∧
        t.mem = memPutBytes s.mem (seqKey p o.toNat) (leBytes sz (r.getS m.t.toNat).toNat)) ∧
    (seqLastTwo q = false → r.getP b.p.toNat = decide (b.sense = 1) → ∃ t, exec (.br site b) s = goes t ∧
      (t.seq p).pc = ((q.pc + b.off.toInt) % 65536).toNat ∧ (t.seq p).issue = q.issue + 1) ∧
    (seqLastTwo q = false → r.getP b.p.toNat ≠ decide (b.sense = 1) → exec (.br site b) s = go id) ∧
    (seqLastTwo q = false → b.sense = 0 → b.p = 0 → ∃ t, exec (.jmp site b) s = goes t ∧
      (t.seq p).pc = ((q.pc + b.off.toInt) % 65536).toNat) ∧
    (seqLastTwo q = false → i.d = 0 → i.b = 0 → i.f = 0 → ∃ t, exec (.jr site i) s = goes t ∧
      (t.seq p).pc = (r.getS i.a.toNat).toNat % 2 ^ 20 % 65536) ∧
    (q.loops = [] → l.z = 0 → (r.getS l.s.toNat).toNat % 2 ^ 32 ≠ 0 → ∃ t, exec (.loop site l) s = goes t ∧
      (t.seq p).loops = [{ count := (r.getS l.s.toNat).toNat % 2 ^ 32, start := q.pc + 1, stop := q.pc + (l.body.toNat + 1) }] ∧
      (t.seq p).pc = (q.pc + 1) % 65536) ∧
    (q.loops = [] → ∃ t, exec (.loopi site h) s = goes t ∧
      (t.seq p).loops = [{ count := h.count.toNat + 1, start := q.pc + 1, stop := q.pc + (h.body.toNat + 1) }]) ∧
    (i.a = 0 → i.b = 0 → i.f.toNat < 11 →
      exec (.mfc site i) s = go (fun q => { q with regs := q.regs.setS i.d.toNat (seqMfcVal s p i.f.toNat) })) ∧
    (i.d = 0 → i.b = 0 → i.f = 10 → exec (.mtc site i) s = go (fun q => { q with scratch := r.getS i.a.toNat })) ∧
    (i.d = 0 → i.a = 0 → i.b = 0 → i.f.toNat < 64 →
      exec (.sig site i) s = go (fun q => { q with flags := q.flags ||| (1#64 <<< i.f.toNat) })) ∧
    exec (.nop site) s = go id

/-- LDF, STF, SRD, SWR, waits and rests of a sequencer, and how its waits end. (R60, 03_core_programs.md, R61, R62)
A running sequencer that executes LDF or STF on an address that rows 1 and 2 of R32 let it reach, and that is no
part of its result window, is WAITING for that access, and one request packet of the word's size to that address
is in flight. An address that rows 1 or 2 refuse completes at once: the next word follows, p7 is 0, no request
leaves, and the register of an LDF takes a value that the spec does not give. SRD, SWR and REST fault it with
ILLEGAL; PREST puts it into PREST with its horizon, at its word. A sequencer that waits on a live ACTIVE panel,
and is not held by a hang replay, goes on once its condition holds: FWAIT when the flag is set; BARRIER when the
counter has reached the value, which is subtracted and the flag set; an LDF or STF whose reply has come, with p7
saying whether the status is OK and the register of an LDF holding the data; CWAIT when the context on every
live core of its set is EMPTY or FAULTED, with its predicate 1 where all are EMPTY; a refused access goes out
again once its backoff has passed; a PREST that waits without resting on its event. While the condition does not
hold, or while a hang replay holds it, the state does not change. -/
def Obligations.SequencerFabricAndWaitWords : Prop :=
  (
    ∀ (p : Nat) (s : State) (i : CQ), p < 64 → seqReady s p = true → i.z = 0 →
      let r := (s.seq p).regs
      let a := (r.getA i.a.toNat).toNat
      let sz := 2 ^ i.size.toNat
      let site : Site := { agent := .seq p, w1 := 0, w2 := 0, w3 := 0 }
      (chk12 s p true false a sz = 0 → ∃ t k, exec (.ldf site i) s = goes t ∧ (t.seq p).state = .waiting ∧
        t.packets = s.packets ++ [k] ∧ k.pid = s.nextPid ∧ t.nextPid = s.nextPid + 1 ∧ k.dst = a ∧ k.size = sz ∧ k.op = .read ∧
        k.src = .seq p ∧ k.reply = false) ∧
      (chk12 s p true true a sz = 0 → windowOffset p a sz = none → ∃ t k, exec (.stf site i) s = goes t ∧
        (t.seq p).state = .waiting ∧ t.packets = s.packets ++ [k] ∧ k.dst = a ∧ k.size = sz ∧ k.op = .write ∧ k.src = .seq p ∧
        k.data = leBytes sz (r.getS i.s.toNat).toNat) ∧
      (chk12 s p true false a sz ≠ 0 → ∃ t v, exec (.ldf site i) s = goes t ∧ (t.seq p).state = .running ∧ (t.seq p).wait = none ∧
        (t.seq p).regs = (r.setS i.s.toNat (BitVec.ofNat 64 (v % 2 ^ (8 * sz)))).setP 7 false ∧ t.packets = s.packets ∧ t.mem = s.mem ∧
        (t.seq p).pc = (stepSeq (s.seq p)).pc) ∧
      (∀ c ∈ [Instr.srd site i, .swr site i], ∃ t, exec c s = goes t ∧ (t.seq p).state = .fault ∧ (t.seq p).fault = some .illegal ∧
        (t.seq p).regs = r) ∧
      (∀ e : CE, ∃ t, exec (.rest site e) s = goes t ∧ (t.seq p).state = .fault ∧ (t.seq p).fault = some .illegal ∧ (t.seq p).regs = r) ∧
      (∀ e : CE, e.z = 0 → eventOk 2 e.kind.toNat e.arg.toNat = true → ∃ t, exec (.prest p e) s = goes t ∧ (t.seq p).state = .prest ∧
        (t.seq p).pc = (s.seq p).pc ∧ (t.seq p).issue = (s.seq p).issue + 1 ∧
        (t.seq p).prest.map PrestRec.resting = some false ∧ (t.seq p).prest.map PrestRec.horizon = some ((r.getS e.s.toNat).toNat % 2 ^ 32)) ∧
      (chk12 s p true true a sz ≠ 0 → ∃ t, exec (.stf site i) s = goes t ∧ (t.seq p).state = .running ∧
        (t.seq p).regs = r.setP 7 false ∧ t.packets = s.packets ∧ (t.seq p).pc = (stepSeq (s.seq p)).pc)) ∧
  (
    ∀ (p : Nat) (s : State), p < 64 → panelRuns (s.panel p) = true → (hangHolds s p = true → exec (.seqWaitEnd p) s = goes s) ∧ (hangHolds s p = false →
      let q := s.seq p
      let nx := (loopNext q.pc q.loops.reverse).1 % 65536
      (∀ r, q.state = .prest → q.prest = some r → r.since.isSome = true → r.resting = false → prestEvent s p r = true → ∃ t, exec (.seqWaitEnd p) s = goes t ∧
        (t.seq p).state = .running ∧ (t.seq p).pc = nx ∧ (t.seq p).prest = none ∧ (t.seq p).regs = q.regs ∧
        (t.seq p).release = (if r.kind = 6 then false else q.release)) ∧
      (∀ r, q.state = .prest → q.prest = some r → (r.since = none ∨ prestEvent s p r = false) → exec (.seqWaitEnd p) s = goes s) ∧
      (q.state = .waiting →
      (∀ f, q.wait = some (.flag f) → q.flags.getLsbD f = true → ∃ t, exec (.seqWaitEnd p) s = goes t ∧
        (t.seq p).state = .running ∧ (t.seq p).wait = none ∧ (t.seq p).pc = nx ∧ (t.seq p).flags = q.flags) ∧
      (∀ f, q.wait = some (.flag f) → q.flags.getLsbD f = false → exec (.seqWaitEnd p) s = goes s) ∧
      (∀ c v f, q.wait = some (.barrier c v f) → v ≤ Tab.get 0 q.bar c → ∃ t, exec (.seqWaitEnd p) s = goes t ∧
        (t.seq p).state = .running ∧ Tab.get 0 (t.seq p).bar c = Tab.get 0 q.bar c - v ∧
        (t.seq p).flags = q.flags ||| (1#64 <<< f) ∧ (t.seq p).pc = nx) ∧
      (∀ g, q.wait = some (.fabric g) → g.phase = .replied → g.wr = none → g.status = 0 → ∃ t, exec (.seqWaitEnd p) s = goes t ∧
        (t.seq p).state = .running ∧ (t.seq p).pc = nx ∧ (t.seq p).regs.getP 7 = true ∧
        (t.seq p).regs.getS g.dst = (if g.dst = 0 then 0 else BitVec.ofNat 64 (leNat g.data % 2 ^ (8 * g.size)))) ∧
      (∀ g d, q.wait = some (.fabric g) → g.phase = .replied → g.wr = some d → ∃ t, exec (.seqWaitEnd p) s = goes t ∧
        (t.seq p).state = .running ∧ (t.seq p).regs = q.regs.setP 7 (decide (g.status = 0))) ∧
      (∀ g w, q.wait = some (.fabric g) → g.phase = .retry w → (w ≤ (s.panel p).cyc → ∃ t k, exec (.seqWaitEnd p) s = goes t ∧ (t.seq p).state = .waiting ∧
          t.packets = s.packets ++ [k] ∧ k.dst = g.addr ∧ k.size = g.size ∧ k.src = .seq p) ∧
        ((s.panel p).cyc < w → exec (.seqWaitEnd p) s = goes s)) ∧
      (∀ g, q.wait = some (.fabric g) → g.phase = .sent → exec (.seqWaitEnd p) s = goes s) ∧
      (∀ k set pd l0, q.wait = some (.cwait k set pd) → coreSet p set = some l0 →
        let l := l0.filter (fun n => !isDead s n)
        ((∀ n ∈ l, (s.ctxAt n k).state = .empty ∨ (s.ctxAt n k).state = .faulted) → ∃ t, exec (.seqWaitEnd p) s = goes t ∧
          (t.seq p).state = .running ∧ (t.seq p).pc = nx ∧ (t.seq p).regs = q.regs.setP pd (l.all (fun n => decide ((s.ctxAt n k).state = .empty)))) ∧
        ((∃ n ∈ l, (s.ctxAt n k).state ≠ .empty ∧ (s.ctxAt n k).state ≠ .faulted) → exec (.seqWaitEnd p) s = goes s)))))

/-- The words that only a sequencer has, its watchdog and the panel flag sample. (R62, R63, R64, R65,
03_core_programs.md, R108, R338) A running sequencer with legal fields: LAUNCH launches the context on every
core of its set with s1 to s4 as arguments and pd says whether all accepted; CSWITCH marks the switch on each
live core of any set, and makes it where the core is idle and the context READY; CSTOP empties the context on
each, XWAKE latches the pending XWAKE on each, and a core that is dead or not in the set stays as it was; FSET
and FCLR set and clear a flag; FWAIT, BARRIER, CWAIT and STEP_END wait with their condition; PREST rests with
its event and horizon; STEP_BEGIN with no step open waits with the step number recorded for its partition; WDOG
starts the countdown again with the new period (kept where it is 0). When the countdown of a busy sequencer has
run out on a live ACTIVE panel outside HOLD, with no core halted and no reset in progress, the command stops the
countdown and a reset with source 4 begins at the level the fuses give it (PANEL on the panel, or above). When a
sequencer waits at STEP_END of an open step without its sample yet, the sample of the panel flag, the or of its
cores' finite flags, joins the partition's. -/
def Obligations.SequencerOnlyWordsAndWatchdog : Prop :=
  (
    ∀ (p : Nat) (s : State) (i : CR) (e : CE) (l : List Nat), p < 64 → seqReady s p = true →
      let q := s.seq p
      let r := q.regs
      let f := i.f.toNat
      let go := fun (g : Seq → Seq) (t : State) => t.onSeq p (fun q => g (stepSeq q))
      let waits := fun (w : SeqWait) => s.onSeq p (fun q => { q with state := .waiting, wait := some w, issue := q.issue + 1 })
      (coreSet p (r.getS i.a.toNat) = some l → i.d.toNat < 8 → f < 4 →
        let z := launchSet f ((r.getS i.b.toNat).toNat % 2 ^ 20) [r.getS 1, r.getS 2, r.getS 3, r.getS 4] l s
        exec (.launch p i) s = goes (go (fun q => { q with regs := q.regs.setP i.d.toNat z.1 }) z.2)) ∧
      (coreSet p (r.getS i.a.toNat) = some l → i.d.toNat < 8 → f < 4 →
        ((∀ n ∈ l, isDead s n = false ∧ (s.ctxAt n f).resident = false ∧ regionOk (s.core n) (selOf (s.core n) f).region = true) →
          ∃ t, exec (.launch p i) s = goes t ∧ (t.seq p).regs = r.setP i.d.toNat true ∧ ∀ n ∈ l, (t.ctxAt n f).resident = true ∧
            (t.ctxAt n f).pc = (r.getS i.b.toNat).toNat % 2 ^ 20 ∧ (t.core n).gate = .closed ∧
            ∀ j, 1 ≤ j → j ≤ 4 → (t.ctxAt n f).regs.getS j = r.getS j) ∧
        ((∃ n ∈ l, isDead s n = true ∨ (s.ctxAt n f).resident = true) → ∃ t, exec (.launch p i) s = goes t ∧ (t.seq p).regs = r.setP i.d.toNat false)) ∧
      (coreSet p (r.getS i.a.toNat) = some l → i.d = 0 → i.b = 0 → f < 4 →
        (exec (.cswitch p i) s = goes (go id (l.foldl (fun t n => if isDead t n then t else markSwitch n f t) s)) ∧
          ∃ t, exec (.cswitch p i) s = goes t ∧ t.seq p = stepSeq q ∧ (∀ n, (n ∉ l ∨ isDead s n = true) → t.core n = s.core n) ∧
            ∀ n ∈ l, isDead s n = false →
              (((s.core n).active = true ∨ (s.core n).boundary.isSome = true) → t.core n = { s.core n with mark := some f }) ∧
              ((s.core n).active = false → (s.core n).boundary = none → (s.ctxAt n f).state = .ready →
                (t.core n).active = true ∧ (t.core n).cur = f ∧ (t.ctxAt n f).state = .running) ∧
              ((s.core n).active = false → (s.core n).boundary = none → (s.ctxAt n f).state ≠ .ready → (s.ctxAt n f).state ≠ .parked →
                t.core n = s.core n)) ∧
        (exec (.cstop p i) s = goes (go id (l.foldl (fun t n => if isDead t n then t else stopCtx n f t) s)) ∧
          ∃ t, exec (.cstop p i) s = goes t ∧ (t.seq p).pc = (stepSeq q).pc ∧ (t.seq p).regs = r ∧
            (∀ n, (n ∉ l ∨ isDead s n = true) → t.core n = s.core n) ∧ (∀ n ∈ l, isDead s n = false → (t.ctxAt n f).state = .empty))) ∧
      (coreSet p (r.getS i.a.toNat) = some l → i.d = 0 → i.b = 0 → i.f = 0 → ∃ t, exec (.xwake p i) s = goes t ∧ t.seq p = stepSeq q ∧
        ∀ n, t.core n = if n ∈ l ∧ isDead s n = false then { s.core n with xwake := true } else s.core n) ∧
      (i.d = 0 → i.a = 0 → i.b = 0 → f < 64 →
        exec (.fset p i) s = goes (go (fun q => { q with flags := q.flags ||| (1#64 <<< f) }) s) ∧
        exec (.fclr p i) s = goes (go (fun q => { q with flags := q.flags &&& ~~~(1#64 <<< f) }) s) ∧
        exec (.fwait p i) s = goes (waits (.flag f))) ∧
      (i.d = 0 → f < 16 →
        exec (.barrier p i) s = goes (waits (.barrier f (r.getS i.b.toNat).toNat ((r.getS i.a.toNat).toNat % 64)))) ∧
      (coreSet p (r.getS i.a.toNat) = some l → i.d.toNat < 8 → i.b = 0 → f < 4 →
        exec (.cwait p i) s = goes (waits (.cwait f (r.getS i.a.toNat) i.d.toNat))) ∧
      (i.d.toNat < 8 → i.a = 0 → i.b = 0 → i.f = 0 → exec (.stepEnd p i) s = goes (waits (.stepEnd i.d.toNat))) ∧
      (e.z = 0 → eventOk 2 e.kind.toNat e.arg.toNat = true → ∃ t, exec (.prest p e) s = goes t ∧ (t.seq p).state = .prest ∧
        (t.seq p).prest = some { kind := e.kind.toNat, arg := e.arg.toNat, horizon := (r.getS e.s.toNat).toNat % 2 ^ 32
                                 since := none, saveOk := decide (e.saveOk = 1), pd := e.pd.toNat, resting := false }) ∧
      (∀ k, i.b = 0 → i.f = 0 → q.stepOpen = false → partOf s p = some k → ∃ t, exec (.stepBegin p i) s = goes t ∧
        (t.seq p).state = .waiting ∧ (t.seq p).wait = some (.stepBegin i.d.toNat) ∧
        Tab.get 0 (t.job k).begun p = (r.getS i.a.toNat).toNat % 2 ^ 32) ∧
      (i.d = 0 → i.b = 0 → i.f = 0 → ∃ t, exec (.wdog p i) s = goes t ∧
        (t.seq p).period = (if (r.getS i.a.toNat).toNat % 2 ^ 32 = 0 then q.period else BitVec.ofNat 32 ((r.getS i.a.toNat).toNat % 2 ^ 32)) ∧
        (t.seq p).wdLeft = (t.seq p).period.toNat ∧ (t.seq p).wdFrom = s.now ∧ (t.seq p).pc = (stepSeq q).pc)) ∧
  (
    ∀ (p : Nat) (s : State), p < 64 →
      (panelRuns (s.panel p) = true → (s.seq p).wdRun = true → (s.seq p).busy = true → (∀ n ∈ coresHeld s p, (s.core n).halted = none) →
        inHold s p = false → (s.seq p).wdFrom + (s.seq p).wdLeft ≤ s.now → s.rst.running = [] →
        ∃ t, exec (.watchdogExpire p) s = goes t ∧ (t.seq p).wdRun = false ∧
          t.rst.running = [{ source := 4, level := (raisedTarget s (levelOf s 4) p).1, target := (raisedTarget s (levelOf s 4) p).2
                             escalated := false, phase := .fired, since := s.now, at_ := s.now }]) ∧
      (∀ k d, partOf s p = some k → (s.seq p).wait = some (.stepEnd d) → (s.job k).stepOpen = true → Tab.get false (s.job k).ended p = false →
        ∃ t, exec (.panelFlagSample p) s = goes t ∧ Tab.get false (t.job k).ended p = true ∧
          (t.job k).sample = ((s.job k).sample || panelFlag s p) ∧ t.cores = s.cores))

/-- RESULT_RETIRE: a result reaches its register in its issue cycle; of two in one cycle the later slot wins. (R34,
R35) A result for an s, a, p or mask register that is the only one in flight and is due by the present issue
cycle is in its register after the command, no other register of that file changes and nothing is in flight. A
result for s0 changes no register. A result that is not due yet stays in flight and the registers stay. Two
results for one s register due in the same cycle leave the one of the later slot, and wcollide counts one more. -/
def Obligations.ResultsRetireInTheirCycle : Prop :=
  ∀ (n slot pc due r : Nat) (s : State), n < 35328 → due ≤ (s.core n).icyc →
    let only := fun (w : RegW) => (s.core n).flight = [{ due := due, slot := slot, pc := pc, w := w }]
    (∀ v, only (.s r v) → r ≠ 0 → ∃ t, exec (.resultRetire n) s = goes t ∧ (t.ctx n).regs.getS r = v ∧
      (∀ q, q ≠ r → (t.ctx n).regs.getS q = (s.ctx n).regs.getS q) ∧ (t.core n).flight = [] ∧ t.mem = s.mem) ∧
    (∀ v, only (.s 0 v) → ∃ t, exec (.resultRetire n) s = goes t ∧ (t.ctx n).regs = (s.ctx n).regs ∧ (t.core n).flight = [] ∧
      (t.core n).wcollide = min 15 (s.core n).wcollide) ∧
    (∀ v, only (.a r v) → ∃ t, exec (.resultRetire n) s = goes t ∧ (t.ctx n).regs.getA r = v ∧
      (∀ q, q ≠ r → (t.ctx n).regs.getA q = (s.ctx n).regs.getA q) ∧ (t.core n).flight = []) ∧
    (∀ v, only (.p r v) → ∃ t, exec (.resultRetire n) s = goes t ∧ (t.ctx n).regs.getP r = v ∧
      (∀ q, q ≠ r → (t.ctx n).regs.getP q = (s.ctx n).regs.getP q) ∧ (t.core n).flight = []) ∧
    (∀ v, only (.k r v) → r ≠ 0 → ∃ t, exec (.resultRetire n) s = goes t ∧ (t.ctx n).getK r = v ∧
      (∀ q, q ≠ r → (t.ctx n).getK q = (s.ctx n).getK q) ∧ (t.core n).flight = []) ∧
    (∀ v late, (s.core n).flight = [{ due := late, slot := slot, pc := pc, w := .s r v }] → (s.core n).icyc < late →
      ∃ t, exec (.resultRetire n) s = goes t ∧ (t.core n).flight = (s.core n).flight ∧ (t.ctx n).regs = (s.ctx n).regs) ∧
    (∀ v w k q, (s.core n).flight = [{ due := due, slot := slot, pc := pc, w := .s r v }, { due := due, slot := k, pc := q, w := .s r w }] →
      r ≠ 0 → slot < k → ∃ t, exec (.resultRetire n) s = goes t ∧ (t.ctx n).regs.getS r = w ∧
        (t.core n).wcollide = min 15 ((s.core n).wcollide + 1))

/-- WAIT_COMPLETE, REST_STATE_ENTRY, CORE_WAKE, LATE_EXCEPTION. (R49, R51, R302, R303, 03_core_programs.md) A WAIT
whose event has occurred completes with pd = 1, one whose timeout has passed without it with pd = 0, and the
context runs; before that nothing changes; a WAIT for posted stores that ends either way while one that was not
served is recorded raises its exception instead. A REST whose earlier results have retired and whose event has
not occurred enters DOZE where the ceiling allows it, no drain or stream is in progress and the learned cost
with its break-even fits the horizon, else IDLE. A core that rests wakes on its event into RUN, from DOZE where
fewer than 184 of its panel are leaving DOZE and none waits to. A detected exception whose issue cycle has come
stops the context with its record. -/
def Obligations.WaitsRestsAndWakesOfACore : Prop :=
  ∀ (n : Nat) (s : State), n < 35328 →
    let flies := fun (w : WaitRec) (v : Bool) => (s.core n).flight ++ [{ due := (s.core n).icyc, slot := 0, pc := w.pc, w := .p w.pd v }]
    (∀ w, (s.core n).wait = some w → eventNow n w.kind w.arg s = true → (w.kind = 5 → (s.ctx n).postExc = none) →
      ∃ t, exec (.waitComplete n) s = goes t ∧ (t.core n).wait = none ∧ (t.ctx n).state = .running ∧ (t.core n).flight = flies w true) ∧
    (∀ w, (s.core n).wait = some w → eventNow n w.kind w.arg s = false → w.ticks ≠ 0 → w.since + w.ticks ≤ s.now →
      (w.kind = 5 → (s.ctx n).postExc = none) → ∃ t, exec (.waitComplete n) s = goes t ∧ (t.core n).wait = none ∧ (t.ctx n).state = .running ∧ (t.core n).flight = flies w false) ∧
    (∀ w, (s.core n).wait = some w → eventNow n w.kind w.arg s = false → (w.ticks = 0 ∨ s.now < w.since + w.ticks) →
      exec (.waitComplete n) s = goes s) ∧
    (∀ w e, (s.core n).wait = some w → w.kind = 5 → (s.ctx n).postExc = some e →
      (eventNow n w.kind w.arg s = true ∨ (w.ticks ≠ 0 ∧ w.since + w.ticks ≤ s.now)) →
      ∃ t, exec (.waitComplete n) s = goes t ∧ (t.core n).wait = none ∧
        (t.ctxAt n (s.core n).cur).exc = some { exc := e, slot := 0, pc := w.pc }) ∧
    (∀ r, (s.core n).rest = some r → r.entered = false → restRuns s n = true → (s.core n).still = true → restEvent n r s = false →
      ∃ t, exec (.restStateEntry n) s = goes t ∧ ((t.core n).rest.map RestRec.entered) = some true ∧
        (t.core n).power = (if 1 ≤ ceilingOf s (panelOf n) ∧ (s.core n).m0.queue = [] ∧ (s.core n).m1.queue = [] ∧
          streaming (s.core n) = false ∧ wcost s (panelOf n) 1 + beven (panelOf n) 1 ≤ r.horizon then .doze else .idle)) ∧
    (∀ r, (s.core n).rest = some r → r.entered = true → restRuns s n = true → restEvent n r s = true →
      ((s.core n).power = .idle ∨
        ((s.core n).power = .doze ∧ (((s.panel (panelOf n)).leaving).filter (fun t => decide (s.now < t))).length < 184 ∧
          (s.panel (panelOf n)).coreWaits = [])) → (s.core n).haltReq = false → ∃ t, exec (.coreWake n) s = goes t ∧ (t.core n).rest = none ∧ (t.core n).power = .run ∧
        (t.ctx n).state = .running) ∧
    (∀ e r x, (s.core n).active = true → (s.core n).boundary = none → (catchUp n s).2 = some e →
      r ∈ (s.core n).flight → r.due ≤ (s.core n).icyc → r.w = .exc x →
      ∃ t, exec (.lateException n) s = goes t ∧ (t.ctxAt n ((catchUp n s).1.core n).cur).exc = some e)

/-- What arrays, drain units, generators and scratchpad do behind the issue of bundles. (R70, R76, R77, R87, R106,
04_matrix_engine.md, R134, R143, 07_scratchpad.md) A part of a shadow load whose cycle has passed is written:
the bytes of the tile, its scales and its metadata that R76 gives the part stand in the shadow, with their
poison, and no others change; the next part follows, or the load ends after the last. The earliest accumulator
write whose issue cycle has passed, or comes while the stream stands, is performed. A drain whose tile has no
write outstanding starts its read phase: it holds the tile as it read it, and with cl the tile is cleared. A
drain whose panel cycles have passed leaves the queue with its results written. Where no part, row or drain is
due, the command leaves the state as it is. A panel cycle of an ACTIVE panel counts one; a panel that is not
ACTIVE or whose converters have shut down has none. A corrected line that waits for its write-back is written
with the corrected bytes, check bits and line check that agree with them and its checked bit set, and waits no
longer. Zeroization of a core that holds no context leaves every byte of its scratchpad 0, every line clean and
its region and reduction registers 0; no byte of another address changes. -/
def Obligations.ArraysAndScratchpadWorkBehindIssue : Prop :=
  (
    ∀ (n a : Nat) (s : State), n < 35328 → a < 2 →
      (∀ L, ((s.core n).arr a).load = some L → L.t + 1 + L.next < (s.core n).icyc →
        let lo := fun (len : Nat) => len * L.next / L.parts
        let part := fun (len : Nat) => len * (L.next + 1) / L.parts - lo len
        let rd := spdRead 1 n (L.src + lo L.srcLen) (part L.srcLen) s
        let rc := spdRead 1 n (L.sc + lo L.scLen) (part L.scLen) rd.2
        let rm := spdRead 1 n (L.md + lo L.mdLen) (part L.mdLen) rc.2
        let takes := fun (new old : Tab Byte) (newP oldP : Tab Bool) (base from_ : Nat) (r : Rd) =>
          (∀ j, j < r.bytes.length → Tab.get 0 new (from_ + j) = nth 0 r.bytes j ∧ Tab.get false newP (from_ + j) = r.badAt (base + from_ + j) 1) ∧
          (∀ i, (i < from_ ∨ from_ + r.bytes.length ≤ i) → Tab.get 0 new i = Tab.get 0 old i ∧ Tab.get false newP i = Tab.get false oldP i)
        let V := ((s.core n).arr a).shadow
        ∃ t, exec (.shadowPartWrite n a) s = goes t ∧ ((t.core n).arr a).load =
          (if L.next + 1 = L.parts then none else some { L with next := L.next + 1 }) ∧ ((t.core n).arr a).active = ((s.core n).arr a).active ∧
          (let W := ((t.core n).arr a).shadow
           takes W.data V.data W.dataP V.dataP L.src (lo L.srcLen) rd.1 ∧ takes W.scales V.scales W.scalesP V.scalesP L.sc (lo L.scLen) rc.1 ∧
             takes W.md V.md W.mdP V.mdP L.md (lo L.mdLen) rm.1 ∧ W.wf = V.wf ∧ W.af = V.af ∧ W.nm = V.nm)) ∧
      (((s.core n).arr a).load.all (fun L => decide ((s.core n).icyc ≤ L.t + 1 + L.next)) = true → exec (.shadowPartWrite n a) s = goes s) ∧
      (∀ o rest, ((s.core n).arr a).inp = none → ((s.core n).arr a).rows = o :: rest → (∀ r ∈ rest, o.due < r.due) →
        (o.due < (s.core n).icyc ∨ streamStands (s.core n) = true) →
        exec (.accumulateRow n a) s = goes (applyRow n a o (s.onArr n a (fun A => { A with rows := rest })))) ∧
      (((s.core n).arr a).inp = none → ((s.core n).arr a).rows = [] → exec (.accumulateRow n a) s = goes s) ∧
      (∀ o rest, ((s.core n).arr a).queue = o :: rest → o.started = none → drainReady (s.panel (panelOf n)).cyc ((s.core n).arr a) o = true →
        ∃ t q, exec (.drainOpStart n a) s = goes t ∧ ((t.core n).arr a).queue = q :: rest ∧ q.started = some (s.panel (panelOf n)).cyc ∧
          q.kind = o.kind ∧ q.tile = o.tile ∧ q.cap = (List.range 256).map (fun e => Tab.get 0 (s.ctx n).acc (accKey a o.tile 0 e)) ∧
          q.capP = (List.range 16).map (fun i => Tab.get false (s.ctx n).accp (accRow a o.tile i)) ∧
          (o.cl = false → o.kind ≠ .spill → (t.ctx n).acc = (s.ctx n).acc ∧ (t.ctx n).accp = (s.ctx n).accp) ∧
          ((o.cl = true ∨ o.kind = .spill) →
            (∀ i j, i < 16 → j < 16 → (Tab.get 0 (t.ctx n).acc (accKey a o.tile i j) : W32) = 0 ∧ Tab.get false (t.ctx n).accp (accRow a o.tile i) = false) ∧
            (∀ e, (e < accKey a o.tile 0 0 ∨ accKey a o.tile 0 0 + 256 ≤ e) → (Tab.get 0 (t.ctx n).acc e : W32) = Tab.get 0 (s.ctx n).acc e))) ∧
      (((s.core n).arr a).queue.head?.all (fun o => o.started.isSome || !drainReady (s.panel (panelOf n)).cyc ((s.core n).arr a) o) = true →
        exec (.drainOpStart n a) s = goes s) ∧
      (∀ o rest p, ((s.core n).arr a).queue = o :: rest → o.started = some p → p + drainTime o ≤ (s.panel (panelOf n)).cyc →
        exec (.drainOpEmitDone n a) s = goes (emitOp n a o (s.onArr n a (fun A => { A with queue := rest })))) ∧
      (((s.core n).arr a).queue.head?.all (fun o => o.started.all (fun p => decide ((s.panel (panelOf n)).cyc < p + drainTime o))) = true →
        exec (.drainOpEmitDone n a) s = goes s) ∧
      (∀ p, p < 64 →
        ((s.panel p).power = .active → (s.panel p).lost = false → (s.panel p).shorted = false →
          ∃ t, exec (.laneGeneratorAdvance p) s = goes t ∧ (t.panel p).cyc = (s.panel p).cyc + 1) ∧
        ((s.panel p).power ≠ .active ∨ (s.panel p).lost = true ∨ (s.panel p).shorted = true → exec (.laneGeneratorAdvance p) s = goes s))) ∧
  (
    ∀ (n : Nat) (s : State), n < 35328 →
      (∀ l w, (s.core n).wb.find? (fun v => v.line == l) = some w → w.data.length = 64 →
        ∃ t, exec (.correctionWriteBack n l) s = goes t ∧ memBytes t.mem (spdKey n (64 * l)) 64 = w.data ∧
          t.line n l = { s.line n l with chk := checkBits w.data, lchk := lineCheck w.data, checked := true } ∧
          (∀ v ∈ (t.core n).wb, v.line ≠ l) ∧
          (∀ a, (a < spdKey n (64 * l) ∨ spdKey n (64 * l) + 64 ≤ a) → memGet t.mem a = memGet s.mem a)) ∧
      (isDead s n = false → (s.core n).residents = false →
        ∃ t, exec (.scratchpadZeroization n) s = goes t ∧ (∀ o, o < spdSize → memGet t.mem (spdKey n o) = 0) ∧
          (∀ l, l < 0x18000 → t.line n l = Line.zero) ∧ (t.core n).regions = [] ∧ (t.core n).red = [] ∧
          (∀ a, (a < spdKey n 0 ∨ spdKey n 0 + spdSize ≤ a) → memGet t.mem a = memGet s.mem a)))

/-- A checked weight-class line with one flipped data bit is delivered corrected; without a flip it is good. (R131,
R132, R133) Any 64 bytes with the check bits and line check that R131 and R132 give them, checked and not
poisoned, are good in the weight class. With one bit of one byte flipped, the line is corrected to exactly the
bytes that were written. -/
def Obligations.OneFlippedBitOfACheckedLineIsCorrected : Prop :=
  ∀ b : List Byte, b.length = 64 →
    let ln : Line := { chk := checkBits b, lchk := lineCheck b, checked := true, poison := false }
    evalLine true ln b = .good ∧
    ∀ i j : Nat, i < 64 → j < 8 → evalLine true ln (b.set i (b.getD i 0 ^^^ (1#8 <<< j))) = .corrected b

/-- END, STITCH, SIGNAL, LINK, COPY and GATHER reached by a list; marker, signal and stop. (R154, R156, R159,
08_streams.md) A RUNNING list that has reached a descriptor read without error that passes its checks: END makes
the list DONE; STITCH passes where its flag is set and else stands at the marker; SIGNAL joins the open
descriptors and fires when it is the oldest, setting its flag; LINK goes on at its offset; COPY and GATHER
become the transfer in progress, the next descriptor 32 bytes on. A list at a marker passes it once the flag is
set. A STOPPING list with no request out becomes IDLE. -/
def Obligations.ListsRunTheirDescriptors : Prop :=
  ∀ (n l : Nat) (s : State), n < 35328 → l < 4 →
    let k := (s.core n).cur
    let at_ := fun (t : State) => t.listAt n k l
    (∀ d u, reached n l s = some (d, false, u) → descCheck n d u = 0 →
      (d.kind = 0 → ∃ t, exec (.descEnd n l) s = goes t ∧ (at_ t).state = .done ∧ (at_ t).completed = (at_ u).completed + 1) ∧
      (d.kind = 1 → ∃ t, exec (.descCopy n l) s = goes t ∧ ((at_ t).cur.map Xfer.d) = some d ∧ (at_ t).next = ((at_ u).next + 32) % 2 ^ 23 ∧
        (at_ t).state = (at_ u).state) ∧
      (d.kind = 2 → ∃ t, exec (.descGather n l) s = goes t ∧ ((at_ t).cur.map Xfer.d) = some d ∧ (at_ t).next = ((at_ u).next + 32) % 2 ^ 23) ∧
      (d.kind = 3 → (u.seq (panelOf n)).flags.getLsbD d.flag = true → ∃ t, exec (.descStitch n l) s = goes t ∧
        (at_ t).next = ((at_ u).next + 32) % 2 ^ 23 ∧ (at_ t).completed = (at_ u).completed + 1 ∧ (at_ t).state = (at_ u).state) ∧
      (d.kind = 3 → (u.seq (panelOf n)).flags.getLsbD d.flag = false → ∃ t, exec (.descStitch n l) s = goes t ∧ (at_ t).state = .atMarker ∧
        (at_ t).next = (at_ u).next) ∧
      (d.kind = 4 → ∃ t, exec (.descSignal n l) s = goes t ∧ (at_ t).next = ((at_ u).next + 32) % 2 ^ 23 ∧
        (at_ t).acts.getLast?.map Act.signal = some (some d.flag)) ∧
      (d.kind = 5 → ∃ t, exec (.descLink n l) s = goes t ∧ (at_ t).next = d.src ∧ (at_ t).completed = (at_ u).completed + 1)) ∧
    (engineRuns n s = true → (at_ s).state = .atMarker →
      (s.seq (panelOf n)).flags.getLsbD (Desc.ofBytes (spdRead 1 n (at_ s).next 32 s).1.bytes).flag = true →
      ∃ t, exec (.markerPass n l) s = goes t ∧ (at_ t).state = .running ∧ (at_ t).next = ((at_ s).next + 32) % 2 ^ 23) ∧
    (∀ a rest f, (at_ s).acts = a :: rest → a.signal = some f → ∃ t, exec (.signalFire n l) s = goes t ∧
      (at_ t).acts = rest ∧ (at_ t).completed = (at_ s).completed + (if a.counted then 1 else 0) ∧
      (t.seq (panelOf n)).flags = (s.seq (panelOf n)).flags ||| (1#64 <<< f)) ∧
    (∀ j, j < 4 → (s.listAt n j l).state = .stopping →
      (∀ e ∈ (s.core n).outst, ¬ (e.2.ctx = j ∧ e.2.list = some l ∧ e.2.inv = (s.ctxAt n j).inv)) → (∀ e ∈ (s.listAt n j l).xfs, e.2.owes = false) →
      ∃ t, exec (.listStopped n j l) s = goes t ∧ (t.listAt n j l).state = .idle ∧ (t.listAt n j l).cur = none)

/-- Stream requests go, land and their replies reach their core. (R149, R160, R161, R165, 08_streams.md, R41, R156,
R192) A list that moves a row of a COPY, or of a GATHER by its index, from a remote address into the own
scratchpad, through a transform or a reduction send or without one, issues one read of what is left of the row
up to the next 512-byte boundary of the source. A row of a GATHER with index 0xFFFFFFFF lands as zeros, one
whose index cannot be read or whose source is refused as poisoned zeros, without a request. Output of a
transform for another core leaves as a write of at most 512 bytes at its place; the next whole beat of a
reduction send enters the own router with its element number, rectangle and format. A replied entry that is good
lands its bytes at their scratchpad offset and closes; one of an ended invocation closes without a byte landing
and is counted stale. The head entry of an STF slot leaves its slot as one posted store to its address. A
refused request of a running invocation whose backoff has passed is sent again. A reply that has reached its
core leaves the fabric. A read reply for the open entry of its tag, block, epoch, context and invocation is
taken into the entry; a reply of another epoch is discarded and counted stale at the hub. An acknowledged posted
store is one fewer outstanding. A posted store that was not served sets post_fault, and the context keeps the
first such exception. -/
def Obligations.StreamRequestsAndRepliesLand : Prop :=
  (
    ∀ (n l : Nat) (s : State), n < 35328 → l < 4 →
      let k := (s.core n).cur
      let L := s.listAt n k l
      (∀ x o, engineRuns n s = true → L.state = .running → listOut (s.core n) < 64 → (∀ e ∈ L.xfs, e.2.ready ≤ e.2.outDone) → L.cur = some x →
        x.d.srcSlot = false → x.d.dstSlot = false → x.byte < x.d.rowBytes → targetOf (x.d.dstRow x.row + x.byte) 1 = some (.spd n o) →
        let rd := spdRead 1 n (x.d.idxList + 4 * x.row) 4 s
        let i := leNat rd.1.bytes
        let row := x.d.src + i * x.d.srcStride
        let left := x.d.rowBytes - x.byte
        let use := if x.d.xf = 0 ∧ x.red = none then ReqUse.land o else .raw x.id x.total
        (∀ a m off, (x.d.kind = 1 ∧ a = x.d.srcRow x.row + x.byte) ∨
            (x.d.kind = 2 ∧ rd.1.bad = [] ∧ i ≠ 0xFFFFFFFF ∧ streamChk rd.2 n false row x.d.rowBytes = 0 ∧ a = row + x.byte) →
          targetOf a 1 = some (.spd m off) → m ≠ n →
          ∃ t q e, exec (.engineRequestIssue n l) s = goes t ∧ t.packets = s.packets ++ [q] ∧ q.reply = false ∧ q.op = .read ∧ q.src = .core n ∧
            q.dst = a ∧ q.size = min left (512 - a % 512) ∧ e ∈ (t.core n).outst ∧ e.1 = q.tag ∧ e.2.use = use ∧ e.2.phase = .sent) ∧
        (∀ p, x.d.kind = 2 → (rd.1.bad ≠ [] ∧ p = true) ∨ (rd.1.bad = [] ∧ i = 0xFFFFFFFF ∧ p = false) ∨
            (rd.1.bad = [] ∧ i ≠ 0xFFFFFFFF ∧ streamChk rd.2 n false row x.d.rowBytes ≠ 0 ∧ p = true) →
          ∃ t e, exec (.engineRequestIssue n l) s = goes t ∧ t.packets = s.packets ∧ e ∈ (t.core n).outst ∧ e.2.use = use ∧ e.2.phase = .replied ∧
            e.2.data = List.replicate (min left 512) 0 ∧ e.2.pois = List.replicate (ceilDiv (min left 512) 64) p)) ∧
      (∀ x m off, engineWorks n s = true → L.xfs = [(x.id, x)] → targetOf x.d.dst 1 = some (.spd m off) → m ≠ n → x.red = none → x.d.dstSlot = false →
        x.outDone < x.ready → listOut (s.core n) < 64 →
        let len := min 512 (x.ready - x.outDone)
        ∃ t q, exec (.engineRequestIssue n l) s = goes t ∧ t.packets = s.packets ++ [q] ∧ q.reply = false ∧ q.op = .write ∧ q.src = .core n ∧
          q.dst = x.d.dst + x.outDone ∧ q.size = len ∧ q.data = (List.range len).map (fun j => (x.outByte (x.outDone + j)).1)) ∧
      (∀ x r m off, engineWorks n s = true → L.xfs = [(x.id, x)] → L.cur = none → x.red = some r → x.outDone + 128 = x.ready →
        (redAt s n r .own).length < 2 →
        let dst := x.d.dstRow (x.outDone / x.d.rowBytes) + x.outDone % x.d.rowBytes
        let w := (Tab.get 0 (s.core n).red r).toNat
        targetOf dst 1 = some (.spd m off) → ∃ t b, exec (.engineRequestIssue n l) s = goes t ∧ t.reds = s.reds ++ [b] ∧ t.packets = s.packets ∧
          b.router = n ∧ b.id = r ∧ b.inp = .own ∧ b.dst = dst ∧ b.elem = (off - fld w 10 0 * 4096) / 128 ∧ b.fmt = w.testBit 62 ∧
          (b.x0, b.y0, b.x1, b.y1) = (fld w 55 48, fld w 47 40, fld w 39 32, fld w 31 24) ∧
          b.data = (List.range 128).map (fun j => (x.rawAt (x.outDone + j)).1)) ∧
      (∀ tag q off, (s.core n).outst.find? (fun e => e.1 == tag) = some (tag, q) → q.phase = .replied → staleReq s n q = false → q.status = 0 →
        q.list = some l → q.use = .land off →
        ∃ t, exec (.replyLanding n tag) s = goes t ∧ t = finishPart n tag q (landAt n q.ctx off q.data q.pois s) ∧
          (∀ e ∈ (t.core n).outst, e.1 ≠ tag)) ∧
      (∀ tag q, (s.core n).outst.find? (fun e => e.1 == tag) = some (tag, q) → q.phase = .replied → staleReq s n q = true →
        ∃ t, exec (.replyLanding n tag) s = goes t ∧ (∀ e ∈ (t.core n).outst, e.1 ≠ tag) ∧ t.mem = s.mem ∧
          (t.ctx n).counts.stale = min 255 ((s.ctx n).counts.stale + 1)) ∧
      (∀ q, let Q := (s.ctx n).slot q
        (s.core n).active = true → (s.panel (panelOf n)).live = true → isDead s n = false → Q.mode = 4 → Q.esz = 1 → Q.hasEntry = true →
        ∃ t m, exec (.stfEntrySend n q) s = goes t ∧ t.packets = s.packets ++ [m] ∧ m.op = .posted ∧ m.src = .core n ∧
          m.dst = leNat (((spdRead 1 n (Q.at_ Q.head) 16 s).1.bytes.drop 8).take 6) ∧ ((t.ctx n).slot q).cons = (Q.cons + 1) % 256) ∧
      (∀ tag q c, (s.core n).outst.find? (fun e => e.1 == tag) = some (tag, q) → q.phase = .retry c → staleReq s n q = false → c ≤ (s.panel (panelOf n)).cyc →
        ∃ t m, exec (.requestRetry (some n) tag) s = goes t ∧ t.packets = s.packets ++ [m] ∧ m.dst = q.addr ∧ m.tag = tag ∧ m.size = q.len ∧
          ∃ q', (t.core n).outst.find? (fun e => e.1 == tag) = some (tag, q') ∧ q'.phase = .sent)) ∧
  (
    ∀ (pid n : Nat) (k : Packet) (s : State), packetOf s pid = some k → k.reply = true → k.pos = .there → k.src = .core n →
      let out := dropPacket k.pid s
      (∀ q, k.op = .read → replyFor out k n = some q → k.status ≠ 0x0D → staleReq out n q = false →
        ∃ t, exec (.replyArrival pid) s = goes t ∧ t.packets = s.packets.filter (fun m => m.pid != k.pid) ∧
          Tab.get q (t.core n).outst k.tag = { q with data := k.data, pois := k.pois, status := k.status, phase := .replied }) ∧
      (k.op = .read → replyFor out k n = none →
        ∃ t, exec (.replyArrival pid) s = goes t ∧ t.cores = s.cores ∧
          (t.panel (panelOf n)).hub.staleEpoch = min 4095 ((s.panel (panelOf n)).hub.staleEpoch + 1)) ∧
      (∀ q j, k.op = .posted → k.status = 0 → replyFor out k n = some q → staleReq out n q = false → q.use = .posted j →
        ∃ t, exec (.writeAcknowledge pid) s = goes t ∧ (t.ctxAt n q.ctx).posted = (s.ctxAt n q.ctx).posted - 1 ∧
          (t.ctxAt n q.ctx).postExc = (s.ctxAt n q.ctx).postExc) ∧
      (∀ q j, k.op = .posted → k.status ≠ 0 → k.status ≠ 0x0D → replyFor out k n = some q → staleReq out n q = false → q.use = .posted j →
        (s.ctxAt n q.ctx).postExc = none →
        ∃ t, exec (.postedStoreFault pid) s = goes t ∧ (t.core n).postFault = true ∧
          (t.ctxAt n q.ctx).posted = (s.ctxAt n q.ctx).posted - 1 ∧ (t.ctxAt n q.ctx).postExc = statusExc k.status))

/-- REMOTE_REQUEST and MESH_FORWARD: a request is served or refused at its scratchpad, a packet moves a hop. (R19,
R25, R32, R174, R175, R178, R193, 09_fabric.md) A write that has reached the scratchpad of another core, on a
panel whose converters run, which is not being carried, with no request sent before it on its way still there,
and that no row of R32 refuses is written byte by byte, no other byte of memory changes, and the request becomes
a reply with status OK. A request that a row refuses changes no memory and becomes a reply with that row's
status. A request of another epoch is not served: TARGET_RESET. A request of route class XY that wins its output
at a router moves one core east or west until its column, then one core north or south, and has arrived at its
core; it then stands behind what is there. One that does not win its output stays; no request wins an output
that a reply or a reduction wants, and the first packet of its input wins an output that nothing else wants. At
a panel whose converters have shut down nothing is served. A packet whose next panel gives no transit and is not
its goal is held while the new table of the panel in which it stands has not come. -/
def Obligations.RequestsAndPacketsTravel : Prop :=
  ∀ (pid n off : Nat) (s : State) (k : Packet), packetOf s pid = some k → k.reply = false →
    (k.pos = .there → targetOf k.dst k.size = some (.spd n off) → beingCarried s n = false → ownAccess k n = false → overtakes s k = false →
      (s.panel (panelOf n)).shorted = false →
      let st := spdStatus s n off k.size (decide (k.op ≠ .read))
      (st = 0 → k.epoch = epochOf s n → k.op = .write → k.data.length = k.size → (s.core n).undef = [] →
        ∃ t q, exec (.remoteRequest pid) s = goes t ∧ packetOf t pid = some q ∧ q.reply = true ∧ q.status = 0 ∧
          memBytes t.mem (spdKey n off) k.size = k.data ∧
          (∀ a, (a < spdKey n off ∨ spdKey n off + k.size ≤ a) → memGet t.mem a = memGet s.mem a)) ∧
      (st ≠ 0 → k.epoch = epochOf s n → ∃ t q, exec (.remoteRequest pid) s = goes t ∧ packetOf t pid = some q ∧ q.reply = true ∧
        q.status = st ∧ t.mem = s.mem ∧ t.cores = s.cores) ∧
      (st = 0 → k.epoch ≠ epochOf s n → ∃ t q, exec (.remoteRequest pid) s = goes t ∧ packetOf t pid = some q ∧ q.reply = true ∧
        q.status = 0x07 ∧ t.mem = s.mem)) ∧
    (targetOf k.dst 1 = some (.spd n off) → (s.panel (panelOf n)).shorted = true → exec (.remoteRequest pid) s = goes s) ∧
    (∀ m o, k.pos = .mesh n → k.lost = false → k.route = .xy → stands s (panelOf n) = false → targetOf k.dst 1 = some (.spd m o) →
      let goesTo := fun (out : Nat) (q : Pos) =>
        (winsOutput s k out = true → ∃ t inp, exec (.meshForward pid) s = goes t ∧ t.mem = s.mem ∧
          t.packets = s.packets.filter (fun p => p.pid != pid) ++ [{ k with pos := q, inp := inp }]) ∧
        (winsOutput s k out = false → exec (.meshForward pid) s = goes s) ∧
        ((∃ q ∈ s.packets, q.reply = true ∧ q.pos = k.pos ∧ headOf s q = true ∧ (hopOf s q).out = some out) → winsOutput s k out = false) ∧
        ((∃ i, i < 16 ∧ redOut s n i = some out) → winsOutput s k out = false) ∧
        (headOf s k = true → (∀ q ∈ s.packets, shareOut q.pos k.pos out = true → headOf s q = true → (hopOf s q).out = some out → q = k) →
          (∀ i, i < 16 → redOut s n i ≠ some out) → winsOutput s k out = true)
      (n = m → goesTo 4 .there) ∧
      (cxOf n < cxOf m → stands s (panelOf (n + 1)) = false → goesTo 1 (.mesh (n + 1))) ∧
      (cxOf m < cxOf n → stands s (panelOf (n - 1)) = false → goesTo 3 (.mesh (n - 1))) ∧
      (cxOf n = cxOf m → cyOf n < cyOf m → stands s (panelOf (n + 184)) = false → goesTo 2 (.mesh (n + 184))) ∧
      (cxOf n = cxOf m → cyOf m < cyOf n → stands s (panelOf (n - 184)) = false → goesTo 0 (.mesh (n - 184))) ∧
      (cxOf n < cxOf m → noTransit s (panelOf (n + 1)) = true → panelOf m ≠ panelOf (n + 1) → headOf s k = true → (s.panel (panelOf n)).hub.stale = true →
        ∃ t, exec (.meshForward pid) s = goes t ∧
          t.packets = s.packets.map (fun p => if p.pid = pid then { p with lost := true } else p)))

/-- REDUCTION_COMBINE, BROADCAST_DELIVERY and EPOCH_NOTICE. (R188, R189, R190, R192, R287, 09_fabric.md) At the
destination router of a reduction, on a panel that forwards, whose own element and whose element from the east
are at the head of their inputs and agree in element number, rectangle and format, and which has its turn at its
output, both leave their inputs and their sum, added in that order, lands at the destination, poisoned per half
where either was. Where the heads differ, both halves are poisoned and the panel counts a mismatch. At another
router the sum of the own element and that from the west goes to the west input of the next router, which has
room. While an expected input is empty, or a reply or another reduction has the turn, nothing happens. A core
that a broadcast section has not yet reached and that is not being carried takes the bytes at the section's
offset, where they match the section's crc, and no other byte of memory changes; where they do not match it
reports them and takes nothing. The notice of a CORE reset releases the core and the reset is no longer in
progress. -/
def Obligations.ReductionBroadcastAndEpochs : Prop :=
  ∀ (n r : Nat) (s : State), n < 35328 → r < 16 →
    (∀ f a b, s.reds.find? (fun p => p.router == n && p.id == r) = some f → expected s n f = [.own, .east] →
      (redAt s n r .own).head? = some a → (redAt s n r .east).head? = some b → a.goal = n → stands s (panelOf n) = false →
      carriedTarget s a.dst 128 = false → redWins s n r 4 = true →
      let took := fun (s : State) =>
        { s with turns := Tab.set s.turns (turnKey (.mesh n) 4 .red) r, reds := dropHead n r .east (dropHead n r .own s.reds) }
      let sum := addBeat a.fmt a.data b.data
      let own := if a.owner.isSome then a.owner else b.owner
      (sameHead a b = true → exec (.reductionCombine n r) s =
        goes (redLand { a with data := sum, p0 := a.p0 || b.p0, p1 := a.p1 || b.p1, owner := own } (took s))) ∧
      (sameHead a b = false → exec (.reductionCombine n r) s =
        goes (redLand { a with data := sum, p0 := true, p1 := true, owner := own } (took (s.onPanel (panelOf n) (fun P =>
          { P with hub := { P.hub with redMismatch := inc 12 P.hub.redMismatch } })))))) ∧
    (∀ f a b, s.reds.find? (fun p => p.router == n && p.id == r) = some f → expected s n f = [.own, .west] →
      (redAt s n r .own).head? = some a → (redAt s n r .west).head? = some b → a.goal < 35328 → cxOf n < cxOf a.goal → sameHead a b = true →
      stands s (panelOf n) = false → stands s (panelOf (n + 1)) = false → (redAt s (n + 1) r .west).length < 2 → redWins s n r 1 = true →
      exec (.reductionCombine n r) s = goes { s with
        turns := Tab.set s.turns (turnKey (.mesh n) 1 .red) r
        reds := dropHead n r .west (dropHead n r .own s.reds) ++
          [{ a with data := addBeat a.fmt a.data b.data, p0 := a.p0 || b.p0, p1 := a.p1 || b.p1, router := n + 1, inp := .west, owner := none }] }) ∧
    (∀ out, redOut s n r = some out →
      ((∃ i, i < 16 ∧ i ≠ r ∧ redOut s n i = some out ∧ (i + 15 - Tab.get 0 s.turns (turnKey (.mesh n) out .red)) % 16 <
        (r + 15 - Tab.get 0 s.turns (turnKey (.mesh n) out .red)) % 16) → exec (.reductionCombine n r) s = goes s) ∧
      ((∃ k ∈ s.packets, k.reply = true ∧ k.pos = .mesh n ∧ headOf s k = true ∧ (hopOf s k).out = some out) →
        exec (.reductionCombine n r) s = goes s)) ∧
    (∀ f i, s.reds.find? (fun p => p.router == n && p.id == r) = some f → i ∈ expected s n f → redAt s n r i = [] →
      exec (.reductionCombine n r) s = goes s) ∧
    (∀ pid b c f, s.bcasts.find? (fun b => b.pid == pid) = some b → loading s b.part = some c → castOf s b.part = some f → f.pid = pid →
      n ∈ castLeft s b → b.kind = 0 → (s.core n).undef = [] →
      (castHeld s b n = true → exec (.broadcastDelivery pid n) s = goes s) ∧
      (castHeld s b n = false → b.matches = true → b.off + b.data.length ≤ spdSize → (∀ c ∈ s.bcasts, c.part = b.part → c.reports = []) →
        ∃ t, exec (.broadcastDelivery pid n) s = goes t ∧ memBytes t.mem (spdKey n b.off) b.data.length = b.data ∧
          (∀ a, (a < spdKey n b.off ∨ spdKey n b.off + b.data.length ≤ a) → memGet t.mem a = memGet s.mem a)) ∧
      (castHeld s b n = false → b.matches = false → (∃ m ∈ castLeft s b, m ≠ n) →
        exec (.broadcastDelivery pid n) s = goes { s with bcasts := s.bcasts.map (fun c =>
          if c.pid = pid then { c with taken := Tab.set c.taken n true, reports := c.reports ++ [n] } else c) })) ∧
    (∀ i q, s.rst.running[i]? = some q → q.phase = .notice → q.level = 1 → targetCore q.target = n → s.host.win = none →
      ∃ t, exec (.epochNotice i) s = goes t ∧ (t.core n).inReset = false ∧ t.rst.running = s.rst.running.eraseIdx i ∧
        t.epochs = s.epochs ∧ t.mem = s.mem)

/-- ROUTE_TABLE_UPDATE, ROUTE_TABLE_ARRIVAL, SPD_REGION_WRITE and FAB_RED_WRITE. (R137, R139, R183, R184, R186,
R194, 09_fabric.md) ROUTE_TABLE_UPDATE records for every panel whether it is open, mesh-broken, or lost or OFF,
where that has changed, and marks every hub's table out of date. ROUTE_TABLE_ARRIVAL gives a hub whose table is
out of date the next hops and route classes computed from that record; its generation counts one more. The host,
with PCIe up and a session open, writes a region register of an ACTIVE panel's core that no context uses: it
holds the value's defined bits. It stays while a context is RUNNING or WAITING (WRONG_STATE), and where a valid
value names a first page above the last, a page that does not exist, or reserved bits (BAD_ARGUMENT). The fabric
window holds the status of the write. A reduction entry is written likewise while no list of the core is active,
one that is not valid with any contents, a valid one where its rectangle is no empty one, stands in the core's
partition and holds the core and its window lies in the scratchpad, pages in order; any other valid one is
refused BAD_ARGUMENT. -/
def Obligations.TablesRegionsAndReductionEntries : Prop :=
  ∀ (p n r : Nat) (v : W64) (s : State), p < 64 → n < 35328 → r < 16 →
    (s.transit ≠ (List.range 64).map (fun q => (q, transitOf s q)) →
      ∃ t, exec .routeTableUpdate s = goes t ∧ (∀ q, q < 64 → Tab.get 0 t.transit q = transitOf s q) ∧
        (∀ q, q < 64 → (t.panel q).hub.stale = true) ∧ t.mem = s.mem) ∧
    (s.transit = (List.range 64).map (fun q => (q, transitOf s q)) → exec .routeTableUpdate s = goes s) ∧
    (s.host.win = none → (s.panel p).hub.stale = true →
      let dead := fun q => Tab.get 0 s.transit q == 2
      ∃ t, exec (.routeTableArrival p) s = goes t ∧ (t.panel p).hub.stale = false ∧
        (t.panel p).hub.gen = ((s.panel p).hub.gen + 1) % 256 ∧
        (∀ d, d < 64 → Tab.get 4 (t.panel p).hub.hops d = nextHop dead p d ∧
          Tab.get .xy (t.panel p).hub.classes d = routeClass s.transit p d)) ∧
    (s.host.win = none → (s.panel p).hub.stale = false → exec (.routeTableArrival p) s = goes s) ∧
    (∀ k, pcieUp s = true → partOf s (panelOf n) = some k → (s.part k).session = .opened →
      ctlStatus s (panelOf n) 0x10 ((lyOf n * 23 + lxOf n) * 0x10000) = 0 →
      beingCarried s n = false →
      let left := fun (st : Nat) (t : State) => goes (fabDone true st [] false t)
      let w := v.toNat
      let bad := fld w 42 32 < fld w 10 0 ∨ 1535 < fld w 42 32 ∨ fld w 58 43 ≠ 0 ∨ fld w 31 11 ≠ 0
      ((s.core n).inUse = false → (v.getLsbD 63 = false ∨ ¬ bad) →
        exec (.spdRegionWrite .host n r v) s =
          left 0 (s.onCore n (fun c => { c with regions := Tab.put 0 c.regions r (BitVec.ofNat 64 (regionKeep w)) }))) ∧
      ((s.core n).inUse = true → exec (.spdRegionWrite .host n r v) s = left 0x04 s) ∧
      ((s.core n).inUse = false → v.getLsbD 63 = true → bad → exec (.spdRegionWrite .host n r v) s = left 0x03 s) ∧
      let K := s.part k
      let good := fld w 55 48 ≤ fld w 39 32 ∧ fld w 47 40 ≤ fld w 31 24 ∧ fld w 39 32 < 184 ∧ fld w 31 24 < 192 ∧
        K.x0 * 23 ≤ fld w 55 48 ∧ fld w 39 32 < (K.x1 + 1) * 23 ∧ K.y0 * 24 ≤ fld w 47 40 ∧ fld w 31 24 < (K.y1 + 1) * 24 ∧
        fld w 55 48 ≤ cxOf n ∧ cxOf n ≤ fld w 39 32 ∧ fld w 47 40 ≤ cyOf n ∧ cyOf n ≤ fld w 31 24 ∧
        fld w 10 0 ≤ fld w 21 11 ∧ fld w 21 11 ≤ 1535
      ((∀ j, j < 4 → ∀ l, l < 4 → (s.listAt n j l).live = false) →
        ((v.getLsbD 63 = false ∨ good) → exec (.fabRedWrite .host n r v) s =
          left 0 (s.onCore n (fun c => { c with red := Tab.put 0 c.red r (BitVec.ofNat 64 (redKeep w)) }))) ∧
        (v.getLsbD 63 = true → ¬ good → exec (.fabRedWrite .host n r v) s = left 0x03 s)) ∧
      (∀ j, j < 4 → ∀ l, l < 4 → (s.listAt n j l).state = .running → exec (.fabRedWrite .host n r v) s = left 0x04 s))

/-- HUB_REQUEST_ARRIVAL and HUB_GRANT. (R32, R162, R163, R164, R193, 08_streams.md) A stack request that has reached
its hub and that no row of R32 refuses waits there with its units of 512 bytes where its class still has entries
for them, 16 for each unit of the class's share, and the tracker its 1,024; else it is answered REFUSED_FULL and
the class counts one more refusal. A refused request waits nowhere. A read holds an entry for each unit it
touches until its data have left, a write for each unit still to be written. Of any list of waiting requests the
hub grants a unit to the oldest whose unit is free and whose class is within its share of the window, and where
there is none to the oldest whose unit is free: the window counts the grant and the class's use, the request
goes on to its next unit, the others stay, and the stack is active; a request that its class's exhausted share
made late is counted delayed once. Where the stack has lost its key the request is answered WRONG_STATE and no
byte changes. -/
def Obligations.HubsTrackAndGrant : Prop :=
  ∀ (pid p off : Nat) (s : State) (k : Packet), p < 64 →
    let H := (s.panel p).hub
    let units := (off + k.size - 1) / 512 + 1 - off / 512
    (packetOf s pid = some k → k.reply = false → k.pos = .there → targetOf k.dst k.size = some (.stk p off) → (s.panel p).shorted = false →
      (∀ q ∈ H.waiting, q.pid ≠ pid) → (∀ e ∈ (s.stack p).partner, e.pid = pid → e.kind = .rebuild) → overtakes s k = false →
      let st := stackStatus s p off k
      let cls := classAt k p
      (st = 0 → entriesOf s p cls + units ≤ 16 * H.split.of cls → entriesAll s p + units ≤ 1024 → ∃ t, exec (.hubRequestArrival pid) s = goes t ∧
        (t.panel p).hub.waiting = H.waiting ++ [{ pid := pid, cls := cls, unit := off / 512, left := units, fresh := true, late := false
                                                  counted := false, secs := [], data := [], pois := [], status := 0 }] ∧ t.packets = s.packets) ∧
      (st = 0 → (16 * H.split.of cls < entriesOf s p cls + units ∨ 1024 < entriesAll s p + units) → ∃ t q, exec (.hubRequestArrival pid) s = goes t ∧
        (t.panel p).hub.waiting = H.waiting ∧ packetOf t pid = some q ∧ q.reply = true ∧ q.status = 0x0D ∧
        Tab.get 0 (t.panel p).hub.refused cls = min 65535 (Tab.get 0 H.refused cls + 1)) ∧
      (st ≠ 0 → ∃ t q, exec (.hubRequestArrival pid) s = goes t ∧ (t.panel p).hub.waiting = H.waiting ∧ packetOf t pid = some q ∧
        q.reply = true ∧ q.status = st)) ∧
    (∀ (q : HubReq) w, packetOf s q.pid = some w → q.entries s = (if w.op = .read then unitsOf (w.dst % 2 ^ 37) w.size else q.left)) ∧
    (∀ cls, (∀ m ∈ s.packets, m.reply = false) → entriesOf s p cls = ((H.waiting.filter (fun q => q.cls == cls)).map (HubReq.entries s)).sum) ∧
    (∀ pre post q, H.waiting = pre ++ [q] ++ post → (∀ w ∈ pre ++ post, w.pid ≠ q.pid) → packetOf s q.pid = some k → k.op = .read → 1 < q.left →
      (s.panel p).shorted = false → unitBusy s p q = false → 0 < H.grants → H.grants < 63 → (s.stack p).key.isSome = true →
      (s.stack p).mirrored = false → (s.panel p).power = .active →
      let free := fun (w : HubReq) => unitBusy s p w = false ∧ Tab.get 0 H.used w.cls < H.split.of w.cls
      let granted := fun (t : State) (w : HubReq) => (t.panel p).hub.grants = H.grants + 1 ∧
        Tab.get 0 (t.panel p).hub.used q.cls = Tab.get 0 H.used q.cls + 1 ∧ (t.panel p).hub.waiting = pre ++ [w] ++ post ∧ w.pid = q.pid ∧
        w.unit = q.unit + 1 ∧ w.left = q.left - 1 ∧ (t.stack p).power = .active ∧ (t.stack p).lastUse = s.now
      (free q → (∀ w ∈ pre, ¬ free w) → q.late = false → ∃ t w, exec (.hubGrant p) s = goes t ∧ granted t w ∧ w.counted = q.counted) ∧
      ((∀ w ∈ H.waiting, ¬ free w) → (∀ w ∈ pre, unitBusy s p w = true) → ∃ t w, exec (.hubGrant p) s = goes t ∧ granted t w ∧
        w.counted = (q.counted || q.late || q.fresh) ∧
        (q.counted = false → q.late || q.fresh → Tab.get 0 (t.panel p).hub.delayed q.cls = min 65535 (Tab.get 0 H.delayed q.cls + 1)))) ∧
    (∀ q, H.waiting = [q] → packetOf s q.pid = some k → unitBusy s p q = false → (s.panel p).shorted = false → (s.stack p).key = none → k.raw = false →
      (s.stack p).partner = [] → ∃ t w, exec (.hubGrant p) s = goes t ∧ (t.panel p).hub.waiting = [] ∧ packetOf t q.pid = some w ∧ w.reply = true ∧
        w.status = 0x04 ∧ t.mem = s.mem) ∧
    (H.waiting = [] → ∃ t, exec (.hubGrant p) s = goes t ∧ t.mem = s.mem ∧ t.packets = s.packets ∧ (t.panel p).hub.waiting = [])

/-- Stack sectors: scrub, retirement, power, narrow writes and mirrors. (R201, R205, R206, R211, R214, R392,
10_memory_stacks.md, R204, R208, R209, R210) The oldest corrected sector that waits is written back with its
byte corrected and the check bytes of what it then holds; where its decision is no longer a correction nothing
is written. Patrol scrub, with its interval passed and no pass ordered, reads the unit next in turn and goes on
to the one after, modulo 2^28. A retirement that is running ends with its page mapped to the next spare page and
one spare page more in use. An active stack without a request, a merge or a fill for 100 ticks is in power-down;
earlier it stays. A fill that is due runs once the bring-up is complete; one that runs ends with scrub at offset
0. STK_SCRUB takes the enable bit and an interval of at least 250. The oldest read-merge of a stack, whose unit
has been read, leaves the list of merges and the stack counts one merge more; while its unit is still being read
nothing happens. The oldest mirror write that has not been sent leaves for the partner as a write request of the
remote class to the other copy, with the data that were written; while the partner is in reset nothing is sent.
A write whose last mirror write the partner has done is acknowledged. A merge at a stack that has lost its key
is answered WRONG_STATE and writes nothing. A rebuild asks the live partner for the lowest unit of either range
that is still to come and that holds anything there, as a raw read of the remote class; the reply lands in the
unit, of either range, with its bytes as stored, its marks, and the check bytes of the partner's address words.
The rebuild ends once the last unit has come: then neither panel has its mirror lost; before that nothing
changes. -/
def Obligations.StackSectorsScrubMirrorsAndPower : Prop :=
  (
    ∀ (p : Nat) (v : W64) (s : State), p < 64 →
      let K := s.stack p
      (∀ x rest, K.rewrites = x :: rest → 
        let aw := ownerAw s p (x * 64)
        let c := decideAt s p (x * 64) aw
        (∀ i v, c = .corrected i v → ∃ t, exec (.stackSectorRewrite p) s = goes t ∧ (t.stack p).rewrites = rest ∧
          sectorBytes t p (x * 64) = fixByte (sectorBytes s p (x * 64)) i v ∧
          Tab.get [] (t.stack p).checks x = sectorCheck (fixByte (sectorBytes s p (x * 64)) i v) aw false) ∧
        ((match c with | .corrected _ _ => false | _ => true) = true → exec (.stackSectorRewrite p) s = goes (s.onStack p (fun K => { K with rewrites := rest })))) ∧
      (stackAwake K = true → K.fill = .none → K.pass = none → K.scrubOn = true → K.lastScrub + K.interval ≤ s.now →
        ∃ t, exec (.patrolScrubRead p) s = goes t ∧ (t.stack p).next = (K.next + 1) % 2 ^ 28 ∧ (t.stack p).lastScrub = s.now ∧
          ∀ a, memGet t.mem a = memGet s.mem a) ∧
      (K.pass = none → s.now < K.lastScrub + K.interval → exec (.patrolScrubRead p) s = goes s) ∧
      (∀ pg, K.retiring = some pg → s.host.win = none → ∃ t, exec (.pageRetireDone p) s = goes t ∧ (t.stack p).retiring = none ∧
        Tab.get 0 (t.stack p).retire pg = K.spares ∧ (t.stack p).spares = K.spares + 1 ∧ pg ∈ (t.stack p).entries) ∧
      (K.power = .active → (s.panel p).hub.waiting = [] → K.merges = [] → K.fill = .none → K.lastUse + 100 ≤ s.now →
        exec (.stackPowerDown p) s = goes (s.onStack p (fun K => { K with power := .powerDown }))) ∧
      (s.now < K.lastUse + 100 → exec (.stackPowerDown p) s = goes s) ∧
      (K.fill = .due → (s.panel p).power = .active → (s.panel p).bring = .none → exec (.stackFill p) s = goes (s.onStack p (fun K => { K with fill := .running }))) ∧
      (K.fill = .running → exec (.stackFillDone p) s =
        goes (s.onStack p (fun K => { K with fill := .none, next := 0, lastScrub := s.now }))) ∧
      (pcieUp s = true → (partOf s p).all (fun k => decide ((s.part k).session = .opened)) = true → ctlStatus s p 3 0x0010 = 0 →
        exec (.stkScrubWrite .host p v) s =
          goes (fabDone true 0 [] false (s.onStack p (fun K => { K with scrubOn := v.getLsbD 63, interval := max 250 (fld v.toNat 47 32) }))))) ∧
  (
    ∀ (p : Nat) (s : State), p < 64 →
      let K := s.stack p
      (∀ pid rest q k, K.merges = pid :: rest → waitingAt s p pid = some q → packetOf s pid = some k →
        (K.key.isSome = true → 8 ≤ q.secs.length → 1 < q.left →
          ∃ t, exec (.readMerge p) s = goes t ∧ (t.stack p).merges = rest ∧ (t.stack p).merge = min 4095 (K.merge + 1)) ∧
        (K.key.isSome = true → q.secs.length < 8 → exec (.readMerge p) s = goes s) ∧
        (K.key = none → K.partner = [] → ∃ t w, exec (.readMerge p) s = goes t ∧ (t.stack p).merges = rest ∧ packetOf t pid = some w ∧
          w.reply = true ∧ w.status = 0x04 ∧ t.mem = s.mem)) ∧
      (∀ r rest q, K.partner = r :: rest → r.sent = none → r.kind = .write → mirrorsTo s p = some q →
        ((s.panel q).inReset = false → ∃ t m, exec (.mirrorWrite p) s = goes t ∧ t.packets = s.packets ++ [m] ∧ m.op = .write ∧
          m.reply = false ∧ m.mirror = true ∧ m.src = .stack p ∧ classAt m q = 2 ∧ m.dst = 2 ^ 46 + q * 2 ^ 40 + otherCopy r.off ∧
          m.data = r.data ∧ m.pois = r.pois ∧ (∃ x ∈ (t.stack p).partner, x.pid = r.pid ∧ x.sent = some (m.tag, m.epoch)) ∧ t.mem = s.mem) ∧
        ((s.panel q).inReset = true → exec (.mirrorWrite p) s = goes s)) ∧
      (∀ pid k r w, packetOf s pid = some k → k.reply = true → k.pos = .there → k.src = .stack p → k.op = .write → k.status = 0 →
        K.partner = [r] → r.kind = .write → r.sent = some (k.tag, k.epoch) → waitingAt s p r.pid = none → packetOf s r.pid = some w → r.pid ≠ pid →
        ∃ t v, exec (.writeAcknowledge pid) s = goes t ∧ (t.stack p).partner = [] ∧ packetOf t r.pid = some v ∧ v.reply = true ∧ v.status = 0) ∧
      (∀ q m, partnerOf s p = some q → K.rebuild ≠ .none → (s.panel q).lost = false →
        let from_ := if K.rebuild = .due then 0 else K.rebuilt
        let asked := fun (v : Nat) => from_ ≤ v ∧ ∃ x ∈ heldSectors s q 0 deviceBase, otherCopy x / 512 = v
        (asked m → (∀ v, asked v → m ≤ v) → (s.panel q).inReset = false →
          ∃ t k, exec (.mirrorRebuild p) s = goes t ∧ (t.stack p).rebuild = .running ∧ (t.stack p).rebuilt = m + 1 ∧ t.packets = s.packets ++ [k] ∧
            k.reply = false ∧ k.op = .read ∧ k.raw = true ∧ k.src = .stack p ∧ classAt k q = 2 ∧ k.size = 512 ∧
            k.dst = 2 ^ 46 + q * 2 ^ 40 + otherCopy (512 * m) ∧ t.mem = s.mem) ∧
        ((∀ v, ¬ asked v) → exec (.mirrorRebuild p) s =
          goes (s.onStack p (fun K => { K with rebuild := .running, rebuilt := deviceBase / 512 })))) ∧
      (∀ pid k r q, packetOf s pid = some k → k.reply = true → k.pos = .there → k.src = .stack p → k.op = .read → k.status = 0 →
        K.partner = [r] → r.kind = .rebuild → r.sent = some (k.tag, k.epoch) → partnerOf s p = some q → K.retire = [] → k.data.length = 512 →
        r.off % 512 = 0 → r.off < deviceBase → ∃ t, exec (.replyArrival pid) s = goes t ∧ (t.stack p).partner = [] ∧
          ∀ i, i < 8 → sectorBytes t p (r.off + 64 * i) = (k.data.drop (64 * i)).take 64 ∧
            Tab.get [] (t.stack p).checks (r.off / 64 + i) =
              sectorCheck ((k.data.drop (64 * i)).take 64) (expectAw s q (otherCopy (r.off + 64 * i))) (nth false k.pois i)) ∧
      (∀ q, partnerOf s p = some q → K.rebuild = .running →
        (deviceBase / 512 ≤ K.rebuilt → (∀ r ∈ K.partner, r.kind ≠ .rebuild) → ∃ t, exec (.mirrorRebuildDone p) s = goes t ∧
          (t.stack p).rebuild = .none ∧ (t.stack p).mirrorLost = false ∧ (t.stack q).mirrorLost = false) ∧
        (K.rebuilt < deviceBase / 512 ∨ (∃ r ∈ K.partner, r.kind = .rebuild) → exec (.mirrorRebuildDone p) s = goes s)))

/-- Lanes that fail and switch, link timers and training. (R220, R222, 11_links.md, R217, R224, R226) The first
failure of an active lane of a port that is UP with 12 active lanes and a good spare asks for a switch to the
spare with three LANE flits: the port stays UP, the lane is failed. Where a lane of the set that a switch brings
in fails before the switch, a set of 8 good lanes without it takes its place and LANE flits go again. Below 8
good lanes the port is FAILED. A failure of a lane already failed changes nothing. An agreed switch takes place:
its lanes are active. A codeword with at most 15 symbols in error has been received now, each corrected symbol
traced to its lane, and the port counts no uncorrectable codeword; a lane with more than 2^12 of them in 2^16
ticks fails. With 16 or more it is counted uncorrectable and spoils up to 4 flits to come, or is taken as good,
the spec leaving open which. Two flits without an advance after a gap, or 200 ticks with unacknowledged flits,
make the port replay: it sends every flit it keeps again, in order, counts one replay and stays UP below the
eighth in a row; the eighth takes it DOWN. 1,000 ticks without a decodable codeword take an UP port DOWN. A DOWN
port with a role trains again 100,000 ticks after it entered DOWN, and sends its IDENT. Training with 8 good
lanes ends UP where the peer's role and job are the port's own and the peer is no bridge, MISMATCH where they
differ, DOWN without an identity, FAILED and logged with class 10 below 8 lanes; 5,000,000 ticks of it end DOWN.
A port of a panel that is lost, OFF or in reset is ABSENT unless FAILED. (Stated for a port that is no job port
of a partition, so that the void of R238 has its own statement.) -/
def Obligations.LanesTimersAndTraining : Prop :=
  (
    ∀ (o lane : Nat) (errs : List (Nat × BitVec 10)) (f : Nat) (s : State), o < 16 → lane < 13 →
      let P := s.port o
      (P.failed.getLsbD lane = false → P.bad.getLsbD lane = false → P.active.getLsbD lane = true → P.lanes.length = 12 → P.state = .up →
        P.sw = none → P.spare ≤ 12 → P.spare ∈ P.goodLanes → P.spare ≠ lane → P.active.getLsbD P.spare = false → 9 ≤ P.goodLanes.length → s.host.win = none →
        ∃ t f, exec (.laneFail o lane) s = goes t ∧ (t.port o).state = .up ∧ (t.port o).failed.getLsbD lane = true ∧
          (t.port o).sw.map Prod.snd = some 15 ∧ (t.port o).agreed = false ∧ (t.port o).active = P.active ∧
          (t.port o).line = P.line ++ f ∧ f.map Prod.fst = [6, 6, 6]) ∧
      (∀ act, let left := (P.goodLanes.filter (· != lane)).take 8
        P.failed.getLsbD lane = false → P.bad.getLsbD lane = false → P.state = .up → P.sw = some (act, 15) → act.getLsbD lane = true →
        (lanesIn act).length = 12 → 9 ≤ P.goodLanes.length → laneMask left ≠ P.active → s.host.win = none →
        ∃ t f, exec (.laneFail o lane) s = goes t ∧ (t.port o).state = .up ∧ (t.port o).failed.getLsbD lane = true ∧
          (t.port o).sw = some (laneMask left, 15) ∧ (t.port o).agreed = false ∧ (t.port o).active = P.active ∧
          (t.port o).line = P.line ++ f ∧ f.map Prod.fst = [6, 6, 6]) ∧
      (P.failed.getLsbD lane = false → P.bad.getLsbD lane = false → P.goodLanes.length ≤ 8 → (s.port o).role = .off → s.host.win = none →
        ∃ t, exec (.laneFail o lane) s = goes t ∧ (t.port o).state = .failed) ∧
      (P.failed.getLsbD lane = true → s.host.win = none → exec (.laneFail o lane) s = goes s) ∧
      (∀ act sp, P.sw = some (act, sp) → P.agreed = true → exec (.laneSwitch o) s =
        goes (s.onPort o (fun P => { P with active := act, spare := sp, sw := none, agreed := false }))) ∧
      (P.sw = none → exec (.laneSwitch o) s = goes s) ∧
      (P.state = .up → errs.length ≤ 15 → P.corr.length + errs.length ≤ 4096 → s.host.win = none → ∃ t, exec (.codewordReceive o errs f) s = goes t ∧ (t.port o).lastRx = s.now ∧
        (t.port o).fecUnc = P.fecUnc ∧ (t.port o).state = .up ∧
        ∀ i x, (i, x) ∈ errs → i < 544 → x ≠ 0 → (s.now, nth 0 P.lanes (i % P.lanes.length)) ∈ (t.port o).corr) ∧
      (∀ l, P.state = .up → errs.length ≤ 15 → s.host.win = none → l ∈ P.lanes → P.bad.getLsbD l = false →
        4096 < (P.corr.filter (fun c => decide (s.now < c.1 + 65536) && c.2 == l)).length →
        ∃ t, exec (.codewordReceive o errs f) s = goes t ∧ (t.port o).failed.getLsbD l = true) ∧
      (P.state = .up → s.host.win = none → 15 < ((errs.filter (fun e => decide (e.1 < 544) && e.2 != 0)).map (·.1)).dedup.length →
        ∃ t, exec (.codewordReceive o errs f) s = goes t ∧
          (((t.port o).fecUnc = min 255 (P.fecUnc + 1) ∧ (t.port o).spoilt = P.spoilt + min 4 f) ∨
            ((t.port o).fecUnc = P.fecUnc ∧ (t.port o).lastRx = s.now)))) ∧
  (
    ∀ (o : Nat) (s : State), o < 16 → jobOf s o = none → s.host.win = none →
      let P := s.port o
      (P.state = .up → P.buf ≠ [] → P.stuck < 7 →
        (2 ≤ P.gap.getD 0 → ∃ t, exec (.replay o) s = goes t ∧ (t.port o).replay = min 4095 (P.replay + 1) ∧ (t.port o).state = .up ∧
          (t.port o).stuck = P.stuck + 1 ∧ (t.port o).buf.map (fun b => (b.kind, b.fl.seq, b.fl.payload)) =
            P.buf.map (fun b => (b.kind, b.fl.seq, b.fl.payload)) ∧
          (t.port o).line = P.line ++ (t.port o).buf.map (fun b => (b.kind, b.fl))) ∧
        (P.lastAck + 200 ≤ s.now → ∃ t, exec (.replayTimeout o) s = goes t ∧ (t.port o).replay = min 4095 (P.replay + 1) ∧
          (t.port o).state = .up ∧ (t.port o).line = P.line ++ (t.port o).buf.map (fun b => (b.kind, b.fl)))) ∧
      (P.state = .up → P.buf ≠ [] → P.stuck = 7 → P.lastAck + 200 ≤ s.now → ∃ t, exec (.replayTimeout o) s = goes t ∧ (t.port o).state = .down) ∧
      (P.state = .up → P.lastRx + 1000 ≤ s.now → ∃ t, exec (.linkSignalLoss o) s = goes t ∧ (t.port o).state = .down) ∧
      (P.state = .up → s.now < P.lastRx + 1000 → exec (.linkSignalLoss o) s = goes s) ∧
      (P.state = .down → P.role ≠ .off → P.since + 100000 ≤ s.now → ∃ t, exec (.retrainAttempt o) s = goes t ∧ (t.port o).state = .training ∧
        (t.port o).retrain = min 255 (P.retrain + 1) ∧ (t.port o).ident = none ∧ (t.port o).line.map Prod.fst = [7]) ∧
      (P.state = .training →
        (P.goodLanes.length < 8 → ∃ u, exec (.trainingComplete o) s = goes (logErr 1 10 (o + 0x40) 0 15 0 u) ∧ (u.port o).state = .failed) ∧
        (8 ≤ P.goodLanes.length → P.ident = none → ∃ t, exec (.trainingComplete o) s = goes t ∧ (t.port o).state = .down) ∧
        (∀ d, 8 ≤ P.goodLanes.length → P.ident = some d → d.bridge = false →
          ∃ t, exec (.trainingComplete o) s = goes t ∧ (t.port o).state = (if d.role = P.role.code ∧ d.job = P.job then .up else .mismatch) ∧
            (t.port o).rxNext = 0 ∧ (t.port o).peerPort = d.port % 16 ∧ (t.port o).peerSerial = d.serial % 2 ^ 32) ∧
        (P.since + 5000000 ≤ s.now → ∃ t, exec (.trainingTimeout o) s = goes t ∧ (t.port o).state = .down)) ∧
      (portGone s o = true → P.state ≠ .failed → ∃ t, exec (.portAbsent o) s = goes t ∧ (t.port o).state = .absent) ∧
      (portGone s o = false → exec (.portAbsent o) s = goes s))

/-- FLIT_IDLE, FLIT_DATA, FLIT_DATA_END, FLIT_RESERVED: CRC, acknowledgement, credits and order. (R220, R223, R224,
R225, R227, 11_links.md) At a port that is UP: a flit spoilt by an uncorrectable codeword is discarded; of one
whose CRC is wrong only the CRC count and an acknowledgement that is due remain. A flit with a right CRC brings
its acknowledgement. IDLE gives its credits. A DATA or DATA_END flit with the sequence number expected, on a
channel that the role uses and with no flushing, gives its credits and joins the channel's receive buffer, and
the next number is expected modulo 4,096; one with another number joins no buffer and gives no credits, and the
number expected stays. A flit of a reserved kind counts as a protocol error and gives neither. A port that owes
an acknowledgement sends an IDLE that names the last good number. At a port that is not UP none of these flits
has an effect. -/
def Obligations.FlitsAreHeardInOrder : Prop :=
  ∀ (o : Nat) (f : Flit) (kind : BitVec 4) (s : State), o < 16 → 8 ≤ kind.toNat →
    let P := s.port o
    let wrong := goes (pumpAll (s.onPort o (fun P => { P with crc := inc 8 P.crc, ackDue := true })))
    let heard := s.onPort o (Port.hear s.now f)
    let idle := heard.onPort o (Port.gain f)
    let due := heard.onPort o (fun P => { P with ackDue := true })
    (P.state ≠ .up → exec (.flitIdle o f) s = goes s ∧ exec (.flitData o f) s = goes s ∧ exec (.flitDataEnd o f) s = goes s ∧
      exec (.flitReserved o kind f) s = goes s) ∧
    (P.state = .up → 0 < P.spoilt → exec (.flitData o f) s =
      goes (pumpAll (s.onPort o (fun P => { P with spoilt := P.spoilt - 1, ackDue := true })))) ∧
    (P.state = .up → P.spoilt = 0 → flitCrc 0 f ≠ f.crc.toNat → exec (.flitIdle o f) s = wrong) ∧
    (P.state = .up → P.spoilt = 0 → flitCrc 1 f ≠ f.crc.toNat → exec (.flitData o f) s = wrong) ∧
    (P.state = .up → P.spoilt = 0 → flitCrc 0 f = f.crc.toNat → exec (.flitIdle o f) s = goes (pumpAll idle) ∧
      (idle.port o).lastRx = s.now ∧ (idle.port o).buf = P.buf.drop (ackCovers P f.ack.toNat) ∧
      (f.credit ≠ 0 → (idle.port o).creditOf f.creditVc.toNat =
        min (bufferOf f.creditVc.toNat) (P.creditOf f.creditVc.toNat + f.credit.toNat))) ∧
    (P.state = .up → P.spoilt = 0 → flitCrc kind.toNat f = f.crc.toNat → ∃ u, exec (.flitReserved o kind f) s = goes (pumpAll u) ∧
      (u.port o).proto = min 255 (P.proto + 1) ∧ (u.port o).rxNext = P.rxNext ∧ (u.port o).rx = P.rx ∧ (u.port o).buf = P.buf ∧
      (u.port o).credits = P.credits) ∧
    (P.state = .up → P.spoilt = 0 → flitCrc 1 f = f.crc.toNat → f.seq.toNat ≠ P.rxNext → exec (.flitData o f) s = goes (pumpAll due) ∧
      (due.port o).rx = P.rx ∧ (due.port o).rxNext = P.rxNext ∧ (due.port o).credits = P.credits) ∧
    (P.state = .up → P.spoilt = 0 → f.seq.toNat = P.rxNext → P.role.uses f.vc.toNat = true → P.flushing = false →
      (flitCrc 1 f = f.crc.toNat → ∃ u, exec (.flitData o f) s = goes (pumpAll (pumpAll u)) ∧ (u.port o).rxNext = (P.rxNext + 1) % 4096 ∧
        Tab.get [] (u.port o).rx f.vc.toNat = Tab.get [] P.rx f.vc.toNat ++ [{ fin := false, fl := f }] ∧ (u.port o).proto = P.proto) ∧
      (flitCrc 2 f = f.crc.toNat → ∃ u, exec (.flitDataEnd o f) s = goes (pumpAll (pumpAll u)) ∧ (u.port o).rxNext = (P.rxNext + 1) % 4096 ∧
        Tab.get [] (u.port o).rx f.vc.toNat = Tab.get [] P.rx f.vc.toNat ++ [{ fin := true, fl := f }])) ∧
    (∀ v, P.state = .up → P.ackDue = true → ∃ g, (P.idles v 1).line = P.line ++ [(0, g)] ∧ g.ack = BitVec.ofNat 12 (P.rxNext + 4095) ∧
      (P.idles v 1).ackDue = false)

/-- FLIT_COMMIT, FLIT_VOID, FLIT_REJOIN, FLIT_LANE and FLIT_IDENT. (R222, R226, R227, R236, R239, R241, 11_links.md)
On a job port that is UP, in order and on channel 3: the module's own token that comes back in the open step
gives the partition its verdict; a token at a port whose role is not REDUCE counts as a protocol error. VOID for
the open step voids it with cause 5 and its down bit. REJOIN of the port's job is noted while the port is held.
REJOIN of another job puts the port in MISMATCH. LANE answers a lane switch asked for. IDENT in training is the
peer's identity; in MISMATCH one that differs from the one known starts training, in which the port sends its
own IDENT, and one that does not has no effect. -/
def Obligations.ControlFlitsOfTheJob : Prop :=
  ∀ (o k : Nat) (f : Flit) (s : State), o < 16 →
    let P := s.port o
    let J := s.job k
    let b := leNat f.payload
    (P.state = .up → P.spoilt = 0 → f.seq.toNat = P.rxNext → f.vc = 3 → jobOf s o = some k →
      (flitCrc 3 f = f.crc.toNat → P.role = .reduce → J.stepOpen = true → f.step.toNat = J.n → fld b 63 0 = Config.serial.toNat →
        J.tokenAt.isSome = true → ∃ u, exec (.flitCommit o f) s = goes (pumpAll u) ∧ (u.job k).back = some (b.testBit 112)) ∧
      (flitCrc 3 f = f.crc.toNat → P.role ≠ .reduce → ∃ u, exec (.flitCommit o f) s = goes (pumpAll u) ∧
        (u.port o).proto = min 255 (P.proto + 1) ∧ u.job k = J) ∧
      (flitCrc 4 f = f.crc.toNat → J.stepOpen = true → f.step.toNat = J.n → ∃ u, exec (.flitVoid o f) s =
        goes (pumpAll (voidStep k 5 ((leNat (f.payload.take 1)).testBit 0) u)) ∧ u.job k = J ∧ u.mem = s.mem) ∧
      (flitCrc 5 f = f.crc.toNat → f.job.toNat = P.job → J.hold = false → ∃ u, exec (.flitRejoin o f) s = goes (pumpAll u) ∧
        (u.port o).flushing = false ∧ (u.port o).rejoined = (P.rejoined || P.held) ∧ u.job k = J) ∧
      (flitCrc 5 f = f.crc.toNat → f.job.toNat ≠ P.job → ∃ u, exec (.flitRejoin o f) s = goes (pumpAll (portTo o .mismatch u)) ∧ u.job k = J)) ∧
    (P.state = .up → P.spoilt = 0 → flitCrc 6 f = f.crc.toNat → P.sw.isSome = true → s.host.win = none → ∃ u, exec (.flitLane o f) s = goes (trainEnds (pumpAll u)) ∧
      (u.port o).agreed = true ∧ (u.port o).sw = P.sw) ∧
    (P.state = .training → P.spoilt = 0 → flitCrc 7 f = f.crc.toNat → ∃ t d, exec (.flitIdent o f) s = goes t ∧ (t.port o).ident = some d ∧ d.job = f.job.toNat ∧
      (t.port o).lastRx = s.now ∧ (t.port o).state = .training) ∧
    (P.state = .mismatch → P.spoilt = 0 → flitCrc 7 f = f.crc.toNat → ∃ d, d.job = f.job.toNat ∧ d.serial = Config.identField 0 f.payload ∧
      (P.ident = some d → exec (.flitIdent o f) s = goes s) ∧
      (P.ident ≠ some d → ∃ t, exec (.flitIdent o f) s = goes t ∧ (t.port o).state = .training ∧ (t.port o).ident = some d ∧
        (t.port o).line.map Prod.fst = [7])) ∧
    (P.state = .up → P.spoilt = 0 → flitCrc 7 f = f.crc.toNat →
      exec (.flitIdent o f) s = goes (pumpAll ((s.onPort o (Port.hear s.now f)).onPort o (Port.gain f))))

/-- POST_SEND, POST_RECV, POST_REDUCE, POST_RELAY, ENTRY_COMPLETE, ADDEND_READ_RETRY and LNK_CFG_WRITE. (R229, R230,
R233, R237, R247, 11_links.md) Words of a post that name the command's operation and are well formed add an
entry, with the fields the words give it, at the end of its channel's queue where that holds fewer than 64;
where it holds 64 the port counts one more full queue and the queue stays. A malformed post changes no queue. A
post to a port in reset is answered TARGET_RESET. The host finds the status of a post that was not served, a
sequencer gets it as that of its store; both may post, and write LNK_CFG. An entry that has done all it must
leaves its queue and sets its flag at its panel. A refused stack request whose wait has passed is sent again.
LNK_CFG takes both timeouts, each at least 100, at once where no step is open and for the next step where one
is. -/
def Obligations.EntriesArePostedAndComplete : Prop :=
  ∀ (src : Source) (o code : Nat) (w0 w1 w2 w3 : W64) (op : PortOp) (c : Instr) (v : W64) (s : State), o < 16 →
    (code, op, c) ∈ [(1, PortOp.send, Instr.postSend src o w0 w1 w2 w3), (2, .recv, .postRecv src o w0 w1 w2 w3),
      (3, .reduce, .postReduce src o w0 w1 w2 w3), (4, .relay, .postRelay src o w0 w1 w2 w3)] →
    let P := s.port o
    let w := postWord w0 w1 w2 w3
    let vc := fld w 5 4
    let wrote := s.onPort o (fun P => { P with post := [(0, w0), (1, w1), (2, w2), (3, w3)] })
    let unit := fun (q : Nat) => 4 + (portsAt q).idxOf o
    let reached := match src with
      | .host => pcieUp s = true
      | .seq q => (portsAt q).idxOf o < (portsAt q).length ∧ ctlStatus s q (unit q) 0 = 0
    let answered := fun (st : Nat) (u : State) => match src with
      | .host => noteUnserved st u
      | .seq q => answerStf q (2 ^ 47 + q * 2 ^ 40 + unit q * 2 ^ 32 + 0x118) (leBytes 8 w3.toNat) st u
    (reached → fld w0.toNat 3 0 = code → postBad wrote o w = false → P.inReset = true → exec c s = goes (answered 0x07 wrote)) ∧
    (reached → fld w0.toNat 3 0 = code → postBad wrote o w = false → P.inReset = false → (Tab.get [] P.q vc).length < 64 →
      ∃ u, exec c s = goes (answered 0 (pumpAll u)) ∧ Tab.get [] (u.port o).q vc = Tab.get [] P.q vc ++ [entryOf o w src P.nextEntry op] ∧
        u.mem = s.mem) ∧
    (reached → fld w0.toNat 3 0 = code → postBad wrote o w = false → P.inReset = false → (Tab.get [] P.q vc).length = 64 →
      ∃ u, exec c s = goes (answered 0x0D u) ∧ (u.port o).q = P.q ∧ (u.port o).qFull = min 255 (P.qFull + 1)) ∧
    (reached → fld w0.toNat 3 0 = code → postBad wrote o w = true → exec c s = goes (answered 0x03 wrote)) ∧
    (∀ ch e, ch < 4 → (Tab.get [] P.q ch).find? (entryDone s o) = some e →
      ∃ t, exec (.entryComplete o ch) s = goes t ∧ (∀ x ∈ Tab.get [] (t.port o).q ch, x.id ≠ e.id) ∧
        (t.seq e.panel).flags = (s.seq e.panel).flags ||| (1#64 <<< e.flag) ∧
        (t.port o).lastSt = (if e.status = 0 then P.lastSt else e.status)) ∧
    (∀ ch tag q at_, ch < 4 → P.reqs = [(tag, q)] → q.vc = ch → q.phase = .retry at_ → at_ ≤ s.now →
      ∃ u m, exec (.addendReadRetry o ch) s = goes (pumpAll u) ∧ u.packets = s.packets ++ [m] ∧ m.dst = q.addr ∧ m.size = q.len ∧
        m.src = .port o ∧ m.tag = tag) ∧
    (let t := max 100 (fld v.toNat 47 32)
      let d := max 100 (fld v.toNat 31 0)
      (reached → (∀ k, portPart s o = some k → (s.job k).stepOpen = false) → exec (.lnkCfgWrite src o v) s =
        goes (s.onPort o (fun P => { P with timeout := t, commitTimeout := d, cfgNext := none }))) ∧
      (∀ k, reached → portPart s o = some k → (s.job k).stepOpen = true → exec (.lnkCfgWrite src o v) s =
        goes (s.onPort o (fun P => { P with cfgNext := some (t, d) }))))

/-- Training steps open, decide, are voided and held. (R63, R108, R109, R238, R239, R240, R242, R250, R252, R255,
11_links.md, 12_training_step.md) When every panel of a partition outside HOLD has arrived at STEP_BEGIN with
the same step number and none repeats, the step is open with that number; every core of its panels has flag 0
and a closed gate, and every sequencer runs on with its snapshot taken. Every panel with another number than the
first panel's faults with STEP, and the partition is in HOLD. Once every panel has given its sample and no
REDUCE or RELAY entry of the step is left, the non-finite state is the or of the sample and the ports'. With the
own token's flag the step is decided: APPLY where flag and replay are 0, else SKIP; every core of its panels has
that gate and a sequencer at STEP_END goes on with the verdict in its p register. A void of a partition outside
HOLD puts it in HOLD with no step open: the open step, or the one after the step last begun, is the voided one,
the cause is recorded and the void counted, the down bit is that of the cause; the entries of its job ports are
gone, and a sequencer that ran in the open step is in FROG at its frog point with the registers of its snapshot.
A reduce message with a gap of timeout ticks in the open step voids it with cause 2, a token out for
commit_timeout ticks with cause 3. An UP job port in a hold sends REJOIN 1,024 ticks after the last. HOLD ends
where no down bit is set, the ports agree, the proposal has stood for 16,384 ticks and the rollback limit is not
met: the partition repeats the step proposed and sequencers in FROG run, and no further void counts where no
record from that step on is to be voided, one where one is; before 16,384 ticks nothing changes. -/
def Obligations.StepsOpenDecideAndAreVoided : Prop :=
  (
    ∀ (k : Nat) (s : State), k < 4 → (s.part k).defined = true →
      let J := s.job k
      (∀ n, J.hold = false → J.stepOpen = false → J.repeating = none → stepPanels s k ≠ [] →
        (∀ p ∈ stepPanels s k, (∃ e ∈ J.begun, e.1 = p) ∧ Tab.get 0 J.begun p = n) →
        ∃ t, exec (.stepOpen k) s = goes t ∧ (t.job k).stepOpen = true ∧ (t.job k).n = n ∧ (t.job k).begun = [] ∧ (t.job k).sample = false ∧
          (∀ m, panelOf m ∈ panelsOf s k → (t.core m).flag = false ∧ (t.core m).gate = .closed) ∧
          (∀ p ∈ stepPanels s k, (t.seq p).state = .running ∧ (t.seq p).stepOpen = true ∧ (t.seq p).step = BitVec.ofNat 32 n ∧
            (t.seq p).snap = some { regs := (s.seq p).regs, loops := (s.seq p).loops, frog := (s.seq p).pc } ∧
            (t.seq p).pc = (loopNext (s.seq p).pc (s.seq p).loops.reverse).1 % 65536 ∧
            (t.seq p).loops = (loopNext (s.seq p).pc (s.seq p).loops.reverse).2.reverse)) ∧
      (∀ q ∈ stepPanels s k, J.hold = false → J.stepOpen = false → J.repeating = none →
        (∀ p ∈ stepPanels s k, partOf s p = some k ∧ ∃ e ∈ J.begun, e.1 = p) → Tab.get 0 J.begun q ≠ Tab.get 0 J.begun (leadPanel s k) →
        ∃ t, exec (.stepOpen k) s = goes t ∧ (t.job k).stepOpen = false ∧ (t.job k).hold = true ∧
          ∀ p ∈ stepPanels s k, Tab.get 0 J.begun p ≠ Tab.get 0 J.begun (leadPanel s k) → (t.seq p).state = .fault ∧ (t.seq p).fault = some .step) ∧
      (J.stepOpen = true → J.nf = none → (∀ p ∈ stepPanels s k, Tab.get false J.ended p = true) → reduceLeft s k J.n = false →
        ∃ t, exec (.reductionDone k) s = goes t ∧ (t.job k).nf = some (J.sample || (jobPorts s k).any (fun o => (s.port o).nf)) ∧
          (t.job k).tokenAt = some s.now ∧ (t.job k).heldToks = [] ∧ (t.job k).stepOpen = true) ∧
      (∀ f nf, J.stepOpen = true → J.back = some f → J.nf = some nf →
        let apply := !f && !J.replay
        ∃ t, exec (.decideStep k) s = goes t ∧ (t.job k).stepOpen = false ∧ (t.job k).lastStep = J.n ∧
          (J.replay = false → (t.job k).decided = some (J.n, apply)) ∧
          (t.job k).skips = (if apply then J.skips else min 255 (J.skips + 1)) ∧
          (∀ m, m < 35328 → panelOf m ∈ panelsOf s k → (t.core m).gate = (if apply then .apply else .skip)) ∧
          (∀ p d, p ∈ panelsOf s k → (s.seq p).wait = some (.stepEnd d) → (t.seq p).state = .running ∧
            (t.seq p).regs = (s.seq p).regs.setP d apply ∧ (t.seq p).pc = (loopNext (s.seq p).pc (s.seq p).loops.reverse).1 % 65536))) ∧
  (
    ∀ (k o cause : Nat) (s : State), k < 4 → o < 16 → (s.part k).defined = true →
      let J := s.job k
      (1 ≤ cause → cause ≤ 10 → J.hold = false → ∃ t, exec (.stepVoid k cause) s = goes t ∧ (t.job k).hold = true ∧ (t.job k).stepOpen = false ∧
        (t.job k).cause = cause ∧ (t.job k).down = causeDown cause ∧ (t.job k).voids = min 255 (J.voids + 1) ∧
        (t.job k).voided = (if J.stepOpen then J.n else (((hdrOf s k).begun + 1) % 2 ^ 32)) ∧
        (∀ i ∈ jobPorts s k, (t.port i).q = []) ∧
        (∀ p n, J.stepOpen = true → p ∈ panelsOf s k → (s.seq p).state = .running → (s.seq p).snap = some n →
          (t.seq p).state = .frog ∧ (t.seq p).pc = n.frog ∧ (t.seq p).regs = n.regs)) ∧
      (∀ e, jobOf s o = some k → (s.port o).role = .reduce → J.stepOpen = true → e ∈ (s.port o).entries → e.op = .reduce → e.step = J.n →
        e.last = false → 0 < e.got → (s.port o).lastReduce + (s.port o).timeout ≤ s.now →
        exec (.reduceGapTimeout o) s = goes (voidStep k 2 false s)) ∧
      (jobOf s o = some k → s.now < (s.port o).lastReduce + (s.port o).timeout → exec (.reduceGapTimeout o) s = goes s) ∧
      (∀ a c, J.stepOpen = true → J.tokenAt = some a → J.back = none → commitPort s k = some c → a + (s.port c).commitTimeout ≤ s.now →
        exec (.commitTimeout k) s = goes (voidStep k 3 false s)) ∧
      (J.tokenAt = none → exec (.commitTimeout k) s = goes s) ∧
      (jobOf s o = some k → J.hold = true → (s.port o).state = .up → (s.port o).rejoinAt + 1024 ≤ s.now →
        ∃ t, exec (.rejoinSend o) s = goes t ∧ (t.port o).rejoinAt = s.now ∧ t.job k = J ∧ t.mem = s.mem) ∧
      (jobOf s o = some k → s.now < (s.port o).rejoinAt + 1024 → exec (.rejoinSend o) s = goes s) ∧
      (J.hold = true → J.down = false → J.stopped = false → portsAgree s k = true → J.resumeAt + 16384 ≤ s.now → J.resume ≠ 0xFFFFFFFF →
        tooFar s k J.resume = false → ∃ t, exec (.holdEnd k) s = goes t ∧ (t.job k).hold = false ∧ (t.job k).repeating = some J.resume ∧
          (∀ p ∈ panelsOf s k, (s.seq p).state = .frog → (t.seq p).state = .running) ∧
          (let later := (List.range 1024).filter (fun i => decide ((recOf s k i).state ≠ 0 ∧ (recOf s k i).state ≠ 2 ∧ J.resume ≤ (recOf s k i).step))
           (later = [] → (t.job k).voids = J.voids) ∧ (∀ i, later = [i] → (t.job k).voids = min 255 (J.voids + 1)))) ∧
      (s.now < J.resumeAt + 16384 → exec (.holdEnd k) s = goes s) ∧
      (J.down = true → exec (.holdEnd k) s = goes s))

/-- PANEL_REST_ENTRY and PANEL_WAKE. (R64, R302, R303, R304, R306, 14_power_and_clocks.md) A panel in PREST whose
cores all rest, whose event has not occurred and whose requests are answered enters SLEEP where the ceiling is
SLEEP, saving is allowed, the learned cost of SLEEP with its break-even fits the horizon and no drain is queued;
else NAP where the ceiling is NAP or SLEEP and the cost of NAP fits; where neither fits it stays ACTIVE and only
waits. One whose event has occurred goes on. While a core does not rest nothing changes. A resting panel that is
asked to wake, or whose event has occurred, becomes ACTIVE, its stack with it (in self-refresh while the session
is SUSPENDED), learns the cost of its round trip unless the wake is forced, and counts one wake while at most 16
inrush units are in use with its own and no deferred wake can start before it; else the wake is deferred, behind
those that wait, and counted. -/
def Obligations.PanelsRestAndWake : Prop :=
  ∀ (p : Nat) (s : State), p < 64 →
    let P := s.panel p
    (∀ r, (s.seq p).state = .prest → (s.seq p).prest = some r → r.since = none → panelRuns P = true → hangHolds s p = false →
      let waits := { r with since := some s.now }
      ((∀ n ∈ coresHeld s p, coreAtRest s n = true) → prestEvent s p waits = false →
        (restChoice s p r = .active → exec (.panelRestEntry p) s = goes (s.onSeq p (fun q => { q with prest := some waits }))) ∧
        (ceilingOf s p = 2 ∨ (ceilingOf s p = 3 ∧ (r.saveOk = false ∨ r.horizon < wcost s p 3 + beven p 3)) → wcost s p 2 + beven p 2 ≤ r.horizon → (∀ n ∈ coresHeld s p, (s.core n).outst = []) →
          ∃ t, exec (.panelRestEntry p) s = goes t ∧ (t.panel p).power = .nap ∧ (t.stack p).power = .powerDown ∧
            (t.seq p).state = .prest ∧ (t.seq p).prest.map PrestRec.resting = some true) ∧
        (ceilingOf s p = 3 → r.saveOk = true → wcost s p 3 + beven p 3 ≤ r.horizon →
          (∀ n ∈ coresHeld s p, (s.core n).outst = [] ∧ (s.core n).m0.queue = [] ∧ (s.core n).m1.queue = []) →
          ∃ t, exec (.panelRestEntry p) s = goes t ∧ (t.panel p).power = .sleep ∧ (t.stack p).power = .selfRefresh) ∧
        (ceilingOf s p < 2 → restChoice s p r = .active) ∧
        (r.horizon < wcost s p 2 + beven p 2 → r.horizon < wcost s p 3 + beven p 3 → restChoice s p r = .active)) ∧
      ((∀ n ∈ coresHeld s p, coreAtRest s n = true) → prestEvent s p waits = true → exec (.panelRestEntry p) s = goes (prestDone p r s)) ∧
      ((∃ n ∈ coresHeld s p, coreAtRest s n = false) → exec (.panelRestEntry p) s = goes s)) ∧
    (∀ forced, P.power = .nap ∨ P.power = .sleep → P.lost = false → P.shorted = false →
      ((∃ w, P.wake = some w ∧ w.deferred = false ∧ w.forced = forced) ∨ (P.wake = none ∧ restCalls s p = true ∧ forced = false)) →
      let j := if P.power = .nap then 2 else 3
      let w := wcost s p j
      (firstFits s = false → unitsInUse s + wakeUnits P.power ≤ 16 → ∃ t, exec (.panelWake p) s = goes (closeEnds t) ∧ (t.panel p).power = .active ∧ (t.panel p).wake = none ∧
        (t.panel p).wakes = min 65535 (P.wakes + 1) ∧ (t.stack p).power = wakePower s p ∧
        (forced = false → ∃ m, m < 2 ^ 20 ∧ wcost t p j = (if w ≤ m then m else w - (w - m) / 8)) ∧ (forced = true → wcost t p j = w)) ∧
      (firstFits s = true ∨ 16 < unitsInUse s + wakeUnits P.power → ∃ t, exec (.panelWake p) s = goes (closeEnds t) ∧ (t.panel p).power = P.power ∧
        (t.panel p).deferred = min 255 (P.deferred + 1) ∧ t.power.deferred = s.power.deferred ++ [p] ∧
        t.power.inrushDeferred = min 65535 (s.power.inrushDeferred + 1) ∧ t.mem = s.mem)) ∧
    (P.power = .active → exec (.panelWake p) s = goes (closeEnds s))

/-- Every command of the window: refused while one runs, checked in order, and completed with its code. (R278, R279,
R280, R320, R339, 13_host_and_sessions.md) With PCIe down a command changes nothing. While a command holds the
window, another one changes neither the status word nor the window: it is counted, and recorded where no refusal
was recorded. On a free window a command that the module state does not allow completes at once with
BAD_ARGUMENT or WRONG_STATE, with its opcode and tag in the status and every result 0, and no memory, panel,
partition or core changes. An undefined opcode completes BAD_ARGUMENT in any state. -/
def Obligations.CommandsAreLatchedOrTurnedAway : Prop :=
  ∀ (q : Cmd) (s : State) (op : Nat) (c : Instr),
    (op, c) ∈ [(0x01, Instr.identify q), (0x02, Instr.sessionOpen q), (0x03, Instr.sessionResume q), (0x04,
      Instr.sessionClose q), (0x05, Instr.attest q), (0x10, Instr.partitionDefine q), (0x11, Instr.partitionPower
      q), (0x12, Instr.panelWave q), (0x13, Instr.gaugeCheck q), (0x20, Instr.loadImage q), (0x21,
      Instr.contextLaunch q), (0x22, Instr.contextStop q), (0x23, Instr.stepRelease q), (0x30, Instr.linkTrain q),
      (0x31, Instr.linkRole q), (0x40, Instr.reset q), (0x41, Instr.bindOff q), (0x50, Instr.darn q), (0x51,
      Instr.fence q), (0x52, Instr.retirePage q), (0x53, Instr.scrub q), (0x54, Instr.zeroize q), (0x60,
      Instr.debugUnlock q), (0x61, Instr.debugLock q), (0x70, Instr.firmwareUpdate q), (0x71, Instr.recoveryImage q)] →
    let H := s.host
    (pcieUp s = false → exec c s = goes s) ∧
    (∀ w, pcieUp s = true → H.win = some w → ∃ t, exec c s = goes t ∧ t.host.win = H.win ∧ t.host.code = H.code ∧ t.host.opcode = H.opcode ∧
      t.host.tag = H.tag ∧ t.host.res = H.res ∧ t.host.rejCount = min 255 (H.rejCount + 1) ∧ t.host.rejValid = true ∧
      (H.rejValid = false → t.host.rejTag = q.tag.toNat ∧ t.host.rejOp = op) ∧ (H.rejValid = true → t.host.rejTag = H.rejTag) ∧
      t.mem = s.mem ∧ t.panels = s.panels ∧ t.parts = s.parts ∧ t.cores = s.cores) ∧
    (pcieUp s = true → H.win = none → stateAllows s op = false → ∃ t, exec c s = goes t ∧ t.host.win = none ∧
      (t.host.code = 0x03 ∨ t.host.code = 0x04) ∧ t.host.opcode = op ∧ t.host.tag = q.tag.toNat ∧ t.host.res = List.replicate 8 0 ∧
      t.mem = s.mem ∧ t.panels = s.panels ∧ t.parts = s.parts ∧ t.cores = s.cores) ∧
    (∀ v : BitVec 8, opMeaning v.toNat = none → pcieUp s = true → H.win = none → ∃ t, exec (.undefinedCommand v q) s = goes t ∧
      t.host.win = none ∧ t.host.code = 0x03 ∧ t.host.opcode = v.toNat ∧ t.host.tag = q.tag.toNat ∧ t.mem = s.mem ∧ t.panels = s.panels)

/-- Host commands on partitions, links and sessions. (R282, R299, R320, R324, R226, R228, R288, R289, R290, R291,
R361, 13_host_and_sessions.md) On a READY module with a free window and legal arguments: IDENTIFY returns the
serial and the repair summary; PARTITION_DEFINE makes an undefined partition of the panels named, none of them
in a partition, mirrored where it says so and their number is even (mirror_lost where a partner is lost), and
removes one without a session; PARTITION_POWER records the ceiling and runs as a partition command, one to OFF
asking each live panel to go OFF; PANEL_WAVE raises every panel named that is OFF or lost, at most four, and
holds the window, taking 4 inrush units for one while 12 or fewer are in use and no wake is deferred;
GAUGE_CHECK completes OK with 0 where nothing differs and TOPOLOGY_MISMATCH where something does; LINK_TRAIN
puts a DOWN port into TRAINING and holds the window, and completes for a port that is UP; LINK_ROLE gives a port
of a partition, under a job id that no other partition uses, its role and trains it, or with role OFF turns it
OFF; a job port needs an OPEN session, and its partition loads its records: a new job id starts fresh, and
records of a step begun and not applied put it in HOLD with that step voided. With the lifecycle PROVISIONED, no
lockout and a READY partition: phase 0 draws a challenge, records it with its partition and method and returns
its nonce; phase 1 with a good proof of the pending challenge makes the session OPEN, with a new key for
SESSION_OPEN and the kept key for SESSION_RESUME, and clears the failures; with a bad proof it completes
NOT_AUTHORISED, the challenge is consumed, one failure counts and the session stays. SESSION_CLOSE of an OPEN
session whose partition runs nothing, or with force, makes it CLOSED, destroys the key and leaves every
scratchpad byte of the partition 0; while panels of the partition rest it holds the window and asks each to wake
first. ATTEST writes the report over the nonce with its signature to SEC_REPORT. -/
def Obligations.PartitionLinkAndSessionCommands : Prop :=
  (
    ∀ (q : Cmd) (s : State), pcieUp s = true → s.host.win = none → s.mstate = .ready →
      let a := q.a0.toNat
      let done := fun (t : State) (op code : Nat) => t.host.win = none ∧ t.host.code = code ∧ t.host.opcode = op ∧ t.host.tag = q.tag.toNat
      let holds := fun (t : State) (op : Nat) (l : List Nat) => (t.host.win.map Win.op) = some op ∧ (t.host.win.map Win.wait) = some l
      let k := fld a 1 0
      let K := s.part k
      (argsFrom q 0 = false → ∃ t, exec (.identify q) s = goes t ∧ done t 0x01 0 ∧ t.host.res.getD 0 0 = BitVec.ofNat 64 Config.serial.toNat ∧
        t.host.res.getD 1 0 = BitVec.ofNat 64 (repairWord s) ∧ t.panels = s.panels ∧ t.mem = s.mem) ∧
      (let x0 := fld a 10 8
        let y0 := fld a 14 12
        let x1 := fld a 18 16
        let y1 := fld a 22 20
        let made : Part := { Part.init with defined := true, x0 := x0, y0 := y0, x1 := x1, y1 := y1, commanded := a.testBit 25, mirroring := a.testBit 24 }
        strays a 0x83777703 = false → argsFrom q 1 = false → K.cmd = none →
        (a.testBit 31 = false → (a.testBit 24 = true → ((x1 + 1 - x0) * (y1 + 1 - y0)) % 2 = 0) → x0 ≤ x1 → y0 ≤ y1 → K.defined = false →
          (∀ p, p < 64 → x0 ≤ p % 8 → p % 8 ≤ x1 → y0 ≤ p / 8 → p / 8 ≤ y1 → partOf s p = none) →
          ∃ t, exec (.partitionDefine q) s = goes t ∧ done t 0x10 0 ∧ t.part k = made ∧
            ∀ p, p < 64 → made.has p = true → (t.stack p).mirrored = a.testBit 24 ∧
              (t.stack p).mirrorLost = (a.testBit 24 && (match partnerOf t p with | some r => (t.panel r).lost | none => false))) ∧
        (a.testBit 31 = true → K.defined = true → (K.session = .none ∨ K.session = .closed) → s.ubide.dbg ≠ 2 →
          ∃ t, exec (.partitionDefine q) s = goes t ∧ done t 0x10 0 ∧ t.part k = Part.init ∧
            ∀ p, p < 64 → K.has p = true → (t.stack p).mirrored = false ∧ (t.stack p).key = none)) ∧
      (let goal := fld a 9 8;
        strays a 0x3303 = false → argsFrom q 1 = false → goal ≠ 3 → K.defined = true → K.cmd = none → (goal = 0 ∨ s.power.tripPin = false) →
        (goal = 0 → K.session ≠ .opened ∧ K.session ≠ .suspended) → (goal ≤ 1 → partResident s k = false) →
        ∃ t, exec (.partitionPower q) s = goes t ∧ done t 0x11 0 ∧ (t.part k).ceiling = fld a 13 12 ∧ (t.part k).opcode = 0x11 ∧
          ((t.part k).cmd.map PCmd.goal) = some goal ∧
          (goal = 0 → ∀ p ∈ panelsOf s k, (s.panel p).lost = false → (s.panel p).power ≠ .off → (t.panel p).offReq = true)) ∧
      (let named := allPanels.filter (fun p => a.testBit p)
        ∀ z ∈ named, raisable (s.panel z) = true → argsFrom q 1 = false → s.power.tripPin = false → (∀ p ∈ named, inAutoWave s p = false) →
        (named.filter (fun p => (s.panel p).lost || decide ((s.panel p).power = .off))).length ≤ 4 →
        ∃ t, exec (.panelWave q) s = goes t ∧ holds t 0x12 named ∧ ∀ p ∈ named, raisable (s.panel p) = true → (t.panel p).bring = .due) ∧
      (∀ p, p < 64 → a = 2 ^ p → argsFrom q 1 = false → s.power.tripPin = false → inAutoWave s p = false → (s.panel p).power = .off →
        (s.panel p).lost = false → (s.panel p).bring = .none → s.power.deferred = [] → unitsInUse s ≤ 12 →
        ∃ t, exec (.panelWave q) s = goes t ∧ holds t 0x12 [p] ∧ (t.panel p).bring = .due ∧ unitsInUse t = unitsInUse s + 4) ∧
      (argsFrom q 0 = false → let d := gaugeDiffs s (broughtPanels s allPanels) s.cast.failed
        (d = [] → ∃ t, exec (.gaugeCheck q) s = goes t ∧ done t 0x13 0 ∧ t.host.res.getD 0 0 = 0) ∧
        (d ≠ [] → ∃ t, exec (.gaugeCheck q) s = goes t ∧ done t 0x13 0x0A ∧ t.host.res.getD 0 0 = BitVec.ofNat 64 (gaugeWord d))) ∧
      (∀ o, o < 16 → a = 2 ^ o → argsFrom q 1 = false →
        ((s.port o).state = .down ∨ (s.port o).state = .mismatch → (s.port o).role ≠ .off → (s.port o).inReset = false → ∃ t, exec (.linkTrain q) s = goes t ∧
          holds t 0x30 [o] ∧ (t.port o).state = .training ∧ (t.port o).ident = none) ∧
        ((s.port o).state = .up → ∃ t, exec (.linkTrain q) s = goes t ∧ done t 0x30 0 ∧ t.host.res.getD 0 0 = BitVec.ofNat 64 (2 ^ o) ∧
          t.host.res.getD 1 0 = 0 ∧ t.port o = s.port o)) ∧
      (let o := fld a 3 0
        let J := fld a 31 16;
        ∀ j, strays a 0xFFFF00FF = false → argsFrom q 1 = false → portPart s o = some j → (s.part j).cmd = none →
        (s.port o).entries = [] → (s.job j).stepOpen = false → portGone s o = false →
        ((s.port o).state = .off ∨ (s.port o).state = .down → fld a 6 4 = 0 → ∃ t, exec (.linkRole q) s = goes t ∧ done t 0x31 0 ∧
          (t.port o).role = .off ∧ (t.port o).state = .off) ∧
        ((s.port o).state = .off → (∀ r i, r < 16 → (s.port r).role.job = true → (s.port r).job = J → portPart s r = some i → i = j) →
          (fld a 6 4 = 4 → ∃ t, exec (.linkRole q) s = goes t ∧ done t 0x31 0 ∧ (t.port o).role = .feed ∧ (t.port o).job = J ∧
            (t.port o).state = .training) ∧
          (1 ≤ fld a 6 4 → fld a 6 4 ≤ 3 → (s.part j).session = .opened → ∃ t, exec (.linkRole q) s = goes t ∧ done t 0x31 0 ∧
            (t.port o).role = roleOf (fld a 6 4) ∧ (t.port o).commitOut = a.testBit 7 ∧ (t.port o).job = J ∧ (t.port o).state = .training ∧
            (t.port o).held = (t.job j).hold ∧ (t.port o).flushing = (t.job j).hold ∧
            (let h := hdrOf s j;
              (J ≠ h.job → (t.job j).decided = none ∧ (t.job j).repeating = none ∧ (t.job j).hold = (s.job j).hold) ∧
              (J = h.job → (s.job j).hold = true ∨ h.begun = h.applied → t.job j = s.job j) ∧
              (J = h.job → (s.job j).hold = false → (s.job j).decided = none → h.begun ≠ h.applied → h.begun ≠ freshStep →
                (t.job j).hold = true ∧ (t.job j).voided = h.begun ∧ (t.job j).down = true ∧ (t.job j).voids = (s.job j).voids)))))) ∧
  (
    ∀ (q : Cmd) (s : State), pcieUp s = true → s.host.win = none → s.mstate = .ready →
      let a := q.a0.toNat
      let b := q.a1.toNat
      let done := fun (t : State) (op code : Nat) => t.host.win = none ∧ t.host.code = code ∧ t.host.opcode = op ∧ t.host.tag = q.tag.toNat
      let holds := fun (t : State) (op : Nat) (l : List Nat) => (t.host.win.map Win.op) = some op ∧ (t.host.win.map Win.wait) = some l
      let k := fld a 1 0
      let K := s.part k
      (strays a 0x733 = false → argsFrom q 1 = false → K.cmd = none → s.ubide.dbg ≠ 3 → s.ubide.life = .provisioned → locked s = false →
        ∀ (c : Instr) (op : Nat) (resume : Bool), (c, op, resume) ∈ [(Instr.sessionOpen q, 0x02, false), (Instr.sessionResume q, 0x03, true)] →
        authState s k resume = true →
        (a.testBit 4 = false → ∃ t ch, exec c s = goes t ∧ done t op 0 ∧ t.ubide.challenge = some ch ∧ ch.n = k ∧ ch.byKey = a.testBit 5 ∧
          ch.idx = fld a 10 8 ∧ ch.since = s.now ∧ t.host.res.take 4 = (wordsOf 4 ch.nonce).map (BitVec.ofNat 64) ∧ t.parts = s.parts) ∧
        (∀ ch, a.testBit 4 = true → s.ubide.challenge = some ch → s.now ≤ ch.since + 10 ^ 9 → ch.n = k → ch.byKey = a.testBit 5 →
          ch.idx = fld a 10 8 →
          (proofOk s ch = true → ∃ t, exec c s = goes t ∧ done t op 0 ∧ (t.part k).session = .opened ∧ t.ubide.failures = 0 ∧
            t.ubide.challenge = none ∧ (t.part k).key = (if resume then K.key else some (Config.sessionKey s.ubide.nextKey))) ∧
          (proofOk s ch = false → ∃ t, exec c s = goes t ∧ done t op 0x02 ∧ t.parts = s.parts ∧ t.ubide.challenge = none ∧
            t.ubide.failures = min 255 (s.ubide.failures + 1) ∧ t.ubide.lastFail = s.now))) ∧
      (strays a 0x103 = false → argsFrom q 1 = false → K.cmd = none → K.session = .opened → (a.testBit 8 = true ∨ pstate s k = 3) →
        (restingOf s k = [] → ∃ t, exec (.sessionClose q) s = goes t ∧ done t 0x04 0 ∧ (t.part k).session = .closed ∧
          (t.part k).key = none ∧ ∀ n o, n < 35328 → o < spdSize → K.has (panelOf n) = true → memGet t.mem (spdKey n o) = 0) ∧
        (restingOf s k ≠ [] → ∃ t, exec (.sessionClose q) s = goes t ∧ holds t 0x04 (restingOf s k) ∧ (t.part k).session = .opened ∧
          ∀ p ∈ restingOf s k, (t.panel p).wake.isSome = true)) ∧
      (argsFrom q 4 = false → let r := reportBody s (leBytes 8 a ++ leBytes 8 b ++ leBytes 8 q.a2.toNat ++ leBytes 8 q.a3.toNat)
        ∃ t, exec (.attest q) s = goes t ∧ done t 0x05 0 ∧ t.host.res.getD 0 0 = 512 ∧
          t.mem = memPutBytes s.mem (2 ^ 48 + 0x11000) (r ++ fix 64 (Config.identitySign (sha512 r)))))

/-- Host commands on contexts and steps, and the end of long commands. (R52, R242, R281, R282, R287,
13_host_and_sessions.md, R289, R290, R319) In a partition with an OPEN session and no command running, with
legal arguments: CONTEXT_LAUNCH on a rectangle of live cores of ACTIVE panels with the basic split, none of
which holds the context, makes it resident on each, reports their number launched and 0 refused, and starts the
sequencers if told to; CONTEXT_STOP makes the context EMPTY on every live core of the rectangle, reports on how
many it was resident, and halts the sequencers if told to; ZEROIZE of a rectangle of a READY partition that
holds no context leaves its scratchpads 0; STEP_RELEASE of a RUNNING partition outside HOLD gives event kind 6
to its sequencers, and of one in HOLD with a down bit, its ports agreed and the rollback limit not met, ends the
hold and reports the step; LOAD_IMAGE of an image that no resident context bars and BIND_OFF run as partition
commands. The next automatic wave raises the next four panels of the list once no panel of the partition is
rising. PARTITION_POWER ends OK once its target holds with every table in force, LOAD_IMAGE once no section is
left, IMAGE_REJECTED where one was rejected. BIND_OFF whose limit has passed with its step open ends TIMEOUT;
once no step is open it ends OK and the partition is no longer busy. A window command past its limit ends
TIMEOUT, the panels of a PANEL_WAVE still rising having failed; before it nothing changes. A suspended session
that is not resumed within resume_s is CLOSED without its key; before that nothing changes. A lockout that has
expired leaves SESSION_OPEN and SESSION_RESUME free: the command itself changes no state. -/
def Obligations.ContextAndStepCommandsAndTheirEnd : Prop :=
  (
    ∀ (q : Cmd) (s : State), pcieUp s = true → s.host.win = none → s.mstate = .ready →
      let a := q.a0.toNat
      let b := q.a1.toNat
      let done := fun (t : State) (op code : Nat) => t.host.win = none ∧ t.host.code = code ∧ t.host.opcode = op ∧ t.host.tag = q.tag.toNat
      let k := fld a 1 0
      let K := s.part k
      K.cmd = none → K.session = .opened →
      (∀ r, rectOf b = some r → rectIn K r = true →
        let x := fld a 5 4
        (strays a 0x1FF33 = false → strays q.a2.toNat 0xFFFFF = false → q.a3 = 0 →
          (∀ p ∈ r.panels, (s.panel p).hub.split = Split.basic ∧ (s.panel p).hub.next = none ∧ (a.testBit 16 = true → (s.seq p).startable = true)) →
          (∀ n ∈ r.cores, panelRuns (s.panel (panelOf n)) = true ∧ isDead s n = false ∧ (s.ctxAt n x).resident = false ∧
            regionOk (s.core n) (fld a 11 8) = true) →
          ∃ t, exec (.contextLaunch q) s = goes t ∧ done t 0x21 0 ∧ t.host.res.getD 0 0 = BitVec.ofNat 64 r.cores.length ∧
            t.host.res.getD 1 0 = 0 ∧
            (∀ n ∈ r.cores, (t.ctxAt n x).resident = true ∧ (t.ctxAt n x).pc = q.a2.toNat % 2 ^ 20 ∧ (t.core n).gate = .closed) ∧
            (a.testBit 16 = true → ∀ p ∈ r.panels, (s.panel p).lost = false → (t.seq p).state = .running ∧ (t.seq p).pc = K.seqEntry % 65536)) ∧
        (strays a 0x133 = false → argsFrom q 2 = false →
          ∃ t, exec (.contextStop q) s = goes t ∧ done t 0x22 0 ∧
            t.host.res.getD 0 0 = BitVec.ofNat 64 (r.cores.filter (fun n => !isDead s n && (s.ctxAt n x).resident)).length ∧
            (∀ n ∈ r.cores, isDead s n = false → (t.ctxAt n x).resident = false) ∧
            (a.testBit 8 = true → ∀ p ∈ r.panels, (s.panel p).lost = false → (t.seq p).state = .halted)) ∧
        (strays a 0x3 = false → argsFrom q 2 = false → pstate s k = 3 → (∀ n ∈ r.cores, (s.core n).residents = false) →
          ∃ t, exec (.zeroize q) s = goes t ∧ done t 0x54 0 ∧ ∀ n ∈ r.cores, ∀ o, o < spdSize → memGet t.mem (spdKey n o) = 0)) ∧
      (strays a 0x3 = false → argsFrom q 1 = false → s.hang.active = false →
        ((s.job k).hold = false → pstate s k = 4 → ∃ t, exec (.stepRelease q) s = goes t ∧ done t 0x23 0 ∧
          ∀ p ∈ panelsOf s k, (t.seq p).release = true) ∧
        ((s.job k).hold = true → (s.job k).down = true → (s.job k).stopped = false → portsAgree s k = true → (s.job k).resume ≠ 0xFFFFFFFF →
          tooFar s k (s.job k).resume = false → ∃ t, exec (.stepRelease q) s = goes t ∧ done t 0x23 0 ∧
            t.host.res.getD 0 0 = BitVec.ofNat 64 (s.job k).resume ∧ (t.job k).hold = false ∧ (t.job k).repeating = some (s.job k).resume)) ∧
      (strays a 0x3 = false → argsFrom q 2 = false → b % 64 = 0 → b < 2 ^ 30 → pstate s k = 3 →
        (imagePlan k b (latch 0x20 q (writeArgs q s))).1.resident = false →
        ∃ t, exec (.loadImage q) s = goes t ∧ done t 0x20 0 ∧ (t.part k).opcode = 0x20 ∧ ((t.part k).cmd.map PCmd.kind) = some .image) ∧
      (strays a 0x3 = false → argsFrom q 2 = false → ∃ t, exec (.bindOff q) s = goes t ∧ done t 0x41 0 ∧ (t.part k).opcode = 0x41 ∧
        ((t.part k).cmd.map PCmd.kind) = some .bindOff ∧ ((t.part k).cmd.map PCmd.until_) = some (s.now + (if b = 0 then 10 ^ 9 else b)))) ∧
  (
    ∀ (k : Nat) (s : State), k < 4 →
      let K := s.part k
      (∀ c, K.cmd = some c → c.kind = .power → c.auto = true → c.left ≠ [] → (∀ p ∈ panelsOf s k, (s.panel p).bring = .none) →
        ∃ t, exec (.automaticWave k) s = goes t ∧ ((t.part k).cmd.map PCmd.left) = some (c.left.drop 4) ∧
          ∀ p ∈ c.left.take 4, raisable (s.panel p) = true → (t.panel p).bring = .due) ∧
      (K.cmd = none → exec (.automaticWave k) s = goes s) ∧
      (∀ c, K.cmd = some c → c.kind = .bindOff →
        (c.until_ ≤ s.now → (s.job k).stepOpen = true → ∃ t, exec (.bindOffTimeout k) s = goes t ∧ (t.part k).cmd = none ∧ (t.part k).code = 0x05) ∧
        (s.now < c.until_ → exec (.bindOffTimeout k) s = goes s) ∧
        ((s.job k).stepOpen = false → ∃ t, exec (.partitionCommandEnd k) s = goes t ∧ (t.part k).cmd = none ∧ (t.part k).code = 0 ∧
          (t.job k).hold = false) ∧
        ((s.job k).stepOpen = true → exec (.partitionCommandEnd k) s = goes s)) ∧
      (∀ c, K.cmd = some c → c.kind = .power → tablesHeld s = true → targetHeld s k c.goal = true →
        (c.goal = 0 ∨ (c.goal = 2 ∧ c.left = [] ∧ c.total = 0 ∧ ∀ p ∈ panelsOf s k, (s.panel p).bring = .none)) →
        ∃ t, exec (.partitionCommandEnd k) s = goes t ∧ (t.part k).cmd = none ∧ (t.part k).code = 0) ∧
      (∀ c, K.cmd = some c → c.kind = .image → castOf s k = none → ∃ t, exec (.partitionCommandEnd k) s = goes t ∧ (t.part k).cmd = none ∧
        (t.part k).code = (if c.reject.isSome then 0x0B else 0) ∧ (c.reject = none → (t.part k).seqEntry = c.goal)) ∧
      (∀ w l, s.host.win = some w → winLimit w.op = some l →
        (w.since + l ≤ s.now → w.op = 0x12 → ∃ t, exec .commandTimeout s = goes t ∧ t.host.win = none ∧ t.host.code = 0x05 ∧
          ∀ p ∈ w.wait, (s.panel p).bring ≠ .none → (t.panel p).bring = .none ∧ (t.panel p).power = .off ∧ p ∈ t.cast.failed) ∧
        (w.since + l ≤ s.now → w.op ≠ 0x12 → ∃ t, exec .commandTimeout s = goes t ∧ t.host.win = none ∧ t.host.code = 0x05 ∧ t.host.opcode = s.host.opcode ∧
          t.mem = s.mem ∧ t.panels = s.panels) ∧
        (s.now < w.since + l → exec .commandTimeout s = goes s)) ∧
      (K.session = .suspended →
        (K.suspendedAt + K.resumeS * 100000000 ≤ s.now → ∃ t, exec (.resumeTimeout k) s = goes t ∧ (t.part k).session = .closed ∧
          (t.part k).key = none) ∧
        (s.now < K.suspendedAt + K.resumeS * 100000000 → exec (.resumeTimeout k) s = goes s)) ∧
      exec .lockoutExpiry s = goes s ∧
      (s.ubide.failures < 5 ∨ s.ubide.lastFail + min (2 ^ (s.ubide.failures - 5)) 4096 * 100000000 ≤ s.now → locked s = false))

/-- RESET, DARN, FENCE, RETIRE_PAGE and SCRUB. (R205, R206, R329, R333, R344, 13_host_and_sessions.md) On a READY
module with a free window and legal arguments: RESET of a context, core, panel, partition or port whose panels
are neither OFF nor lost begins that reset of source 3 and holds the window; RESET of the module completes OK
and its reset fires 100,000 ticks later. DARN of a dead core of an ACTIVE panel that neither waits nor is being
darned puts it last among those that wait and holds the window; of a live core it fences it first. FENCE of the
good site of a live core marks the site bad and the core is FENCED. RETIRE_PAGE and SCRUB begin the retirement
and the pass on an awake stack and hold the window. -/
def Obligations.RepairAndStackCommands : Prop :=
  ∀ (q : Cmd) (s : State), pcieUp s = true → s.host.win = none → s.mstate = .ready →
    let a := q.a0.toNat
    let b := q.a1.toNat
    let done := fun (t : State) (op code : Nat) => t.host.win = none ∧ t.host.code = code ∧ t.host.opcode = op ∧ t.host.tag = q.tag.toNat
    let holds := fun (t : State) (op : Nat) (l : List Nat) => (t.host.win.map Win.op) = some op ∧ (t.host.win.map Win.wait) = some l
    (strays a 0x7 = false → argsFrom q 2 = false → s.rst.running = [] →
      (let level := fld a 2 0;
        level ∈ [0, 1, 2, 3, 6] → resetBad s level b = false → resetOwn s level b = 0 → ∃ t, exec (.reset q) s = goes t ∧ holds t 0x40 [] ∧
        t.rst.running = [{ source := 3, level := level, target := b, escalated := false, phase := .fired, since := s.now, at_ := s.now }] ∧
        t.rst.source = 3 ∧ t.rst.level = level ∧ t.rst.target = b) ∧
      (fld a 2 0 = 4 → b = 0 → ∃ t, exec (.reset q) s = goes t ∧ done t 0x40 0 ∧
        t.rst.running = [{ source := 3, level := 4, target := 0, escalated := false, phase := .fired, since := s.now + 100000, at_ := s.now + 100000 }])) ∧
    (argsFrom q 1 = false → a < 35328 → isHole s a = false →
      let P := s.panel (panelOf a)
      P.lost = false → P.power = .active → P.darn.phase = .idle → a ∉ P.darn.queue →
      (isDead s a = true → ∃ t, exec (.darn q) s = goes t ∧ holds t 0x50 [a] ∧ (t.panel (panelOf a)).darn.queue = P.darn.queue ++ [a]) ∧
      (isDead s a = false → ∃ t, exec (.darn q) s = goes t ∧ holds t 0x50 [a] ∧ (t.core a).power = .fenced ∧
        a ∈ (t.panel (panelOf a)).darn.queue)) ∧
    (∀ p i n, p < 64 → i < 600 → a = 2 ^ 32 * p + 2 ^ 31 + i → argsFrom q 1 = false → (s.panel p).lost = false → (s.panel p).power = .active →
      Tab.get false (s.panel p).bad i = false → coreAtSite s p i = some n → isDead s n = false →
      ∃ t, exec (.fence q) s = goes t ∧ done t 0x51 0 ∧ Tab.get false (t.panel p).bad i = true ∧ (t.core n).power = .fenced) ∧
    (a < 64 → (s.panel a).lost = false → stackAwake (s.stack a) = true →
      (b < 2 ^ 25 → argsFrom q 2 = false → (b < 0x1FB8000 ∨ 0x1FC0000 ≤ b) → (s.stack a).retiring = none → (s.stack a).entries.length < 1024 →
        (s.stack a).spares < 16384 → ∃ t, exec (.retirePage q) s = goes t ∧ holds t 0x52 [a] ∧ (t.stack a).retiring = some b ∧ t.mem = s.mem) ∧
      (b < 2 ^ 28 → argsFrom q 3 = false → 0 < q.a2.toNat → q.a2.toNat ≤ 2 ^ 20 → b + q.a2.toNat ≤ 2 ^ 28 →
        ∃ t, exec (.scrub q) s = goes t ∧ holds t 0x53 [a] ∧ (t.stack a).pass = some { unit := b, left := q.a2.toNat } ∧ t.mem = s.mem))

/-- DEBUG_UNLOCK, DEBUG_LOCK, FIRMWARE_UPDATE and RECOVERY_IMAGE. (R350, R363, R364, R372, R373,
17_security_debug_power.md) With a free window and legal arguments: DEBUG_UNLOCK to D1 from D0 raises the level
without a certificate; to D3, and to D2 of a partition with an OPEN session, with a good certificate it raises
the level and counts one unlock, with a bad one it completes NOT_AUTHORISED and counts a failure and a denial.
DEBUG_LOCK lowers the level, and from D3 schedules a MODULE reset. FIRMWARE_UPDATE of kind 0, 1 or 2 stores an
image of that kind that verifies and returns its version; one that does not verify is IMAGE_REJECTED and the
store stays. An owner record (kind 3) that R366 accepts is installed and its version returned, with the
lifecycle PROVISIONED, or RETIRED where it says retire; one that it does not completes with its code,
NOT_AUTHORISED counting a failure. A poisoned buffer is IMAGE_REJECTED. RECOVERY_IMAGE in RECOVERY stores such
an image, clears the failed starts and schedules a MODULE reset 100,000 ticks later. -/
def Obligations.SecurityCommands : Prop :=
  ∀ (q : Cmd) (s : State), pcieUp s = true → s.host.win = none →
    let a := q.a0.toNat
    let b := q.a1.toNat
    let done := fun (t : State) (op code : Nat) => t.host.win = none ∧ t.host.code = code ∧ t.host.opcode = op ∧ t.host.tag = q.tag.toNat
    (s.mstate = .ready → argsFrom q 1 = false →
      (a = 1 → s.ubide.dbg = 0 → ∃ t, exec (.debugUnlock q) s = goes t ∧ done t 0x60 0 ∧ t.ubide.dbg = 1) ∧
      (a = 3 → s.ubide.dbg = 0 → locked s = false →
        let c := memBytes s.mem (2 ^ 48 + 0x12000) 128
        (certOk s 3 c = true → ∃ t, exec (.debugUnlock q) s = goes t ∧ done t 0x60 0 ∧ t.ubide.dbg = 3 ∧
          t.ubide.unlocks = min (2 ^ 32 - 1) (s.ubide.unlocks + 1)) ∧
        (certOk s 3 c = false → ∃ t, exec (.debugUnlock q) s = goes t ∧ done t 0x60 0x02 ∧ t.ubide.dbg = 0 ∧
          t.ubide.denied = min 255 (s.ubide.denied + 1) ∧ t.ubide.failures = min 255 (s.ubide.failures + 1))) ∧
      (let c := memBytes s.mem (2 ^ 48 + 0x12000) 128
        let k := cutN c 6 1;
        a = 2 → s.ubide.dbg < 2 → locked s = false → k < 4 → (s.part k).session = .opened →
        (certOk s 2 c = true → ∃ t, exec (.debugUnlock q) s = goes t ∧ done t 0x60 0 ∧ t.ubide.dbg = 2 ∧ t.ubide.dpart = k ∧
          t.ubide.unlocks = min (2 ^ 32 - 1) (s.ubide.unlocks + 1)) ∧
        (certOk s 2 c = false → ∃ t, exec (.debugUnlock q) s = goes t ∧ done t 0x60 0x02 ∧ t.ubide.dbg = s.ubide.dbg ∧
          t.ubide.denied = min 255 (s.ubide.denied + 1) ∧ t.ubide.failures = min 255 (s.ubide.failures + 1))) ∧
      (a < s.ubide.dbg → s.ubide.dbg ≤ 3 → ∃ t, exec (.debugLock q) s = goes t ∧ done t 0x61 0 ∧ t.ubide.dbg = a ∧
        t.rst.running = s.rst.running ++ (if s.ubide.dbg = 3 then
          [{ source := 3, level := 4, target := 0, escalated := false, phase := .fired, since := s.now + 100000, at_ := s.now + 100000 }]
          else []))) ∧
    (s.mstate = .ready → argsFrom q 2 = false → a = 3 → b = 512 → s.ubide.dbg ≠ 3 → locked s = false →
      s.ubide.life = .provisioned ∨ s.ubide.life = .blank →
      let r := memBytes s.mem (2 ^ 49) 512
      let code := recordCode s r
      (bufferBad s 0 512 = true → ∃ t, exec (.firmwareUpdate q) s = goes t ∧ done t 0x70 0x0B ∧ t.ubide = s.ubide) ∧
      (bufferBad s 0 512 = false → code = 0 → ∃ t, exec (.firmwareUpdate q) s = goes t ∧ done t 0x70 0 ∧
        t.host.res.getD 0 0 = BitVec.ofNat 64 (cutN r 4 4) ∧ t.ubide.failures = 0 ∧
        (cutN r 89 1 % 2 = 0 → t.ubide.record = some r ∧ t.ubide.life = .provisioned ∧ t.mem = s.mem) ∧
        (cutN r 89 1 % 2 = 1 → t.ubide.record = none ∧ t.ubide.life = .retired)) ∧
      (bufferBad s 0 512 = false → code ≠ 0 → ∃ t, exec (.firmwareUpdate q) s = goes t ∧ done t 0x70 code ∧ t.ubide.record = s.ubide.record ∧
        t.ubide.life = s.ubide.life ∧ t.ubide.failures = (if code = 0x02 then min 255 (s.ubide.failures + 1) else s.ubide.failures))) ∧
    (s.mstate = .ready → argsFrom q 2 = false → a < 3 → 128 ≤ b → b ≤ 2 ^ 23 →
      let l := memBytes s.mem (2 ^ 49) b
      bufferBad s 0 b = false → cutN l 4 1 = a →
      (imageCode l s.ubide.floor = 0 → ∃ t, exec (.firmwareUpdate q) s = goes t ∧ done t 0x70 0 ∧
        t.host.res.getD 0 0 = BitVec.ofNat 64 (cutN l 8 4) ∧ (installed t a).bytes = l ∧ t.mem = s.mem) ∧
      (imageCode l s.ubide.floor ≠ 0 → ∃ t, exec (.firmwareUpdate q) s = goes t ∧ done t 0x70 0x0B ∧ t.ubide = s.ubide)) ∧
    (s.mstate = .recovery → argsFrom q 1 = false → 128 ≤ a → a ≤ 2 ^ 23 → s.rst.running = [] →
      let l := memBytes s.mem (2 ^ 49) a
      bufferBad s 0 a = false → cutN l 4 1 < 3 → imageCode l s.ubide.floor = 0 → ∃ t, exec (.recoveryImage q) s = goes t ∧ done t 0x71 0 ∧ t.rst.failedStarts = 0 ∧
        (installed t (cutN l 4 1)).bytes = l ∧
        t.rst.running = [{ source := 3, level := 4, target := 0, escalated := false, phase := .fired, since := s.now + 100000, at_ := s.now + 100000 }])

/-- BAR0, BAR2, the fabric window, the publish word, function level reset, D-states and MSI-X. (R268, R269, R270,
R271, R277, R284, 13_host_and_sessions.md) With PCIe up: an invalid BAR0 access completes Unsupported Request,
is counted and reported. BAR2 with the update buffer selected reads and writes its bytes, a write with EP
leaving them poisoned and a read of poisoned ones carrying EP; with a defined partition selected a read or a
write becomes one request to the staging area of its anchor stack. A refused one goes out again once its wait
has passed, counted, and not before. A BAR2 read not served within 5,000,000 ticks completes Completer Abort
with TIMEOUT; such a write stays out. FAB_DATA reads and writes a scratchpad where every check lets it, and a
refused access leaves its status and changes no memory. A sequencer's write at the result window from offset
0x40 is in the window, and one that meets the publish word sets partial; the host's read of that word clears it.
FLR resets the selections, the counters and MSI-X. D3hot is entered and left, and unmasking or D0 sends a
pending message. -/
def Obligations.HostAccessesOverPcie : Prop :=
  ∀ (a size y len n off p k x : Nat) (data : List Byte) (ep d3 : Bool) (v : W64) (s : State), pcieUp s = true → p < 64 → k < 4 →
    let H := s.host
    (bar0Valid a size = false → ∃ t, exec (.bar0AccessInvalid a size) s = goes t ∧ t.host.ur = min 65535 (H.ur + 1) ∧ t.host.aer = H.aer + 1 ∧ t.host.out.status = 1 ∧
      t.mem = s.mem ∧ t.panels = s.panels ∧ t.parts = s.parts) ∧
    (bar0Valid a size = true → exec (.bar0AccessInvalid a size) s = goes s) ∧
    (H.sel = 7 → 0 < len → len ≤ 4096 → y + len ≤ 2 ^ 23 →
      (∃ t, exec (.bar2Read y len) s = goes t ∧ t.host.out = { data := memBytes s.mem (2 ^ 49 + y) len, ep := bufferBad s y len, status := 0 } ∧
        t.mem = s.mem ∧ (bufferBad s y len = true → t.host.ep = min 65535 (H.ep + 1) ∧ t.host.lastSt = 0x0E)) ∧
      (data.length = len → len ≤ 512 → ∃ t, exec (.bar2Write y data ep) s = goes t ∧ memBytes t.mem (2 ^ 49 + y) len = data ∧
        (ep = true → bufferBad t y len = true) ∧ (ep = false → y % 64 = 0 → len % 64 = 0 → bufferBad t y len = false) ∧
        ∀ i, (i < 2 ^ 49 + y ∨ 2 ^ 49 + y + len ≤ i) → memGet t.mem i = memGet s.mem i)) ∧
    (H.sel = k → s.mstate ≠ .recovery → (s.part k).defined = true → 0 < len → len ≤ 4096 → y + len ≤ 2 ^ 30 →
      (∃ t m, exec (.bar2Read y len) s = goes t ∧ t.packets = s.packets ++ [m] ∧ m.op = .read ∧ m.src = .die ∧ m.size = len ∧
        m.dst = stackKey (anchorOf s k) 0x1FC0000000 + y) ∧
      (data.length = len → len ≤ 512 → ∃ t m, exec (.bar2Write y data ep) s = goes t ∧ t.packets = s.packets ++ [m] ∧ m.op = .write ∧ m.src = .die ∧
        m.size = len ∧ m.data = data ∧ m.pois = List.replicate (ceilDiv len 64) ep ∧ m.dst = stackKey (anchorOf s k) 0x1FC0000000 + y)) ∧
    (∀ tag q, H.reqs = [(tag, q)] → q.fab = false → q.aborted = false → q.since + 5000000 ≤ s.now →
      ∃ t, exec .hostCompletionAbort s = goes t ∧ t.host.lastSt = 0x05 ∧ t.host.ur = min 65535 (H.ur + 1) ∧
        (q.wr = false → t.host.out.status = 2 ∧ t.host.reqs = []) ∧ (q.wr = true → t.host.reqs = [(tag, { q with aborted := true })])) ∧
    (∀ tag q c, H.reqs = [(tag, q)] → q.phase = .retry c →
      let P := s.panel (hostPanel q)
      (P.cyc < c → P.lost = false → P.power ≠ .off → exec (.requestRetry none tag) s = goes s) ∧
      (c ≤ P.cyc ∨ P.lost = true ∨ P.power = .off → ∃ t m, exec (.requestRetry none tag) s = goes t ∧ t.packets = s.packets ++ [m] ∧
        m.dst = q.addr ∧ m.size = q.len ∧ m.tag = tag ∧ t.host.retry = min 65535 (H.retry + 1))) ∧
    (H.fabInc = false → H.fabAddr % 2 ^ H.fabSize = 0 → targetOf H.fabAddr (2 ^ H.fabSize) = some (.spd n off) →
      (fabCheck s H.fabAddr (2 ^ H.fabSize) false = 0 → beingCarried s n = false → hostSpdStatus s n off (2 ^ H.fabSize) = 0 →
        let r := (spdRead 3 n off (2 ^ H.fabSize) s).1
        ∃ t, exec .fabDataRead s = goes t ∧ t.host.fabStatus = (if r.bad = [] then 0 else 0x0E) ∧
          t.host.fabData = BitVec.ofNat 64 (leNat (fix 8 r.bytes))) ∧
      (fabCheck s H.fabAddr (2 ^ H.fabSize) true = 0 → beingCarried s n = false → hostSpdStatus s n off (2 ^ H.fabSize) = 0 →
        (s.core n).undef = [] → ∃ t, exec (.fabDataWrite v) s = goes t ∧ t.host.fabStatus = 0 ∧
          memBytes t.mem (spdKey n off) (2 ^ H.fabSize) = leBytes (2 ^ H.fabSize) v.toNat) ∧
      (∀ c, fabCheck s H.fabAddr (2 ^ H.fabSize) true = c → c ≠ 0 → ∃ t, exec (.fabDataWrite v) s = goes t ∧ t.host.fabStatus = c ∧
        t.host.lastSt = c ∧ t.mem = s.mem)) ∧
    (∀ q, (s.seq p).wait = some (.fabric q) → windowOffset p q.addr q.size = some x → q.wr = some data → q.phase = .sent → partOf s p = some k →
      0x40 ≤ x → ∃ t, exec (.publishWordWrite p x data) s = goes t ∧ memBytes t.mem (windowKey k x) data.length = data ∧
        (overlap x data.length 0x40 8 = true → (t.part k).partial_ = true)) ∧
    (∃ t, exec (.publishWordRead k) s = goes t ∧ t.host.out.data = memBytes s.mem (windowKey k 0x40) 8 ∧ (t.part k).partial_ = false ∧
      t.mem = s.mem) ∧
    (∃ t, exec .functionLevelReset s = goes t ∧ t.host.sel = 0 ∧ t.host.ur = 0 ∧ t.host.retry = 0 ∧ t.host.fabAddr = 0 ∧
      t.host.msixMasked = true ∧ t.host.msixPending = false ∧ t.host.win = H.win ∧ t.parts = s.parts ∧ t.panels = s.panels ∧ t.mem = s.mem) ∧
    (∃ t, exec (.pciePowerStateChange d3) s = goes t ∧ t.host.d3 = d3 ∧
      (d3 = true → t.host.msixSent = H.msixSent ∧ t.host.msixPending = H.msixPending) ∧
      (d3 = false → H.msixPending = true → H.msixMasked = false → t.host.msixSent = H.msixSent + 1 ∧ t.host.msixPending = false)) ∧
    (∃ t, exec .msixUnmask s = goes t ∧ t.host.msixMasked = false ∧
      (H.msixPending = true → H.d3 = false → t.host.msixSent = H.msixSent + 1 ∧ t.host.msixPending = false))

/-- PNL_POWER_OFF, PNL_TENSION_LIMIT_WRITE, PWR_CAP_WRITE, SEC_CFG_WRITE, ERR_TAIL_WRITE, REGISTER_WRITE,
CLEARING_READ. (R4, R6, R292, R301, R309, R313, R357, 13_host_and_sessions.md) With PCIe up: PNL_POWER.off from
the host on a panel of no partition without mirroring asks for OFF with status OK; in a partition whose session
is OPEN it is refused with WRONG_STATE, from a sequencer with ACCESS_DENIED, p7 0. PNL_TENSION.limit takes 0 to
5, 6 and 7 as 5. PWR_CAP takes its value clamped to 16,000 to 42,000. SEC_CFG.resume_s takes its value, 0 as 1.
ERR_TAIL frees the entries before it where it lies between tail and head and is else ignored. A write of
BAR2_SEL of 4 or 8 bytes takes its low three bits; a sequencer's write of its own flag register takes the whole
word. A read of HOST_STAT returns its four counters, which are then 0; one of its upper half returns and clears
only two. -/
def Obligations.RegistersAreWrittenAndRead : Prop :=
  ∀ (p : Nat) (l : BitVec 3) (c r : BitVec 16) (e : BitVec 9) (v : W64) (s : State), p < 64 → pcieUp s = true →
    let P := s.panel p
    let H := s.host
    (P.power ≠ .off → partOf s p = none → P.stack.mirrored = false → ∃ t, exec (.pnlPowerOff .host p) s = goes t ∧ (t.panel p).offReq = true ∧
      (t.panel p).reqSt = 0 ∧ (t.panel p).power = P.power) ∧
    (∀ k, partOf s p = some k → (s.part k).session = .opened → ∃ t, exec (.pnlPowerOff .host p) s = goes t ∧ (t.panel p).offReq = P.offReq ∧
      (t.panel p).reqSt = 0x04) ∧
    (∃ t, exec (.pnlPowerOff (.seq p) p) s = goes t ∧ (t.panel p).offReq = P.offReq ∧ (t.panel p).reqSt = 0x0F ∧
      (t.seq p).regs = (s.seq p).regs.setP 7 false) ∧
    (∃ t, exec (.pnlTensionLimitWrite .host p l) s = goes t ∧ (t.panel p).tension.limit = min l.toNat 5 ∧ (t.panel p).tension.step = P.tension.step) ∧
    exec (.pwrCapWrite c) s = goes (s.onPower (fun W => { W with cap := max 16000 (min c.toNat 42000) })) ∧
    exec (.secCfgWrite r) s = goes (s.onUbide (fun u => { u with resumeS := if r = 0 then 1 else r.toNat })) ∧
    (let n := (e.toNat + 512 - s.log.tail) % 512;
      (n ≤ s.log.held.length → ∃ t, exec (.errTailWrite e) s = goes t ∧ t.log.tail = e.toNat ∧ t.log.held = s.log.held.drop n ∧ t.log.head = s.log.head) ∧
      (s.log.held.length < n → exec (.errTailWrite e) s = goes s)) ∧
    (∀ size, size = 4 ∨ size = 8 → ∃ t, exec (.registerWrite .host ⟨0x0010, size⟩ v) s = goes t ∧ t.host.sel = v.toNat % 8 ∧ t.mem = s.mem) ∧
    (ctlStatus s p 1 8 = 0 → exec (.registerWrite (.seq p) ⟨2 * 2 ^ 46 + (p / 8) * 2 ^ 43 + (p % 8) * 2 ^ 40 + 2 ^ 32 + 8, 8⟩ v) s =
      goes (s.onSeq p (fun q => { q with flags := v }))) ∧
    (∃ t, exec (.clearingRead .host ⟨0x001C, 4⟩) s = goes t ∧ t.host.retry = 0 ∧ t.host.ur = 0 ∧ t.host.ep = H.ep ∧ t.host.lastSt = H.lastSt ∧
      t.host.out.data = leBytes 4 ((H.retry % 2 ^ 16) * 2 ^ 16 + H.ur % 2 ^ 16)) ∧
    (∃ t, exec (.clearingRead .host ⟨0x0018, 8⟩) s = goes t ∧ t.host.retry = 0 ∧ t.host.ur = 0 ∧ t.host.ep = 0 ∧ t.host.lastSt = 0 ∧
      t.host.out.data = leBytes 8 ((H.retry % 2 ^ 16) * 2 ^ 48 + (H.ur % 2 ^ 16) * 2 ^ 32 + (H.ep % 2 ^ 16) * 2 ^ 16 + (H.lastSt % 2 ^ 8) * 2 ^ 8))

/-- DBG_SEL, DBG_CTL, the debug window, JTAG and I3C address assignment. (R374, R375, R376, R377, R380, R388,
17_security_debug_power.md) With PCIe up: DBG_SEL selects core and context where the level is not D0 and the
selected core is not halted; while it is halted the write is refused with WRONG_STATE, at D0 with ACCESS_DENIED,
counted and recorded. Halt of a selected core that meets the checks stops its running context once its earlier
results have retired, and until then is only asked for; resume of a halted core restores it, and its halt is
over; step restores it, issues the bundle at its pc if it runs and asks for a halt again. A window access to the
selected scratchpad returns or stores its bytes, one to the image of a halted or stopped context its; at D0
every access to a range is refused; a read of the vendor range at D3 returns free bytes, and a write to it is
refused, since the manual gives neither contents nor effect. DBGACC reaches the window likewise from D2 on. A
JTAG instruction is selected, an undefined one is BYPASS, SAMPLE/PRELOAD captures the pins; a TAP reset selects
IDCODE. The I3C address assigned is held. -/
def Obligations.DebugHaltsResumesAndSteps : Prop :=
  ∀ (v : W64) (y size : Nat) (code : JtagCode) (da : BitVec 7) (s : State), pcieUp s = true →
    let n := s.dbg.core
    let D := s.dbg
    (s.ubide.dbg ≠ 0 → isHalted s n = false → ∃ t, exec (.dbgSelWrite v) s = goes t ∧ t.dbg.core = fld v.toNat 15 0 ∧
      t.dbg.ctx = fld v.toNat 17 16 ∧ t.cores = s.cores) ∧
    (s.ubide.dbg = 0 → ∃ t, exec (.dbgSelWrite v) s = goes t ∧ t.dbg = { D with lastSt := 0x0F } ∧ t.host.ur = min 65535 (s.host.ur + 1)) ∧
    (s.ubide.dbg ≠ 0 → isHalted s n = true → ∃ t, exec (.dbgSelWrite v) s = goes t ∧ t.dbg = { D with lastSt := 0x04 } ∧
      t.host.ur = min 65535 (s.host.ur + 1) ∧ t.cores = s.cores) ∧
    (dbgTarget s 2 ≠ 0 → ∀ c ∈ [Instr.dbgHalt, .dbgResume, .dbgStep], ∃ t, exec c s = goes t ∧ t.dbg.lastSt = dbgTarget s 2 ∧
      t.cores = s.cores ∧ t.host.ur = min 65535 (s.host.ur + 1)) ∧
    (let u : State := s.onCore n (fun c => { c with haltReq := true, stepReq := false });
      dbgTarget s 2 = 0 → (s.core n).halted = none →
      ((s.core n).active = true → (s.core n).boundary = none → (s.core n).power ≠ .doze → (s.panel (panelOf n)).live = true →
        (s.core n).still = true → ∃ t, exec .dbgHalt s = goes t ∧ (t.core n).halted = some (s.core n).cur ∧ (t.core n).held = none) ∧
      ((s.core n).active = false ∨ (s.core n).still = false ∨ (s.core n).boundary ≠ none ∨ (s.core n).power = .doze → exec .dbgHalt s = goes u)) ∧
    (dbgTarget s 2 = 0 → isHalted s n = true → exec .dbgHalt s = goes s) ∧
    (dbgTarget s 2 = 0 → isHalted s n = false → exec .dbgResume s = goes s ∧ exec .dbgStep s = goes s) ∧
    (∀ k, dbgTarget s 2 = 0 → (s.core n).halted = some k → (s.core n).haltReq = false → regionOk (s.core n) (s.ctxAt n k).region = true →
      loopsOk (s.ctxAt n k).loops = true →
      (∃ t, exec .dbgResume s = goes t ∧ (t.core n).halted = none ∧ (t.core n).haltReq = false) ∧
      (let u := (resumeCore n s).onCore n (fun c => { c with stepReq := true });
        (u.core n).active = true → (u.core n).boundary = none → (u.core n).halted = none ∧
          ((u.ctx n).state = .running → exec .dbgStep s = goes (haltTry n (issueRaw n (bundleAt u n) u))) ∧
          ((u.ctx n).state ≠ .running → exec .dbgStep s = goes u))) ∧
    (size = 4 ∨ size = 8 → y % size = 0 → 0x400000 ≤ y → y + size ≤ 0xA00000 → dbgTarget s 2 = 0 → hostSpdStatus s n (y - 0x400000) size = 0 →
      (∃ t, exec (.debugWindowAccess false y size false v) s = goes t ∧
        t.host.out.data = (spdRead 3 n (y - 0x400000) size s).1.bytes ∧ t.host.out.status = 0) ∧
      ((s.core n).undef = [] → ∃ t, exec (.debugWindowAccess false y size true v) s = goes t ∧ t.host.out.status = 0 ∧
        memBytes t.mem (spdKey n (y - 0x400000)) size = leBytes size v.toNat)) ∧
    (size = 4 ∨ size = 8 → y % size = 0 → 0x20000 ≤ y → y + size ≤ 0x34000 → dbgImage s = 0 →
      (∃ t, exec (.debugWindowAccess false y size false v) s = goes t ∧ t.host.out.status = 0 ∧ t.host.out.data =
        (if (s.core n).halted = some D.ctx then (List.range size).map (fun i => imgByte s n D.ctx (y - 0x20000 + i))
          else (spdRead 3 n (saveBase D.ctx + (y - 0x20000)) size s).1.bytes)) ∧
      ((s.core n).halted ≠ some D.ctx → (s.core n).undef = [] → ∃ t, exec (.debugWindowAccess false y size true v) s = goes t ∧
        memBytes t.mem (spdKey n (saveBase D.ctx + (y - 0x20000))) size = leBytes size v.toNat) ∧
      ((s.core n).halted = some D.ctx → ∃ t, exec (.debugWindowAccess false y size true v) s = goes t ∧ t.host.out.status = 0 ∧
        t.cores = (imgWrite n D.ctx (y - 0x20000) (leBytes size v.toNat) s).cores)) ∧
    (∀ wr, size = 4 ∨ size = 8 → y % size = 0 → s.ubide.dbg = 0 →
      (y < 0x10 ∨ (0x10000 ≤ y ∧ y < 0x34000) ∨ (0x400000 ≤ y ∧ y < 2 ^ 24)) → ∃ t, exec (.debugWindowAccess false y size wr v) s = goes t ∧
        t.host.out.status = 1 ∧ t.host.ur = min 65535 (s.host.ur + 1) ∧ t.dbg.lastSt = 0x0F ∧ t.mem = s.mem ∧ t.cores = s.cores) ∧
    (∀ wr, let open_ := s.pins.powered = true ∧ s.pins.tapReset = false ∧ s.pins.jtag = .dbgacc ∧ 2 ≤ s.ubide.dbg
      (open_ → exec (.debugWindowAccess true y size wr v) s = exec (.debugWindowAccess false y size wr v) s) ∧
      (¬open_ → exec (.debugWindowAccess true y size wr v) s = goes s)) ∧
    (size = 4 ∨ size = 8 → y % size = 0 → 0xA00000 ≤ y → y < 2 ^ 24 → s.ubide.dbg = 3 →
      exec (.debugWindowAccess false y size true v) s = .refused .vendorRange ∧
      ∃ t, exec (.debugWindowAccess false y size false v) s = goes t ∧ t.host.out.data = leBytes size (Config.freeNat s.freeSeq) ∧
        t.freeSeq = s.freeSeq + 1 ∧ t.host.out.status = 0) ∧
    (s.pins.powered = true → ∃ t, exec (.jtagInstruction code) s = goes t ∧ t.pins.jtag = (if code = .other then .bypass else code) ∧
      t.pins.tapReset = false ∧ (code ≠ .samplePreload → t.pins.boundary = s.pins.boundary) ∧
      (code = .samplePreload → s.pins.jtag ≠ .extest → let B := t.pins.boundary
        B.getLsbD 0 = !s.pins.perst ∧ B.getLsbD 1 = !s.pins.modReset ∧ B.getLsbD 2 = !alertLow s ∧ B.getLsbD 3 = !s.power.tripPin ∧
        B.getLsbD 4 = !s.pins.trayReq)) ∧
    (∀ u : State, u.pins.powered = false → exec (.jtagInstruction code) u = goes u) ∧
    (∃ t, exec .tapReset s = goes t ∧ t.pins.jtag = .idcode ∧ t.pins.tapReset = true) ∧
    (s.pins.powered = true → ∃ t, exec (.dynamicAddressAssignment da) s = goes t ∧ t.pins.i3c = some da)

/-- LIVENESS_PROBE, PROBE_TIMEOUT, MACHINE_CHECK, DARNING_START, CARRY_STEP_DONE, DARNING_DONE,
FIELD_REPAIR_FUSE_WRITE. (R23, R24, R327, R328, R329, R330, R331, R334, 15_cast_on_and_darning.md) A running
panel probes its cores 16,384 ticks after the last round and not before. A probe without an answer for 1,024
ticks is noted; a second one, or a machine check at its site, fences the core: it is FENCED, its site bad, and
after a router fault the router too. Darning of the first waiting core: where its site is good again it is
zeroized; where no map change is left it becomes a hole; else the new map holds, the darning is under way for
it, and a core that the change moves to a bad site is fenced and waits in turn. A carry step done counts its
cores and the last one turns to zeroizing. A darning done leaves the spare's scratchpad 0 and the core in RUN
with its fresh bit set, and queues its fuse entry while there is room. The oldest queued fuse entry is written
to the bank. -/
def Obligations.CoresAreProbedFencedAndDarned : Prop :=
  ∀ (p n : Nat) (s : State), p < 64 → n < 35328 → panelOf n = p →
    let P := s.panel p
    let site := siteIdx s n
    (panelRuns P = true → P.probed + 2 ^ 14 ≤ s.now → exec (.livenessProbe p) s = goes (s.onPanel p (fun P => { P with probed := s.now, missed := [] }))) ∧
    (s.now < P.probed + 2 ^ 14 → exec (.livenessProbe p) s = goes s) ∧
    (probed s n = true → P.probed ≠ 0 →
      ((∀ e ∈ P.missed, e.1 ≠ n) → P.probed + 1024 ≤ s.now →
        exec (.probeTimeout p n) s = goes (s.onPanel p (fun P => { P with missed := Tab.set P.missed n s.now }))) ∧
      (∀ m, P.missed.find? (fun e => e.1 == n) = some (n, m) → m + 1024 ≤ s.now → ∃ t, exec (.probeTimeout p n) s = goes t ∧
        (t.core n).power = .fenced ∧ Tab.get false (t.panel p).bad site = true)) ∧
    (∀ i, i < 600 → coreAtSite s p i = some n → isDead s n = false → panelRuns P = true →
      (∃ t, exec (.machineCheck { panel := p, site := i, router := false }) s = goes t ∧ (t.core n).power = .fenced ∧ Tab.get false (t.panel p).bad i = true ∧
        (t.panel p).err.checks = min 255 (P.err.checks + 1) ∧ (t.panel p).fenced = min 255 (P.fenced + 1)) ∧
      (Tab.get false P.routers i = false → ∃ t, exec (.machineCheck { panel := p, site := i, router := true }) s = goes t ∧ (t.core n).power = .fenced ∧
        Tab.get false (t.panel p).bad i = true ∧ Tab.get false (t.panel p).routers i = true ∧ (t.panel p).fenced = min 255 (P.fenced + 1))) ∧
    (∀ rest, P.darn.queue = n :: rest → P.darn.phase = .idle → panelRuns P = true → isHole s n = false → Tab.get false P.bad site = false →
      ∃ t, exec (.darningStart p) s = goes t ∧ (t.panel p).darn.phase = .zeroizing ∧ (t.panel p).darn.core = n ∧ (t.panel p).darn.steps = [] ∧
        (t.panel p).darn.site = Tab.get site P.darn.failed n) ∧
    (∀ rest, P.darn.queue = n :: rest → P.darn.phase = .idle → panelRuns P = true → isHole s n = false → Tab.get false P.bad site = true →
      (chooseChange P site = none → ∃ t, exec (.darningStart p) s = goes t ∧ isHole t n = true ∧
        (t.panel p).darn.holesMade = min 255 (P.darn.holesMade + 1) ∧ (t.panel p).darn.phase = .idle) ∧
      (∀ Q, chooseChange P site = some Q →
        ∃ t, exec (.darningStart p) s = goes t ∧ (t.panel p).skipRow = Q.skipRow ∧ (t.panel p).skipCol = Q.skipCol ∧
          (t.panel p).darn.core = n ∧ ((t.panel p).darn.phase = .carrying ∨ (t.panel p).darn.phase = .zeroizing) ∧
          (t.panel p).darn.site = site ∧
          ∀ m ∈ movedCores p P Q, m ≠ n → isHole s m = false → Tab.get false P.bad (siteIdx t m) = true →
            (t.core m).power = .fenced ∧ m ∈ (t.panel p).darn.queue)) ∧
    (∀ c rest, P.darn.phase = .carrying → P.darn.steps = c :: rest → ∃ t, exec (.carryStepDone p) s = goes t ∧ (t.panel p).darn.steps = rest ∧
      (t.panel p).darn.carried = P.darn.carried + c.cores.length ∧ (t.panel p).darn.phase = (if rest = [] then .zeroizing else .carrying)) ∧
    (P.darn.phase = .zeroizing → P.darn.core = n → Tab.get false P.bad site = false → ∃ t, exec (.darningDone p) s = goes t ∧
      (t.core n).power = .run ∧ (t.panel p).darn.phase = .idle ∧ Tab.get false (t.panel p).fresh (localOf n) = true ∧
      (s.fuses.bank.length + s.fuses.queue.length < 4096 → BitVec.ofNat 32 ((if Tab.get false P.routers P.darn.site then 1 else 0) * 2 ^ 30 +
        p * 2 ^ 24 + P.darn.site * 2 ^ 14) ∈ t.fuses.queue ++ t.fuses.bank) ∧
      ∀ o, o < spdSize → memGet t.mem (spdKey n o) = 0) ∧
    (∀ w rest, s.fuses.queue = w :: rest → ∃ t, exec .fieldRepairFuseWrite s = goes t ∧ t.fuses.queue = rest ∧ t.fuses.bank = s.fuses.bank ++ [w]) ∧
    (s.fuses.queue = [] → exec .fieldRepairFuseWrite s = goes s)

/-- Hangs are found and replayed; block resets run their phases. (R351, R352, R353, R354, 16_reset_and_recovery.md,
R337, R340, R341, R343, R344, R355) A running panel takes a snapshot of its engines 65,536 ticks after the last:
the one before becomes the previous one, and the count rises. The combination happens 65,536 ticks after the
last; where no partition shows a hang only its tick changes; the first hang with suspects makes them the
suspects to replay, each being stopped; one of sequencers alone resets their panels. Once the suspects have
stopped, the next one is launched from its launch record and is the one under replay; one on a resting panel
waits for its wake, one on a lost panel is passed over, one without a launch record escalates. A replay ends
with its verdict, and a guilty context joins the guilty. When every suspect has been replayed and the one
suspect is guilty, it is FAULTED for the hang and the replay is over; where none is guilty every suspect is. A
short of a powered panel's supply trips it; the panel is then lost and OFF. A CONTEXT reset whose context has no
request out makes it EMPTY and is complete. A PANEL reset of a panel that does not rest begins with the panel in
reset and its sequencer halted, and leaves its sequencer and its memory as after reset; a PORT reset whose port
keeps no flit leaves it OFF with its queues empty and its counters 0. A CORE reset whose core need not wait
begins its drain with the core in reset; once the core has no request out the core is reset: its scratchpad is
0, its contexts are EMPTY, and the notice stands; before that nothing changes. A drain of 1,000 ticks is ended
by force and counted. A CORE reset not complete 2,000 ticks after its drain began escalates to its panel,
counted. A PARTITION reset with no panel at rest leaves every live powered panel's sequencer IDLE and the fault
of the partition cleared and its job ports OFF, and is complete. -/
def Obligations.HangsAndBlockResets : Prop :=
  (
    ∀ (p n k : Nat) (s : State), p < 64 →
      let G := s.hang
      (panelRuns (s.panel p) = true → (s.panel p).hang.last + 65536 ≤ s.now → ∃ t, exec (.hangSnapshot p) s = goes t ∧
        (t.panel p).hang.snap = engines s p ∧ (t.panel p).hang.prev = (s.panel p).hang.snap ∧ (t.panel p).hang.last = s.now ∧
        (t.panel p).hang.snapshots = min 65535 ((s.panel p).hang.snapshots + 1)) ∧
      (s.now < (s.panel p).hang.last + 65536 → exec (.hangSnapshot p) s = goes s) ∧
      (s.now < G.last + 65536 → exec .hangCombine s = goes s) ∧
      (let u : State := { s with hang := { G with last := s.now } };
        G.last + 65536 ≤ s.now → G.active = false →
        ((∀ j, j < 5 → hangSet u j = []) → exec .hangCombine s = goes u) ∧
        (∀ j, j < 5 → (∀ i, i < j → hangSet u i = []) → hangSet u j ≠ [] →
          (suspectsOf (hangSet u j) ≠ [] → G.queue = [] → ∃ t, exec .hangCombine s = goes t ∧ t.hang.active = true ∧
            t.hang.suspects = suspectsOf (hangSet u j) ∧ t.hang.todo = suspectsOf (hangSet u j) ∧ t.hang.part = j ∧ t.hang.cur = none ∧
            ∀ x ∈ suspectsOf (hangSet u j), { n := x.1, k := x.2, since := s.now } ∈ t.hang.stopping) ∧
          (suspectsOf (hangSet u j) = [] → s.rst.running = [] → (∃ e ∈ hangSet u j, e.eng = .seq p) → ∃ t, exec .hangCombine s = goes t ∧
            ∃ r ∈ t.rst.running, r.source = 5 ∧ r.level = 2 ∧ r.target = p))) ∧
      (∀ rest, G.active = true → G.cur = none → G.todo = (n, k) :: rest →
        (∀ e, G.stopping = [e] → e.due s = false → (e.n, e.k) ∈ G.suspects → exec .suspectReplay s = goes s) ∧
        (G.stopping = [] → let P := s.panel (panelOf n)
          (P.lost = true ∨ P.power = .off → exec .suspectReplay s = goes { s with hang := { G with todo := rest } }) ∧
          (P.lost = false → P.power = .nap ∨ P.power = .sleep → exec .suspectReplay s = goes (askWake true (panelOf n) s)) ∧
          (panelRuns P = true → (∀ e ∈ (s.core n).launches, e.1 ≠ k) → s.rst.running = [] → ∃ t, exec .suspectReplay s = goes t ∧
            t.hang.todo = rest ∧ t.hang.cur = none ∧ t.rst.escalations = min 65535 (s.rst.escalations + 1) ∧
            ∃ r ∈ t.rst.running, r.level = 1 ∧ r.target = n))) ∧
      (∀ rest c entry args, G.active = true → G.cur = none → G.stopping = [] → G.todo = (n, k) :: rest → panelRuns (s.panel (panelOf n)) = true →
        (s.core n).launches.find? (fun e => e.1 == k) = some (c, entry, args) →
        (launchOn n k entry args (selOf (s.core n) k) { s with hang := { G with todo := rest } }).isSome = true →
        ∃ t, exec .suspectReplay s = goes t ∧ t.hang.cur = some (n, k) ∧ t.hang.todo = rest ∧ t.hang.since = s.now ∧ t.hang.snaps = 0) ∧
      (G.active = true → G.cur = some (n, k) →
        (replayVerdict s n k = none → exec .suspectReplayEnd s = goes s) ∧
        (∀ g, replayVerdict s n k = some g → ∃ t, exec .suspectReplayEnd s = goes t ∧ t.hang.cur = none ∧
          t.hang.guilty = (if g then G.guilty ++ [(n, k)] else G.guilty))) ∧
      (G.active = true → G.cur = none → G.todo = [] → G.queue = [] → G.suspects = [(n, k)] → G.guilty = [(n, k)] ∨ G.guilty = [] → isDead s n = false →
        ∃ t, exec .hangVerdict s = goes t ∧ (t.ctxAt n k).state = .faulted ∧ (t.ctxAt n k).hang = true ∧ t.hang.active = false ∧
          ∀ q ∈ hangPanels s, (t.panel q).hang.verdict = (if G.guilty = [] then 2 else 1) ∧ (t.panel q).hang.state = 3)) ∧
  (
    ∀ (p n i k : Nat) (s : State) (r : RunReset), p < 64 → n < 35328 → k < 4 → s.host.win = none →
      let P := s.panel p
      (P.lost = false → P.power ≠ .off → exec (.panelSupplyShort p) s = goes (s.onPanel p (fun P => { P with shorted := true }))) ∧
      (P.shorted = true → ∃ t, exec (.panelLost p) s = goes t ∧ (t.panel p).lost = true ∧ (t.panel p).power = .off ∧ (t.panel p).shorted = false ∧
        t.rst.source = 7 ∧ t.rst.level = 2 ∧ t.rst.target = p) ∧
      (P.shorted = false → exec (.panelLost p) s = goes s) ∧
      (s.rst.running[i]? = some r → r.level = 1 → r.target = n →
        (r.phase = .fired → (s.panel (panelOf n)).darn.phase = .idle → (s.panel (panelOf n)).power = .active →
          ∃ t, exec (.blockReset i) s = goes t ∧ (t.core n).inReset = true ∧ t.rst.running = s.rst.running.set i { r with phase := .drain, since := s.now }) ∧
        (r.phase = .drain → (s.core n).outst = [] → ∃ t, exec (.blockReset i) s = goes t ∧
          t.rst.running = s.rst.running.set i { r with phase := .notice } ∧ (∀ j, (t.ctxAt n j).state = .empty) ∧
          (∀ o, o < spdSize → memGet t.mem (spdKey n o) = 0)) ∧
        (r.phase = .drain → (s.core n).outst ≠ [] → exec (.blockReset i) s = goes s) ∧
        (r.phase = .drain → (s.core n).outst ≠ [] → r.since + 1000 ≤ s.now → ∃ t, exec (.resetDrainTimeout i) s = goes t ∧
          t.rst.forced = min 65535 (s.rst.forced + 1) ∧ t.rst.running = s.rst.running.set i { r with phase := .notice }) ∧
        (r.phase = .drain → s.now < r.since + 1000 → exec (.resetDrainTimeout i) s = goes s) ∧
        (s.rst.running = [r] → i = 0 → r.phase ≠ .fired → r.since + 2000 ≤ s.now → ∃ t, exec (.resetEscalate i) s = goes t ∧
          t.rst.escalations = min 65535 (s.rst.escalations + 1) ∧
          t.rst.running = [{ source := r.source, level := 2, target := panelOf n, escalated := true, phase := .fired, since := s.now, at_ := s.now }] ∧
          (t.core n).inReset = false) ∧
        (r.phase = .fired ∨ s.now < r.since + 2000 → exec (.resetEscalate i) s = goes s)) ∧
      (s.rst.running[i]? = some r → r.source ≠ 3 → r.level = 0 → r.phase = .fired →
        (∀ e ∈ (s.core (targetCore r.target)).outst, e.2.ctx ≠ targetCtx r.target) → ∃ t, exec (.blockReset i) s = goes t ∧
          t.rst.running = s.rst.running.eraseIdx i ∧ (t.ctxAt (targetCore r.target) (targetCtx r.target)).state = .empty) ∧
      (s.rst.running[i]? = some r → r.level = 2 → r.target = p →
        (r.phase = .fired → P.lost = true ∨ (P.power ≠ .nap ∧ P.power ≠ .sleep) → ∃ t, exec (.blockReset i) s = goes t ∧ (t.panel p).inReset = true ∧
          t.rst.running = s.rst.running.set i { r with phase := .drain, since := s.now } ∧ (t.seq p).busy = false) ∧
        (r.phase = .drain → drained s r = true → ∃ t, exec (.blockReset i) s = goes t ∧
          t.rst.running = s.rst.running.set i { r with phase := .notice } ∧ (t.panel p).seq = Seq.init ∧ (t.panel p).hub.waiting = [] ∧
          ∀ o, o < 0x40000 → memGet t.mem (seqKey p o) = 0)) ∧
      (∀ o, s.rst.running[i]? = some r → r.level = 6 → r.target = o → o < 16 → r.phase = .drain → (s.port o).buf = [] →
        ∃ t, exec (.blockReset i) s = goes t ∧ t.rst.running = s.rst.running.set i { r with phase := .notice } ∧ (t.port o).q = [] ∧
          (t.port o).rx = [] ∧ (t.port o).replay = 0 ∧ (t.port o).crc = 0 ∧ (t.port o).proto = 0 ∧
          (t.port o).state = (if (s.port o).state = .failed then .failed else .off)) ∧
      (s.rst.running = [r] → r.level = 3 → r.target = k → (∀ q ∈ panelsOf s k, (s.panel q).power ≠ .nap ∧ (s.panel q).power ≠ .sleep) →
        ∃ t, exec (.partitionReset k) s = goes t ∧ t.rst.running = [] ∧ (t.part k).fault = false ∧
          (∀ o ∈ jobPorts s k, (t.port o).role = .off) ∧
          ∀ q ∈ panelsOf s k, (s.panel q).lost = false → (s.panel q).power ≠ .off → (t.seq q).state = .idle))

/-- SENSOR_SAMPLE, GOVERNOR_EVAL, CLOCK_STEP_CHANGE_DONE, FIRST_USE_HOLD_END, DROOP, THERMAL_TRIP,
THERM_TRIP_RELEASE, INRUSH_DEFERRED_WAKE, PANEL_OFF_DONE. (R297, R301, R306, R307, R308, R310, R311,
14_power_and_clocks.md) A sample of a powered panel's sensors replaces the last. The governor evaluates once in
100,000 ticks: the panel of its choice begins its step change, and without a choice no panel changes. Of the
ACTIVE panels with no change in progress the choice is the hottest at 95 degrees or more that has a slower step;
else above the cap the hottest that has one; else, with 500 W to spare, the coolest of those at 90 degrees or
less that may be faster; the lowest number where temperatures are equal. A step change done is the step, and no
further change begins where the bound allows it. The first-use hold ends after 10,000,000 ticks of ACTIVE and
not before. A droop is counted and the step stays. A sensor at its trip limit asserts the trip, counted, and a
reset of source 6 begins at its level. The trip ends once every powered panel reads below 95 degrees. The first
deferred wake starts once units are free and not before. A panel whose OFF was asked for is OFF once every hub
holds its table, with its sequencer memory gone. -/
def Obligations.PowerIsGovernedAndSensed : Prop :=
  ∀ (p : Nat) (junction : List Nat) (stack watts input : Nat) (s : State), p < 64 →
    let P := s.panel p
    let W := s.power
    (P.power ≠ .off → P.lost = false → ∃ t, exec (.sensorSample p junction stack watts input) s = goes t ∧
      (t.panel p).tension.junction = junction.take 16 ∧ (t.panel p).tension.stackTemp = stack ∧ (t.panel p).tension.step = P.tension.step ∧
      (t.panel p).tension.watts = (P.tension.watts ++ [watts]).drop (P.tension.watts.length + 1 - 100) ∧
      (∀ c, W.inAt = some c → s.now < c + 1000 → t.power = W)) ∧
    (s.now < W.evalAt + 100000 → exec .governorEval s = goes s) ∧
    (W.evalAt + 100000 ≤ s.now →
      (∀ q m c, governorChoice s = some (q, m, c) → ∃ t, exec .governorEval s = goes t ∧ (t.panel q).tension.target = some m ∧
        t.power.evalAt = s.now ∧ ∀ r, r ≠ q → t.panel r = s.panel r) ∧
      (governorChoice s = none → ∃ t, exec .governorEval s = goes t ∧ t.panels = s.panels ∧ t.power.evalAt = s.now)) ∧
    (let act := fun (q : Nat) => q < 64 ∧ (s.panel q).power = .active ∧ (s.panel q).lost = false ∧ (s.panel q).tension.target = none
      let step := fun (q : Nat) => (s.panel q).tension.step
      let temp := fun (q : Nat) => (s.panel q).tension.temp
      let hot := fun (q : Nat) => act q ∧ 95 ≤ temp q ∧ step q < 5
      let slow := fun (q : Nat) => act q ∧ step q < 5
      let cool := fun (q : Nat) => act q ∧ tensionBound (s.panel q) < step q ∧ temp q ≤ 90 ∧ W.in1ms + 500 ≤ W.cap
      (∀ q, hot q → (∀ r, hot r → temp r < temp q ∨ (temp r = temp q ∧ q ≤ r)) → governorChoice s = some (q, step q + 1, 1)) ∧
      ((∀ q, ¬hot q) → W.cap < W.in1ms →
        (∀ q, slow q → (∀ r, slow r → temp r < temp q ∨ (temp r = temp q ∧ q ≤ r)) → governorChoice s = some (q, step q + 1, 2)) ∧
        ((∀ q, ¬slow q) → governorChoice s = none)) ∧
      ((∀ q, ¬hot q) → W.in1ms ≤ W.cap →
        (∀ q, cool q → (∀ r, cool r → temp q < temp r ∨ (temp r = temp q ∧ q ≤ r)) → governorChoice s = some (q, step q - 1, 0)) ∧
        ((∀ q, ¬cool q) → governorChoice s = none))) ∧
    (∀ m, P.tension.target = some m → ∃ t, exec (.clockStepChangeDone p) s = goes t ∧ (t.panel p).tension.step = m ∧
      (tensionBound P ≤ m → (t.panel p).tension.target = none)) ∧
    (∀ a, P.power = .active → P.firstUse = some a →
      (a + 10000000 ≤ s.now → exec (.firstUseHoldEnd p) s = goes (s.onPanel p (fun P => { P with firstUse := none }))) ∧
      (s.now < a + 10000000 → exec (.firstUseHoldEnd p) s = goes s)) ∧
    (P.power ≠ .off → P.lost = false → ∃ t, exec (.droop p) s = goes t ∧ (t.panel p).tension.droop = min 255 (P.tension.droop + 1) ∧
      (t.panel p).tension.step = P.tension.step) ∧
    (P.power ≠ .off → ((∃ j ∈ P.tension.junction, 115 ≤ j) ∨ 105 ≤ P.tension.stackTemp) → W.tripPin = false → s.rst.running = [] →
      ∃ t, exec (.thermalTrip p) s = goes t ∧ t.power.tripPin = true ∧ t.power.trips = min 65535 (W.trips + 1) ∧ t.attention = true ∧
        t.rst.running = [{ source := 6, level := levelOf s 6, target := 0, escalated := false, phase := .fired, since := s.now, at_ := s.now }]) ∧
    ((∀ q, q < 64 → (s.panel q).power = .off ∨ (s.panel q).tension.temp < 95) →
      exec .thermTripRelease s = goes (s.onPower (fun W => { W with tripPin := false }))) ∧
    (P.power ≠ .off → 95 ≤ P.tension.temp → exec .thermTripRelease s = goes s) ∧
    (∀ rest, W.deferred = p :: rest →
      (P.power = .nap ∨ P.power = .sleep → unitsInUse s + wakeUnits P.power ≤ 16 → ∃ t, exec .inrushDeferredWake s = goes (closeEnds t) ∧
        (t.panel p).power = .active ∧ t.power.deferred = rest.filter (· != p)) ∧
      (∀ w, P.power = .off → P.wake = some w → unitsInUse s + 4 ≤ 16 → ∃ t, exec .inrushDeferredWake s = goes (closeEnds t) ∧
        (t.panel p).power = .off ∧ (t.panel p).wake = some { w with deferred := false } ∧ t.power.deferred = rest.filter (· != p)) ∧
      (16 < unitsInUse s + wakeUnits P.power → exec .inrushDeferredWake s = goes (closeEnds s))) ∧
    (P.offReq = true → tablesHeld s = true → ∃ t, exec (.panelOffDone p) s = goes t ∧ (t.panel p).power = .off ∧
      (t.panel p).offReq = false ∧ (t.panel p).seq = Seq.init ∧ ∀ o, o < 0x40000 → memGet t.mem (seqKey p o) = 0)

/-- MODULE_RESET, TRAY_POWER_CYCLE, PERST#, MODULE_RESET#, SECURITY_VIOLATION, INPUT_OUT_OF_RANGE and POWER_ON.
(R337, R338, R339, R347, R348, R385, 16_reset_and_recovery.md) A MODULE reset whose time has come leaves no
core, packet or reset in progress, raises the epoch of every block by one and puts the module in cast-on at step
1 with the reset's source and level recorded; an OPEN session is SUSPENDED with its key; a TRAY_POWER_CYCLE does
so too, asks the tray to cut the input, leaves no key and every session CLOSED. PERST# and MODULE_RESET#
asserted fire their sources at their levels, without input they only change the pin; deasserted they are no
longer asserted. A security violation fires source 8 at level 5. An input between 46 and 54 V is only reported;
below or above, the module is unpowered; above 60 V nothing is guaranteed and the model faults. Power-on of an
unpowered module begins cast-on with source 0 at level 4 and PERST# asserted. -/
def Obligations.ModuleResetsPinsAndInput : Prop :=
  ∀ (mv : Nat) (s : State),
    (∀ r, readyReset s 4 = some r → ∃ t, exec .moduleReset s = goes t ∧ t.cores = [] ∧ t.packets = [] ∧ t.rst.running = [] ∧
      t.mstate = .castOn ∧ t.cast.step = 1 ∧ t.rst.source = r.source ∧ t.rst.level = r.level ∧ t.epochBase = (s.epochBase + 1) % 256 ∧
      t.fuses = s.fuses ∧ t.pending = s.pending ∧
      ∀ k, k < 4 → (s.part k).session = .opened → (t.part k).session = .suspended ∧ (t.part k).key = (s.part k).key) ∧
    (readyReset s 4 = none → exec .moduleReset s = goes s) ∧
    (∀ r, readyReset s 5 = some r → ∃ t, exec .trayPowerCycle s = goes t ∧ t.pins.trayReq = true ∧ t.mstate = .castOn ∧ t.cores = [] ∧
      t.rst.level = r.level ∧ ∀ k, k < 4 → (t.part k).key = none ∧ ((s.part k).session ≠ .none → (t.part k).session = .closed)) ∧
    (s.pins.powered = false →
      (s.pins.perst = false → exec .perstAssert s = goes { s with pins := { s.pins with perst := true } }) ∧
      (s.pins.modReset = false → exec .moduleResetPin s = goes { s with pins := { s.pins with modReset := true } }) ∧
      exec .securityViolation s = goes s) ∧
    (s.pins.powered = true → s.rst.running = [] →
      let fired := fun (src level : Nat) (t : State) =>
        t.rst.running = [{ source := src, level := level, target := 0, escalated := false, phase := .fired, since := s.now, at_ := s.now }]
      (s.pins.perst = false → ∃ t, exec .perstAssert s = goes t ∧ t.pins.perst = true ∧ fired 1 (levelOf s 1) t) ∧
      (s.pins.modReset = false → ∃ t, exec .moduleResetPin s = goes t ∧ t.pins.modReset = true ∧ fired 2 (levelOf s 2) t) ∧
      (∃ t, exec .securityViolation s = goes t ∧ fired 8 5 t)) ∧
    (∃ t, exec .perstDeassert s = goes t ∧ t.pins.perst = false ∧ t.mem = s.mem ∧
      (s.mstate = .castOn → s.cast.step = 2 → t.cast.step = 3 ∧ t.cast.third = s.now)) ∧
    (∃ t, exec .moduleResetDeassert s = goes t ∧ t.pins.modReset = false ∧ t.mem = s.mem) ∧
    (60000 < mv → exec (.inputOutOfRange mv) s = .fault .aboveAbsoluteMaximum) ∧
    (46000 ≤ mv → mv ≤ 54000 → exec (.inputOutOfRange mv) s = goes (s.onPower (fun w => { w with volts := mv / 10 }))) ∧
    (mv ≤ 60000 → (mv < 46000 ∨ 54000 < mv) → ∃ t, exec (.inputOutOfRange mv) s = goes t ∧ t.pins.powered = false ∧ t.cores = [] ∧
      t.mem = [] ∧ t.fuses.bank = s.fuses.bank ∧ t.ubide.store = s.ubide.store) ∧
    (s.pins.powered = false → ∃ t, exec .powerOn s = goes t ∧ t.pins.powered = true ∧ t.pins.perst = true ∧ t.mstate = .castOn ∧ t.cast.step = 1 ∧
      t.rst.source = 0 ∧ t.rst.level = 4)

/-- CAST_ON, CAST_ON_FINISH, CAST_ON_FAIL, CAST_ON_RESTART, PANEL_BRING_UP and PANEL_BRING_UP_DONE. (R316, R317,
R318, R321, R322, R349, 15_cast_on_and_darning.md) Cast-on of a powered module whose stored images are good
reaches step 3 with PERST# released and step 2 with PERST# asserted; with a bad image it fails and one failed
start counts. At step 9 cast-on ends with the module READY, the failed starts cleared, the panels of a SUSPENDED
session in SLEEP and the others OFF, and every other partition undefined. 30 s after step 3 a cast-on at steps 3
to 8 fails with TIMEOUT, one at step 9 after 10 ms: FAULT below three failed starts, RECOVERY at the third; an
image or a fuse error of steps 1 and 2 fails it likewise. A failure before step 3 starts cast-on again after 1
s. The bring-up of a panel whose rails rise leaves it with its map built, its stack powered and not lost; its
end makes it ACTIVE with the first-use hold begun, or, where a step failed, OFF and among the failed, lost where
step 1 failed. -/
def Obligations.CastOnAndBringUp : Prop :=
  ∀ (p stepNo : Nat) (bad : List Nat) (s : State), p < 64 →
    let P := s.panel p
    (s.mstate = .castOn → s.cast.step < 3 → s.pins.powered = true → s.pins.modReset = false →
      ((∀ e ∈ s.ubide.store, imageCode e.2.bytes 0 = 0) →
        (s.pins.perst = false → ∃ t, exec .castOn s = goes t ∧ t.cast.step = 3 ∧ t.cast.third = s.now ∧ t.mstate = .castOn) ∧
        (s.pins.perst = true → ∃ t, exec .castOn s = goes t ∧ t.cast.step = 2 ∧ t.mstate = .castOn)) ∧
      ((∃ e ∈ s.ubide.store, imageCode e.2.bytes 0 ≠ 0) → ∃ t, exec .castOn s = goes t ∧ t.host.code = 0x0B ∧
        t.rst.failedStarts = min 255 (s.rst.failedStarts + 1))) ∧
    (s.mstate = .castOn → s.cast.step = 9 → ∃ t, exec .castOnFinish s = goes t ∧ t.mstate = .ready ∧ t.rst.failedStarts = 0 ∧
      (t.panel p).power = (if P.power = .off then .off else if restores s p then .sleep else .off) ∧
      ∀ k, k < 4 → (s.part k).session ≠ .suspended → (t.part k).defined = false) ∧
    (s.mstate = .castOn → s.cast.step ≠ 9 → exec .castOnFinish s = goes s) ∧
    (∀ code : BitVec 8, s.mstate = .castOn → s.pins.powered = true →
      (code = 5 ∧ 3 ≤ s.cast.step ∧ s.cast.step ≤ 8 ∧ s.cast.third + 3000000000 ≤ s.now) ∨
        (code = 5 ∧ s.cast.step = 9 ∧ s.cast.ninth + 1000000 ≤ s.now) ∨ (code = 0x0B ∧ s.cast.step = 1) ∨ (code = 9 ∧ s.cast.step ≤ 2) →
      ∃ t, exec (.castOnFail code) s = goes t ∧ t.host.code = code.toNat ∧ t.rst.failedStarts = min 255 (s.rst.failedStarts + 1) ∧
        t.attention = true ∧ t.mstate = (if 3 ≤ min 255 (s.rst.failedStarts + 1) then .recovery else .fault)) ∧
    (∀ a, s.mstate = .fault → s.cast.failedAt = some a →
      (a + 100000000 ≤ s.now → ∃ t, exec .castOnRestart s = goes t ∧ t.mstate = .castOn ∧ t.cast.step = 1 ∧ t.cast.since = s.now) ∧
      (s.now < a + 100000000 → exec .castOnRestart s = goes s)) ∧
    (∀ w, P.bring = .due → P.wake = some w → w.deferred = false → ∃ t, exec (.panelBringUp p bad) s = goes t ∧ (t.panel p).bring = .built ∧
      (t.panel p).lost = false ∧ (t.panel p).wake = P.wake ∧ (t.stack p).power = .active ∧ (t.panel p).tension.step = 2 ∧
      (t.panel p).skipRow = skipRowFor (t.panel p)) ∧
    (P.bring = .built → ∃ t, exec (.panelBringUpDone p true stepNo) s = goes t ∧ (t.panel p).power = .active ∧ (t.panel p).bring = .none ∧
      (t.panel p).wake = none ∧ (t.panel p).brought = true ∧ (t.panel p).firstUse = some s.now) ∧
    ((P.bring = .due ∧ (stepNo = 1 ∨ stepNo = 2 ∨ stepNo = 4)) ∨ (P.bring = .built ∧ stepNo = 5) →
      ∃ t, exec (.panelBringUpDone p false stepNo) s = goes t ∧ (t.panel p).power = .off ∧ (t.panel p).lost = decide (stepNo = 1) ∧ (t.panel p).bring = .none ∧ (t.panel p).brought = false ∧ t.cast.failed = s.cast.failed ++ [p])

/-- What a chain computes: its stages in order on every lane, its predicate, its reduction and its output
conversion. (R92, R93, R94, R95, R96, R97, R104, R107, 05_vector_chains.md) When the one result in flight of a
core is a chain that is due, RESULT_RETIRE writes the output of its last stage into the lanes of vd that its
mask names and into no others. There are outputs of the stages such that each is its kind and operation applied
to the operands its selects name: CONVERT widens, ALU rounds once, ROUND and PACK convert to their format to
nearest-even or by the stage's random field, PACK INT32 rounds to nearest-even and saturates, REDUCE is the
fixed tree in which a masked lane is the identity, FUNC has the special results of its table, SIGMOID and GELU
are their sequences. The quarters written take poison from the quarters of A, B and C that the stages read; a
gradient-class chain without PACK or ROUND sets the finite flag where an unmasked lane is not finite or
poisoned. -/
def Obligations.ChainsComputeTheirStages : Prop :=
  ∀ (n due slot pc : Nat) (f : Flying) (s : State), n < 35328 → due ≤ (s.core n).icyc →
    (s.core n).flight = [{ due := due, slot := slot, pc := pc, w := .chain f }] → f.stages ≠ [] →
    (∀ k st, f.stages[k]? = some st → ∀ x ∈ st.sels, (x ≤ 19 ∨ (24 ≤ x ∧ x - 24 < k)) ∧ (x = 0 → 0 < k)) →
    ∃ (t : State) (out : Nat → Nat → W32), exec (.resultRetire n) s = goes t ∧ (t.core n).flight = [] ∧
      (let opd := fun (k sel j : Nat) =>
        if sel = 0 then out (k - 1) j else if sel = 1 then Tab.get 0 f.la j else if sel = 2 then Tab.get 0 f.lb j
        else if sel = 3 then Tab.get 0 f.lc j else if sel < 12 then nth 0 f.prm (sel - 4)
        else if sel = 12 then uniform (Tab.get 0 (Tab.get [] f.gen1 k) j) else if sel = 13 then r32 (.fin false j 0)
        else if sel = 14 then 0 else if sel = 15 then 0x3F800000 else if sel = 16 then 0xBF800000 else if sel = 17 then 0x3F000000
        else if sel = 18 then 0x3FB8AA3B else if sel = 19 then 0x3F317218 else out (sel - 24) j
      let reads := fun (j : Nat) => ∃ st ∈ f.stages, ∃ x ∈ st.sels, (x = 1 ∧ Tab.get false f.pa (j / 16) = true) ∨
        (x = 2 ∧ Tab.get false f.pb (j / 16) = true) ∨ (x = 3 ∧ Tab.get false f.pc (j / 16) = true)
      (∀ k st j, f.stages[k]? = some st → j < 64 →
        let x := opd k st.x j
        let y := opd k st.y j
        let z := opd k st.z j
        let o := out k j
        let rnd := if st.rnd = true then Rnd.stoch (roundField (Tab.get 0 (Tab.get [] f.gen2 k) j)) else .even
        (st.kind = 1 → (st.op = 0 → o = r32 (x32 x)) ∧ (st.op = 1 → o = r32 (Fmt.bf16.dec (x.toNat % 2 ^ 16))) ∧
          (st.op = 2 → o = r32 (Fmt.bf16.dec (x.toNat / 2 ^ 16))) ∧ (st.op = 3 → o = r32 (Fmt.fp16.dec (x.toNat % 2 ^ 16))) ∧
          (st.op = 4 → o = r32 (Fmt.fp16.dec (x.toNat / 2 ^ 16))) ∧ (st.op = 5 → o = r32 (Fmt.e4m3.dec (x.toNat % 256))) ∧
          (st.op = 6 → o = r32 (Fmt.e5m2.dec (x.toNat % 256))) ∧ (st.op = 7 → o = r32 (.fin (decide (x.toInt < 0)) x.toInt.natAbs 0)) ∧
          (st.op = 8 → o = r32 (.fin false (x.toNat % 256) 0))) ∧
        (st.kind = 2 → (st.op = 0 → o = r32 ((x32 x).add (x32 y))) ∧ (st.op = 1 → o = r32 ((x32 x).add (x32 y).neg)) ∧
          (st.op = 2 → o = r32 ((x32 x).mul (x32 y))) ∧ (st.op = 3 → o = r32 (((x32 x).mul (x32 y)).add (x32 z))) ∧
          (st.op = 4 ∨ st.op = 5 → (x32 x = .nan ∨ x32 y = .nan) → o = 0x7FC00000) ∧
          (st.op = 4 → x32 x ≠ .nan → x32 y ≠ .nan → (o = x ∨ o = y) ∧ totalLt x o = false ∧ totalLt y o = false) ∧
          (st.op = 5 → x32 x ≠ .nan → x32 y ≠ .nan → (o = x ∨ o = y) ∧ totalLt o x = false ∧ totalLt o y = false) ∧
          (st.op = 6 → o = if (x32 x).lt (x32 y) then 0x3F800000 else 0) ∧
          (st.op = 7 → o = if x32 x ≠ .nan ∧ x32 y ≠ .nan ∧ (x32 y).lt (x32 x) = false then 0x3F800000 else 0) ∧
          (st.op = 8 → o = if x32 x ≠ .nan ∧ x32 y ≠ .nan ∧ (x32 x).lt (x32 y) = false ∧ (x32 y).lt (x32 x) = false then 0x3F800000 else 0) ∧
          (st.op = 9 → o = r32 (x32 (if (x32 x).isZero = true then z else y))) ∧
          (st.op = 10 → o = x &&& 0x7FFFFFFF) ∧ (st.op = 11 → o = x ^^^ 0x80000000)) ∧
        (st.kind = 3 → o = funcOp st.op x ∧
          (st.op < 7 → x32 x = .nan → o = 0x7FC00000) ∧
          (x = 0x7F800000 → o = nth 0 [0x7F800000, 0x7F800000, 0, 0, 0x3F800000, 0x3F800000, 0x7F800000] (min st.op 6)) ∧
          (x = 0xFF800000 → o = nth 0 [0, 0x7FC00000, 0x7FC00000, 0x80000000, 0xBF800000, 0, 0x7FC00000] (min st.op 6)) ∧
          (x = 0 → o = nth 0 [0x3F800000, 0xFF800000, 0x7F800000, 0x7F800000, 0, 0x3F000000, 0] (min st.op 6)) ∧
          (x = 0x80000000 → o = nth 0 [0x3F800000, 0xFF800000, 0xFF800000, 0xFF800000, 0x80000000, 0x3F000000, 0] (min st.op 6)) ∧
          (st.op = 5 → o = ffma 0x3F000000 (funcOp 4 (fmul 0x3F000000 x)) 0x3F000000) ∧
          (st.op = 6 → ∃ k1 k2 : W32, k1 = 0x3D372713 ∧ k2 = 0x3F4C422A ∧
            o = ffma (fmul 0x3F000000 x) (funcOp 4 (fmul (fmul (ffma (fmul x x) k1 0x3F800000) x) k2)) (fmul 0x3F000000 x))) ∧
        (st.kind = 4 → ∃ g, g = nth Fmt.e5m2 [Fmt.bf16, Fmt.fp16, Fmt.e4m3] st.op ∧ o = r32 (g.dec (g.enc rnd (x32 x)).1)) ∧
        (st.kind = 5 → ∃ r : Nat → Nat → W32, o = r 6 0 ∧
          (∀ i, i < 64 → r 0 i = if f.mask.getLsbD i = true then opd k st.x i else nth 0x7F800000 [0x80000000, 0xFF800000] st.op) ∧
          (∀ v i, v < 6 → i < 64 / 2 ^ (v + 1) → r (v + 1) i =
            (if st.op = 0 then fadd else if st.op = 1 then fmax else fmin) (r v (2 * i)) (r v (2 * i + 1)))) ∧
        (st.kind = 6 → (st.op = 0 → o = x) ∧
          (∀ g, g = nth Fmt.e5m2 [Fmt.fp32, Fmt.bf16, Fmt.fp16, Fmt.e4m3] st.op → 1 ≤ st.op → st.op ≤ 4 →
            o = BitVec.ofNat 32 (g.enc rnd (x32 x)).1) ∧
          (st.op = 5 → (x32 x = .nan → o = 0) ∧ (x32 x = .inf false → o = 0x7FFFFFFF) ∧ (x32 x = .inf true → o = 0x80000000) ∧
            (∀ neg m e, x32 x = .fin neg m e → ∃ i : Int,
              let q : ℚ := (if neg = true then -1 else 1) * m * (2 : ℚ) ^ e
              2 * |q - i| ≤ 1 ∧ (2 * |q - i| = 1 → i % 2 = 0) ∧ o.toInt = max (-2 ^ 31) (min (2 ^ 31 - 1) i))))) ∧
      (∀ j, j < 64 → (t.ctx n).getV f.vd j = if f.mask.getLsbD j = true then out (f.stages.length - 1) j else (s.ctx n).getV f.vd j) ∧
      (∀ r j, r ≠ f.vd → j < 64 → (t.ctx n).getV r j = (s.ctx n).getV r j) ∧
      ((∀ st ∈ f.stages, st.kind ≠ 5) → ∀ q, q < 4 →
        ((∃ j, j / 16 = q ∧ f.mask.getLsbD j = true) →
          ((t.ctx n).getVP f.vd q = true ↔ (reads (16 * q) ∨
            ((∃ j, j / 16 = q ∧ f.mask.getLsbD j = false) ∧ (s.ctx n).getVP f.vd q = true)))) ∧
        ((∀ j, j / 16 = q → f.mask.getLsbD j = false) → (t.ctx n).getVP f.vd q = (s.ctx n).getVP f.vd q)) ∧
      (f.gc = false → (t.core n).flag = (s.core n).flag) ∧
      (f.gc = true → (∀ st ∈ f.stages, 1 ≤ st.kind ∧ st.kind < 4) → ((t.core n).flag = true ↔ ((s.core n).flag = true ∨
        ∃ j, j < 64 ∧ f.mask.getLsbD j = true ∧ (nonfinite32 (out (f.stages.length - 1) j) = true ∨ reads j)))))

/-- What an array computes: block sums, accumulator adds and their rounding, clears, drains and spills, element by
element. (R67, R70, R71, R72, R73, R77, R82, R86, R88, R89, R117, 04_matrix_engine.md) A row of MMUL that enters
reads its activations and scales and carries, for each column, the block sums of R70: exact sums of products,
scaled exactly in the 8-bit and narrow classes, at the dense rows the metadata names for an N:M tile.
ACCUMULATE_ROW adds them in turn into each element of its accumulator row, each with one rounding, to nearest-
even or with the field of the column's generator; it clears a tile, or puts a row, and no other element changes.
The end of an MDRAIN leaves at each element's place the accumulator value as it was read, or its sum with the
wide sum rounded to binary64, converted to the output format; poison of a row marks its line; gc sets the finite
flag. A spill adds to the wide sums, rounded to binary64. A stochastic rounding goes up where floor(f x 2^16) +
r reaches 2^16, and the special values convert as R88 gives them. -/
def Obligations.ArraysComputeTheirSums : Prop :=
  (∀ (n a : Nat) (s : State), n < 35328 → a < 2 →
    let c := s.core n
    let x := s.ctx n
    let A := c.arr a
    (∀ I xa sc, A.inp = some I → I.kind = .mmul xa sc → A.rows = [] → streamStands c = false → I.t + I.v * I.next < c.icyc →
      c.icyc ≤ I.t + I.v * I.next + 20 →
      let W := A.active
      let cyc := I.t + I.v * I.next
      let r := arrayRead n cyc (xa + I.next * rowBytes W) (rowBytes W) s
      let q := arrayRead n cyc (sc + I.next * rowScales W) (rowScales W) r.2
      let K := ktOf (classOf W.wf)
      let act := fun (k : Nat) => elemAt W.af (fun b => nth 0 r.1.bytes b) k
      ∃ t blocks, exec (.accumulateRow n a) s = goes t ∧ (t.ctx n).acc = x.acc ∧
        ((t.core n).arr a).rows = [{ due := cyc + 20, tile := I.tile + I.next / 16, row := I.next % 16, srs := I.srs
                                     val := .add blocks (!r.1.bad.isEmpty || !q.1.bad.isEmpty || W.poisoned) }] ∧
        ∀ j, j < 16 →
          let wt := fun (k : Nat) => elemAt W.wf (fun b => Tab.get 0 W.data b) (16 * k + j)
          let pos := fun (k : Nat) => (Tab.get 0 W.md ((16 * k + j) / 4)).toNat / 4 ^ ((16 * k + j) % 4) % 4
          let row := fun (k : Nat) => if W.nm = 0 then k else if W.nm = 1 then 4 * (k / 2) + pos k else 4 * k + pos k
          (W.nm = 1 → ∀ g, g < K / 2 → pos (2 * g) ≠ pos (2 * g + 1)) →
          (W.wf < 2 → blocks.map (fun b => nth (.fin false 0 0) b j) =
            [blockValue (dot ((List.range K).map (fun k => (act (row k), wt k))))]) ∧
          (2 ≤ W.wf → blocks.map (fun b => nth (.fin false 0 0) b j) = (List.range (denseK W.wf W.nm / 32)).map (fun b => blockValue
            (((dot (((List.range K).filter (fun k => row k / 32 == b)).map (fun k => (act (row k), wt k)))).mul
              (e8m0 (nth 0 q.1.bytes b))).mul (e8m0 (Tab.get 0 W.scales (16 * b + j))))))) ∧
    (∀ o rest, A.inp = none → A.rows = o :: rest → (∀ r ∈ rest, o.due < r.due) → (o.due < c.icyc ∨ streamStands c = true) →
      let gen := fun (j : Nat) => (Tab.get 1 A.gens j : W64)
      ∃ t, exec (.accumulateRow n a) s = goes t ∧ ((t.core n).arr a).rows = rest ∧
        let new := fun (tile i j : Nat) => (Tab.get 0 (t.ctx n).acc (accKey a tile i j) : W32)
        let old := fun (tile i j : Nat) => (Tab.get 0 x.acc (accKey a tile i j) : W32)
        let bad := fun (y : Ctx) (tile i : Nat) => (Tab.get false y.accp (accRow a tile i) : Bool)
        (∀ blocks p, o.val = .add blocks p →
          (∀ j, j < 16 →
            let col := blocks.map (fun b => nth (.fin false 0 0) b j)
            (o.srs = false → new o.tile o.row j = col.foldl (fun v b => r32 ((x32 v).add b)) (old o.tile o.row j)) ∧
            (o.srs = true → x.counter = false → new o.tile o.row j =
              col.foldl (fun v b => r32w (.stoch ((gen j).toNat % 2 ^ 16)) ((x32 v).add b)) (old o.tile o.row j)) ∧
            (∀ b i, o.srs = true → x.counter = true → col = [b] → Tab.get 0 A.gpos j = i → i < 4 →
              new o.tile o.row j = r32w (.stoch ((gen j).toNat / 2 ^ (16 * i) % 2 ^ 16)) ((x32 (old o.tile o.row j)).add b) ∧
              Tab.get 0 ((t.core n).arr a).gpos j = (i + 1) % 4 ∧
              Tab.get 1 ((t.core n).arr a).gens j = (if i = 3 then xsAdvance (gen j) else gen j))) ∧
          bad (t.ctx n) o.tile o.row = (p || bad x o.tile o.row) ∧
          (∀ key, (∀ j, j < 16 → key ≠ accKey a o.tile o.row j) → (Tab.get 0 (t.ctx n).acc key : W32) = Tab.get 0 x.acc key)) ∧
        (∀ vals p, o.val = .put vals p → vals.length = 16 →
          (∀ j, j < 16 → new o.tile o.row j = nth 0 vals j) ∧ bad (t.ctx n) o.tile o.row = p ∧
          (∀ key, (∀ j, j < 16 → key ≠ accKey a o.tile o.row j) → (Tab.get 0 (t.ctx n).acc key : W32) = Tab.get 0 x.acc key)) ∧
        (o.val = .clear →
          (∀ i j, i < 16 → j < 16 → new o.tile i j = 0 ∧ bad (t.ctx n) o.tile i = false) ∧
          (∀ key, (key < accKey a o.tile 0 0 ∨ accKey a o.tile 0 0 + 256 ≤ key) →
            (Tab.get 0 (t.ctx n).acc key : W32) = Tab.get 0 x.acc key))) ∧
    (∀ o rest p, A.queue = o :: rest → o.started = some p → p + drainTime o ≤ (s.panel (panelOf n)).cyc → c.undef = [] →
      let sent := s.onArr n a (fun A => { A with queue := rest })
      let wide := (spdRead 1 n o.wide 2048 sent).1
      let sum := fun (e : Nat) => r64 ((x64 ((wide.bytes.drop (8 * e)).take 8)).add (x32 (nth 0 o.cap e)))
      let g := nth Fmt.e5m2 [Fmt.fp32, Fmt.bf16, Fmt.fp16, Fmt.e4m3] o.fmt
      let b := nth 1 [4, 2, 2] o.fmt
      let conv := fun (e : Nat) => g.enc (if o.rnd = true then .stoch (nth 0 o.rands e) else .even)
        (if o.w = true then Fmt.fp64.dec (sum e) else x32 (nth 0 o.cap e))
      (o.kind = .mdrain → o.fmt < 5 → o.dst % 64 = 0 → o.dst + 256 * b ≤ spdSize → (o.w = true → o.wide + 2048 ≤ spdSize) →
        (o.w = true → o.cl = true → o.wide + 2048 ≤ o.dst ∨ o.dst + 256 * b ≤ o.wide) →
        ∃ t, exec (.drainOpEmitDone n a) s = goes t ∧ ((t.core n).arr a).queue = rest ∧
          (∀ e, e < 256 → memBytes t.mem (spdKey n (o.dst + b * e)) b = leBytes b (conv e).1) ∧
          (o.w = true → o.cl = true → memBytes t.mem (spdKey n o.wide) 2048 = List.replicate 2048 0) ∧
          (∀ y, (y < spdKey n o.dst ∨ spdKey n o.dst + 256 * b ≤ y) →
            (o.w = false ∨ o.cl = false ∨ y < spdKey n o.wide ∨ spdKey n o.wide + 2048 ≤ y) → memGet t.mem y = memGet s.mem y) ∧
          (o.w = false → (∀ l, o.dst / 64 ≤ l → l < o.dst / 64 + 4 * b →
              ((t.line n l).poison = true ↔ ∃ i, i < 16 ∧ nth false o.capP i = true ∧ (o.dst + 16 * b * i) / 64 = l)) ∧
            ((t.core n).flag = true ↔ (c.flag = true ∨ (o.gc = true ∧ ((∃ e, e < 256 ∧ ((conv e).2 = true ∨ nonfiniteBits g (conv e).1 = true)) ∨
              ∃ i, nth false o.capP i = true)))))) ∧
      (o.kind = .spill → o.wide % 64 = 0 → o.wide + 2048 ≤ spdSize → ∃ t, exec (.drainOpEmitDone n a) s = goes t ∧ ((t.core n).arr a).queue = rest ∧
        (∀ e, e < 256 → memBytes t.mem (spdKey n (o.wide + 8 * e)) 8 = leBytes 8 (sum e)) ∧
        (t.ctx n).counts.spills = min 255 (x.counts.spills + 1) ∧
        (∀ y, (y < spdKey n o.wide ∨ spdKey n o.wide + 2048 ≤ y) → memGet t.mem y = memGet s.mem y)))) ∧
  (∀ (p m r : Nat) (qmin e : Int), r < 2 ^ 16 →
    let q := max ((bitLen m : Int) + e - p) qmin
    (q ≤ e → roundMag p qmin (.stoch r) m e = (m * 2 ^ (e - q).toNat, q)) ∧
    (e < q → let sh := (q - e).toNat
      roundMag p qmin (.stoch r) m e =
        (if m % 2 ^ sh ≠ 0 ∧ 2 ^ 16 ≤ m % 2 ^ sh * 2 ^ 16 / 2 ^ sh + r then m / 2 ^ sh + 1 else m / 2 ^ sh, q))) ∧
  (∀ r : Rnd, (Fmt.fp32.enc r .nan).1 = 0x7FC00000 ∧ (Fmt.bf16.enc r .nan).1 = 0x7FC0 ∧ (Fmt.fp16.enc r .nan).1 = 0x7E00 ∧
    (Fmt.e4m3.enc r .nan).1 = 0x7F ∧ (Fmt.e5m2.enc r .nan).1 = 0x7E ∧ (Fmt.e4m3.enc r (.inf false)).1 = 0x7F ∧
    (Fmt.e4m3.enc r (.inf true)).1 = 0xFF ∧ (Fmt.fp32.enc r (.inf true)).1 = 0xFF800000 ∧ (Fmt.bf16.enc r (.inf false)).1 = 0x7F80 ∧
    (Fmt.fp16.enc r (.inf false)).1 = 0x7C00 ∧ (Fmt.e5m2.enc r (.inf true)).1 = 0xFC ∧ Fmt.e4m3.enc r (.fin false 1 9) = (0x7E, true) ∧
    Fmt.e4m3.enc r (.fin true 1 9) = (0xFE, true) ∧ (Fmt.fp16.enc r (.fin false 1 16)).1 = 0x7C00)

/-- Every W1C and W1S field: each 1 clears or sets its bit, each 0 leaves it, and everything else keeps its value;
RO and RC fields ignore writes. (R4, R5, R6, R59, R147, R172, R274, R278, R301, R335, 00_scope.md) With PCIe up,
a REGISTER_WRITE of any value to MSTAT, PSTAT, CMD_REJ, PNL_FRESH and PNL_POWER by the host, and of a sequencer
to CORE_STAT, the core's stream status, SPD_UEADDR and STK_UEADDR of its own panel where row 3 of R32 serves it:
attention, valid, fresh, post_fault, hazard and list_fault bits written as 1 are cleared (with valid the fields
it guards), those written as 0 keep their values, PNL_POWER.off written as 1 is the request of R301 and as 0
does nothing, and no other field of the module changes. A 4-byte write reaches only its half of the register. A
write to the identity, counter and result registers, which are RO or RC, changes nothing. -/
def Obligations.WriteOneFieldsChangeTheirBitsAlone : Prop :=
  ∀ (v : W64) (p n k ly : Nat) (s : State), pcieUp s = true → p < 64 → n < 35328 → panelOf n = p → k < 4 → ly < 24 →
    let unit := fun (u off : Nat) => 2 ^ 47 + p * 2 ^ 40 + u * 2 ^ 32 + off
    let core := fun (off : Nat) => (lyOf n * 23 + lxOf n) * 0x10000 + off
    let block := 0x1000000 + p * 0x10000
    exec (.registerWrite .host ⟨0x0100, 8⟩ v) s = goes (if v.getLsbD 57 = true then { s with attention := false } else s) ∧
    exec (.registerWrite .host ⟨0x0104, 4⟩ v) s = goes (if v.getLsbD 25 = true then { s with attention := false } else s) ∧
    exec (.registerWrite .host ⟨0x0100, 4⟩ v) s = goes s ∧
    exec (.registerWrite .host ⟨0x0108 + 8 * k, 8⟩ v) s =
      goes (if v.getLsbD 57 = true then s.onPart k (fun K => { K with attention := false }) else s) ∧
    exec (.registerWrite .host ⟨0x0288, 8⟩ v) s =
      goes (if v.getLsbD 63 = true then s.onHost (fun h => { h with rejValid := false, rejTag := 0, rejOp := 0 }) else s) ∧
    (∃ t, exec (.registerWrite .host ⟨block + 0x0300 + 8 * ly, 8⟩ v) s = goes t ∧ { t with panels := s.panels } = s ∧
      (∀ lx, lx < 23 → Tab.get false (t.panel p).fresh (23 * ly + lx) = (Tab.get false (s.panel p).fresh (23 * ly + lx) && !v.getLsbD lx)) ∧
      (∀ i, (i < 23 * ly ∨ 23 * ly + 23 ≤ i) → Tab.get false (t.panel p).fresh i = Tab.get false (s.panel p).fresh i) ∧
      (t.panel p) = { s.panel p with fresh := (t.panel p).fresh } ∧ (∀ q, q ≠ p → t.panel q = s.panel q)) ∧
    (v.getLsbD 56 = false → exec (.registerWrite .host ⟨block + 8, 8⟩ v) s = goes s) ∧
    (v.getLsbD 56 = true → exec (.registerWrite .host ⟨block + 8, 8⟩ v) s = exec (.pnlPowerOff .host p) s) ∧
    (carriedTarget s (unit 0x10 (core 0)) 8 = false → ctlStatus s p 0x10 (core 0) = 0 →
      exec (.registerWrite (.seq p) ⟨unit 0x10 (core 0), 8⟩ v) s =
        goes (if v.getLsbD 20 = true then s.onCore n (fun c => { c with postFault := false }) else s)) ∧
    (carriedTarget s (unit 0x10 (core 8)) 8 = false → ctlStatus s p 0x10 (core 8) = 0 →
      exec (.registerWrite (.seq p) ⟨unit 0x10 (core 8), 8⟩ v) s = goes (s.onCounts n (fun t =>
        { t with hazard := t.hazard &&& ~~~(v.extractLsb' 48 16), listFault := t.listFault &&& ~~~(v.extractLsb' 44 4) }))) ∧
    (carriedTarget s (unit 0x10 (core 0x30)) 8 = false → ctlStatus s p 0x10 (core 0x30) = 0 →
      exec (.registerWrite (.seq p) ⟨unit 0x10 (core 0x30), 8⟩ v) s =
        goes (if v.getLsbD 63 = true then s.onCore n (fun c => { c with ueaddr := 0 }) else s)) ∧
    (carriedTarget s (unit 3 8) 8 = false → ctlStatus s p 3 8 = 0 → exec (.registerWrite (.seq p) ⟨unit 3 8, 8⟩ v) s =
      goes (if v.getLsbD 63 = true then s.onStack p (fun K => { K with ueaddr := 0 }) else s)) ∧
    (∀ a ∈ [0x0000, 0x0008, 0x0018, 0x0300, 0x100C0, 0x100C8, 0x100D8, 0x20008, 0x20010, 0x30000, 0x40000, 0x40008, 0x40010, block, block + 0x18],
      exec (.registerWrite .host ⟨a, 8⟩ v) s = goes s)

/-- Frame of the scalar, address, mask, predicate, move and branch instructions. (R34, R35, 03_core_programs.md) A
bundle of one of these instructions beside three NOP slots that issues in core n leaves the state of the start
of its issue cycle as it was but for: at most one result in flight more, the issue-cycle count one higher, no
held bundle, the halt asked where this bundle was a debug step, and in the running context pc, loop levels,
pending branch and ISSUE. Every register, slot, accumulator and generator of that context, every other context,
every other core, every byte of memory, every line's check state and all the rest of the module read as before.
It covers ADD to ORI, AMOV to POP, MFC, BR, JMP, JR, LOOP, LOOPI and NOP. -/
def Obligations.RegisterInstructionsChangeNothingElse : Prop :=
  ∀ (n : Nat) (s : State) (i : CIns) (j : Instr) (r : CR) (c : CI) (w : CU) (b : CB) (l : CLoop) (m : CLoopI),
    let site : Site := { agent := .core n, w1 := 0, w2 := 0, w3 := 0 }
    let u := fetched n s
    ((j, i) = (.nop site, .nop 0) ∨
      (j, i) ∈ [(.add site r, .add r), (.sub site r, .sub r), (.andS site r, .andS r), (.orS site r, .orS r), (.xorS site r, .xorS r), (.shl site r, .shl r), (.shr site r, .shr r), (.sra site r, .sra r), (.minS site r, .minS r), (.maxS site r, .maxS r), (.mul site r, .mul r), (.mulh site r, .mulh r), (.cmp site r, .cmp r), (.sel site r, .sel r), (.amov site r, .amov r), (.aget site r, .aget r), (.aadd site r, .aadd r), (.aform site r, .aform r), (.kmov site r, .kmov r), (.kget site r, .kget r), (.ktail site r, .ktail r), (.kop site r, .kop r), (.pop site r, .pop r), (.jr site r, .jr r), (.mfc site r, .mfc r)] ∨
      (j, i) ∈ [(.addi site c, .addi c), (.andi site c, .andi c), (.ori site c, .ori c), (.aaddi site c, .aaddi c)] ∨
      (j, i) = (.lui site w, .lui w) ∨ (j, i) ∈ [(.br site b, .br b), (.jmp site b, .jmp b)] ∨
      (j, i) = (.loop site l, .loop l) ∨ (j, i) = (.loopi site m, .loopi m)) →
    issuesC n i 0 0 0 s = true →
    ∃ t : State, exec j s = goes t ∧ { t with cores := u.cores } = u ∧ (∀ k, k ≠ n → t.core k = u.core k) ∧
      (∀ k, k ≠ (u.core n).cur → t.ctxAt n k = u.ctxAt n k) ∧
      (∃ (f : List Res) (pc : Nat) (lv : List LoopLv) (br : Option (Nat × Nat)), f.length ≤ 1 ∧
        t.core n = { u.core n with
          flight := (u.core n).flight ++ f, icyc := (u.core n).icyc + 1, held := none, haltReq := (u.core n).haltReq || (u.core n).stepReq
          stepReq := false, ctxs := (t.core n).ctxs } ∧
        t.ctx n = { u.ctx n with pc := pc, loops := lv, branch := br, issue := (u.ctx n).issue + 1 })

/-- No instruction of a core, and nothing that a core does between bundles, touches another core, a stack or memory
that is not its scratchpad. (R55, R57, 02_grid.md, 03_core_programs.md) For every state, every core n and every
instruction of its four slots beside any three other words, whether it issues, is held or raises an exception,
and for its results that retire, its late exception, its held bundle, its completed WAIT and its context
boundary: every other core is as before, every panel's stack, every partition, every port, the fuses, the
security store and the power registers are as before; and where the core's current context and the context of a
pending switch are among the four that a core has, every byte of memory outside the core's own scratchpad reads
as before. -/
def Obligations.CoresKeepToTheirOwn : Prop :=
  ∀ (n m : Nat) (w1 w2 w3 : W32) (s : State), n < 35328 → m ≠ n →
    let site : Site := { agent := .core n, w1 := w1, w2 := w2, w3 := w3 }
    let own := fun (o : Host.Outcome State Fault Refusal) => ∃ t : State, o = goes t ∧ t.core m = s.core m ∧
      (∀ p, t.stack p = s.stack p) ∧ t.parts = s.parts ∧ t.ports = s.ports ∧ t.fuses = s.fuses ∧ t.ubide = s.ubide ∧ t.power = s.power ∧
      ((s.core n).cur < 4 → (∀ k, (s.core n).mark = some k → k < 4) → ∀ a, (a < spdKey n 0 ∨ spdKey n 0 + spdSize ≤ a) →
        memGet t.mem a = memGet s.mem a)
    (∀ i : CIns, own (atC site i s)) ∧ (∀ i : MIns, own (atM site i s)) ∧ (∀ i : VIns, own (atV site i s)) ∧
    (∀ i : SIns, own (atS site i s)) ∧ (∀ b : Bundle, own (exec (.undefinedOpcode (.core n) b) s)) ∧
    own (exec (.resultRetire n) s) ∧ own (exec (.lateException n) s) ∧ own (exec (.interlockRelease n) s) ∧
    own (exec (.waitComplete n) s) ∧ own (exec (.contextBoundarySwitch n) s)

/-- Every slot word has one reading: an instruction's word reads back as it; and words of the tables written out bit
by bit. (R33, R38, R39, R62, R74, R101, R116, R153) For each of the four slots, for every instruction with every
operand at every value its fields admit and every 32-bit word: the word reads as that instruction exactly when
the instruction's encoding is that word. So no bit of an encoding is dropped, no two instructions share a word,
and a word without a reading is no instruction's encoding. Words for ADD, ADDI, BR, LD, WAIT, LAUNCH, MMUL, MGRP
opening and closing a group, VLD, a chain, SHEAD and an undefined opcode, each field written as the manual's
tables place it, read as those instructions with those fields. -/
def Obligations.SlotWordsReadBackAndAsTheTablesGive : Prop :=
  (
    ∀ w : W32,
      (∀ i : CIns, CIns.ofWord w = some i ↔ i.word = w) ∧ (∀ i : MIns, MIns.ofWord w = some i ↔ i.word = w) ∧
      (∀ i : VIns, VIns.ofWord w = some i ↔ i.word = w) ∧ (∀ i : SIns, SIns.ofWord w = some i ↔ i.word = w)) ∧
  (
    CIns.ofWord 0b00000001_00101_00011_00010_000000000#32 = some (.add { d := 5, a := 3, b := 2, f := 0 }) ∧
    CIns.ofWord 0b00010000_00101_00011_11111111111110#32 = some (.addi { d := 5, a := 3, imm := 0x3FFE }) ∧
    CIns.ofWord 0b00110000_1_010_00000000000000000100#32 = some (.br { sense := 1, p := 2, off := 4 }) ∧
    CIns.ofWord 0b00101000_00111_0100_11_0000000000001#32 = some (.ld { t := 7, base := 4, size := 3, off := 1 }) ∧
    CIns.ofWord 0b00111000_00001_010_00000110_011_0_0000#32 = some (.wait { s := 1, kind := 2, arg := 6, pd := 3, saveOk := 0, z := 0 }) ∧
    CIns.ofWord 0b10000000_00001_00010_00011_000000000#32 = some (.launch { d := 1, a := 2, b := 3, f := 0 }) ∧
    MIns.ofWord 0b00001001_1_00101_000010000_1_0010_0011#32 = some (.mmul { arr := 1, t := 5, rows := 16, sw := 1, ax := 2, asc := 3 }) ∧
    MIns.ofWord 0b00001110_0_011_1_00100_00010_0101_00000#32 = some (.mgrpOpen { arr := 0, g := 3, t := 4, n := 2, tab := 5, z := 0 }) ∧
    MIns.ofWord 0b00001110_0_011_0_00000_00000_0000_00000#32 = some (.mgrpClose { arr := 0, g := 3, t := 0, n := 0, tab := 0, z := 0 }) ∧
    VIns.ofWord 0b00000001_00110_0011_10_001_0000000010#32 = some (.vld { r := 6, a := 3, es := 2, k := 1, off := 2 }) ∧
    VIns.ofWord 0b00010_001_0000101_00001_00010_00011_1_0#32 = some (.vch { k := 1, id := 5, vd := 1, va := 2, vb := 3, gc := 1, cp := 0 }) ∧
    SIns.ofWord 0b00001000_0100_0010_0000000000000000#32 = some (.shead { ad := 4, q := 2, z := 0 }) ∧
    CIns.ofWord 0xFF000000#32 = none ∧ MIns.ofWord 0x03000000#32 = none ∧ VIns.ofWord 0x18000000#32 = none ∧ SIns.ofWord 0x03000000#32 = none)

/-- Every step keeps the power cap between 16,000 W and 42,000 W and takes no more than its own command from the
queue. (R309, R315) For every state whose power cap lies between 16,000 W and 42,000 W, a step that answers a
next state leaves a cap between 16,000 W and 42,000 W, whichever command is in front; and the queue of the next
state is the queue without the command that the step took. -/
def Obligations.StepsKeepTheCapAndTheQueue : Prop :=
  ∀ s t : State, 16000 ≤ s.power.cap → s.power.cap ≤ 42000 → step s = goes t →
    16000 ≤ t.power.cap ∧ t.power.cap ≤ 42000 ∧ t.pending = s.pending.tail

/-- Every step keeps the memory in its canonical form, so that equal memories are equal data. (R29, R128,
02_grid.md, 07_scratchpad.md) For every state whose memory lists its addresses strictly rising and lists no byte
equal to what an unlisted address reads as, a step that answers a next state leaves a memory of that form,
whichever command is in front. What an unlisted address reads as is the model's choice (log entry 2). -/
def Obligations.StepsKeepMemoryCanonical : Prop :=
  ∀ s t : State, Memory.wf s.mem = true → step s = goes t → Memory.wf t.mem = true

/-- What reset leaves: the invariants, cast-on, empty queues, no context, clean scratchpads, the power cap. (R29,
R52, R143, R275, R315, R338, R345) Right after the power-on reset the memory is in canonical form and the power
cap is its reset value 0xA410 = 42,000, the module is in CAST_ON and no step of it has begun, the queue of
commands and the error log are empty, no partition is defined, no host command is in progress, the recorded
reset source is 0, every core runs no context, each of its four contexts is EMPTY, and every line of every
scratchpad is clean with every byte 0. -/
def Obligations.ResetLeaves : Prop :=
  let r := State.reset
  Memory.wf r.mem = true ∧ r.power.cap = 0xA410 ∧ r.mstate = .castOn ∧ r.cast = CastOn.init ∧ r.pending = [] ∧ r.log.held = [] ∧
  r.attention = false ∧ (∀ n, (r.core n).active = false ∧ (r.core n).residents = false ∧ (r.core n).flight = []) ∧
  (∀ n k, (r.ctxAt n k).state = .empty) ∧ (∀ n l, r.line n l = Line.zero) ∧ (∀ a, memGet r.mem a = 0) ∧ r.host.win = none ∧
  (∀ k, (r.part k).defined = false) ∧ r.rst.source = 0

/-- Two results that retire into one register in one issue cycle: the later slot wins, then the later instruction.
(R35) Two results of one issue cycle that name one scalar, address, mask, predicate or descriptor register, or
lanes of one vector register, retire together: the register takes the result of the slot that comes later in the
order C, M, V, S, and with the same slot that of the instruction issued later, whatever their order in flight;
wcollide goes up by one and stops at 15. Two results for s0 are discarded and not counted. A KMOV, KTAIL or KOP
whose destination is k0 raises EXC_ILLEGAL at issue. -/
def Obligations.TwoResultsOfOneRegister : Prop :=
  ∀ (n due c1 p1 c2 p2 r : Nat) (s : State), n < 35328 → due ≤ (s.core n).icyc →
    let two := fun (a b : RegW) =>
      (s.core n).flight = [{ due := due, slot := c1, pc := p1, w := a }, { due := due, slot := c2, pc := p2, w := b }]
    let takes := fun (f : State → Prop) => ∃ t, exec (.resultRetire n) s = goes t ∧ f t ∧ (t.core n).flight = [] ∧
      (t.core n).wcollide = min 15 ((s.core n).wcollide + 1)
    (∀ v w, two (.s r v) (.s r w) → r ≠ 0 → takes (fun t => (t.ctx n).regs.getS r = if c2 < c1 then v else w)) ∧
    (∀ v w, two (.a r v) (.a r w) → takes (fun t => (t.ctx n).regs.getA r = if c2 < c1 then v else w)) ∧
    (∀ v w, two (.p r v) (.p r w) → takes (fun t => (t.ctx n).regs.getP r = if c2 < c1 then v else w)) ∧
    (∀ v w, two (.k r v) (.k r w) → r ≠ 0 → takes (fun t => (t.ctx n).getK r = if c2 < c1 then v else w)) ∧
    (∀ v w, two (.c r v) (.c r w) → takes (fun t => (t.ctx n).getC r = if c2 < c1 then v else w)) ∧
    (∀ j v w d e, two (.lanes r [(j, v)] d) (.lanes r [(j, w)] e) → takes (fun t => (t.ctx n).getV r j = if c2 < c1 then v else w)) ∧
    (∀ v w, two (.s 0 v) (.s 0 w) → ∃ t, exec (.resultRetire n) s = goes t ∧ (t.ctx n).regs = (s.ctx n).regs ∧ (t.core n).flight = [] ∧
      (t.core n).wcollide = min 15 (s.core n).wcollide) ∧
    (∀ (i : CR) (j : Instr) (k : CIns),
      let site : Site := { agent := .core n, w1 := 0, w2 := 0, w3 := 0 }
      let u := atChecks n s
      (j, k) ∈ [(.kmov site i, .kmov i), (.ktail site i, .ktail i), (.kop site i, .kop i)] → i.d = 0 →
      fetchable n (bundleC k 0 0 0) s = true →
      ∃ t, exec j s = goes t ∧ (t.ctxAt n (u.core n).cur).exc = some { exc := .illegal, slot := 0, pc := (u.ctx n).pc })

/-- Every byte of a scratchpad carries its check bit: every write sets it, and a parity error is a byte that
disagrees. (R131) The check bit of a byte is 1 xor its eight bits, so that the nine hold an odd number of ones.
After any write of bytes into a scratchpad, full lines or single bytes, every byte written stands with the check
bit of the byte it now is. A line that is neither poisoned nor checked as weight nor of undefined contents reads
as uncorrectable exactly when some stored byte disagrees with its stored check bit. -/
def Obligations.BytesCarryOddParity : Prop :=
  (∀ b : Byte, checkBit b = !(b.getLsbD 0 ^^ b.getLsbD 1 ^^ b.getLsbD 2 ^^ b.getLsbD 3 ^^ b.getLsbD 4 ^^ b.getLsbD 5 ^^ b.getLsbD 6 ^^
      b.getLsbD 7) ∧ (popcount 8 b.toNat + b2n (checkBit b)) % 2 = 1) ∧
  (∀ (n : Nat) (bs : List (Nat × Byte)) (pois : List Nat) (s : State) (o : Nat), o < spdSize → (∃ e ∈ bs, e.1 = o) →
    let t := spdWrite n bs pois s
    ((t.line n (o / 64)).chk.getLsbD (o % 64)) = checkBit (memGet t.mem (spdKey n o))) ∧
  (∀ (path n l : Nat) (s : State), undefSeed s n l = none → (s.line n l).poison = false →
    (isWeight (s.core n) (64 * l) = false ∨ (s.line n l).checked = false) →
    ((readLine path n l s).1.bad = [l] ↔
      ∃ i, i < 64 ∧ (s.line n l).chk.getLsbD i ≠ checkBit (memGet s.mem (spdKey n (64 * l + i)))) ∧
    ((readLine path n l s).1.bad ≠ [l] → (readLine path n l s).1.bad = []))

/-- The 64-bit generators: the advance, never zero, the rounding field and the uniform, one advance per panel cycle.
(R105) A generator advances by the three shifts and exclusive ors of R105, and one that is not zero stays so;
every value that a launch, VSEED or MSEED gives one is not zero. The rounding field is x[15:0], and the uniform
is the FP32 value x[63:40] x 2^-24, exactly. In free-running mode a panel cycle advances each lane generator of
the running context of a core in RUN on an ACTIVE panel once, where the core is not halted and does not complete
its work before a boundary, a rest or a halt. -/
def Obligations.GeneratorsAdvance : Prop :=
  (∀ x : W64, xsAdvance x =
      (let a := x ^^^ (x <<< 13)
       let b := a ^^^ (a >>> 7)
       b ^^^ (b <<< 17)) ∧ (x ≠ 0 → xsAdvance x ≠ 0) ∧ nonzeroGen x ≠ 0 ∧ roundField x = (x.extractLsb' 0 16).toNat ∧
    (let m := (x.extractLsb' 40 24).toNat
     uniform x = if m = 0 then 0 else BitVec.ofNat 32 ((103 + m.log2) * 2 ^ 23 + (m * 2 ^ (23 - m.log2) - 2 ^ 23)))) ∧
  (∀ n k entry args sel s t j, n < 35328 → j < 64 → launchOn n k entry args sel s = some t → Tab.get 0 (t.ctxAt n k).gens j ≠ 0) ∧
  (∀ n a i, n < 35328 → a < 2 → i < 16 → colSeed n a i ≠ 0) ∧
  (∀ (n p j : Nat) (s : State), p < 64 → panelOf n = p → Tab.sorted s.cores = true → (s.panel p).power = .active → (s.panel p).lost = false →
    (s.panel p).shorted = false → isHalted s n = false → (s.core n).active = true → (s.core n).power = .run → (s.ctx n).state = .running → (s.ctx n).counter = false → draining s n = false →
    ∃ t, exec (.laneGeneratorAdvance p) s = goes t ∧ Tab.get 0 (t.ctx n).gens j = xsAdvance (Tab.get 0 (s.ctx n).gens j) ∧
      (t.ctx n).cycle = ((s.ctx n).cycle + 1) % 2 ^ 64)
end

