-- ==== Sys2Proof/Laws/Tab.lean ====
section
/-! SUPPORT. Sparse tables: reading after writing, and the canonical form that every operation keeps. The memory
is such a table, so its laws stand here too. -/

namespace Sys2Proof.Machine

/-! Reading after writing. -/

/-- A key reads what was just listed at it. -/
theorem Tab.get_set_same {α : Type} (d : α) (t : Tab α) (k : Nat) (v : α) : Tab.get d (Tab.set t k v) k = v := by
  induction t with
  | nil => simp [Tab.set, Tab.get]
  | cons e t ih =>
    obtain ⟨j, w⟩ := e
    simp only [Tab.set]
    split
    · simp [Tab.get]
    · split
      · simp [Tab.get]
      · rename_i h; simp [Tab.get, Ne.symm h, ih]

/-- Every other key reads as before. -/
theorem Tab.get_set_other {α : Type} (d : α) (t : Tab α) (k : Nat) (v : α) (m : Nat) (h : m ≠ k) :
    Tab.get d (Tab.set t k v) m = Tab.get d t m := by
  induction t with
  | nil => simp [Tab.set, Tab.get, Ne.symm h]
  | cons e t ih =>
    obtain ⟨j, w⟩ := e
    simp only [Tab.set]
    split
    · simp [Tab.get, Ne.symm h]
    · split
      · rename_i hk; subst hk; simp [Tab.get, Ne.symm h]
      · simp [Tab.get, ih]

/-- A filtered table reads as before at the keys that stay. -/
theorem Tab.get_filter_keep {α : Type} (d : α) (t : Tab α) (q : Nat × α → Bool) (m : Nat)
    (h : ∀ v, q (m, v) = true) : Tab.get d (t.filter q) m = Tab.get d t m := by
  induction t with
  | nil => rfl
  | cons e t ih =>
    obtain ⟨j, w⟩ := e
    by_cases hj : j = m
    · subst hj; simp [h, Tab.get]
    · by_cases hq : q (j, w) = true <;> simp [hq, Tab.get, hj, ih]

/-- A filtered table reads its default at the keys that go. -/
theorem Tab.get_filter_drop {α : Type} (d : α) (t : Tab α) (q : Nat × α → Bool) (m : Nat)
    (h : ∀ v, q (m, v) = false) : Tab.get d (t.filter q) m = d := by
  induction t with
  | nil => rfl
  | cons e t ih =>
    obtain ⟨j, w⟩ := e
    by_cases hj : j = m
    · subst hj; simp [h, ih]
    · by_cases hq : q (j, w) = true <;> simp [hq, Tab.get, hj, ih]

/-- A key reads what was just put at it. -/
theorem Tab.get_put_same {α : Type} [DecidableEq α] (d : α) (t : Tab α) (k : Nat) (v : α) :
    Tab.get d (Tab.put d t k v) k = v := by
  unfold Tab.put
  split
  · rename_i h; subst h; exact Tab.get_filter_drop _ _ _ _ (by simp)
  · exact Tab.get_set_same _ _ _ _

/-- A put leaves every other key as it was. -/
theorem Tab.get_put_other {α : Type} [DecidableEq α] (d : α) (t : Tab α) (k : Nat) (v : α) (m : Nat) (h : m ≠ k) :
    Tab.get d (Tab.put d t k v) m = Tab.get d t m := by
  unfold Tab.put
  split
  · exact Tab.get_filter_keep _ _ _ _ (by simp [h])
  · exact Tab.get_set_other _ _ _ _ _ h

/-! The canonical form. -/

/-- Keys in rising order, said pairwise. -/
theorem Tab.sorted_iff {α : Type} (t : Tab α) : Tab.sorted t = true ↔ t.Pairwise (fun a b => a.1 < b.1) := by
  induction t with
  | nil => simp [Tab.sorted]
  | cons e t ih =>
    obtain ⟨j, w⟩ := e
    cases t with
    | nil => simp [Tab.sorted]
    | cons f t =>
      obtain ⟨k, v⟩ := f
      simp only [Tab.sorted, Bool.and_eq_true, decide_eq_true_eq, ih, List.pairwise_cons]
      constructor
      · rintro ⟨h, h2, h3⟩
        refine ⟨?_, h2, h3⟩
        intro a ha
        rcases List.mem_cons.mp ha with rfl | ha
        · exact h
        · exact lt_trans h (h2 a ha)
      · rintro ⟨h, h2, h3⟩
        exact ⟨h (k, v) (by simp), h2, h3⟩

/-- The keys of a table after a write. -/
theorem Tab.mem_set {α : Type} (t : Tab α) (k : Nat) (v : α) (e : Nat × α) (h : e ∈ Tab.set t k v) :
    e = (k, v) ∨ e ∈ t := by
  induction t with
  | nil => left; simpa [Tab.set] using h
  | cons f t ih =>
    obtain ⟨j, w⟩ := f
    simp only [Tab.set] at h
    split at h
    · simpa using h
    · split at h
      · rcases List.mem_cons.mp h with h | h
        · exact .inl h
        · exact .inr (List.mem_cons_of_mem _ h)
      · rcases List.mem_cons.mp h with h | h
        · exact .inr (h ▸ List.mem_cons_self)
        · exact (ih h).imp_right (List.mem_cons_of_mem _)

/-- A write keeps the keys rising. -/
theorem Tab.sorted_set {α : Type} (t : Tab α) (k : Nat) (v : α) (h : Tab.sorted t = true) :
    Tab.sorted (Tab.set t k v) = true := by
  rw [Tab.sorted_iff] at *
  induction t with
  | nil => simp [Tab.set]
  | cons f t ih =>
    obtain ⟨j, w⟩ := f
    obtain ⟨h1, h2⟩ := List.pairwise_cons.mp h
    simp only [Tab.set]
    split
    · rename_i hk
      refine List.pairwise_cons.mpr ⟨?_, h⟩
      intro a ha
      rcases List.mem_cons.mp ha with rfl | ha
      · exact hk
      · exact lt_trans hk (h1 a ha)
    · split
      · rename_i hk; subst hk; exact List.pairwise_cons.mpr ⟨h1, h2⟩
      · refine List.pairwise_cons.mpr ⟨?_, ih h2⟩
        intro a ha
        rcases Tab.mem_set _ _ _ _ ha with rfl | ha
        · simp; omega
        · exact h1 a ha

/-- Removing entries keeps the keys rising. -/
theorem Tab.sorted_filter {α : Type} (t : Tab α) (q : Nat × α → Bool) (h : Tab.sorted t = true) :
    Tab.sorted (t.filter q) = true := by
  rw [Tab.sorted_iff] at *
  exact h.filter q

/-- A put keeps the keys rising. -/
theorem Tab.sorted_put {α : Type} [DecidableEq α] (d : α) (t : Tab α) (k : Nat) (v : α) (h : Tab.sorted t = true) :
    Tab.sorted (Tab.put d t k v) = true := by
  unfold Tab.put
  split
  · exact Tab.sorted_filter _ _ h
  · exact Tab.sorted_set _ _ _ h

/-! The memory. -/

/-- The canonical form in parts. -/
theorem Memory.wf_iff (m : List Host.Cell) :
    Memory.wf m = true ↔ Tab.sorted m = true ∧ ∀ e ∈ m, e.2 ≠ memDefault := by
  simp [Memory.wf]

/-- Removing entries keeps the canonical form. -/
theorem Memory.wf_filter (m : List Host.Cell) (q : Nat × Byte → Bool) (h : Memory.wf m = true) :
    Memory.wf (m.filter q) = true := by
  rw [Memory.wf_iff] at *
  exact ⟨Tab.sorted_filter _ _ h.1, fun e he => h.2 e (List.mem_of_mem_filter he)⟩

/-- Clearing a range keeps the canonical form. -/
theorem Memory.wf_delRange (m : List Host.Cell) (lo len : Nat) (h : Memory.wf m = true) :
    Memory.wf (Tab.delRange m lo len) = true := Memory.wf_filter _ _ h

/-- A write of one byte keeps the canonical form. -/
theorem Memory.wf_memPut (m : List Host.Cell) (a : Nat) (v : Byte) (h : Memory.wf m = true) :
    Memory.wf (memPut m a v) = true := by
  unfold memPut Tab.put
  split
  · exact Memory.wf_filter _ _ h
  · rename_i hv
    rw [Memory.wf_iff] at *
    refine ⟨Tab.sorted_set _ _ _ h.1, ?_⟩
    intro e he
    rcases Tab.mem_set _ _ _ _ he with rfl | he
    · exact hv
    · exact h.2 e he

/-- A write of consecutive bytes keeps the canonical form. -/
theorem Memory.wf_memPutBytes (l : List Byte) : ∀ (m : List Host.Cell) (a : Nat), Memory.wf m = true →
    Memory.wf (memPutBytes m a l) = true := by
  induction l with
  | nil => intro m a h; exact h
  | cons b t ih => intro m a h; exact ih _ _ (Memory.wf_memPut _ _ _ h)

/-- A byte reads what was just written. -/
theorem memGet_memPut_same (m : List Host.Cell) (a : Nat) (v : Byte) : memGet (memPut m a v) a = v :=
  Tab.get_put_same _ _ _ _

/-- A write leaves every other byte as it was. -/
theorem memGet_memPut_other (m : List Host.Cell) (a : Nat) (v : Byte) (b : Nat) (h : b ≠ a) :
    memGet (memPut m a v) b = memGet m b := Tab.get_put_other _ _ _ _ _ h

/-- A write of consecutive bytes leaves every byte outside them as it was. -/
theorem memGet_memPutBytes_other (l : List Byte) : ∀ (m : List Host.Cell) (a b : Nat),
    (b < a ∨ a + l.length ≤ b) → memGet (memPutBytes m a l) b = memGet m b := by
  induction l with
  | nil => intro m a b _; rfl
  | cons x t ih =>
    intro m a b h
    simp only [List.length_cons] at h
    rw [memPutBytes, ih _ _ _ (by omega), memGet_memPut_other _ _ _ _ (by omega)]

/-- Consecutive bytes read what was just written. -/
theorem memGet_memPutBytes_same (l : List Byte) : ∀ (m : List Host.Cell) (a i : Nat) (h : i < l.length),
    memGet (memPutBytes m a l) (a + i) = l[i] := by
  induction l with
  | nil => intro m a i h; simp at h
  | cons x t ih =>
    intro m a i h
    cases i with
    | zero => simp [memPutBytes, memGet_memPutBytes_other, memGet_memPut_same]
    | succ i =>
      have := ih (memPut m a x) (a + 1) i (by simpa using h)
      rw [memPutBytes, show a + (i + 1) = a + 1 + i by omega, this]
      simp

end Sys2Proof.Machine
end

