-- ==== Sys2Proof/Laws/State.lean ====
section
/-! SUPPORT. Every update of a part of the state, field by field: what it leaves as it was, and what the part it
names reads after it. -/

namespace Sys2Proof.Machine

/-! onCore changes `cores` alone. -/
@[simp] theorem State.onCore_now (s : State) (n : Nat) (f : Core → Core) : (s.onCore n f).now = s.now := rfl
@[simp] theorem State.onCore_panels (s : State) (n : Nat) (f : Core → Core) : (s.onCore n f).panels = s.panels := rfl
@[simp] theorem State.onCore_mem (s : State) (n : Nat) (f : Core → Core) : (s.onCore n f).mem = s.mem := rfl
@[simp] theorem State.onCore_lines (s : State) (n : Nat) (f : Core → Core) : (s.onCore n f).lines = s.lines := rfl
@[simp] theorem State.onCore_parts (s : State) (n : Nat) (f : Core → Core) : (s.onCore n f).parts = s.parts := rfl
@[simp] theorem State.onCore_packets (s : State) (n : Nat) (f : Core → Core) : (s.onCore n f).packets = s.packets := rfl
@[simp] theorem State.onCore_bcasts (s : State) (n : Nat) (f : Core → Core) : (s.onCore n f).bcasts = s.bcasts := rfl
@[simp] theorem State.onCore_reds (s : State) (n : Nat) (f : Core → Core) : (s.onCore n f).reds = s.reds := rfl
@[simp] theorem State.onCore_nextPid (s : State) (n : Nat) (f : Core → Core) : (s.onCore n f).nextPid = s.nextPid := rfl
@[simp] theorem State.onCore_epochs (s : State) (n : Nat) (f : Core → Core) : (s.onCore n f).epochs = s.epochs := rfl
@[simp] theorem State.onCore_hubEpochs (s : State) (n : Nat) (f : Core → Core) : (s.onCore n f).hubEpochs = s.hubEpochs := rfl
@[simp] theorem State.onCore_turns (s : State) (n : Nat) (f : Core → Core) : (s.onCore n f).turns = s.turns := rfl
@[simp] theorem State.onCore_epochBase (s : State) (n : Nat) (f : Core → Core) : (s.onCore n f).epochBase = s.epochBase := rfl
@[simp] theorem State.onCore_transit (s : State) (n : Nat) (f : Core → Core) : (s.onCore n f).transit = s.transit := rfl
@[simp] theorem State.onCore_lostAt (s : State) (n : Nat) (f : Core → Core) : (s.onCore n f).lostAt = s.lostAt := rfl
@[simp] theorem State.onCore_log (s : State) (n : Nat) (f : Core → Core) : (s.onCore n f).log = s.log := rfl
@[simp] theorem State.onCore_attention (s : State) (n : Nat) (f : Core → Core) : (s.onCore n f).attention = s.attention := rfl
@[simp] theorem State.onCore_ports (s : State) (n : Nat) (f : Core → Core) : (s.onCore n f).ports = s.ports := rfl
@[simp] theorem State.onCore_fuses (s : State) (n : Nat) (f : Core → Core) : (s.onCore n f).fuses = s.fuses := rfl
@[simp] theorem State.onCore_host (s : State) (n : Nat) (f : Core → Core) : (s.onCore n f).host = s.host := rfl
@[simp] theorem State.onCore_ubide (s : State) (n : Nat) (f : Core → Core) : (s.onCore n f).ubide = s.ubide := rfl
@[simp] theorem State.onCore_rst (s : State) (n : Nat) (f : Core → Core) : (s.onCore n f).rst = s.rst := rfl
@[simp] theorem State.onCore_power (s : State) (n : Nat) (f : Core → Core) : (s.onCore n f).power = s.power := rfl
@[simp] theorem State.onCore_mstate (s : State) (n : Nat) (f : Core → Core) : (s.onCore n f).mstate = s.mstate := rfl
@[simp] theorem State.onCore_cast (s : State) (n : Nat) (f : Core → Core) : (s.onCore n f).cast = s.cast := rfl
@[simp] theorem State.onCore_hang (s : State) (n : Nat) (f : Core → Core) : (s.onCore n f).hang = s.hang := rfl
@[simp] theorem State.onCore_dbg (s : State) (n : Nat) (f : Core → Core) : (s.onCore n f).dbg = s.dbg := rfl
@[simp] theorem State.onCore_pins (s : State) (n : Nat) (f : Core → Core) : (s.onCore n f).pins = s.pins := rfl
@[simp] theorem State.onCore_freeSeq (s : State) (n : Nat) (f : Core → Core) : (s.onCore n f).freeSeq = s.freeSeq := rfl
@[simp] theorem State.onCore_pending (s : State) (n : Nat) (f : Core → Core) : (s.onCore n f).pending = s.pending := rfl

/-! onPanel changes `panels` alone. -/
@[simp] theorem State.onPanel_now (s : State) (p : Nat) (f : Panel → Panel) : (s.onPanel p f).now = s.now := rfl
@[simp] theorem State.onPanel_cores (s : State) (p : Nat) (f : Panel → Panel) : (s.onPanel p f).cores = s.cores := rfl
@[simp] theorem State.onPanel_mem (s : State) (p : Nat) (f : Panel → Panel) : (s.onPanel p f).mem = s.mem := rfl
@[simp] theorem State.onPanel_lines (s : State) (p : Nat) (f : Panel → Panel) : (s.onPanel p f).lines = s.lines := rfl
@[simp] theorem State.onPanel_parts (s : State) (p : Nat) (f : Panel → Panel) : (s.onPanel p f).parts = s.parts := rfl
@[simp] theorem State.onPanel_packets (s : State) (p : Nat) (f : Panel → Panel) : (s.onPanel p f).packets = s.packets := rfl
@[simp] theorem State.onPanel_bcasts (s : State) (p : Nat) (f : Panel → Panel) : (s.onPanel p f).bcasts = s.bcasts := rfl
@[simp] theorem State.onPanel_reds (s : State) (p : Nat) (f : Panel → Panel) : (s.onPanel p f).reds = s.reds := rfl
@[simp] theorem State.onPanel_nextPid (s : State) (p : Nat) (f : Panel → Panel) : (s.onPanel p f).nextPid = s.nextPid := rfl
@[simp] theorem State.onPanel_epochs (s : State) (p : Nat) (f : Panel → Panel) : (s.onPanel p f).epochs = s.epochs := rfl
@[simp] theorem State.onPanel_hubEpochs (s : State) (p : Nat) (f : Panel → Panel) : (s.onPanel p f).hubEpochs = s.hubEpochs := rfl
@[simp] theorem State.onPanel_turns (s : State) (p : Nat) (f : Panel → Panel) : (s.onPanel p f).turns = s.turns := rfl
@[simp] theorem State.onPanel_epochBase (s : State) (p : Nat) (f : Panel → Panel) : (s.onPanel p f).epochBase = s.epochBase := rfl
@[simp] theorem State.onPanel_transit (s : State) (p : Nat) (f : Panel → Panel) : (s.onPanel p f).transit = s.transit := rfl
@[simp] theorem State.onPanel_lostAt (s : State) (p : Nat) (f : Panel → Panel) : (s.onPanel p f).lostAt = s.lostAt := rfl
@[simp] theorem State.onPanel_log (s : State) (p : Nat) (f : Panel → Panel) : (s.onPanel p f).log = s.log := rfl
@[simp] theorem State.onPanel_attention (s : State) (p : Nat) (f : Panel → Panel) : (s.onPanel p f).attention = s.attention := rfl
@[simp] theorem State.onPanel_ports (s : State) (p : Nat) (f : Panel → Panel) : (s.onPanel p f).ports = s.ports := rfl
@[simp] theorem State.onPanel_fuses (s : State) (p : Nat) (f : Panel → Panel) : (s.onPanel p f).fuses = s.fuses := rfl
@[simp] theorem State.onPanel_host (s : State) (p : Nat) (f : Panel → Panel) : (s.onPanel p f).host = s.host := rfl
@[simp] theorem State.onPanel_ubide (s : State) (p : Nat) (f : Panel → Panel) : (s.onPanel p f).ubide = s.ubide := rfl
@[simp] theorem State.onPanel_rst (s : State) (p : Nat) (f : Panel → Panel) : (s.onPanel p f).rst = s.rst := rfl
@[simp] theorem State.onPanel_power (s : State) (p : Nat) (f : Panel → Panel) : (s.onPanel p f).power = s.power := rfl
@[simp] theorem State.onPanel_mstate (s : State) (p : Nat) (f : Panel → Panel) : (s.onPanel p f).mstate = s.mstate := rfl
@[simp] theorem State.onPanel_cast (s : State) (p : Nat) (f : Panel → Panel) : (s.onPanel p f).cast = s.cast := rfl
@[simp] theorem State.onPanel_hang (s : State) (p : Nat) (f : Panel → Panel) : (s.onPanel p f).hang = s.hang := rfl
@[simp] theorem State.onPanel_dbg (s : State) (p : Nat) (f : Panel → Panel) : (s.onPanel p f).dbg = s.dbg := rfl
@[simp] theorem State.onPanel_pins (s : State) (p : Nat) (f : Panel → Panel) : (s.onPanel p f).pins = s.pins := rfl
@[simp] theorem State.onPanel_freeSeq (s : State) (p : Nat) (f : Panel → Panel) : (s.onPanel p f).freeSeq = s.freeSeq := rfl
@[simp] theorem State.onPanel_pending (s : State) (p : Nat) (f : Panel → Panel) : (s.onPanel p f).pending = s.pending := rfl

/-! onPart changes `parts` alone. -/
@[simp] theorem State.onPart_now (s : State) (k : Nat) (f : Part → Part) : (s.onPart k f).now = s.now := rfl
@[simp] theorem State.onPart_cores (s : State) (k : Nat) (f : Part → Part) : (s.onPart k f).cores = s.cores := rfl
@[simp] theorem State.onPart_panels (s : State) (k : Nat) (f : Part → Part) : (s.onPart k f).panels = s.panels := rfl
@[simp] theorem State.onPart_mem (s : State) (k : Nat) (f : Part → Part) : (s.onPart k f).mem = s.mem := rfl
@[simp] theorem State.onPart_lines (s : State) (k : Nat) (f : Part → Part) : (s.onPart k f).lines = s.lines := rfl
@[simp] theorem State.onPart_packets (s : State) (k : Nat) (f : Part → Part) : (s.onPart k f).packets = s.packets := rfl
@[simp] theorem State.onPart_bcasts (s : State) (k : Nat) (f : Part → Part) : (s.onPart k f).bcasts = s.bcasts := rfl
@[simp] theorem State.onPart_reds (s : State) (k : Nat) (f : Part → Part) : (s.onPart k f).reds = s.reds := rfl
@[simp] theorem State.onPart_nextPid (s : State) (k : Nat) (f : Part → Part) : (s.onPart k f).nextPid = s.nextPid := rfl
@[simp] theorem State.onPart_epochs (s : State) (k : Nat) (f : Part → Part) : (s.onPart k f).epochs = s.epochs := rfl
@[simp] theorem State.onPart_hubEpochs (s : State) (k : Nat) (f : Part → Part) : (s.onPart k f).hubEpochs = s.hubEpochs := rfl
@[simp] theorem State.onPart_turns (s : State) (k : Nat) (f : Part → Part) : (s.onPart k f).turns = s.turns := rfl
@[simp] theorem State.onPart_epochBase (s : State) (k : Nat) (f : Part → Part) : (s.onPart k f).epochBase = s.epochBase := rfl
@[simp] theorem State.onPart_transit (s : State) (k : Nat) (f : Part → Part) : (s.onPart k f).transit = s.transit := rfl
@[simp] theorem State.onPart_lostAt (s : State) (k : Nat) (f : Part → Part) : (s.onPart k f).lostAt = s.lostAt := rfl
@[simp] theorem State.onPart_log (s : State) (k : Nat) (f : Part → Part) : (s.onPart k f).log = s.log := rfl
@[simp] theorem State.onPart_attention (s : State) (k : Nat) (f : Part → Part) : (s.onPart k f).attention = s.attention := rfl
@[simp] theorem State.onPart_ports (s : State) (k : Nat) (f : Part → Part) : (s.onPart k f).ports = s.ports := rfl
@[simp] theorem State.onPart_fuses (s : State) (k : Nat) (f : Part → Part) : (s.onPart k f).fuses = s.fuses := rfl
@[simp] theorem State.onPart_host (s : State) (k : Nat) (f : Part → Part) : (s.onPart k f).host = s.host := rfl
@[simp] theorem State.onPart_ubide (s : State) (k : Nat) (f : Part → Part) : (s.onPart k f).ubide = s.ubide := rfl
@[simp] theorem State.onPart_rst (s : State) (k : Nat) (f : Part → Part) : (s.onPart k f).rst = s.rst := rfl
@[simp] theorem State.onPart_power (s : State) (k : Nat) (f : Part → Part) : (s.onPart k f).power = s.power := rfl
@[simp] theorem State.onPart_mstate (s : State) (k : Nat) (f : Part → Part) : (s.onPart k f).mstate = s.mstate := rfl
@[simp] theorem State.onPart_cast (s : State) (k : Nat) (f : Part → Part) : (s.onPart k f).cast = s.cast := rfl
@[simp] theorem State.onPart_hang (s : State) (k : Nat) (f : Part → Part) : (s.onPart k f).hang = s.hang := rfl
@[simp] theorem State.onPart_dbg (s : State) (k : Nat) (f : Part → Part) : (s.onPart k f).dbg = s.dbg := rfl
@[simp] theorem State.onPart_pins (s : State) (k : Nat) (f : Part → Part) : (s.onPart k f).pins = s.pins := rfl
@[simp] theorem State.onPart_freeSeq (s : State) (k : Nat) (f : Part → Part) : (s.onPart k f).freeSeq = s.freeSeq := rfl
@[simp] theorem State.onPart_pending (s : State) (k : Nat) (f : Part → Part) : (s.onPart k f).pending = s.pending := rfl

/-! onPort changes `ports` alone. -/
@[simp] theorem State.onPort_now (s : State) (o : Nat) (f : Port → Port) : (s.onPort o f).now = s.now := rfl
@[simp] theorem State.onPort_cores (s : State) (o : Nat) (f : Port → Port) : (s.onPort o f).cores = s.cores := rfl
@[simp] theorem State.onPort_panels (s : State) (o : Nat) (f : Port → Port) : (s.onPort o f).panels = s.panels := rfl
@[simp] theorem State.onPort_mem (s : State) (o : Nat) (f : Port → Port) : (s.onPort o f).mem = s.mem := rfl
@[simp] theorem State.onPort_lines (s : State) (o : Nat) (f : Port → Port) : (s.onPort o f).lines = s.lines := rfl
@[simp] theorem State.onPort_parts (s : State) (o : Nat) (f : Port → Port) : (s.onPort o f).parts = s.parts := rfl
@[simp] theorem State.onPort_packets (s : State) (o : Nat) (f : Port → Port) : (s.onPort o f).packets = s.packets := rfl
@[simp] theorem State.onPort_bcasts (s : State) (o : Nat) (f : Port → Port) : (s.onPort o f).bcasts = s.bcasts := rfl
@[simp] theorem State.onPort_reds (s : State) (o : Nat) (f : Port → Port) : (s.onPort o f).reds = s.reds := rfl
@[simp] theorem State.onPort_nextPid (s : State) (o : Nat) (f : Port → Port) : (s.onPort o f).nextPid = s.nextPid := rfl
@[simp] theorem State.onPort_epochs (s : State) (o : Nat) (f : Port → Port) : (s.onPort o f).epochs = s.epochs := rfl
@[simp] theorem State.onPort_hubEpochs (s : State) (o : Nat) (f : Port → Port) : (s.onPort o f).hubEpochs = s.hubEpochs := rfl
@[simp] theorem State.onPort_turns (s : State) (o : Nat) (f : Port → Port) : (s.onPort o f).turns = s.turns := rfl
@[simp] theorem State.onPort_epochBase (s : State) (o : Nat) (f : Port → Port) : (s.onPort o f).epochBase = s.epochBase := rfl
@[simp] theorem State.onPort_transit (s : State) (o : Nat) (f : Port → Port) : (s.onPort o f).transit = s.transit := rfl
@[simp] theorem State.onPort_lostAt (s : State) (o : Nat) (f : Port → Port) : (s.onPort o f).lostAt = s.lostAt := rfl
@[simp] theorem State.onPort_log (s : State) (o : Nat) (f : Port → Port) : (s.onPort o f).log = s.log := rfl
@[simp] theorem State.onPort_attention (s : State) (o : Nat) (f : Port → Port) : (s.onPort o f).attention = s.attention := rfl
@[simp] theorem State.onPort_fuses (s : State) (o : Nat) (f : Port → Port) : (s.onPort o f).fuses = s.fuses := rfl
@[simp] theorem State.onPort_host (s : State) (o : Nat) (f : Port → Port) : (s.onPort o f).host = s.host := rfl
@[simp] theorem State.onPort_ubide (s : State) (o : Nat) (f : Port → Port) : (s.onPort o f).ubide = s.ubide := rfl
@[simp] theorem State.onPort_rst (s : State) (o : Nat) (f : Port → Port) : (s.onPort o f).rst = s.rst := rfl
@[simp] theorem State.onPort_power (s : State) (o : Nat) (f : Port → Port) : (s.onPort o f).power = s.power := rfl
@[simp] theorem State.onPort_mstate (s : State) (o : Nat) (f : Port → Port) : (s.onPort o f).mstate = s.mstate := rfl
@[simp] theorem State.onPort_cast (s : State) (o : Nat) (f : Port → Port) : (s.onPort o f).cast = s.cast := rfl
@[simp] theorem State.onPort_hang (s : State) (o : Nat) (f : Port → Port) : (s.onPort o f).hang = s.hang := rfl
@[simp] theorem State.onPort_dbg (s : State) (o : Nat) (f : Port → Port) : (s.onPort o f).dbg = s.dbg := rfl
@[simp] theorem State.onPort_pins (s : State) (o : Nat) (f : Port → Port) : (s.onPort o f).pins = s.pins := rfl
@[simp] theorem State.onPort_freeSeq (s : State) (o : Nat) (f : Port → Port) : (s.onPort o f).freeSeq = s.freeSeq := rfl
@[simp] theorem State.onPort_pending (s : State) (o : Nat) (f : Port → Port) : (s.onPort o f).pending = s.pending := rfl

/-! onHost changes `host` alone. -/
@[simp] theorem State.onHost_now (s : State) (f : HostIf → HostIf) : (s.onHost f).now = s.now := rfl
@[simp] theorem State.onHost_cores (s : State) (f : HostIf → HostIf) : (s.onHost f).cores = s.cores := rfl
@[simp] theorem State.onHost_panels (s : State) (f : HostIf → HostIf) : (s.onHost f).panels = s.panels := rfl
@[simp] theorem State.onHost_mem (s : State) (f : HostIf → HostIf) : (s.onHost f).mem = s.mem := rfl
@[simp] theorem State.onHost_lines (s : State) (f : HostIf → HostIf) : (s.onHost f).lines = s.lines := rfl
@[simp] theorem State.onHost_parts (s : State) (f : HostIf → HostIf) : (s.onHost f).parts = s.parts := rfl
@[simp] theorem State.onHost_packets (s : State) (f : HostIf → HostIf) : (s.onHost f).packets = s.packets := rfl
@[simp] theorem State.onHost_bcasts (s : State) (f : HostIf → HostIf) : (s.onHost f).bcasts = s.bcasts := rfl
@[simp] theorem State.onHost_reds (s : State) (f : HostIf → HostIf) : (s.onHost f).reds = s.reds := rfl
@[simp] theorem State.onHost_nextPid (s : State) (f : HostIf → HostIf) : (s.onHost f).nextPid = s.nextPid := rfl
@[simp] theorem State.onHost_epochs (s : State) (f : HostIf → HostIf) : (s.onHost f).epochs = s.epochs := rfl
@[simp] theorem State.onHost_hubEpochs (s : State) (f : HostIf → HostIf) : (s.onHost f).hubEpochs = s.hubEpochs := rfl
@[simp] theorem State.onHost_turns (s : State) (f : HostIf → HostIf) : (s.onHost f).turns = s.turns := rfl
@[simp] theorem State.onHost_epochBase (s : State) (f : HostIf → HostIf) : (s.onHost f).epochBase = s.epochBase := rfl
@[simp] theorem State.onHost_transit (s : State) (f : HostIf → HostIf) : (s.onHost f).transit = s.transit := rfl
@[simp] theorem State.onHost_lostAt (s : State) (f : HostIf → HostIf) : (s.onHost f).lostAt = s.lostAt := rfl
@[simp] theorem State.onHost_log (s : State) (f : HostIf → HostIf) : (s.onHost f).log = s.log := rfl
@[simp] theorem State.onHost_attention (s : State) (f : HostIf → HostIf) : (s.onHost f).attention = s.attention := rfl
@[simp] theorem State.onHost_ports (s : State) (f : HostIf → HostIf) : (s.onHost f).ports = s.ports := rfl
@[simp] theorem State.onHost_fuses (s : State) (f : HostIf → HostIf) : (s.onHost f).fuses = s.fuses := rfl
@[simp] theorem State.onHost_ubide (s : State) (f : HostIf → HostIf) : (s.onHost f).ubide = s.ubide := rfl
@[simp] theorem State.onHost_rst (s : State) (f : HostIf → HostIf) : (s.onHost f).rst = s.rst := rfl
@[simp] theorem State.onHost_power (s : State) (f : HostIf → HostIf) : (s.onHost f).power = s.power := rfl
@[simp] theorem State.onHost_mstate (s : State) (f : HostIf → HostIf) : (s.onHost f).mstate = s.mstate := rfl
@[simp] theorem State.onHost_cast (s : State) (f : HostIf → HostIf) : (s.onHost f).cast = s.cast := rfl
@[simp] theorem State.onHost_hang (s : State) (f : HostIf → HostIf) : (s.onHost f).hang = s.hang := rfl
@[simp] theorem State.onHost_dbg (s : State) (f : HostIf → HostIf) : (s.onHost f).dbg = s.dbg := rfl
@[simp] theorem State.onHost_pins (s : State) (f : HostIf → HostIf) : (s.onHost f).pins = s.pins := rfl
@[simp] theorem State.onHost_freeSeq (s : State) (f : HostIf → HostIf) : (s.onHost f).freeSeq = s.freeSeq := rfl
@[simp] theorem State.onHost_pending (s : State) (f : HostIf → HostIf) : (s.onHost f).pending = s.pending := rfl

/-! onUbide changes `ubide` alone. -/
@[simp] theorem State.onUbide_now (s : State) (f : Ubide → Ubide) : (s.onUbide f).now = s.now := rfl
@[simp] theorem State.onUbide_cores (s : State) (f : Ubide → Ubide) : (s.onUbide f).cores = s.cores := rfl
@[simp] theorem State.onUbide_panels (s : State) (f : Ubide → Ubide) : (s.onUbide f).panels = s.panels := rfl
@[simp] theorem State.onUbide_mem (s : State) (f : Ubide → Ubide) : (s.onUbide f).mem = s.mem := rfl
@[simp] theorem State.onUbide_lines (s : State) (f : Ubide → Ubide) : (s.onUbide f).lines = s.lines := rfl
@[simp] theorem State.onUbide_parts (s : State) (f : Ubide → Ubide) : (s.onUbide f).parts = s.parts := rfl
@[simp] theorem State.onUbide_packets (s : State) (f : Ubide → Ubide) : (s.onUbide f).packets = s.packets := rfl
@[simp] theorem State.onUbide_bcasts (s : State) (f : Ubide → Ubide) : (s.onUbide f).bcasts = s.bcasts := rfl
@[simp] theorem State.onUbide_reds (s : State) (f : Ubide → Ubide) : (s.onUbide f).reds = s.reds := rfl
@[simp] theorem State.onUbide_nextPid (s : State) (f : Ubide → Ubide) : (s.onUbide f).nextPid = s.nextPid := rfl
@[simp] theorem State.onUbide_epochs (s : State) (f : Ubide → Ubide) : (s.onUbide f).epochs = s.epochs := rfl
@[simp] theorem State.onUbide_hubEpochs (s : State) (f : Ubide → Ubide) : (s.onUbide f).hubEpochs = s.hubEpochs := rfl
@[simp] theorem State.onUbide_turns (s : State) (f : Ubide → Ubide) : (s.onUbide f).turns = s.turns := rfl
@[simp] theorem State.onUbide_epochBase (s : State) (f : Ubide → Ubide) : (s.onUbide f).epochBase = s.epochBase := rfl
@[simp] theorem State.onUbide_transit (s : State) (f : Ubide → Ubide) : (s.onUbide f).transit = s.transit := rfl
@[simp] theorem State.onUbide_lostAt (s : State) (f : Ubide → Ubide) : (s.onUbide f).lostAt = s.lostAt := rfl
@[simp] theorem State.onUbide_log (s : State) (f : Ubide → Ubide) : (s.onUbide f).log = s.log := rfl
@[simp] theorem State.onUbide_attention (s : State) (f : Ubide → Ubide) : (s.onUbide f).attention = s.attention := rfl
@[simp] theorem State.onUbide_ports (s : State) (f : Ubide → Ubide) : (s.onUbide f).ports = s.ports := rfl
@[simp] theorem State.onUbide_fuses (s : State) (f : Ubide → Ubide) : (s.onUbide f).fuses = s.fuses := rfl
@[simp] theorem State.onUbide_host (s : State) (f : Ubide → Ubide) : (s.onUbide f).host = s.host := rfl
@[simp] theorem State.onUbide_rst (s : State) (f : Ubide → Ubide) : (s.onUbide f).rst = s.rst := rfl
@[simp] theorem State.onUbide_power (s : State) (f : Ubide → Ubide) : (s.onUbide f).power = s.power := rfl
@[simp] theorem State.onUbide_mstate (s : State) (f : Ubide → Ubide) : (s.onUbide f).mstate = s.mstate := rfl
@[simp] theorem State.onUbide_cast (s : State) (f : Ubide → Ubide) : (s.onUbide f).cast = s.cast := rfl
@[simp] theorem State.onUbide_hang (s : State) (f : Ubide → Ubide) : (s.onUbide f).hang = s.hang := rfl
@[simp] theorem State.onUbide_dbg (s : State) (f : Ubide → Ubide) : (s.onUbide f).dbg = s.dbg := rfl
@[simp] theorem State.onUbide_pins (s : State) (f : Ubide → Ubide) : (s.onUbide f).pins = s.pins := rfl
@[simp] theorem State.onUbide_freeSeq (s : State) (f : Ubide → Ubide) : (s.onUbide f).freeSeq = s.freeSeq := rfl
@[simp] theorem State.onUbide_pending (s : State) (f : Ubide → Ubide) : (s.onUbide f).pending = s.pending := rfl

/-! onRst changes `rst` alone. -/
@[simp] theorem State.onRst_now (s : State) (f : ResetCtl → ResetCtl) : (s.onRst f).now = s.now := rfl
@[simp] theorem State.onRst_cores (s : State) (f : ResetCtl → ResetCtl) : (s.onRst f).cores = s.cores := rfl
@[simp] theorem State.onRst_panels (s : State) (f : ResetCtl → ResetCtl) : (s.onRst f).panels = s.panels := rfl
@[simp] theorem State.onRst_mem (s : State) (f : ResetCtl → ResetCtl) : (s.onRst f).mem = s.mem := rfl
@[simp] theorem State.onRst_lines (s : State) (f : ResetCtl → ResetCtl) : (s.onRst f).lines = s.lines := rfl
@[simp] theorem State.onRst_parts (s : State) (f : ResetCtl → ResetCtl) : (s.onRst f).parts = s.parts := rfl
@[simp] theorem State.onRst_packets (s : State) (f : ResetCtl → ResetCtl) : (s.onRst f).packets = s.packets := rfl
@[simp] theorem State.onRst_bcasts (s : State) (f : ResetCtl → ResetCtl) : (s.onRst f).bcasts = s.bcasts := rfl
@[simp] theorem State.onRst_reds (s : State) (f : ResetCtl → ResetCtl) : (s.onRst f).reds = s.reds := rfl
@[simp] theorem State.onRst_nextPid (s : State) (f : ResetCtl → ResetCtl) : (s.onRst f).nextPid = s.nextPid := rfl
@[simp] theorem State.onRst_epochs (s : State) (f : ResetCtl → ResetCtl) : (s.onRst f).epochs = s.epochs := rfl
@[simp] theorem State.onRst_hubEpochs (s : State) (f : ResetCtl → ResetCtl) : (s.onRst f).hubEpochs = s.hubEpochs := rfl
@[simp] theorem State.onRst_turns (s : State) (f : ResetCtl → ResetCtl) : (s.onRst f).turns = s.turns := rfl
@[simp] theorem State.onRst_epochBase (s : State) (f : ResetCtl → ResetCtl) : (s.onRst f).epochBase = s.epochBase := rfl
@[simp] theorem State.onRst_transit (s : State) (f : ResetCtl → ResetCtl) : (s.onRst f).transit = s.transit := rfl
@[simp] theorem State.onRst_lostAt (s : State) (f : ResetCtl → ResetCtl) : (s.onRst f).lostAt = s.lostAt := rfl
@[simp] theorem State.onRst_log (s : State) (f : ResetCtl → ResetCtl) : (s.onRst f).log = s.log := rfl
@[simp] theorem State.onRst_attention (s : State) (f : ResetCtl → ResetCtl) : (s.onRst f).attention = s.attention := rfl
@[simp] theorem State.onRst_ports (s : State) (f : ResetCtl → ResetCtl) : (s.onRst f).ports = s.ports := rfl
@[simp] theorem State.onRst_fuses (s : State) (f : ResetCtl → ResetCtl) : (s.onRst f).fuses = s.fuses := rfl
@[simp] theorem State.onRst_host (s : State) (f : ResetCtl → ResetCtl) : (s.onRst f).host = s.host := rfl
@[simp] theorem State.onRst_ubide (s : State) (f : ResetCtl → ResetCtl) : (s.onRst f).ubide = s.ubide := rfl
@[simp] theorem State.onRst_power (s : State) (f : ResetCtl → ResetCtl) : (s.onRst f).power = s.power := rfl
@[simp] theorem State.onRst_mstate (s : State) (f : ResetCtl → ResetCtl) : (s.onRst f).mstate = s.mstate := rfl
@[simp] theorem State.onRst_cast (s : State) (f : ResetCtl → ResetCtl) : (s.onRst f).cast = s.cast := rfl
@[simp] theorem State.onRst_hang (s : State) (f : ResetCtl → ResetCtl) : (s.onRst f).hang = s.hang := rfl
@[simp] theorem State.onRst_dbg (s : State) (f : ResetCtl → ResetCtl) : (s.onRst f).dbg = s.dbg := rfl
@[simp] theorem State.onRst_pins (s : State) (f : ResetCtl → ResetCtl) : (s.onRst f).pins = s.pins := rfl
@[simp] theorem State.onRst_freeSeq (s : State) (f : ResetCtl → ResetCtl) : (s.onRst f).freeSeq = s.freeSeq := rfl
@[simp] theorem State.onRst_pending (s : State) (f : ResetCtl → ResetCtl) : (s.onRst f).pending = s.pending := rfl

/-! onPower changes `power` alone. -/
@[simp] theorem State.onPower_now (s : State) (f : Power → Power) : (s.onPower f).now = s.now := rfl
@[simp] theorem State.onPower_cores (s : State) (f : Power → Power) : (s.onPower f).cores = s.cores := rfl
@[simp] theorem State.onPower_panels (s : State) (f : Power → Power) : (s.onPower f).panels = s.panels := rfl
@[simp] theorem State.onPower_mem (s : State) (f : Power → Power) : (s.onPower f).mem = s.mem := rfl
@[simp] theorem State.onPower_lines (s : State) (f : Power → Power) : (s.onPower f).lines = s.lines := rfl
@[simp] theorem State.onPower_parts (s : State) (f : Power → Power) : (s.onPower f).parts = s.parts := rfl
@[simp] theorem State.onPower_packets (s : State) (f : Power → Power) : (s.onPower f).packets = s.packets := rfl
@[simp] theorem State.onPower_bcasts (s : State) (f : Power → Power) : (s.onPower f).bcasts = s.bcasts := rfl
@[simp] theorem State.onPower_reds (s : State) (f : Power → Power) : (s.onPower f).reds = s.reds := rfl
@[simp] theorem State.onPower_nextPid (s : State) (f : Power → Power) : (s.onPower f).nextPid = s.nextPid := rfl
@[simp] theorem State.onPower_epochs (s : State) (f : Power → Power) : (s.onPower f).epochs = s.epochs := rfl
@[simp] theorem State.onPower_hubEpochs (s : State) (f : Power → Power) : (s.onPower f).hubEpochs = s.hubEpochs := rfl
@[simp] theorem State.onPower_turns (s : State) (f : Power → Power) : (s.onPower f).turns = s.turns := rfl
@[simp] theorem State.onPower_epochBase (s : State) (f : Power → Power) : (s.onPower f).epochBase = s.epochBase := rfl
@[simp] theorem State.onPower_transit (s : State) (f : Power → Power) : (s.onPower f).transit = s.transit := rfl
@[simp] theorem State.onPower_lostAt (s : State) (f : Power → Power) : (s.onPower f).lostAt = s.lostAt := rfl
@[simp] theorem State.onPower_log (s : State) (f : Power → Power) : (s.onPower f).log = s.log := rfl
@[simp] theorem State.onPower_attention (s : State) (f : Power → Power) : (s.onPower f).attention = s.attention := rfl
@[simp] theorem State.onPower_ports (s : State) (f : Power → Power) : (s.onPower f).ports = s.ports := rfl
@[simp] theorem State.onPower_fuses (s : State) (f : Power → Power) : (s.onPower f).fuses = s.fuses := rfl
@[simp] theorem State.onPower_host (s : State) (f : Power → Power) : (s.onPower f).host = s.host := rfl
@[simp] theorem State.onPower_ubide (s : State) (f : Power → Power) : (s.onPower f).ubide = s.ubide := rfl
@[simp] theorem State.onPower_rst (s : State) (f : Power → Power) : (s.onPower f).rst = s.rst := rfl
@[simp] theorem State.onPower_mstate (s : State) (f : Power → Power) : (s.onPower f).mstate = s.mstate := rfl
@[simp] theorem State.onPower_cast (s : State) (f : Power → Power) : (s.onPower f).cast = s.cast := rfl
@[simp] theorem State.onPower_hang (s : State) (f : Power → Power) : (s.onPower f).hang = s.hang := rfl
@[simp] theorem State.onPower_dbg (s : State) (f : Power → Power) : (s.onPower f).dbg = s.dbg := rfl
@[simp] theorem State.onPower_pins (s : State) (f : Power → Power) : (s.onPower f).pins = s.pins := rfl
@[simp] theorem State.onPower_freeSeq (s : State) (f : Power → Power) : (s.onPower f).freeSeq = s.freeSeq := rfl
@[simp] theorem State.onPower_pending (s : State) (f : Power → Power) : (s.onPower f).pending = s.pending := rfl

/-! onJob changes `parts` alone. -/
@[simp] theorem State.onJob_now (s : State) (k : Nat) (f : JobSt → JobSt) : (s.onJob k f).now = s.now := rfl
@[simp] theorem State.onJob_cores (s : State) (k : Nat) (f : JobSt → JobSt) : (s.onJob k f).cores = s.cores := rfl
@[simp] theorem State.onJob_panels (s : State) (k : Nat) (f : JobSt → JobSt) : (s.onJob k f).panels = s.panels := rfl
@[simp] theorem State.onJob_mem (s : State) (k : Nat) (f : JobSt → JobSt) : (s.onJob k f).mem = s.mem := rfl
@[simp] theorem State.onJob_lines (s : State) (k : Nat) (f : JobSt → JobSt) : (s.onJob k f).lines = s.lines := rfl
@[simp] theorem State.onJob_packets (s : State) (k : Nat) (f : JobSt → JobSt) : (s.onJob k f).packets = s.packets := rfl
@[simp] theorem State.onJob_bcasts (s : State) (k : Nat) (f : JobSt → JobSt) : (s.onJob k f).bcasts = s.bcasts := rfl
@[simp] theorem State.onJob_reds (s : State) (k : Nat) (f : JobSt → JobSt) : (s.onJob k f).reds = s.reds := rfl
@[simp] theorem State.onJob_nextPid (s : State) (k : Nat) (f : JobSt → JobSt) : (s.onJob k f).nextPid = s.nextPid := rfl
@[simp] theorem State.onJob_epochs (s : State) (k : Nat) (f : JobSt → JobSt) : (s.onJob k f).epochs = s.epochs := rfl
@[simp] theorem State.onJob_hubEpochs (s : State) (k : Nat) (f : JobSt → JobSt) : (s.onJob k f).hubEpochs = s.hubEpochs := rfl
@[simp] theorem State.onJob_turns (s : State) (k : Nat) (f : JobSt → JobSt) : (s.onJob k f).turns = s.turns := rfl
@[simp] theorem State.onJob_epochBase (s : State) (k : Nat) (f : JobSt → JobSt) : (s.onJob k f).epochBase = s.epochBase := rfl
@[simp] theorem State.onJob_transit (s : State) (k : Nat) (f : JobSt → JobSt) : (s.onJob k f).transit = s.transit := rfl
@[simp] theorem State.onJob_lostAt (s : State) (k : Nat) (f : JobSt → JobSt) : (s.onJob k f).lostAt = s.lostAt := rfl
@[simp] theorem State.onJob_log (s : State) (k : Nat) (f : JobSt → JobSt) : (s.onJob k f).log = s.log := rfl
@[simp] theorem State.onJob_attention (s : State) (k : Nat) (f : JobSt → JobSt) : (s.onJob k f).attention = s.attention := rfl
@[simp] theorem State.onJob_ports (s : State) (k : Nat) (f : JobSt → JobSt) : (s.onJob k f).ports = s.ports := rfl
@[simp] theorem State.onJob_fuses (s : State) (k : Nat) (f : JobSt → JobSt) : (s.onJob k f).fuses = s.fuses := rfl
@[simp] theorem State.onJob_host (s : State) (k : Nat) (f : JobSt → JobSt) : (s.onJob k f).host = s.host := rfl
@[simp] theorem State.onJob_ubide (s : State) (k : Nat) (f : JobSt → JobSt) : (s.onJob k f).ubide = s.ubide := rfl
@[simp] theorem State.onJob_rst (s : State) (k : Nat) (f : JobSt → JobSt) : (s.onJob k f).rst = s.rst := rfl
@[simp] theorem State.onJob_power (s : State) (k : Nat) (f : JobSt → JobSt) : (s.onJob k f).power = s.power := rfl
@[simp] theorem State.onJob_mstate (s : State) (k : Nat) (f : JobSt → JobSt) : (s.onJob k f).mstate = s.mstate := rfl
@[simp] theorem State.onJob_cast (s : State) (k : Nat) (f : JobSt → JobSt) : (s.onJob k f).cast = s.cast := rfl
@[simp] theorem State.onJob_hang (s : State) (k : Nat) (f : JobSt → JobSt) : (s.onJob k f).hang = s.hang := rfl
@[simp] theorem State.onJob_dbg (s : State) (k : Nat) (f : JobSt → JobSt) : (s.onJob k f).dbg = s.dbg := rfl
@[simp] theorem State.onJob_pins (s : State) (k : Nat) (f : JobSt → JobSt) : (s.onJob k f).pins = s.pins := rfl
@[simp] theorem State.onJob_freeSeq (s : State) (k : Nat) (f : JobSt → JobSt) : (s.onJob k f).freeSeq = s.freeSeq := rfl
@[simp] theorem State.onJob_pending (s : State) (k : Nat) (f : JobSt → JobSt) : (s.onJob k f).pending = s.pending := rfl

/-! onCtx changes `cores` alone. -/
@[simp] theorem State.onCtx_now (s : State) (n k : Nat) (f : Ctx → Ctx) : (s.onCtx n k f).now = s.now := rfl
@[simp] theorem State.onCtx_panels (s : State) (n k : Nat) (f : Ctx → Ctx) : (s.onCtx n k f).panels = s.panels := rfl
@[simp] theorem State.onCtx_mem (s : State) (n k : Nat) (f : Ctx → Ctx) : (s.onCtx n k f).mem = s.mem := rfl
@[simp] theorem State.onCtx_lines (s : State) (n k : Nat) (f : Ctx → Ctx) : (s.onCtx n k f).lines = s.lines := rfl
@[simp] theorem State.onCtx_parts (s : State) (n k : Nat) (f : Ctx → Ctx) : (s.onCtx n k f).parts = s.parts := rfl
@[simp] theorem State.onCtx_packets (s : State) (n k : Nat) (f : Ctx → Ctx) : (s.onCtx n k f).packets = s.packets := rfl
@[simp] theorem State.onCtx_bcasts (s : State) (n k : Nat) (f : Ctx → Ctx) : (s.onCtx n k f).bcasts = s.bcasts := rfl
@[simp] theorem State.onCtx_reds (s : State) (n k : Nat) (f : Ctx → Ctx) : (s.onCtx n k f).reds = s.reds := rfl
@[simp] theorem State.onCtx_nextPid (s : State) (n k : Nat) (f : Ctx → Ctx) : (s.onCtx n k f).nextPid = s.nextPid := rfl
@[simp] theorem State.onCtx_epochs (s : State) (n k : Nat) (f : Ctx → Ctx) : (s.onCtx n k f).epochs = s.epochs := rfl
@[simp] theorem State.onCtx_hubEpochs (s : State) (n k : Nat) (f : Ctx → Ctx) : (s.onCtx n k f).hubEpochs = s.hubEpochs := rfl
@[simp] theorem State.onCtx_turns (s : State) (n k : Nat) (f : Ctx → Ctx) : (s.onCtx n k f).turns = s.turns := rfl
@[simp] theorem State.onCtx_epochBase (s : State) (n k : Nat) (f : Ctx → Ctx) : (s.onCtx n k f).epochBase = s.epochBase := rfl
@[simp] theorem State.onCtx_transit (s : State) (n k : Nat) (f : Ctx → Ctx) : (s.onCtx n k f).transit = s.transit := rfl
@[simp] theorem State.onCtx_lostAt (s : State) (n k : Nat) (f : Ctx → Ctx) : (s.onCtx n k f).lostAt = s.lostAt := rfl
@[simp] theorem State.onCtx_log (s : State) (n k : Nat) (f : Ctx → Ctx) : (s.onCtx n k f).log = s.log := rfl
@[simp] theorem State.onCtx_attention (s : State) (n k : Nat) (f : Ctx → Ctx) : (s.onCtx n k f).attention = s.attention := rfl
@[simp] theorem State.onCtx_ports (s : State) (n k : Nat) (f : Ctx → Ctx) : (s.onCtx n k f).ports = s.ports := rfl
@[simp] theorem State.onCtx_fuses (s : State) (n k : Nat) (f : Ctx → Ctx) : (s.onCtx n k f).fuses = s.fuses := rfl
@[simp] theorem State.onCtx_host (s : State) (n k : Nat) (f : Ctx → Ctx) : (s.onCtx n k f).host = s.host := rfl
@[simp] theorem State.onCtx_ubide (s : State) (n k : Nat) (f : Ctx → Ctx) : (s.onCtx n k f).ubide = s.ubide := rfl
@[simp] theorem State.onCtx_rst (s : State) (n k : Nat) (f : Ctx → Ctx) : (s.onCtx n k f).rst = s.rst := rfl
@[simp] theorem State.onCtx_power (s : State) (n k : Nat) (f : Ctx → Ctx) : (s.onCtx n k f).power = s.power := rfl
@[simp] theorem State.onCtx_mstate (s : State) (n k : Nat) (f : Ctx → Ctx) : (s.onCtx n k f).mstate = s.mstate := rfl
@[simp] theorem State.onCtx_cast (s : State) (n k : Nat) (f : Ctx → Ctx) : (s.onCtx n k f).cast = s.cast := rfl
@[simp] theorem State.onCtx_hang (s : State) (n k : Nat) (f : Ctx → Ctx) : (s.onCtx n k f).hang = s.hang := rfl
@[simp] theorem State.onCtx_dbg (s : State) (n k : Nat) (f : Ctx → Ctx) : (s.onCtx n k f).dbg = s.dbg := rfl
@[simp] theorem State.onCtx_pins (s : State) (n k : Nat) (f : Ctx → Ctx) : (s.onCtx n k f).pins = s.pins := rfl
@[simp] theorem State.onCtx_freeSeq (s : State) (n k : Nat) (f : Ctx → Ctx) : (s.onCtx n k f).freeSeq = s.freeSeq := rfl
@[simp] theorem State.onCtx_pending (s : State) (n k : Nat) (f : Ctx → Ctx) : (s.onCtx n k f).pending = s.pending := rfl

/-! onCur changes `cores` alone. -/
@[simp] theorem State.onCur_now (s : State) (n : Nat) (f : Ctx → Ctx) : (s.onCur n f).now = s.now := rfl
@[simp] theorem State.onCur_panels (s : State) (n : Nat) (f : Ctx → Ctx) : (s.onCur n f).panels = s.panels := rfl
@[simp] theorem State.onCur_mem (s : State) (n : Nat) (f : Ctx → Ctx) : (s.onCur n f).mem = s.mem := rfl
@[simp] theorem State.onCur_lines (s : State) (n : Nat) (f : Ctx → Ctx) : (s.onCur n f).lines = s.lines := rfl
@[simp] theorem State.onCur_parts (s : State) (n : Nat) (f : Ctx → Ctx) : (s.onCur n f).parts = s.parts := rfl
@[simp] theorem State.onCur_packets (s : State) (n : Nat) (f : Ctx → Ctx) : (s.onCur n f).packets = s.packets := rfl
@[simp] theorem State.onCur_bcasts (s : State) (n : Nat) (f : Ctx → Ctx) : (s.onCur n f).bcasts = s.bcasts := rfl
@[simp] theorem State.onCur_reds (s : State) (n : Nat) (f : Ctx → Ctx) : (s.onCur n f).reds = s.reds := rfl
@[simp] theorem State.onCur_nextPid (s : State) (n : Nat) (f : Ctx → Ctx) : (s.onCur n f).nextPid = s.nextPid := rfl
@[simp] theorem State.onCur_epochs (s : State) (n : Nat) (f : Ctx → Ctx) : (s.onCur n f).epochs = s.epochs := rfl
@[simp] theorem State.onCur_hubEpochs (s : State) (n : Nat) (f : Ctx → Ctx) : (s.onCur n f).hubEpochs = s.hubEpochs := rfl
@[simp] theorem State.onCur_turns (s : State) (n : Nat) (f : Ctx → Ctx) : (s.onCur n f).turns = s.turns := rfl
@[simp] theorem State.onCur_epochBase (s : State) (n : Nat) (f : Ctx → Ctx) : (s.onCur n f).epochBase = s.epochBase := rfl
@[simp] theorem State.onCur_transit (s : State) (n : Nat) (f : Ctx → Ctx) : (s.onCur n f).transit = s.transit := rfl
@[simp] theorem State.onCur_lostAt (s : State) (n : Nat) (f : Ctx → Ctx) : (s.onCur n f).lostAt = s.lostAt := rfl
@[simp] theorem State.onCur_log (s : State) (n : Nat) (f : Ctx → Ctx) : (s.onCur n f).log = s.log := rfl
@[simp] theorem State.onCur_attention (s : State) (n : Nat) (f : Ctx → Ctx) : (s.onCur n f).attention = s.attention := rfl
@[simp] theorem State.onCur_ports (s : State) (n : Nat) (f : Ctx → Ctx) : (s.onCur n f).ports = s.ports := rfl
@[simp] theorem State.onCur_fuses (s : State) (n : Nat) (f : Ctx → Ctx) : (s.onCur n f).fuses = s.fuses := rfl
@[simp] theorem State.onCur_host (s : State) (n : Nat) (f : Ctx → Ctx) : (s.onCur n f).host = s.host := rfl
@[simp] theorem State.onCur_ubide (s : State) (n : Nat) (f : Ctx → Ctx) : (s.onCur n f).ubide = s.ubide := rfl
@[simp] theorem State.onCur_rst (s : State) (n : Nat) (f : Ctx → Ctx) : (s.onCur n f).rst = s.rst := rfl
@[simp] theorem State.onCur_power (s : State) (n : Nat) (f : Ctx → Ctx) : (s.onCur n f).power = s.power := rfl
@[simp] theorem State.onCur_mstate (s : State) (n : Nat) (f : Ctx → Ctx) : (s.onCur n f).mstate = s.mstate := rfl
@[simp] theorem State.onCur_cast (s : State) (n : Nat) (f : Ctx → Ctx) : (s.onCur n f).cast = s.cast := rfl
@[simp] theorem State.onCur_hang (s : State) (n : Nat) (f : Ctx → Ctx) : (s.onCur n f).hang = s.hang := rfl
@[simp] theorem State.onCur_dbg (s : State) (n : Nat) (f : Ctx → Ctx) : (s.onCur n f).dbg = s.dbg := rfl
@[simp] theorem State.onCur_pins (s : State) (n : Nat) (f : Ctx → Ctx) : (s.onCur n f).pins = s.pins := rfl
@[simp] theorem State.onCur_freeSeq (s : State) (n : Nat) (f : Ctx → Ctx) : (s.onCur n f).freeSeq = s.freeSeq := rfl
@[simp] theorem State.onCur_pending (s : State) (n : Nat) (f : Ctx → Ctx) : (s.onCur n f).pending = s.pending := rfl

/-! onCounts changes `cores` alone. -/
@[simp] theorem State.onCounts_now (s : State) (n : Nat) (f : Counts → Counts) : (s.onCounts n f).now = s.now := rfl
@[simp] theorem State.onCounts_panels (s : State) (n : Nat) (f : Counts → Counts) : (s.onCounts n f).panels = s.panels := rfl
@[simp] theorem State.onCounts_mem (s : State) (n : Nat) (f : Counts → Counts) : (s.onCounts n f).mem = s.mem := rfl
@[simp] theorem State.onCounts_lines (s : State) (n : Nat) (f : Counts → Counts) : (s.onCounts n f).lines = s.lines := rfl
@[simp] theorem State.onCounts_parts (s : State) (n : Nat) (f : Counts → Counts) : (s.onCounts n f).parts = s.parts := rfl
@[simp] theorem State.onCounts_packets (s : State) (n : Nat) (f : Counts → Counts) : (s.onCounts n f).packets = s.packets := rfl
@[simp] theorem State.onCounts_bcasts (s : State) (n : Nat) (f : Counts → Counts) : (s.onCounts n f).bcasts = s.bcasts := rfl
@[simp] theorem State.onCounts_reds (s : State) (n : Nat) (f : Counts → Counts) : (s.onCounts n f).reds = s.reds := rfl
@[simp] theorem State.onCounts_nextPid (s : State) (n : Nat) (f : Counts → Counts) : (s.onCounts n f).nextPid = s.nextPid := rfl
@[simp] theorem State.onCounts_epochs (s : State) (n : Nat) (f : Counts → Counts) : (s.onCounts n f).epochs = s.epochs := rfl
@[simp] theorem State.onCounts_hubEpochs (s : State) (n : Nat) (f : Counts → Counts) : (s.onCounts n f).hubEpochs = s.hubEpochs := rfl
@[simp] theorem State.onCounts_turns (s : State) (n : Nat) (f : Counts → Counts) : (s.onCounts n f).turns = s.turns := rfl
@[simp] theorem State.onCounts_epochBase (s : State) (n : Nat) (f : Counts → Counts) : (s.onCounts n f).epochBase = s.epochBase := rfl
@[simp] theorem State.onCounts_transit (s : State) (n : Nat) (f : Counts → Counts) : (s.onCounts n f).transit = s.transit := rfl
@[simp] theorem State.onCounts_lostAt (s : State) (n : Nat) (f : Counts → Counts) : (s.onCounts n f).lostAt = s.lostAt := rfl
@[simp] theorem State.onCounts_log (s : State) (n : Nat) (f : Counts → Counts) : (s.onCounts n f).log = s.log := rfl
@[simp] theorem State.onCounts_attention (s : State) (n : Nat) (f : Counts → Counts) : (s.onCounts n f).attention = s.attention := rfl
@[simp] theorem State.onCounts_ports (s : State) (n : Nat) (f : Counts → Counts) : (s.onCounts n f).ports = s.ports := rfl
@[simp] theorem State.onCounts_fuses (s : State) (n : Nat) (f : Counts → Counts) : (s.onCounts n f).fuses = s.fuses := rfl
@[simp] theorem State.onCounts_host (s : State) (n : Nat) (f : Counts → Counts) : (s.onCounts n f).host = s.host := rfl
@[simp] theorem State.onCounts_ubide (s : State) (n : Nat) (f : Counts → Counts) : (s.onCounts n f).ubide = s.ubide := rfl
@[simp] theorem State.onCounts_rst (s : State) (n : Nat) (f : Counts → Counts) : (s.onCounts n f).rst = s.rst := rfl
@[simp] theorem State.onCounts_power (s : State) (n : Nat) (f : Counts → Counts) : (s.onCounts n f).power = s.power := rfl
@[simp] theorem State.onCounts_mstate (s : State) (n : Nat) (f : Counts → Counts) : (s.onCounts n f).mstate = s.mstate := rfl
@[simp] theorem State.onCounts_cast (s : State) (n : Nat) (f : Counts → Counts) : (s.onCounts n f).cast = s.cast := rfl
@[simp] theorem State.onCounts_hang (s : State) (n : Nat) (f : Counts → Counts) : (s.onCounts n f).hang = s.hang := rfl
@[simp] theorem State.onCounts_dbg (s : State) (n : Nat) (f : Counts → Counts) : (s.onCounts n f).dbg = s.dbg := rfl
@[simp] theorem State.onCounts_pins (s : State) (n : Nat) (f : Counts → Counts) : (s.onCounts n f).pins = s.pins := rfl
@[simp] theorem State.onCounts_freeSeq (s : State) (n : Nat) (f : Counts → Counts) : (s.onCounts n f).freeSeq = s.freeSeq := rfl
@[simp] theorem State.onCounts_pending (s : State) (n : Nat) (f : Counts → Counts) : (s.onCounts n f).pending = s.pending := rfl

/-! onArr changes `cores` alone. -/
@[simp] theorem State.onArr_now (s : State) (n a : Nat) (f : Arr → Arr) : (s.onArr n a f).now = s.now := rfl
@[simp] theorem State.onArr_panels (s : State) (n a : Nat) (f : Arr → Arr) : (s.onArr n a f).panels = s.panels := rfl
@[simp] theorem State.onArr_mem (s : State) (n a : Nat) (f : Arr → Arr) : (s.onArr n a f).mem = s.mem := rfl
@[simp] theorem State.onArr_lines (s : State) (n a : Nat) (f : Arr → Arr) : (s.onArr n a f).lines = s.lines := rfl
@[simp] theorem State.onArr_parts (s : State) (n a : Nat) (f : Arr → Arr) : (s.onArr n a f).parts = s.parts := rfl
@[simp] theorem State.onArr_packets (s : State) (n a : Nat) (f : Arr → Arr) : (s.onArr n a f).packets = s.packets := rfl
@[simp] theorem State.onArr_bcasts (s : State) (n a : Nat) (f : Arr → Arr) : (s.onArr n a f).bcasts = s.bcasts := rfl
@[simp] theorem State.onArr_reds (s : State) (n a : Nat) (f : Arr → Arr) : (s.onArr n a f).reds = s.reds := rfl
@[simp] theorem State.onArr_nextPid (s : State) (n a : Nat) (f : Arr → Arr) : (s.onArr n a f).nextPid = s.nextPid := rfl
@[simp] theorem State.onArr_epochs (s : State) (n a : Nat) (f : Arr → Arr) : (s.onArr n a f).epochs = s.epochs := rfl
@[simp] theorem State.onArr_hubEpochs (s : State) (n a : Nat) (f : Arr → Arr) : (s.onArr n a f).hubEpochs = s.hubEpochs := rfl
@[simp] theorem State.onArr_turns (s : State) (n a : Nat) (f : Arr → Arr) : (s.onArr n a f).turns = s.turns := rfl
@[simp] theorem State.onArr_epochBase (s : State) (n a : Nat) (f : Arr → Arr) : (s.onArr n a f).epochBase = s.epochBase := rfl
@[simp] theorem State.onArr_transit (s : State) (n a : Nat) (f : Arr → Arr) : (s.onArr n a f).transit = s.transit := rfl
@[simp] theorem State.onArr_lostAt (s : State) (n a : Nat) (f : Arr → Arr) : (s.onArr n a f).lostAt = s.lostAt := rfl
@[simp] theorem State.onArr_log (s : State) (n a : Nat) (f : Arr → Arr) : (s.onArr n a f).log = s.log := rfl
@[simp] theorem State.onArr_attention (s : State) (n a : Nat) (f : Arr → Arr) : (s.onArr n a f).attention = s.attention := rfl
@[simp] theorem State.onArr_ports (s : State) (n a : Nat) (f : Arr → Arr) : (s.onArr n a f).ports = s.ports := rfl
@[simp] theorem State.onArr_fuses (s : State) (n a : Nat) (f : Arr → Arr) : (s.onArr n a f).fuses = s.fuses := rfl
@[simp] theorem State.onArr_host (s : State) (n a : Nat) (f : Arr → Arr) : (s.onArr n a f).host = s.host := rfl
@[simp] theorem State.onArr_ubide (s : State) (n a : Nat) (f : Arr → Arr) : (s.onArr n a f).ubide = s.ubide := rfl
@[simp] theorem State.onArr_rst (s : State) (n a : Nat) (f : Arr → Arr) : (s.onArr n a f).rst = s.rst := rfl
@[simp] theorem State.onArr_power (s : State) (n a : Nat) (f : Arr → Arr) : (s.onArr n a f).power = s.power := rfl
@[simp] theorem State.onArr_mstate (s : State) (n a : Nat) (f : Arr → Arr) : (s.onArr n a f).mstate = s.mstate := rfl
@[simp] theorem State.onArr_cast (s : State) (n a : Nat) (f : Arr → Arr) : (s.onArr n a f).cast = s.cast := rfl
@[simp] theorem State.onArr_hang (s : State) (n a : Nat) (f : Arr → Arr) : (s.onArr n a f).hang = s.hang := rfl
@[simp] theorem State.onArr_dbg (s : State) (n a : Nat) (f : Arr → Arr) : (s.onArr n a f).dbg = s.dbg := rfl
@[simp] theorem State.onArr_pins (s : State) (n a : Nat) (f : Arr → Arr) : (s.onArr n a f).pins = s.pins := rfl
@[simp] theorem State.onArr_freeSeq (s : State) (n a : Nat) (f : Arr → Arr) : (s.onArr n a f).freeSeq = s.freeSeq := rfl
@[simp] theorem State.onArr_pending (s : State) (n a : Nat) (f : Arr → Arr) : (s.onArr n a f).pending = s.pending := rfl

/-! onList changes `cores` alone. -/
@[simp] theorem State.onList_now (s : State) (n k l : Nat) (f : SList → SList) : (s.onList n k l f).now = s.now := rfl
@[simp] theorem State.onList_panels (s : State) (n k l : Nat) (f : SList → SList) : (s.onList n k l f).panels = s.panels := rfl
@[simp] theorem State.onList_mem (s : State) (n k l : Nat) (f : SList → SList) : (s.onList n k l f).mem = s.mem := rfl
@[simp] theorem State.onList_lines (s : State) (n k l : Nat) (f : SList → SList) : (s.onList n k l f).lines = s.lines := rfl
@[simp] theorem State.onList_parts (s : State) (n k l : Nat) (f : SList → SList) : (s.onList n k l f).parts = s.parts := rfl
@[simp] theorem State.onList_packets (s : State) (n k l : Nat) (f : SList → SList) : (s.onList n k l f).packets = s.packets := rfl
@[simp] theorem State.onList_bcasts (s : State) (n k l : Nat) (f : SList → SList) : (s.onList n k l f).bcasts = s.bcasts := rfl
@[simp] theorem State.onList_reds (s : State) (n k l : Nat) (f : SList → SList) : (s.onList n k l f).reds = s.reds := rfl
@[simp] theorem State.onList_nextPid (s : State) (n k l : Nat) (f : SList → SList) : (s.onList n k l f).nextPid = s.nextPid := rfl
@[simp] theorem State.onList_epochs (s : State) (n k l : Nat) (f : SList → SList) : (s.onList n k l f).epochs = s.epochs := rfl
@[simp] theorem State.onList_hubEpochs (s : State) (n k l : Nat) (f : SList → SList) : (s.onList n k l f).hubEpochs = s.hubEpochs := rfl
@[simp] theorem State.onList_turns (s : State) (n k l : Nat) (f : SList → SList) : (s.onList n k l f).turns = s.turns := rfl
@[simp] theorem State.onList_epochBase (s : State) (n k l : Nat) (f : SList → SList) : (s.onList n k l f).epochBase = s.epochBase := rfl
@[simp] theorem State.onList_transit (s : State) (n k l : Nat) (f : SList → SList) : (s.onList n k l f).transit = s.transit := rfl
@[simp] theorem State.onList_lostAt (s : State) (n k l : Nat) (f : SList → SList) : (s.onList n k l f).lostAt = s.lostAt := rfl
@[simp] theorem State.onList_log (s : State) (n k l : Nat) (f : SList → SList) : (s.onList n k l f).log = s.log := rfl
@[simp] theorem State.onList_attention (s : State) (n k l : Nat) (f : SList → SList) : (s.onList n k l f).attention = s.attention := rfl
@[simp] theorem State.onList_ports (s : State) (n k l : Nat) (f : SList → SList) : (s.onList n k l f).ports = s.ports := rfl
@[simp] theorem State.onList_fuses (s : State) (n k l : Nat) (f : SList → SList) : (s.onList n k l f).fuses = s.fuses := rfl
@[simp] theorem State.onList_host (s : State) (n k l : Nat) (f : SList → SList) : (s.onList n k l f).host = s.host := rfl
@[simp] theorem State.onList_ubide (s : State) (n k l : Nat) (f : SList → SList) : (s.onList n k l f).ubide = s.ubide := rfl
@[simp] theorem State.onList_rst (s : State) (n k l : Nat) (f : SList → SList) : (s.onList n k l f).rst = s.rst := rfl
@[simp] theorem State.onList_power (s : State) (n k l : Nat) (f : SList → SList) : (s.onList n k l f).power = s.power := rfl
@[simp] theorem State.onList_mstate (s : State) (n k l : Nat) (f : SList → SList) : (s.onList n k l f).mstate = s.mstate := rfl
@[simp] theorem State.onList_cast (s : State) (n k l : Nat) (f : SList → SList) : (s.onList n k l f).cast = s.cast := rfl
@[simp] theorem State.onList_hang (s : State) (n k l : Nat) (f : SList → SList) : (s.onList n k l f).hang = s.hang := rfl
@[simp] theorem State.onList_dbg (s : State) (n k l : Nat) (f : SList → SList) : (s.onList n k l f).dbg = s.dbg := rfl
@[simp] theorem State.onList_pins (s : State) (n k l : Nat) (f : SList → SList) : (s.onList n k l f).pins = s.pins := rfl
@[simp] theorem State.onList_freeSeq (s : State) (n k l : Nat) (f : SList → SList) : (s.onList n k l f).freeSeq = s.freeSeq := rfl
@[simp] theorem State.onList_pending (s : State) (n k l : Nat) (f : SList → SList) : (s.onList n k l f).pending = s.pending := rfl

/-! onSlot changes `cores` alone. -/
@[simp] theorem State.onSlot_now (s : State) (n k q : Nat) (f : QSlot → QSlot) : (s.onSlot n k q f).now = s.now := rfl
@[simp] theorem State.onSlot_panels (s : State) (n k q : Nat) (f : QSlot → QSlot) : (s.onSlot n k q f).panels = s.panels := rfl
@[simp] theorem State.onSlot_mem (s : State) (n k q : Nat) (f : QSlot → QSlot) : (s.onSlot n k q f).mem = s.mem := rfl
@[simp] theorem State.onSlot_lines (s : State) (n k q : Nat) (f : QSlot → QSlot) : (s.onSlot n k q f).lines = s.lines := rfl
@[simp] theorem State.onSlot_parts (s : State) (n k q : Nat) (f : QSlot → QSlot) : (s.onSlot n k q f).parts = s.parts := rfl
@[simp] theorem State.onSlot_packets (s : State) (n k q : Nat) (f : QSlot → QSlot) : (s.onSlot n k q f).packets = s.packets := rfl
@[simp] theorem State.onSlot_bcasts (s : State) (n k q : Nat) (f : QSlot → QSlot) : (s.onSlot n k q f).bcasts = s.bcasts := rfl
@[simp] theorem State.onSlot_reds (s : State) (n k q : Nat) (f : QSlot → QSlot) : (s.onSlot n k q f).reds = s.reds := rfl
@[simp] theorem State.onSlot_nextPid (s : State) (n k q : Nat) (f : QSlot → QSlot) : (s.onSlot n k q f).nextPid = s.nextPid := rfl
@[simp] theorem State.onSlot_epochs (s : State) (n k q : Nat) (f : QSlot → QSlot) : (s.onSlot n k q f).epochs = s.epochs := rfl
@[simp] theorem State.onSlot_hubEpochs (s : State) (n k q : Nat) (f : QSlot → QSlot) : (s.onSlot n k q f).hubEpochs = s.hubEpochs := rfl
@[simp] theorem State.onSlot_turns (s : State) (n k q : Nat) (f : QSlot → QSlot) : (s.onSlot n k q f).turns = s.turns := rfl
@[simp] theorem State.onSlot_epochBase (s : State) (n k q : Nat) (f : QSlot → QSlot) : (s.onSlot n k q f).epochBase = s.epochBase := rfl
@[simp] theorem State.onSlot_transit (s : State) (n k q : Nat) (f : QSlot → QSlot) : (s.onSlot n k q f).transit = s.transit := rfl
@[simp] theorem State.onSlot_lostAt (s : State) (n k q : Nat) (f : QSlot → QSlot) : (s.onSlot n k q f).lostAt = s.lostAt := rfl
@[simp] theorem State.onSlot_log (s : State) (n k q : Nat) (f : QSlot → QSlot) : (s.onSlot n k q f).log = s.log := rfl
@[simp] theorem State.onSlot_attention (s : State) (n k q : Nat) (f : QSlot → QSlot) : (s.onSlot n k q f).attention = s.attention := rfl
@[simp] theorem State.onSlot_ports (s : State) (n k q : Nat) (f : QSlot → QSlot) : (s.onSlot n k q f).ports = s.ports := rfl
@[simp] theorem State.onSlot_fuses (s : State) (n k q : Nat) (f : QSlot → QSlot) : (s.onSlot n k q f).fuses = s.fuses := rfl
@[simp] theorem State.onSlot_host (s : State) (n k q : Nat) (f : QSlot → QSlot) : (s.onSlot n k q f).host = s.host := rfl
@[simp] theorem State.onSlot_ubide (s : State) (n k q : Nat) (f : QSlot → QSlot) : (s.onSlot n k q f).ubide = s.ubide := rfl
@[simp] theorem State.onSlot_rst (s : State) (n k q : Nat) (f : QSlot → QSlot) : (s.onSlot n k q f).rst = s.rst := rfl
@[simp] theorem State.onSlot_power (s : State) (n k q : Nat) (f : QSlot → QSlot) : (s.onSlot n k q f).power = s.power := rfl
@[simp] theorem State.onSlot_mstate (s : State) (n k q : Nat) (f : QSlot → QSlot) : (s.onSlot n k q f).mstate = s.mstate := rfl
@[simp] theorem State.onSlot_cast (s : State) (n k q : Nat) (f : QSlot → QSlot) : (s.onSlot n k q f).cast = s.cast := rfl
@[simp] theorem State.onSlot_hang (s : State) (n k q : Nat) (f : QSlot → QSlot) : (s.onSlot n k q f).hang = s.hang := rfl
@[simp] theorem State.onSlot_dbg (s : State) (n k q : Nat) (f : QSlot → QSlot) : (s.onSlot n k q f).dbg = s.dbg := rfl
@[simp] theorem State.onSlot_pins (s : State) (n k q : Nat) (f : QSlot → QSlot) : (s.onSlot n k q f).pins = s.pins := rfl
@[simp] theorem State.onSlot_freeSeq (s : State) (n k q : Nat) (f : QSlot → QSlot) : (s.onSlot n k q f).freeSeq = s.freeSeq := rfl
@[simp] theorem State.onSlot_pending (s : State) (n k q : Nat) (f : QSlot → QSlot) : (s.onSlot n k q f).pending = s.pending := rfl

/-! onSeq changes `panels` alone. -/
@[simp] theorem State.onSeq_now (s : State) (p : Nat) (f : Seq → Seq) : (s.onSeq p f).now = s.now := rfl
@[simp] theorem State.onSeq_cores (s : State) (p : Nat) (f : Seq → Seq) : (s.onSeq p f).cores = s.cores := rfl
@[simp] theorem State.onSeq_mem (s : State) (p : Nat) (f : Seq → Seq) : (s.onSeq p f).mem = s.mem := rfl
@[simp] theorem State.onSeq_lines (s : State) (p : Nat) (f : Seq → Seq) : (s.onSeq p f).lines = s.lines := rfl
@[simp] theorem State.onSeq_parts (s : State) (p : Nat) (f : Seq → Seq) : (s.onSeq p f).parts = s.parts := rfl
@[simp] theorem State.onSeq_packets (s : State) (p : Nat) (f : Seq → Seq) : (s.onSeq p f).packets = s.packets := rfl
@[simp] theorem State.onSeq_bcasts (s : State) (p : Nat) (f : Seq → Seq) : (s.onSeq p f).bcasts = s.bcasts := rfl
@[simp] theorem State.onSeq_reds (s : State) (p : Nat) (f : Seq → Seq) : (s.onSeq p f).reds = s.reds := rfl
@[simp] theorem State.onSeq_nextPid (s : State) (p : Nat) (f : Seq → Seq) : (s.onSeq p f).nextPid = s.nextPid := rfl
@[simp] theorem State.onSeq_epochs (s : State) (p : Nat) (f : Seq → Seq) : (s.onSeq p f).epochs = s.epochs := rfl
@[simp] theorem State.onSeq_hubEpochs (s : State) (p : Nat) (f : Seq → Seq) : (s.onSeq p f).hubEpochs = s.hubEpochs := rfl
@[simp] theorem State.onSeq_turns (s : State) (p : Nat) (f : Seq → Seq) : (s.onSeq p f).turns = s.turns := rfl
@[simp] theorem State.onSeq_epochBase (s : State) (p : Nat) (f : Seq → Seq) : (s.onSeq p f).epochBase = s.epochBase := rfl
@[simp] theorem State.onSeq_transit (s : State) (p : Nat) (f : Seq → Seq) : (s.onSeq p f).transit = s.transit := rfl
@[simp] theorem State.onSeq_lostAt (s : State) (p : Nat) (f : Seq → Seq) : (s.onSeq p f).lostAt = s.lostAt := rfl
@[simp] theorem State.onSeq_log (s : State) (p : Nat) (f : Seq → Seq) : (s.onSeq p f).log = s.log := rfl
@[simp] theorem State.onSeq_attention (s : State) (p : Nat) (f : Seq → Seq) : (s.onSeq p f).attention = s.attention := rfl
@[simp] theorem State.onSeq_ports (s : State) (p : Nat) (f : Seq → Seq) : (s.onSeq p f).ports = s.ports := rfl
@[simp] theorem State.onSeq_fuses (s : State) (p : Nat) (f : Seq → Seq) : (s.onSeq p f).fuses = s.fuses := rfl
@[simp] theorem State.onSeq_host (s : State) (p : Nat) (f : Seq → Seq) : (s.onSeq p f).host = s.host := rfl
@[simp] theorem State.onSeq_ubide (s : State) (p : Nat) (f : Seq → Seq) : (s.onSeq p f).ubide = s.ubide := rfl
@[simp] theorem State.onSeq_rst (s : State) (p : Nat) (f : Seq → Seq) : (s.onSeq p f).rst = s.rst := rfl
@[simp] theorem State.onSeq_power (s : State) (p : Nat) (f : Seq → Seq) : (s.onSeq p f).power = s.power := rfl
@[simp] theorem State.onSeq_mstate (s : State) (p : Nat) (f : Seq → Seq) : (s.onSeq p f).mstate = s.mstate := rfl
@[simp] theorem State.onSeq_cast (s : State) (p : Nat) (f : Seq → Seq) : (s.onSeq p f).cast = s.cast := rfl
@[simp] theorem State.onSeq_hang (s : State) (p : Nat) (f : Seq → Seq) : (s.onSeq p f).hang = s.hang := rfl
@[simp] theorem State.onSeq_dbg (s : State) (p : Nat) (f : Seq → Seq) : (s.onSeq p f).dbg = s.dbg := rfl
@[simp] theorem State.onSeq_pins (s : State) (p : Nat) (f : Seq → Seq) : (s.onSeq p f).pins = s.pins := rfl
@[simp] theorem State.onSeq_freeSeq (s : State) (p : Nat) (f : Seq → Seq) : (s.onSeq p f).freeSeq = s.freeSeq := rfl
@[simp] theorem State.onSeq_pending (s : State) (p : Nat) (f : Seq → Seq) : (s.onSeq p f).pending = s.pending := rfl

/-! putLine changes `lines` alone. -/
@[simp] theorem State.putLine_now (s : State) (n l : Nat) (v : Line) : (s.putLine n l v).now = s.now := rfl
@[simp] theorem State.putLine_cores (s : State) (n l : Nat) (v : Line) : (s.putLine n l v).cores = s.cores := rfl
@[simp] theorem State.putLine_panels (s : State) (n l : Nat) (v : Line) : (s.putLine n l v).panels = s.panels := rfl
@[simp] theorem State.putLine_mem (s : State) (n l : Nat) (v : Line) : (s.putLine n l v).mem = s.mem := rfl
@[simp] theorem State.putLine_parts (s : State) (n l : Nat) (v : Line) : (s.putLine n l v).parts = s.parts := rfl
@[simp] theorem State.putLine_packets (s : State) (n l : Nat) (v : Line) : (s.putLine n l v).packets = s.packets := rfl
@[simp] theorem State.putLine_bcasts (s : State) (n l : Nat) (v : Line) : (s.putLine n l v).bcasts = s.bcasts := rfl
@[simp] theorem State.putLine_reds (s : State) (n l : Nat) (v : Line) : (s.putLine n l v).reds = s.reds := rfl
@[simp] theorem State.putLine_nextPid (s : State) (n l : Nat) (v : Line) : (s.putLine n l v).nextPid = s.nextPid := rfl
@[simp] theorem State.putLine_epochs (s : State) (n l : Nat) (v : Line) : (s.putLine n l v).epochs = s.epochs := rfl
@[simp] theorem State.putLine_hubEpochs (s : State) (n l : Nat) (v : Line) : (s.putLine n l v).hubEpochs = s.hubEpochs := rfl
@[simp] theorem State.putLine_turns (s : State) (n l : Nat) (v : Line) : (s.putLine n l v).turns = s.turns := rfl
@[simp] theorem State.putLine_epochBase (s : State) (n l : Nat) (v : Line) : (s.putLine n l v).epochBase = s.epochBase := rfl
@[simp] theorem State.putLine_transit (s : State) (n l : Nat) (v : Line) : (s.putLine n l v).transit = s.transit := rfl
@[simp] theorem State.putLine_lostAt (s : State) (n l : Nat) (v : Line) : (s.putLine n l v).lostAt = s.lostAt := rfl
@[simp] theorem State.putLine_log (s : State) (n l : Nat) (v : Line) : (s.putLine n l v).log = s.log := rfl
@[simp] theorem State.putLine_attention (s : State) (n l : Nat) (v : Line) : (s.putLine n l v).attention = s.attention := rfl
@[simp] theorem State.putLine_ports (s : State) (n l : Nat) (v : Line) : (s.putLine n l v).ports = s.ports := rfl
@[simp] theorem State.putLine_fuses (s : State) (n l : Nat) (v : Line) : (s.putLine n l v).fuses = s.fuses := rfl
@[simp] theorem State.putLine_host (s : State) (n l : Nat) (v : Line) : (s.putLine n l v).host = s.host := rfl
@[simp] theorem State.putLine_ubide (s : State) (n l : Nat) (v : Line) : (s.putLine n l v).ubide = s.ubide := rfl
@[simp] theorem State.putLine_rst (s : State) (n l : Nat) (v : Line) : (s.putLine n l v).rst = s.rst := rfl
@[simp] theorem State.putLine_power (s : State) (n l : Nat) (v : Line) : (s.putLine n l v).power = s.power := rfl
@[simp] theorem State.putLine_mstate (s : State) (n l : Nat) (v : Line) : (s.putLine n l v).mstate = s.mstate := rfl
@[simp] theorem State.putLine_cast (s : State) (n l : Nat) (v : Line) : (s.putLine n l v).cast = s.cast := rfl
@[simp] theorem State.putLine_hang (s : State) (n l : Nat) (v : Line) : (s.putLine n l v).hang = s.hang := rfl
@[simp] theorem State.putLine_dbg (s : State) (n l : Nat) (v : Line) : (s.putLine n l v).dbg = s.dbg := rfl
@[simp] theorem State.putLine_pins (s : State) (n l : Nat) (v : Line) : (s.putLine n l v).pins = s.pins := rfl
@[simp] theorem State.putLine_freeSeq (s : State) (n l : Nat) (v : Line) : (s.putLine n l v).freeSeq = s.freeSeq := rfl
@[simp] theorem State.putLine_pending (s : State) (n l : Nat) (v : Line) : (s.putLine n l v).pending = s.pending := rfl

/-! What a part reads after its own update, and after the update of another. -/
@[simp] theorem State.core_onCore_same (s : State) (n : Nat) (f : Core → Core) : (s.onCore n f).core n = f (s.core n) :=
  Tab.get_set_same _ _ _ _
theorem State.core_onCore_other (s : State) (n m : Nat) (f : Core → Core) (h : m ≠ n) : (s.onCore n f).core m = s.core m :=
  Tab.get_set_other _ _ _ _ _ h
@[simp] theorem State.panel_onPanel_same (s : State) (n : Nat) (f : Panel → Panel) : (s.onPanel n f).panel n = f (s.panel n) :=
  Tab.get_set_same _ _ _ _
theorem State.panel_onPanel_other (s : State) (n m : Nat) (f : Panel → Panel) (h : m ≠ n) : (s.onPanel n f).panel m = s.panel m :=
  Tab.get_set_other _ _ _ _ _ h
@[simp] theorem State.part_onPart_same (s : State) (n : Nat) (f : Part → Part) : (s.onPart n f).part n = f (s.part n) :=
  Tab.get_set_same _ _ _ _
theorem State.part_onPart_other (s : State) (n m : Nat) (f : Part → Part) (h : m ≠ n) : (s.onPart n f).part m = s.part m :=
  Tab.get_set_other _ _ _ _ _ h
@[simp] theorem State.port_onPort_same (s : State) (n : Nat) (f : Port → Port) : (s.onPort n f).port n = f (s.port n) :=
  Tab.get_set_same _ _ _ _
theorem State.port_onPort_other (s : State) (n m : Nat) (f : Port → Port) (h : m ≠ n) : (s.onPort n f).port m = s.port m :=
  Tab.get_set_other _ _ _ _ _ h
@[simp] theorem State.core_onPanel_apart (s : State) (p : Nat) (f : Panel → Panel) (m : Nat) : (s.onPanel p f).core m = s.core m := rfl
@[simp] theorem State.core_onPart_apart (s : State) (k : Nat) (f : Part → Part) (m : Nat) : (s.onPart k f).core m = s.core m := rfl
@[simp] theorem State.core_onPort_apart (s : State) (o : Nat) (f : Port → Port) (m : Nat) : (s.onPort o f).core m = s.core m := rfl
@[simp] theorem State.core_onHost_apart (s : State) (f : HostIf → HostIf) (m : Nat) : (s.onHost f).core m = s.core m := rfl
@[simp] theorem State.core_onUbide_apart (s : State) (f : Ubide → Ubide) (m : Nat) : (s.onUbide f).core m = s.core m := rfl
@[simp] theorem State.core_onRst_apart (s : State) (f : ResetCtl → ResetCtl) (m : Nat) : (s.onRst f).core m = s.core m := rfl
@[simp] theorem State.core_onPower_apart (s : State) (f : Power → Power) (m : Nat) : (s.onPower f).core m = s.core m := rfl
@[simp] theorem State.core_onJob_apart (s : State) (k : Nat) (f : JobSt → JobSt) (m : Nat) : (s.onJob k f).core m = s.core m := rfl
@[simp] theorem State.core_onSeq_apart (s : State) (p : Nat) (f : Seq → Seq) (m : Nat) : (s.onSeq p f).core m = s.core m := rfl
@[simp] theorem State.core_putLine_apart (s : State) (n l : Nat) (v : Line) (m : Nat) : (s.putLine n l v).core m = s.core m := rfl
@[simp] theorem State.panel_onCore_apart (s : State) (n : Nat) (f : Core → Core) (m : Nat) : (s.onCore n f).panel m = s.panel m := rfl
@[simp] theorem State.panel_onPart_apart (s : State) (k : Nat) (f : Part → Part) (m : Nat) : (s.onPart k f).panel m = s.panel m := rfl
@[simp] theorem State.panel_onPort_apart (s : State) (o : Nat) (f : Port → Port) (m : Nat) : (s.onPort o f).panel m = s.panel m := rfl
@[simp] theorem State.panel_onHost_apart (s : State) (f : HostIf → HostIf) (m : Nat) : (s.onHost f).panel m = s.panel m := rfl
@[simp] theorem State.panel_onUbide_apart (s : State) (f : Ubide → Ubide) (m : Nat) : (s.onUbide f).panel m = s.panel m := rfl
@[simp] theorem State.panel_onRst_apart (s : State) (f : ResetCtl → ResetCtl) (m : Nat) : (s.onRst f).panel m = s.panel m := rfl
@[simp] theorem State.panel_onPower_apart (s : State) (f : Power → Power) (m : Nat) : (s.onPower f).panel m = s.panel m := rfl
@[simp] theorem State.panel_onJob_apart (s : State) (k : Nat) (f : JobSt → JobSt) (m : Nat) : (s.onJob k f).panel m = s.panel m := rfl
@[simp] theorem State.panel_onCtx_apart (s : State) (n k : Nat) (f : Ctx → Ctx) (m : Nat) : (s.onCtx n k f).panel m = s.panel m := rfl
@[simp] theorem State.panel_onCur_apart (s : State) (n : Nat) (f : Ctx → Ctx) (m : Nat) : (s.onCur n f).panel m = s.panel m := rfl
@[simp] theorem State.panel_onCounts_apart (s : State) (n : Nat) (f : Counts → Counts) (m : Nat) : (s.onCounts n f).panel m = s.panel m := rfl
@[simp] theorem State.panel_onArr_apart (s : State) (n a : Nat) (f : Arr → Arr) (m : Nat) : (s.onArr n a f).panel m = s.panel m := rfl
@[simp] theorem State.panel_onList_apart (s : State) (n k l : Nat) (f : SList → SList) (m : Nat) : (s.onList n k l f).panel m = s.panel m := rfl
@[simp] theorem State.panel_onSlot_apart (s : State) (n k q : Nat) (f : QSlot → QSlot) (m : Nat) : (s.onSlot n k q f).panel m = s.panel m := rfl
@[simp] theorem State.panel_putLine_apart (s : State) (n l : Nat) (v : Line) (m : Nat) : (s.putLine n l v).panel m = s.panel m := rfl
@[simp] theorem State.part_onCore_apart (s : State) (n : Nat) (f : Core → Core) (m : Nat) : (s.onCore n f).part m = s.part m := rfl
@[simp] theorem State.part_onPanel_apart (s : State) (p : Nat) (f : Panel → Panel) (m : Nat) : (s.onPanel p f).part m = s.part m := rfl
@[simp] theorem State.part_onPort_apart (s : State) (o : Nat) (f : Port → Port) (m : Nat) : (s.onPort o f).part m = s.part m := rfl
@[simp] theorem State.part_onHost_apart (s : State) (f : HostIf → HostIf) (m : Nat) : (s.onHost f).part m = s.part m := rfl
@[simp] theorem State.part_onUbide_apart (s : State) (f : Ubide → Ubide) (m : Nat) : (s.onUbide f).part m = s.part m := rfl
@[simp] theorem State.part_onRst_apart (s : State) (f : ResetCtl → ResetCtl) (m : Nat) : (s.onRst f).part m = s.part m := rfl
@[simp] theorem State.part_onPower_apart (s : State) (f : Power → Power) (m : Nat) : (s.onPower f).part m = s.part m := rfl
@[simp] theorem State.part_onCtx_apart (s : State) (n k : Nat) (f : Ctx → Ctx) (m : Nat) : (s.onCtx n k f).part m = s.part m := rfl
@[simp] theorem State.part_onCur_apart (s : State) (n : Nat) (f : Ctx → Ctx) (m : Nat) : (s.onCur n f).part m = s.part m := rfl
@[simp] theorem State.part_onCounts_apart (s : State) (n : Nat) (f : Counts → Counts) (m : Nat) : (s.onCounts n f).part m = s.part m := rfl
@[simp] theorem State.part_onArr_apart (s : State) (n a : Nat) (f : Arr → Arr) (m : Nat) : (s.onArr n a f).part m = s.part m := rfl
@[simp] theorem State.part_onList_apart (s : State) (n k l : Nat) (f : SList → SList) (m : Nat) : (s.onList n k l f).part m = s.part m := rfl
@[simp] theorem State.part_onSlot_apart (s : State) (n k q : Nat) (f : QSlot → QSlot) (m : Nat) : (s.onSlot n k q f).part m = s.part m := rfl
@[simp] theorem State.part_onSeq_apart (s : State) (p : Nat) (f : Seq → Seq) (m : Nat) : (s.onSeq p f).part m = s.part m := rfl
@[simp] theorem State.part_putLine_apart (s : State) (n l : Nat) (v : Line) (m : Nat) : (s.putLine n l v).part m = s.part m := rfl
@[simp] theorem State.port_onCore_apart (s : State) (n : Nat) (f : Core → Core) (m : Nat) : (s.onCore n f).port m = s.port m := rfl
@[simp] theorem State.port_onPanel_apart (s : State) (p : Nat) (f : Panel → Panel) (m : Nat) : (s.onPanel p f).port m = s.port m := rfl
@[simp] theorem State.port_onPart_apart (s : State) (k : Nat) (f : Part → Part) (m : Nat) : (s.onPart k f).port m = s.port m := rfl
@[simp] theorem State.port_onHost_apart (s : State) (f : HostIf → HostIf) (m : Nat) : (s.onHost f).port m = s.port m := rfl
@[simp] theorem State.port_onUbide_apart (s : State) (f : Ubide → Ubide) (m : Nat) : (s.onUbide f).port m = s.port m := rfl
@[simp] theorem State.port_onRst_apart (s : State) (f : ResetCtl → ResetCtl) (m : Nat) : (s.onRst f).port m = s.port m := rfl
@[simp] theorem State.port_onPower_apart (s : State) (f : Power → Power) (m : Nat) : (s.onPower f).port m = s.port m := rfl
@[simp] theorem State.port_onJob_apart (s : State) (k : Nat) (f : JobSt → JobSt) (m : Nat) : (s.onJob k f).port m = s.port m := rfl
@[simp] theorem State.port_onCtx_apart (s : State) (n k : Nat) (f : Ctx → Ctx) (m : Nat) : (s.onCtx n k f).port m = s.port m := rfl
@[simp] theorem State.port_onCur_apart (s : State) (n : Nat) (f : Ctx → Ctx) (m : Nat) : (s.onCur n f).port m = s.port m := rfl
@[simp] theorem State.port_onCounts_apart (s : State) (n : Nat) (f : Counts → Counts) (m : Nat) : (s.onCounts n f).port m = s.port m := rfl
@[simp] theorem State.port_onArr_apart (s : State) (n a : Nat) (f : Arr → Arr) (m : Nat) : (s.onArr n a f).port m = s.port m := rfl
@[simp] theorem State.port_onList_apart (s : State) (n k l : Nat) (f : SList → SList) (m : Nat) : (s.onList n k l f).port m = s.port m := rfl
@[simp] theorem State.port_onSlot_apart (s : State) (n k q : Nat) (f : QSlot → QSlot) (m : Nat) : (s.onSlot n k q f).port m = s.port m := rfl
@[simp] theorem State.port_onSeq_apart (s : State) (p : Nat) (f : Seq → Seq) (m : Nat) : (s.onSeq p f).port m = s.port m := rfl
@[simp] theorem State.port_putLine_apart (s : State) (n l : Nat) (v : Line) (m : Nat) : (s.putLine n l v).port m = s.port m := rfl
@[simp] theorem State.line_putLine_same (s : State) (n l : Nat) (v : Line) : (s.putLine n l v).line n l = v :=
  Tab.get_put_same _ _ _ _

end Sys2Proof.Machine
end

