-- ==== Sys2Proof/Laws/Issue.lean ====
section
/-! SUPPORT. What an attempt to issue a bundle can do (R34 to R37, R45, R57, R58), said once, and the command of a slot
instruction where its bundle issues. -/

namespace Sys2Proof.Machine

/-- Everything that an attempt to issue can do, in the order of its tests. -/
theorem issueOps_cases (n : Nat) (b : Bundle) (o : Ops) (s : State) :
    let v := (catchUp n s).1
    let u := atChecks n s
    (canIssue n b s = false ∧ issueOps n b o s = s) ∨
      (∃ r, canIssue n b s = true ∧ (catchUp n s).2 = some r ∧ issueOps n b o s = contextFault n r v) ∨
      (canIssue n b s = true ∧ (catchUp n s).2 = none ∧ fetchOk (v.core n) = false ∧ issueOps n b o s = issueFault n .access 0 v) ∨
      (canIssue n b s = true ∧ (catchUp n s).2 = none ∧ fetchOk (v.core n) = true ∧ (fetchLine n v).1 = true ∧
        issueOps n b o s = issueFault n .ue 0 u) ∨
      (canIssue n b s = true ∧ (catchUp n s).2 = none ∧ fetchOk (v.core n) = true ∧ (fetchLine n v).1 = false ∧
        ((o.held n u = true ∧ issueOps n b o s = u.onCore n (fun c => { c with held := some b, late := c.late && c.held.isSome })) ∨
          (∃ e k, o.held n u = false ∧ o.exc b n u = some (e, k) ∧ issueOps n b o s = issueFault n e k u) ∨
          (o.held n u = false ∧ o.exc b n u = none ∧ issueOps n b o s = goIssue n o u))) := by
  simp only [atChecks]
  by_cases hc : canIssue n b s = true
  · rcases hr : catchUp n s with ⟨v, _ | r⟩
    · rcases hf : fetchLine n v with ⟨bad, u⟩
      cases ho : fetchOk (v.core n) <;> cases bad <;> cases hh : o.held n u <;> cases he : o.exc b n u <;>
        simp [issueOps, issueAt, hc, hr, hf, ho, hh, he]
      exact ⟨_, _, rfl, rfl⟩
    · simp [issueOps, hc, hr]
  · simp [issueOps, hc]

/-- A bundle that issues has its effect. -/
theorem issueOps_of_issuable {n : Nat} {b : Bundle} {o : Ops} {s : State} (h : issuable n b o s = true) :
    n < 35328 ∧ issueOps n b o s = goIssue n o (atChecks n s) := by
  simp only [issuable, fetchable, Bool.and_eq_true, decide_eq_true_eq, Bool.not_eq_true', Option.isNone_iff_eq_none] at h
  obtain ⟨⟨⟨⟨⟨⟨hn, hc⟩, hl⟩, hf⟩, hb⟩, hh⟩, he⟩ := h
  refine ⟨hn, ?_⟩
  rcases issueOps_cases n b o s with h | ⟨_, _, h, _⟩ | ⟨_, _, h, _⟩ | ⟨_, _, _, h, _⟩ | ⟨_, _, _, _, h | ⟨_, _, _, h, _⟩ | ⟨_, _, h⟩⟩ <;>
    simp_all

/-- The effect of a bundle without a context boundary. -/
theorem goIssue_eq (n : Nat) (o : Ops) (s : State) (h : o.bd = none) :
    goIssue n o (atChecks n s) = afterSlots n s (o.run n (fetched n s)) := by
  simp only [goIssue, h, afterSlots, fetched]

/-- The command of a control-slot instruction whose bundle issues. -/
theorem atC_of_issues {n : Nat} {i : CIns} {w1 w2 w3 : W32} {s : State} (h : issuesC n i w1 w2 w3 s = true) :
    atC { agent := .core n, w1 := w1, w2 := w2, w3 := w3 } i s = goes (goIssue n (opsC i w1 w2 w3) (atChecks n s)) := by
  obtain ⟨hn, e⟩ := issueOps_of_issuable h
  simp only [atC, hn, if_true, issueC]
  exact congrArg _ e

/-- The same for the matrix, vector and stream slots. -/
theorem atM_of_issues {n : Nat} {i : MIns} {w1 w2 w3 : W32} {s : State} (h : issuesM n i w1 w2 w3 s = true) :
    atM { agent := .core n, w1 := w1, w2 := w2, w3 := w3 } i s = goes (goIssue n (opsM i w1 w2 w3) (atChecks n s)) := by
  obtain ⟨hn, e⟩ := issueOps_of_issuable h
  simp only [atM, hn, if_true, issueM]
  exact congrArg _ e

theorem atV_of_issues {n : Nat} {i : VIns} {w1 w2 w3 : W32} {s : State} (h : issuesV n i w1 w2 w3 s = true) :
    atV { agent := .core n, w1 := w1, w2 := w2, w3 := w3 } i s = goes (goIssue n (opsV i w1 w2 w3) (atChecks n s)) := by
  obtain ⟨hn, e⟩ := issueOps_of_issuable h
  simp only [atV, hn, if_true, issueV]
  exact congrArg _ e

theorem atS_of_issues {n : Nat} {i : SIns} {w1 w2 w3 : W32} {s : State} (h : issuesS n i w1 w2 w3 s = true) :
    atS { agent := .core n, w1 := w1, w2 := w2, w3 := w3 } i s = goes (goIssue n (opsS i w1 w2 w3) (atChecks n s)) := by
  obtain ⟨hn, e⟩ := issueOps_of_issuable h
  simp only [atS, hn, if_true, issueS]
  exact congrArg _ e

/-- A control-slot instruction beside three other slots, none of them a context boundary. -/
theorem atC_of_issues_run {n : Nat} {i : CIns} {w1 w2 w3 : W32} {s : State} (h : issuesC n i w1 w2 w3 s = true)
    (hb : boundaryOf (some i) = none) :
    atC { agent := .core n, w1 := w1, w2 := w2, w3 := w3 } i s = goes (afterC n w1 w2 w3 s (i.op.run n (fetched n s))) := by
  rw [atC_of_issues h, goIssue_eq n _ s hb]
  rfl

/-- What a WAIT in progress does when its row comes (R41, R49): its posted exception, its event, its timeout, or
nothing. -/
theorem waitDone_cases (n : Nat) (s : State) (w : WaitRec) (h : (s.core n).wait = some w) :
    let out := w.ticks ≠ 0 ∧ w.since + w.ticks ≤ s.now
    let fin := fun (v : Bool) (s : State) =>
      ((flyRes n 0 w.pc 0 (.p w.pd v) s).onCur n (fun x => { x with state := .running })).onCore n (fun c => { c with wait := none })
    (∃ e, w.kind = 5 ∧ (s.ctx n).postExc = some e ∧
        waitDone n s = contextFault n { exc := e, slot := 0, pc := w.pc } (s.onCur n (fun x => { x with postExc := none }))) ∨
      (eventNow n w.kind w.arg s = true ∧ waitDone n s = fin true (consumeEvent n w.kind s)) ∨
      (eventNow n w.kind w.arg s = false ∧ out ∧ waitDone n s = fin false s) ∨
      (eventNow n w.kind w.arg s = false ∧ ¬out ∧ waitDone n s = s) := by
  simp only [waitDone, h]
  have hx : (s.core n).ctx = s.ctx n := rfl
  rw [hx]
  cases hev : eventNow n w.kind w.arg s <;> by_cases h1 : w.ticks = 0 <;> by_cases h2 : w.since + w.ticks ≤ s.now <;>
    by_cases h5 : w.kind = 5 <;> cases hp : (s.ctx n).postExc <;> simp_all

end Sys2Proof.Machine
end

