-- ==== Sys2Proof/Tests/Slice0.lean ====
section
/-! SUPPORT. The model's own tests: the manual's worked examples, published check values, ill-formed commands, and for
each statement with premises states and operands that meet them, clause by clause. -/

namespace Sys2Proof.Tests

open Sys2Proof Sys2Proof.Machine

set_option Elab.async false

theorem test_reset_canonical : Memory.wf State.reset.mem = true := by decide

/-! Worked examples of the manual (02_grid.md, 05_vector_chains.md, 07_scratchpad.md, 14_power_and_clocks.md). -/

/-- Core (80, 127) of 02_grid.md. -/
theorem test_example_core : coreAt 80 127 = 23448 ∧ panelOf 23448 = 5 * 8 + 3 ∧ lxOf 23448 = 11 ∧ lyOf 23448 = 7 ∧ localOf 23448 = 172 := by
  decide +kernel

/-- Panel (3, 5) of 02_grid.md: one bad site in each of the rows 2, 7, 13, 19 and 20. -/
def panel35 : Panel :=
  { Panel.init with bad := [(48, true), (177, true), (312, true), (456, true), (480, true)], skipCol := [(2, 0), (7, 9), (13, 0), (19, 0), (20, 0)] }

theorem test_example_site : skipRowFor panel35 = 24 ∧ siteOf panel35 11 7 = (12, 7) ∧ freeSpares panel35 = 43 ∧
    siteOf { panel35 with skipRow := 7 } 11 7 = (11, 8) := by decide +kernel

theorem test_example_rowShift : chooseChange { panel35 with bad := panel35.bad ++ [(180, true)] } 180 =
    some { panel35 with bad := panel35.bad ++ [(180, true)], skipRow := 7, skipCol := panel35.skipCol ++ [(24, 23)] } := by decide +kernel

/-- The first draw of a lane, in 05_vector_chains.md. -/
theorem test_example_generator : xsAdvance 0x000000005B980045#64 = 0x16CB712ABF2D8105#64 ∧ roundField 0x16CB712ABF2D8105#64 = 33029 := by
  decide +kernel

/-- The line of 07_scratchpad.md at far-bank offset 0x20_0040, and the flip of bit 1 of byte 4. -/
def line64 : List Byte := (List.replicate 64 (0 : Byte)).set 4 0x3C |>.set 9 0xA5

theorem test_example_line : lineCheck line64 = 0xA53C#16 ∧ checkBits line64 = BitVec.allOnes 64 ∧
    evalLine true { chk := BitVec.allOnes 64, lchk := 0xA53C#16, checked := true, poison := false } (line64.set 4 0x3E) =
      .corrected line64 := by decide +kernel

/-- Learning DOZE, in 14_power_and_clocks.md: seven wakes of 240 ticks. -/
theorem test_example_learning :
    (List.range 7).map (fun i => Tab.get 0 ((((List.range (i + 1)).foldl (fun s _ => learn 0 1 240 none true s)
      { State.reset with panels := [(0, { Panel.init with costs := [(1, 375)] })] }).panel 0).costs) 1) =
      [359, 345, 332, 321, 311, 303, 296] := by decide +kernel

/-! Functions of published standards that the manual names: SHA-512 of "abc" (FIPS 180-4), AES-256 (FIPS 197, C.3), the
check values of CRC-32 and CRC-64 over the digits 1 to 9. -/

def digits : List Byte := (List.range 9).map (fun i => BitVec.ofNat 8 (49 + i))

theorem test_crc32 : crc32 digits = 0xCBF43926 := by decide +kernel
theorem test_crc64 : crc64 digits = 0x995DC9BBDF1939FA := by decide +kernel

theorem test_sha512 : (sha512 [97, 98, 99]).take 8 = [0xDD, 0xAF, 0x35, 0xA1, 0x93, 0x61, 0x7A, 0xBA] := by decide +kernel

theorem test_aes256 : aesEnc (aesKeys (List.range 32)) ((List.range 16).map (fun i => 17 * i)) =
    [0x8E, 0xA2, 0xB7, 0xCA, 0x51, 0x67, 0x45, 0xBF, 0xEA, 0xFC, 0x49, 0x90, 0x4B, 0x49, 0x60, 0x89] := by decide +kernel

/-- The check bytes of a sector make a word of zero syndromes (R199), and one byte read wrong is put right (R200). -/
theorem test_sector : decideSector line64 (sectorCheck line64 5 false) 5 = .good ∧
    decideSector (line64.set 7 0x11) (sectorCheck line64 5 false) 5 = .corrected 7 0x11 := by decide +kernel

/-! The operands that the manual admits: an ill-formed command for each check. -/

def site0 : Site := { agent := .core 0, w1 := 0, w2 := 0, w3 := 0 }
def addW : CR := { d := 1, a := 2, b := 3, f := 0 }
def shortFlit : Flit := { draft 0 0 0 false false 0 false [] with payload := [1] }
def oddFlit : Flit := { draft 0 0 0 false false 0 false (List.replicate 240 0) with zero := 1 }

/-- Cores, panels, ports, sites and sequencer words that do not exist, and lengths, codes and bytes out of range. -/
theorem test_illFormed : (([.add { site0 with agent := .core 35328 } addW, .add { site0 with agent := .seq 64 } addW, .add { site0 with agent := .seq 0, w1 := 1 } addW,
    .add { site0 with agent := .seq 0, w2 := 1 } addW, .add { site0 with agent := .seq 0, w3 := 1 } addW, .listStopped 0 4 0, .listStopped 0 0 4,
    .stfEntrySend 0 16, .replyLanding 35328 0, .hubGrant 64, .correctionWriteBack 0 98304, .spdRegionWrite (.seq 64) 0 0 0,
    .spdRegionWrite .host 0 16 0, .fabRedWrite .host 35328 0 0, .laneFail 0 13, .laneFail 16 0, .codewordReceive 0 [(544, 1)] 0,
    .codewordReceive 0 [(0, 0)] 0, .flitIdle 0 shortFlit, .flitData 0 oddFlit, .flitReserved 0 7 (draft 0 0 0 false false 0 false []),
    .postSend .host 0 2 0 0 0, .postRecv .host 0 1 0 0 0, .postReduce .host 0 4 0 0 0, .postRelay .host 16 4 0 0 0, .entryComplete 0 4] : List Instr)
    ++ ([.holdEnd 4, .stepVoid 0 0, .stepVoid 0 11, .bar0AccessInvalid (2 ^ 26) 4, .bar2Read 0 0, .bar2Write 0 [] false, .publishWordWrite 0 0 [],
      .debugWindowAccess false 0 2 false 0, .debugWindowAccess false 2 4 false 0, .machineCheck { panel := 0, site := 600, router := false }, .probeTimeout 64 0,
      .drainOpStart 0 2, .undefinedOpcode (.core 0) { c := 0, m := 0, v := 0, s := 0 }, .undefinedOpcode (.seq 0) { c := 0xFF000000, m := 1, v := 0, s := 0 },
      .undefinedCommand 0x10 { tag := 0, a0 := 0, a1 := 0, a2 := 0, a3 := 0, a4 := 0, a5 := 0, a6 := 0, a7 := 0 }] : List Instr)).all (fun i => !i.wellFormed) = true := by decide +kernel

theorem test_wellFormed : ([.add site0 addW, .add { site0 with agent := .seq 63 } addW, .listStopped 35327 3 3, .laneFail 15 12, .stepVoid 3 10,
    .flitReserved 0 8 (draft 0 0 0 false false 0 false []), .undefinedOpcode (.core 0) { c := 0xFF000000, m := 0, v := 0, s := 0 }] : List Instr).all
      Instr.wellFormed = true := by decide +kernel

/-! Words of the encoding tables, one of each slot (R33, R38, R74, R101, R153). -/

theorem test_words : CIns.ofWord 0b00000001_00101_00011_00010_000000000#32 = some (.add { d := 5, a := 3, b := 2, f := 0 }) ∧
    MIns.ofWord 0b00001001_1_00101_000010000_1_0010_0011#32 = some (.mmul { arr := 1, t := 5, rows := 16, sw := 1, ax := 2, asc := 3 }) ∧
    VIns.ofWord 0b00010_001_0000101_00001_00010_00011_1_0#32 = some (.vch { k := 1, id := 5, vd := 1, va := 2, vb := 3, gc := 1, cp := 0 }) ∧
    SIns.ofWord 0b00001000_0100_0010_0000000000000000#32 = some (.shead { ad := 4, q := 2, z := 0 }) := by decide +kernel


/-! Small states for the premises below. -/

def codeReg : W64 := BitVec.ofNat 64 (2^63 + 2^62 + 2^60 + 5 * 2^32)
def x0 : Ctx := { Ctx.init with
  state := .running, pc := 3
  regs := { s := [(1, 7), (2, 0xFFFFFFFFFFFFFFFE), (4, 0x0102)], a := [(1, 0x010040), (2, 0x020000)], p := [(1, true)] }
  k := [(1, 0xF0F0), (2, 0x3C3C)] }
def c0 : Core := { Core.init with active := true, ctxs := [(0, x0)], regions := [(0, codeReg)] }
def live : Panel := { Panel.init with power := .active }
def w0 : State := { State.reset with cores := [(0, c0)], panels := [(0, live)], now := 1000 }
def wpend : State := { w0 with pending := [.resultRetire 0] }
def xn : Ctx := { x0 with loops := [{ count := 3, start := 1, stop := 9 }, { count := 2, start := 2, stop := 3 }] }
def xl : Ctx := { x0 with loops := [{ count := 3, start := 1, stop := 9 }, { count := 1, start := 2, stop := 3 }] }
def xle1 : Ctx := { x0 with loops := [{ count := 3, start := 1, stop := 9 }, { count := 2, start := 2, stop := 3 }, { count := 1, start := 2, stop := 3 }] }
def xle3 : Ctx := { x0 with loops := [{ count := 1, start := 1, stop := 3 }, { count := 1, start := 2, stop := 3 }] }
def xb3 : Ctx := { x0 with branch := some (7, 3), loops := [{ count := 3, start := 1, stop := 9 }] }
def xb2 : Ctx := { xb3 with branch := some (7, 2) }
def xb1in : Ctx := { x0 with branch := some (20, 1), loops := [{ count := 3, start := 20, stop := 30 }, { count := 3, start := 1, stop := 9 }] }
def xb1 : Ctx := { x0 with branch := some (20, 1), loops := [{ count := 3, start := 1, stop := 9 }] }
def wbad : State := { w0 with lines := [(lineKey 0 (0x010040 / 64), { Line.zero with poison := true })] }
def wst : State := { w0 with cores := [(0, { c0 with stores := [{ due := 9, port := 3, cSees := true, bytes := [(0x010041, 5)], pois := [] }] })]
                             mem := [(spdKey 0 0x010040, 9), (spdKey 0 0x010042, 8)]
                             lines := [(lineKey 0 (0x010040 / 64), { Line.zero with chk := BitVec.allOnes 64 &&& ~~~4#64 })] }
def lp0 : LoopLv := { count := 1, start := 1, stop := 3 }
def lp1 : LoopLv := { count := 1, start := 2, stop := 3 }
def lp2 : LoopLv := { count := 2, start := 2, stop := 3 }
def lp3 : LoopLv := { count := 3, start := 1, stop := 9 }
def lp20 : LoopLv := { count := 3, start := 20, stop := 30 }
def xi : Ctx := { x0 with
  mode := 8, c := [(1, 0), (2, 0x41)], v := [(64 * 3 + 5, 0x12345678), (64 * 3 + 20, 9)], vp := [(4 * 3 + 1, true)]
  regs := { s := [(1, 7), (2, 9), (3, 0x1000000020000)]
            a := [(1, 0x010040), (2, 0x020000), (3, 0x030000), (4, 0x040000), (5, 0x050000), (6, 0x060000)]
            p := [(1, true)] }
  k := [(1, 0xF0F0F)] }
def gr : Group := { t := 4, n := 2, tab := 0x50000, wide := 0x80000, interval := 3, count := 1 }
def gr2 : Group := { gr with count := 2 }
def xg : Ctx := { xi with groups := [(3, gr)] }
def xg2 : Ctx := { xi with groups := [(3, gr2)] }
def sw : SlotOp → Nat := fun _ => 0
def mkC (x : Ctx) (f : Core → Core) : State :=
  { State.reset with cores := [(0, f { Core.init with active := true, ctxs := [(0, x)], regions := [(0, codeReg)] })], panels := [(0, live)], now := 1000 }
def shadowT : WTile := { WTile.init with data := [(0, 5)] }
def wi : State := mkC xi (fun c => { c with m1 := { c.m1 with shadow := shadowT } })
def wg : State := mkC xg id
def wg2 : State := mkC xg2 id
/-- The group entry at 0x050000 for MGRP, and the SMUL header at 0x010040. -/
def wh : State := { mkC xi id with
  mem := [(spdKey 0 0x010040 + 4, 64), (spdKey 0 0x050002, 8), (spdKey 0 0x050004, 3)]
  lines := [(lineKey 0 (0x010040 / 64), { Line.zero with chk := BitVec.allOnes 64 &&& ~~~16#64 })
    , (lineKey 0 (0x050000 / 64), { Line.zero with chk := BitVec.allOnes 64 &&& ~~~4#64 })] }
def wgate (g : Gate) : State := mkC xi (fun c => { c with gate := g })
def wgs : State := wgate .skip
def wgc : State := wgate .closed
def wga : State := wgate .apply
/-- Slots: 0 a filled 256-byte IN slot, 1 an OUT slot of 256 bytes, 2 a filled 8-byte IN slot, 3 an 8-byte OUT slot,
4 an LDF slot with space, 5 an STF slot, 6 an LDF slot whose head is done with status 0x0F. -/
def slotT : Tab QSlot :=
  [(0, { QSlot.init with base := 0x70000, esz := 5, mode := 1, depth := 3, prod := 1, done := 1 })
  , (1, { QSlot.init with base := 0x71000, esz := 5, mode := 2, depth := 3 })
  , (2, { QSlot.init with base := 0x72000, esz := 0, mode := 1, depth := 3, prod := 1, done := 1 })
  , (3, { QSlot.init with base := 0x73000, esz := 0, mode := 2, depth := 3 })
  , (4, { QSlot.init with base := 0x74000, esz := 1, mode := 3, depth := 3 })
  , (5, { QSlot.init with base := 0x75000, esz := 1, mode := 4, depth := 3 })
  , (6, { QSlot.init with base := 0x76000, esz := 1, mode := 3, depth := 3, prod := 1, done := 1 })
  , (7, { QSlot.init with base := 0x77000, esz := 0, mode := 1, depth := 3, prod := 1, done := 1 })]
def xq : Ctx := { xi with q := slotT, lists := [(1, { SList.init with state := .atMarker, cb := 0x010040 })]
                          regs := { xi.regs with a := [(1, 0x010040), (2, 0x20000), (3, 0x030000), (7, 0x0001_0000_0000)] } }
def part0 : Part := { Part.init with defined := true, x1 := 7, y1 := 7, session := .opened, ceiling := 1 }
def wq : State := { mkC xq id with
  parts := [(0, part0)]
  mem := [(spdKey 0 0x010040, 0), (spdKey 0 0x020000 + 2, 8), (spdKey 0 0x020003, 0x14), (spdKey 0 0x020004, 3), (spdKey 0 0x072000, 5), (spdKey 0 0x076008, 0x0F)]
  lines := [(lineKey 0 (0x020000 / 64), { Line.zero with chk := BitVec.allOnes 64 &&& ~~~4#64 })
    , (lineKey 0 (0x076000 / 64), Line.zero), (lineKey 0 (0x077000 / 64), { Line.zero with poison := true })] }
def seqF : Seq := { Seq.init with flags := 4 }
def wflag : State := { mkC xi id with panels := [(0, { live with seq := seqF })] }
def wyb : State := mkC xi (fun c => { c with boundary := some .yieldB })
def xr : Ctx := { xi with state := .ready, pc := 8 }
def wym : State := mkC xi (fun c => { c with boundary := some .yieldB, mark := some 2, ctxs := [(0, xi), (2, xr)] })
def web : State := mkC xi (fun c => { c with boundary := some .endB })
def bSrdEmpty : Bundle := { c := (CIns.srd { q := 3, a := 0, s := 1, size := 0, z := 0 }).word, m := 0, v := 0, s := 0 }
def bHeld : Bundle := { c := (CIns.swr { q := 8, a := 0, s := 1, size := 0, z := 0 }).word, m := 0, v := 0, s := 0 }
def bNop : Bundle := { c := 0, m := 0, v := 0, s := 0 }
def bBad : Bundle := { c := 0xFF000000, m := 0, v := 0, s := 0 }
def qFull : QSlot := { QSlot.init with base := 0x73000, esz := 0, mode := 2, depth := 3, prod := 4, done := 15 }
def xh : Ctx := { xi with q := [(8, qFull)] }
def whold : State := mkC xh (fun c => { c with held := some bHeld })
def wheldNop : State := mkC xh (fun c => { c with held := some bNop })
def wfar : State := mkC { xi with pc := 0x10000 } id
def wseq : State := { mkC xi id with panels := [(0, { live with seq := { Seq.init with state := .running } })] }
/-! Sequencers. -/
def sregs : Regs := { s := [(1, 7), (2, 0xFFFFFFFFFFFFFFFE), (3, 0x02000200), (4, 0x01000100), (5, 0x10000), (6, 0x100002)]
                      a := [(1, 0x40), (2, BitVec.ofNat 48 (spdKey 0 0x8000)), (3, 0x123456789ABC)], p := [(1, true)] }
def sq : Seq := { Seq.init with state := .running, regs := sregs, pc := 3 }
def mkQ (q : Seq) : State := { State.reset with
  cores := [(0, c0), (1, { Core.init with regions := [(0, codeReg)] })], parts := [(0, part0)]
  panels := [(0, { live with seq := q })], now := 1000 }
def ws : State := mkQ sq
def wsw (w : SeqWait) : State := mkQ { sq with state := .waiting, wait := some w, flags := 4, bar := [(2, 9)] }
def sreqR : SeqReq := { addr := 0x8000, size := 8, wr := none, dst := 3, block := 0, epoch := 0, refusals := 0, phase := .replied, status := 0, data := [1, 2, 3, 4, 5, 6, 7, 8] }
def wsf : State := wsw (.flag 2)
def wsf0 : State := wsw (.flag 3)
def wsb : State := wsw (.barrier 2 9 5)
def wsr : State := wsw (.fabric sreqR)
def wsr5 : State := wsw (.fabric { sreqR with wr := some [1], status := 0x0F })
def wcw : State := wsw (.cwait 3 0x10000 2)
def wcw0 : State := wsw (.cwait 0 0 2)
def wdq : State := mkQ { sq with wdRun := true, wdLeft := 1000, wdFrom := 0 }
def wse : State := { mkQ { sq with state := .waiting, wait := some (.stepEnd 2), stepOpen := true } with
  parts := [(0, { part0 with job := { JobSt.init with stepOpen := true } })] }
def wsm0 : State := { ws with panels := [(0, { live with seq := { sq with regs := { sregs with a := [(1, 0x3FFF0)] } } })], mem := [(seqKey 0 0x3FFF8, 5)] }
def prest0 : PrestRec := { kind := 1, arg := 2, horizon := 100, since := some 900, saveOk := false, pd := 2, resting := false }
def wsp (r : PrestRec) (f : W64) : State := mkQ { sq with state := .prest, prest := some r, flags := f, release := true }
def wspEnds : State := wsp prest0 4
def prest6 : PrestRec := { prest0 with kind := 6, arg := 0 }
def wspEnds6 : State := wsp prest6 0
def prestT : PrestRec := { prest0 with kind := 0, arg := 0 }
def wspEndsT : State := wsp prestT 0
def wspStays : State := wsp prest0 0
def prestN : PrestRec := { prest0 with since := none }
def wspNot : State := wsp prestN 4
def wsHeld : State := { wsf with hang := { HangCtl.init with active := true, cur := some (0, 0), panels := [0] } }
def sreqT (w : Nat) : SeqReq := { sreqR with phase := .retry w, refusals := 1, data := [] }
def wsrT (w : Nat) : State := { wsw (.fabric (sreqT w)) with panels := [(0, { live with cyc := 40, seq := { sq with state := .waiting, wait := some (.fabric (sreqT w)) } })] }
def wsrT40 : State := wsrT 40
def wsrT41 : State := wsrT 41
def sreqS : SeqReq := { sreqR with phase := .sent, data := [] }
def wsrS : State := wsw (.fabric sreqS)
def wcwF : State := { wcw0 with cores := [(0, { c0 with ctxs := [(0, { x0 with state := .faulted })] })] }
/-- Context 1 of core 0 and context 0 of core 1 are READY; core 1 has none active. -/
def wsR : State := { ws with cores := [(0, { c0 with ctxs := [(0, x0), (1, { x0 with state := .ready, pc := 8 })] }), (1, { Core.init with regions := [(0, codeReg)], ctxs := [(1, { x0 with state := .ready, pc := 8 })] })] }
def wret (l : List Res) : State := { State.reset with cores := [(0, { c0 with icyc := 9, flight := l })], panels := [(0, live)] }
def rS : Nat → Nat → Nat → Nat → W64 → Res := fun due slot pc r v => { due := due, slot := slot, pc := pc, w := .s r v }
def wretS : State := wret [rS 9 0 3 5 77]
def wret0 : State := wret [rS 9 0 3 0 77]
def wretA : State := wret [{ due := 9, slot := 0, pc := 3, w := .a 5 77 }]
def wretP : State := wret [{ due := 9, slot := 0, pc := 3, w := .p 5 true }]
def wretK : State := wret [{ due := 9, slot := 0, pc := 3, w := .k 5 77 }]
def wretLate : State := wret [rS 10 0 3 5 77]
def wretTwo : State := wret [rS 9 0 3 5 77, rS 9 2 4 5 78]
def wrec : WaitRec := { kind := 1, arg := 2, pd := 3, since := 900, ticks := 100, pc := 3 }
def rrec : RestRec := { kind := 1, arg := 2, since := 900, horizon := 10, entered := false, entryAt := 0, entryTicks := 0, deferred := false, forced := false }
def xw : Ctx := { x0 with state := .waiting }
def mkW (f : W64) (w : Option WaitRec) (r : Option RestRec) (c : Core → Core) : State := { State.reset with
  cores := [(0, c { c0 with ctxs := [(0, xw)], wait := w, rest := r })], panels := [(0, { live with seq := { Seq.init with flags := f } })], now := 1000 }
def wwOk : State := mkW 4 (some wrec) none id
def wwOut : State := mkW 0 (some wrec) none id
def wrec2 : WaitRec := { wrec with ticks := 101 }
def wwStay : State := mkW 0 (some wrec2) none id
def wrEnter : State := mkW 0 none (some rrec) id
def rrec2 : RestRec := { rrec with entered := true }
def wrWake : State := mkW 4 none (some rrec2) (fun c => { c with power := .idle })
def wrec5 : WaitRec := { wrec with kind := 5, arg := 0 }
def wwPost : State := { mkW 0 (some wrec5) none id with cores := [(0, { c0 with ctxs := [(0, { xw with postExc := some .access })], wait := some wrec5 })] }
def wLate : State := wret [{ due := 9, slot := 0, pc := 3, w := .exc .access }]
def ld0 : Load := { t := 1, parts := 2, next := 1, src := 0x20000, srcLen := 64, sc := 0, scLen := 0, md := 0, mdLen := 0, slot := 1, pc := 3 }
def row0 : RowOp := { due := 4, tile := 3, row := 2, srs := false, val := .clear }
def dq0 : DrainOp := { kind := .mdrain, tile := 3, fmt := 0, rnd := false, w := false, cl := false, gc := false, nm := 0, dst := 0x20000, aux := 0, aux2 := 0
                       aux3 := 0, str := 0, wide := 0, after := 0, pc := 3, started := none, cap := [], capP := [], rands := [], inBytes := [], inBad := [], hit := [] }
def noRows : List RowOp := []
def row5 : RowOp := { row0 with due := 5 }
def dq1 : DrainOp := { dq0 with started := some 3, cap := List.replicate 256 0, capP := List.replicate 16 false, rands := List.replicate 256 0 }
def mkArr (f : Arr → Arr) : State := { State.reset with cores := [(0, { c0 with icyc := 9, m0 := f Arr.init })], panels := [(0, { live with cyc := 40 })] }
def wload : State := mkArr (fun A => { A with load := some ld0 })
def wrow : State := mkArr (fun A => { A with rows := [row0, { row0 with due := 5 }] })
def wrowS : State := { wrow with cores := [(0, { c0 with icyc := 4, boundary := some .yieldB, m0 := { Arr.init with rows := [row0] } })] }
def wdr : State := mkArr (fun A => { A with queue := [dq0, dq0] })
def wdr1 : State := mkArr (fun A => { A with queue := [dq1] })
/-! Streams, fabric, stacks. -/
def bytes64 (b : List Byte) : List Byte := b ++ List.replicate (64 - b.length) 0
/-- State `s` with 64 bytes at offset 64 l of core n's scratchpad, with the check state that they have. -/
def putL (s : State) (n l : Nat) (b : List Byte) : State := { s with
  mem := memPutBytes s.mem (spdKey n (64 * l)) (bytes64 b)
  lines := Tab.put Line.zero s.lines (lineKey n l) { chk := checkBits (bytes64 b), lchk := lineCheck (bytes64 b), checked := true, poison := false } }
def descBytes (kind flag src dst rb rows ss ds : Nat) : List Byte :=
  leBytes 32 (kind + 2 ^ 18 * flag + 2 ^ 32 * src + 2 ^ 80 * dst + 2 ^ 128 * rb + 2 ^ 152 * rows + 2 ^ 168 * ss + 2 ^ 208 * ds)
def runL : SList := { SList.init with state := .running, cb := 0x010040, next := 0x010040 }
def xlist (L : SList) : Ctx := { x0 with lists := [(1, L)], inv := 2 }
def mkL (L : SList) (f : Core → Core) (P : Panel → Panel) : State := { State.reset with
  cores := [(0, f { c0 with ctxs := [(0, xlist L)] }), (1, { Core.init with regions := [(0, codeReg)] })]
  panels := [(0, P live)], parts := [(0, part0)], now := 1000 }
def wD (b : List Byte) : State := putL (mkL runL id id) 0 1025 b
def wDf (b : List Byte) : State := putL (mkL runL id (fun P => { P with seq := { P.seq with flags := 8 } })) 0 1025 b
def wDEnd : State := wD (descBytes 0 0 0 0 0 0 0 0)
def wDCopy : State := wD (descBytes 1 0 (spdKey 1 0x8000) (spdKey 0 0x20000) 512 0 0 0)
def wDGather : State := wD (descBytes 2 0 (spdKey 1 0x8000) (spdKey 0 0x20000) 64 1 64 0x30000)
def wDStitch : State := wDf (descBytes 3 3 0 0 0 0 0 0)
def wDStand : State := wD (descBytes 3 3 0 0 0 0 0 0)
def wDSignal : State := wD (descBytes 4 63 0 0 0 0 0 0)
def wDLink : State := wD (descBytes 5 0 0x17FFE0 0 0 0 0 0)
def dOf (s : State) : Desc := match reached 0 1 s with | some (d, _, _) => d | none => Desc.ofBytes []
def uOf (s : State) : State := match reached 0 1 s with | some (_, _, u) => u | none => s
def wMark : State := putL (mkL { runL with state := .atMarker } id (fun P => { P with seq := { P.seq with flags := 8 } })) 0 1025 (descBytes 3 3 0 0 0 0 0 0)
def actS : Act := { id := 0, out := 0, issued := true, signal := some 5, counted := true }
def wSig : State := mkL { runL with acts := [actS] } id id
def wStopg : State := mkL { runL with state := .stopping } id id
def wbk : WriteBack := { line := 1025, data := bytes64 [1, 2, 3] }
def wWb : State := mkL runL (fun c => { c with wb := [wbk] }) id
def wZero : State := { State.reset with cores := [(0, { Core.init with regions := [(0, codeReg)] })], panels := [(0, live)]
                                        mem := [(spdKey 0 7, 9)] }
def dCopy : Desc := Desc.ofBytes (descBytes 1 0 (spdKey 1 0x81C0) (spdKey 0 0x20000) 512 0 0 0)
def xfer0 : Xfer := { id := 0, d := dCopy, row := 0, byte := 0, total := 0, raw := [], rawPois := [], outDone := 0, gath := [], gathP := [], nEnt := 0, ents := [], red := none, fixed := [] }
def act0 : Act := { id := 0, out := 1, issued := false, signal := none, counted := true }
def wXf : State := mkL { runL with cur := some xfer0, acts := [{ act0 with out := 0 }] } id id
def req0 : Req := { ctx := 0, inv := 2, list := some 1, desc := 0, use := .land 0x20000, addr := spdKey 1 0x8000, block := 1, epoch := 0, len := 64
                    data := List.replicate 64 7, pois := [false], status := 0, corrected := false, refusals := 0, phase := .replied }
def reqOld : Req := { req0 with inv := 1 }
def reqTry : Req := { req0 with phase := .retry 40, refusals := 1 }
def reqSent : Req := { req0 with phase := .sent, data := [] }
def reqPost : Req := { reqSent with list := none, use := .posted 5 }
def wRq (q : Req) : State := mkL { runL with cur := some xfer0, acts := [act0] } (fun c => { c with outst := [(9, q)] }) (fun P => { P with cyc := 40 })
def wRq0 : State := wRq req0
def wRqOld : State := wRq reqOld
def wRqTry : State := wRq reqTry
def qStf : QSlot := { QSlot.init with base := 0x010040, esz := 1, mode := 4, depth := 3, prod := 1, done := 1 }
def wStf : State := putL { mkL runL id id with cores := [(0, { c0 with ctxs := [(0, { x0 with q := [(5, qStf)], posted := 0 })] }), (1, { Core.init with regions := [(0, codeReg)] })] }
  0 1025 (leBytes 8 0x1122334455667788 ++ leBytes 8 (spdKey 1 0x8000))
def pkt0 : Packet := { pid := 4, reply := true, op := .read, status := 0, dst := spdKey 1 0x8000, src := .core 0, epoch := 0, tag := 9, ctx := 0, inv := 2
                       size := 64, data := List.replicate 64 7, pois := [false], pos := .there, inp := 0, path := [], hops := 0, home := .there, route := .xy, mirror := false, raw := false, lost := false }
def pktOld : Packet := { pkt0 with epoch := 3 }
def pktAck : Packet := { pkt0 with op := .posted, data := [], pois := [] }
def pktNak : Packet := { pktAck with status := 0x0F }
def wPk (k : Packet) (q : Req) : State := { wRq q with packets := [k], nextPid := 5 }
def wPk0 : State := wPk pkt0 reqSent
def wPkOld : State := wPk pktOld reqSent
def wPkAck : State := wPk pktAck reqPost
def wPkNak : State := wPk pktNak reqPost
/-- A gather of two rows of 64 bytes, its list at 0x030000. -/
def dGath : Desc := Desc.ofBytes (descBytes 2 0 (spdKey 1 0x8000) (spdKey 0 0x20000) 64 2 64 0x30000)
def wGath (i : Nat) : State := putL (mkL { runL with cur := some { xfer0 with d := dGath }, acts := [{ act0 with out := 0 }] } id id) 0 0xC00 (leBytes 4 i)
def wGath2 : State := wGath 2
def wGathSkip : State := wGath 0xFFFFFFFF
def wGathOut : State := wGath 0x18000
def wGathBad : State := { wGath 2 with lines := [(lineKey 0 0xC00, { Line.zero with poison := true })] }
/-- A transform of one MX unit whose output goes to core 1, and a reduction send of one beat. -/
def dXf : Desc := { dCopy with xf := 1, dst := spdKey 1 0x20000 }
def xferX : Xfer := { xfer0 with d := dXf, raw := [(0, List.replicate 512 1), (512, List.replicate 32 1)], rawPois := [(0, [])] }
def wXout : State := mkL { runL with xfs := [(0, xferX)] } id id
def dRed : Desc := { dCopy with rowBytes := 128, dst := spdKey 1 0x20000 }
def xferR : Xfer := { xfer0 with d := dRed, raw := [(0, List.replicate 128 1)], red := some 3 }
def redW : W64 := BitVec.ofNat 64 (2 ^ 63 + 2 ^ 62 + 2 ^ 24 * 0 + 2 ^ 32 * 1 + 0x20 * 2 ^ 0 + 0x20 * 2 ^ 11)
def wRsend : State := mkL { runL with xfs := [(0, xferR)] } (fun c => { c with red := [(3, redW)] }) id
def xferG : Xfer := { xfer0 with d := dGath }
def pktW : Packet := { pkt0 with reply := false, op := .write, dst := spdKey 1 0x8000, epoch := 0 }
def pktEp : Packet := { pktW with epoch := 1 }
def pktAt (n m : Nat) : Packet := { pktW with pos := .mesh n, dst := spdKey m 0x8000 }
def wTr (k : Packet) : State := { mkL runL id id with
  packets := [k], nextPid := 5
  cores := [(0, c0), (1, { Core.init with active := true, regions := [(0, codeReg)], ctxs := [(0, { x0 with state := .parked })] })] }
def wTrW : State := wTr pktW
def wTrEp : State := wTr pktEp
def pktRo : Packet := { pktW with dst := spdKey 0 0x0040, src := .core 1 }
def wTrRo : State := { wTr pktRo with cores := [(0, { c0 with regions := [(0, BitVec.ofNat 64 (2 ^ 63 + 2 ^ 60 + 5 * 2 ^ 32))] })] }
def pktHeld : Packet := pktAt 22 46
def wAt (k : Packet) : State := { wTr k with panels := [(0, live)] }
def wAtHeld : State := (wAt pktHeld).onHub 0 (fun H => { H with stale := true })
/-- Core n forwards a request to core m beside a reply that takes the same output, and beside a reduction that takes it. -/
def wAtR (n m : Nat) : State := { wAt (pktAt n m) with packets := [pktAt n m, { pktAt n m with pid := 6, reply := true, src := .core m, home := .mesh m, dst := spdKey n 0x8000 }] }
def wAtRd (n m : Nat) : State := { wAt (pktAt n m) with reds := [{ 
    router := n, id := 3, inp := .own, elem := 0, fmt := false, x0 := cxOf n, y0 := cyOf n, x1 := cxOf n, y1 := cyOf n
    dst := spdKey m 0x8000, data := List.replicate 128 0, p0 := false, p1 := false, owner := none }] }
def wTrShort : State := { wTrW with panels := [(0, { live with shorted := true })] }
def redP (i : RedIn) (e : Nat) : RedPkt := { router := 0, id := 3, inp := i, elem := e, fmt := false, x0 := 0, y0 := 0, x1 := 1, y1 := 0, dst := spdKey 0 0x20000
                                             data := List.replicate 128 0, p0 := false, p1 := false, owner := none }
def wRed (a b : Nat) : State := { mkL runL id id with reds := [redP .own a, redP .east b] }
def wRedOk : State := wRed 0 0
def wRedBad : State := wRed 0 1
def wRedTwo : State := { wRedOk with reds := wRedOk.reds ++ [{ redP .own 0 with id := 5 }, { redP .east 0 with id := 5 }], turns := [(turnKey (.mesh 0) 4 .red, 4)] }
def wRedRep : State := { wRedOk with packets := [{ pkt0 with pos := .mesh 0, home := .mesh 0 }] }
def redQ (i : RedIn) : RedPkt := { redP i 0 with router := 1, x1 := 2, dst := spdKey 2 0x20000 }
def wRedOn : State := { mkL runL id id with reds := [redQ .own, redQ .west] }
def wRedWait : State := { mkL runL id id with reds := [redP .own 0] }
def bc0 : Bcast := { pid := 4, part := 0, kind := 0, sect := 0, panels := 0, x0 := 0, y0 := 0, x1 := 1, y1 := 0, off := 0x3000, data := bytes64 [5], taken := [], src := none, len := 64, crc := crc64 (bytes64 [5]), good := true, again := false, reports := [] }
def cmdImg : PCmd := { kind := .image, goal := 0, left := [], auto := false, total := 1, reject := none, until_ := 90000, failed := false, code := 1, lostThen := [] }
def wBc : State := { mkL runL id id with parts := [(0, { part0 with cmd := some cmdImg })], bcasts := [bc0]
                                         cores := [(0, { Core.init with regions := [(0, codeReg)] }), (1, { Core.init with regions := [(0, codeReg)] })] }
def rrNotice : RunReset := { source := 1, level := 1, target := 0, escalated := false, phase := .notice, since := 900, at_ := 900 }
def wNotice : State := { mkL runL (fun c => { c with inReset := true }) id with rst := { ResetCtl.init with running := [rrNotice] } }
def bcBad : Bcast := { bc0 with crc := 0 }
def wBcBad : State := { wBc with bcasts := [bcBad] }
def wBcHeld : State := { wBc with panels := [(0, { live with darn := { live.darn with phase := .carrying, steps := [{ cores := [0, 1] }] } })] }
def upPins0 : Pins := { Pins.init with perst := false }
def wHost0 : State := { State.reset with pins := upPins0, mstate := .ready, panels := [(0, live)], parts := [(0, part0)], now := 1000 }
def upPins : Pins := { Pins.init with perst := false }
def wTabF : State := { wHost0 with transit := (List.range 64).map (fun q => (q, transitOf wHost0 q)) }
def wTab : State := { mkL runL id (fun P => { P with hub := { P.hub with stale := true } }) with transit := [(1, 2)] }
def wHost : State := { State.reset with pins := upPins, cast := { CastOn.init with step := 3 }, mstate := .ready, panels := [(0, live)], parts := [(0, part0)], now := 1000 }
def wHostUse : State := { wHost with cores := [(0, c0)] }
def xRunL : Ctx := { xlist runL with lists := [(0, runL), (1, runL), (2, runL), (3, runL)] }
def wHostList : State := { wHost with cores := [(0, { c0 with ctxs := [(0, xRunL), (1, xRunL), (2, xRunL), (3, xRunL)] })] }
def pktS : Packet := { pkt0 with reply := false, dst := stackKey 0 0x1F0, size := 32, data := [], pois := [], src := .core 0, epoch := 0 }
def pktSep : Packet := { pktS with epoch := 1 }
def wHub (k : Packet) (h : Hub → Hub) : State := { mkL runL id (fun P => { P with hub := h P.hub, stack := { P.stack with key := some 1#512, power := .powerDown } }) with packets := [k], nextPid := 5 }
def wHubOk : State := wHub pktS id
def hubFull (c : Nat) : HubReq := { pid := 100 + c, cls := 0, unit := 0, left := 608, fresh := true, late := false, counted := false, secs := [], data := [], pois := [], status := 0 }
def wHubFull : State := wHub pktS (fun h => { h with waiting := [hubFull 0] })
def wHubEp : State := wHub pktSep id
def hr0 : HubReq := { pid := 4, cls := 0, unit := 0, left := 2, fresh := true, late := false, counted := false, secs := [], data := [], pois := [], status := 0 }
def noKey (s : State) : State := { s with panels := s.panels.map (fun e => (e.1, { e.2 with stack := { e.2.stack with key := none } })) }
def wNoKey : State := noKey (wHub pktS (fun h => { h with waiting := [hr0] }))
def wHubNk : State := noKey wHubOk
def wGrant : State := wHub pktS (fun h => { h with waiting := [hr0], grants := 62, used := [(0, 37)] })
def hr5 : HubReq := { hr0 with pid := 5, cls := 1 }
def pkt5 : Packet := { pktS with pid := 5 }
/-- Two requests wait, the older of a class whose share is used up. -/
def wGrant2 : State := { wHub pktS (fun h => { h with waiting := [hr5, hr0], grants := 62, used := [(0, 35), (1, 64)] }) with packets := [pkt5, pktS] }
def wGrantOver : State := { wHub pktS (fun h => { h with waiting := [hr0], grants := 62, used := [(0, 64)] }) with packets := [pktS] }
def noHr : List HubReq := []
def mkK (f : Stack → Stack) : State := { wHost with panels := [(0, { live with stack := f { Stack.init with power := .powerDown, key := some 1#512 } })] }
def rwChk (f : List Byte → List Byte) : State := { mkK (fun K => { K with rewrites := [3, 4], checks := [(3, f (sectorCheck (List.replicate 64 0) (expectAw wHost 0 192) false))] }) with mem := [(stackKey 0 194, 1)] }
def wRw : State := rwChk id
def wRwBad : State := rwChk (fun l => l.map (· ^^^ 1))
def wScrub : State := mkK (fun K => { K with interval := 1000, next := 2 ^ 28 - 1 })
def wScrubE : State := mkK (fun K => { K with interval := 1001 })
def wRetire : State := mkK (fun K => { K with retiring := some 7, spares := 5 })
def wAct : State := mkK (fun K => { K with power := .active, lastUse := 900 })
def wActE : State := mkK (fun K => { K with power := .active, lastUse := 901 })
def wFill : State := mkK (fun K => { K with fill := .due })
def wFillR : State := mkK (fun K => { K with fill := .running })
def wPlain : State := mkK id
def pktMrg : Packet := { pktS with op := .write, dst := stackKey 0 0x3F0, data := List.replicate 32 1 }
def sec0 : SecRd := { bytes := List.replicate 64 0, pois := false, fresh := true, fixed := false }
def hrM : HubReq := { hr0 with cls := 1, unit := 1, secs := (List.range 8).map (fun i => (i, sec0)) }
def hrM0 : HubReq := { hrM with secs := [(0, sec0)] }
def wMrgAt (h : HubReq) : State := { wHost with panels := [(0, { live with hub := { Hub.init with waiting := [h] }, stack := { Stack.init with power := .powerDown, key := some 1#512, merges := [4] } })], packets := [pktMrg] }
def wMrg : State := wMrgAt hrM
def wMrg0 : State := wMrgAt hrM0
def partM : Part := { part0 with mirroring := true }
def stM : Stack := { Stack.init with power := .powerDown, key := some 1#512, mirrored := true }
def wMir (f g : Stack → Stack) (lost : Bool) : State := { wHost with
  parts := [(0, partM)], mem := [(stackKey 0 5, 9)]
  panels := [(0, { live with stack := f stM }), (1, { live with lost := lost, stack := g stM })] }
def mir0 : MirrorReq := { pid := 4, kind := .write, off := 0, data := List.replicate 32 1, pois := [false], sent := none }
def mir1 : MirrorReq := { mir0 with sent := some (9, 0) }
def wMirW : State := wMir (fun K => { K with partner := [mir0] }) id false
def wMirL : State := { wMirW with panels := wMirW.panels.map (fun e => if e.1 = 1 then (1, { e.2 with inReset := true }) else e) }
def pktMa : Packet := { pkt0 with op := .write, src := .stack 0, tag := 9, data := [], pois := [] }
def pktMo : Packet := { pktMrg with pid := 4, pos := .there }
def pktMb : Packet := { pktMa with pid := 5, epoch := 0 }
def wMirA : State := { wMir (fun K => { K with partner := [mir1] }) id false with packets := [pktMo, pktMb] }
def wReb : State := { wMir (fun K => { K with rebuild := .due }) id false with mem := [(stackKey 1 5, 9)] }
def wMrgKey : State := { wMrg with panels := wMrg.panels.map (fun e => (e.1, { e.2 with stack := { e.2.stack with key := none } })) }
def pktRb : Packet := { pktMa with op := .read, data := (List.range 512).map (BitVec.ofNat 8 ·), pois := List.replicate 8 false }
def mirR : MirrorReq := { pid := 0, kind := .rebuild, off := 512, data := [], pois := [], sent := some (9, 0) }
def wRebR : State := { wMir (fun K => { K with rebuild := .running, rebuilt := 2, partner := [mirR] }) id false with packets := [pktRb] }
def wRebNone : State := { wReb with mem := [] }
def wRebEnd : State := wMir (fun K => { K with rebuild := .running, rebuilt := deviceBase / 512, mirrorLost := true }) id false
def wRebMore : State := wMir (fun K => { K with rebuild := .running, rebuilt := deviceBase / 512, partner := [mirR] }) id false
/-! Links and steps. -/
def mkP (f : Port → Port) : State := { wHost with ports := [(0, f (Port.init 0))] }
def wpUp : State := mkP (fun P => { P with state := .up })
def wpSpoilt : State := mkP (fun P => { P with state := .up, role := .ring, spoilt := 2 })
def wpFew : State := mkP (fun P => { P with state := .up, failed := 0x001F#13 })
def wpFailed : State := mkP (fun P => { P with state := .up, failed := 1 })
def wpSw2 : State := mkP (fun P => { P with state := .up, failed := 1, sw := some (0x1FFE#13, 15) })
def wpCorr : State := mkP (fun P => { P with state := .up, corr := List.replicate 4097 (1000, 3) })
def wpSw : State := mkP (fun P => { P with state := .up, sw := some (0x1FFE#13, 15), agreed := true })
def txf : TxFlit := { kind := 1, src := none, fl := draft 0 0 0 false false 0 false [] }
def wpGap : State := mkP (fun P => { P with state := .up, buf := [txf], gap := some 2, lastAck := 900 })
def wpAck : State := mkP (fun P => { P with state := .up, buf := [txf], lastAck := 800, stuck := 6 })
def wpEighth : State := mkP (fun P => { P with state := .up, buf := [txf], lastAck := 800, stuck := 7 })
def wpQuiet : State := mkP (fun P => { P with state := .up, lastRx := 0 })
def wpHeard : State := mkP (fun P => { P with state := .up, lastRx := 1 })
def wpDown : State := { mkP (fun P => { P with state := .down, role := .feed, since := 0 }) with now := 100000 }
def wpTrFew : State := mkP (fun P => { P with state := .training, failed := 0x003F#13 })
def wpTrNone : State := mkP (fun P => { P with state := .training, failed := 0x001F#13 })
def idt : Ident := { serial := 5, port := 3, role := 4, job := 7, bridge := false }
def wpTrOk : State := mkP (fun P => { P with state := .training, role := .feed, job := 7, ident := some idt })
def wpTrMis : State := mkP (fun P => { P with state := .training, role := .feed, job := 8, ident := some idt })
def wpTrOld : State := { mkP (fun P => { P with state := .training, since := 0 }) with now := 5000000 }
def liveP : List (Nat × Panel) := (List.range 64).map (fun p => (p, live))
def wpLost : State := { mkP (fun P => { P with state := .up }) with panels := (liveP.map (fun e => (e.1, { e.2 with lost := true }))) }
def wpHere : State := { wpUp with panels := liveP }
def corr3 : List (Nat × BitVec 10) := [(0, 1#10), (13, 2#10), (543, 3#10)]
def corr0 : List (Nat × BitVec 10) := []
def flit0 : Flit := { draft 0 9 7 false false 0 false [1, 2, 3] with credit := 3, creditVc := 1 }
def sealed (kind : Nat) (f : Flit) : Flit := { f with crc := BitVec.ofNat 32 (flitCrc kind f) }
def fBad : Flit := { sealed 1 flit0 with step := 8 }
def fSeq : Flit := sealed 1 { flit0 with seq := 5 }
def fRes : Flit := sealed 9 flit0
def wpR : State := mkP (fun P => { P with state := .up, role := .ring, buf := [txf] })
def wpT : State := mkP (fun P => { P with state := .training, role := .ring })
def flitC : Flit := { draft 3 9 7 false false 0 false [1, 2, 3] with credit := 0 }
def partJ : Part := { Part.init with defined := true, x1 := 7, y1 := 7, session := .opened, job := { JobSt.init with stepOpen := true, n := 9, tokenAt := some 800 } }
def mkJ (r : Role) (job : Nat) (f : Port → Port) : State := { wHost with ports := [(0, f { Port.init 0 with state := .up, role := r, job := job })], parts := [(0, partJ)], panels := liveP }
def wJr : State := mkJ .reduce 7 id
def wJring : State := mkJ .ring 7 id
def wJother : State := mkJ .reduce 8 id
def wJsw : State := mkJ .reduce 7 (fun P => { P with sw := some (0x1FFE#13, 15) })
def wJmis : State := mkJ .reduce 7 (fun P => { P with state := .mismatch })
def wJtr : State := mkJ .reduce 7 (fun P => { P with state := .training })
def entC (f : Entry → Entry) : Entry := f (entryOf 0 (postWord 0x3F0000#64 0 0x400#64 0) .host 3 .send)
def entD : Entry := entC (fun e => { e with last := true, status := 0x0F })
def preq0 : PReq := { vc := 1, eid := 3, wr := false, addr := stackKey 0 0, len := 512, data := [], pois := [], refusals := 1, phase := .retry 900, epoch := 0 }
def wPo : State := mkJ .ring 7 (fun P => { P with state := .training })
def wPd : State := mkJ .feed 7 (fun P => { P with q := [(0, [entC id, entD])] })
def wPq : State := mkJ .feed 7 (fun P => { P with reqs := [(2, preq0)] })
def partN : Part := { partJ with job := JobSt.init }
def wPn : State := { mkJ .feed 7 id with parts := [(0, partN)] }
def wPfull : State := mkJ .ring 7 (fun P => { P with q := [(0, List.replicate 64 (entC id))] })
def wSend0 : W64 := BitVec.ofNat 64 (1 + 2 ^ 16 * 63 + 2 ^ 32 * (spdKey 0 0x20000 % 2 ^ 32))
def wSend1 : W64 := BitVec.ofNat 64 (spdKey 0 0x20000 / 2 ^ 32)
def wPreset : State := mkJ .ring 7 (fun P => { P with inReset := true })
def wRecv0 : W64 := BitVec.ofNat 64 (2 + 2 ^ 4 * 0 + 2 ^ 7 * 0 + 2 ^ 14 * 1 + 2 ^ 9 * 0 + 2 ^ 10 * 0 + 2 ^ 16 * 63 + 2 ^ 32 * (spdKey 0 0x20000 % 2 ^ 32))
def wRecv1 : W64 := BitVec.ofNat 64 (spdKey 0 0x20000 / 2 ^ 32 + 2 ^ 16 * spdKey 0 0x30000)
def wReduce0 : W64 := BitVec.ofNat 64 (3 + 2 ^ 4 * 2 + 2 ^ 7 * 1 + 2 ^ 14 * 1 + 2 ^ 9 * 0 + 2 ^ 10 * 0 + 2 ^ 16 * 63 + 2 ^ 32 * (spdKey 0 0x20000 % 2 ^ 32))
def wReduce1 : W64 := BitVec.ofNat 64 (spdKey 0 0x20000 / 2 ^ 32 + 2 ^ 16 * spdKey 0 0x30000)
def wRelay0 : W64 := BitVec.ofNat 64 (4 + 2 ^ 4 * 2 + 2 ^ 7 * 0 + 2 ^ 14 * 1 + 2 ^ 9 * 0 + 2 ^ 10 * 0 + 2 ^ 16 * 63 + 2 ^ 32 * (spdKey 0 0x20000 % 2 ^ 32))
def wRelay1 : W64 := BitVec.ofNat 64 (spdKey 0 0x20000 / 2 ^ 32 + 2 ^ 16 * spdKey 0 0x30000)
/-! Training steps and panel rest. -/
def seqAt (_n : Nat) : Seq := { Seq.init with state := .waiting, pc := 4, wait := some (.stepBegin 3), step := 8 }
def stepP (Q : Seq) (l : List Nat) : List (Nat × Panel) := (List.range 3).map (fun p => (p, if l.contains p then { live with seq := Q } else live))
def begunAll : Tab Nat := (List.range 3).map (fun p => (p, 9))
def jHeld : JobSt := { JobSt.init with hold := true, resume := 8, resumeAt := 0, voided := 9 }
def mkJb (J : JobSt) (Q : Seq) (now : Nat) (P : Port) : State :=
  { wHost with ports := [(0, P)], parts := [(0, { partJ with job := J, x1 := 2, y1 := 0 })], panels := stepP Q [0, 1, 2], now := now
               cores := [(0, { c0 with flag := true, gate := .apply })] }
def pRed : Port := { Port.init 0 with state := .up, role := .reduce, job := 7, commitOut := true, lastReduce := 100, rejoined := true, rejoinAt := 100 }
def wOpen : State := mkJb { JobSt.init with begun := begunAll } (seqAt 0) 1000 pRed
def wOpenBad : State := mkJb { JobSt.init with begun := begunAll.map (fun e => (e.1, if e.1 = 2 then 8 else 9)) } (seqAt 0) 1000 pRed
def jOpen : JobSt := { JobSt.init with stepOpen := true, n := 9, ever := true }
def wDone : State := mkJb { jOpen with ended := (List.range 64).map (fun p => (p, true)), sample := true } Seq.init 1000 pRed
def seqEnd : Seq := { Seq.init with state := .waiting, pc := 7, wait := some (.stepEnd 2), stepOpen := true, step := 9 }
def jBack (f nf : Bool) : JobSt := { jOpen with ended := (List.range 3).map (fun p => (p, true)), nf := some nf, back := some f, tokenAt := some 900 }
def wApply : State := mkJb (jBack false false) seqEnd 1000 pRed
def wSkip : State := mkJb (jBack true true) seqEnd 1000 pRed
def seqRun : Seq := { Seq.init with state := .running, pc := 7, stepOpen := true, step := 9, snap := some { regs := { Regs.init with s := [(1, 5)] }, loops := [], frog := 4 } }
def wVoid : State := mkJb jOpen seqRun 1000 { pRed with q := [(2, [entC id])] }
def wVoidClosed : State := mkJb { JobSt.init with begun := [] } Seq.init 1000 pRed
def entR : Entry := entC (fun e => { e with op := .reduce, step := 9, got := 1, last := false })
def wGapR : State := mkJb jOpen seqRun 100000000 { pRed with q := [(2, [entR])], timeout := 100 }
def wGapEarly : State := mkJb jOpen seqRun 150 { pRed with q := [(2, [entR])], timeout := 100 }
def wTokLate : State := mkJb { jOpen with tokenAt := some 900 } seqRun 1000 { pRed with commitTimeout := 100 }
def wHold : State := mkJb jHeld { Seq.init with state := .frog } 1124 pRed
def wHoldEarly : State := mkJb jHeld { Seq.init with state := .frog } 1123 pRed
def wHoldEnd : State := mkJb jHeld { Seq.init with state := .frog } 16384 pRed
def wHoldDown : State := mkJb { jHeld with down := true } { Seq.init with state := .frog } 16384 pRed
def prec (h : Nat) : PrestRec := { kind := 1, arg := 5, horizon := h, since := none, saveOk := true, pd := 2, resting := false }
def wPr (c h : Nat) (f : Core → Core) : State := { wHost with
  parts := [(0, { part0 with ceiling := c })], panels := [(0, { live with seq := { Seq.init with state := .prest, prest := some (prec h) }, costs := [(2, 50), (3, 60)] })]
  cores := [(0, f { Core.init with regions := [(0, codeReg)] })] }
def wNap : State := wPr 2 4000000 id
def wSleep : State := wPr 3 4000000 id
def wStay : State := wPr 1 4000000 id
def wCoreRuns : State := wPr 2 4000000 (fun _ => c0)
def wWake (pw : PPower) (now u : Nat) : State := { wHost with now := now, power := { wHost.power with inrush := [{ panel := 9, units := u, until_ := 2000 }] }, panels := [(0, { live with power := pw, wake := some { units := 0, deferred := false, forced := false, horizon := none } })] }
def precN : PrestRec := { prec 4000000 with saveOk := false }
def wNapCeil : State := { wSleep with panels := [(0, { live with seq := { Seq.init with state := .prest, prest := some precN }, costs := [(2, 50), (3, 60)] })] }
def wShortHz : State := wPr 3 49 id
def wRestEvent : State := { wSleep with panels := [(0, { live with seq := { Seq.init with state := .prest, flags := 32, prest := some (prec 4000000) }, costs := [(2, 50), (3, 60)] })] }
def wCalls (f : W64) : State := { wHost with panels := [(0, { live with power := .sleep, costs := [(3, 60)], seq := { Seq.init with state := .prest, flags := f, prest := some { prec 4000000 with since := some 900, resting := true } } })] }
def wWakeCall : State := wCalls 32
def wWakeN : State := wWake .nap 1000 2
def wWakeFull : State := wWake .nap 1000 16
/-! Host commands. -/
def cmdA (a b c d : Nat) : Cmd := { tag := 7, a0 := BitVec.ofNat 64 a, a1 := BitVec.ofNat 64 b, a2 := BitVec.ofNat 64 c, a3 := BitVec.ofNat 64 d, a4 := 0, a5 := 0, a6 := 0, a7 := 0 }
def part1 : Part := { Part.init with defined := true, session := .opened, key := some 1#512 }
def wC (K : Part) (f : State → State) : State := f { State.reset with pins := upPins, cast := { CastOn.init with step := 3 }, mstate := .ready, panels := [(0, live)], parts := [(0, K)], now := 1000 }
def wC0 : State := wC Part.init id
def wC1 : State := wC part1 id
def wCn : State := wC { part1 with session := .none, key := none } id
def winE : Win := { op := 0x12, tag := 3, args := [], since := 900, wait := [5], res0 := 0, res1 := 0 }
def wWin (w : Win) (now : Nat) : State := wC part1 (fun s => { s with now := now, host := { s.host with win := some w, opcode := 0x12 } })
def wPcie : State := wC Part.init (fun s => { s with pins := Pins.init })
def wCast : State := wC Part.init (fun s => { s with mstate := .castOn })
def wWaveP : State := wC Part.init (fun s => { s with panels := [] })
def wGaugeD : State := wC Part.init (fun s => { s with cast := { s.cast with failed := [3] } })
def wTr1 : State := wC Part.init (fun s => { s with ports := [(0, { Port.init 0 with state := .down, role := .ring, job := 7 })], panels := liveP })
def wTrUp : State := wC Part.init (fun s => { s with ports := [(0, { Port.init 0 with state := .up, role := .ring, job := 7 })] })
def wRole : State := wC { part1 with x1 := 7, y1 := 7 } (fun s => { s with panels := liveP })
def ub0 : Ubide := { Ubide.init with life := .provisioned, record := some (List.replicate 24 0 ++ List.replicate 64 9 ++ List.replicate 300 0) }
def ch0 : Challenge := { nonce := List.replicate 32 4, n := 0, byKey := false, idx := 0, since := 900 }
def proof0 : List Byte := sha512 (List.replicate 64 9 ++ List.replicate 32 4)
def wSess (st : Session) (c : Option Challenge) (pr : List Byte) : State := wC { part1 with session := st } (fun s => { s with ubide := { ub0 with challenge := c, proof := pr } })
def wOpen0 : State := wSess .none none []
def wOpen1 : State := wSess .none (some ch0) proof0
def wOpen2 : State := wSess .none (some ch0) []
def wRes1 : State := wSess .suspended (some ch0) proof0
def wRestS : State := wC part1 (fun s => { s with panels := [(0, { live with power := .sleep })] })
/-- The record area of partition 0 says that step 5 of job 0 began and was not applied. -/
def wRoleRec : State := { wRole with mem := [(stackKey 0 0x1FB800000C, 5)] }
def regCore : Core := { Core.init with regions := [(0, codeReg)] }
def wLn : State := wC part1 (fun s => { s with cores := [(0, regCore)] })
def wLnRun : State := wC part1 (fun s => { s with cores := [(0, { regCore with active := true, ctxs := [(0, { Ctx.init with state := .running })] })] })
def wRel : State := wC part1 (fun s => { s with panels := [(0, { live with seq := { Seq.init with state := .running } })] })
def wRelHold : State := wC { part1 with job := { JobSt.init with hold := true, down := true, resume := 8 } } id
def bindC : PCmd := { kind := .bindOff, goal := 0, left := [], auto := false, total := 0, reject := none, until_ := 1000, failed := false, code := 0, lostThen := [] }
def pwrC : PCmd := { kind := .power, goal := 2, left := [0, 1, 2, 3, 4], auto := true, total := 5, reject := none, until_ := 5000, failed := false, code := 0, lostThen := [] }
def wCmd (c : PCmd) (J : JobSt) (now : Nat) : State := wC { part1 with cmd := some c, job := J } (fun s => { s with now := now })
def wAutoW : State := wCmd pwrC JobSt.init 1000
def wBindOpen : State := wCmd bindC { JobSt.init with stepOpen := true } 1000
def wBindWait : State := wCmd bindC { JobSt.init with stepOpen := true } 999
def wBindIdle : State := wCmd bindC JobSt.init 1000
def wSusp (now : Nat) : State := wC { part1 with session := .suspended, suspendedAt := 0, resumeS := 2 } (fun s => { s with now := now })
def wSuspEnd : State := wSusp 200000000
def wSuspWait : State := wSusp 199999999
def wLockOver : State := wC part1 (fun s => { s with ubide := { ub0 with failures := 6, lastFail := 0 }, now := 200000000 })
def rect1 : Rect := { x0 := 0, y0 := 0, x1 := 0, y1 := 0 }
def rect2 : Rect := { x0 := 0, y0 := 0, x1 := 1, y1 := 0 }
def wLn2 : State := wC { part1 with seqEntry := 9 } (fun s => { s with cores := [(0, regCore), (1, regCore)] })
def imgC : PCmd := { kind := .image, goal := 9, left := [], auto := false, total := 1, reject := none, until_ := 90000, failed := false, code := 0, lostThen := [] }
def wImgEnd (r : Option Nat) : State := wCmd { imgC with reject := r } JobSt.init 1000
def wPwrEnd (g : Nat) : State := wCmd { pwrC with goal := g, left := [], total := 0 } JobSt.init 1000
def wPwrOff : State := { wPwrEnd 0 with panels := [] }
def winF : Win := { winE with op := 0x53 }
def wWave5 : State := { wWin winE 5000900 with panels := [(5, { live with bring := .due })] }
def pwrC2 : PCmd := { pwrC with goal := 2, left := [], total := 0 }
def pwrC0 : PCmd := { pwrC with goal := 0, left := [], total := 0 }
def imgN : PCmd := { imgC with reject := none }
def imgR : PCmd := { imgC with reject := some 3 }
def wDeadC : State := wC part1 (fun s => { s with cores := [(5, { Core.init with power := .fenced })], panels := [(0, { live with stack := { Stack.init with power := .active, key := some 1#512 } })] })
def wDbg (l : Nat) : State := wC part1 (fun s => { s with ubide := { ub0 with dbg := l } })
def wDbgP : State := wC part1 (fun s => { s with ubide := { ub0 with bufPois := [(0, true)] } })
/-- An owner record with a key, as the update buffer of a blank module holds it. -/
def record1 (flags : Byte) : List Byte := leBytes 4 0x524E574F ++ leBytes 4 1 ++ List.replicate 16 0 ++ List.replicate 64 9 ++ [0, flags] ++ List.replicate 422 0
def wRec (flags : Byte) : State := wC part1 (fun s => { s with mem := ((record1 flags).zipIdx.map (fun e => ((2 ^ 49 + e.2 : Nat), e.1))).filter (fun e => e.2 != 0) })
def wRec0 : State := wRec 0
def wRec1 : State := wRec 1
def wDbgJ : State := wC part1 (fun s => { s with ubide := { ub0 with dbg := 3 }, pins := { upPins with powered := true, tapReset := false, jtag := .dbgacc } })
/-! Host accesses, debug, repair, hangs, resets, power. -/
def wSel (k : Nat) : State := wC part1 (fun s => { s with host := { s.host with sel := k } })
def wBuf : State := { wSel 7 with mem := [(2 ^ 49 + 5, 9)] }
def hreq0 : HostReq := { fab := false, wr := false, addr := stackKey 0 0x1FC0000000, len := 8, data := [], pois := false, since := 0, refusals := 0, phase := .sent, aborted := false }
def hreqW : HostReq := { hreq0 with wr := true, data := List.replicate 8 1 }
def wAbortW : State := wC part1 (fun s => { s with now := 5000000, host := { s.host with reqs := [(2, hreqW)] } })
def hreqT (c : Nat) : HostReq := { hreq0 with phase := .retry c, refusals := 1 }
def wHTry (c : Nat) : State := wC part1 (fun s => { s with panels := [(0, { live with cyc := 40 })], host := { s.host with reqs := [(2, hreqT c)] } })
def wBufP : State := { wBuf with ubide := { wBuf.ubide with bufPois := [(0, true)] } }
def wAbort : State := wC part1 (fun s => { s with now := 5000000, host := { s.host with reqs := [(2, hreq0)] } })
def wFab (a : Nat) (K : Part) : State := wC K (fun s => { s with host := { s.host with fabAddr := a }, cores := [(0, regCore)], mem := [(spdKey 0 0x20003, 9)] })
def wFabOk : State := wFab (spdKey 0 0x20000) part1
def wFabShut : State := wFab (spdKey 0 0x20000) { part1 with session := .closed }
def sreq0 : SeqReq := { addr := 2 ^ 47 + 2 ^ 32 + winBase + 0x40, size := 8, wr := some [1, 2, 3, 4, 5, 6, 7, 8], dst := 0, block := 0, epoch := 0, refusals := 0, phase := .sent, status := 0, data := [] }
def wPub : State := wC part1 (fun s => { s with panels := [(0, { live with seq := { Seq.init with state := .waiting, wait := some (.fabric sreq0) } })] })
def wMsix : State := wC part1 (fun s => { s with host := { s.host with msixMasked := false, msixPending := true, d3 := true, ur := 3, sel := 2 } })
def wMsixM : State := wC part1 (fun s => { s with host := { s.host with msixMasked := true, msixPending := true } })
def wFree : State := wC Part.init id
def logE : LogEntry := { tick := 7, severity := 1, cls := 1, unit := 4, status := 0, d0 := 5, d1 := 6 }
def wLog : State := wC part1 (fun s => { s with log := { s.log with tail := 510, held := List.replicate 3 logE, head := 1 } })
def wCnt : State := wC part1 (fun s => { s with host := { s.host with retry := 5, ur := 6, ep := 7, lastSt := 4 } })
def wD2 (l : Nat) (f : Core → Core) (g : Debug → Debug) : State := wC part1 (fun s => { s with ubide := { ub0 with dbg := l }, dbg := g s.dbg
                                                                                               cores := [(0, f { c0 with ctxs := [(0, x0)] })] })
def wDhalt : State := wD2 3 id id
def fly1 : Res := { due := 9, slot := 0, pc := 1, w := .s 3 5 }
def wDfly : State := wD2 3 (fun c => { c with flight := [fly1] }) id
def wDres : State := wD2 3 (fun c => { c with halted := some 0 }) id
def wD0 : State := wD2 0 id id
def wJtOff : State := wC part1 (fun s => { s with pins := { upPins with powered := false } })
def wDcart : State := wC part1 (fun s => { s with ubide := { ub0 with dbg := 3 }, cores := [(0, { c0 with ctxs := [(0, { x0 with state := .waiting })], halted := some 0 })] })
def wDimg : State := wD2 3 (fun c => { c with active := false, ctxs := [(0, { x0 with state := .parked })] }) id
def wJt (l : Nat) (f : Pins → Pins) : State := wC part1 (fun s => { s with ubide := { ub0 with dbg := l }, pins := f { upPins with powered := true, tapReset := false, jtag := .dbgacc } })
def wPb (now : Nat) (f : Panel → Panel) (cs : Tab Core) : State := wC part1 (fun s => { s with now := now, panels := [(0, f live)], cores := cs })
def wProbe : State := wPb 16384 id [(0, c0)]
def wProbed (m : Tab Nat) : State := wPb 18000 (fun P => { P with probed := 16384, missed := m }) [(0, c0)]
def wMiss0 : State := wProbed []
def wMiss1 : State := wProbed [(0, 16500)]
def wChk : State := wPb 1000 id [(0, c0)]
def dq (f : Panel → Panel) : State := wPb 1000 (fun P => f { P with bad := [(0, true)], darn := { P.darn with queue := [0] } }) [(0, { Core.init with power := .fenced })]
def wDarn : State := dq id
def wDarnFull : State := dq (fun P => { P with skipRow := 7, bad := [(0, true), (23, true)] })
def wCarry : State := wPb 1000 (fun P => { P with darn := { P.darn with phase := .carrying, steps := [{ cores := [0, 1] }, { cores := [2] }] } }) []
def wZer : State := wPb 1000 (fun P => { P with darn := { P.darn with phase := .zeroizing, core := 0 } }) [(0, { Core.init with power := .fenced })]
def wFuse : State := wC part1 (fun s => { s with fuses := { s.fuses with queue := [5, 6] } })
def wDarnGood : State := wPb 1000 (fun P => { P with darn := { P.darn with queue := [0], failed := [(0, 24)] } }) [(0, { Core.init with power := .fenced })]
/-! Hangs, resets, power, cast-on. -/
def wHg (now : Nat) (f : Panel → Panel) (g : HangCtl → HangCtl) (cs : Tab Core) : State :=
  wC part1 (fun s => { s with now := now, panels := [(0, f live)], cores := cs, hang := g s.hang })
/-- Two lists of core 0 that wait for each other's slot are stood for by two engines in both snapshots. -/
def e1 : EngRec := { eng := .ctx 0 0, waits := true, edges := [.list 0 0 1], mark := [1] }
def e2 : EngRec := { eng := .list 0 0 1, waits := true, edges := [.ctx 0 0], mark := [2] }
def wSnap : State := wHg 65536 id id [(0, c0)]
def wSnapNo : State := wHg 65535 id id [(0, c0)]
def wStuck : State := wHg 65536 (fun P => { P with hang := { P.hang with snapshots := 2, snap := [e1, e2], prev := [e1, e2] } }) id [(0, c0)]
def wReplay : State := wHg 1000 id (fun G => { G with active := true, todo := [(0, 0)], suspects := [(0, 0)], panels := [0] }) [(0, { regCore with launches := [(0, 3, [])] })]
def wRunning (now : Nat) : State := wHg now id (fun G => { G with active := true, cur := some (0, 0), since := 0, suspects := [(0, 0)], panels := [0] }) [(0, c0)]
def wRunYet : State := wRunning 1000
def wRunLate : State := wRunning 1048576
def wGuilty : State := wHg 1000 id (fun G => { G with active := true, suspects := [(0, 0)], guilty := [(0, 0)], panels := [0] }) [(0, { c0 with active := false, ctxs := [(0, { x0 with state := .parked })] })]
def eS : EngRec := { eng := .seq 0, waits := true, edges := [.seq 0], mark := [3] }
def wStuckSeq : State := wHg 65536 (fun P => { P with hang := { P.hang with snapshots := 2, snap := [eS], prev := [eS] } }) id [(0, c0)]
def stopE : HangStop := { n := 0, k := 0, since := 900 }
def wHGo (f : Panel → Panel) (g : HangCtl → HangCtl) (c : Core) : State :=
  wHg 1000 f (fun G => g { G with active := true, todo := [(0, 0)], suspects := [(0, 0)], panels := [0] }) [(0, c)]
def wStopping : State := wHGo id (fun G => { G with stopping := [stopE] }) { regCore with outst := [(9, reqSent)] }
def wHLost : State := wHGo (fun P => { P with lost := true }) id regCore
def wHAsleep : State := wHGo (fun P => { P with power := .sleep }) id regCore
def wHNoLaunch : State := wHGo id id regCore
def wShort : State := wHg 1000 (fun P => { P with shorted := true }) id []
def rrOf (ph : RPhase) (since : Nat) : RunReset := { source := 3, level := 1, target := 0, escalated := false, phase := ph, since := since, at_ := since }
def wRr (r : RunReset) (out : Tab Req) (now : Nat) : State := wC part1 (fun s => { s with now := now, rst := { s.rst with running := [r] }, cores := [(0, { c0 with outst := out })] })
def wRFired : State := wRr (rrOf .fired 900) [] 1000
def wRDrain : State := wRr (rrOf .drain 900) [] 1000
def wRBusy : State := wRr (rrOf .drain 900) [(9, reqSent)] 1000
def wRForce : State := wRr (rrOf .drain 0) [(9, reqSent)] 1000
def wREsc : State := wRr (rrOf .drain 0) [(9, reqSent)] 2000
def wRFire2 : State := wRr (rrOf .fired 0) [] 9000
def rrP : RunReset := { source := 3, level := 3, target := 0, escalated := false, phase := .fired, since := 900, at_ := 900 }
def wPReset : State := wC { part1 with fault := true } (fun s => { s with rst := { s.rst with running := [rrP] } })
def rrC : RunReset := { source := 1, level := 0, target := 0, escalated := false, phase := .fired, since := 900, at_ := 900 }
def wRCtx : State := wRr rrC [] 1000
def rrN (ph : RPhase) : RunReset := { source := 3, level := 2, target := 0, escalated := false, phase := ph, since := 900, at_ := 900 }
def wRPanel : State := wRr (rrN .fired) [] 1000
def wRPDrain : State := wRr (rrN .drain) [] 1000
def rrO : RunReset := { source := 3, level := 6, target := 7, escalated := false, phase := .drain, since := 900, at_ := 900 }
def wRPort : State := wRr rrO [] 1000
def wPw (now : Nat) (f : Tension → Tension) (g : Power → Power) : State :=
  wC part1 (fun s => { s with now := now, panels := [(0, { live with tension := f live.tension, firstUse := some 0 })], power := g s.power })
def wHot : State := wPw 100000 (fun T => { T with junction := [96] }) id
def wCool : State := wPw 100000 id id
def wEvalNo : State := wPw 99999 id id
def wOver : State := wPw 100000 id (fun W => { W with cap := 100, in1ms := 101 })
def wOverNone : State := wPw 100000 (fun T => { T with step := 5 }) (fun W => { W with cap := 100, in1ms := 101 })
def wFast : State := { wPw 100000 (fun T => { T with step := 3 }) (fun W => { W with cap := 1000, in1ms := 100 }) with panels := [(0, { live with tension := { live.tension with step := 3 } })] }
def wStep : State := wPw 1000 (fun T => { T with target := some 3 }) id
def wFirst : State := wPw 10000000 id id
def wTrip : State := wPw 1000 (fun T => { T with junction := [115] }) id
def wTripped (f : Tension → Tension) : State := wPw 1000 f (fun W => { W with tripPin := true })
def wTripCool : State := wTripped id
def wTripHot : State := wTripped (fun T => { T with junction := [95] })
def wDefer (u : Nat) : State := wC part1 (fun s => { s with panels := [(0, { live with power := .sleep, wake := some { units := 3, deferred := true, forced := false, horizon := none } })]
                                                            power := { s.power with deferred := [0], inrush := [{ panel := 9, units := u, until_ := 2000 }] } })
def wDefOk : State := wDefer 5
def wDefFull : State := wDefer 16
def wOff : State := wC { part1 with defined := false } (fun s => { s with panels := (List.range 64).map (fun p => (p, if p = 0 then { live with offReq := true } else live)) })
def wDefOffW : PanelWake := { units := 4, deferred := true, forced := false, horizon := none }
def wDefOff : State := wC part1 (fun s => { s with panels := [(0, { Panel.init with wake := some wDefOffW })], power := { s.power with deferred := [0] } })
def rrM (l : Nat) : RunReset := { source := 3, level := l, target := 0, escalated := false, phase := .fired, since := 900, at_ := 900 }
def wMr (l : Nat) : State := wC part1 (fun s => { s with rst := { s.rst with running := [rrM l] }, cores := [(0, c0)] })
def wMod : State := wMr 4
def wTray : State := wMr 5
def wUnp : State := wC part1 (fun s => { s with pins := { Pins.init with powered := false, perst := false } })
def wCo (f : State → State) : State := f { State.reset with pins := upPins }
def wCoUp : State := wCo id
def wCoPerst : State := State.reset
def badFw : Firmware := { bytes := [1, 2, 3], version := 0, svn := 0 }
def wCoBad : State := wCo (fun s => { s with ubide := { s.ubide with store := [(0, badFw)] } })
def wCo9 : State := wCo (fun s => { s with cast := { s.cast with step := 9 } })
def wCoLate : State := wCo (fun s => { s with cast := { s.cast with step := 4, third := 0 }, now := 3000000000, rst := { s.rst with failedStarts := 1 } })
def wCo9Late : State := wCo (fun s => { s with cast := { s.cast with step := 9, third := 0, ninth := 100 }, now := 1000100 })
def wCoS (k : Nat) : State := wCo (fun s => { s with cast := { s.cast with step := k } })
def wFlt (now : Nat) : State := wCo (fun s => { s with mstate := .fault, cast := { s.cast with failedAt := some 0 }, now := now })
def wFltGo : State := wFlt 100000000
def wFltNo : State := wFlt 99999999
def wkB : PanelWake := { units := 4, deferred := false, forced := false, horizon := none }
def wBr (b : Bring) : State := wC part1 (fun s => { s with panels := [(0, { Panel.init with bring := b, wake := some wkB })] })
def wBrDue : State := wBr .due
def wBrBuilt : State := wBr .built
/-! Frames, invariants, results, parity, generators. -/
def wTwo (a b : RegW) : State := { State.reset with cores := [(0, { c0 with icyc := 9, flight := [{ due := 8, slot := 2, pc := 1, w := a }, { due := 8, slot := 1, pc := 2, w := b }] })], panels := [(0, live)] }
def wTs : State := wTwo (.s 3 5) (.s 3 6)
def wTa : State := wTwo (.a 3 5) (.a 3 6)
def wTp : State := wTwo (.p 3 true) (.p 3 false)
def wTk : State := wTwo (.k 3 5) (.k 3 6)
def wTc : State := wTwo (.c 3 5) (.c 3 6)
def wTl : State := wTwo (.lanes 3 [(4, 5)] []) (.lanes 3 [(4, 6)] [])
def wTz : State := wTwo (.s 0 5) (.s 0 6)
def wGen : State := { State.reset with cores := [(0, { c0 with ctxs := [(0, { x0 with gens := [(3, 0x1234567)] })] })], panels := [(0, live)] }
def wBadL : State := { w0 with mem := [(spdKey 0 65601, 1)] }
def wLaunchG : State := (launchOn 0 0 3 [] (selOf regCore 0) wReplay).getD wReplay
/-! Results of chains and arrays, write-one fields. -/
def st0 : Stage := { kind := 2, op := 0, x := 1, y := 2, z := 0, rnd := false }
def fly0 (l : List Stage) : Flying := { vd := 5, stages := l, la := [(3, 0x3F800000)], lb := [(3, 0x40000000)], lc := [], pa := [(1, true)], pb := [], pc := []
                                        mask := 0xFFFF, prm := List.replicate 8 0, gc := true, t := 4, gen1 := [], gen2 := [] }
def chain2 : List Stage := [{ st0 with op := 3, x := 1, y := 2, z := 4 }, { st0 with op := 4, x := 0, y := 24 }]
def wChain : State := { State.reset with cores := [(0, { c0 with icyc := 9, flight := [{ due := 9, slot := 2, pc := 1, w := .chain (fly0 chain2) }] })], panels := [(0, live)] }
def inpA : Inp := { t := 4, next := 1, rows := 4, v := 1, tile := 3, srs := false, kind := .mmul 0x20000 0x30000, pc := 1 }
def wtA (wf af : Nat) : WTile := { WTile.init with wf := wf, af := af, data := [(0, 0x80), (1, 0x3F), (17, 5)], scales := [(0, 127)] }
def wArrI (wf af nm : Nat) : State :=
  wC part1 (fun s => { s with cores := [(0, { c0 with icyc := 6, m0 := { Arr.init with inp := some inpA, active := { wtA wf af with nm := nm, md := [(0, 0x44)] } } })]
                              mem := [(spdKey 0 0x20040, 0x80), (spdKey 0 0x20041, 0x3F), (spdKey 0 0x20042, 0x3F), (spdKey 0 0x30000, 127)] })
def wArrD : State := wArrI 0 0 0
def wArr8 : State := wArrI 2 2 0
def rowA (v : RowVal) (srs : Bool) : RowOp := { due := 4, tile := 3, row := 2, srs := srs, val := v }
def rowB (v : RowVal) (srs : Bool) : RowOp := { rowA v srs with due := 5 }
def wRow (o : RowOp) (cnt : Bool) : State :=
  wC part1 (fun s => { s with cores := [(0, { c0 with icyc := 6, ctxs := [(0, { x0 with mode := if cnt then 4 else 0 })], m0 := { Arr.init with rows := [o, { o with due := 5 }], gens := [(0, 0xFFFF_1234_8001)] } })] })
def addV : RowVal := .add [[.fin false 3 (-1), .nan]] true
def drA : DrainOp := { kind := .mdrain, tile := 3, fmt := 0, rnd := false, w := true, cl := true, gc := true, nm := 0, dst := 0x20000, aux := 0, aux2 := 0, aux3 := 0
                       str := 0, wide := 0x30000, after := 0, pc := 1, started := some 0, cap := List.replicate 256 0x3F800000, capP := List.replicate 16 false
                       rands := List.replicate 256 0, inBytes := [], inBad := [], hit := [] }
def wDr (o : DrainOp) : State := wC part1 (fun s => { s with panels := [(0, { live with cyc := 4000 })], cores := [(0, { c0 with m0 := { Arr.init with queue := [o] } })] })
def drN : DrainOp := { drA with w := false, capP := true :: List.replicate 15 false }
def drS : DrainOp := { drA with kind := .spill }
def eInt (k : Nat) : Int := if k = 2 then -2 else 0
def qInt : Int := 0

/-! The premises of the statements, met clause by clause. The names in a docstring are those of the cases. -/

/-- Premises of StepRunsTheFrontCommand: stepRuns, stepIdles. -/
theorem test_stepRunsTheFrontCommand_applies :
    (wpend.pending = [Instr.resultRetire 0]) ∧
    (w0.pending = []) := by and_intros <;> decide +kernel

/-- Premises of ScalarAddressMaskAndPredicateResults: scalar1, scalar2, scalar3, scalar4, scalar5, scalar6, scalar7,
scalar8, scalar9, scalar10, scalar11, scalar12, scalar13, scalar14, scalar15, scalar16, scalar17, scalarMinU,
scalarMaxU, address1, address2, address3, address4, address5, address6, address7, address8, address9, address10,
address11, cmp1, cmp2, cmp3, cmp4, cmp5. -/
theorem test_scalarAddressMaskAndPredicateResults_applies_1 :
    (issuesC 0 (CIns.add { d := 3, a := 1, b := 2, f := 0 }) 0 0 0 w0 = true) ∧
    (issuesC 0 (CIns.sub { d := 3, a := 1, b := 2, f := 0 }) 0 0 0 w0 = true) ∧
    (issuesC 0 (CIns.andS { d := 3, a := 1, b := 2, f := 0 }) 0 0 0 w0 = true) ∧
    (issuesC 0 (CIns.orS { d := 3, a := 1, b := 2, f := 0 }) 0 0 0 w0 = true) ∧
    (issuesC 0 (CIns.xorS { d := 3, a := 1, b := 2, f := 0 }) 0 0 0 w0 = true) ∧
    (issuesC 0 (CIns.shl { d := 3, a := 1, b := 2, f := 0 }) 0 0 0 w0 = true) ∧
    (issuesC 0 (CIns.shr { d := 3, a := 1, b := 2, f := 0 }) 0 0 0 w0 = true) ∧
    (issuesC 0 (CIns.sra { d := 3, a := 1, b := 2, f := 0 }) 0 0 0 w0 = true) ∧
    (issuesC 0 (CIns.minS { d := 3, a := 1, b := 2, f := 0 }) 0 0 0 w0 = true) ∧
    (issuesC 0 (CIns.maxS { d := 3, a := 1, b := 2, f := 0 }) 0 0 0 w0 = true) ∧
    (issuesC 0 (CIns.mul { d := 3, a := 1, b := 2, f := 0 }) 0 0 0 w0 = true) ∧
    (issuesC 0 (CIns.mulh { d := 3, a := 1, b := 2, f := 0 }) 0 0 0 w0 = true) ∧
    (issuesC 0 (CIns.sel { d := 3, a := 1, b := 2, f := 1 }) 0 0 0 w0 = true) ∧
    (issuesC 0 (CIns.addi { d := 3, a := 2, imm := 16368 }) 0 0 0 w0 = true) ∧
    (issuesC 0 (CIns.andi { d := 3, a := 2, imm := 16368 }) 0 0 0 w0 = true) ∧
    (issuesC 0 (CIns.ori { d := 3, a := 2, imm := 16368 }) 0 0 0 w0 = true) ∧
    (issuesC 0 (CIns.lui { d := 3, imm := 524272 }) 0 0 0 w0 = true) ∧
    (issuesC 0 (CIns.minS { d := 3, a := 1, b := 2, f := 1 }) 0 0 0 w0 = true) ∧
    (issuesC 0 (CIns.maxS { d := 3, a := 1, b := 2, f := 1 }) 0 0 0 w0 = true) ∧
    (issuesC 0 (CIns.amov { d := 3, a := 1, b := 0, f := 0 }) 0 0 0 w0 = true) ∧
    (issuesC 0 (CIns.aget { d := 3, a := 1, b := 0, f := 0 }) 0 0 0 w0 = true) ∧
    (issuesC 0 (CIns.aadd { d := 3, a := 1, b := 2, f := 0 }) 0 0 0 w0 = true) ∧
    (issuesC 0 (CIns.aaddi { d := 3, a := 1, imm := 16368 }) 0 0 0 w0 = true) ∧
    (issuesC 0 (CIns.aform { d := 3, a := 4, b := 2, f := 0 }) 0 0 0 w0 = true) ∧
    (issuesC 0 (CIns.kmov { d := 3, a := 1, b := 0, f := 0 }) 0 0 0 w0 = true) ∧
    (issuesC 0 (CIns.kget { d := 3, a := 1, b := 0, f := 0 }) 0 0 0 w0 = true) ∧
    (issuesC 0 (CIns.ktail { d := 3, a := 1, b := 0, f := 0 }) 0 0 0 w0 = true) ∧
    (issuesC 0 (CIns.kop { d := 3, a := 1, b := 2, f := 0 }) 0 0 0 w0 = true) ∧
    (issuesC 0 (CIns.cmp { d := 3, a := 1, b := 2, f := 0 }) 0 0 0 w0 = true) ∧
    (issuesC 0 (CIns.pop { d := 3, a := 1, b := 2, f := 0 }) 0 0 0 w0 = true) ∧
    (issuesC 0 (CIns.cmp { d := 3, a := 1, b := 2, f := 1 }) 0 0 0 w0 = true) ∧
    (issuesC 0 (CIns.cmp { d := 3, a := 1, b := 2, f := 2 }) 0 0 0 w0 = true) ∧
    (issuesC 0 (CIns.cmp { d := 3, a := 1, b := 2, f := 3 }) 0 0 0 w0 = true) ∧
    (issuesC 0 (CIns.cmp { d := 3, a := 1, b := 2, f := 4 }) 0 0 0 w0 = true) ∧
    (issuesC 0 (CIns.cmp { d := 3, a := 1, b := 2, f := 5 }) 0 0 0 w0 = true) := by and_intros <;> decide +kernel

/-- Premises of ScalarAddressMaskAndPredicateResults: kop1, kop2, kop3, pop1, pop2, pop3, pop4. -/
theorem test_scalarAddressMaskAndPredicateResults_applies_2 :
    (issuesC 0 (CIns.kop { d := 3, a := 1, b := 2, f := 1 }) 0 0 0 w0 = true) ∧
    (issuesC 0 (CIns.kop { d := 3, a := 1, b := 2, f := 2 }) 0 0 0 w0 = true) ∧
    (issuesC 0 (CIns.kop { d := 3, a := 1, b := 2, f := 3 }) 0 0 0 w0 = true) ∧
    (issuesC 0 (CIns.pop { d := 3, a := 1, b := 2, f := 1 }) 0 0 0 w0 = true) ∧
    (issuesC 0 (CIns.pop { d := 3, a := 1, b := 2, f := 2 }) 0 0 0 w0 = true) ∧
    (issuesC 0 (CIns.pop { d := 3, a := 1, b := 2, f := 3 }) 0 0 0 w0 = true) ∧
    (issuesC 0 (CIns.pop { d := 3, a := 1, b := 2, f := 4 }) 0 0 0 w0 = true) := by and_intros <;> decide +kernel

/-- Premises of LoadsStoresControlRegistersFlags: ldNear, ldBad, stNear, mfc1_0, mfc2_0, mfc2_1, mfc2_2, mfc2_3,
mfc2_4, mfc2_5, mfc2_8, mfc2_9, mfc2_10, mfc4_5, mfc5_15, mtc. -/
theorem test_loadsStoresControlRegistersFlags_applies :
    (issuesC 0 (CIns.ld { t := 5, base := 1, size := 2, off := 0 }) 0 0 0 wst = true) ∧
    ((spdRead 0 0 (dispOff (((fetched 0 wst).ctx 0).regs.getA 1) 0 (2 ^ 2)).toNat (2 ^ 2) (fetched 0 wst)).1.bad =
      []) ∧
    (issuesC 0 (CIns.ld { t := 5, base := 1, size := 3, off := 0 }) 0 0 0 wbad = true) ∧
    ((spdRead 0 0 (dispOff (((fetched 0 wbad).ctx 0).regs.getA 1) 0 (2 ^ 3)).toNat (2 ^ 3) (fetched 0 wbad)).1.bad ≠
      []) ∧
    (issuesC 0 (CIns.st { t := 1, base := 1, size := 0, off := 1 }) 0 0 0 w0 = true) ∧
    (issuesC 0 (CIns.nop 0) 0 0 0 w0 = true) ∧
    (issuesC 0 (CIns.mfc { d := 3, a := 0, b := 0, f := 0 }) 0 0 0 w0 = true) ∧
    (issuesC 0 (CIns.mfc { d := 3, a := 0, b := 0, f := 1 }) 0 0 0 w0 = true) ∧
    (issuesC 0 (CIns.mfc { d := 3, a := 0, b := 0, f := 2 }) 0 0 0 w0 = true) ∧
    (issuesC 0 (CIns.mfc { d := 3, a := 0, b := 0, f := 3 }) 0 0 0 w0 = true) ∧
    (issuesC 0 (CIns.mfc { d := 3, a := 0, b := 0, f := 4 }) 0 0 0 w0 = true) ∧
    (issuesC 0 (CIns.mfc { d := 3, a := 0, b := 0, f := 5 }) 0 0 0 w0 = true) ∧
    (issuesC 0 (CIns.mfc { d := 3, a := 0, b := 0, f := 8 }) 0 0 0 w0 = true) ∧
    (issuesC 0 (CIns.mfc { d := 3, a := 0, b := 0, f := 9 }) 0 0 0 w0 = true) ∧
    (issuesC 0 (CIns.mfc { d := 3, a := 0, b := 0, f := 10 }) 0 0 0 w0 = true) ∧
    (issuesC 0 (CIns.sig { d := 0, a := 0, b := 0, f := 5 }) 0 0 0 w0 = true) ∧
    (issuesC 0 (CIns.arrive { d := 0, a := 0, b := 0, f := 15 }) 0 0 0 w0 = true) ∧
    (issuesC 0 (CIns.mtc { d := 0, a := 1, b := 0, f := 10 }) 0 0 0 w0 = true) := by and_intros <;> decide +kernel

/-- Premises of BranchesLoopsAndTheirAdvance: brTaken, brNotTaken, jmp, jr, loop, loopNone, loopi, advBack,
advEndOuterLoops, advEnd, advEndAll, advNext, advBranch3, advBranch2, advBranch1, advBranchOut, advBranchIn. -/
theorem test_branchesLoopsAndTheirAdvance_applies :
    (issuesC 0 (CIns.br { sense := 1, p := 1, off := 1048574 }) 0 0 0 w0 = true) ∧
    (((fetched 0 w0).ctx 0).regs.getP 1 = decide (1 = 1)) ∧
    (issuesC 0 (CIns.br { sense := 0, p := 1, off := 4 }) 0 0 0 w0 = true) ∧
    (((fetched 0 w0).ctx 0).regs.getP 1 ≠ decide (0 = 1)) ∧
    (issuesC 0 (CIns.jmp { sense := 0, p := 0, off := 4 }) 0 0 0 w0 = true) ∧
    (issuesC 0 (CIns.jr { d := 0, a := 1, b := 0, f := 0 }) 0 0 0 w0 = true) ∧
    (issuesC 0 (CIns.loop { s := 1, z := 0, body := 4 }) 0 0 0 w0 = true) ∧
    (BitVec.toNat (((fetched 0 w0).ctx 0).regs.getS 1) % 2 ^ 32 ≠ 0) ∧
    (issuesC 0 (CIns.loop { s := 9, z := 0, body := 4 }) 0 0 0 w0 = true) ∧
    (BitVec.toNat (((fetched 0 w0).ctx 0).regs.getS 9) % 2 ^ 32 = 0) ∧
    (issuesC 0 (CIns.loopi { count := 5, body := 4 }) 0 0 0 w0 = true) ∧
    (xn.pc = 3) ∧
    (3 + 1 < 2 ^ 20) ∧
    (lp2.start < 2 ^ 20) ∧
    (xn.branch = none) ∧
    (xn.loops = [lp3] ++ [lp2]) ∧
    (lp2.stop = 3) ∧
    (1 < lp2.count) ∧
    (xle1.pc = 3) ∧
    (lp1.start < 2 ^ 20) ∧
    (xle1.branch = none) ∧
    (∀ v ∈ [lp1], v.stop = 3 ∧ v.count = 1) ∧
    (xle1.loops = [lp3] ++ [lp2] ++ [lp1]) ∧
    (xl.pc = 3) ∧
    (xl.branch = none) ∧
    (xl.loops = [] ++ [lp3] ++ [lp1]) ∧
    (lp3.stop ≠ 3) ∧
    (xle3.pc = 3) ∧
    (xle3.branch = none) ∧
    (∀ v ∈ [lp0, lp1], v.stop = 3 ∧ v.count = 1) ∧
    (xle3.loops = [lp0, lp1]) ∧
    (x0.pc = 3) ∧
    (x0.branch = none) ∧
    (∀ v ∈ x0.loops, v.stop ≠ 3) ∧
    (xb3.pc = 3) ∧
    (3 = 3 ∨ 3 = 2) ∧
    (xb3.branch = some (7, 3)) ∧
    (∀ v ∈ xb3.loops, v.stop ≠ 3) ∧
    (xb2.pc = 3) ∧
    (2 = 3 ∨ 2 = 2) ∧
    (xb2.branch = some (7, 2)) ∧
    (∀ v ∈ xb2.loops, v.stop ≠ 3) ∧
    (xb1.pc = 3) ∧
    (xb1.branch = some (20, 1)) ∧
    (∀ v ∈ xb1.loops, v.stop ≠ 3) ∧
    (∀ v ∈ [lp3], 20 < v.start ∨ v.stop < 20) ∧
    (xb1.loops = [lp3]) ∧
    (xb1in.pc = 3) ∧
    (xb1in.branch = some (20, 1)) ∧
    (∀ v ∈ xb1in.loops, v.stop ≠ 3) ∧
    (xb1in.loops = [] ++ [lp20] ++ [lp3]) ∧
    (lp20.start ≤ 20) ∧
    (20 ≤ lp20.stop) := by and_intros <;> decide +kernel

/-- Premises of WaitRestBoundariesAndSwitches: waitNow, waitWaits, restNow, restRests, yieldEnters, endEnters,
yieldGoesOn, yieldSwitches, endIdles. -/
theorem test_waitRestBoundariesAndSwitches_applies :
    (issuesC 0 (CIns.wait { s := 1, kind := 1, arg := 2, pd := 2, saveOk := 0, z := 0 }) 0 0 0 wflag = true) ∧
    (eventNow 0 1 2 (fetched 0 wflag) = true) ∧
    (issuesC 0 (CIns.wait { s := 1, kind := 1, arg := 2, pd := 2, saveOk := 0, z := 0 }) 0 0 0 wi = true) ∧
    (eventNow 0 1 2 (fetched 0 wi) = false) ∧
    (issuesC 0 (CIns.rest { s := 1, kind := 1, arg := 2, pd := 2, saveOk := 0, z := 0 }) 0 0 0 wflag = true) ∧
    (issuesC 0 (CIns.rest { s := 1, kind := 1, arg := 2, pd := 2, saveOk := 0, z := 0 }) 0 0 0 wi = true) ∧
    (issuesC 0 (CIns.yield { d := 0, a := 0, b := 0, f := 0 }) 0 0 0 wi = true) ∧
    (issuesC 0 (CIns.endC { d := 0, a := 0, b := 0, f := 0 }) 0 0 0 wi = true) ∧
    (0 < 35328) ∧
    ((wyb.core 0).haltReq = false) ∧
    ((wyb.core 0).still = true) ∧
    (quiet (wyb.core 0) = true) ∧
    ((wyb.ctx 0).postExc = none) ∧
    ((wyb.core 0).boundary = some Boundary.yieldB) ∧
    ((wyb.core 0).mark = none) ∧
    ((wym.core 0).haltReq = false) ∧
    ((wym.core 0).still = true) ∧
    (quiet (wym.core 0) = true) ∧
    ((wym.ctx 0).postExc = none) ∧
    ((wym.core 0).boundary = some Boundary.yieldB) ∧
    ((wym.core 0).mark = some 2) ∧
    (2 ≠ (wym.core 0).cur) ∧
    ((wym.ctxAt 0 2).state = CtxState.ready) ∧
    ((web.core 0).haltReq = false) ∧
    ((web.core 0).still = true) ∧
    (quiet (web.core 0) = true) ∧
    ((web.ctx 0).postExc = none) ∧
    ((web.core 0).boundary = some Boundary.endB) ∧
    ((web.core 0).mark = none) := by and_intros <;> decide +kernel

/-- Premises of FourSlotsIssueTogether: fourC, fourM, fourV, fourS. -/
theorem test_fourSlotsIssueTogether_applies :
    (issuesC 0 (CIns.add { d := 3, a := 1, b := 2, f := 0 }) 0 0 0 wi = true) ∧
    (boundaryOf (some (CIns.add { d := 3, a := 1, b := 2, f := 0 })) = none) ∧
    (issuesM 0 (MIns.nop 0) 0 18350080 0 wi = true) ∧
    (boundaryOf (CIns.ofWord 0) = none) ∧
    (issuesV 0 (VIns.nop 0) 0 0 0 wi = true) ∧
    (issuesS 0 (SIns.nop 0) 0 0 0 wi = true) := by and_intros <;> decide +kernel

/-- Premises of BundlesHeldOrStoppedAtIssue: heldStays, heldIssues, excAtIssue, undefOpcode, fetchFault, seqNoWord. -/
theorem test_bundlesHeldOrStoppedAtIssue_applies :
    ((whold.core 0).held = some bHeld) ∧
    (fetchable 0 bHeld whold = true) ∧
    ((rawOps bHeld).held 0 (atChecks 0 whold) = true) ∧
    ((wheldNop.core 0).held = some bNop) ∧
    (issuable 0 bNop (rawOps bNop) wheldNop = true) ∧
    ((rawOps bNop).bd = none) ∧
    (fetchable 0 bSrdEmpty wi = true) ∧
    ((rawOps bSrdEmpty).held 0 (atChecks 0 wi) = false) ∧
    ((rawOps bSrdEmpty).exc bSrdEmpty 0 (atChecks 0 wi) = some (Exc.illegal, 0)) ∧
    (fetchable 0 bBad wi = true) ∧
    ((rawOps bBad).held 0 (atChecks 0 wi) = false) ∧
    ((rawOps bBad).illegal bBad = false) ∧
    (CIns.ofWord bBad.c = none ∨ MIns.ofWord bBad.m = none ∨ VIns.ofWord bBad.v = none ∨ SIns.ofWord bBad.s = none) ∧
    (0 < 35328) ∧
    (canIssue 0 bNop wfar = true) ∧
    ((catchUp 0 wfar).2 = none) ∧
    (fetchOk ((catchUp 0 wfar).1.core 0) = false) ∧
    (0 < 64) ∧
    (seqReady wseq 0 = true) := by and_intros <;> decide +kernel

/-- Premises of MatrixInstructionsAndPassesAtIssue: matrix1, matrix2, matrix3, matrix4, matrix5, matrix6, passCounts,
passSpills. -/
theorem test_matrixInstructionsAndPassesAtIssue_applies :
    (issuesM 0 (MIns.mcfg { arr := 1, srs := 1, z := 0 }) 0 0 0 wi = true) ∧
    (issuesM 0 (MIns.mseed { arr := 1, s := 1, z := 0 }) 0 0 0 wi = true) ∧
    (issuesM 0 (MIns.mldw { arr := 1, wf := 0, af := 0, aw := 2, asc := 3, z := 0 }) 0 0 0 wi = true) ∧
    (issuesM 0 (MIns.mmul { arr := 1, t := 2, rows := 17, sw := 1, ax := 2, asc := 3 }) 0 0 0 wi = true) ∧
    (issuesM 0 (MIns.mpre { arr := 1, t := 2, n := 1, kind := 0, pf := 1, src := 2, z := 0 }) 0 0 0 wi = true) ∧
    (issuesM 0 (MIns.mclr { arr := 1, t := 2, n := 1, z := 0 }) 0 0 0 wi = true) ∧
    (issuesM 0 (MIns.mmul { arr := 0, t := 4, rows := 31, sw := 0, ax := 2, asc := 3 }) 0 0 0 wg = true) ∧
    (passGroups ((fetched 0 wg).ctx 0) 0 4 (ceilDiv (31 + 1) 16) = [(3, gr)]) ∧
    (issuesM 0 (MIns.mmul { arr := 0, t := 4, rows := 31, sw := 0, ax := 2, asc := 3 }) 0 0 0 wg2 = true) ∧
    (passGroups ((fetched 0 wg2).ctx 0) 0 4 (ceilDiv (31 + 1) 16) = [(3, gr2)]) := by and_intros <;> decide +kernel

/-- Premises of DrainsGroupsAndSparseFormsAtIssue: mdrain, mspill, mgrpOpen, mgrpClose, mlds, smul, mdrs, smrg, scmp,
strw. -/
theorem test_drainsGroupsAndSparseFormsAtIssue_applies :
    (issuesM 0 (MIns.mdrain { arr := 0, t := 5, fmt := 1, rnd := 1, w := 1, cl := 1, gc := 0, ad := 2, z := 0 }) 0 0
      0 wg = true) ∧
    (issuesM 0 (MIns.mspill { arr := 0, t := 4, n := 1, z := 0 }) 0 0 0 wg = true) ∧
    (issuesM 0 (MIns.mgrpOpen { arr := 0, g := 2, t := 8, n := 1, tab := 5, z := 0 }) 0 0 0 wh = true) ∧
    (issuesM 0 (MIns.mgrpClose { arr := 0, g := 3, t := 0, n := 0, tab := 0, z := 0 }) 0 0 0 wg = true) ∧
    (issuesM 0 (MIns.mlds { arr := 0, wf := 0, af := 0, aw := 2, am := 3, asc := 4, nm := 1, z := 0 }) 0 0 0 wh =
      true) ∧
    (issuesM 0 (MIns.smul { arr := 0, t := 2, ax := 2, ai := 1, sw := 0, cnt := 3, z := 0 }) 0 0 0 wh = true) ∧
    ((spdRead 1 0 (aOff ((fetched 0 wh).ctx 0) 1) 16 (swapIn 0 0 0 (fetched 0 wh))).1.bad = []) ∧
    (leNat (spdRead 1 0 (aOff ((fetched 0 wh).ctx 0) 1) 16 (swapIn 0 0 0 (fetched 0 wh))).1.bytes / 2 ^ 48 = 0) ∧
    (0 < leNat (spdRead 1 0 (aOff ((fetched 0 wh).ctx 0) 1) 16 (swapIn 0 0 0 (fetched 0 wh))).1.bytes / 2 ^ 32) ∧
    (rowBytes (if 0 = 1 then (((fetched 0 wh).core 0).arr 0).shadow else (((fetched 0 wh).core 0).arr 0).active) +
      rowScales (if 0 = 1 then (((fetched 0 wh).core 0).arr 0).shadow else (((fetched 0 wh).core 0).arr 0).active) ≤
      leNat (spdRead 1 0 (aOff ((fetched 0 wh).ctx 0) 1) 16 (swapIn 0 0 0 (fetched 0 wh))).1.bytes / 2 ^ 32 * 32) ∧
    (issuesM 0 (MIns.mdrs
      { arr := 0, t := 5, fmt := 1, rnd := 0, w := 0, cl := 1, gc := 0, nm := 0, ad := 2, am := 3, z := 0 }) 0 0 0 wh
      = true) ∧
    (issuesM 0 (MIns.smrg { arr := 0, t := 5, cl := 1, ad := 2, ar := 3, str := 4 }) 0 0 0 wh = true) ∧
    (issuesM 0 (MIns.scmp { arr := 0, wf := 0, nm := 0, src := 2, msk := 3, ad := 4, adm := 5, z := 0 }) 0 0 0 wh =
      true) ∧
    (issuesM 0 (MIns.strw { arr := 0, nm := 0, asrc := 2, asm := 3, ad := 4, adm := 5, z := 0 }) 0 0 0 wh = true) := by and_intros <;> decide +kernel

/-- Premises of VectorRegisterAndLoadResults: vbc, vext, vldc, vseed, vst, vldAll. -/
theorem test_vectorRegisterAndLoadResults_applies :
    (issuesV 0 (VIns.vbc { vd := 3, s := 3, sel := 1, z := 0 }) 0 0 0 wi = true) ∧
    (issuesV 0 (VIns.vext { d := 4, va := 3, lane := 20, pd := 2, z := 0 }) 0 0 0 wi = true) ∧
    (issuesV 0 (VIns.vldc { c := 1, a := 2, off := 0 }) 0 0 0 wi = true) ∧
    (issuesV 0 (VIns.vseed { s := 1, z := 0 }) 0 0 0 wi = true) ∧
    (issuesV 0 (VIns.vst { r := 3, a := 2, es := 2, k := 1, off := 1 }) 0 0 0 wi = true) ∧
    (issuesV 0 (VIns.vld { r := 3, a := 2, es := 1, k := 1, off := 1 }) 0 0 0 wi = true) ∧
    (∀ j ∈ List.filter (fun (j : ℕ) => BitVec.getLsbD (((fetched 0 wi).ctx 0).getK 1) j) (List.range 64), undefSeed
      (fetched 0 wi) 0 (((vmOff ((fetched 0 wi).ctx 0) { r := 3, a := 2, es := 1, k := 1, off := 1 }).toNat + j * 2 ^
      1) / 64) = none ∧ evalLine (isWeight ((fetched 0 wi).core 0) (64 * (((vmOff ((fetched 0 wi).ctx 0)
      { r := 3, a := 2, es := 1, k := 1, off := 1 }).toNat + j * 2 ^ 1) / 64))) ((fetched 0 wi).line 0 (((vmOff
      ((fetched 0 wi).ctx 0) { r := 3, a := 2, es := 1, k := 1, off := 1 }).toNat + j * 2 ^ 1) / 64)) (memBytes
      (fetched 0 wi).mem (spdKey 0 (64 * (((vmOff ((fetched 0 wi).ctx 0)
      { r := 3, a := 2, es := 1, k := 1, off := 1 }).toNat + j * 2 ^ 1) / 64))) 64) = LineOutcome.good) := by and_intros <;> decide +kernel

/-- Premises of ChainsAndVectorSlots: chainFlies, chainPlain, chainSkip, chainClosed, vqrd, vqwr. -/
theorem test_chainsAndVectorSlots_applies :
    (issuesV 0 (VIns.vch { k := 1, id := 35, vd := 1, va := 3, vb := 3, gc := 0, cp := 0 }) 0 0 0 wga = true) ∧
    (chainOf ((fetched 0 wga).ctx 0) 35 = some ((library 35).get!, true)) ∧
    ((true || decide (0 = 1)) = false ∨ ((fetched 0 wga).core 0).gate = Gate.apply) ∧
    (issuesV 0 (VIns.vch { k := 1, id := 1, vd := 1, va := 3, vb := 3, gc := 0, cp := 0 }) 0 0 0 wgc = true) ∧
    (chainOf ((fetched 0 wgc).ctx 0) 1 = some ((library 1).get!, false)) ∧
    ((false || decide (0 = 1)) = false ∨ ((fetched 0 wgc).core 0).gate = Gate.apply) ∧
    (issuesV 0 (VIns.vch { k := 1, id := 35, vd := 1, va := 3, vb := 3, gc := 0, cp := 0 }) 0 0 0 wgs = true) ∧
    (chainOf ((fetched 0 wgs).ctx 0) 35 = some ((library 35).get!, true)) ∧
    ((true || decide (0 = 1)) = true) ∧
    (((fetched 0 wgs).core 0).gate ≠ Gate.apply) ∧
    (issuesV 0 (VIns.vch { k := 1, id := 1, vd := 1, va := 3, vb := 3, gc := 0, cp := 1 }) 0 0 0 wgc = true) ∧
    ((false || decide (1 = 1)) = true) ∧
    (((fetched 0 wgc).core 0).gate ≠ Gate.apply) ∧
    (issuesV 0 (VIns.vqrd { vd := 2, q := 0, z := 0 }) 0 0 0 wq = true) ∧
    (issuesV 0 (VIns.vqwr { vs := 3, q := 1, k := 1, z := 0 }) 0 0 0 wq = true) := by and_intros <;> decide +kernel

/-- Premises of StreamSlotInstructionsAndEntries: sqcfg, sqcnt, shead, stail, spop, spush, slist, slstop, slstat,
popMoves, pushMoves. -/
theorem test_streamSlotInstructionsAndEntries_applies :
    (issuesS 0 (SIns.sqcfg { q := 8, a := 2, off := 0 }) 0 0 0 wq = true) ∧
    (issuesS 0 (SIns.sqcnt { d := 3, q := 0, z := 0 }) 0 0 0 wq = true) ∧
    (issuesS 0 (SIns.shead { ad := 4, q := 0, z := 0 }) 0 0 0 wq = true) ∧
    (issuesS 0 (SIns.stail { ad := 4, q := 1, z := 0 }) 0 0 0 wq = true) ∧
    (issuesS 0 (SIns.spop { q := 0, z := 0 }) 0 0 0 wq = true) ∧
    (issuesS 0 (SIns.spush { q := 1, z := 0 }) 0 0 0 wq = true) ∧
    (issuesS 0 (SIns.slist { l := 0, a := 1, z := 0 }) 0 0 0 wq = true) ∧
    (issuesS 0 (SIns.slstop { l := 1, z := 0 }) 0 0 0 wq = true) ∧
    (((fetched 0 wq).listAt 0 ((fetched 0 wq).core 0).cur 1).state ∈ [LState.running, LState.atMarker,
      LState.slotWait]) ∧
    (issuesS 0 (SIns.slstat { d := 3, l := 1, z := 0 }) 0 0 0 wq = true) ∧
    (((wq.ctx 0).slot 0).hasEntry = true) ∧
    (((wq.ctx 0).slot 0).owed = 0) ∧
    (((wq.ctx 0).slot 1).hasSpace = true) := by and_intros <;> decide +kernel

/-- Premises of FabricLoadsStoresAndSlotScalars: ldf, stf, srd, srdStatus, srdBad, swr. -/
theorem test_fabricLoadsStoresAndSlotScalars_applies :
    (issuesC 0 (CIns.ldf { q := 4, a := 1, s := 1, size := 3, z := 0 }) 0 0 0 wq = true) ∧
    (issuesC 0 (CIns.stf { q := 5, a := 1, s := 1, size := 3, z := 0 }) 0 0 0 wq = true) ∧
    (issuesC 0 (CIns.srd { q := 2, a := 0, s := 1, size := 0, z := 0 }) 0 0 0 wq = true) ∧
    ((spdRead 0 0 ((((fetched 0 wq).ctx 0).slot 2).at_ (((fetched 0 wq).ctx 0).slot 2).head) (((fetched 0 wq).ctx
      0).slot 2).bytes (fetched 0 wq)).1.bad = []) ∧
    ((if (((fetched 0 wq).ctx 0).slot 2).mode = 3 then BitVec.toNat ((spdRead 0 0 ((((fetched 0 wq).ctx 0).slot
      2).at_ (((fetched 0 wq).ctx 0).slot 2).head) (((fetched 0 wq).ctx 0).slot 2).bytes (fetched 0 wq)).1.bytes.getD
      8 0) else 0) = 0) ∧
    (issuesC 0 (CIns.srd { q := 6, a := 0, s := 1, size := 0, z := 0 }) 0 0 0 wq = true) ∧
    ((spdRead 0 0 ((((fetched 0 wq).ctx 0).slot 6).at_ (((fetched 0 wq).ctx 0).slot 6).head) (((fetched 0 wq).ctx
      0).slot 6).bytes (fetched 0 wq)).1.bad = []) ∧
    (statusExc (if (((fetched 0 wq).ctx 0).slot 6).mode = 3 then BitVec.toNat ((spdRead 0 0 ((((fetched 0 wq).ctx
      0).slot 6).at_ (((fetched 0 wq).ctx 0).slot 6).head) (((fetched 0 wq).ctx 0).slot 6).bytes (fetched 0
      wq)).1.bytes.getD 8 0) else 0) = some Exc.access) ∧
    (issuesC 0 (CIns.srd { q := 7, a := 0, s := 1, size := 0, z := 0 }) 0 0 0 wq = true) ∧
    ((spdRead 0 0 ((((fetched 0 wq).ctx 0).slot 7).at_ (((fetched 0 wq).ctx 0).slot 7).head) (((fetched 0 wq).ctx
      0).slot 7).bytes (fetched 0 wq)).1.bad ≠ []) ∧
    (issuesC 0 (CIns.swr { q := 3, a := 0, s := 1, size := 0, z := 0 }) 0 0 0 wq = true) := by and_intros <;> decide +kernel

/-- Premises of SequencerRegisterWordsAndFaults: seqWord1, seqWord2, seqWord3, seqWord4, seqWord5, seqWord6, seqWord7,
seqWord8, seqWord9, seqWord10, seqWord11, seqWord12, seqWord13, seqWord14, seqWord15, seqWord16, seqWord17, seqWord18,
seqWord19, seqWord20, seqWord21, seqWord22, seqWord23, seqWord24. -/
theorem test_sequencerRegisterWordsAndFaults_applies_1 :
    (0 < 64) ∧
    (seqReady ws 0 = true) ∧
    (0 = 0) ∧
    (1 < 2) ∧
    (1 < 8) ∧
    (3 < 16) ∧
    (1 < 16) ∧
    (2 < 16) ∧
    (3 < 8) ∧
    (0 < 6) ∧
    (2 < 8) ∧
    (0 < 5) := by and_intros <;> decide +kernel

/-- Premises of SequencerRegisterWordsAndFaults: seqFaultmclr. -/
theorem test_sequencerRegisterWordsAndFaults_applies_2 :
    (0 < 64) ∧
    (seqReady ws 0 = true) ∧
    (Instr.mclr { agent := Agent.seq 0, w1 := 0, w2 := 0, w3 := 0 } { arr := 0, t := 0, n := 0, z := 0 } ∈
      [Instr.kmov { agent := Agent.seq 0, w1 := 0, w2 := 0, w3 := 0 } { d := 3, a := 1, b := 2, f := 0 }, Instr.kget
      { agent := Agent.seq 0, w1 := 0, w2 := 0, w3 := 0 } { d := 3, a := 1, b := 2, f := 0 }, Instr.ktail
      { agent := Agent.seq 0, w1 := 0, w2 := 0, w3 := 0 } { d := 3, a := 1, b := 2, f := 0 }, Instr.kop
      { agent := Agent.seq 0, w1 := 0, w2 := 0, w3 := 0 } { d := 3, a := 1, b := 2, f := 0 }, Instr.srd
      { agent := Agent.seq 0, w1 := 0, w2 := 0, w3 := 0 } { q := 1, a := 1, s := 1, size := 3, z := 0 }, Instr.swr
      { agent := Agent.seq 0, w1 := 0, w2 := 0, w3 := 0 } { q := 1, a := 1, s := 1, size := 3, z := 0 }, Instr.wait
      { agent := Agent.seq 0, w1 := 0, w2 := 0, w3 := 0 }
      { s := 1, kind := 1, arg := 2, pd := 2, saveOk := 0, z := 0 }, Instr.rest
      { agent := Agent.seq 0, w1 := 0, w2 := 0, w3 := 0 }
      { s := 1, kind := 1, arg := 2, pd := 2, saveOk := 0, z := 0 }, Instr.yield
      { agent := Agent.seq 0, w1 := 0, w2 := 0, w3 := 0 } { d := 3, a := 1, b := 2, f := 0 }, Instr.endC
      { agent := Agent.seq 0, w1 := 0, w2 := 0, w3 := 0 } { d := 3, a := 1, b := 2, f := 0 }, Instr.arrive
      { agent := Agent.seq 0, w1 := 0, w2 := 0, w3 := 0 } { d := 3, a := 1, b := 2, f := 0 }, Instr.mcfg
      { agent := Agent.seq 0, w1 := 0, w2 := 0, w3 := 0 } { arr := 0, srs := 0, z := 0 }, Instr.mseed
      { agent := Agent.seq 0, w1 := 0, w2 := 0, w3 := 0 } { arr := 0, s := 0, z := 0 }, Instr.mldw
      { agent := Agent.seq 0, w1 := 0, w2 := 0, w3 := 0 } { arr := 0, wf := 0, af := 0, aw := 0, asc := 0, z := 0 },
      Instr.mmul { agent := Agent.seq 0, w1 := 0, w2 := 0, w3 := 0 }
      { arr := 1, t := 2, rows := 17, sw := 1, ax := 2, asc := 3 }, Instr.mpre
      { agent := Agent.seq 0, w1 := 0, w2 := 0, w3 := 0 }
      { arr := 0, t := 0, n := 0, kind := 0, pf := 0, src := 0, z := 0 }, Instr.mclr
      { agent := Agent.seq 0, w1 := 0, w2 := 0, w3 := 0 } { arr := 0, t := 0, n := 0, z := 0 }, Instr.mdrain
      { agent := Agent.seq 0, w1 := 0, w2 := 0, w3 := 0 }
      { arr := 0, t := 0, fmt := 0, rnd := 0, w := 0, cl := 0, gc := 0, ad := 0, z := 0 }, Instr.mspill
      { agent := Agent.seq 0, w1 := 0, w2 := 0, w3 := 0 } { arr := 0, t := 0, n := 0, z := 0 }, Instr.mgrpOpen
      { agent := Agent.seq 0, w1 := 0, w2 := 0, w3 := 0 } { arr := 0, g := 0, t := 0, n := 0, tab := 0, z := 0 },
      Instr.mgrpClose { agent := Agent.seq 0, w1 := 0, w2 := 0, w3 := 0 }
      { arr := 0, g := 0, t := 0, n := 0, tab := 0, z := 0 }, Instr.mlds
      { agent := Agent.seq 0, w1 := 0, w2 := 0, w3 := 0 }
      { arr := 0, wf := 0, af := 0, aw := 0, am := 0, asc := 0, nm := 0, z := 0 }, Instr.smul
      { agent := Agent.seq 0, w1 := 0, w2 := 0, w3 := 0 }
      { arr := 0, t := 0, ax := 0, ai := 0, sw := 0, cnt := 0, z := 0 }, Instr.mdrs
      { agent := Agent.seq 0, w1 := 0, w2 := 0, w3 := 0 }
      { arr := 0, t := 0, fmt := 0, rnd := 0, w := 0, cl := 0, gc := 0, nm := 0, ad := 0, am := 0, z := 0 },
      Instr.smrg { agent := Agent.seq 0, w1 := 0, w2 := 0, w3 := 0 }
      { arr := 0, t := 0, cl := 0, ad := 0, ar := 0, str := 0 }, Instr.scmp
      { agent := Agent.seq 0, w1 := 0, w2 := 0, w3 := 0 }
      { arr := 0, wf := 0, nm := 0, src := 0, msk := 0, ad := 0, adm := 0, z := 0 }, Instr.strw
      { agent := Agent.seq 0, w1 := 0, w2 := 0, w3 := 0 }
      { arr := 0, nm := 0, asrc := 0, asm := 0, ad := 0, adm := 0, z := 0 }]) := by and_intros <;> decide +kernel

/-- Premises of SequencerRegisterWordsAndFaults: seqFaultvseed. -/
theorem test_sequencerRegisterWordsAndFaults_applies_3 :
    (0 < 64) ∧
    (seqReady ws 0 = true) ∧
    (Instr.vseed { agent := Agent.seq 0, w1 := 0, w2 := 0, w3 := 0 } { s := 0, z := 0 } ∈ [Instr.vld
      { agent := Agent.seq 0, w1 := 0, w2 := 0, w3 := 0 } { r := 0, a := 0, es := 0, k := 0, off := 0 }, Instr.vst
      { agent := Agent.seq 0, w1 := 0, w2 := 0, w3 := 0 } { r := 0, a := 0, es := 0, k := 0, off := 0 }, Instr.vbc
      { agent := Agent.seq 0, w1 := 0, w2 := 0, w3 := 0 } { vd := 0, s := 0, sel := 0, z := 0 }, Instr.vext
      { agent := Agent.seq 0, w1 := 0, w2 := 0, w3 := 0 } { d := 0, va := 0, lane := 0, pd := 0, z := 0 }, Instr.vldc
      { agent := Agent.seq 0, w1 := 0, w2 := 0, w3 := 0 } { c := 0, a := 0, off := 0 }, Instr.vseed
      { agent := Agent.seq 0, w1 := 0, w2 := 0, w3 := 0 } { s := 0, z := 0 }, Instr.vch
      { agent := Agent.seq 0, w1 := 0, w2 := 0, w3 := 0 }
      { k := 1, id := 1, vd := 1, va := 3, vb := 3, gc := 0, cp := 0 }, Instr.vqrd
      { agent := Agent.seq 0, w1 := 0, w2 := 0, w3 := 0 } { vd := 0, q := 0, z := 0 }, Instr.vqwr
      { agent := Agent.seq 0, w1 := 0, w2 := 0, w3 := 0 } { vs := 0, q := 0, k := 0, z := 0 }, Instr.sqcfg
      { agent := Agent.seq 0, w1 := 0, w2 := 0, w3 := 0 } { q := 0, a := 0, off := 0 }, Instr.sqcnt
      { agent := Agent.seq 0, w1 := 0, w2 := 0, w3 := 0 } { d := 0, q := 0, z := 0 }, Instr.shead
      { agent := Agent.seq 0, w1 := 0, w2 := 0, w3 := 0 } { ad := 0, q := 0, z := 0 }, Instr.stail
      { agent := Agent.seq 0, w1 := 0, w2 := 0, w3 := 0 } { ad := 0, q := 0, z := 0 }, Instr.spop
      { agent := Agent.seq 0, w1 := 0, w2 := 0, w3 := 0 } { q := 0, z := 0 }, Instr.spush
      { agent := Agent.seq 0, w1 := 0, w2 := 0, w3 := 0 } { q := 0, z := 0 }, Instr.slist
      { agent := Agent.seq 0, w1 := 0, w2 := 0, w3 := 0 } { l := 0, a := 1, z := 0 }, Instr.slstop
      { agent := Agent.seq 0, w1 := 0, w2 := 0, w3 := 0 } { l := 0, z := 0 }, Instr.slstat
      { agent := Agent.seq 0, w1 := 0, w2 := 0, w3 := 0 } { d := 0, l := 0, z := 0 }]) := by and_intros <;> decide +kernel

/-- Premises of SequencerRegisterWordsAndFaults: seqFaultaddF, seqFaultamovD, seqFaultcmpD. -/
theorem test_sequencerRegisterWordsAndFaults_applies_4 :
    (0 < 64) ∧
    (seqReady ws 0 = true) ∧
    (1 ≠ 0) ∧
    (Instr.add { agent := Agent.seq 0, w1 := 0, w2 := 0, w3 := 0 } { d := 3, a := 1, b := 2, f := 1 } ∈ [Instr.add
      { agent := Agent.seq 0, w1 := 0, w2 := 0, w3 := 0 } { d := 3, a := 1, b := 2, f := 1 }, Instr.sub
      { agent := Agent.seq 0, w1 := 0, w2 := 0, w3 := 0 } { d := 3, a := 1, b := 2, f := 1 }, Instr.andS
      { agent := Agent.seq 0, w1 := 0, w2 := 0, w3 := 0 } { d := 3, a := 1, b := 2, f := 1 }, Instr.orS
      { agent := Agent.seq 0, w1 := 0, w2 := 0, w3 := 0 } { d := 3, a := 1, b := 2, f := 1 }, Instr.xorS
      { agent := Agent.seq 0, w1 := 0, w2 := 0, w3 := 0 } { d := 3, a := 1, b := 2, f := 1 }, Instr.shl
      { agent := Agent.seq 0, w1 := 0, w2 := 0, w3 := 0 } { d := 3, a := 1, b := 2, f := 1 }, Instr.shr
      { agent := Agent.seq 0, w1 := 0, w2 := 0, w3 := 0 } { d := 3, a := 1, b := 2, f := 1 }, Instr.sra
      { agent := Agent.seq 0, w1 := 0, w2 := 0, w3 := 0 } { d := 3, a := 1, b := 2, f := 1 }, Instr.mul
      { agent := Agent.seq 0, w1 := 0, w2 := 0, w3 := 0 } { d := 3, a := 1, b := 2, f := 1 }, Instr.mulh
      { agent := Agent.seq 0, w1 := 0, w2 := 0, w3 := 0 } { d := 3, a := 1, b := 2, f := 1 }, Instr.amov
      { agent := Agent.seq 0, w1 := 0, w2 := 0, w3 := 0 } { d := 3, a := 1, b := 2, f := 1 }, Instr.aget
      { agent := Agent.seq 0, w1 := 0, w2 := 0, w3 := 0 } { d := 3, a := 1, b := 2, f := 1 }, Instr.aadd
      { agent := Agent.seq 0, w1 := 0, w2 := 0, w3 := 0 } { d := 3, a := 1, b := 2, f := 1 }, Instr.aform
      { agent := Agent.seq 0, w1 := 0, w2 := 0, w3 := 0 } { d := 3, a := 1, b := 2, f := 1 }]) ∧
    (16 ≤ 16) ∧
    (Instr.amov { agent := Agent.seq 0, w1 := 0, w2 := 0, w3 := 0 } { d := 16, a := 1, b := 2, f := 0 } ∈ [Instr.amov
      { agent := Agent.seq 0, w1 := 0, w2 := 0, w3 := 0 } { d := 16, a := 1, b := 2, f := 0 }, Instr.aadd
      { agent := Agent.seq 0, w1 := 0, w2 := 0, w3 := 0 } { d := 16, a := 1, b := 2, f := 0 }, Instr.aform
      { agent := Agent.seq 0, w1 := 0, w2 := 0, w3 := 0 } { d := 16, a := 1, b := 2, f := 0 }]) ∧
    (8 ≤ 8) ∧
    (Instr.cmp { agent := Agent.seq 0, w1 := 0, w2 := 0, w3 := 0 } { d := 8, a := 1, b := 2, f := 0 } ∈ [Instr.cmp
      { agent := Agent.seq 0, w1 := 0, w2 := 0, w3 := 0 } { d := 8, a := 1, b := 2, f := 0 }, Instr.pop
      { agent := Agent.seq 0, w1 := 0, w2 := 0, w3 := 0 } { d := 8, a := 1, b := 2, f := 0 }]) := by and_intros <;> decide +kernel

/-- Premises of SequencerMemoryAndBranches: seqLd, seqBrTaken, seqBrNot, seqJmp, seqJr, seqLoop, seqLoopi, seqMfc0,
seqMfc10, seqMtc, seqSig, seqNop. -/
theorem test_sequencerMemoryAndBranches_applies :
    (0 < 64) ∧
    (seqReady wsm0 0 = true) ∧
    (0 ≤ dispOff ((wsm0.seq 0).regs.getA 1) 1 (2 ^ 3)) ∧
    (dispOff ((wsm0.seq 0).regs.getA 1) 1 (2 ^ 3) % ↑(2 ^ 3) = 0) ∧
    (dispOff ((wsm0.seq 0).regs.getA 1) 1 (2 ^ 3) + ↑(2 ^ 3) ≤ 262144) ∧
    (seqReady ws 0 = true) ∧
    (seqLastTwo (ws.seq 0) = false) ∧
    ((ws.seq 0).regs.getP 1 = decide (1 = 1)) ∧
    ((ws.seq 0).regs.getP 1 ≠ decide (0 = 1)) ∧
    (0 = 0) ∧
    ((ws.seq 0).loops = []) ∧
    (BitVec.toNat ((ws.seq 0).regs.getS 1) % 2 ^ 32 ≠ 0) ∧
    (0 < 11) ∧
    (10 < 11) ∧
    (10 = 10) ∧
    (63 < 64) := by and_intros <;> decide +kernel

/-- Premises of SequencerFabricAndWaitWords: seqLdf, seqStf, seqLdfRefused, seqSrd, seqRest, seqPrest, seqStfRefused,
held, prestEnds, prestEndsRelease, prestEndsTicks, prestStays, prestNotYet, fwaitEnds, fwaitStays, barrierEnds. -/
theorem test_sequencerFabricAndWaitWords_applies_1 :
    (0 < 64) ∧
    (seqReady ws 0 = true) ∧
    (0 = 0) ∧
    (chk12 ws 0 true false (BitVec.toNat ((ws.seq 0).regs.getA 2)) (2 ^ 3) = 0) ∧
    (chk12 ws 0 true true (BitVec.toNat ((ws.seq 0).regs.getA 2)) (2 ^ 3) = 0) ∧
    (windowOffset 0 (BitVec.toNat ((ws.seq 0).regs.getA 2)) (2 ^ 3) = none) ∧
    (chk12 ws 0 true false (BitVec.toNat ((ws.seq 0).regs.getA 3)) (2 ^ 3) ≠ 0) ∧
    (Instr.srd { agent := Agent.seq 0, w1 := 0, w2 := 0, w3 := 0 } { q := 3, a := 2, s := 1, size := 3, z := 0 } ∈
      [Instr.srd { agent := Agent.seq 0, w1 := 0, w2 := 0, w3 := 0 } { q := 3, a := 2, s := 1, size := 3, z := 0 },
      Instr.swr { agent := Agent.seq 0, w1 := 0, w2 := 0, w3 := 0 } { q := 3, a := 2, s := 1, size := 3, z := 0 }]) ∧
    (eventOk 2 1 2 = true) ∧
    (chk12 ws 0 true true (BitVec.toNat ((ws.seq 0).regs.getA 3)) (2 ^ 3) ≠ 0) ∧
    (panelRuns (wsHeld.panel 0) = true) ∧
    (hangHolds wsHeld 0 = true) ∧
    (panelRuns (wspEnds.panel 0) = true) ∧
    (hangHolds wspEnds 0 = false) ∧
    ((wspEnds.seq 0).state = SeqState.prest) ∧
    ((wspEnds.seq 0).prest = some prest0) ∧
    (prest0.since.isSome = true) ∧
    (prest0.resting = false) ∧
    (prestEvent wspEnds 0 prest0 = true) ∧
    (panelRuns (wspEnds6.panel 0) = true) ∧
    (hangHolds wspEnds6 0 = false) ∧
    ((wspEnds6.seq 0).state = SeqState.prest) ∧
    ((wspEnds6.seq 0).prest = some prest6) ∧
    (prest6.since.isSome = true) ∧
    (prest6.resting = false) ∧
    (prestEvent wspEnds6 0 prest6 = true) ∧
    (panelRuns (wspEndsT.panel 0) = true) ∧
    (hangHolds wspEndsT 0 = false) ∧
    ((wspEndsT.seq 0).state = SeqState.prest) ∧
    ((wspEndsT.seq 0).prest = some prestT) ∧
    (prestT.since.isSome = true) ∧
    (prestT.resting = false) ∧
    (prestEvent wspEndsT 0 prestT = true) ∧
    (panelRuns (wspStays.panel 0) = true) ∧
    (hangHolds wspStays 0 = false) ∧
    ((wspStays.seq 0).state = SeqState.prest) ∧
    ((wspStays.seq 0).prest = some prest0) ∧
    (prest0.since = none ∨ prestEvent wspStays 0 prest0 = false) ∧
    (panelRuns (wspNot.panel 0) = true) ∧
    (hangHolds wspNot 0 = false) ∧
    ((wspNot.seq 0).state = SeqState.prest) ∧
    ((wspNot.seq 0).prest = some prestN) ∧
    (prestN.since = none ∨ prestEvent wspNot 0 prestN = false) ∧
    (panelRuns (wsf.panel 0) = true) ∧
    (hangHolds wsf 0 = false) ∧
    ((wsf.seq 0).state = SeqState.waiting) ∧
    ((wsf.seq 0).wait = some (SeqWait.flag 2)) ∧
    (BitVec.getLsbD (wsf.seq 0).flags 2 = true) ∧
    (panelRuns (wsf0.panel 0) = true) ∧
    (hangHolds wsf0 0 = false) ∧
    ((wsf0.seq 0).state = SeqState.waiting) ∧
    ((wsf0.seq 0).wait = some (SeqWait.flag 3)) ∧
    (BitVec.getLsbD (wsf0.seq 0).flags 3 = false) ∧
    (panelRuns (wsb.panel 0) = true) ∧
    (hangHolds wsb 0 = false) ∧
    ((wsb.seq 0).state = SeqState.waiting) ∧
    ((wsb.seq 0).wait = some (SeqWait.barrier 2 9 5)) ∧
    (9 ≤ Tab.get 0 (wsb.seq 0).bar 2) := by and_intros <;> decide +kernel

/-- Premises of SequencerFabricAndWaitWords: seqLdfEnds, seqStfEnds, seqRetries, seqRetryWaits, seqSent, cwaitEnds,
cwaitStays. -/
theorem test_sequencerFabricAndWaitWords_applies_2 :
    (0 < 64) ∧
    (panelRuns (wsr.panel 0) = true) ∧
    (hangHolds wsr 0 = false) ∧
    ((wsr.seq 0).state = SeqState.waiting) ∧
    ((wsr.seq 0).wait = some (SeqWait.fabric sreqR)) ∧
    (sreqR.phase = ReqPhase.replied) ∧
    (sreqR.wr = none) ∧
    (sreqR.status = 0) ∧
    (panelRuns (wsr5.panel 0) = true) ∧
    (hangHolds wsr5 0 = false) ∧
    ((wsr5.seq 0).state = SeqState.waiting) ∧
    ((wsr5.seq 0).wait = some (SeqWait.fabric ({ sreqR with wr := some [1], status := 15 }))) ∧
    (({ sreqR with wr := some [1], status := 15 } : SeqReq).phase = ReqPhase.replied) ∧
    (({ sreqR with wr := some [1], status := 15 } : SeqReq).wr = some [1]) ∧
    (panelRuns (wsrT40.panel 0) = true) ∧
    (hangHolds wsrT40 0 = false) ∧
    ((wsrT40.seq 0).state = SeqState.waiting) ∧
    ((wsrT40.seq 0).wait = some (SeqWait.fabric (sreqT 40))) ∧
    ((sreqT 40).phase = ReqPhase.retry 40) ∧
    (40 ≤ (wsrT40.panel 0).cyc) ∧
    (panelRuns (wsrT41.panel 0) = true) ∧
    (hangHolds wsrT41 0 = false) ∧
    ((wsrT41.seq 0).state = SeqState.waiting) ∧
    ((wsrT41.seq 0).wait = some (SeqWait.fabric (sreqT 41))) ∧
    ((sreqT 41).phase = ReqPhase.retry 41) ∧
    ((wsrT41.panel 0).cyc < 41) ∧
    (panelRuns (wsrS.panel 0) = true) ∧
    (hangHolds wsrS 0 = false) ∧
    ((wsrS.seq 0).state = SeqState.waiting) ∧
    ((wsrS.seq 0).wait = some (SeqWait.fabric sreqS)) ∧
    (sreqS.phase = ReqPhase.sent) ∧
    (panelRuns (wcw.panel 0) = true) ∧
    (hangHolds wcw 0 = false) ∧
    ((wcw.seq 0).state = SeqState.waiting) ∧
    ((wcw.seq 0).wait = some (SeqWait.cwait 3 65536 2)) ∧
    (coreSet 0 65536 = some [0, 1]) ∧
    (∀ n ∈ List.filter (fun (n : ℕ) => !isDead wcw n) [0, 1], (wcw.ctxAt n 3).state = CtxState.empty ∨ (wcw.ctxAt n
      3).state = CtxState.faulted) ∧
    (panelRuns (wcw0.panel 0) = true) ∧
    (hangHolds wcw0 0 = false) ∧
    ((wcw0.seq 0).state = SeqState.waiting) ∧
    ((wcw0.seq 0).wait = some (SeqWait.cwait 0 0 2)) ∧
    (coreSet 0 0 = some [0]) ∧
    (∃ n ∈ List.filter (fun (n : ℕ) => !isDead wcw0 n) [0], (wcw0.ctxAt n 0).state ≠ CtxState.empty ∧ (wcw0.ctxAt n
      0).state ≠ CtxState.faulted) := by and_intros <;> decide +kernel

/-- Premises of SequencerFabricAndWaitWords: cwaitFault. -/
theorem test_sequencerFabricAndWaitWords_applies_3 :
    (0 < 64) ∧
    (panelRuns (wcwF.panel 0) = true) ∧
    (hangHolds wcwF 0 = false) ∧
    ((wcwF.seq 0).state = SeqState.waiting) ∧
    ((wcwF.seq 0).wait = some (SeqWait.cwait 0 0 2)) ∧
    (coreSet 0 0 = some [0]) ∧
    (∀ n ∈ List.filter (fun (n : ℕ) => !isDead wcwF n) [0], (wcwF.ctxAt n 0).state = CtxState.empty ∨ (wcwF.ctxAt n
      0).state = CtxState.faulted) := by and_intros <;> decide +kernel

/-- Premises of SequencerOnlyWordsAndWatchdog: launch, launchTakes, launchRefused, cswitch, cswitchTwo, cstop, xwakeW,
fset, barrierW, cwaitW, stepEndW, prestW, stepBeginW, wdogW, wdogKeeps, watchdog, flagSample. -/
theorem test_sequencerOnlyWordsAndWatchdog_applies :
    (0 < 64) ∧
    (seqReady ws 0 = true) ∧
    (coreSet 0 ((ws.seq 0).regs.getS 0) = some [0]) ∧
    (2 < 8) ∧
    (1 < 4) ∧
    (coreSet 0 ((ws.seq 0).regs.getS 5) = some [0, 1]) ∧
    (∀ n ∈ [0, 1], isDead ws n = false ∧ (ws.ctxAt n 1).resident = false ∧ regionOk (ws.core n) (selOf (ws.core n)
      1).region = true) ∧
    (0 < 4) ∧
    (∃ n ∈ [0, 1], isDead ws n = true ∨ (ws.ctxAt n 0).resident = true) ∧
    (0 = 0) ∧
    (seqReady wsR 0 = true) ∧
    (coreSet 0 ((wsR.seq 0).regs.getS 5) = some [0, 1]) ∧
    (63 < 64) ∧
    (15 < 16) ∧
    (3 < 4) ∧
    (eventOk 2 1 2 = true) ∧
    ((ws.seq 0).stepOpen = false) ∧
    (partOf ws 0 = some 0) ∧
    (panelRuns (wdq.panel 0) = true) ∧
    ((wdq.seq 0).wdRun = true) ∧
    ((wdq.seq 0).busy = true) ∧
    (∀ n ∈ coresHeld wdq 0, (wdq.core n).halted = none) ∧
    (inHold wdq 0 = false) ∧
    ((wdq.seq 0).wdFrom + (wdq.seq 0).wdLeft ≤ wdq.now) ∧
    (wdq.rst.running = []) ∧
    (partOf wse 0 = some 0) ∧
    ((wse.seq 0).wait = some (SeqWait.stepEnd 2)) ∧
    ((wse.job 0).stepOpen = true) ∧
    (Tab.get false (wse.job 0).ended 0 = false) := by and_intros <;> decide +kernel

/-- Premises of ResultsRetireInTheirCycle: retireS, retire0, retireA, retireP, retireK, retireLate, retireTwo. -/
theorem test_resultsRetireInTheirCycle_applies :
    (0 < 35328) ∧
    (9 ≤ (wretS.core 0).icyc) ∧
    ((fun (w : RegW) => (wretS.core 0).flight = [{ due := 9, slot := 0, pc := 3, w := w }]) (RegW.s 5 77)) ∧
    (5 ≠ 0) ∧
    (9 ≤ (wret0.core 0).icyc) ∧
    ((fun (w : RegW) => (wret0.core 0).flight = [{ due := 9, slot := 0, pc := 3, w := w }]) (RegW.s 0 77)) ∧
    (9 ≤ (wretA.core 0).icyc) ∧
    ((fun (w : RegW) => (wretA.core 0).flight = [{ due := 9, slot := 0, pc := 3, w := w }]) (RegW.a 5 77)) ∧
    (9 ≤ (wretP.core 0).icyc) ∧
    ((fun (w : RegW) => (wretP.core 0).flight = [{ due := 9, slot := 0, pc := 3, w := w }]) (RegW.p 5 true)) ∧
    (9 ≤ (wretK.core 0).icyc) ∧
    ((fun (w : RegW) => (wretK.core 0).flight = [{ due := 9, slot := 0, pc := 3, w := w }]) (RegW.k 5 77)) ∧
    (9 ≤ (wretLate.core 0).icyc) ∧
    ((wretLate.core 0).flight = [{ due := 10, slot := 0, pc := 3, w := RegW.s 5 77 }]) ∧
    ((wretLate.core 0).icyc < 10) ∧
    (9 ≤ (wretTwo.core 0).icyc) ∧
    ((wretTwo.core 0).flight = [{ due := 9, slot := 0, pc := 3, w := RegW.s 5 77 },
      { due := 9, slot := 2, pc := 4, w := RegW.s 5 78 }]) ∧
    (0 < 2) := by and_intros <;> decide +kernel

/-- Premises of WaitsRestsAndWakesOfACore: waitDone, waitTimedOut, waitGoesOn, restEnters, postedExc, coreWakes,
lateExc. -/
theorem test_waitsRestsAndWakesOfACore_applies :
    (0 < 35328) ∧
    ((wwOk.core 0).wait = some wrec) ∧
    (eventNow 0 wrec.kind wrec.arg wwOk = true) ∧
    (wrec.kind = 5 → (wwOk.ctx 0).postExc = none) ∧
    ((wwOut.core 0).wait = some wrec) ∧
    (eventNow 0 wrec.kind wrec.arg wwOut = false) ∧
    (wrec.ticks ≠ 0) ∧
    (wrec.since + wrec.ticks ≤ wwOut.now) ∧
    (wrec.kind = 5 → (wwOut.ctx 0).postExc = none) ∧
    ((wwStay.core 0).wait = some wrec2) ∧
    (eventNow 0 wrec2.kind wrec2.arg wwStay = false) ∧
    (wrec2.ticks = 0 ∨ wwStay.now < wrec2.since + wrec2.ticks) ∧
    ((wrEnter.core 0).rest = some rrec) ∧
    (rrec.entered = false) ∧
    (restRuns wrEnter 0 = true) ∧
    ((wrEnter.core 0).still = true) ∧
    (restEvent 0 rrec wrEnter = false) ∧
    ((wwPost.core 0).wait = some wrec5) ∧
    (wrec5.kind = 5) ∧
    ((wwPost.ctx 0).postExc = some Exc.access) ∧
    (eventNow 0 wrec5.kind wrec5.arg wwPost = true ∨ wrec5.ticks ≠ 0 ∧ wrec5.since + wrec5.ticks ≤ wwPost.now) ∧
    ((wrWake.core 0).rest = some rrec2) ∧
    (rrec2.entered = true) ∧
    (restRuns wrWake 0 = true) ∧
    (restEvent 0 rrec2 wrWake = true) ∧
    ((wrWake.core 0).power = CorePower.idle ∨ (wrWake.core 0).power = CorePower.doze ∧ (List.filter (fun (t : ℕ) =>
      decide (wrWake.now < t)) (wrWake.panel (panelOf 0)).leaving).length < 184 ∧ (wrWake.panel (panelOf
      0)).coreWaits = []) ∧
    ((wrWake.core 0).haltReq = false) ∧
    ((wLate.core 0).active = true) ∧
    ((wLate.core 0).boundary = none) ∧
    ((catchUp 0 wLate).2 = some { exc := Exc.access, slot := 0, pc := 3 }) ∧
    ({ due := 9, slot := 0, pc := 3, w := RegW.exc Exc.access } ∈ (wLate.core 0).flight) ∧
    (9 ≤ (wLate.core 0).icyc) ∧
    (RegW.exc Exc.access = RegW.exc Exc.access) := by and_intros <;> decide +kernel

/-- Premises of ArraysAndScratchpadWorkBehindIssue: shadowPart, shadowNone, accRow, accStands, accNone, drainStart,
drainNone, drainDone, emitNone, genAdvance, genStands, writeBack, zeroized. -/
theorem test_arraysAndScratchpadWorkBehindIssue_applies :
    (0 < 35328) ∧
    (0 < 2) ∧
    (((wload.core 0).arr 0).load = some ld0) ∧
    (ld0.t + 1 + ld0.next < (wload.core 0).icyc) ∧
    (Option.all (fun (L : Load) => decide ((wrow.core 0).icyc ≤ L.t + 1 + L.next)) ((wrow.core 0).arr 0).load = true) ∧
    (((wrow.core 0).arr 0).inp = none) ∧
    (((wrow.core 0).arr 0).rows = [row0, row5]) ∧
    (∀ r ∈ [row5], row0.due < r.due) ∧
    (row0.due < (wrow.core 0).icyc ∨ streamStands (wrow.core 0) = true) ∧
    (((wrowS.core 0).arr 0).inp = none) ∧
    (((wrowS.core 0).arr 0).rows = row0 :: noRows) ∧
    (∀ r ∈ noRows, row0.due < r.due) ∧
    (row0.due < (wrowS.core 0).icyc ∨ streamStands (wrowS.core 0) = true) ∧
    (((wload.core 0).arr 0).inp = none) ∧
    (((wload.core 0).arr 0).rows = []) ∧
    (((wdr.core 0).arr 0).queue = [dq0, dq0]) ∧
    (dq0.started = none) ∧
    (drainReady (wdr.panel (panelOf 0)).cyc ((wdr.core 0).arr 0) dq0 = true) ∧
    (Option.all (fun (o : DrainOp) => o.started.isSome || !drainReady (wload.panel (panelOf 0)).cyc ((wload.core
      0).arr 0) o) ((wload.core 0).arr 0).queue.head? = true) ∧
    (((wdr1.core 0).arr 0).queue = [dq1]) ∧
    (dq1.started = some 3) ∧
    (3 + drainTime dq1 ≤ (wdr1.panel (panelOf 0)).cyc) ∧
    (Option.all (fun (o : DrainOp) => Option.all (fun (p : ℕ) => decide ((wload.panel (panelOf 0)).cyc < p +
      drainTime o)) o.started) ((wload.core 0).arr 0).queue.head? = true) ∧
    (0 < 64) ∧
    ((wdr.panel 0).power = PPower.active) ∧
    ((wdr.panel 0).lost = false) ∧
    ((wdr.panel 0).shorted = false) ∧
    (1 < 64) ∧
    ((wdr.panel 1).power ≠ PPower.active ∨ (wdr.panel 1).lost = true ∨ (wdr.panel 1).shorted = true) ∧
    (List.find? (fun (v : WriteBack) => v.line == 1025) (wWb.core 0).wb = some wbk) ∧
    (wbk.data.length = 64) ∧
    (isDead wZero 0 = false) ∧
    ((wZero.core 0).residents = false) := by and_intros <;> decide +kernel

/-- Premises of OneFlippedBitOfACheckedLineIsCorrected: good, flipped. -/
theorem test_oneFlippedBitOfACheckedLineIsCorrected_applies :
    ((bytes64 [1, 2, 3]).length = 64) ∧
    (63 < 64) ∧
    (7 < 8) := by and_intros <;> decide +kernel

/-- Premises of ListsRunTheirDescriptors: descEnd, descCopy, descGather, descStitch, descStand, descSignal, descLink,
markerPass, signalFire, listStops. -/
theorem test_listsRunTheirDescriptors_applies :
    (0 < 35328) ∧
    (1 < 4) ∧
    (reached 0 1 wDEnd = some (dOf wDEnd, false, uOf wDEnd)) ∧
    (descCheck 0 (dOf wDEnd) (uOf wDEnd) = 0) ∧
    ((dOf wDEnd).kind = 0) ∧
    (reached 0 1 wDCopy = some (dOf wDCopy, false, uOf wDCopy)) ∧
    (descCheck 0 (dOf wDCopy) (uOf wDCopy) = 0) ∧
    ((dOf wDCopy).kind = 1) ∧
    (reached 0 1 wDGather = some (dOf wDGather, false, uOf wDGather)) ∧
    (descCheck 0 (dOf wDGather) (uOf wDGather) = 0) ∧
    ((dOf wDGather).kind = 2) ∧
    (reached 0 1 wDStitch = some (dOf wDStitch, false, uOf wDStitch)) ∧
    (descCheck 0 (dOf wDStitch) (uOf wDStitch) = 0) ∧
    ((dOf wDStitch).kind = 3) ∧
    (BitVec.getLsbD ((uOf wDStitch).seq (panelOf 0)).flags (dOf wDStitch).flag = true) ∧
    (reached 0 1 wDStand = some (dOf wDStand, false, uOf wDStand)) ∧
    (descCheck 0 (dOf wDStand) (uOf wDStand) = 0) ∧
    ((dOf wDStand).kind = 3) ∧
    (BitVec.getLsbD ((uOf wDStand).seq (panelOf 0)).flags (dOf wDStand).flag = false) ∧
    (reached 0 1 wDSignal = some (dOf wDSignal, false, uOf wDSignal)) ∧
    (descCheck 0 (dOf wDSignal) (uOf wDSignal) = 0) ∧
    ((dOf wDSignal).kind = 4) ∧
    (reached 0 1 wDLink = some (dOf wDLink, false, uOf wDLink)) ∧
    (descCheck 0 (dOf wDLink) (uOf wDLink) = 0) ∧
    ((dOf wDLink).kind = 5) ∧
    (engineRuns 0 wMark = true) ∧
    (((fun (t : State) => t.listAt 0 (wMark.core 0).cur 1) wMark).state = LState.atMarker) ∧
    (BitVec.getLsbD (wMark.seq (panelOf 0)).flags (Desc.ofBytes (spdRead 1 0 ((fun (t : State) => t.listAt 0
      (wMark.core 0).cur 1) wMark).next 32 wMark).1.bytes).flag = true) ∧
    (((fun (t : State) => t.listAt 0 (wSig.core 0).cur 1) wSig).acts = [actS]) ∧
    (actS.signal = some 5) ∧
    (0 < 4) ∧
    ((wStopg.listAt 0 0 1).state = LState.stopping) ∧
    (∀ e ∈ (wStopg.core 0).outst, ¬(e.2.ctx = 0 ∧ e.2.list = some 1 ∧ e.2.inv = (wStopg.ctxAt 0 0).inv)) ∧
    (∀ e ∈ (wStopg.listAt 0 0 1).xfs, e.2.owes = false) := by and_intros <;> decide +kernel

/-- Premises of StreamRequestsAndRepliesLand: readIssued, gatherIssued. -/
theorem test_streamRequestsAndRepliesLand_applies_1 :
    (0 < 35328) ∧
    (1 < 4) ∧
    (engineRuns 0 wXf = true) ∧
    ((wXf.listAt 0 (wXf.core 0).cur 1).state = LState.running) ∧
    (listOut (wXf.core 0) < 64) ∧
    (∀ e ∈ (wXf.listAt 0 (wXf.core 0).cur 1).xfs, e.2.ready ≤ e.2.outDone) ∧
    ((wXf.listAt 0 (wXf.core 0).cur 1).cur = some xfer0) ∧
    (xfer0.d.srcSlot = false) ∧
    (xfer0.d.dstSlot = false) ∧
    (xfer0.byte < xfer0.d.rowBytes) ∧
    (targetOf (xfer0.d.dstRow xfer0.row + xfer0.byte) 1 = some (Target.spd 0 131072)) ∧
    (xfer0.d.kind = 1 ∧ spdKey 1 33216 = xfer0.d.srcRow xfer0.row + xfer0.byte ∨ xfer0.d.kind = 2 ∧ (spdRead 1 0
      (xfer0.d.idxList + 4 * xfer0.row) 4 wXf).1.bad = [] ∧ leNat (spdRead 1 0 (xfer0.d.idxList + 4 * xfer0.row) 4
      wXf).1.bytes ≠ 4294967295 ∧ streamChk (spdRead 1 0 (xfer0.d.idxList + 4 * xfer0.row) 4 wXf).2 0 false
      (xfer0.d.src + leNat (spdRead 1 0 (xfer0.d.idxList + 4 * xfer0.row) 4 wXf).1.bytes * xfer0.d.srcStride)
      xfer0.d.rowBytes = 0 ∧ spdKey 1 33216 = xfer0.d.src + leNat (spdRead 1 0 (xfer0.d.idxList + 4 * xfer0.row) 4
      wXf).1.bytes * xfer0.d.srcStride + xfer0.byte) ∧
    (targetOf (spdKey 1 33216) 1 = some (Target.spd 1 33216)) ∧
    (1 ≠ 0) ∧
    (engineRuns 0 wGath2 = true) ∧
    ((wGath2.listAt 0 (wGath2.core 0).cur 1).state = LState.running) ∧
    (listOut (wGath2.core 0) < 64) ∧
    (∀ e ∈ (wGath2.listAt 0 (wGath2.core 0).cur 1).xfs, e.2.ready ≤ e.2.outDone) ∧
    ((wGath2.listAt 0 (wGath2.core 0).cur 1).cur = some xferG) ∧
    (xferG.d.srcSlot = false) ∧
    (xferG.d.dstSlot = false) ∧
    (xferG.byte < xferG.d.rowBytes) ∧
    (targetOf (xferG.d.dstRow xferG.row + xferG.byte) 1 = some (Target.spd 0 131072)) ∧
    (xferG.d.kind = 1 ∧ spdKey 1 32896 = xferG.d.srcRow xferG.row + xferG.byte ∨ xferG.d.kind = 2 ∧ (spdRead 1 0
      (xferG.d.idxList + 4 * xferG.row) 4 wGath2).1.bad = [] ∧ leNat (spdRead 1 0 (xferG.d.idxList + 4 * xferG.row) 4
      wGath2).1.bytes ≠ 4294967295 ∧ streamChk (spdRead 1 0 (xferG.d.idxList + 4 * xferG.row) 4 wGath2).2 0 false
      (xferG.d.src + leNat (spdRead 1 0 (xferG.d.idxList + 4 * xferG.row) 4 wGath2).1.bytes * xferG.d.srcStride)
      xferG.d.rowBytes = 0 ∧ spdKey 1 32896 = xferG.d.src + leNat (spdRead 1 0 (xferG.d.idxList + 4 * xferG.row) 4
      wGath2).1.bytes * xferG.d.srcStride + xferG.byte) ∧
    (targetOf (spdKey 1 32896) 1 = some (Target.spd 1 32896)) := by and_intros <;> decide +kernel

/-- Premises of StreamRequestsAndRepliesLand: gatherSkip, gatherOut. -/
theorem test_streamRequestsAndRepliesLand_applies_2 :
    (0 < 35328) ∧
    (1 < 4) ∧
    (engineRuns 0 wGathSkip = true) ∧
    ((wGathSkip.listAt 0 (wGathSkip.core 0).cur 1).state = LState.running) ∧
    (listOut (wGathSkip.core 0) < 64) ∧
    (∀ e ∈ (wGathSkip.listAt 0 (wGathSkip.core 0).cur 1).xfs, e.2.ready ≤ e.2.outDone) ∧
    ((wGathSkip.listAt 0 (wGathSkip.core 0).cur 1).cur = some xferG) ∧
    (xferG.d.srcSlot = false) ∧
    (xferG.d.dstSlot = false) ∧
    (xferG.byte < xferG.d.rowBytes) ∧
    (targetOf (xferG.d.dstRow xferG.row + xferG.byte) 1 = some (Target.spd 0 131072)) ∧
    (xferG.d.kind = 2) ∧
    ((spdRead 1 0 (xferG.d.idxList + 4 * xferG.row) 4 wGathSkip).1.bad ≠ [] ∧ false = true ∨ (spdRead 1 0
      (xferG.d.idxList + 4 * xferG.row) 4 wGathSkip).1.bad = [] ∧ leNat (spdRead 1 0 (xferG.d.idxList + 4 *
      xferG.row) 4 wGathSkip).1.bytes = 4294967295 ∧ false = false ∨ (spdRead 1 0 (xferG.d.idxList + 4 * xferG.row) 4
      wGathSkip).1.bad = [] ∧ leNat (spdRead 1 0 (xferG.d.idxList + 4 * xferG.row) 4 wGathSkip).1.bytes ≠ 4294967295
      ∧ streamChk (spdRead 1 0 (xferG.d.idxList + 4 * xferG.row) 4 wGathSkip).2 0 false (xferG.d.src + leNat (spdRead
      1 0 (xferG.d.idxList + 4 * xferG.row) 4 wGathSkip).1.bytes * xferG.d.srcStride) xferG.d.rowBytes ≠ 0 ∧ false =
      true) ∧
    (engineRuns 0 wGathOut = true) ∧
    ((wGathOut.listAt 0 (wGathOut.core 0).cur 1).state = LState.running) ∧
    (listOut (wGathOut.core 0) < 64) ∧
    (∀ e ∈ (wGathOut.listAt 0 (wGathOut.core 0).cur 1).xfs, e.2.ready ≤ e.2.outDone) ∧
    ((wGathOut.listAt 0 (wGathOut.core 0).cur 1).cur = some xferG) ∧
    ((spdRead 1 0 (xferG.d.idxList + 4 * xferG.row) 4 wGathOut).1.bad ≠ [] ∧ true = true ∨ (spdRead 1 0
      (xferG.d.idxList + 4 * xferG.row) 4 wGathOut).1.bad = [] ∧ leNat (spdRead 1 0 (xferG.d.idxList + 4 * xferG.row)
      4 wGathOut).1.bytes = 4294967295 ∧ true = false ∨ (spdRead 1 0 (xferG.d.idxList + 4 * xferG.row) 4
      wGathOut).1.bad = [] ∧ leNat (spdRead 1 0 (xferG.d.idxList + 4 * xferG.row) 4 wGathOut).1.bytes ≠ 4294967295 ∧
      streamChk (spdRead 1 0 (xferG.d.idxList + 4 * xferG.row) 4 wGathOut).2 0 false (xferG.d.src + leNat (spdRead 1
      0 (xferG.d.idxList + 4 * xferG.row) 4 wGathOut).1.bytes * xferG.d.srcStride) xferG.d.rowBytes ≠ 0 ∧ true =
      true) := by and_intros <;> decide +kernel

/-- Premises of StreamRequestsAndRepliesLand: gatherBad, transformWritten, beatSent, lands, stale, stfSent, retried.
-/
theorem test_streamRequestsAndRepliesLand_applies_3 :
    (0 < 35328) ∧
    (1 < 4) ∧
    (engineRuns 0 wGathBad = true) ∧
    ((wGathBad.listAt 0 (wGathBad.core 0).cur 1).state = LState.running) ∧
    (listOut (wGathBad.core 0) < 64) ∧
    (∀ e ∈ (wGathBad.listAt 0 (wGathBad.core 0).cur 1).xfs, e.2.ready ≤ e.2.outDone) ∧
    ((wGathBad.listAt 0 (wGathBad.core 0).cur 1).cur = some xferG) ∧
    (xferG.d.srcSlot = false) ∧
    (xferG.d.dstSlot = false) ∧
    (xferG.byte < xferG.d.rowBytes) ∧
    (targetOf (xferG.d.dstRow xferG.row + xferG.byte) 1 = some (Target.spd 0 131072)) ∧
    (xferG.d.kind = 2) ∧
    ((spdRead 1 0 (xferG.d.idxList + 4 * xferG.row) 4 wGathBad).1.bad ≠ [] ∧ true = true ∨ (spdRead 1 0
      (xferG.d.idxList + 4 * xferG.row) 4 wGathBad).1.bad = [] ∧ leNat (spdRead 1 0 (xferG.d.idxList + 4 * xferG.row)
      4 wGathBad).1.bytes = 4294967295 ∧ true = false ∨ (spdRead 1 0 (xferG.d.idxList + 4 * xferG.row) 4
      wGathBad).1.bad = [] ∧ leNat (spdRead 1 0 (xferG.d.idxList + 4 * xferG.row) 4 wGathBad).1.bytes ≠ 4294967295 ∧
      streamChk (spdRead 1 0 (xferG.d.idxList + 4 * xferG.row) 4 wGathBad).2 0 false (xferG.d.src + leNat (spdRead 1
      0 (xferG.d.idxList + 4 * xferG.row) 4 wGathBad).1.bytes * xferG.d.srcStride) xferG.d.rowBytes ≠ 0 ∧ true =
      true) ∧
    (engineWorks 0 wXout = true) ∧
    ((wXout.listAt 0 (wXout.core 0).cur 1).xfs = [(xferX.id, xferX)]) ∧
    (targetOf xferX.d.dst 1 = some (Target.spd 1 131072)) ∧
    (1 ≠ 0) ∧
    (xferX.red = none) ∧
    (xferX.d.dstSlot = false) ∧
    (xferX.outDone < xferX.ready) ∧
    (listOut (wXout.core 0) < 64) ∧
    (engineWorks 0 wRsend = true) ∧
    ((wRsend.listAt 0 (wRsend.core 0).cur 1).xfs = [(xferR.id, xferR)]) ∧
    ((wRsend.listAt 0 (wRsend.core 0).cur 1).cur = none) ∧
    (xferR.red = some 3) ∧
    (xferR.outDone + 128 = xferR.ready) ∧
    ((redAt wRsend 0 3 RedIn.own).length < 2) ∧
    (targetOf (xferR.d.dstRow (xferR.outDone / xferR.d.rowBytes) + xferR.outDone % xferR.d.rowBytes) 1 = some
      (Target.spd 1 131072)) ∧
    (List.find? (fun (e : ℕ × Req) => e.1 == 9) (wRq0.core 0).outst = some (9, req0)) ∧
    (req0.phase = ReqPhase.replied) ∧
    (staleReq wRq0 0 req0 = false) ∧
    (req0.status = 0) ∧
    (req0.list = some 1) ∧
    (req0.use = ReqUse.land 131072) ∧
    (List.find? (fun (e : ℕ × Req) => e.1 == 9) (wRqOld.core 0).outst = some (9, reqOld)) ∧
    (reqOld.phase = ReqPhase.replied) ∧
    (staleReq wRqOld 0 reqOld = true) ∧
    ((wStf.core 0).active = true) ∧
    ((wStf.panel (panelOf 0)).live = true) ∧
    (isDead wStf 0 = false) ∧
    (((wStf.ctx 0).slot 5).mode = 4) ∧
    (((wStf.ctx 0).slot 5).esz = 1) ∧
    (((wStf.ctx 0).slot 5).hasEntry = true) ∧
    (List.find? (fun (e : ℕ × Req) => e.1 == 9) (wRqTry.core 0).outst = some (9, reqTry)) ∧
    (reqTry.phase = ReqPhase.retry 40) ∧
    (staleReq wRqTry 0 reqTry = false) ∧
    (40 ≤ (wRqTry.panel (panelOf 0)).cyc) := by and_intros <;> decide +kernel

/-- Premises of StreamRequestsAndRepliesLand: replyTaken, replyOldEpoch, writeAck, postedFault. -/
theorem test_streamRequestsAndRepliesLand_applies_4 :
    (packetOf wPk0 4 = some pkt0) ∧
    (pkt0.reply = true) ∧
    (pkt0.pos = Pos.there) ∧
    (pkt0.src = Src.core 0) ∧
    (pkt0.op = POp.read) ∧
    (replyFor (dropPacket pkt0.pid wPk0) pkt0 0 = some reqSent) ∧
    (pkt0.status ≠ 13) ∧
    (staleReq (dropPacket pkt0.pid wPk0) 0 reqSent = false) ∧
    (packetOf wPkOld 4 = some pktOld) ∧
    (pktOld.reply = true) ∧
    (pktOld.pos = Pos.there) ∧
    (pktOld.src = Src.core 0) ∧
    (pktOld.op = POp.read) ∧
    (replyFor (dropPacket pktOld.pid wPkOld) pktOld 0 = none) ∧
    (packetOf wPkAck 4 = some pktAck) ∧
    (pktAck.reply = true) ∧
    (pktAck.pos = Pos.there) ∧
    (pktAck.src = Src.core 0) ∧
    (pktAck.op = POp.posted) ∧
    (pktAck.status = 0) ∧
    (replyFor (dropPacket pktAck.pid wPkAck) pktAck 0 = some reqPost) ∧
    (staleReq (dropPacket pktAck.pid wPkAck) 0 reqPost = false) ∧
    (reqPost.use = ReqUse.posted 5) ∧
    (packetOf wPkNak 4 = some pktNak) ∧
    (pktNak.reply = true) ∧
    (pktNak.pos = Pos.there) ∧
    (pktNak.src = Src.core 0) ∧
    (pktNak.op = POp.posted) ∧
    (pktNak.status ≠ 0) ∧
    (pktNak.status ≠ 13) ∧
    (replyFor (dropPacket pktNak.pid wPkNak) pktNak 0 = some reqPost) ∧
    (staleReq (dropPacket pktNak.pid wPkNak) 0 reqPost = false) ∧
    ((wPkNak.ctxAt 0 reqPost.ctx).postExc = none) := by and_intros <;> decide +kernel

/-- Premises of RequestsAndPacketsTravel: served, epochRefused, roRefused, shorted, hopHome1, hopHome2, hopHome3,
hopHome4, hopHome5. -/
theorem test_requestsAndPacketsTravel_applies_1 :
    (packetOf wTrW 4 = some pktW) ∧
    (pktW.reply = false) ∧
    (pktW.pos = Pos.there) ∧
    (targetOf pktW.dst pktW.size = some (Target.spd 1 32768)) ∧
    (beingCarried wTrW 1 = false) ∧
    (ownAccess pktW 1 = false) ∧
    (overtakes wTrW pktW = false) ∧
    ((wTrW.panel (panelOf 1)).shorted = false) ∧
    (spdStatus wTrW 1 32768 pktW.size (decide (pktW.op ≠ POp.read)) = 0) ∧
    (pktW.epoch = epochOf wTrW 1) ∧
    (pktW.op = POp.write) ∧
    (pktW.data.length = pktW.size) ∧
    ((wTrW.core 1).undef = []) ∧
    (packetOf wTrEp 4 = some pktEp) ∧
    (pktEp.reply = false) ∧
    (pktEp.pos = Pos.there) ∧
    (targetOf pktEp.dst pktEp.size = some (Target.spd 1 32768)) ∧
    (beingCarried wTrEp 1 = false) ∧
    (ownAccess pktEp 1 = false) ∧
    (overtakes wTrEp pktEp = false) ∧
    ((wTrEp.panel (panelOf 1)).shorted = false) ∧
    (spdStatus wTrEp 1 32768 pktEp.size (decide (pktEp.op ≠ POp.read)) = 0) ∧
    (pktEp.epoch ≠ epochOf wTrEp 1) ∧
    (packetOf wTrRo 4 = some pktRo) ∧
    (pktRo.reply = false) ∧
    (pktRo.pos = Pos.there) ∧
    (targetOf pktRo.dst pktRo.size = some (Target.spd 0 64)) ∧
    (beingCarried wTrRo 0 = false) ∧
    (ownAccess pktRo 0 = false) ∧
    (overtakes wTrRo pktRo = false) ∧
    ((wTrRo.panel (panelOf 0)).shorted = false) ∧
    (spdStatus wTrRo 0 64 pktRo.size (decide (pktRo.op ≠ POp.read)) ≠ 0) ∧
    (pktRo.epoch = epochOf wTrRo 0) ∧
    (packetOf wTrShort 4 = some pktW) ∧
    (targetOf pktW.dst 1 = some (Target.spd 1 32768)) ∧
    ((wTrShort.panel (panelOf 1)).shorted = true) ∧
    (packetOf (wAt (pktAt 0 0)) 4 = some (pktAt 0 0)) ∧
    ((pktAt 0 0).reply = false) ∧
    ((pktAt 0 0).pos = Pos.mesh 0) ∧
    ((pktAt 0 0).lost = false) ∧
    ((pktAt 0 0).route = Route.xy) ∧
    (stands (wAt (pktAt 0 0)) (panelOf 0) = false) ∧
    (targetOf (pktAt 0 0).dst 1 = some (Target.spd 0 32768)) ∧
    (0 = 0) ∧
    (winsOutput (wAt (pktAt 0 0)) (pktAt 0 0) 4 = true) ∧
    (packetOf (wAtR 0 0) 4 = some (pktAt 0 0)) ∧
    (stands (wAtR 0 0) (panelOf 0) = false) ∧
    (winsOutput (wAtR 0 0) (pktAt 0 0) 4 = false) ∧
    (∃ q ∈ (wAtR 0 0).packets, q.reply = true ∧ q.pos = (pktAt 0 0).pos ∧ headOf (wAtR 0 0) q = true ∧ (hopOf (wAtR 0
      0) q).out = some 4) ∧
    (packetOf (wAtRd 0 0) 4 = some (pktAt 0 0)) ∧
    (stands (wAtRd 0 0) (panelOf 0) = false) ∧
    (∃ i < 16, redOut (wAtRd 0 0) 0 i = some 4) ∧
    (headOf (wAt (pktAt 0 0)) (pktAt 0 0) = true) ∧
    (∀ q ∈ (wAt (pktAt 0 0)).packets, shareOut q.pos (pktAt 0 0).pos 4 = true → headOf (wAt (pktAt 0 0)) q = true →
      (hopOf (wAt (pktAt 0 0)) q).out = some 4 → q = pktAt 0 0) ∧
    (∀ i < 16, redOut (wAt (pktAt 0 0)) 0 i ≠ some 4) := by and_intros <;> decide +kernel

/-- Premises of RequestsAndPacketsTravel: hopEast1, hopEast2, hopEast3, hopEast4, hopEast5, hopWest1, hopWest2,
hopWest3, hopWest4, hopWest5. -/
theorem test_requestsAndPacketsTravel_applies_2 :
    (packetOf (wAt (pktAt 0 3)) 4 = some (pktAt 0 3)) ∧
    ((pktAt 0 3).reply = false) ∧
    ((pktAt 0 3).pos = Pos.mesh 0) ∧
    ((pktAt 0 3).lost = false) ∧
    ((pktAt 0 3).route = Route.xy) ∧
    (stands (wAt (pktAt 0 3)) (panelOf 0) = false) ∧
    (targetOf (pktAt 0 3).dst 1 = some (Target.spd 3 32768)) ∧
    (cxOf 0 < cxOf 3) ∧
    (stands (wAt (pktAt 0 3)) (panelOf (0 + 1)) = false) ∧
    (winsOutput (wAt (pktAt 0 3)) (pktAt 0 3) 1 = true) ∧
    (packetOf (wAtR 0 3) 4 = some (pktAt 0 3)) ∧
    (stands (wAtR 0 3) (panelOf 0) = false) ∧
    (stands (wAtR 0 3) (panelOf (0 + 1)) = false) ∧
    (winsOutput (wAtR 0 3) (pktAt 0 3) 1 = false) ∧
    (∃ q ∈ (wAtR 0 3).packets, q.reply = true ∧ q.pos = (pktAt 0 3).pos ∧ headOf (wAtR 0 3) q = true ∧ (hopOf (wAtR 0
      3) q).out = some 1) ∧
    (packetOf (wAtRd 0 3) 4 = some (pktAt 0 3)) ∧
    (stands (wAtRd 0 3) (panelOf 0) = false) ∧
    (stands (wAtRd 0 3) (panelOf (0 + 1)) = false) ∧
    (∃ i < 16, redOut (wAtRd 0 3) 0 i = some 1) ∧
    (headOf (wAt (pktAt 0 3)) (pktAt 0 3) = true) ∧
    (∀ q ∈ (wAt (pktAt 0 3)).packets, shareOut q.pos (pktAt 0 3).pos 1 = true → headOf (wAt (pktAt 0 3)) q = true →
      (hopOf (wAt (pktAt 0 3)) q).out = some 1 → q = pktAt 0 3) ∧
    (∀ i < 16, redOut (wAt (pktAt 0 3)) 0 i ≠ some 1) ∧
    (packetOf (wAt (pktAt 3 0)) 4 = some (pktAt 3 0)) ∧
    ((pktAt 3 0).reply = false) ∧
    ((pktAt 3 0).pos = Pos.mesh 3) ∧
    ((pktAt 3 0).lost = false) ∧
    ((pktAt 3 0).route = Route.xy) ∧
    (stands (wAt (pktAt 3 0)) (panelOf 3) = false) ∧
    (targetOf (pktAt 3 0).dst 1 = some (Target.spd 0 32768)) ∧
    (stands (wAt (pktAt 3 0)) (panelOf (3 - 1)) = false) ∧
    (winsOutput (wAt (pktAt 3 0)) (pktAt 3 0) 3 = true) ∧
    (packetOf (wAtR 3 0) 4 = some (pktAt 3 0)) ∧
    (stands (wAtR 3 0) (panelOf 3) = false) ∧
    (stands (wAtR 3 0) (panelOf (3 - 1)) = false) ∧
    (winsOutput (wAtR 3 0) (pktAt 3 0) 3 = false) ∧
    (∃ q ∈ (wAtR 3 0).packets, q.reply = true ∧ q.pos = (pktAt 3 0).pos ∧ headOf (wAtR 3 0) q = true ∧ (hopOf (wAtR 3
      0) q).out = some 3) ∧
    (packetOf (wAtRd 3 0) 4 = some (pktAt 3 0)) ∧
    (stands (wAtRd 3 0) (panelOf 3) = false) ∧
    (stands (wAtRd 3 0) (panelOf (3 - 1)) = false) ∧
    (∃ i < 16, redOut (wAtRd 3 0) 3 i = some 3) ∧
    (headOf (wAt (pktAt 3 0)) (pktAt 3 0) = true) ∧
    (∀ q ∈ (wAt (pktAt 3 0)).packets, shareOut q.pos (pktAt 3 0).pos 3 = true → headOf (wAt (pktAt 3 0)) q = true →
      (hopOf (wAt (pktAt 3 0)) q).out = some 3 → q = pktAt 3 0) ∧
    (∀ i < 16, redOut (wAt (pktAt 3 0)) 3 i ≠ some 3) := by and_intros <;> decide +kernel

/-- Premises of RequestsAndPacketsTravel: hopDown1, hopDown2, hopDown3, hopDown4, hopDown5, hopUp1, hopUp2, hopUp3,
hopUp4, hopUp5. -/
theorem test_requestsAndPacketsTravel_applies_3 :
    (packetOf (wAt (pktAt 0 184)) 4 = some (pktAt 0 184)) ∧
    ((pktAt 0 184).reply = false) ∧
    ((pktAt 0 184).pos = Pos.mesh 0) ∧
    ((pktAt 0 184).lost = false) ∧
    ((pktAt 0 184).route = Route.xy) ∧
    (stands (wAt (pktAt 0 184)) (panelOf 0) = false) ∧
    (targetOf (pktAt 0 184).dst 1 = some (Target.spd 184 32768)) ∧
    (cxOf 0 = cxOf 184) ∧
    (cyOf 0 < cyOf 184) ∧
    (stands (wAt (pktAt 0 184)) (panelOf (0 + 184)) = false) ∧
    (winsOutput (wAt (pktAt 0 184)) (pktAt 0 184) 2 = true) ∧
    (packetOf (wAtR 0 184) 4 = some (pktAt 0 184)) ∧
    (stands (wAtR 0 184) (panelOf 0) = false) ∧
    (stands (wAtR 0 184) (panelOf (0 + 184)) = false) ∧
    (winsOutput (wAtR 0 184) (pktAt 0 184) 2 = false) ∧
    (∃ q ∈ (wAtR 0 184).packets, q.reply = true ∧ q.pos = (pktAt 0 184).pos ∧ headOf (wAtR 0 184) q = true ∧ (hopOf
      (wAtR 0 184) q).out = some 2) ∧
    (packetOf (wAtRd 0 184) 4 = some (pktAt 0 184)) ∧
    (stands (wAtRd 0 184) (panelOf 0) = false) ∧
    (stands (wAtRd 0 184) (panelOf (0 + 184)) = false) ∧
    (∃ i < 16, redOut (wAtRd 0 184) 0 i = some 2) ∧
    (headOf (wAt (pktAt 0 184)) (pktAt 0 184) = true) ∧
    (∀ q ∈ (wAt (pktAt 0 184)).packets, shareOut q.pos (pktAt 0 184).pos 2 = true → headOf (wAt (pktAt 0 184)) q =
      true → (hopOf (wAt (pktAt 0 184)) q).out = some 2 → q = pktAt 0 184) ∧
    (∀ i < 16, redOut (wAt (pktAt 0 184)) 0 i ≠ some 2) ∧
    (packetOf (wAt (pktAt 184 0)) 4 = some (pktAt 184 0)) ∧
    ((pktAt 184 0).reply = false) ∧
    ((pktAt 184 0).pos = Pos.mesh 184) ∧
    ((pktAt 184 0).lost = false) ∧
    ((pktAt 184 0).route = Route.xy) ∧
    (stands (wAt (pktAt 184 0)) (panelOf 184) = false) ∧
    (targetOf (pktAt 184 0).dst 1 = some (Target.spd 0 32768)) ∧
    (cxOf 184 = cxOf 0) ∧
    (stands (wAt (pktAt 184 0)) (panelOf (184 - 184)) = false) ∧
    (winsOutput (wAt (pktAt 184 0)) (pktAt 184 0) 0 = true) ∧
    (packetOf (wAtR 184 0) 4 = some (pktAt 184 0)) ∧
    (stands (wAtR 184 0) (panelOf 184) = false) ∧
    (stands (wAtR 184 0) (panelOf (184 - 184)) = false) ∧
    (winsOutput (wAtR 184 0) (pktAt 184 0) 0 = false) ∧
    (∃ q ∈ (wAtR 184 0).packets, q.reply = true ∧ q.pos = (pktAt 184 0).pos ∧ headOf (wAtR 184 0) q = true ∧ (hopOf
      (wAtR 184 0) q).out = some 0) ∧
    (packetOf (wAtRd 184 0) 4 = some (pktAt 184 0)) ∧
    (stands (wAtRd 184 0) (panelOf 184) = false) ∧
    (stands (wAtRd 184 0) (panelOf (184 - 184)) = false) ∧
    (∃ i < 16, redOut (wAtRd 184 0) 184 i = some 0) ∧
    (headOf (wAt (pktAt 184 0)) (pktAt 184 0) = true) ∧
    (∀ q ∈ (wAt (pktAt 184 0)).packets, shareOut q.pos (pktAt 184 0).pos 0 = true → headOf (wAt (pktAt 184 0)) q =
      true → (hopOf (wAt (pktAt 184 0)) q).out = some 0 → q = pktAt 184 0) ∧
    (∀ i < 16, redOut (wAt (pktAt 184 0)) 184 i ≠ some 0) := by and_intros <;> decide +kernel

/-- Premises of RequestsAndPacketsTravel: hopHeld. -/
theorem test_requestsAndPacketsTravel_applies_4 :
    (packetOf wAtHeld 4 = some pktHeld) ∧
    (pktHeld.reply = false) ∧
    (pktHeld.pos = Pos.mesh 22) ∧
    (pktHeld.lost = false) ∧
    (pktHeld.route = Route.xy) ∧
    (stands wAtHeld (panelOf 22) = false) ∧
    (targetOf pktHeld.dst 1 = some (Target.spd 46 32768)) ∧
    (cxOf 22 < cxOf 46) ∧
    (noTransit wAtHeld (panelOf (22 + 1)) = true) ∧
    (panelOf 46 ≠ panelOf (22 + 1)) ∧
    (headOf wAtHeld pktHeld = true) ∧
    ((wAtHeld.panel (panelOf 22)).hub.stale = true) := by and_intros <;> decide +kernel

/-- Premises of ReductionBroadcastAndEpochs: combined, mismatch, forwarded, redYields, redAfterReply, redWaits,
castHeld. -/
theorem test_reductionBroadcastAndEpochs_applies_1 :
    (0 < 35328) ∧
    (3 < 16) ∧
    (List.find? (fun (p : RedPkt) => p.router == 0 && p.id == 3) wRedOk.reds = some (redP RedIn.own 0)) ∧
    (expected wRedOk 0 (redP RedIn.own 0) = [RedIn.own, RedIn.east]) ∧
    ((redAt wRedOk 0 3 RedIn.own).head? = some (redP RedIn.own 0)) ∧
    ((redAt wRedOk 0 3 RedIn.east).head? = some (redP RedIn.east 0)) ∧
    ((redP RedIn.own 0).goal = 0) ∧
    (stands wRedOk (panelOf 0) = false) ∧
    (carriedTarget wRedOk (redP RedIn.own 0).dst 128 = false) ∧
    (redWins wRedOk 0 3 4 = true) ∧
    (sameHead (redP RedIn.own 0) (redP RedIn.east 0) = true) ∧
    (List.find? (fun (p : RedPkt) => p.router == 0 && p.id == 3) wRedBad.reds = some (redP RedIn.own 0)) ∧
    (expected wRedBad 0 (redP RedIn.own 0) = [RedIn.own, RedIn.east]) ∧
    ((redAt wRedBad 0 3 RedIn.own).head? = some (redP RedIn.own 0)) ∧
    ((redAt wRedBad 0 3 RedIn.east).head? = some (redP RedIn.east 1)) ∧
    (stands wRedBad (panelOf 0) = false) ∧
    (carriedTarget wRedBad (redP RedIn.own 0).dst 128 = false) ∧
    (redWins wRedBad 0 3 4 = true) ∧
    (sameHead (redP RedIn.own 0) (redP RedIn.east 1) = false) ∧
    (1 < 35328) ∧
    (List.find? (fun (p : RedPkt) => p.router == 1 && p.id == 3) wRedOn.reds = some (redQ RedIn.own)) ∧
    (expected wRedOn 1 (redQ RedIn.own) = [RedIn.own, RedIn.west]) ∧
    ((redAt wRedOn 1 3 RedIn.own).head? = some (redQ RedIn.own)) ∧
    ((redAt wRedOn 1 3 RedIn.west).head? = some (redQ RedIn.west)) ∧
    ((redQ RedIn.own).goal < 35328) ∧
    (cxOf 1 < cxOf (redQ RedIn.own).goal) ∧
    (sameHead (redQ RedIn.own) (redQ RedIn.west) = true) ∧
    (stands wRedOn (panelOf 1) = false) ∧
    (stands wRedOn (panelOf (1 + 1)) = false) ∧
    ((redAt wRedOn (1 + 1) 3 RedIn.west).length < 2) ∧
    (redWins wRedOn 1 3 1 = true) ∧
    (redOut wRedTwo 0 3 = some 4) ∧
    (∃ i < 16, i ≠ 3 ∧ redOut wRedTwo 0 i = some 4 ∧ (i + 15 - Tab.get 0 wRedTwo.turns (turnKey (Pos.mesh 0) 4
      Serve.red)) % 16 < (3 + 15 - Tab.get 0 wRedTwo.turns (turnKey (Pos.mesh 0) 4 Serve.red)) % 16) ∧
    (redOut wRedRep 0 3 = some 4) ∧
    (∃ k ∈ wRedRep.packets, k.reply = true ∧ k.pos = Pos.mesh 0 ∧ headOf wRedRep k = true ∧ (hopOf wRedRep k).out =
      some 4) ∧
    (List.find? (fun (p : RedPkt) => p.router == 0 && p.id == 3) wRedWait.reds = some (redP RedIn.own 0)) ∧
    (RedIn.east ∈ expected wRedWait 0 (redP RedIn.own 0)) ∧
    (redAt wRedWait 0 3 RedIn.east = []) ∧
    (List.find? (fun (b : Bcast) => b.pid == 4) wBcHeld.bcasts = some bc0) ∧
    (loading wBcHeld bc0.part = some cmdImg) ∧
    (castOf wBcHeld bc0.part = some bc0) ∧
    (bc0.pid = 4) ∧
    (0 ∈ castLeft wBcHeld bc0) ∧
    (bc0.kind = 0) ∧
    ((wBcHeld.core 0).undef = []) ∧
    (castHeld wBcHeld bc0 0 = true) := by and_intros <;> decide +kernel

/-- Premises of ReductionBroadcastAndEpochs: broadcast, castReported, notice. -/
theorem test_reductionBroadcastAndEpochs_applies_2 :
    (0 < 35328) ∧
    (3 < 16) ∧
    (List.find? (fun (b : Bcast) => b.pid == 4) wBc.bcasts = some bc0) ∧
    (loading wBc bc0.part = some cmdImg) ∧
    (castOf wBc bc0.part = some bc0) ∧
    (bc0.pid = 4) ∧
    (0 ∈ castLeft wBc bc0) ∧
    (bc0.kind = 0) ∧
    ((wBc.core 0).undef = []) ∧
    (castHeld wBc bc0 0 = false) ∧
    (bc0.matches = true) ∧
    (bc0.off + bc0.data.length ≤ spdSize) ∧
    (∀ c ∈ wBc.bcasts, c.part = bc0.part → c.reports = []) ∧
    (List.find? (fun (b : Bcast) => b.pid == 4) wBcBad.bcasts = some bcBad) ∧
    (loading wBcBad bcBad.part = some cmdImg) ∧
    (castOf wBcBad bcBad.part = some bcBad) ∧
    (bcBad.pid = 4) ∧
    (0 ∈ castLeft wBcBad bcBad) ∧
    (bcBad.kind = 0) ∧
    ((wBcBad.core 0).undef = []) ∧
    (castHeld wBcBad bcBad 0 = false) ∧
    (bcBad.matches = false) ∧
    (∃ m ∈ castLeft wBcBad bcBad, m ≠ 0) ∧
    (wNotice.rst.running[0]? = some rrNotice) ∧
    (rrNotice.phase = RPhase.notice) ∧
    (rrNotice.level = 1) ∧
    (targetCore rrNotice.target = 0) ∧
    (wNotice.host.win = none) := by and_intros <;> decide +kernel

/-- Premises of TablesRegionsAndReductionEntries: tableUpdate, tableArrives, tableSame, tableFresh, regionWritten,
regionInUse, regionOrder, regionHigh, regionReserved, regionInvalid, regionTop. -/
theorem test_tablesRegionsAndReductionEntries_applies_1 :
    (0 < 64) ∧
    (0 < 35328) ∧
    (3 < 16) ∧
    (wTab.transit ≠ List.map (fun (q : ℕ) => (q, transitOf wTab q)) (List.range 64)) ∧
    (wTab.host.win = none) ∧
    ((wTab.panel 0).hub.stale = true) ∧
    (wTabF.transit = List.map (fun (q : ℕ) => (q, transitOf wTabF q)) (List.range 64)) ∧
    (wHost.host.win = none) ∧
    ((wHost.panel 0).hub.stale = false) ∧
    (pcieUp wHost = true) ∧
    (partOf wHost (panelOf 0) = some 0) ∧
    ((wHost.part 0).session = Session.opened) ∧
    (ctlStatus wHost (panelOf 0) 16 ((lyOf 0 * 23 + lxOf 0) * 65536) = 0) ∧
    (beingCarried wHost 0 = false) ∧
    ((wHost.core 0).inUse = false) ∧
    ((9223372058329612288#64).getLsbD 63 = false ∨ ¬(fld (9223372058329612288#64).toNat 42 32 < fld
      (9223372058329612288#64).toNat 10 0 ∨ 1535 < fld (9223372058329612288#64).toNat 42 32 ∨ fld
      (9223372058329612288#64).toNat 58 43 ≠ 0 ∨ fld (9223372058329612288#64).toNat 31 11 ≠ 0)) ∧
    (pcieUp wHostUse = true) ∧
    (partOf wHostUse (panelOf 0) = some 0) ∧
    ((wHostUse.part 0).session = Session.opened) ∧
    (ctlStatus wHostUse (panelOf 0) 16 ((lyOf 0 * 23 + lxOf 0) * 65536) = 0) ∧
    (beingCarried wHostUse 0 = false) ∧
    ((wHostUse.core 0).inUse = true) ∧
    ((9223372054034644997#64).getLsbD 63 = true) ∧
    (fld (9223372054034644997#64).toNat 42 32 < fld (9223372054034644997#64).toNat 10 0 ∨ 1535 < fld
      (9223372054034644997#64).toNat 42 32 ∨ fld (9223372054034644997#64).toNat 58 43 ≠ 0 ∨ fld
      (9223372054034644997#64).toNat 31 11 ≠ 0) ∧
    ((9223378633924542464#64).getLsbD 63 = true) ∧
    (fld (9223378633924542464#64).toNat 42 32 < fld (9223378633924542464#64).toNat 10 0 ∨ 1535 < fld
      (9223378633924542464#64).toNat 42 32 ∨ fld (9223378633924542464#64).toNat 58 43 ≠ 0 ∨ fld
      (9223378633924542464#64).toNat 31 11 ≠ 0) ∧
    ((9223372058329614336#64).getLsbD 63 = true) ∧
    (fld (9223372058329614336#64).toNat 42 32 < fld (9223372058329614336#64).toNat 10 0 ∨ 1535 < fld
      (9223372058329614336#64).toNat 42 32 ∨ fld (9223372058329614336#64).toNat 58 43 ≠ 0 ∨ fld
      (9223372058329614336#64).toNat 31 11 ≠ 0) ∧
    ((17179869189#64).getLsbD 63 = false ∨ ¬(fld (17179869189#64).toNat 42 32 < fld (17179869189#64).toNat 10 0 ∨
      1535 < fld (17179869189#64).toNat 42 32 ∨ fld (17179869189#64).toNat 58 43 ≠ 0 ∨ fld (17179869189#64).toNat 31
      11 ≠ 0)) ∧
    ((9223378629629576703#64).getLsbD 63 = false ∨ ¬(fld (9223378629629576703#64).toNat 42 32 < fld
      (9223378629629576703#64).toNat 10 0 ∨ 1535 < fld (9223378629629576703#64).toNat 42 32 ∨ fld
      (9223378629629576703#64).toNat 58 43 ≠ 0 ∨ fld (9223378629629576703#64).toNat 31 11 ≠ 0)) := by and_intros <;> decide +kernel

/-- Premises of TablesRegionsAndReductionEntries: redWritten, redValid. -/
theorem test_tablesRegionsAndReductionEntries_applies_2 :
    (0 < 64) ∧
    (0 < 35328) ∧
    (3 < 16) ∧
    (pcieUp wHost = true) ∧
    (partOf wHost (panelOf 0) = some 0) ∧
    ((wHost.part 0).session = Session.opened) ∧
    (ctlStatus wHost (panelOf 0) 16 ((lyOf 0 * 23 + lxOf 0) * 65536) = 0) ∧
    (beingCarried wHost 0 = false) ∧
    (∀ j < 4, ∀ l < 4, (wHost.listAt 0 j l).live = false) ∧
    ((4611686018427387904#64).getLsbD 63 = false ∨ fld (4611686018427387904#64).toNat 55 48 ≤ fld
      (4611686018427387904#64).toNat 39 32 ∧ fld (4611686018427387904#64).toNat 47 40 ≤ fld
      (4611686018427387904#64).toNat 31 24 ∧ fld (4611686018427387904#64).toNat 39 32 < 184 ∧ fld
      (4611686018427387904#64).toNat 31 24 < 192 ∧ (wHost.part 0).x0 * 23 ≤ fld (4611686018427387904#64).toNat 55 48
      ∧ fld (4611686018427387904#64).toNat 39 32 < ((wHost.part 0).x1 + 1) * 23 ∧ (wHost.part 0).y0 * 24 ≤ fld
      (4611686018427387904#64).toNat 47 40 ∧ fld (4611686018427387904#64).toNat 31 24 < ((wHost.part 0).y1 + 1) * 24
      ∧ fld (4611686018427387904#64).toNat 55 48 ≤ cxOf 0 ∧ cxOf 0 ≤ fld (4611686018427387904#64).toNat 39 32 ∧ fld
      (4611686018427387904#64).toNat 47 40 ≤ cyOf 0 ∧ cyOf 0 ≤ fld (4611686018427387904#64).toNat 31 24 ∧ fld
      (4611686018427387904#64).toNat 10 0 ≤ fld (4611686018427387904#64).toNat 21 11 ∧ fld
      (4611686018427387904#64).toNat 21 11 ≤ 1535) ∧
    ((9223372036857921023#64).getLsbD 63 = false ∨ fld (9223372036857921023#64).toNat 55 48 ≤ fld
      (9223372036857921023#64).toNat 39 32 ∧ fld (9223372036857921023#64).toNat 47 40 ≤ fld
      (9223372036857921023#64).toNat 31 24 ∧ fld (9223372036857921023#64).toNat 39 32 < 184 ∧ fld
      (9223372036857921023#64).toNat 31 24 < 192 ∧ (wHost.part 0).x0 * 23 ≤ fld (9223372036857921023#64).toNat 55 48
      ∧ fld (9223372036857921023#64).toNat 39 32 < ((wHost.part 0).x1 + 1) * 23 ∧ (wHost.part 0).y0 * 24 ≤ fld
      (9223372036857921023#64).toNat 47 40 ∧ fld (9223372036857921023#64).toNat 31 24 < ((wHost.part 0).y1 + 1) * 24
      ∧ fld (9223372036857921023#64).toNat 55 48 ≤ cxOf 0 ∧ cxOf 0 ≤ fld (9223372036857921023#64).toNat 39 32 ∧ fld
      (9223372036857921023#64).toNat 47 40 ≤ cyOf 0 ∧ cyOf 0 ≤ fld (9223372036857921023#64).toNat 31 24 ∧ fld
      (9223372036857921023#64).toNat 10 0 ≤ fld (9223372036857921023#64).toNat 21 11 ∧ fld
      (9223372036857921023#64).toNat 21 11 ≤ 1535) := by and_intros <;> decide +kernel

/-- Premises of TablesRegionsAndReductionEntries: redRefused, redBusy. -/
theorem test_tablesRegionsAndReductionEntries_applies_3 :
    (0 < 64) ∧
    (0 < 35328) ∧
    (3 < 16) ∧
    (pcieUp wHost = true) ∧
    (partOf wHost (panelOf 0) = some 0) ∧
    ((wHost.part 0).session = Session.opened) ∧
    (ctlStatus wHost (panelOf 0) 16 ((lyOf 0 * 23 + lxOf 0) * 65536) = 0) ∧
    (beingCarried wHost 0 = false) ∧
    (∀ j < 4, ∀ l < 4, (wHost.listAt 0 j l).live = false) ∧
    ((9223372036857923071#64).getLsbD 63 = true) ∧
    (¬(fld (9223372036857923071#64).toNat 55 48 ≤ fld (9223372036857923071#64).toNat 39 32 ∧ fld
      (9223372036857923071#64).toNat 47 40 ≤ fld (9223372036857923071#64).toNat 31 24 ∧ fld
      (9223372036857923071#64).toNat 39 32 < 184 ∧ fld (9223372036857923071#64).toNat 31 24 < 192 ∧ (wHost.part 0).x0
      * 23 ≤ fld (9223372036857923071#64).toNat 55 48 ∧ fld (9223372036857923071#64).toNat 39 32 < ((wHost.part 0).x1
      + 1) * 23 ∧ (wHost.part 0).y0 * 24 ≤ fld (9223372036857923071#64).toNat 47 40 ∧ fld
      (9223372036857923071#64).toNat 31 24 < ((wHost.part 0).y1 + 1) * 24 ∧ fld (9223372036857923071#64).toNat 55 48
      ≤ cxOf 0 ∧ cxOf 0 ≤ fld (9223372036857923071#64).toNat 39 32 ∧ fld (9223372036857923071#64).toNat 47 40 ≤ cyOf
      0 ∧ cyOf 0 ≤ fld (9223372036857923071#64).toNat 31 24 ∧ fld (9223372036857923071#64).toNat 10 0 ≤ fld
      (9223372036857923071#64).toNat 21 11 ∧ fld (9223372036857923071#64).toNat 21 11 ≤ 1535)) ∧
    (pcieUp wHostList = true) ∧
    (partOf wHostList (panelOf 0) = some 0) ∧
    ((wHostList.part 0).session = Session.opened) ∧
    (ctlStatus wHostList (panelOf 0) 16 ((lyOf 0 * 23 + lxOf 0) * 65536) = 0) ∧
    (beingCarried wHostList 0 = false) ∧
    (3 < 4) ∧
    ((wHostList.listAt 0 3 3).state = LState.running) := by and_intros <;> decide +kernel

/-- Premises of HubsTrackAndGrant: tracked, hubFull, hubEpoch, entries, noReplies, granted. -/
theorem test_hubsTrackAndGrant_applies_1 :
    (0 < 64) ∧
    (packetOf wHubOk 4 = some pktS) ∧
    (pktS.reply = false) ∧
    (pktS.pos = Pos.there) ∧
    (targetOf pktS.dst pktS.size = some (Target.stk 0 496)) ∧
    ((wHubOk.panel 0).shorted = false) ∧
    (∀ q ∈ (wHubOk.panel 0).hub.waiting, q.pid ≠ 4) ∧
    (∀ e ∈ (wHubOk.stack 0).partner, e.pid = 4 → e.kind = MirrorKind.rebuild) ∧
    (overtakes wHubOk pktS = false) ∧
    (stackStatus wHubOk 0 496 pktS = 0) ∧
    (entriesOf wHubOk 0 (classAt pktS 0) + ((496 + pktS.size - 1) / 512 + 1 - 496 / 512) ≤ 16 * (wHubOk.panel
      0).hub.split.of (classAt pktS 0)) ∧
    (entriesAll wHubOk 0 + ((496 + pktS.size - 1) / 512 + 1 - 496 / 512) ≤ 1024) ∧
    (packetOf wHubFull 4 = some pktS) ∧
    ((wHubFull.panel 0).shorted = false) ∧
    (∀ q ∈ (wHubFull.panel 0).hub.waiting, q.pid ≠ 4) ∧
    (∀ e ∈ (wHubFull.stack 0).partner, e.pid = 4 → e.kind = MirrorKind.rebuild) ∧
    (overtakes wHubFull pktS = false) ∧
    (stackStatus wHubFull 0 496 pktS = 0) ∧
    (16 * (wHubFull.panel 0).hub.split.of (classAt pktS 0) < entriesOf wHubFull 0 (classAt pktS 0) + ((496 +
      pktS.size - 1) / 512 + 1 - 496 / 512) ∨ 1024 < entriesAll wHubFull 0 + ((496 + pktS.size - 1) / 512 + 1 - 496 /
      512)) ∧
    (packetOf wHubEp 4 = some pktSep) ∧
    (pktSep.reply = false) ∧
    (pktSep.pos = Pos.there) ∧
    (targetOf pktSep.dst pktSep.size = some (Target.stk 0 496)) ∧
    ((wHubEp.panel 0).shorted = false) ∧
    (∀ q ∈ (wHubEp.panel 0).hub.waiting, q.pid ≠ 4) ∧
    (∀ e ∈ (wHubEp.stack 0).partner, e.pid = 4 → e.kind = MirrorKind.rebuild) ∧
    (overtakes wHubEp pktSep = false) ∧
    (stackStatus wHubEp 0 496 pktSep ≠ 0) ∧
    (packetOf wGrant hr0.pid = some pktS) ∧
    (∀ m ∈ wGrant.packets, m.reply = false) ∧
    ((wGrant2.panel 0).hub.waiting = [hr5] ++ [hr0] ++ []) ∧
    (∀ w ∈ [hr5] ++ [], w.pid ≠ hr0.pid) ∧
    (packetOf wGrant2 hr0.pid = some pktS) ∧
    (pktS.op = POp.read) ∧
    (1 < hr0.left) ∧
    ((wGrant2.panel 0).shorted = false) ∧
    (unitBusy wGrant2 0 hr0 = false) ∧
    (0 < (wGrant2.panel 0).hub.grants) ∧
    ((wGrant2.panel 0).hub.grants < 63) ∧
    ((wGrant2.stack 0).key.isSome = true) ∧
    ((wGrant2.stack 0).mirrored = false) ∧
    ((wGrant2.panel 0).power = PPower.active) ∧
    ((fun (w : HubReq) => unitBusy wGrant2 0 w = false ∧ Tab.get 0 (wGrant2.panel 0).hub.used w.cls < (wGrant2.panel
      0).hub.split.of w.cls) hr0) ∧
    (∀ w ∈ [hr5], ¬(fun (w : HubReq) => unitBusy wGrant2 0 w = false ∧ Tab.get 0 (wGrant2.panel 0).hub.used w.cls <
      (wGrant2.panel 0).hub.split.of w.cls) w) ∧
    (hr0.late = false) := by and_intros <;> decide +kernel

/-- Premises of HubsTrackAndGrant: grantedOver, noKey, noGrant, hubDenied. -/
theorem test_hubsTrackAndGrant_applies_2 :
    (0 < 64) ∧
    ((wGrantOver.panel 0).hub.waiting = noHr ++ [hr0] ++ noHr) ∧
    (∀ w ∈ noHr ++ noHr, w.pid ≠ hr0.pid) ∧
    (packetOf wGrantOver hr0.pid = some pktS) ∧
    (pktS.op = POp.read) ∧
    (1 < hr0.left) ∧
    ((wGrantOver.panel 0).shorted = false) ∧
    (unitBusy wGrantOver 0 hr0 = false) ∧
    (0 < (wGrantOver.panel 0).hub.grants) ∧
    ((wGrantOver.panel 0).hub.grants < 63) ∧
    ((wGrantOver.stack 0).key.isSome = true) ∧
    ((wGrantOver.stack 0).mirrored = false) ∧
    ((wGrantOver.panel 0).power = PPower.active) ∧
    (∀ w ∈ (wGrantOver.panel 0).hub.waiting, ¬(fun (w : HubReq) => unitBusy wGrantOver 0 w = false ∧ Tab.get 0
      (wGrantOver.panel 0).hub.used w.cls < (wGrantOver.panel 0).hub.split.of w.cls) w) ∧
    (∀ w ∈ noHr, unitBusy wGrantOver 0 w = true) ∧
    ((wNoKey.panel 0).hub.waiting = [hr0]) ∧
    (packetOf wNoKey hr0.pid = some pktS) ∧
    (unitBusy wNoKey 0 hr0 = false) ∧
    ((wNoKey.panel 0).shorted = false) ∧
    ((wNoKey.stack 0).key = none) ∧
    (pktS.raw = false) ∧
    ((wNoKey.stack 0).partner = []) ∧
    ((wHubOk.panel 0).hub.waiting = []) ∧
    (packetOf wHubNk 4 = some pktS) ∧
    (pktS.reply = false) ∧
    (pktS.pos = Pos.there) ∧
    (targetOf pktS.dst pktS.size = some (Target.stk 0 496)) ∧
    ((wHubNk.panel 0).shorted = false) ∧
    (∀ q ∈ (wHubNk.panel 0).hub.waiting, q.pid ≠ 4) ∧
    (∀ e ∈ (wHubNk.stack 0).partner, e.pid = 4 → e.kind = MirrorKind.rebuild) ∧
    (overtakes wHubNk pktS = false) ∧
    (stackStatus wHubNk 0 496 pktS ≠ 0) := by and_intros <;> decide +kernel

/-- Premises of StackSectorsScrubMirrorsAndPower: rewrite, patrol, patrolEarly, retire, powerDown, powerStays, fill,
fillDone, scrubReg, rewriteDropped, merged, mergeWaits, mergeKey, mirrored, mirrorKept, mirrorAck. -/
theorem test_stackSectorsScrubMirrorsAndPower_applies_1 :
    (0 < 64) ∧
    ((wRw.stack 0).rewrites = [3, 4]) ∧
    (decideAt wRw 0 (3 * 64) (ownerAw wRw 0 (3 * 64)) = SectorOutcome.corrected 2 1) ∧
    (stackAwake (wScrub.stack 0) = true) ∧
    ((wScrub.stack 0).fill = Fill.none) ∧
    ((wScrub.stack 0).pass = none) ∧
    ((wScrub.stack 0).scrubOn = true) ∧
    ((wScrub.stack 0).lastScrub + (wScrub.stack 0).interval ≤ wScrub.now) ∧
    ((wScrubE.stack 0).pass = none) ∧
    (wScrubE.now < (wScrubE.stack 0).lastScrub + (wScrubE.stack 0).interval) ∧
    ((wRetire.stack 0).retiring = some 7) ∧
    (wRetire.host.win = none) ∧
    ((wAct.stack 0).power = StackPower.active) ∧
    ((wAct.panel 0).hub.waiting = []) ∧
    ((wAct.stack 0).merges = []) ∧
    ((wAct.stack 0).fill = Fill.none) ∧
    ((wAct.stack 0).lastUse + 100 ≤ wAct.now) ∧
    (wActE.now < (wActE.stack 0).lastUse + 100) ∧
    ((wFill.stack 0).fill = Fill.due) ∧
    ((wFill.panel 0).power = PPower.active) ∧
    ((wFill.panel 0).bring = Bring.none) ∧
    ((wFillR.stack 0).fill = Fill.running) ∧
    (pcieUp wPlain = true) ∧
    (Option.all (fun (k : ℕ) => decide ((wPlain.part k).session = Session.opened)) (partOf wPlain 0) = true) ∧
    (ctlStatus wPlain 0 3 16 = 0) ∧
    ((wRwBad.stack 0).rewrites = [3, 4]) ∧
    (decideAt wRwBad 0 (3 * 64) (ownerAw wRwBad 0 (3 * 64)) = .uncorrectable false) ∧
    ((wMrg.stack 0).merges = [4]) ∧
    (waitingAt wMrg 0 4 = some hrM) ∧
    (packetOf wMrg 4 = some pktMrg) ∧
    ((wMrg.stack 0).key.isSome = true) ∧
    (8 ≤ List.length hrM.secs) ∧
    (1 < hrM.left) ∧
    ((wMrg0.stack 0).merges = [4]) ∧
    (waitingAt wMrg0 0 4 = some hrM0) ∧
    (packetOf wMrg0 4 = some pktMrg) ∧
    ((wMrg0.stack 0).key.isSome = true) ∧
    (List.length hrM0.secs < 8) ∧
    ((wMrgKey.stack 0).merges = [4]) ∧
    (waitingAt wMrgKey 0 4 = some hrM) ∧
    (packetOf wMrgKey 4 = some pktMrg) ∧
    ((wMrgKey.stack 0).key = none) ∧
    ((wMrgKey.stack 0).partner = []) ∧
    ((wMirW.stack 0).partner = [mir0]) ∧
    (mir0.sent = none) ∧
    (mir0.kind = MirrorKind.write) ∧
    (mirrorsTo wMirW 0 = some 1) ∧
    ((wMirW.panel 1).inReset = false) ∧
    ((wMirL.stack 0).partner = [mir0]) ∧
    (mirrorsTo wMirL 0 = some 1) ∧
    ((wMirL.panel 1).inReset = true) ∧
    (packetOf wMirA 5 = some pktMb) ∧
    (pktMb.reply = true) ∧
    (pktMb.pos = Pos.there) ∧
    (pktMb.src = Src.stack 0) ∧
    (pktMb.op = POp.write) ∧
    (pktMb.status = 0) ∧
    ((wMirA.stack 0).partner = [mir1]) ∧
    (mir1.kind = MirrorKind.write) ∧
    (mir1.sent = some (pktMb.tag, pktMb.epoch)) ∧
    (waitingAt wMirA 0 mir1.pid = none) ∧
    (packetOf wMirA mir1.pid = some pktMo) ∧
    (mir1.pid ≠ 5) := by and_intros <;> decide +kernel

/-- Premises of StackSectorsScrubMirrorsAndPower: rebuild, rebuildNone, rebuildLands, rebuilt, rebuildGoesOn. -/
theorem test_stackSectorsScrubMirrorsAndPower_applies_2 :
    (0 < 64) ∧
    (partnerOf wReb 0 = some 1) ∧
    ((wReb.stack 0).rebuild ≠ Fill.none) ∧
    ((wReb.panel 1).lost = false) ∧
    ((fun (v : ℕ) => (if (wReb.stack 0).rebuild = Fill.due then 0 else (wReb.stack 0).rebuilt) ≤ v ∧ ∃ x ∈
      heldSectors wReb 1 0 deviceBase, otherCopy x / 512 = v) (otherCopy 0 / 512)) ∧
    ((wReb.panel 1).inReset = false) ∧
    (partnerOf wRebNone 0 = some 1) ∧
    ((wRebNone.stack 0).rebuild ≠ Fill.none) ∧
    ((wRebNone.panel 1).lost = false) ∧
    (packetOf wRebR 4 = some pktRb) ∧
    (pktRb.reply = true) ∧
    (pktRb.pos = Pos.there) ∧
    (pktRb.src = Src.stack 0) ∧
    (pktRb.op = POp.read) ∧
    (pktRb.status = 0) ∧
    ((wRebR.stack 0).partner = [mirR]) ∧
    (mirR.kind = MirrorKind.rebuild) ∧
    (mirR.sent = some (pktRb.tag, pktRb.epoch)) ∧
    (partnerOf wRebR 0 = some 1) ∧
    ((wRebR.stack 0).retire = []) ∧
    (pktRb.data.length = 512) ∧
    (mirR.off % 512 = 0) ∧
    (mirR.off < deviceBase) ∧
    (partnerOf wRebEnd 0 = some 1) ∧
    ((wRebEnd.stack 0).rebuild = Fill.running) ∧
    (deviceBase / 512 ≤ (wRebEnd.stack 0).rebuilt) ∧
    (∀ r ∈ (wRebEnd.stack 0).partner, r.kind ≠ MirrorKind.rebuild) ∧
    (partnerOf wRebMore 0 = some 1) ∧
    ((wRebMore.stack 0).rebuild = Fill.running) ∧
    ((wRebMore.stack 0).rebuilt < deviceBase / 512 ∨ ∃ r ∈ (wRebMore.stack 0).partner, r.kind = MirrorKind.rebuild) := by and_intros <;> decide +kernel

/-- Premises of LanesTimersAndTraining: laneFails, lanesGone, laneSame, laneSwitch, laneFailsAgain, laneNoSwitch,
codeword, laneWorn, codewordLost, replayGap, replayTime, replayEighth, signalLoss, signalStays. -/
theorem test_lanesTimersAndTraining_applies_1 :
    (0 < 16) ∧
    (0 < 13) ∧
    ((wpUp.port 0).failed.getLsbD 0 = false) ∧
    ((wpUp.port 0).bad.getLsbD 0 = false) ∧
    ((wpUp.port 0).active.getLsbD 0 = true) ∧
    ((wpUp.port 0).lanes.length = 12) ∧
    ((wpUp.port 0).state = LnkState.up) ∧
    ((wpUp.port 0).sw = none) ∧
    ((wpUp.port 0).spare ≤ 12) ∧
    ((wpUp.port 0).spare ∈ (wpUp.port 0).goodLanes) ∧
    ((wpUp.port 0).spare ≠ 0) ∧
    ((wpUp.port 0).active.getLsbD (wpUp.port 0).spare = false) ∧
    (9 ≤ (wpUp.port 0).goodLanes.length) ∧
    (wpUp.host.win = none) ∧
    (5 < 13) ∧
    ((wpFew.port 0).failed.getLsbD 5 = false) ∧
    ((wpFew.port 0).bad.getLsbD 5 = false) ∧
    ((wpFew.port 0).goodLanes.length ≤ 8) ∧
    ((wpFew.port 0).role = Role.off) ∧
    (wpFew.host.win = none) ∧
    ((wpFailed.port 0).failed.getLsbD 0 = true) ∧
    (wpFailed.host.win = none) ∧
    ((wpSw.port 0).sw = some (8190#13, 15)) ∧
    ((wpSw.port 0).agreed = true) ∧
    ((wpSw2.port 0).failed.getLsbD 5 = false) ∧
    ((wpSw2.port 0).bad.getLsbD 5 = false) ∧
    ((wpSw2.port 0).state = LnkState.up) ∧
    ((wpSw2.port 0).sw = some (8190#13, 15)) ∧
    ((8190#13).getLsbD 5 = true) ∧
    ((lanesIn 8190#13).length = 12) ∧
    (9 ≤ (wpSw2.port 0).goodLanes.length) ∧
    (laneMask (List.take 8 (List.filter (fun (x : ℕ) => x != 5) (wpSw2.port 0).goodLanes)) ≠ (wpSw2.port 0).active) ∧
    (wpSw2.host.win = none) ∧
    (corr3.length ≤ 15) ∧
    ((wpUp.port 0).corr.length + corr3.length ≤ 4096) ∧
    ((wpCorr.port 0).state = LnkState.up) ∧
    (corr0.length ≤ 15) ∧
    (wpCorr.host.win = none) ∧
    (3 ∈ (wpCorr.port 0).lanes) ∧
    ((wpCorr.port 0).bad.getLsbD 3 = false) ∧
    (4096 < (List.filter (fun (c : ℕ × ℕ) => decide (wpCorr.now < c.1 + 65536) && c.2 == 3) (wpCorr.port
      0).corr).length) ∧
    (15 < (List.map (fun (x : ℕ × BitVec 10) => x.1) (List.filter (fun (e : ℕ × BitVec 10) => decide (e.1 < 544) &&
      e.2 != 0) (List.map (fun (i : ℕ) => (i, 1#10)) (List.range 16)))).dedup.length) ∧
    (jobOf wpGap 0 = none) ∧
    (wpGap.host.win = none) ∧
    ((wpGap.port 0).state = LnkState.up) ∧
    ((wpGap.port 0).buf ≠ []) ∧
    ((wpGap.port 0).stuck < 7) ∧
    (2 ≤ (wpGap.port 0).gap.getD 0) ∧
    (jobOf wpAck 0 = none) ∧
    (wpAck.host.win = none) ∧
    ((wpAck.port 0).state = LnkState.up) ∧
    ((wpAck.port 0).buf ≠ []) ∧
    ((wpAck.port 0).stuck < 7) ∧
    ((wpAck.port 0).lastAck + 200 ≤ wpAck.now) ∧
    (jobOf wpEighth 0 = none) ∧
    (wpEighth.host.win = none) ∧
    ((wpEighth.port 0).state = LnkState.up) ∧
    ((wpEighth.port 0).buf ≠ []) ∧
    ((wpEighth.port 0).stuck = 7) ∧
    ((wpEighth.port 0).lastAck + 200 ≤ wpEighth.now) ∧
    (jobOf wpQuiet 0 = none) ∧
    (wpQuiet.host.win = none) ∧
    ((wpQuiet.port 0).state = LnkState.up) ∧
    ((wpQuiet.port 0).lastRx + 1000 ≤ wpQuiet.now) ∧
    (jobOf wpHeard 0 = none) ∧
    (wpHeard.host.win = none) ∧
    ((wpHeard.port 0).state = LnkState.up) ∧
    (wpHeard.now < (wpHeard.port 0).lastRx + 1000) := by and_intros <;> decide +kernel

/-- Premises of LanesTimersAndTraining: retrains, trainFails, trainNoIdent, trainUp, trainMismatch, trainTimeout,
portGoes, portStays. -/
theorem test_lanesTimersAndTraining_applies_2 :
    (0 < 16) ∧
    (jobOf wpDown 0 = none) ∧
    (wpDown.host.win = none) ∧
    ((wpDown.port 0).state = LnkState.down) ∧
    ((wpDown.port 0).role ≠ Role.off) ∧
    ((wpDown.port 0).since + 100000 ≤ wpDown.now) ∧
    (jobOf wpTrFew 0 = none) ∧
    (wpTrFew.host.win = none) ∧
    ((wpTrFew.port 0).state = LnkState.training) ∧
    ((wpTrFew.port 0).goodLanes.length < 8) ∧
    (jobOf wpTrNone 0 = none) ∧
    (wpTrNone.host.win = none) ∧
    ((wpTrNone.port 0).state = LnkState.training) ∧
    (8 ≤ (wpTrNone.port 0).goodLanes.length) ∧
    ((wpTrNone.port 0).ident = none) ∧
    (jobOf wpTrOk 0 = none) ∧
    (wpTrOk.host.win = none) ∧
    ((wpTrOk.port 0).state = LnkState.training) ∧
    (8 ≤ (wpTrOk.port 0).goodLanes.length) ∧
    ((wpTrOk.port 0).ident = some idt) ∧
    (idt.bridge = false) ∧
    (jobOf wpTrMis 0 = none) ∧
    (wpTrMis.host.win = none) ∧
    ((wpTrMis.port 0).state = LnkState.training) ∧
    (8 ≤ (wpTrMis.port 0).goodLanes.length) ∧
    ((wpTrMis.port 0).ident = some idt) ∧
    (jobOf wpTrOld 0 = none) ∧
    (wpTrOld.host.win = none) ∧
    ((wpTrOld.port 0).state = LnkState.training) ∧
    ((wpTrOld.port 0).since + 5000000 ≤ wpTrOld.now) ∧
    (jobOf wpLost 0 = none) ∧
    (wpLost.host.win = none) ∧
    (portGone wpLost 0 = true) ∧
    ((wpLost.port 0).state ≠ LnkState.failed) ∧
    (jobOf wpHere 0 = none) ∧
    (wpHere.host.win = none) ∧
    (portGone wpHere 0 = false) := by and_intros <;> decide +kernel

/-- Premises of FlitsAreHeardInOrder: flitNotUp, spoilt, idleCrc, dataCrc, idleHeard, flitReserved, dataOutOfOrder,
dataTaken, dataEndTaken. -/
theorem test_flitsAreHeardInOrder_applies_1 :
    (0 < 16) ∧
    (8 ≤ 9) ∧
    ((wpT.port 0).state ≠ LnkState.up) ∧
    ((wpSpoilt.port 0).state = LnkState.up) ∧
    (0 < (wpSpoilt.port 0).spoilt) ∧
    ((wpR.port 0).state = LnkState.up) ∧
    ((wpR.port 0).spoilt = 0) ∧
    (flitCrc 0 fBad ≠ BitVec.toNat fBad.crc) ∧
    (flitCrc 1 fBad ≠ BitVec.toNat fBad.crc) ∧
    (flitCrc 0 (sealed 0 flit0) = BitVec.toNat (sealed 0 flit0).crc) ∧
    ((sealed 0 flit0).credit ≠ 0) ∧
    (flitCrc 9 fRes = BitVec.toNat fRes.crc) ∧
    (flitCrc 1 fSeq = BitVec.toNat fSeq.crc) ∧
    (fSeq.seq.toNat ≠ (wpR.port 0).rxNext) ∧
    ((sealed 1 flit0).seq.toNat = (wpR.port 0).rxNext) ∧
    ((wpR.port 0).role.uses (sealed 1 flit0).vc.toNat = true) ∧
    ((wpR.port 0).flushing = false) ∧
    (flitCrc 1 (sealed 1 flit0) = BitVec.toNat (sealed 1 flit0).crc) ∧
    ((sealed 2 flit0).seq.toNat = (wpR.port 0).rxNext) ∧
    ((wpR.port 0).role.uses (sealed 2 flit0).vc.toNat = true) ∧
    (flitCrc 2 (sealed 2 flit0) = BitVec.toNat (sealed 2 flit0).crc) := by and_intros <;> decide +kernel

/-- Premises of FlitsAreHeardInOrder: idleDue. -/
theorem test_flitsAreHeardInOrder_applies_2 :
    (0 < 16) ∧
    (8 ≤ 9) ∧
    (((mkP fun (P : Port) =>
      { state := LnkState.up, role := P.role, commitOut := P.commitOut, job := P.job, spare := P.spare, bad := P.bad, failed := P.failed, active := P.active, corr := P.corr, sw := P.sw, agreed := P.agreed, ident := P.ident, peerBridge := P.peerBridge, peerPort := P.peerPort, peerSerial := P.peerSerial, rejoined := P.rejoined, flushing := P.flushing, lastSt := P.lastSt, nf := P.nf, replay := P.replay, crc := P.crc, fecUnc := P.fecUnc, flushed := P.flushed, proto := P.proto, qFull := P.qFull, retrain := P.retrain, refused := P.refused, timeout := P.timeout, commitTimeout := P.commitTimeout, cfgNext := P.cfgNext, post := P.post, q := P.q, reqs := P.reqs, nextTag := P.nextTag, txNext := P.txNext, buf := P.buf, fwds := P.fwds, ctl := P.ctl, stuck := P.stuck, gap := P.gap, rxNext := P.rxNext, rx := P.rx, credits := P.credits, owed := P.owed, since := P.since, lastRx := P.lastRx, lastAck := P.lastAck, lastReduce := P.lastReduce, rejoinAt := P.rejoinAt, tried := P.tried, inReset := P.inReset, held := P.held, nextEntry := P.nextEntry, line := P.line, ackDue := true, spoilt := P.spoilt, eq := P.eq, precode := P.precode }).port
      0).state = LnkState.up) ∧
    (((mkP fun (P : Port) =>
      { state := LnkState.up, role := P.role, commitOut := P.commitOut, job := P.job, spare := P.spare, bad := P.bad, failed := P.failed, active := P.active, corr := P.corr, sw := P.sw, agreed := P.agreed, ident := P.ident, peerBridge := P.peerBridge, peerPort := P.peerPort, peerSerial := P.peerSerial, rejoined := P.rejoined, flushing := P.flushing, lastSt := P.lastSt, nf := P.nf, replay := P.replay, crc := P.crc, fecUnc := P.fecUnc, flushed := P.flushed, proto := P.proto, qFull := P.qFull, retrain := P.retrain, refused := P.refused, timeout := P.timeout, commitTimeout := P.commitTimeout, cfgNext := P.cfgNext, post := P.post, q := P.q, reqs := P.reqs, nextTag := P.nextTag, txNext := P.txNext, buf := P.buf, fwds := P.fwds, ctl := P.ctl, stuck := P.stuck, gap := P.gap, rxNext := P.rxNext, rx := P.rx, credits := P.credits, owed := P.owed, since := P.since, lastRx := P.lastRx, lastAck := P.lastAck, lastReduce := P.lastReduce, rejoinAt := P.rejoinAt, tried := P.tried, inReset := P.inReset, held := P.held, nextEntry := P.nextEntry, line := P.line, ackDue := true, spoilt := P.spoilt, eq := P.eq, precode := P.precode }).port
      0).ackDue = true) := by and_intros <;> decide +kernel

/-- Premises of ControlFlitsOfTheJob: commitWrongRole, voidTaken, rejoinTaken, rejoinOther, laneAnswer, identTaken,
identUp, identMismatch. -/
theorem test_controlFlitsOfTheJob_applies :
    (0 < 16) ∧
    ((wJring.port 0).state = LnkState.up) ∧
    ((wJring.port 0).spoilt = 0) ∧
    ((sealed 3 flitC).seq.toNat = (wJring.port 0).rxNext) ∧
    ((sealed 3 flitC).vc = 3) ∧
    (jobOf wJring 0 = some 0) ∧
    (flitCrc 3 (sealed 3 flitC) = BitVec.toNat (sealed 3 flitC).crc) ∧
    ((wJring.port 0).role ≠ Role.reduce) ∧
    ((wJr.port 0).state = LnkState.up) ∧
    ((wJr.port 0).spoilt = 0) ∧
    ((sealed 4 flitC).seq.toNat = (wJr.port 0).rxNext) ∧
    ((sealed 4 flitC).vc = 3) ∧
    (jobOf wJr 0 = some 0) ∧
    (flitCrc 4 (sealed 4 flitC) = BitVec.toNat (sealed 4 flitC).crc) ∧
    ((wJr.job 0).stepOpen = true) ∧
    (BitVec.toNat (sealed 4 flitC).step = (wJr.job 0).n) ∧
    ((sealed 5 flitC).seq.toNat = (wJr.port 0).rxNext) ∧
    ((sealed 5 flitC).vc = 3) ∧
    (flitCrc 5 (sealed 5 flitC) = BitVec.toNat (sealed 5 flitC).crc) ∧
    ((sealed 5 flitC).job.toNat = (wJr.port 0).job) ∧
    ((wJr.job 0).hold = false) ∧
    ((wJother.port 0).state = LnkState.up) ∧
    ((wJother.port 0).spoilt = 0) ∧
    ((sealed 5 flitC).seq.toNat = (wJother.port 0).rxNext) ∧
    (jobOf wJother 0 = some 0) ∧
    ((sealed 5 flitC).job.toNat ≠ (wJother.port 0).job) ∧
    ((wJsw.port 0).state = LnkState.up) ∧
    ((wJsw.port 0).spoilt = 0) ∧
    (flitCrc 6 (sealed 6 flitC) = BitVec.toNat (sealed 6 flitC).crc) ∧
    ((wJsw.port 0).sw.isSome = true) ∧
    (wJsw.host.win = none) ∧
    ((wJtr.port 0).state = LnkState.training) ∧
    ((wJtr.port 0).spoilt = 0) ∧
    (flitCrc 7 (sealed 7 flitC) = BitVec.toNat (sealed 7 flitC).crc) ∧
    ((wJmis.port 0).state = LnkState.mismatch) ∧
    ((wJmis.port 0).spoilt = 0) := by and_intros <;> decide +kernel

/-- Premises of EntriesArePostedAndComplete: postReset. -/
theorem test_entriesArePostedAndComplete_applies_1 :
    (0 < 16) ∧
    ((1, PortOp.send, Instr.postSend Source.host 0 wSend0 wSend1 (240#64) 0) ∈ [(1, PortOp.send, Instr.postSend
      Source.host 0 wSend0 wSend1 (240#64) 0), (2, PortOp.recv, Instr.postRecv Source.host 0 wSend0 wSend1 (240#64)
      0), (3, PortOp.reduce, Instr.postReduce Source.host 0 wSend0 wSend1 (240#64) 0), (4, PortOp.relay,
      Instr.postRelay Source.host 0 wSend0 wSend1 (240#64) 0)]) ∧
    (pcieUp wPreset = true) ∧
    (fld (BitVec.toNat wSend0) 3 0 = 1) ∧
    (postBad (wPreset.onPort 0 fun P => { P with post := [(0, wSend0), (1, wSend1), (2, 240#64), (3, 0)] }) 0
      (postWord wSend0 wSend1 (240#64) 0) = false) ∧
    ((wPreset.port 0).inReset = true) := by and_intros <;> decide +kernel

/-- Premises of EntriesArePostedAndComplete: posted, postedSeq. -/
theorem test_entriesArePostedAndComplete_applies_2 :
    (0 < 16) ∧
    ((1, PortOp.send, Instr.postSend Source.host 0 wSend0 wSend1 (240#64) 0) ∈ [(1, PortOp.send, Instr.postSend
      Source.host 0 wSend0 wSend1 (240#64) 0), (2, PortOp.recv, Instr.postRecv Source.host 0 wSend0 wSend1 (240#64)
      0), (3, PortOp.reduce, Instr.postReduce Source.host 0 wSend0 wSend1 (240#64) 0), (4, PortOp.relay,
      Instr.postRelay Source.host 0 wSend0 wSend1 (240#64) 0)]) ∧
    (pcieUp wPo = true) ∧
    (fld (BitVec.toNat wSend0) 3 0 = 1) ∧
    (postBad (wPo.onPort 0 fun P => { P with post := [(0, wSend0), (1, wSend1), (2, 240#64), (3, 0)] }) 0 (postWord
      wSend0 wSend1 (240#64) 0) = false) ∧
    ((wPo.port 0).inReset = false) ∧
    ((Tab.get [] (wPo.port 0).q (fld (postWord wSend0 wSend1 (240#64) 0) 5 4)).length < 64) ∧
    ((1, PortOp.send, Instr.postSend (Source.seq 1) 0 wSend0 wSend1 (240#64) 0) ∈ [(1, PortOp.send, Instr.postSend
      (Source.seq 1) 0 wSend0 wSend1 (240#64) 0), (2, PortOp.recv, Instr.postRecv (Source.seq 1) 0 wSend0 wSend1
      (240#64) 0), (3, PortOp.reduce, Instr.postReduce (Source.seq 1) 0 wSend0 wSend1 (240#64) 0), (4, PortOp.relay,
      Instr.postRelay (Source.seq 1) 0 wSend0 wSend1 (240#64) 0)]) ∧
    (List.idxOf 0 (portsAt 1) < (portsAt 1).length ∧ ctlStatus wPo 1 (4 + List.idxOf 0 (portsAt 1)) 0 = 0) := by and_intros <;> decide +kernel

/-- Premises of EntriesArePostedAndComplete: postFull. -/
theorem test_entriesArePostedAndComplete_applies_3 :
    (0 < 16) ∧
    ((1, PortOp.send, Instr.postSend Source.host 0 wSend0 wSend1 (240#64) 0) ∈ [(1, PortOp.send, Instr.postSend
      Source.host 0 wSend0 wSend1 (240#64) 0), (2, PortOp.recv, Instr.postRecv Source.host 0 wSend0 wSend1 (240#64)
      0), (3, PortOp.reduce, Instr.postReduce Source.host 0 wSend0 wSend1 (240#64) 0), (4, PortOp.relay,
      Instr.postRelay Source.host 0 wSend0 wSend1 (240#64) 0)]) ∧
    (pcieUp wPfull = true) ∧
    (fld (BitVec.toNat wSend0) 3 0 = 1) ∧
    (postBad (wPfull.onPort 0 fun P => { P with post := [(0, wSend0), (1, wSend1), (2, 240#64), (3, 0)] }) 0
      (postWord wSend0 wSend1 (240#64) 0) = false) ∧
    ((wPfull.port 0).inReset = false) ∧
    ((Tab.get [] (wPfull.port 0).q (fld (postWord wSend0 wSend1 (240#64) 0) 5 4)).length = 64) := by and_intros <;> decide +kernel

/-- Premises of EntriesArePostedAndComplete: postBad, entryDone, addendRetry. -/
theorem test_entriesArePostedAndComplete_applies_4 :
    (0 < 16) ∧
    ((1, PortOp.send, Instr.postSend Source.host 0 (32769#64) wSend1 (240#64) 0) ∈ [(1, PortOp.send, Instr.postSend
      Source.host 0 (32769#64) wSend1 (240#64) 0), (2, PortOp.recv, Instr.postRecv Source.host 0 (32769#64) wSend1
      (240#64) 0), (3, PortOp.reduce, Instr.postReduce Source.host 0 (32769#64) wSend1 (240#64) 0), (4, PortOp.relay,
      Instr.postRelay Source.host 0 (32769#64) wSend1 (240#64) 0)]) ∧
    (pcieUp wPo = true) ∧
    (fld (32769#64).toNat 3 0 = 1) ∧
    (postBad (wPo.onPort 0 fun P => { P with post := [(0, 32769#64), (1, wSend1), (2, 240#64), (3, 0)] }) 0 (postWord
      (32769#64) wSend1 (240#64) 0) = true) ∧
    ((1, PortOp.send, Instr.postSend Source.host 0 wSend0 wSend1 (240#64) 0) ∈ [(1, PortOp.send, Instr.postSend
      Source.host 0 wSend0 wSend1 (240#64) 0), (2, PortOp.recv, Instr.postRecv Source.host 0 wSend0 wSend1 (240#64)
      0), (3, PortOp.reduce, Instr.postReduce Source.host 0 wSend0 wSend1 (240#64) 0), (4, PortOp.relay,
      Instr.postRelay Source.host 0 wSend0 wSend1 (240#64) 0)]) ∧
    (0 < 4) ∧
    (List.find? (entryDone wPd 0) (Tab.get [] (wPd.port 0).q 0) = some entD) ∧
    (1 < 4) ∧
    ((wPq.port 0).reqs = [(2, preq0)]) ∧
    (preq0.vc = 1) ∧
    (preq0.phase = ReqPhase.retry 900) ∧
    (900 ≤ wPq.now) := by and_intros <;> decide +kernel

/-- Premises of EntriesArePostedAndComplete: cfgNow, cfgNext. -/
theorem test_entriesArePostedAndComplete_applies_5 :
    (0 < 16) ∧
    ((1, PortOp.send, Instr.postSend Source.host 0 wSend0 wSend1 (240#64) 0) ∈ [(1, PortOp.send, Instr.postSend
      Source.host 0 wSend0 wSend1 (240#64) 0), (2, PortOp.recv, Instr.postRecv Source.host 0 wSend0 wSend1 (240#64)
      0), (3, PortOp.reduce, Instr.postReduce Source.host 0 wSend0 wSend1 (240#64) 0), (4, PortOp.relay,
      Instr.postRelay Source.host 0 wSend0 wSend1 (240#64) 0)]) ∧
    (pcieUp wPn = true) ∧
    (∀ (k : ℕ), portPart wPn 0 = some k → (wPn.job k).stepOpen = false) ∧
    (pcieUp wPo = true) ∧
    (portPart wPo 0 = some 0) ∧
    ((wPo.job 0).stepOpen = true) := by and_intros <;> decide +kernel

/-- Premises of EntriesArePostedAndComplete: postRecv. -/
theorem test_entriesArePostedAndComplete_applies_6 :
    (0 < 16) ∧
    ((2, PortOp.recv, Instr.postRecv Source.host 0 wRecv0 wRecv1 (256#64) 0) ∈ [(1, PortOp.send, Instr.postSend
      Source.host 0 wRecv0 wRecv1 (256#64) 0), (2, PortOp.recv, Instr.postRecv Source.host 0 wRecv0 wRecv1 (256#64)
      0), (3, PortOp.reduce, Instr.postReduce Source.host 0 wRecv0 wRecv1 (256#64) 0), (4, PortOp.relay,
      Instr.postRelay Source.host 0 wRecv0 wRecv1 (256#64) 0)]) ∧
    (pcieUp wPo = true) ∧
    (fld (BitVec.toNat wRecv0) 3 0 = 2) ∧
    (postBad (wPo.onPort 0 fun P => { P with post := [(0, wRecv0), (1, wRecv1), (2, 256#64), (3, 0)] }) 0 (postWord
      wRecv0 wRecv1 (256#64) 0) = false) ∧
    ((wPo.port 0).inReset = false) ∧
    ((Tab.get [] (wPo.port 0).q (fld (postWord wRecv0 wRecv1 (256#64) 0) 5 4)).length < 64) := by and_intros <;> decide +kernel

/-- Premises of EntriesArePostedAndComplete: postReduce. -/
theorem test_entriesArePostedAndComplete_applies_7 :
    (0 < 16) ∧
    ((3, PortOp.reduce, Instr.postReduce Source.host 0 wReduce0 wReduce1 (256#64) 0) ∈ [(1, PortOp.send,
      Instr.postSend Source.host 0 wReduce0 wReduce1 (256#64) 0), (2, PortOp.recv, Instr.postRecv Source.host 0
      wReduce0 wReduce1 (256#64) 0), (3, PortOp.reduce, Instr.postReduce Source.host 0 wReduce0 wReduce1 (256#64) 0),
      (4, PortOp.relay, Instr.postRelay Source.host 0 wReduce0 wReduce1 (256#64) 0)]) ∧
    (pcieUp wPo = true) ∧
    (fld (BitVec.toNat wReduce0) 3 0 = 3) ∧
    (postBad (wPo.onPort 0 fun P => { P with post := [(0, wReduce0), (1, wReduce1), (2, 256#64), (3, 0)] }) 0
      (postWord wReduce0 wReduce1 (256#64) 0) = false) ∧
    ((wPo.port 0).inReset = false) ∧
    ((Tab.get [] (wPo.port 0).q (fld (postWord wReduce0 wReduce1 (256#64) 0) 5 4)).length < 64) := by and_intros <;> decide +kernel

/-- Premises of EntriesArePostedAndComplete: postRelay. -/
theorem test_entriesArePostedAndComplete_applies_8 :
    (0 < 16) ∧
    ((4, PortOp.relay, Instr.postRelay Source.host 0 wRelay0 wRelay1 (256#64) 0) ∈ [(1, PortOp.send, Instr.postSend
      Source.host 0 wRelay0 wRelay1 (256#64) 0), (2, PortOp.recv, Instr.postRecv Source.host 0 wRelay0 wRelay1
      (256#64) 0), (3, PortOp.reduce, Instr.postReduce Source.host 0 wRelay0 wRelay1 (256#64) 0), (4, PortOp.relay,
      Instr.postRelay Source.host 0 wRelay0 wRelay1 (256#64) 0)]) ∧
    (pcieUp wPo = true) ∧
    (fld (BitVec.toNat wRelay0) 3 0 = 4) ∧
    (postBad (wPo.onPort 0 fun P => { P with post := [(0, wRelay0), (1, wRelay1), (2, 256#64), (3, 0)] }) 0 (postWord
      wRelay0 wRelay1 (256#64) 0) = false) ∧
    ((wPo.port 0).inReset = false) ∧
    ((Tab.get [] (wPo.port 0).q (fld (postWord wRelay0 wRelay1 (256#64) 0) 5 4)).length < 64) := by and_intros <;> decide +kernel

/-- Premises of StepsOpenDecideAndAreVoided: stepOpens, stepMismatch, reduced, applied, skipped, voided, voidedClosed,
gapVoid, gapEarly, tokenLate, noToken, rejoin, rejoinEarly, holdEnds, holdEarly. -/
theorem test_stepsOpenDecideAndAreVoided_applies_1 :
    (0 < 4) ∧
    ((wOpen.part 0).defined = true) ∧
    ((wOpen.job 0).hold = false) ∧
    ((wOpen.job 0).stepOpen = false) ∧
    ((wOpen.job 0).repeating = none) ∧
    (stepPanels wOpen 0 ≠ []) ∧
    (∀ p ∈ stepPanels wOpen 0, (∃ e ∈ (wOpen.job 0).begun, e.1 = p) ∧ Tab.get 0 (wOpen.job 0).begun p = 9) ∧
    ((wOpenBad.part 0).defined = true) ∧
    (2 ∈ stepPanels wOpenBad 0) ∧
    ((wOpenBad.job 0).hold = false) ∧
    ((wOpenBad.job 0).stepOpen = false) ∧
    ((wOpenBad.job 0).repeating = none) ∧
    (∀ p ∈ stepPanels wOpenBad 0, partOf wOpenBad p = some 0 ∧ ∃ e ∈ (wOpenBad.job 0).begun, e.1 = p) ∧
    (Tab.get 0 (wOpenBad.job 0).begun 2 ≠ Tab.get 0 (wOpenBad.job 0).begun (leadPanel wOpenBad 0)) ∧
    ((wDone.part 0).defined = true) ∧
    ((wDone.job 0).stepOpen = true) ∧
    ((wDone.job 0).nf = none) ∧
    (∀ p ∈ stepPanels wDone 0, Tab.get false (wDone.job 0).ended p = true) ∧
    (reduceLeft wDone 0 (wDone.job 0).n = false) ∧
    ((wApply.part 0).defined = true) ∧
    ((wApply.job 0).stepOpen = true) ∧
    ((wApply.job 0).back = some false) ∧
    ((wApply.job 0).nf = some false) ∧
    ((wSkip.part 0).defined = true) ∧
    ((wSkip.job 0).stepOpen = true) ∧
    ((wSkip.job 0).back = some true) ∧
    ((wSkip.job 0).nf = some true) ∧
    (0 < 16) ∧
    ((wVoid.part 0).defined = true) ∧
    (1 ≤ 5) ∧
    (5 ≤ 10) ∧
    ((wVoid.job 0).hold = false) ∧
    ((wVoidClosed.part 0).defined = true) ∧
    (1 ≤ 1) ∧
    (1 ≤ 10) ∧
    ((wVoidClosed.job 0).hold = false) ∧
    ((wGapR.part 0).defined = true) ∧
    (jobOf wGapR 0 = some 0) ∧
    ((wGapR.port 0).role = Role.reduce) ∧
    ((wGapR.job 0).stepOpen = true) ∧
    (entR ∈ (wGapR.port 0).entries) ∧
    (entR.op = PortOp.reduce) ∧
    (entR.step = (wGapR.job 0).n) ∧
    (entR.last = false) ∧
    (0 < entR.got) ∧
    ((wGapR.port 0).lastReduce + (wGapR.port 0).timeout ≤ wGapR.now) ∧
    ((wGapEarly.part 0).defined = true) ∧
    (jobOf wGapEarly 0 = some 0) ∧
    (wGapEarly.now < (wGapEarly.port 0).lastReduce + (wGapEarly.port 0).timeout) ∧
    ((wTokLate.part 0).defined = true) ∧
    ((wTokLate.job 0).stepOpen = true) ∧
    ((wTokLate.job 0).tokenAt = some 900) ∧
    ((wTokLate.job 0).back = none) ∧
    (commitPort wTokLate 0 = some 0) ∧
    (900 + (wTokLate.port 0).commitTimeout ≤ wTokLate.now) ∧
    ((wOpen.job 0).tokenAt = none) ∧
    ((wHold.part 0).defined = true) ∧
    (jobOf wHold 0 = some 0) ∧
    ((wHold.job 0).hold = true) ∧
    ((wHold.port 0).state = LnkState.up) ∧
    ((wHold.port 0).rejoinAt + 1024 ≤ wHold.now) ∧
    ((wHoldEarly.part 0).defined = true) ∧
    (jobOf wHoldEarly 0 = some 0) ∧
    (wHoldEarly.now < (wHoldEarly.port 0).rejoinAt + 1024) ∧
    ((wHoldEnd.part 0).defined = true) ∧
    ((wHoldEnd.job 0).hold = true) ∧
    ((wHoldEnd.job 0).down = false) ∧
    ((wHoldEnd.job 0).stopped = false) ∧
    (portsAgree wHoldEnd 0 = true) ∧
    ((wHoldEnd.job 0).resumeAt + 16384 ≤ wHoldEnd.now) ∧
    ((wHoldEnd.job 0).resume ≠ 4294967295) ∧
    (tooFar wHoldEnd 0 (wHoldEnd.job 0).resume = false) ∧
    (wHold.now < (wHold.job 0).resumeAt + 16384) := by and_intros <;> decide +kernel

/-- Premises of StepsOpenDecideAndAreVoided: holdDown. -/
theorem test_stepsOpenDecideAndAreVoided_applies_2 :
    (0 < 4) ∧
    (0 < 16) ∧
    ((wHoldDown.part 0).defined = true) ∧
    ((wHoldDown.job 0).down = true) := by and_intros <;> decide +kernel

/-- Premises of PanelsRestAndWake: restNap, restSleep, restLow, restActive, restNapCeiling. -/
theorem test_panelsRestAndWake_applies_1 :
    (0 < 64) ∧
    ((wNap.seq 0).state = SeqState.prest) ∧
    ((wNap.seq 0).prest = some (prec 4000000)) ∧
    ((prec 4000000).since = none) ∧
    (panelRuns (wNap.panel 0) = true) ∧
    (hangHolds wNap 0 = false) ∧
    (∀ n ∈ coresHeld wNap 0, coreAtRest wNap n = true) ∧
    (prestEvent wNap 0 { (prec 4000000) with since := some wNap.now } = false) ∧
    (ceilingOf wNap 0 = 2 ∨ ceilingOf wNap 0 = 3 ∧ ((prec 4000000).saveOk = false ∨ (prec 4000000).horizon < wcost
      wNap 0 3 + beven 0 3)) ∧
    (∀ n ∈ coresHeld wNap 0, (wNap.core n).outst = []) ∧
    ((wSleep.seq 0).state = SeqState.prest) ∧
    ((wSleep.seq 0).prest = some (prec 4000000)) ∧
    (panelRuns (wSleep.panel 0) = true) ∧
    (hangHolds wSleep 0 = false) ∧
    (∀ n ∈ coresHeld wSleep 0, coreAtRest wSleep n = true) ∧
    (prestEvent wSleep 0 { (prec 4000000) with since := some wSleep.now } = false) ∧
    (ceilingOf wSleep 0 = 3) ∧
    ((prec 4000000).saveOk = true) ∧
    (∀ n ∈ coresHeld wSleep 0, (wSleep.core n).outst = [] ∧ (wSleep.core n).m0.queue = [] ∧ (wSleep.core n).m1.queue
      = []) ∧
    ((wStay.seq 0).state = SeqState.prest) ∧
    ((wStay.seq 0).prest = some (prec 4000000)) ∧
    (panelRuns (wStay.panel 0) = true) ∧
    (hangHolds wStay 0 = false) ∧
    (∀ n ∈ coresHeld wStay 0, coreAtRest wStay n = true) ∧
    (prestEvent wStay 0 { (prec 4000000) with since := some wStay.now } = false) ∧
    (ceilingOf wStay 0 < 2) ∧
    (restChoice wStay 0 (prec 4000000) = PPower.active) ∧
    ((wNapCeil.seq 0).state = SeqState.prest) ∧
    ((wNapCeil.seq 0).prest = some precN) ∧
    (precN.since = none) ∧
    (panelRuns (wNapCeil.panel 0) = true) ∧
    (hangHolds wNapCeil 0 = false) ∧
    (∀ n ∈ coresHeld wNapCeil 0, coreAtRest wNapCeil n = true) ∧
    (prestEvent wNapCeil 0
      { kind := precN.kind, arg := precN.arg, horizon := precN.horizon, since := some wNapCeil.now, saveOk := precN.saveOk, pd := precN.pd, resting := precN.resting }
      = false) ∧
    (∀ n ∈ coresHeld wNapCeil 0, (wNapCeil.core n).outst = []) := by and_intros <;> decide +kernel

/-- Premises of PanelsRestAndWake: restShort, restEvent, restCore, wakes, wakeDeferred, wakesItself, awake. -/
theorem test_panelsRestAndWake_applies_2 :
    (0 < 64) ∧
    ((wShortHz.seq 0).state = SeqState.prest) ∧
    ((wShortHz.seq 0).prest = some (prec 49)) ∧
    ((prec 49).since = none) ∧
    (panelRuns (wShortHz.panel 0) = true) ∧
    (hangHolds wShortHz 0 = false) ∧
    (∀ n ∈ coresHeld wShortHz 0, coreAtRest wShortHz n = true) ∧
    (prestEvent wShortHz 0 { (prec 49) with since := some wShortHz.now } = false) ∧
    ((wRestEvent.seq 0).state = SeqState.prest) ∧
    ((wRestEvent.seq 0).prest = some (prec 4000000)) ∧
    ((prec 4000000).since = none) ∧
    (panelRuns (wRestEvent.panel 0) = true) ∧
    (hangHolds wRestEvent 0 = false) ∧
    (∀ n ∈ coresHeld wRestEvent 0, coreAtRest wRestEvent n = true) ∧
    (prestEvent wRestEvent 0 { (prec 4000000) with since := some wRestEvent.now } = true) ∧
    ((wCoreRuns.seq 0).state = SeqState.prest) ∧
    ((wCoreRuns.seq 0).prest = some (prec 4000000)) ∧
    (panelRuns (wCoreRuns.panel 0) = true) ∧
    (hangHolds wCoreRuns 0 = false) ∧
    (∃ n ∈ coresHeld wCoreRuns 0, coreAtRest wCoreRuns n = false) ∧
    ((wWakeN.panel 0).power = PPower.nap ∨ (wWakeN.panel 0).power = PPower.sleep) ∧
    ((wWakeN.panel 0).lost = false) ∧
    ((wWakeN.panel 0).shorted = false) ∧
    ((∃ (w : PanelWake), (wWakeN.panel 0).wake = some w ∧ w.deferred = false ∧ w.forced = false) ∨ (wWakeN.panel
      0).wake = none ∧ restCalls wWakeN 0 = true ∧ false = false) ∧
    (firstFits wWakeN = false) ∧
    (unitsInUse wWakeN + wakeUnits (wWakeN.panel 0).power ≤ 16) ∧
    ((wWakeFull.panel 0).power = PPower.nap ∨ (wWakeFull.panel 0).power = PPower.sleep) ∧
    ((wWakeFull.panel 0).lost = false) ∧
    ((wWakeFull.panel 0).shorted = false) ∧
    ((∃ (w : PanelWake), (wWakeFull.panel 0).wake = some w ∧ w.deferred = false ∧ w.forced = false) ∨
      (wWakeFull.panel 0).wake = none ∧ restCalls wWakeFull 0 = true ∧ false = false) ∧
    (firstFits wWakeFull = true ∨ 16 < unitsInUse wWakeFull + wakeUnits (wWakeFull.panel 0).power) ∧
    ((wWakeCall.panel 0).power = PPower.nap ∨ (wWakeCall.panel 0).power = PPower.sleep) ∧
    ((wWakeCall.panel 0).lost = false) ∧
    ((wWakeCall.panel 0).shorted = false) ∧
    ((∃ (w : PanelWake), (wWakeCall.panel 0).wake = some w ∧ w.deferred = false ∧ w.forced = false) ∨
      (wWakeCall.panel 0).wake = none ∧ restCalls wWakeCall 0 = true ∧ false = false) ∧
    (firstFits wWakeCall = false) ∧
    (unitsInUse wWakeCall + wakeUnits (wWakeCall.panel 0).power ≤ 16) ∧
    ((w0.panel 0).power = PPower.active) := by and_intros <;> decide +kernel

/-- Premises of CommandsAreLatchedOrTurnedAway: cmdPcie, cmdBusy, cmdState, cmdUndefined. -/
theorem test_commandsAreLatchedOrTurnedAway_applies :
    ((34, Instr.contextStop (cmdA 0 0 0 0)) ∈ [(1, Instr.identify (cmdA 0 0 0 0)), (2, Instr.sessionOpen (cmdA 0 0 0
      0)), (3, Instr.sessionResume (cmdA 0 0 0 0)), (4, Instr.sessionClose (cmdA 0 0 0 0)), (5, Instr.attest (cmdA 0
      0 0 0)), (16, Instr.partitionDefine (cmdA 0 0 0 0)), (17, Instr.partitionPower (cmdA 0 0 0 0)), (18,
      Instr.panelWave (cmdA 0 0 0 0)), (19, Instr.gaugeCheck (cmdA 0 0 0 0)), (32, Instr.loadImage (cmdA 0 0 0 0)),
      (33, Instr.contextLaunch (cmdA 0 0 0 0)), (34, Instr.contextStop (cmdA 0 0 0 0)), (35, Instr.stepRelease (cmdA
      0 0 0 0)), (48, Instr.linkTrain (cmdA 0 0 0 0)), (49, Instr.linkRole (cmdA 0 0 0 0)), (64, Instr.reset (cmdA 0
      0 0 0)), (65, Instr.bindOff (cmdA 0 0 0 0)), (80, Instr.darn (cmdA 0 0 0 0)), (81, Instr.fence (cmdA 0 0 0 0)),
      (82, Instr.retirePage (cmdA 0 0 0 0)), (83, Instr.scrub (cmdA 0 0 0 0)), (84, Instr.zeroize (cmdA 0 0 0 0)),
      (96, Instr.debugUnlock (cmdA 0 0 0 0)), (97, Instr.debugLock (cmdA 0 0 0 0)), (112, Instr.firmwareUpdate (cmdA
      0 0 0 0)), (113, Instr.recoveryImage (cmdA 0 0 0 0))]) ∧
    (pcieUp wPcie = false) ∧
    (pcieUp (wWin winE 1000) = true) ∧
    ((wWin winE 1000).host.win = some winE) ∧
    (pcieUp wCast = true) ∧
    (wCast.host.win = none) ∧
    (stateAllows wCast 34 = false) ∧
    (opMeaning (6#8).toNat = none) := by and_intros <;> decide +kernel

/-- Premises of PartitionLinkAndSessionCommands: identify, partDefine, partMirror. -/
theorem test_partitionLinkAndSessionCommands_applies_1 :
    (pcieUp wC0 = true) ∧
    (wC0.host.win = none) ∧
    (wC0.mstate = ModState.ready) ∧
    (argsFrom (cmdA 0 0 0 0) 0 = false) ∧
    (strays (BitVec.toNat (cmdA 33619968 0 0 0).a0) 2205644547 = false) ∧
    (argsFrom (cmdA 33619968 0 0 0) 1 = false) ∧
    ((wC0.part (fld (BitVec.toNat (cmdA 33619968 0 0 0).a0) 1 0)).cmd = none) ∧
    ((BitVec.toNat (cmdA 33619968 0 0 0).a0).testBit 31 = false) ∧
    ((BitVec.toNat (cmdA 33619968 0 0 0).a0).testBit 24 = true → (fld (BitVec.toNat (cmdA 33619968 0 0 0).a0) 18 16 +
      1 - fld (BitVec.toNat (cmdA 33619968 0 0 0).a0) 10 8) * (fld (BitVec.toNat (cmdA 33619968 0 0 0).a0) 22 20 + 1
      - fld (BitVec.toNat (cmdA 33619968 0 0 0).a0) 14 12) % 2 = 0) ∧
    (fld (BitVec.toNat (cmdA 33619968 0 0 0).a0) 10 8 ≤ fld (BitVec.toNat (cmdA 33619968 0 0 0).a0) 18 16) ∧
    (fld (BitVec.toNat (cmdA 33619968 0 0 0).a0) 14 12 ≤ fld (BitVec.toNat (cmdA 33619968 0 0 0).a0) 22 20) ∧
    ((wC0.part (fld (BitVec.toNat (cmdA 33619968 0 0 0).a0) 1 0)).defined = false) ∧
    (∀ p < 64, fld (BitVec.toNat (cmdA 33619968 0 0 0).a0) 10 8 ≤ p % 8 → p % 8 ≤ fld (BitVec.toNat (cmdA 33619968 0
      0 0).a0) 18 16 → fld (BitVec.toNat (cmdA 33619968 0 0 0).a0) 14 12 ≤ p / 8 → p / 8 ≤ fld (BitVec.toNat (cmdA
      33619968 0 0 0).a0) 22 20 → partOf wC0 p = none) ∧
    (strays (BitVec.toNat (cmdA 16842752 0 0 0).a0) 2205644547 = false) ∧
    (argsFrom (cmdA 16842752 0 0 0) 1 = false) ∧
    ((wC0.part (fld (BitVec.toNat (cmdA 16842752 0 0 0).a0) 1 0)).cmd = none) ∧
    ((BitVec.toNat (cmdA 16842752 0 0 0).a0).testBit 31 = false) ∧
    ((BitVec.toNat (cmdA 16842752 0 0 0).a0).testBit 24 = true → (fld (BitVec.toNat (cmdA 16842752 0 0 0).a0) 18 16 +
      1 - fld (BitVec.toNat (cmdA 16842752 0 0 0).a0) 10 8) * (fld (BitVec.toNat (cmdA 16842752 0 0 0).a0) 22 20 + 1
      - fld (BitVec.toNat (cmdA 16842752 0 0 0).a0) 14 12) % 2 = 0) ∧
    (fld (BitVec.toNat (cmdA 16842752 0 0 0).a0) 10 8 ≤ fld (BitVec.toNat (cmdA 16842752 0 0 0).a0) 18 16) ∧
    (fld (BitVec.toNat (cmdA 16842752 0 0 0).a0) 14 12 ≤ fld (BitVec.toNat (cmdA 16842752 0 0 0).a0) 22 20) ∧
    ((wC0.part (fld (BitVec.toNat (cmdA 16842752 0 0 0).a0) 1 0)).defined = false) ∧
    (∀ p < 64, fld (BitVec.toNat (cmdA 16842752 0 0 0).a0) 10 8 ≤ p % 8 → p % 8 ≤ fld (BitVec.toNat (cmdA 16842752 0
      0 0).a0) 18 16 → fld (BitVec.toNat (cmdA 16842752 0 0 0).a0) 14 12 ≤ p / 8 → p / 8 ≤ fld (BitVec.toNat (cmdA
      16842752 0 0 0).a0) 22 20 → partOf wC0 p = none) := by and_intros <;> decide +kernel

/-- Premises of PartitionLinkAndSessionCommands: partRemove, partPower, partOff. -/
theorem test_partitionLinkAndSessionCommands_applies_2 :
    (pcieUp wCn = true) ∧
    (wCn.host.win = none) ∧
    (wCn.mstate = ModState.ready) ∧
    (strays (BitVec.toNat (cmdA 2147483648 0 0 0).a0) 2205644547 = false) ∧
    (argsFrom (cmdA 2147483648 0 0 0) 1 = false) ∧
    ((wCn.part (fld (BitVec.toNat (cmdA 2147483648 0 0 0).a0) 1 0)).cmd = none) ∧
    ((BitVec.toNat (cmdA 2147483648 0 0 0).a0).testBit 31 = true) ∧
    ((wCn.part (fld (BitVec.toNat (cmdA 2147483648 0 0 0).a0) 1 0)).defined = true) ∧
    ((wCn.part (fld (BitVec.toNat (cmdA 2147483648 0 0 0).a0) 1 0)).session = Session.none ∨ (wCn.part (fld
      (BitVec.toNat (cmdA 2147483648 0 0 0).a0) 1 0)).session = Session.closed) ∧
    (wCn.ubide.dbg ≠ 2) ∧
    (pcieUp wC1 = true) ∧
    (wC1.host.win = none) ∧
    (wC1.mstate = ModState.ready) ∧
    (strays (BitVec.toNat (cmdA 4608 0 0 0).a0) 13059 = false) ∧
    (argsFrom (cmdA 4608 0 0 0) 1 = false) ∧
    (fld (BitVec.toNat (cmdA 4608 0 0 0).a0) 9 8 ≠ 3) ∧
    ((wC1.part (fld (BitVec.toNat (cmdA 4608 0 0 0).a0) 1 0)).defined = true) ∧
    ((wC1.part (fld (BitVec.toNat (cmdA 4608 0 0 0).a0) 1 0)).cmd = none) ∧
    (fld (BitVec.toNat (cmdA 4608 0 0 0).a0) 9 8 = 0 ∨ wC1.power.tripPin = false) ∧
    (fld (BitVec.toNat (cmdA 4608 0 0 0).a0) 9 8 = 0 → (wC1.part (fld (BitVec.toNat (cmdA 4608 0 0 0).a0) 1
      0)).session ≠ Session.opened ∧ (wC1.part (fld (BitVec.toNat (cmdA 4608 0 0 0).a0) 1 0)).session ≠
      Session.suspended) ∧
    (fld (BitVec.toNat (cmdA 4608 0 0 0).a0) 9 8 ≤ 1 → partResident wC1 (fld (BitVec.toNat (cmdA 4608 0 0 0).a0) 1 0)
      = false) ∧
    (strays (BitVec.toNat (cmdA 8192 0 0 0).a0) 13059 = false) ∧
    (argsFrom (cmdA 8192 0 0 0) 1 = false) ∧
    (fld (BitVec.toNat (cmdA 8192 0 0 0).a0) 9 8 ≠ 3) ∧
    ((wCn.part (fld (BitVec.toNat (cmdA 8192 0 0 0).a0) 1 0)).defined = true) ∧
    ((wCn.part (fld (BitVec.toNat (cmdA 8192 0 0 0).a0) 1 0)).cmd = none) ∧
    (fld (BitVec.toNat (cmdA 8192 0 0 0).a0) 9 8 = 0 ∨ wCn.power.tripPin = false) ∧
    (fld (BitVec.toNat (cmdA 8192 0 0 0).a0) 9 8 = 0 → (wCn.part (fld (BitVec.toNat (cmdA 8192 0 0 0).a0) 1
      0)).session ≠ Session.opened ∧ (wCn.part (fld (BitVec.toNat (cmdA 8192 0 0 0).a0) 1 0)).session ≠
      Session.suspended) ∧
    (fld (BitVec.toNat (cmdA 8192 0 0 0).a0) 9 8 ≤ 1 → partResident wCn (fld (BitVec.toNat (cmdA 8192 0 0 0).a0) 1 0)
      = false) := by and_intros <;> decide +kernel

/-- Premises of PartitionLinkAndSessionCommands: partRest, wave, waveOne, gaugeOk, gaugeBad, linkTrain, linkTrainUp.
-/
theorem test_partitionLinkAndSessionCommands_applies_3 :
    (pcieUp wC1 = true) ∧
    (wC1.host.win = none) ∧
    (wC1.mstate = ModState.ready) ∧
    (strays (BitVec.toNat (cmdA 12544 0 0 0).a0) 13059 = false) ∧
    (argsFrom (cmdA 12544 0 0 0) 1 = false) ∧
    (fld (BitVec.toNat (cmdA 12544 0 0 0).a0) 9 8 ≠ 3) ∧
    ((wC1.part (fld (BitVec.toNat (cmdA 12544 0 0 0).a0) 1 0)).defined = true) ∧
    ((wC1.part (fld (BitVec.toNat (cmdA 12544 0 0 0).a0) 1 0)).cmd = none) ∧
    (fld (BitVec.toNat (cmdA 12544 0 0 0).a0) 9 8 = 0 ∨ wC1.power.tripPin = false) ∧
    (fld (BitVec.toNat (cmdA 12544 0 0 0).a0) 9 8 = 0 → (wC1.part (fld (BitVec.toNat (cmdA 12544 0 0 0).a0) 1
      0)).session ≠ Session.opened ∧ (wC1.part (fld (BitVec.toNat (cmdA 12544 0 0 0).a0) 1 0)).session ≠
      Session.suspended) ∧
    (fld (BitVec.toNat (cmdA 12544 0 0 0).a0) 9 8 ≤ 1 → partResident wC1 (fld (BitVec.toNat (cmdA 12544 0 0 0).a0) 1
      0) = false) ∧
    (pcieUp wWaveP = true) ∧
    (wWaveP.host.win = none) ∧
    (wWaveP.mstate = ModState.ready) ∧
    (3 ∈ List.filter (fun (p : ℕ) => (BitVec.toNat (cmdA 8 0 0 0).a0).testBit p) allPanels) ∧
    (raisable (wWaveP.panel 3) = true) ∧
    (argsFrom (cmdA 8 0 0 0) 1 = false) ∧
    (wWaveP.power.tripPin = false) ∧
    (∀ p ∈ List.filter (fun (p : ℕ) => (BitVec.toNat (cmdA 8 0 0 0).a0).testBit p) allPanels, inAutoWave wWaveP p =
      false) ∧
    ((List.filter (fun (p : ℕ) => (wWaveP.panel p).lost || decide ((wWaveP.panel p).power = PPower.off)) (List.filter
      (fun (p : ℕ) => (BitVec.toNat (cmdA 8 0 0 0).a0).testBit p) allPanels)).length ≤ 4) ∧
    (3 < 64) ∧
    (BitVec.toNat (cmdA 8 0 0 0).a0 = 2 ^ 3) ∧
    (inAutoWave wWaveP 3 = false) ∧
    ((wWaveP.panel 3).power = PPower.off) ∧
    ((wWaveP.panel 3).lost = false) ∧
    ((wWaveP.panel 3).bring = Bring.none) ∧
    (wWaveP.power.deferred = []) ∧
    (unitsInUse wWaveP ≤ 12) ∧
    (pcieUp wC0 = true) ∧
    (wC0.host.win = none) ∧
    (wC0.mstate = ModState.ready) ∧
    (argsFrom (cmdA 0 0 0 0) 0 = false) ∧
    (gaugeDiffs wC0 (broughtPanels wC0 allPanels) wC0.cast.failed = []) ∧
    (pcieUp wGaugeD = true) ∧
    (wGaugeD.host.win = none) ∧
    (wGaugeD.mstate = ModState.ready) ∧
    (gaugeDiffs wGaugeD (broughtPanels wGaugeD allPanels) wGaugeD.cast.failed ≠ []) ∧
    (pcieUp wTr1 = true) ∧
    (wTr1.host.win = none) ∧
    (wTr1.mstate = ModState.ready) ∧
    (0 < 16) ∧
    (BitVec.toNat (cmdA 1 0 0 0).a0 = 2 ^ 0) ∧
    (argsFrom (cmdA 1 0 0 0) 1 = false) ∧
    ((wTr1.port 0).state = LnkState.down ∨ (wTr1.port 0).state = LnkState.mismatch) ∧
    ((wTr1.port 0).role ≠ Role.off) ∧
    ((wTr1.port 0).inReset = false) ∧
    (pcieUp wTrUp = true) ∧
    (wTrUp.host.win = none) ∧
    (wTrUp.mstate = ModState.ready) ∧
    ((wTrUp.port 0).state = LnkState.up) := by and_intros <;> decide +kernel

/-- Premises of PartitionLinkAndSessionCommands: linkOff, linkRole, linkJob. -/
theorem test_partitionLinkAndSessionCommands_applies_4 :
    (pcieUp wRole = true) ∧
    (wRole.host.win = none) ∧
    (wRole.mstate = ModState.ready) ∧
    (strays (BitVec.toNat (cmdA 458752 0 0 0).a0) 4294902015 = false) ∧
    (argsFrom (cmdA 458752 0 0 0) 1 = false) ∧
    (portPart wRole (fld (BitVec.toNat (cmdA 458752 0 0 0).a0) 3 0) = some 0) ∧
    ((wRole.part 0).cmd = none) ∧
    ((wRole.port (fld (BitVec.toNat (cmdA 458752 0 0 0).a0) 3 0)).entries = []) ∧
    ((wRole.job 0).stepOpen = false) ∧
    (portGone wRole (fld (BitVec.toNat (cmdA 458752 0 0 0).a0) 3 0) = false) ∧
    ((wRole.port (fld (BitVec.toNat (cmdA 458752 0 0 0).a0) 3 0)).state = LnkState.off ∨ (wRole.port (fld
      (BitVec.toNat (cmdA 458752 0 0 0).a0) 3 0)).state = LnkState.down) ∧
    (fld (BitVec.toNat (cmdA 458752 0 0 0).a0) 6 4 = 0) ∧
    (strays (BitVec.toNat (cmdA 458816 0 0 0).a0) 4294902015 = false) ∧
    (argsFrom (cmdA 458816 0 0 0) 1 = false) ∧
    (portPart wRole (fld (BitVec.toNat (cmdA 458816 0 0 0).a0) 3 0) = some 0) ∧
    ((wRole.port (fld (BitVec.toNat (cmdA 458816 0 0 0).a0) 3 0)).entries = []) ∧
    (portGone wRole (fld (BitVec.toNat (cmdA 458816 0 0 0).a0) 3 0) = false) ∧
    ((wRole.port (fld (BitVec.toNat (cmdA 458816 0 0 0).a0) 3 0)).state = LnkState.off) ∧
    (fld (BitVec.toNat (cmdA 458816 0 0 0).a0) 6 4 = 4) ∧
    (strays (BitVec.toNat (cmdA 458896 0 0 0).a0) 4294902015 = false) ∧
    (argsFrom (cmdA 458896 0 0 0) 1 = false) ∧
    (portPart wRole (fld (BitVec.toNat (cmdA 458896 0 0 0).a0) 3 0) = some 0) ∧
    ((wRole.port (fld (BitVec.toNat (cmdA 458896 0 0 0).a0) 3 0)).entries = []) ∧
    (portGone wRole (fld (BitVec.toNat (cmdA 458896 0 0 0).a0) 3 0) = false) ∧
    ((wRole.port (fld (BitVec.toNat (cmdA 458896 0 0 0).a0) 3 0)).state = LnkState.off) ∧
    (1 ≤ fld (BitVec.toNat (cmdA 458896 0 0 0).a0) 6 4) ∧
    (fld (BitVec.toNat (cmdA 458896 0 0 0).a0) 6 4 ≤ 3) ∧
    ((wRole.part 0).session = Session.opened) := by and_intros <;> decide +kernel

/-- Premises of PartitionLinkAndSessionCommands: linkSameJob, linkRepeats, open0. -/
theorem test_partitionLinkAndSessionCommands_applies_5 :
    (pcieUp wRole = true) ∧
    (wRole.host.win = none) ∧
    (wRole.mstate = ModState.ready) ∧
    (strays (BitVec.toNat (cmdA 48 0 0 0).a0) 4294902015 = false) ∧
    (argsFrom (cmdA 48 0 0 0) 1 = false) ∧
    (portPart wRole (fld (BitVec.toNat (cmdA 48 0 0 0).a0) 3 0) = some 0) ∧
    ((wRole.part 0).cmd = none) ∧
    ((wRole.port (fld (BitVec.toNat (cmdA 48 0 0 0).a0) 3 0)).entries = []) ∧
    ((wRole.job 0).stepOpen = false) ∧
    (portGone wRole (fld (BitVec.toNat (cmdA 48 0 0 0).a0) 3 0) = false) ∧
    ((wRole.port (fld (BitVec.toNat (cmdA 48 0 0 0).a0) 3 0)).state = LnkState.off) ∧
    (1 ≤ fld (BitVec.toNat (cmdA 48 0 0 0).a0) 6 4) ∧
    (fld (BitVec.toNat (cmdA 48 0 0 0).a0) 6 4 ≤ 3) ∧
    ((wRole.part 0).session = Session.opened) ∧
    (pcieUp wRoleRec = true) ∧
    (wRoleRec.host.win = none) ∧
    (wRoleRec.mstate = ModState.ready) ∧
    (strays (BitVec.toNat (cmdA 16 0 0 0).a0) 4294902015 = false) ∧
    (argsFrom (cmdA 16 0 0 0) 1 = false) ∧
    (portPart wRoleRec (fld (BitVec.toNat (cmdA 16 0 0 0).a0) 3 0) = some 0) ∧
    ((wRoleRec.part 0).cmd = none) ∧
    ((wRoleRec.port (fld (BitVec.toNat (cmdA 16 0 0 0).a0) 3 0)).entries = []) ∧
    ((wRoleRec.job 0).stepOpen = false) ∧
    (portGone wRoleRec (fld (BitVec.toNat (cmdA 16 0 0 0).a0) 3 0) = false) ∧
    ((wRoleRec.port (fld (BitVec.toNat (cmdA 16 0 0 0).a0) 3 0)).state = LnkState.off) ∧
    (1 ≤ fld (BitVec.toNat (cmdA 16 0 0 0).a0) 6 4) ∧
    (fld (BitVec.toNat (cmdA 16 0 0 0).a0) 6 4 ≤ 3) ∧
    ((wRoleRec.part 0).session = Session.opened) ∧
    (pcieUp wOpen0 = true) ∧
    (wOpen0.host.win = none) ∧
    (wOpen0.mstate = ModState.ready) ∧
    (strays (BitVec.toNat (cmdA 0 0 0 0).a0) 1843 = false) ∧
    (argsFrom (cmdA 0 0 0 0) 1 = false) ∧
    ((wOpen0.part (fld (BitVec.toNat (cmdA 0 0 0 0).a0) 1 0)).cmd = none) ∧
    (wOpen0.ubide.dbg ≠ 3) ∧
    (wOpen0.ubide.life = Life.provisioned) ∧
    (locked wOpen0 = false) ∧
    ((Instr.sessionOpen (cmdA 0 0 0 0), 2, false) ∈ [(Instr.sessionOpen (cmdA 0 0 0 0), 2, false),
      (Instr.sessionResume (cmdA 0 0 0 0), 3, true)]) ∧
    (authState wOpen0 (fld (BitVec.toNat (cmdA 0 0 0 0).a0) 1 0) false = true) ∧
    ((BitVec.toNat (cmdA 0 0 0 0).a0).testBit 4 = false) := by and_intros <;> decide +kernel

/-- Premises of PartitionLinkAndSessionCommands: openGood, openBad, resumeGood, sessionClose. -/
theorem test_partitionLinkAndSessionCommands_applies_6 :
    (pcieUp wOpen1 = true) ∧
    (wOpen1.host.win = none) ∧
    (wOpen1.mstate = ModState.ready) ∧
    (strays (BitVec.toNat (cmdA 16 0 0 0).a0) 1843 = false) ∧
    (argsFrom (cmdA 16 0 0 0) 1 = false) ∧
    ((wOpen1.part (fld (BitVec.toNat (cmdA 16 0 0 0).a0) 1 0)).cmd = none) ∧
    (wOpen1.ubide.dbg ≠ 3) ∧
    (wOpen1.ubide.life = Life.provisioned) ∧
    (locked wOpen1 = false) ∧
    ((Instr.sessionOpen (cmdA 16 0 0 0), 2, false) ∈ [(Instr.sessionOpen (cmdA 16 0 0 0), 2, false),
      (Instr.sessionResume (cmdA 16 0 0 0), 3, true)]) ∧
    (authState wOpen1 (fld (BitVec.toNat (cmdA 16 0 0 0).a0) 1 0) false = true) ∧
    ((BitVec.toNat (cmdA 16 0 0 0).a0).testBit 4 = true) ∧
    (wOpen1.ubide.challenge = some ch0) ∧
    (wOpen1.now ≤ ch0.since + 10 ^ 9) ∧
    (ch0.n = fld (BitVec.toNat (cmdA 16 0 0 0).a0) 1 0) ∧
    (ch0.byKey = (BitVec.toNat (cmdA 16 0 0 0).a0).testBit 5) ∧
    (ch0.idx = fld (BitVec.toNat (cmdA 16 0 0 0).a0) 10 8) ∧
    (proofOk wOpen1 ch0 = true) ∧
    (pcieUp wOpen2 = true) ∧
    (wOpen2.host.win = none) ∧
    (wOpen2.mstate = ModState.ready) ∧
    ((wOpen2.part (fld (BitVec.toNat (cmdA 16 0 0 0).a0) 1 0)).cmd = none) ∧
    (wOpen2.ubide.dbg ≠ 3) ∧
    (wOpen2.ubide.life = Life.provisioned) ∧
    (locked wOpen2 = false) ∧
    (authState wOpen2 (fld (BitVec.toNat (cmdA 16 0 0 0).a0) 1 0) false = true) ∧
    (wOpen2.ubide.challenge = some ch0) ∧
    (wOpen2.now ≤ ch0.since + 10 ^ 9) ∧
    (proofOk wOpen2 ch0 = false) ∧
    (pcieUp wRes1 = true) ∧
    (wRes1.host.win = none) ∧
    (wRes1.mstate = ModState.ready) ∧
    ((wRes1.part (fld (BitVec.toNat (cmdA 16 0 0 0).a0) 1 0)).cmd = none) ∧
    (wRes1.ubide.dbg ≠ 3) ∧
    (wRes1.ubide.life = Life.provisioned) ∧
    (locked wRes1 = false) ∧
    ((Instr.sessionResume (cmdA 16 0 0 0), 3, true) ∈ [(Instr.sessionOpen (cmdA 16 0 0 0), 2, false),
      (Instr.sessionResume (cmdA 16 0 0 0), 3, true)]) ∧
    (authState wRes1 (fld (BitVec.toNat (cmdA 16 0 0 0).a0) 1 0) true = true) ∧
    (wRes1.ubide.challenge = some ch0) ∧
    (wRes1.now ≤ ch0.since + 10 ^ 9) ∧
    (proofOk wRes1 ch0 = true) ∧
    (pcieUp wC1 = true) ∧
    (wC1.host.win = none) ∧
    (wC1.mstate = ModState.ready) ∧
    (strays (BitVec.toNat (cmdA 0 0 0 0).a0) 259 = false) ∧
    (argsFrom (cmdA 0 0 0 0) 1 = false) ∧
    ((wC1.part (fld (BitVec.toNat (cmdA 0 0 0 0).a0) 1 0)).cmd = none) ∧
    ((wC1.part (fld (BitVec.toNat (cmdA 0 0 0 0).a0) 1 0)).session = Session.opened) ∧
    ((BitVec.toNat (cmdA 0 0 0 0).a0).testBit 8 = true ∨ pstate wC1 (fld (BitVec.toNat (cmdA 0 0 0 0).a0) 1 0) = 3) ∧
    (restingOf wC1 (fld (BitVec.toNat (cmdA 0 0 0 0).a0) 1 0) = []) := by and_intros <;> decide +kernel

/-- Premises of PartitionLinkAndSessionCommands: sessionForced, attest. -/
theorem test_partitionLinkAndSessionCommands_applies_7 :
    (pcieUp wRestS = true) ∧
    (wRestS.host.win = none) ∧
    (wRestS.mstate = ModState.ready) ∧
    (strays (BitVec.toNat (cmdA 256 0 0 0).a0) 259 = false) ∧
    (argsFrom (cmdA 256 0 0 0) 1 = false) ∧
    ((wRestS.part (fld (BitVec.toNat (cmdA 256 0 0 0).a0) 1 0)).cmd = none) ∧
    ((wRestS.part (fld (BitVec.toNat (cmdA 256 0 0 0).a0) 1 0)).session = Session.opened) ∧
    ((BitVec.toNat (cmdA 256 0 0 0).a0).testBit 8 = true ∨ pstate wRestS (fld (BitVec.toNat (cmdA 256 0 0 0).a0) 1 0)
      = 3) ∧
    (restingOf wRestS (fld (BitVec.toNat (cmdA 256 0 0 0).a0) 1 0) ≠ []) ∧
    (pcieUp wC0 = true) ∧
    (wC0.host.win = none) ∧
    (wC0.mstate = ModState.ready) ∧
    (argsFrom (cmdA 1 2 3 4) 4 = false) := by and_intros <;> decide +kernel

/-- Premises of ContextAndStepCommandsAndTheirEnd: launch, launchRect, stop. -/
theorem test_contextAndStepCommandsAndTheirEnd_applies_1 :
    (pcieUp wLn = true) ∧
    (wLn.host.win = none) ∧
    (wLn.mstate = ModState.ready) ∧
    ((wLn.part (fld (BitVec.toNat (cmdA 0 0 0 0).a0) 1 0)).cmd = none) ∧
    ((wLn.part (fld (BitVec.toNat (cmdA 0 0 0 0).a0) 1 0)).session = Session.opened) ∧
    (rectOf (BitVec.toNat (cmdA 0 0 0 0).a1) = some rect1) ∧
    (rectIn (wLn.part (fld (BitVec.toNat (cmdA 0 0 0 0).a0) 1 0)) rect1 = true) ∧
    (strays (BitVec.toNat (cmdA 0 0 0 0).a0) 130867 = false) ∧
    (strays (BitVec.toNat (cmdA 0 0 0 0).a2) 1048575 = false) ∧
    ((cmdA 0 0 0 0).a3 = 0) ∧
    (∀ p ∈ rect1.panels, (wLn.panel p).hub.split = Split.basic ∧ (wLn.panel p).hub.next = none ∧ ((BitVec.toNat (cmdA
      0 0 0 0).a0).testBit 16 = true → (wLn.seq p).startable = true)) ∧
    (∀ n ∈ rect1.cores, panelRuns (wLn.panel (panelOf n)) = true ∧ isDead wLn n = false ∧ (wLn.ctxAt n (fld
      (BitVec.toNat (cmdA 0 0 0 0).a0) 5 4)).resident = false ∧ regionOk (wLn.core n) (fld (BitVec.toNat (cmdA 0 0 0
      0).a0) 11 8) = true) ∧
    (pcieUp wLn2 = true) ∧
    (wLn2.host.win = none) ∧
    (wLn2.mstate = ModState.ready) ∧
    ((wLn2.part (fld (BitVec.toNat (cmdA 65552 65536 5 0).a0) 1 0)).cmd = none) ∧
    ((wLn2.part (fld (BitVec.toNat (cmdA 65552 65536 5 0).a0) 1 0)).session = Session.opened) ∧
    (rectOf (BitVec.toNat (cmdA 65552 65536 5 0).a1) = some rect2) ∧
    (rectIn (wLn2.part (fld (BitVec.toNat (cmdA 65552 65536 5 0).a0) 1 0)) rect2 = true) ∧
    (strays (BitVec.toNat (cmdA 65552 65536 5 0).a0) 130867 = false) ∧
    (strays (BitVec.toNat (cmdA 65552 65536 5 0).a2) 1048575 = false) ∧
    ((cmdA 65552 65536 5 0).a3 = 0) ∧
    (∀ p ∈ rect2.panels, (wLn2.panel p).hub.split = Split.basic ∧ (wLn2.panel p).hub.next = none ∧ ((BitVec.toNat
      (cmdA 65552 65536 5 0).a0).testBit 16 = true → (wLn2.seq p).startable = true)) ∧
    (∀ n ∈ rect2.cores, panelRuns (wLn2.panel (panelOf n)) = true ∧ isDead wLn2 n = false ∧ (wLn2.ctxAt n (fld
      (BitVec.toNat (cmdA 65552 65536 5 0).a0) 5 4)).resident = false ∧ regionOk (wLn2.core n) (fld (BitVec.toNat
      (cmdA 65552 65536 5 0).a0) 11 8) = true) ∧
    (pcieUp wLnRun = true) ∧
    (wLnRun.host.win = none) ∧
    (wLnRun.mstate = ModState.ready) ∧
    ((wLnRun.part (fld (BitVec.toNat (cmdA 0 0 0 0).a0) 1 0)).cmd = none) ∧
    ((wLnRun.part (fld (BitVec.toNat (cmdA 0 0 0 0).a0) 1 0)).session = Session.opened) ∧
    (rectIn (wLnRun.part (fld (BitVec.toNat (cmdA 0 0 0 0).a0) 1 0)) rect1 = true) ∧
    (strays (BitVec.toNat (cmdA 0 0 0 0).a0) 307 = false) ∧
    (argsFrom (cmdA 0 0 0 0) 2 = false) := by and_intros <;> decide +kernel

/-- Premises of ContextAndStepCommandsAndTheirEnd: stopSeq, zero, release, releaseHold. -/
theorem test_contextAndStepCommandsAndTheirEnd_applies_2 :
    (pcieUp wLnRun = true) ∧
    (wLnRun.host.win = none) ∧
    (wLnRun.mstate = ModState.ready) ∧
    ((wLnRun.part (fld (BitVec.toNat (cmdA 256 65536 0 0).a0) 1 0)).cmd = none) ∧
    ((wLnRun.part (fld (BitVec.toNat (cmdA 256 65536 0 0).a0) 1 0)).session = Session.opened) ∧
    (rectOf (BitVec.toNat (cmdA 256 65536 0 0).a1) = some rect2) ∧
    (rectIn (wLnRun.part (fld (BitVec.toNat (cmdA 256 65536 0 0).a0) 1 0)) rect2 = true) ∧
    (strays (BitVec.toNat (cmdA 256 65536 0 0).a0) 307 = false) ∧
    (argsFrom (cmdA 256 65536 0 0) 2 = false) ∧
    (pcieUp wLn2 = true) ∧
    (wLn2.host.win = none) ∧
    (wLn2.mstate = ModState.ready) ∧
    ((wLn2.part (fld (BitVec.toNat (cmdA 0 65536 0 0).a0) 1 0)).cmd = none) ∧
    ((wLn2.part (fld (BitVec.toNat (cmdA 0 65536 0 0).a0) 1 0)).session = Session.opened) ∧
    (rectOf (BitVec.toNat (cmdA 0 65536 0 0).a1) = some rect2) ∧
    (rectIn (wLn2.part (fld (BitVec.toNat (cmdA 0 65536 0 0).a0) 1 0)) rect2 = true) ∧
    (strays (BitVec.toNat (cmdA 0 65536 0 0).a0) 3 = false) ∧
    (argsFrom (cmdA 0 65536 0 0) 2 = false) ∧
    (pstate wLn2 (fld (BitVec.toNat (cmdA 0 65536 0 0).a0) 1 0) = 3) ∧
    (∀ n ∈ rect2.cores, (wLn2.core n).residents = false) ∧
    (pcieUp wRel = true) ∧
    (wRel.host.win = none) ∧
    (wRel.mstate = ModState.ready) ∧
    ((wRel.part (fld (BitVec.toNat (cmdA 0 0 0 0).a0) 1 0)).cmd = none) ∧
    ((wRel.part (fld (BitVec.toNat (cmdA 0 0 0 0).a0) 1 0)).session = Session.opened) ∧
    (strays (BitVec.toNat (cmdA 0 0 0 0).a0) 3 = false) ∧
    (argsFrom (cmdA 0 0 0 0) 1 = false) ∧
    (wRel.hang.active = false) ∧
    ((wRel.job (fld (BitVec.toNat (cmdA 0 0 0 0).a0) 1 0)).hold = false) ∧
    (pstate wRel (fld (BitVec.toNat (cmdA 0 0 0 0).a0) 1 0) = 4) ∧
    (pcieUp wRelHold = true) ∧
    (wRelHold.host.win = none) ∧
    (wRelHold.mstate = ModState.ready) ∧
    ((wRelHold.part (fld (BitVec.toNat (cmdA 0 0 0 0).a0) 1 0)).cmd = none) ∧
    ((wRelHold.part (fld (BitVec.toNat (cmdA 0 0 0 0).a0) 1 0)).session = Session.opened) ∧
    (wRelHold.hang.active = false) ∧
    ((wRelHold.job (fld (BitVec.toNat (cmdA 0 0 0 0).a0) 1 0)).hold = true) ∧
    ((wRelHold.job (fld (BitVec.toNat (cmdA 0 0 0 0).a0) 1 0)).down = true) ∧
    ((wRelHold.job (fld (BitVec.toNat (cmdA 0 0 0 0).a0) 1 0)).stopped = false) ∧
    (portsAgree wRelHold (fld (BitVec.toNat (cmdA 0 0 0 0).a0) 1 0) = true) ∧
    ((wRelHold.job (fld (BitVec.toNat (cmdA 0 0 0 0).a0) 1 0)).resume ≠ 4294967295) ∧
    (tooFar wRelHold (fld (BitVec.toNat (cmdA 0 0 0 0).a0) 1 0) (wRelHold.job (fld (BitVec.toNat (cmdA 0 0 0 0).a0) 1
      0)).resume = false) := by and_intros <;> decide +kernel

/-- Premises of ContextAndStepCommandsAndTheirEnd: loadImage, bindOff, autoWave, noWave, bindTimeout, bindWait,
bindEnds, bindOpen, powerEnds, powerOffEnds, imageEnds, imageRejected, waveTimeout, winTimeout, winWait, resumeLate,
resumeEarly, lockoutEvent, lockOver. -/
theorem test_contextAndStepCommandsAndTheirEnd_applies_3 :
    (pcieUp wC1 = true) ∧
    (wC1.host.win = none) ∧
    (wC1.mstate = ModState.ready) ∧
    ((wC1.part (fld (BitVec.toNat (cmdA 0 0 0 0).a0) 1 0)).cmd = none) ∧
    ((wC1.part (fld (BitVec.toNat (cmdA 0 0 0 0).a0) 1 0)).session = Session.opened) ∧
    (strays (BitVec.toNat (cmdA 0 0 0 0).a0) 3 = false) ∧
    (argsFrom (cmdA 0 0 0 0) 2 = false) ∧
    (BitVec.toNat (cmdA 0 0 0 0).a1 % 64 = 0) ∧
    (BitVec.toNat (cmdA 0 0 0 0).a1 < 2 ^ 30) ∧
    (pstate wC1 (fld (BitVec.toNat (cmdA 0 0 0 0).a0) 1 0) = 3) ∧
    ((imagePlan (fld (BitVec.toNat (cmdA 0 0 0 0).a0) 1 0) (BitVec.toNat (cmdA 0 0 0 0).a1) (latch 32 (cmdA 0 0 0 0)
      (writeArgs (cmdA 0 0 0 0) wC1))).1.resident = false) ∧
    (0 < 4) ∧
    ((wAutoW.part 0).cmd = some pwrC) ∧
    (pwrC.kind = PCmdKind.power) ∧
    (pwrC.auto = true) ∧
    (pwrC.left ≠ []) ∧
    (∀ p ∈ panelsOf wAutoW 0, (wAutoW.panel p).bring = Bring.none) ∧
    ((wC1.part 0).cmd = none) ∧
    ((wBindOpen.part 0).cmd = some bindC) ∧
    (bindC.kind = PCmdKind.bindOff) ∧
    (bindC.until_ ≤ wBindOpen.now) ∧
    ((wBindOpen.job 0).stepOpen = true) ∧
    ((wBindWait.part 0).cmd = some bindC) ∧
    (wBindWait.now < bindC.until_) ∧
    ((wBindIdle.part 0).cmd = some bindC) ∧
    ((wBindIdle.job 0).stepOpen = false) ∧
    (((wPwrEnd 2).part 0).cmd = some pwrC2) ∧
    (pwrC2.kind = PCmdKind.power) ∧
    (tablesHeld (wPwrEnd 2) = true) ∧
    (targetHeld (wPwrEnd 2) 0 pwrC2.goal = true) ∧
    (pwrC2.goal = 0 ∨ pwrC2.goal = 2 ∧ pwrC2.left = [] ∧ pwrC2.total = 0 ∧ ∀ p ∈ panelsOf (wPwrEnd 2) 0, ((wPwrEnd
      2).panel p).bring = Bring.none) ∧
    ((wPwrOff.part 0).cmd = some pwrC0) ∧
    (pwrC0.kind = PCmdKind.power) ∧
    (tablesHeld wPwrOff = true) ∧
    (targetHeld wPwrOff 0 pwrC0.goal = true) ∧
    (pwrC0.goal = 0 ∨ pwrC0.goal = 2 ∧ pwrC0.left = [] ∧ pwrC0.total = 0 ∧ ∀ p ∈ panelsOf wPwrOff 0, (wPwrOff.panel
      p).bring = Bring.none) ∧
    (((wImgEnd none).part 0).cmd = some imgN) ∧
    (imgN.kind = PCmdKind.image) ∧
    (castOf (wImgEnd none) 0 = none) ∧
    (((wImgEnd (some 3)).part 0).cmd = some imgR) ∧
    (imgR.kind = PCmdKind.image) ∧
    (castOf (wImgEnd (some 3)) 0 = none) ∧
    (wWave5.host.win = some winE) ∧
    (winLimit winE.op = some 5000000) ∧
    (winE.since + 5000000 ≤ wWave5.now) ∧
    (winE.op = 18) ∧
    ((wWin winF 100000900).host.win = some winF) ∧
    (winLimit winF.op = some 100000000) ∧
    (winF.since + 100000000 ≤ (wWin winF 100000900).now) ∧
    (winF.op ≠ 18) ∧
    ((wWin winF 100000899).host.win = some winF) ∧
    ((wWin winF 100000899).now < winF.since + 100000000) ∧
    ((wSuspEnd.part 0).session = Session.suspended) ∧
    ((wSuspEnd.part 0).suspendedAt + (wSuspEnd.part 0).resumeS * 100000000 ≤ wSuspEnd.now) ∧
    ((wSuspWait.part 0).session = Session.suspended) ∧
    (wSuspWait.now < (wSuspWait.part 0).suspendedAt + (wSuspWait.part 0).resumeS * 100000000) ∧
    (wLockOver.ubide.failures < 5 ∨ wLockOver.ubide.lastFail + min (2 ^ (wLockOver.ubide.failures - 5)) 4096 *
      100000000 ≤ wLockOver.now) := by and_intros <;> decide +kernel

/-- Premises of RepairAndStackCommands: resetPanel, resetContext, resetCore, resetPartition, resetPort, resetModule,
darn. -/
theorem test_repairAndStackCommands_applies_1 :
    (pcieUp wC1 = true) ∧
    (wC1.host.win = none) ∧
    (wC1.mstate = ModState.ready) ∧
    (strays (BitVec.toNat (cmdA 2 0 0 0).a0) 7 = false) ∧
    (argsFrom (cmdA 2 0 0 0) 2 = false) ∧
    (wC1.rst.running = []) ∧
    (fld (BitVec.toNat (cmdA 2 0 0 0).a0) 2 0 ∈ [0, 1, 2, 3, 6]) ∧
    (resetBad wC1 (fld (BitVec.toNat (cmdA 2 0 0 0).a0) 2 0) (BitVec.toNat (cmdA 2 0 0 0).a1) = false) ∧
    (resetOwn wC1 (fld (BitVec.toNat (cmdA 2 0 0 0).a0) 2 0) (BitVec.toNat (cmdA 2 0 0 0).a1) = 0) ∧
    (strays (BitVec.toNat (cmdA 0 0 0 0).a0) 7 = false) ∧
    (argsFrom (cmdA 0 0 0 0) 2 = false) ∧
    (fld (BitVec.toNat (cmdA 0 0 0 0).a0) 2 0 ∈ [0, 1, 2, 3, 6]) ∧
    (resetBad wC1 (fld (BitVec.toNat (cmdA 0 0 0 0).a0) 2 0) (BitVec.toNat (cmdA 0 0 0 0).a1) = false) ∧
    (resetOwn wC1 (fld (BitVec.toNat (cmdA 0 0 0 0).a0) 2 0) (BitVec.toNat (cmdA 0 0 0 0).a1) = 0) ∧
    (strays (BitVec.toNat (cmdA 1 0 0 0).a0) 7 = false) ∧
    (argsFrom (cmdA 1 0 0 0) 2 = false) ∧
    (fld (BitVec.toNat (cmdA 1 0 0 0).a0) 2 0 ∈ [0, 1, 2, 3, 6]) ∧
    (resetBad wC1 (fld (BitVec.toNat (cmdA 1 0 0 0).a0) 2 0) (BitVec.toNat (cmdA 1 0 0 0).a1) = false) ∧
    (resetOwn wC1 (fld (BitVec.toNat (cmdA 1 0 0 0).a0) 2 0) (BitVec.toNat (cmdA 1 0 0 0).a1) = 0) ∧
    (strays (BitVec.toNat (cmdA 3 0 0 0).a0) 7 = false) ∧
    (argsFrom (cmdA 3 0 0 0) 2 = false) ∧
    (fld (BitVec.toNat (cmdA 3 0 0 0).a0) 2 0 ∈ [0, 1, 2, 3, 6]) ∧
    (resetBad wC1 (fld (BitVec.toNat (cmdA 3 0 0 0).a0) 2 0) (BitVec.toNat (cmdA 3 0 0 0).a1) = false) ∧
    (resetOwn wC1 (fld (BitVec.toNat (cmdA 3 0 0 0).a0) 2 0) (BitVec.toNat (cmdA 3 0 0 0).a1) = 0) ∧
    (strays (BitVec.toNat (cmdA 6 15 0 0).a0) 7 = false) ∧
    (argsFrom (cmdA 6 15 0 0) 2 = false) ∧
    (fld (BitVec.toNat (cmdA 6 15 0 0).a0) 2 0 ∈ [0, 1, 2, 3, 6]) ∧
    (resetBad wC1 (fld (BitVec.toNat (cmdA 6 15 0 0).a0) 2 0) (BitVec.toNat (cmdA 6 15 0 0).a1) = false) ∧
    (resetOwn wC1 (fld (BitVec.toNat (cmdA 6 15 0 0).a0) 2 0) (BitVec.toNat (cmdA 6 15 0 0).a1) = 0) ∧
    (strays (BitVec.toNat (cmdA 4 0 0 0).a0) 7 = false) ∧
    (argsFrom (cmdA 4 0 0 0) 2 = false) ∧
    (fld (BitVec.toNat (cmdA 4 0 0 0).a0) 2 0 = 4) ∧
    (BitVec.toNat (cmdA 4 0 0 0).a1 = 0) ∧
    (pcieUp wDeadC = true) ∧
    (wDeadC.host.win = none) ∧
    (wDeadC.mstate = ModState.ready) ∧
    (argsFrom (cmdA 5 0 0 0) 1 = false) ∧
    (BitVec.toNat (cmdA 5 0 0 0).a0 < 35328) ∧
    (isHole wDeadC (BitVec.toNat (cmdA 5 0 0 0).a0) = false) ∧
    ((wDeadC.panel (panelOf (BitVec.toNat (cmdA 5 0 0 0).a0))).lost = false) ∧
    ((wDeadC.panel (panelOf (BitVec.toNat (cmdA 5 0 0 0).a0))).power = PPower.active) ∧
    ((wDeadC.panel (panelOf (BitVec.toNat (cmdA 5 0 0 0).a0))).darn.phase = DarnPhase.idle) ∧
    (BitVec.toNat (cmdA 5 0 0 0).a0 ∉ (wDeadC.panel (panelOf (BitVec.toNat (cmdA 5 0 0 0).a0))).darn.queue) ∧
    (isDead wDeadC (BitVec.toNat (cmdA 5 0 0 0).a0) = true) := by and_intros <;> decide +kernel

/-- Premises of RepairAndStackCommands: darnLive, fence, retirePage, scrub. -/
theorem test_repairAndStackCommands_applies_2 :
    (pcieUp wDeadC = true) ∧
    (wDeadC.host.win = none) ∧
    (wDeadC.mstate = ModState.ready) ∧
    (argsFrom (cmdA 4 0 0 0) 1 = false) ∧
    (BitVec.toNat (cmdA 4 0 0 0).a0 < 35328) ∧
    (isHole wDeadC (BitVec.toNat (cmdA 4 0 0 0).a0) = false) ∧
    ((wDeadC.panel (panelOf (BitVec.toNat (cmdA 4 0 0 0).a0))).lost = false) ∧
    ((wDeadC.panel (panelOf (BitVec.toNat (cmdA 4 0 0 0).a0))).power = PPower.active) ∧
    ((wDeadC.panel (panelOf (BitVec.toNat (cmdA 4 0 0 0).a0))).darn.phase = DarnPhase.idle) ∧
    (BitVec.toNat (cmdA 4 0 0 0).a0 ∉ (wDeadC.panel (panelOf (BitVec.toNat (cmdA 4 0 0 0).a0))).darn.queue) ∧
    (isDead wDeadC (BitVec.toNat (cmdA 4 0 0 0).a0) = false) ∧
    (pcieUp wC1 = true) ∧
    (wC1.host.win = none) ∧
    (wC1.mstate = ModState.ready) ∧
    (0 < 64) ∧
    (3 < 600) ∧
    (BitVec.toNat (cmdA 2147483651 0 0 0).a0 = 2 ^ 32 * 0 + 2 ^ 31 + 3) ∧
    (argsFrom (cmdA 2147483651 0 0 0) 1 = false) ∧
    ((wC1.panel 0).lost = false) ∧
    ((wC1.panel 0).power = PPower.active) ∧
    (Tab.get false (wC1.panel 0).bad 3 = false) ∧
    (coreAtSite wC1 0 3 = some 3) ∧
    (isDead wC1 3 = false) ∧
    (BitVec.toNat (cmdA 0 77 0 0).a0 < 64) ∧
    ((wDeadC.panel (BitVec.toNat (cmdA 0 77 0 0).a0)).lost = false) ∧
    (stackAwake (wDeadC.stack (BitVec.toNat (cmdA 0 77 0 0).a0)) = true) ∧
    (BitVec.toNat (cmdA 0 77 0 0).a1 < 2 ^ 25) ∧
    (argsFrom (cmdA 0 77 0 0) 2 = false) ∧
    (BitVec.toNat (cmdA 0 77 0 0).a1 < 33259520 ∨ 33292288 ≤ BitVec.toNat (cmdA 0 77 0 0).a1) ∧
    ((wDeadC.stack (BitVec.toNat (cmdA 0 77 0 0).a0)).retiring = none) ∧
    ((wDeadC.stack (BitVec.toNat (cmdA 0 77 0 0).a0)).entries.length < 1024) ∧
    ((wDeadC.stack (BitVec.toNat (cmdA 0 77 0 0).a0)).spares < 16384) ∧
    (BitVec.toNat (cmdA 0 77 9 0).a0 < 64) ∧
    ((wDeadC.panel (BitVec.toNat (cmdA 0 77 9 0).a0)).lost = false) ∧
    (stackAwake (wDeadC.stack (BitVec.toNat (cmdA 0 77 9 0).a0)) = true) ∧
    (BitVec.toNat (cmdA 0 77 9 0).a1 < 2 ^ 28) ∧
    (argsFrom (cmdA 0 77 9 0) 3 = false) ∧
    (0 < BitVec.toNat (cmdA 0 77 9 0).a2) ∧
    (BitVec.toNat (cmdA 0 77 9 0).a2 ≤ 2 ^ 20) ∧
    (BitVec.toNat (cmdA 0 77 9 0).a1 + BitVec.toNat (cmdA 0 77 9 0).a2 ≤ 2 ^ 28) := by and_intros <;> decide +kernel

/-- Premises of SecurityCommands: unlock, unlockBad, unlockPartBad, lock, lockReset, recordPoison, recordTaken,
recordRetires, recordBad, updateBad. -/
theorem test_securityCommands_applies :
    (pcieUp (wDbg 0) = true) ∧
    ((wDbg 0).host.win = none) ∧
    ((wDbg 0).mstate = ModState.ready) ∧
    (argsFrom (cmdA 1 0 0 0) 1 = false) ∧
    (BitVec.toNat (cmdA 1 0 0 0).a0 = 1) ∧
    ((wDbg 0).ubide.dbg = 0) ∧
    (argsFrom (cmdA 3 0 0 0) 1 = false) ∧
    (BitVec.toNat (cmdA 3 0 0 0).a0 = 3) ∧
    (locked (wDbg 0) = false) ∧
    (certOk (wDbg 0) 3 (memBytes (wDbg 0).mem (2 ^ 48 + 73728) 128) = false) ∧
    (pcieUp (wDbg 1) = true) ∧
    ((wDbg 1).host.win = none) ∧
    ((wDbg 1).mstate = ModState.ready) ∧
    (argsFrom (cmdA 2 0 0 0) 1 = false) ∧
    (BitVec.toNat (cmdA 2 0 0 0).a0 = 2) ∧
    ((wDbg 1).ubide.dbg < 2) ∧
    (locked (wDbg 1) = false) ∧
    (cutN (memBytes (wDbg 1).mem (2 ^ 48 + 73728) 128) 6 1 < 4) ∧
    (((wDbg 1).part (cutN (memBytes (wDbg 1).mem (2 ^ 48 + 73728) 128) 6 1)).session = Session.opened) ∧
    (certOk (wDbg 1) 2 (memBytes (wDbg 1).mem (2 ^ 48 + 73728) 128) = false) ∧
    (argsFrom (cmdA 0 0 0 0) 1 = false) ∧
    (BitVec.toNat (cmdA 0 0 0 0).a0 < (wDbg 1).ubide.dbg) ∧
    ((wDbg 1).ubide.dbg ≤ 3) ∧
    (pcieUp (wDbg 3) = true) ∧
    ((wDbg 3).host.win = none) ∧
    ((wDbg 3).mstate = ModState.ready) ∧
    (BitVec.toNat (cmdA 2 0 0 0).a0 < (wDbg 3).ubide.dbg) ∧
    ((wDbg 3).ubide.dbg ≤ 3) ∧
    (pcieUp wDbgP = true) ∧
    (wDbgP.host.win = none) ∧
    (wDbgP.mstate = ModState.ready) ∧
    (argsFrom (cmdA 3 512 0 0) 2 = false) ∧
    (BitVec.toNat (cmdA 3 512 0 0).a0 = 3) ∧
    (BitVec.toNat (cmdA 3 512 0 0).a1 = 512) ∧
    (wDbgP.ubide.dbg ≠ 3) ∧
    (locked wDbgP = false) ∧
    (wDbgP.ubide.life = Life.provisioned ∨ wDbgP.ubide.life = Life.blank) ∧
    (bufferBad wDbgP 0 512 = true) ∧
    (pcieUp wRec0 = true) ∧
    (wRec0.host.win = none) ∧
    (wRec0.mstate = ModState.ready) ∧
    (wRec0.ubide.dbg ≠ 3) ∧
    (locked wRec0 = false) ∧
    (wRec0.ubide.life = Life.provisioned ∨ wRec0.ubide.life = Life.blank) ∧
    (bufferBad wRec0 0 512 = false) ∧
    (recordCode wRec0 (memBytes wRec0.mem (2 ^ 49) 512) = 0) ∧
    (pcieUp wRec1 = true) ∧
    (wRec1.host.win = none) ∧
    (wRec1.mstate = ModState.ready) ∧
    (wRec1.ubide.dbg ≠ 3) ∧
    (locked wRec1 = false) ∧
    (wRec1.ubide.life = Life.provisioned ∨ wRec1.ubide.life = Life.blank) ∧
    (bufferBad wRec1 0 512 = false) ∧
    (recordCode wRec1 (memBytes wRec1.mem (2 ^ 49) 512) = 0) ∧
    ((wDbg 0).ubide.dbg ≠ 3) ∧
    ((wDbg 0).ubide.life = Life.provisioned ∨ (wDbg 0).ubide.life = Life.blank) ∧
    (bufferBad (wDbg 0) 0 512 = false) ∧
    (recordCode (wDbg 0) (memBytes (wDbg 0).mem (2 ^ 49) 512) ≠ 0) ∧
    (argsFrom (cmdA 0 128 0 0) 2 = false) ∧
    (BitVec.toNat (cmdA 0 128 0 0).a0 < 3) ∧
    (128 ≤ BitVec.toNat (cmdA 0 128 0 0).a1) ∧
    (BitVec.toNat (cmdA 0 128 0 0).a1 ≤ 2 ^ 23) ∧
    (bufferBad (wDbg 0) 0 (BitVec.toNat (cmdA 0 128 0 0).a1) = false) ∧
    (cutN (memBytes (wDbg 0).mem (2 ^ 49) (BitVec.toNat (cmdA 0 128 0 0).a1)) 4 1 = BitVec.toNat (cmdA 0 128 0 0).a0) ∧
    (imageCode (memBytes (wDbg 0).mem (2 ^ 49) (BitVec.toNat (cmdA 0 128 0 0).a1)) (wDbg 0).ubide.floor ≠ 0) := by and_intros <;> decide +kernel

/-- Premises of EveryCommandCompletes: overAbs, vendorBar, vendorTop, vendorJtag, vendorReg. -/
theorem test_everyCommandCompletes_applies :
    (60000 < 60001) ∧
    ((wDbg 3).ubide.dbg = 3) ∧
    (8 = 4 ∨ 8 = 8) ∧
    (10485760 % 8 = 0) ∧
    (10485760 ≤ 10485760) ∧
    (10485760 < 2 ^ 24) ∧
    (pcieUp (wDbg 3) = true) ∧
    (4 = 4 ∨ 4 = 8) ∧
    (16777212 % 4 = 0) ∧
    (10485760 ≤ 16777212) ∧
    (16777212 < 2 ^ 24) ∧
    (wDbgJ.ubide.dbg = 3) ∧
    (10485764 % 4 = 0) ∧
    (10485760 ≤ 10485764) ∧
    (10485764 < 2 ^ 24) ∧
    (wDbgJ.pins.powered = true) ∧
    (wDbgJ.pins.tapReset = false) ∧
    (wDbgJ.pins.jtag = JtagCode.dbgacc) ∧
    (67108860 % 4 = 0) ∧
    (60817408 ≤ 67108860) ∧
    (67108860 < 2 ^ 26) := by and_intros <;> decide +kernel

/-- Premises of HostAccessesOverPcie: bar0Bad, bar0Good, bufRead, bufReadPoison, bufWrite, bufWriteEp, bufWriteLine,
bar2Read, bar2Write, abort, abortWrite, hostWaits, hostRetries, fabRead, fabWrite, fabShut, publish, publishRead, flr,
d0, d3, unmask. -/
theorem test_hostAccessesOverPcie_applies :
    (pcieUp (wSel 7) = true) ∧
    (0 < 64) ∧
    (0 < 4) ∧
    (bar0Valid 3 8 = false) ∧
    (bar0Valid 8 8 = true) ∧
    (pcieUp wBuf = true) ∧
    (wBuf.host.sel = 7) ∧
    (0 < 8) ∧
    (8 ≤ 4096) ∧
    (0 + 8 ≤ 2 ^ 23) ∧
    (pcieUp wBufP = true) ∧
    (wBufP.host.sel = 7) ∧
    ([1, 2, 3, 4, 5, 6, 7, 8].length = 8) ∧
    (8 ≤ 512) ∧
    (64 ≤ 4096) ∧
    (0 + 64 ≤ 2 ^ 23) ∧
    ((List.replicate 64 9).length = 64) ∧
    (64 ≤ 512) ∧
    (pcieUp (wSel 0) = true) ∧
    ((wSel 0).host.sel = 0) ∧
    ((wSel 0).mstate ≠ ModState.recovery) ∧
    (((wSel 0).part 0).defined = true) ∧
    (0 + 8 ≤ 2 ^ 30) ∧
    (pcieUp wAbort = true) ∧
    (wAbort.host.reqs = [(2, hreq0)]) ∧
    (hreq0.fab = false) ∧
    (hreq0.aborted = false) ∧
    (hreq0.since + 5000000 ≤ wAbort.now) ∧
    (pcieUp wAbortW = true) ∧
    (wAbortW.host.reqs = [(2, hreqW)]) ∧
    (hreqW.fab = false) ∧
    (hreqW.aborted = false) ∧
    (hreqW.since + 5000000 ≤ wAbortW.now) ∧
    (pcieUp (wHTry 41) = true) ∧
    ((wHTry 41).host.reqs = [(2, hreqT 41)]) ∧
    ((hreqT 41).phase = ReqPhase.retry 41) ∧
    (((wHTry 41).panel (hostPanel (hreqT 41))).cyc < 41) ∧
    (((wHTry 41).panel (hostPanel (hreqT 41))).lost = false) ∧
    (((wHTry 41).panel (hostPanel (hreqT 41))).power ≠ PPower.off) ∧
    (pcieUp (wHTry 40) = true) ∧
    ((wHTry 40).host.reqs = [(2, hreqT 40)]) ∧
    ((hreqT 40).phase = ReqPhase.retry 40) ∧
    (40 ≤ ((wHTry 40).panel (hostPanel (hreqT 40))).cyc ∨ ((wHTry 40).panel (hostPanel (hreqT 40))).lost = true ∨
      ((wHTry 40).panel (hostPanel (hreqT 40))).power = PPower.off) ∧
    (pcieUp wFabOk = true) ∧
    (wFabOk.host.fabInc = false) ∧
    (wFabOk.host.fabAddr % 2 ^ wFabOk.host.fabSize = 0) ∧
    (targetOf wFabOk.host.fabAddr (2 ^ wFabOk.host.fabSize) = some (Target.spd 0 131072)) ∧
    (fabCheck wFabOk wFabOk.host.fabAddr (2 ^ wFabOk.host.fabSize) false = 0) ∧
    (beingCarried wFabOk 0 = false) ∧
    (hostSpdStatus wFabOk 0 131072 (2 ^ wFabOk.host.fabSize) = 0) ∧
    (fabCheck wFabOk wFabOk.host.fabAddr (2 ^ wFabOk.host.fabSize) true = 0) ∧
    ((wFabOk.core 0).undef = []) ∧
    (pcieUp wFabShut = true) ∧
    (wFabShut.host.fabInc = false) ∧
    (wFabShut.host.fabAddr % 2 ^ wFabShut.host.fabSize = 0) ∧
    (targetOf wFabShut.host.fabAddr (2 ^ wFabShut.host.fabSize) = some (Target.spd 0 131072)) ∧
    (fabCheck wFabShut wFabShut.host.fabAddr (2 ^ wFabShut.host.fabSize) true = 2) ∧
    (2 ≠ 0) ∧
    (pcieUp wPub = true) ∧
    ((wPub.seq 0).wait = some (SeqWait.fabric sreq0)) ∧
    (windowOffset 0 sreq0.addr sreq0.size = some 64) ∧
    (sreq0.wr = some [1, 2, 3, 4, 5, 6, 7, 8]) ∧
    (sreq0.phase = ReqPhase.sent) ∧
    (partOf wPub 0 = some 0) ∧
    (64 ≤ 64) ∧
    (pcieUp wMsix = true) ∧
    (pcieUp wMsixM = true) := by and_intros <;> decide +kernel

/-- Premises of RegistersAreWrittenAndRead: offReq, offShut, offSeq, tension, cap, secCfg, errTail, errTailBad,
bar2Sel, seqFlags, hostStat, hostStatWhole. -/
theorem test_registersAreWrittenAndRead_applies :
    (0 < 64) ∧
    (pcieUp wFree = true) ∧
    ((wFree.panel 0).power ≠ PPower.off) ∧
    (partOf wFree 0 = none) ∧
    ((wFree.panel 0).stack.mirrored = false) ∧
    (pcieUp wC1 = true) ∧
    (partOf wC1 0 = some 0) ∧
    ((wC1.part 0).session = Session.opened) ∧
    (pcieUp wLog = true) ∧
    (((1#9).toNat + 512 - wLog.log.tail) % 512 ≤ wLog.log.held.length) ∧
    (wLog.log.held.length < ((2#9).toNat + 512 - wLog.log.tail) % 512) ∧
    (4 = 4 ∨ 4 = 8) ∧
    (ctlStatus wC1 0 1 8 = 0) ∧
    (pcieUp wCnt = true) := by and_intros <;> decide +kernel

/-- Premises of DebugHaltsResumesAndSteps: dbgSel, dbgSel0, dbgSelHalted, dbgNonedbgHalt, dbgHalts, dbgHaltLater,
dbgHaltAgain, dbgNotHalted, dbgResumes. -/
theorem test_debugHaltsResumesAndSteps_applies_1 :
    (pcieUp wDhalt = true) ∧
    (wDhalt.ubide.dbg ≠ 0) ∧
    (isHalted wDhalt wDhalt.dbg.core = false) ∧
    (pcieUp wD0 = true) ∧
    (wD0.ubide.dbg = 0) ∧
    (pcieUp wDres = true) ∧
    (wDres.ubide.dbg ≠ 0) ∧
    (isHalted wDres wDres.dbg.core = true) ∧
    (dbgTarget wD0 2 ≠ 0) ∧
    (Instr.dbgHalt ∈ [Instr.dbgHalt, Instr.dbgResume, Instr.dbgStep]) ∧
    (dbgTarget wDhalt 2 = 0) ∧
    ((wDhalt.core wDhalt.dbg.core).halted = none) ∧
    ((wDhalt.core wDhalt.dbg.core).active = true) ∧
    ((wDhalt.core wDhalt.dbg.core).boundary = none) ∧
    ((wDhalt.core wDhalt.dbg.core).power ≠ CorePower.doze) ∧
    ((wDhalt.panel (panelOf wDhalt.dbg.core)).live = true) ∧
    ((wDhalt.core wDhalt.dbg.core).still = true) ∧
    (pcieUp wDfly = true) ∧
    (dbgTarget wDfly 2 = 0) ∧
    ((wDfly.core wDfly.dbg.core).halted = none) ∧
    ((wDfly.core wDfly.dbg.core).active = false ∨ (wDfly.core wDfly.dbg.core).still = false ∨ (wDfly.core
      wDfly.dbg.core).boundary ≠ none ∨ (wDfly.core wDfly.dbg.core).power = CorePower.doze) ∧
    (dbgTarget wDres 2 = 0) ∧
    ((wDres.core wDres.dbg.core).halted = some 0) ∧
    ((wDres.core wDres.dbg.core).haltReq = false) ∧
    (regionOk (wDres.core wDres.dbg.core) (wDres.ctxAt wDres.dbg.core 0).region = true) ∧
    (loopsOk (wDres.ctxAt wDres.dbg.core 0).loops = true) := by and_intros <;> decide +kernel

/-- Premises of DebugHaltsResumesAndSteps: dbgSteps. -/
theorem test_debugHaltsResumesAndSteps_applies_2 :
    (pcieUp wDres = true) ∧
    (dbgTarget wDres 2 = 0) ∧
    ((wDres.core wDres.dbg.core).halted = some 0) ∧
    ((wDres.core wDres.dbg.core).haltReq = false) ∧
    (regionOk (wDres.core wDres.dbg.core) (wDres.ctxAt wDres.dbg.core 0).region = true) ∧
    (loopsOk (wDres.ctxAt wDres.dbg.core 0).loops = true) ∧
    ((((resumeCore wDres.dbg.core wDres).onCore wDres.dbg.core fun (c : Core) =>
      { cur := c.cur, active := c.active, ctxs := c.ctxs, power := c.power, dark := c.dark, halted := c.halted, haltReq := c.haltReq, stepReq := true, held := c.held, wait := c.wait, rest := c.rest, boundary := c.boundary, icyc := c.icyc, flight := c.flight, stores := c.stores, m0 := c.m0, m1 := c.m1, vport := c.vport, bpc := c.bpc, stat := c.stat, postFault := c.postFault, lateSlot := c.lateSlot, late := c.late, wcollide := c.wcollide, spd := c.spd, ueaddr := c.ueaddr, regions := c.regions, red := c.red, xwake := c.xwake, mark := c.mark, sels := c.sels, launches := c.launches, inReset := c.inReset, wb := c.wb, outst := c.outst, pins := c.pins, undef := c.undef, redef := c.redef, flag := c.flag, gate := c.gate }).core
      wDres.dbg.core).active = true) ∧
    ((((resumeCore wDres.dbg.core wDres).onCore wDres.dbg.core fun (c : Core) =>
      { cur := c.cur, active := c.active, ctxs := c.ctxs, power := c.power, dark := c.dark, halted := c.halted, haltReq := c.haltReq, stepReq := true, held := c.held, wait := c.wait, rest := c.rest, boundary := c.boundary, icyc := c.icyc, flight := c.flight, stores := c.stores, m0 := c.m0, m1 := c.m1, vport := c.vport, bpc := c.bpc, stat := c.stat, postFault := c.postFault, lateSlot := c.lateSlot, late := c.late, wcollide := c.wcollide, spd := c.spd, ueaddr := c.ueaddr, regions := c.regions, red := c.red, xwake := c.xwake, mark := c.mark, sels := c.sels, launches := c.launches, inReset := c.inReset, wb := c.wb, outst := c.outst, pins := c.pins, undef := c.undef, redef := c.redef, flag := c.flag, gate := c.gate }).core
      wDres.dbg.core).boundary = none) ∧
    ((((resumeCore wDres.dbg.core wDres).onCore wDres.dbg.core fun (c : Core) =>
      { cur := c.cur, active := c.active, ctxs := c.ctxs, power := c.power, dark := c.dark, halted := c.halted, haltReq := c.haltReq, stepReq := true, held := c.held, wait := c.wait, rest := c.rest, boundary := c.boundary, icyc := c.icyc, flight := c.flight, stores := c.stores, m0 := c.m0, m1 := c.m1, vport := c.vport, bpc := c.bpc, stat := c.stat, postFault := c.postFault, lateSlot := c.lateSlot, late := c.late, wcollide := c.wcollide, spd := c.spd, ueaddr := c.ueaddr, regions := c.regions, red := c.red, xwake := c.xwake, mark := c.mark, sels := c.sels, launches := c.launches, inReset := c.inReset, wb := c.wb, outst := c.outst, pins := c.pins, undef := c.undef, redef := c.redef, flag := c.flag, gate := c.gate }).ctx
      wDres.dbg.core).state = CtxState.running) := by and_intros <;> decide +kernel

/-- Premises of DebugHaltsResumesAndSteps: dbgStepWaits. -/
theorem test_debugHaltsResumesAndSteps_applies_3 :
    (pcieUp wDcart = true) ∧
    (dbgTarget wDcart 2 = 0) ∧
    ((wDcart.core wDcart.dbg.core).halted = some 0) ∧
    ((wDcart.core wDcart.dbg.core).haltReq = false) ∧
    (regionOk (wDcart.core wDcart.dbg.core) (wDcart.ctxAt wDcart.dbg.core 0).region = true) ∧
    (loopsOk (wDcart.ctxAt wDcart.dbg.core 0).loops = true) ∧
    ((((resumeCore wDcart.dbg.core wDcart).onCore wDcart.dbg.core fun (c : Core) =>
      { cur := c.cur, active := c.active, ctxs := c.ctxs, power := c.power, dark := c.dark, halted := c.halted, haltReq := c.haltReq, stepReq := true, held := c.held, wait := c.wait, rest := c.rest, boundary := c.boundary, icyc := c.icyc, flight := c.flight, stores := c.stores, m0 := c.m0, m1 := c.m1, vport := c.vport, bpc := c.bpc, stat := c.stat, postFault := c.postFault, lateSlot := c.lateSlot, late := c.late, wcollide := c.wcollide, spd := c.spd, ueaddr := c.ueaddr, regions := c.regions, red := c.red, xwake := c.xwake, mark := c.mark, sels := c.sels, launches := c.launches, inReset := c.inReset, wb := c.wb, outst := c.outst, pins := c.pins, undef := c.undef, redef := c.redef, flag := c.flag, gate := c.gate }).core
      wDcart.dbg.core).active = true) ∧
    ((((resumeCore wDcart.dbg.core wDcart).onCore wDcart.dbg.core fun (c : Core) =>
      { cur := c.cur, active := c.active, ctxs := c.ctxs, power := c.power, dark := c.dark, halted := c.halted, haltReq := c.haltReq, stepReq := true, held := c.held, wait := c.wait, rest := c.rest, boundary := c.boundary, icyc := c.icyc, flight := c.flight, stores := c.stores, m0 := c.m0, m1 := c.m1, vport := c.vport, bpc := c.bpc, stat := c.stat, postFault := c.postFault, lateSlot := c.lateSlot, late := c.late, wcollide := c.wcollide, spd := c.spd, ueaddr := c.ueaddr, regions := c.regions, red := c.red, xwake := c.xwake, mark := c.mark, sels := c.sels, launches := c.launches, inReset := c.inReset, wb := c.wb, outst := c.outst, pins := c.pins, undef := c.undef, redef := c.redef, flag := c.flag, gate := c.gate }).core
      wDcart.dbg.core).boundary = none) ∧
    ((((resumeCore wDcart.dbg.core wDcart).onCore wDcart.dbg.core fun (c : Core) =>
      { cur := c.cur, active := c.active, ctxs := c.ctxs, power := c.power, dark := c.dark, halted := c.halted, haltReq := c.haltReq, stepReq := true, held := c.held, wait := c.wait, rest := c.rest, boundary := c.boundary, icyc := c.icyc, flight := c.flight, stores := c.stores, m0 := c.m0, m1 := c.m1, vport := c.vport, bpc := c.bpc, stat := c.stat, postFault := c.postFault, lateSlot := c.lateSlot, late := c.late, wcollide := c.wcollide, spd := c.spd, ueaddr := c.ueaddr, regions := c.regions, red := c.red, xwake := c.xwake, mark := c.mark, sels := c.sels, launches := c.launches, inReset := c.inReset, wb := c.wb, outst := c.outst, pins := c.pins, undef := c.undef, redef := c.redef, flag := c.flag, gate := c.gate }).ctx
      wDcart.dbg.core).state ≠ CtxState.running) := by and_intros <;> decide +kernel

/-- Premises of DebugHaltsResumesAndSteps: dbgRead, dbgWrite, dbgWrite4, imgRead, imgReadParked, imgWriteParked,
imgWrite, dbgShutLow, dbgShutCtx, dbgShutTop, jtagOpen, jtagShut, vendor, jtag, jtagOff, tap, i3c. -/
theorem test_debugHaltsResumesAndSteps_applies_4 :
    (pcieUp wDhalt = true) ∧
    (8 = 4 ∨ 8 = 8) ∧
    (4325376 % 8 = 0) ∧
    (4194304 ≤ 4325376) ∧
    (4325376 + 8 ≤ 10485760) ∧
    (dbgTarget wDhalt 2 = 0) ∧
    (hostSpdStatus wDhalt wDhalt.dbg.core (4325376 - 4194304) 8 = 0) ∧
    ((wDhalt.core wDhalt.dbg.core).undef = []) ∧
    (4 = 4 ∨ 4 = 8) ∧
    (10485756 % 4 = 0) ∧
    (4194304 ≤ 10485756) ∧
    (10485756 + 4 ≤ 10485760) ∧
    (hostSpdStatus wDhalt wDhalt.dbg.core (10485756 - 4194304) 4 = 0) ∧
    (pcieUp wDres = true) ∧
    (131080 % 8 = 0) ∧
    (131072 ≤ 131080) ∧
    (131080 + 8 ≤ 212992) ∧
    (dbgImage wDres = 0) ∧
    (pcieUp wDimg = true) ∧
    (dbgImage wDimg = 0) ∧
    ((wDimg.core wDimg.dbg.core).halted ≠ some wDimg.dbg.ctx) ∧
    ((wDimg.core wDimg.dbg.core).undef = []) ∧
    ((wDres.core wDres.dbg.core).halted = some wDres.dbg.ctx) ∧
    (pcieUp wD0 = true) ∧
    (8 % 8 = 0) ∧
    (wD0.ubide.dbg = 0) ∧
    (8 < 16 ∨ 65536 ≤ 8 ∧ 8 < 212992 ∨ 4194304 ≤ 8 ∧ 8 < 2 ^ 24) ∧
    (65536 % 4 = 0) ∧
    (65536 < 16 ∨ 65536 ≤ 65536 ∧ 65536 < 212992 ∨ 4194304 ≤ 65536 ∧ 65536 < 2 ^ 24) ∧
    (16777208 % 8 = 0) ∧
    (16777208 < 16 ∨ 65536 ≤ 16777208 ∧ 16777208 < 212992 ∨ 4194304 ≤ 16777208 ∧ 16777208 < 2 ^ 24) ∧
    (pcieUp (wJt 2 id) = true) ∧
    ((wJt 2 id).pins.powered = true ∧ (wJt 2 id).pins.tapReset = false ∧ (wJt 2 id).pins.jtag = JtagCode.dbgacc ∧ 2 ≤
      (wJt 2 id).ubide.dbg) ∧
    (pcieUp (wJt 1 id) = true) ∧
    (¬((wJt 1 id).pins.powered = true ∧ (wJt 1 id).pins.tapReset = false ∧ (wJt 1 id).pins.jtag = JtagCode.dbgacc ∧ 2
      ≤ (wJt 1 id).ubide.dbg)) ∧
    (10485760 % 8 = 0) ∧
    (10485760 ≤ 10485760) ∧
    (10485760 < 2 ^ 24) ∧
    (wDhalt.ubide.dbg = 3) ∧
    (wDhalt.pins.powered = true) ∧
    (wJtOff.pins.powered = false) := by and_intros <;> decide +kernel

/-- Premises of CoresAreProbedFencedAndDarned: probe, probeEarly, missOne, missTwo, check, checkRouter, darnGood,
darnHole, darnMap, carry, darned, fuse, noFuse. -/
theorem test_coresAreProbedFencedAndDarned_applies :
    (0 < 64) ∧
    (0 < 35328) ∧
    (panelOf 0 = 0) ∧
    (panelRuns (wProbe.panel 0) = true) ∧
    ((wProbe.panel 0).probed + 2 ^ 14 ≤ wProbe.now) ∧
    (wChk.now < (wChk.panel 0).probed + 2 ^ 14) ∧
    (probed wMiss0 0 = true) ∧
    ((wMiss0.panel 0).probed ≠ 0) ∧
    (∀ e ∈ (wMiss0.panel 0).missed, e.1 ≠ 0) ∧
    ((wMiss0.panel 0).probed + 1024 ≤ wMiss0.now) ∧
    (probed wMiss1 0 = true) ∧
    ((wMiss1.panel 0).probed ≠ 0) ∧
    (List.find? (fun (e : ℕ × ℕ) => e.1 == 0) (wMiss1.panel 0).missed = some (0, 16500)) ∧
    (16500 + 1024 ≤ wMiss1.now) ∧
    (0 < 600) ∧
    (coreAtSite wChk 0 0 = some 0) ∧
    (isDead wChk 0 = false) ∧
    (panelRuns (wChk.panel 0) = true) ∧
    (Tab.get false (wChk.panel 0).routers 0 = false) ∧
    ((wDarnGood.panel 0).darn.queue = [0]) ∧
    ((wDarnGood.panel 0).darn.phase = DarnPhase.idle) ∧
    (panelRuns (wDarnGood.panel 0) = true) ∧
    (isHole wDarnGood 0 = false) ∧
    (Tab.get false (wDarnGood.panel 0).bad (siteIdx wDarnGood 0) = false) ∧
    ((wDarnFull.panel 0).darn.queue = [0]) ∧
    ((wDarnFull.panel 0).darn.phase = DarnPhase.idle) ∧
    (panelRuns (wDarnFull.panel 0) = true) ∧
    (isHole wDarnFull 0 = false) ∧
    (Tab.get false (wDarnFull.panel 0).bad (siteIdx wDarnFull 0) = true) ∧
    (chooseChange (wDarnFull.panel 0) (siteIdx wDarnFull 0) = none) ∧
    ((wDarn.panel 0).darn.queue = [0]) ∧
    ((wDarn.panel 0).darn.phase = DarnPhase.idle) ∧
    (panelRuns (wDarn.panel 0) = true) ∧
    (isHole wDarn 0 = false) ∧
    (Tab.get false (wDarn.panel 0).bad (siteIdx wDarn 0) = true) ∧
    (chooseChange (wDarn.panel 0) (siteIdx wDarn 0) = some ((chooseChange (wDarn.panel 0) 0).getD live)) ∧
    ((wCarry.panel 0).darn.phase = DarnPhase.carrying) ∧
    ((wCarry.panel 0).darn.steps = [{ cores := [0, 1] }, { cores := [2] }]) ∧
    ((wZer.panel 0).darn.phase = DarnPhase.zeroizing) ∧
    ((wZer.panel 0).darn.core = 0) ∧
    (Tab.get false (wZer.panel 0).bad (siteIdx wZer 0) = false) ∧
    (wFuse.fuses.queue = [5, 6]) ∧
    (wC1.fuses.queue = []) := by and_intros <;> decide +kernel

/-- Premises of HangsAndBlockResets: snap, snapEarly, combineEarly, noHang. -/
theorem test_hangsAndBlockResets_applies_1 :
    (0 < 64) ∧
    (panelRuns (wSnap.panel 0) = true) ∧
    ((wSnap.panel 0).hang.last + 65536 ≤ wSnap.now) ∧
    (wSnapNo.now < (wSnapNo.panel 0).hang.last + 65536) ∧
    (wSnapNo.now < wSnapNo.hang.last + 65536) ∧
    (wSnap.hang.last + 65536 ≤ wSnap.now) ∧
    (wSnap.hang.active = false) ∧
    (∀ j < 5, hangSet
      { now := wSnap.now, cores := wSnap.cores, panels := wSnap.panels, mem := wSnap.mem, lines := wSnap.lines, parts := wSnap.parts, packets := wSnap.packets, bcasts := wSnap.bcasts, reds := wSnap.reds, nextPid := wSnap.nextPid, epochs := wSnap.epochs, hubEpochs := wSnap.hubEpochs, turns := wSnap.turns, epochBase := wSnap.epochBase, transit := wSnap.transit, lostAt := wSnap.lostAt, log := wSnap.log, attention := wSnap.attention, ports := wSnap.ports, fuses := wSnap.fuses, host := wSnap.host, ubide := wSnap.ubide, rst := wSnap.rst, power := wSnap.power, mstate := wSnap.mstate, cast := wSnap.cast, hang := { last := wSnap.now, part := wSnap.hang.part, suspects := wSnap.hang.suspects, todo := wSnap.hang.todo, cur := wSnap.hang.cur, since := wSnap.hang.since, snaps := wSnap.hang.snaps, guilty := wSnap.hang.guilty, inStep := wSnap.hang.inStep, panels := wSnap.hang.panels, active := wSnap.hang.active, entry := wSnap.hang.entry, queue := wSnap.hang.queue, stopping := wSnap.hang.stopping }, dbg := wSnap.dbg, pins := wSnap.pins, freeSeq := wSnap.freeSeq, pending := wSnap.pending }
      j = []) := by and_intros <;> decide +kernel

/-- Premises of HangsAndBlockResets: hang. -/
theorem test_hangsAndBlockResets_applies_2 :
    (0 < 64) ∧
    (wStuck.hang.last + 65536 ≤ wStuck.now) ∧
    (wStuck.hang.active = false) ∧
    (0 < 5) ∧
    (∀ i < 0, hangSet
      { now := wStuck.now, cores := wStuck.cores, panels := wStuck.panels, mem := wStuck.mem, lines := wStuck.lines, parts := wStuck.parts, packets := wStuck.packets, bcasts := wStuck.bcasts, reds := wStuck.reds, nextPid := wStuck.nextPid, epochs := wStuck.epochs, hubEpochs := wStuck.hubEpochs, turns := wStuck.turns, epochBase := wStuck.epochBase, transit := wStuck.transit, lostAt := wStuck.lostAt, log := wStuck.log, attention := wStuck.attention, ports := wStuck.ports, fuses := wStuck.fuses, host := wStuck.host, ubide := wStuck.ubide, rst := wStuck.rst, power := wStuck.power, mstate := wStuck.mstate, cast := wStuck.cast, hang := { last := wStuck.now, part := wStuck.hang.part, suspects := wStuck.hang.suspects, todo := wStuck.hang.todo, cur := wStuck.hang.cur, since := wStuck.hang.since, snaps := wStuck.hang.snaps, guilty := wStuck.hang.guilty, inStep := wStuck.hang.inStep, panels := wStuck.hang.panels, active := wStuck.hang.active, entry := wStuck.hang.entry, queue := wStuck.hang.queue, stopping := wStuck.hang.stopping }, dbg := wStuck.dbg, pins := wStuck.pins, freeSeq := wStuck.freeSeq, pending := wStuck.pending }
      i = []) ∧
    (hangSet
      { now := wStuck.now, cores := wStuck.cores, panels := wStuck.panels, mem := wStuck.mem, lines := wStuck.lines, parts := wStuck.parts, packets := wStuck.packets, bcasts := wStuck.bcasts, reds := wStuck.reds, nextPid := wStuck.nextPid, epochs := wStuck.epochs, hubEpochs := wStuck.hubEpochs, turns := wStuck.turns, epochBase := wStuck.epochBase, transit := wStuck.transit, lostAt := wStuck.lostAt, log := wStuck.log, attention := wStuck.attention, ports := wStuck.ports, fuses := wStuck.fuses, host := wStuck.host, ubide := wStuck.ubide, rst := wStuck.rst, power := wStuck.power, mstate := wStuck.mstate, cast := wStuck.cast, hang := { last := wStuck.now, part := wStuck.hang.part, suspects := wStuck.hang.suspects, todo := wStuck.hang.todo, cur := wStuck.hang.cur, since := wStuck.hang.since, snaps := wStuck.hang.snaps, guilty := wStuck.hang.guilty, inStep := wStuck.hang.inStep, panels := wStuck.hang.panels, active := wStuck.hang.active, entry := wStuck.hang.entry, queue := wStuck.hang.queue, stopping := wStuck.hang.stopping }, dbg := wStuck.dbg, pins := wStuck.pins, freeSeq := wStuck.freeSeq, pending := wStuck.pending }
      0 ≠ []) ∧
    (suspectsOf (hangSet
      { now := wStuck.now, cores := wStuck.cores, panels := wStuck.panels, mem := wStuck.mem, lines := wStuck.lines, parts := wStuck.parts, packets := wStuck.packets, bcasts := wStuck.bcasts, reds := wStuck.reds, nextPid := wStuck.nextPid, epochs := wStuck.epochs, hubEpochs := wStuck.hubEpochs, turns := wStuck.turns, epochBase := wStuck.epochBase, transit := wStuck.transit, lostAt := wStuck.lostAt, log := wStuck.log, attention := wStuck.attention, ports := wStuck.ports, fuses := wStuck.fuses, host := wStuck.host, ubide := wStuck.ubide, rst := wStuck.rst, power := wStuck.power, mstate := wStuck.mstate, cast := wStuck.cast, hang := { last := wStuck.now, part := wStuck.hang.part, suspects := wStuck.hang.suspects, todo := wStuck.hang.todo, cur := wStuck.hang.cur, since := wStuck.hang.since, snaps := wStuck.hang.snaps, guilty := wStuck.hang.guilty, inStep := wStuck.hang.inStep, panels := wStuck.hang.panels, active := wStuck.hang.active, entry := wStuck.hang.entry, queue := wStuck.hang.queue, stopping := wStuck.hang.stopping }, dbg := wStuck.dbg, pins := wStuck.pins, freeSeq := wStuck.freeSeq, pending := wStuck.pending }
      0) ≠ []) ∧
    (wStuck.hang.queue = []) := by and_intros <;> decide +kernel

/-- Premises of HangsAndBlockResets: hangSeq. -/
theorem test_hangsAndBlockResets_applies_3 :
    (0 < 64) ∧
    (wStuckSeq.hang.last + 65536 ≤ wStuckSeq.now) ∧
    (wStuckSeq.hang.active = false) ∧
    (0 < 5) ∧
    (∀ i < 0, hangSet
      { now := wStuckSeq.now, cores := wStuckSeq.cores, panels := wStuckSeq.panels, mem := wStuckSeq.mem, lines := wStuckSeq.lines, parts := wStuckSeq.parts, packets := wStuckSeq.packets, bcasts := wStuckSeq.bcasts, reds := wStuckSeq.reds, nextPid := wStuckSeq.nextPid, epochs := wStuckSeq.epochs, hubEpochs := wStuckSeq.hubEpochs, turns := wStuckSeq.turns, epochBase := wStuckSeq.epochBase, transit := wStuckSeq.transit, lostAt := wStuckSeq.lostAt, log := wStuckSeq.log, attention := wStuckSeq.attention, ports := wStuckSeq.ports, fuses := wStuckSeq.fuses, host := wStuckSeq.host, ubide := wStuckSeq.ubide, rst := wStuckSeq.rst, power := wStuckSeq.power, mstate := wStuckSeq.mstate, cast := wStuckSeq.cast, hang := { last := wStuckSeq.now, part := wStuckSeq.hang.part, suspects := wStuckSeq.hang.suspects, todo := wStuckSeq.hang.todo, cur := wStuckSeq.hang.cur, since := wStuckSeq.hang.since, snaps := wStuckSeq.hang.snaps, guilty := wStuckSeq.hang.guilty, inStep := wStuckSeq.hang.inStep, panels := wStuckSeq.hang.panels, active := wStuckSeq.hang.active, entry := wStuckSeq.hang.entry, queue := wStuckSeq.hang.queue, stopping := wStuckSeq.hang.stopping }, dbg := wStuckSeq.dbg, pins := wStuckSeq.pins, freeSeq := wStuckSeq.freeSeq, pending := wStuckSeq.pending }
      i = []) ∧
    (hangSet
      { now := wStuckSeq.now, cores := wStuckSeq.cores, panels := wStuckSeq.panels, mem := wStuckSeq.mem, lines := wStuckSeq.lines, parts := wStuckSeq.parts, packets := wStuckSeq.packets, bcasts := wStuckSeq.bcasts, reds := wStuckSeq.reds, nextPid := wStuckSeq.nextPid, epochs := wStuckSeq.epochs, hubEpochs := wStuckSeq.hubEpochs, turns := wStuckSeq.turns, epochBase := wStuckSeq.epochBase, transit := wStuckSeq.transit, lostAt := wStuckSeq.lostAt, log := wStuckSeq.log, attention := wStuckSeq.attention, ports := wStuckSeq.ports, fuses := wStuckSeq.fuses, host := wStuckSeq.host, ubide := wStuckSeq.ubide, rst := wStuckSeq.rst, power := wStuckSeq.power, mstate := wStuckSeq.mstate, cast := wStuckSeq.cast, hang := { last := wStuckSeq.now, part := wStuckSeq.hang.part, suspects := wStuckSeq.hang.suspects, todo := wStuckSeq.hang.todo, cur := wStuckSeq.hang.cur, since := wStuckSeq.hang.since, snaps := wStuckSeq.hang.snaps, guilty := wStuckSeq.hang.guilty, inStep := wStuckSeq.hang.inStep, panels := wStuckSeq.hang.panels, active := wStuckSeq.hang.active, entry := wStuckSeq.hang.entry, queue := wStuckSeq.hang.queue, stopping := wStuckSeq.hang.stopping }, dbg := wStuckSeq.dbg, pins := wStuckSeq.pins, freeSeq := wStuckSeq.freeSeq, pending := wStuckSeq.pending }
      0 ≠ []) ∧
    (suspectsOf (hangSet
      { now := wStuckSeq.now, cores := wStuckSeq.cores, panels := wStuckSeq.panels, mem := wStuckSeq.mem, lines := wStuckSeq.lines, parts := wStuckSeq.parts, packets := wStuckSeq.packets, bcasts := wStuckSeq.bcasts, reds := wStuckSeq.reds, nextPid := wStuckSeq.nextPid, epochs := wStuckSeq.epochs, hubEpochs := wStuckSeq.hubEpochs, turns := wStuckSeq.turns, epochBase := wStuckSeq.epochBase, transit := wStuckSeq.transit, lostAt := wStuckSeq.lostAt, log := wStuckSeq.log, attention := wStuckSeq.attention, ports := wStuckSeq.ports, fuses := wStuckSeq.fuses, host := wStuckSeq.host, ubide := wStuckSeq.ubide, rst := wStuckSeq.rst, power := wStuckSeq.power, mstate := wStuckSeq.mstate, cast := wStuckSeq.cast, hang := { last := wStuckSeq.now, part := wStuckSeq.hang.part, suspects := wStuckSeq.hang.suspects, todo := wStuckSeq.hang.todo, cur := wStuckSeq.hang.cur, since := wStuckSeq.hang.since, snaps := wStuckSeq.hang.snaps, guilty := wStuckSeq.hang.guilty, inStep := wStuckSeq.hang.inStep, panels := wStuckSeq.hang.panels, active := wStuckSeq.hang.active, entry := wStuckSeq.hang.entry, queue := wStuckSeq.hang.queue, stopping := wStuckSeq.hang.stopping }, dbg := wStuckSeq.dbg, pins := wStuckSeq.pins, freeSeq := wStuckSeq.freeSeq, pending := wStuckSeq.pending }
      0) = []) ∧
    (wStuckSeq.rst.running = []) ∧
    (∃ e ∈ hangSet
      { now := wStuckSeq.now, cores := wStuckSeq.cores, panels := wStuckSeq.panels, mem := wStuckSeq.mem, lines := wStuckSeq.lines, parts := wStuckSeq.parts, packets := wStuckSeq.packets, bcasts := wStuckSeq.bcasts, reds := wStuckSeq.reds, nextPid := wStuckSeq.nextPid, epochs := wStuckSeq.epochs, hubEpochs := wStuckSeq.hubEpochs, turns := wStuckSeq.turns, epochBase := wStuckSeq.epochBase, transit := wStuckSeq.transit, lostAt := wStuckSeq.lostAt, log := wStuckSeq.log, attention := wStuckSeq.attention, ports := wStuckSeq.ports, fuses := wStuckSeq.fuses, host := wStuckSeq.host, ubide := wStuckSeq.ubide, rst := wStuckSeq.rst, power := wStuckSeq.power, mstate := wStuckSeq.mstate, cast := wStuckSeq.cast, hang := { last := wStuckSeq.now, part := wStuckSeq.hang.part, suspects := wStuckSeq.hang.suspects, todo := wStuckSeq.hang.todo, cur := wStuckSeq.hang.cur, since := wStuckSeq.hang.since, snaps := wStuckSeq.hang.snaps, guilty := wStuckSeq.hang.guilty, inStep := wStuckSeq.hang.inStep, panels := wStuckSeq.hang.panels, active := wStuckSeq.hang.active, entry := wStuckSeq.hang.entry, queue := wStuckSeq.hang.queue, stopping := wStuckSeq.hang.stopping }, dbg := wStuckSeq.dbg, pins := wStuckSeq.pins, freeSeq := wStuckSeq.freeSeq, pending := wStuckSeq.pending }
      0, e.eng = Eng.seq 0) := by and_intros <;> decide +kernel

/-- Premises of HangsAndBlockResets: stopping, suspectLost, suspectAsleep, noLaunch, replay, replayOn, replayEnd. -/
theorem test_hangsAndBlockResets_applies_4 :
    (0 < 64) ∧
    (wStopping.hang.active = true) ∧
    (wStopping.hang.cur = none) ∧
    (wStopping.hang.todo = [(0, 0)]) ∧
    (wStopping.hang.stopping = [stopE]) ∧
    (HangStop.due wStopping stopE = false) ∧
    ((stopE.n, stopE.k) ∈ wStopping.hang.suspects) ∧
    (wHLost.hang.active = true) ∧
    (wHLost.hang.cur = none) ∧
    (wHLost.hang.todo = [(0, 0)]) ∧
    (wHLost.hang.stopping = []) ∧
    ((wHLost.panel (panelOf 0)).lost = true ∨ (wHLost.panel (panelOf 0)).power = PPower.off) ∧
    (wHAsleep.hang.active = true) ∧
    (wHAsleep.hang.cur = none) ∧
    (wHAsleep.hang.todo = [(0, 0)]) ∧
    (wHAsleep.hang.stopping = []) ∧
    ((wHAsleep.panel (panelOf 0)).lost = false) ∧
    ((wHAsleep.panel (panelOf 0)).power = PPower.nap ∨ (wHAsleep.panel (panelOf 0)).power = PPower.sleep) ∧
    (wHNoLaunch.hang.active = true) ∧
    (wHNoLaunch.hang.cur = none) ∧
    (wHNoLaunch.hang.todo = [(0, 0)]) ∧
    (wHNoLaunch.hang.stopping = []) ∧
    (panelRuns (wHNoLaunch.panel (panelOf 0)) = true) ∧
    (∀ e ∈ (wHNoLaunch.core 0).launches, e.1 ≠ 0) ∧
    (wHNoLaunch.rst.running = []) ∧
    (wReplay.hang.active = true) ∧
    (wReplay.hang.cur = none) ∧
    (wReplay.hang.stopping = []) ∧
    (wReplay.hang.todo = [(0, 0)]) ∧
    (panelRuns (wReplay.panel (panelOf 0)) = true) ∧
    (List.find? (fun (e : ℕ × ℕ × List W64) => e.1 == 0) (wReplay.core 0).launches = some (0, 3, [])) ∧
    ((launchOn 0 0 3 [] (selOf (wReplay.core 0) 0)
      { now := wReplay.now, cores := wReplay.cores, panels := wReplay.panels, mem := wReplay.mem, lines := wReplay.lines, parts := wReplay.parts, packets := wReplay.packets, bcasts := wReplay.bcasts, reds := wReplay.reds, nextPid := wReplay.nextPid, epochs := wReplay.epochs, hubEpochs := wReplay.hubEpochs, turns := wReplay.turns, epochBase := wReplay.epochBase, transit := wReplay.transit, lostAt := wReplay.lostAt, log := wReplay.log, attention := wReplay.attention, ports := wReplay.ports, fuses := wReplay.fuses, host := wReplay.host, ubide := wReplay.ubide, rst := wReplay.rst, power := wReplay.power, mstate := wReplay.mstate, cast := wReplay.cast, hang := { last := wReplay.hang.last, part := wReplay.hang.part, suspects := wReplay.hang.suspects, todo := [], cur := wReplay.hang.cur, since := wReplay.hang.since, snaps := wReplay.hang.snaps, guilty := wReplay.hang.guilty, inStep := wReplay.hang.inStep, panels := wReplay.hang.panels, active := wReplay.hang.active, entry := wReplay.hang.entry, queue := wReplay.hang.queue, stopping := wReplay.hang.stopping }, dbg := wReplay.dbg, pins := wReplay.pins, freeSeq := wReplay.freeSeq, pending := wReplay.pending }).isSome
      = true) ∧
    (wRunYet.hang.active = true) ∧
    (wRunYet.hang.cur = some (0, 0)) ∧
    (replayVerdict wRunYet 0 0 = none) ∧
    (wRunLate.hang.active = true) ∧
    (wRunLate.hang.cur = some (0, 0)) ∧
    (replayVerdict wRunLate 0 0 = some false) := by and_intros <;> decide +kernel

/-- Premises of HangsAndBlockResets: verdict, short, lost, notShort, resetFires, resetDone, resetBusy, resetForced,
resetNotForced, escalates, escalatesNot, partReset, ctxReset, panelReset. -/
theorem test_hangsAndBlockResets_applies_5 :
    (0 < 64) ∧
    (wGuilty.hang.active = true) ∧
    (wGuilty.hang.cur = none) ∧
    (wGuilty.hang.todo = []) ∧
    (wGuilty.hang.queue = []) ∧
    (wGuilty.hang.suspects = [(0, 0)]) ∧
    (wGuilty.hang.guilty = [(0, 0)] ∨ wGuilty.hang.guilty = []) ∧
    (isDead wGuilty 0 = false) ∧
    (0 < 35328) ∧
    (0 < 4) ∧
    (wC1.host.win = none) ∧
    ((wC1.panel 0).lost = false) ∧
    ((wC1.panel 0).power ≠ PPower.off) ∧
    (wShort.host.win = none) ∧
    ((wShort.panel 0).shorted = true) ∧
    ((wC1.panel 0).shorted = false) ∧
    (wRFired.host.win = none) ∧
    (wRFired.rst.running[0]? = some (rrOf RPhase.fired 900)) ∧
    ((rrOf RPhase.fired 900).level = 1) ∧
    ((rrOf RPhase.fired 900).target = 0) ∧
    ((rrOf RPhase.fired 900).phase = RPhase.fired) ∧
    ((wRFired.panel (panelOf 0)).darn.phase = DarnPhase.idle) ∧
    ((wRFired.panel (panelOf 0)).power = PPower.active) ∧
    (wRDrain.host.win = none) ∧
    (wRDrain.rst.running[0]? = some (rrOf RPhase.drain 900)) ∧
    ((rrOf RPhase.drain 900).level = 1) ∧
    ((rrOf RPhase.drain 900).target = 0) ∧
    ((rrOf RPhase.drain 900).phase = RPhase.drain) ∧
    ((wRDrain.core 0).outst = []) ∧
    (wRBusy.host.win = none) ∧
    (wRBusy.rst.running[0]? = some (rrOf RPhase.drain 900)) ∧
    ((wRBusy.core 0).outst ≠ []) ∧
    (wRForce.host.win = none) ∧
    (wRForce.rst.running[0]? = some (rrOf RPhase.drain 0)) ∧
    ((rrOf RPhase.drain 0).level = 1) ∧
    ((rrOf RPhase.drain 0).target = 0) ∧
    ((rrOf RPhase.drain 0).phase = RPhase.drain) ∧
    ((wRForce.core 0).outst ≠ []) ∧
    ((rrOf RPhase.drain 0).since + 1000 ≤ wRForce.now) ∧
    (wRBusy.now < (rrOf RPhase.drain 900).since + 1000) ∧
    (wREsc.host.win = none) ∧
    (wREsc.rst.running[0]? = some (rrOf RPhase.drain 0)) ∧
    (wREsc.rst.running = [rrOf RPhase.drain 0]) ∧
    (0 = 0) ∧
    ((rrOf RPhase.drain 0).phase ≠ RPhase.fired) ∧
    ((rrOf RPhase.drain 0).since + 2000 ≤ wREsc.now) ∧
    (wRFire2.host.win = none) ∧
    (wRFire2.rst.running[0]? = some (rrOf RPhase.fired 0)) ∧
    ((rrOf RPhase.fired 0).level = 1) ∧
    ((rrOf RPhase.fired 0).target = 0) ∧
    ((rrOf RPhase.fired 0).phase = RPhase.fired ∨ wRFire2.now < (rrOf RPhase.fired 0).since + 2000) ∧
    (wPReset.host.win = none) ∧
    (wPReset.rst.running = [rrP]) ∧
    (rrP.level = 3) ∧
    (rrP.target = 0) ∧
    (∀ q ∈ panelsOf wPReset 0, (wPReset.panel q).power ≠ PPower.nap ∧ (wPReset.panel q).power ≠ PPower.sleep) ∧
    (wRCtx.host.win = none) ∧
    (wRCtx.rst.running[0]? = some rrC) ∧
    (rrC.source ≠ 3) ∧
    (rrC.level = 0) ∧
    (rrC.phase = RPhase.fired) ∧
    (∀ e ∈ (wRCtx.core (targetCore rrC.target)).outst, e.2.ctx ≠ targetCtx rrC.target) ∧
    (wRPanel.host.win = none) ∧
    (wRPanel.rst.running[0]? = some (rrN RPhase.fired)) ∧
    ((rrN RPhase.fired).level = 2) ∧
    ((rrN RPhase.fired).target = 0) ∧
    ((rrN RPhase.fired).phase = RPhase.fired) ∧
    ((wRPanel.panel 0).lost = true ∨ (wRPanel.panel 0).power ≠ PPower.nap ∧ (wRPanel.panel 0).power ≠ PPower.sleep) := by and_intros <;> decide +kernel

/-- Premises of HangsAndBlockResets: panelDrained, portReset. -/
theorem test_hangsAndBlockResets_applies_6 :
    (0 < 64) ∧
    (0 < 35328) ∧
    (0 < 4) ∧
    (wRPDrain.host.win = none) ∧
    (wRPDrain.rst.running[0]? = some (rrN RPhase.drain)) ∧
    ((rrN RPhase.drain).level = 2) ∧
    ((rrN RPhase.drain).target = 0) ∧
    ((rrN RPhase.drain).phase = RPhase.drain) ∧
    (drained wRPDrain (rrN RPhase.drain) = true) ∧
    (wRPort.host.win = none) ∧
    (wRPort.rst.running[0]? = some rrO) ∧
    (rrO.level = 6) ∧
    (rrO.target = 7) ∧
    (7 < 16) ∧
    (rrO.phase = RPhase.drain) ∧
    ((wRPort.port 7).buf = []) := by and_intros <;> decide +kernel

/-- Premises of PowerIsGovernedAndSensed: sample, evalEarly, evalHot, evalNone, govHot, govSlow, govNoneSlow. -/
theorem test_powerIsGovernedAndSensed_applies_1 :
    (0 < 64) ∧
    ((wCool.panel 0).power ≠ PPower.off) ∧
    ((wCool.panel 0).lost = false) ∧
    (wEvalNo.now < wEvalNo.power.evalAt + 100000) ∧
    (wHot.power.evalAt + 100000 ≤ wHot.now) ∧
    (governorChoice wHot = some (0, 3, 1)) ∧
    (wCool.power.evalAt + 100000 ≤ wCool.now) ∧
    (governorChoice wCool = none) ∧
    ((fun (q : ℕ) => (fun (q : ℕ) => q < 64 ∧ (wHot.panel q).power = PPower.active ∧ (wHot.panel q).lost = false ∧
      (wHot.panel q).tension.target = none) q ∧ 95 ≤ (fun (q : ℕ) => (wHot.panel q).tension.temp) q ∧ (fun (q : ℕ) =>
      (wHot.panel q).tension.step) q < 5) 0) ∧
    (wOver.power.cap < wOver.power.in1ms) ∧
    ((fun (q : ℕ) => (fun (q : ℕ) => q < 64 ∧ (wOver.panel q).power = PPower.active ∧ (wOver.panel q).lost = false ∧
      (wOver.panel q).tension.target = none) q ∧ (fun (q : ℕ) => (wOver.panel q).tension.step) q < 5) 0) ∧
    (wOverNone.power.cap < wOverNone.power.in1ms) := by and_intros <;> decide +kernel

/-- Premises of PowerIsGovernedAndSensed: govCool, govNoneCool, stepDone, firstEnds, firstHolds, droop, trips,
tripEnds, tripStays. -/
theorem test_powerIsGovernedAndSensed_applies_2 :
    (0 < 64) ∧
    (wFast.power.in1ms ≤ wFast.power.cap) ∧
    ((fun (q : ℕ) => (fun (q : ℕ) => q < 64 ∧ (wFast.panel q).power = PPower.active ∧ (wFast.panel q).lost = false ∧
      (wFast.panel q).tension.target = none) q ∧ tensionBound (wFast.panel q) < (fun (q : ℕ) => (wFast.panel
      q).tension.step) q ∧ (fun (q : ℕ) => (wFast.panel q).tension.temp) q ≤ 90 ∧ wFast.power.in1ms + 500 ≤
      wFast.power.cap) 0) ∧
    (wCool.power.in1ms ≤ wCool.power.cap) ∧
    ((wStep.panel 0).tension.target = some 3) ∧
    ((wFirst.panel 0).power = PPower.active) ∧
    ((wFirst.panel 0).firstUse = some 0) ∧
    (0 + 10000000 ≤ wFirst.now) ∧
    ((wCool.panel 0).power = PPower.active) ∧
    ((wCool.panel 0).firstUse = some 0) ∧
    (wCool.now < 0 + 10000000) ∧
    ((wCool.panel 0).power ≠ PPower.off) ∧
    ((wCool.panel 0).lost = false) ∧
    ((wTrip.panel 0).power ≠ PPower.off) ∧
    ((∃ j ∈ (wTrip.panel 0).tension.junction, 115 ≤ j) ∨ 105 ≤ (wTrip.panel 0).tension.stackTemp) ∧
    (wTrip.power.tripPin = false) ∧
    (wTrip.rst.running = []) ∧
    (∀ q < 64, (wTripCool.panel q).power = PPower.off ∨ (wTripCool.panel q).tension.temp < 95) ∧
    ((wTripHot.panel 0).power ≠ PPower.off) ∧
    (95 ≤ (wTripHot.panel 0).tension.temp) := by and_intros <;> decide +kernel

/-- Premises of PowerIsGovernedAndSensed: deferWakes, deferOff, deferWaits, panelOff. -/
theorem test_powerIsGovernedAndSensed_applies_3 :
    (0 < 64) ∧
    (wDefOk.power.deferred = [0]) ∧
    ((wDefOk.panel 0).power = PPower.nap ∨ (wDefOk.panel 0).power = PPower.sleep) ∧
    (unitsInUse wDefOk + wakeUnits (wDefOk.panel 0).power ≤ 16) ∧
    (wDefOff.power.deferred = [0]) ∧
    ((wDefOff.panel 0).power = PPower.off) ∧
    ((wDefOff.panel 0).wake = some wDefOffW) ∧
    (unitsInUse wDefOff + 4 ≤ 16) ∧
    (wDefFull.power.deferred = [0]) ∧
    (16 < unitsInUse wDefFull + wakeUnits (wDefFull.panel 0).power) ∧
    ((wOff.panel 0).offReq = true) ∧
    (tablesHeld wOff = true) := by and_intros <;> decide +kernel

/-- Premises of ModuleResetsPinsAndInput: moduleReset, noReset, tray, perstOff, modPinOff, violationOff, perst,
modPin, violation, overVolt, inRange, outRange, powerOn. -/
theorem test_moduleResetsPinsAndInput_applies :
    (readyReset wMod 4 = some (rrM 4)) ∧
    (readyReset wC1 4 = none) ∧
    (readyReset wTray 5 = some (rrM 5)) ∧
    (wUnp.pins.powered = false) ∧
    (wUnp.pins.perst = false) ∧
    (wUnp.pins.modReset = false) ∧
    (wC1.pins.powered = true) ∧
    (wC1.rst.running = []) ∧
    (wC1.pins.perst = false) ∧
    (wC1.pins.modReset = false) ∧
    (60000 < 60001) ∧
    (46000 ≤ 54000) ∧
    (54000 ≤ 54000) ∧
    (54001 ≤ 60000) ∧
    (54001 < 46000 ∨ 54000 < 54001) := by and_intros <;> decide +kernel

/-- Premises of CastOnAndBringUp: castUp, castPerst, castBad, castEnds, castGoes, castLate, castStep9Late, castImage,
castClock, castAgain, castWaits, bringUp, brought, bringFails, bringFails2, bringFails4. -/
theorem test_castOnAndBringUp_applies_1 :
    (0 < 64) ∧
    (wCoUp.mstate = ModState.castOn) ∧
    (wCoUp.cast.step < 3) ∧
    (wCoUp.pins.powered = true) ∧
    (wCoUp.pins.modReset = false) ∧
    (∀ e ∈ wCoUp.ubide.store, imageCode e.2.bytes 0 = 0) ∧
    (wCoUp.pins.perst = false) ∧
    (wCoPerst.mstate = ModState.castOn) ∧
    (wCoPerst.cast.step < 3) ∧
    (wCoPerst.pins.powered = true) ∧
    (wCoPerst.pins.modReset = false) ∧
    (∀ e ∈ wCoPerst.ubide.store, imageCode e.2.bytes 0 = 0) ∧
    (wCoPerst.pins.perst = true) ∧
    (wCoBad.mstate = ModState.castOn) ∧
    (wCoBad.cast.step < 3) ∧
    (wCoBad.pins.powered = true) ∧
    (wCoBad.pins.modReset = false) ∧
    (∃ e ∈ wCoBad.ubide.store, imageCode e.2.bytes 0 ≠ 0) ∧
    (wCo9.mstate = ModState.castOn) ∧
    (wCo9.cast.step = 9) ∧
    (wCoUp.cast.step ≠ 9) ∧
    (wCoLate.mstate = ModState.castOn) ∧
    (wCoLate.pins.powered = true) ∧
    (5#8 = 5 ∧ 3 ≤ wCoLate.cast.step ∧ wCoLate.cast.step ≤ 8 ∧ wCoLate.cast.third + 3000000000 ≤ wCoLate.now ∨ 5#8 =
      5 ∧ wCoLate.cast.step = 9 ∧ wCoLate.cast.ninth + 1000000 ≤ wCoLate.now ∨ 5#8 = 11 ∧ wCoLate.cast.step = 1 ∨ 5#8
      = 9 ∧ wCoLate.cast.step ≤ 2) ∧
    (wCo9Late.mstate = ModState.castOn) ∧
    (wCo9Late.pins.powered = true) ∧
    (5#8 = 5 ∧ 3 ≤ wCo9Late.cast.step ∧ wCo9Late.cast.step ≤ 8 ∧ wCo9Late.cast.third + 3000000000 ≤ wCo9Late.now ∨
      5#8 = 5 ∧ wCo9Late.cast.step = 9 ∧ wCo9Late.cast.ninth + 1000000 ≤ wCo9Late.now ∨ 5#8 = 11 ∧ wCo9Late.cast.step
      = 1 ∨ 5#8 = 9 ∧ wCo9Late.cast.step ≤ 2) ∧
    ((wCoS 1).mstate = ModState.castOn) ∧
    ((wCoS 1).pins.powered = true) ∧
    (11#8 = 5 ∧ 3 ≤ (wCoS 1).cast.step ∧ (wCoS 1).cast.step ≤ 8 ∧ (wCoS 1).cast.third + 3000000000 ≤ (wCoS 1).now ∨
      11#8 = 5 ∧ (wCoS 1).cast.step = 9 ∧ (wCoS 1).cast.ninth + 1000000 ≤ (wCoS 1).now ∨ 11#8 = 11 ∧ (wCoS
      1).cast.step = 1 ∨ 11#8 = 9 ∧ (wCoS 1).cast.step ≤ 2) ∧
    ((wCoS 2).mstate = ModState.castOn) ∧
    ((wCoS 2).pins.powered = true) ∧
    (9#8 = 5 ∧ 3 ≤ (wCoS 2).cast.step ∧ (wCoS 2).cast.step ≤ 8 ∧ (wCoS 2).cast.third + 3000000000 ≤ (wCoS 2).now ∨
      9#8 = 5 ∧ (wCoS 2).cast.step = 9 ∧ (wCoS 2).cast.ninth + 1000000 ≤ (wCoS 2).now ∨ 9#8 = 11 ∧ (wCoS 2).cast.step
      = 1 ∨ 9#8 = 9 ∧ (wCoS 2).cast.step ≤ 2) ∧
    (wFltGo.mstate = ModState.fault) ∧
    (wFltGo.cast.failedAt = some 0) ∧
    (0 + 100000000 ≤ wFltGo.now) ∧
    (wFltNo.mstate = ModState.fault) ∧
    (wFltNo.cast.failedAt = some 0) ∧
    (wFltNo.now < 0 + 100000000) ∧
    ((wBrDue.panel 0).bring = Bring.due) ∧
    ((wBrDue.panel 0).wake = some wkB) ∧
    (wkB.deferred = false) ∧
    ((wBrBuilt.panel 0).bring = Bring.built) ∧
    ((wBrDue.panel 0).bring = Bring.due ∧ (1 = 1 ∨ 1 = 2 ∨ 1 = 4) ∨ (wBrDue.panel 0).bring = Bring.built ∧ 1 = 5) ∧
    ((wBrDue.panel 0).bring = Bring.due ∧ (2 = 1 ∨ 2 = 2 ∨ 2 = 4) ∨ (wBrDue.panel 0).bring = Bring.built ∧ 2 = 5) ∧
    ((wBrDue.panel 0).bring = Bring.due ∧ (4 = 1 ∨ 4 = 2 ∨ 4 = 4) ∨ (wBrDue.panel 0).bring = Bring.built ∧ 4 = 5) := by and_intros <;> decide +kernel

/-- Premises of CastOnAndBringUp: bringFails5. -/
theorem test_castOnAndBringUp_applies_2 :
    (0 < 64) ∧
    ((wBrBuilt.panel 0).bring = Bring.due ∧ (5 = 1 ∨ 5 = 2 ∨ 5 = 4) ∨ (wBrBuilt.panel 0).bring = Bring.built ∧ 5 = 5) := by and_intros <;> decide +kernel

/-- Premises of TwoResultsOfOneRegister: twoS, twoA, twoP, twoK, twoC, twoLanes, twoZero, kmovZero. -/
theorem test_twoResultsOfOneRegister_applies_1 :
    (0 < 35328) ∧
    (8 ≤ (wTs.core 0).icyc) ∧
    ((fun (a b : RegW) => (wTs.core 0).flight = [{ due := 8, slot := 2, pc := 1, w := a },
      { due := 8, slot := 1, pc := 2, w := b }]) (RegW.s 3 5) (RegW.s 3 6)) ∧
    (3 ≠ 0) ∧
    (8 ≤ (wTa.core 0).icyc) ∧
    ((fun (a b : RegW) => (wTa.core 0).flight = [{ due := 8, slot := 2, pc := 1, w := a },
      { due := 8, slot := 1, pc := 2, w := b }]) (RegW.a 3 5) (RegW.a 3 6)) ∧
    (8 ≤ (wTp.core 0).icyc) ∧
    ((fun (a b : RegW) => (wTp.core 0).flight = [{ due := 8, slot := 2, pc := 1, w := a },
      { due := 8, slot := 1, pc := 2, w := b }]) (RegW.p 3 true) (RegW.p 3 false)) ∧
    (8 ≤ (wTk.core 0).icyc) ∧
    ((fun (a b : RegW) => (wTk.core 0).flight = [{ due := 8, slot := 2, pc := 1, w := a },
      { due := 8, slot := 1, pc := 2, w := b }]) (RegW.k 3 5) (RegW.k 3 6)) ∧
    (8 ≤ (wTc.core 0).icyc) ∧
    ((fun (a b : RegW) => (wTc.core 0).flight = [{ due := 8, slot := 2, pc := 1, w := a },
      { due := 8, slot := 1, pc := 2, w := b }]) (RegW.c 3 5) (RegW.c 3 6)) ∧
    (8 ≤ (wTl.core 0).icyc) ∧
    ((fun (a b : RegW) => (wTl.core 0).flight = [{ due := 8, slot := 2, pc := 1, w := a },
      { due := 8, slot := 1, pc := 2, w := b }]) (RegW.lanes 3 [(4, 5)] []) (RegW.lanes 3 [(4, 6)] [])) ∧
    (8 ≤ (wTz.core 0).icyc) ∧
    ((fun (a b : RegW) => (wTz.core 0).flight = [{ due := 8, slot := 2, pc := 1, w := a },
      { due := 8, slot := 1, pc := 2, w := b }]) (RegW.s 0 5) (RegW.s 0 6)) ∧
    (0 ≤ (w0.core 0).icyc) ∧
    ((Instr.kmov { agent := Agent.core 0, w1 := 0, w2 := 0, w3 := 0 } { d := 0, a := 1, b := 2, f := 0 }, CIns.kmov
      { d := 0, a := 1, b := 2, f := 0 }) ∈ [(Instr.kmov { agent := Agent.core 0, w1 := 0, w2 := 0, w3 := 0 }
      { d := 0, a := 1, b := 2, f := 0 }, CIns.kmov { d := 0, a := 1, b := 2, f := 0 }), (Instr.ktail
      { agent := Agent.core 0, w1 := 0, w2 := 0, w3 := 0 } { d := 0, a := 1, b := 2, f := 0 }, CIns.ktail
      { d := 0, a := 1, b := 2, f := 0 }), (Instr.kop { agent := Agent.core 0, w1 := 0, w2 := 0, w3 := 0 }
      { d := 0, a := 1, b := 2, f := 0 }, CIns.kop { d := 0, a := 1, b := 2, f := 0 })]) ∧
    (0 = 0) ∧
    (fetchable 0 (bundleC (CIns.kmov { d := 0, a := 1, b := 2, f := 0 }) 0 0 0) w0 = true) := by and_intros <;> decide +kernel

/-- Premises of TwoResultsOfOneRegister: ktailZero, kopZero. -/
theorem test_twoResultsOfOneRegister_applies_2 :
    (0 < 35328) ∧
    (0 ≤ (w0.core 0).icyc) ∧
    ((Instr.ktail { agent := Agent.core 0, w1 := 0, w2 := 0, w3 := 0 } { d := 0, a := 1, b := 2, f := 0 }, CIns.ktail
      { d := 0, a := 1, b := 2, f := 0 }) ∈ [(Instr.kmov { agent := Agent.core 0, w1 := 0, w2 := 0, w3 := 0 }
      { d := 0, a := 1, b := 2, f := 0 }, CIns.kmov { d := 0, a := 1, b := 2, f := 0 }), (Instr.ktail
      { agent := Agent.core 0, w1 := 0, w2 := 0, w3 := 0 } { d := 0, a := 1, b := 2, f := 0 }, CIns.ktail
      { d := 0, a := 1, b := 2, f := 0 }), (Instr.kop { agent := Agent.core 0, w1 := 0, w2 := 0, w3 := 0 }
      { d := 0, a := 1, b := 2, f := 0 }, CIns.kop { d := 0, a := 1, b := 2, f := 0 })]) ∧
    (0 = 0) ∧
    (fetchable 0 (bundleC (CIns.ktail { d := 0, a := 1, b := 2, f := 0 }) 0 0 0) w0 = true) ∧
    ((Instr.kop { agent := Agent.core 0, w1 := 0, w2 := 0, w3 := 0 } { d := 0, a := 1, b := 2, f := 0 }, CIns.kop
      { d := 0, a := 1, b := 2, f := 0 }) ∈ [(Instr.kmov { agent := Agent.core 0, w1 := 0, w2 := 0, w3 := 0 }
      { d := 0, a := 1, b := 2, f := 0 }, CIns.kmov { d := 0, a := 1, b := 2, f := 0 }), (Instr.ktail
      { agent := Agent.core 0, w1 := 0, w2 := 0, w3 := 0 } { d := 0, a := 1, b := 2, f := 0 }, CIns.ktail
      { d := 0, a := 1, b := 2, f := 0 }), (Instr.kop { agent := Agent.core 0, w1 := 0, w2 := 0, w3 := 0 }
      { d := 0, a := 1, b := 2, f := 0 }, CIns.kop { d := 0, a := 1, b := 2, f := 0 })]) ∧
    (fetchable 0 (bundleC (CIns.kop { d := 0, a := 1, b := 2, f := 0 }) 0 0 0) w0 = true) := by and_intros <;> decide +kernel

/-- Premises of BytesCarryOddParity: written, oneBad, allGood, someBad. -/
theorem test_bytesCarryOddParity_applies :
    (131073 < spdSize) ∧
    (∃ e ∈ [(131073, 5), (131074, 6)], e.1 = 131073) ∧
    (undefSeed wBadL 0 1025 = none) ∧
    ((wBadL.line 0 1025).poison = false) ∧
    (isWeight (wBadL.core 0) (64 * 1025) = false ∨ (wBadL.line 0 1025).checked = false) ∧
    (undefSeed w0 0 2048 = none) ∧
    ((w0.line 0 2048).poison = false) ∧
    (isWeight (w0.core 0) (64 * 2048) = false ∨ (w0.line 0 2048).checked = false) ∧
    ((readLine 0 0 2048 w0).1.bad ≠ [2048]) := by and_intros <;> decide +kernel

/-- Premises of GeneratorsAdvance: xs, launchGens, colSeed, advance. -/
theorem test_generatorsAdvance_applies :
    (1311768467294899695#64 ≠ 0) ∧
    (0 < 35328) ∧
    (3 < 64) ∧
    (launchOn 0 0 3 [] (selOf regCore 0) wReplay = some wLaunchG) ∧
    (1 < 2) ∧
    (15 < 16) ∧
    (0 < 64) ∧
    (panelOf 0 = 0) ∧
    (wGen.cores.sorted = true) ∧
    ((wGen.panel 0).power = PPower.active) ∧
    ((wGen.panel 0).lost = false) ∧
    ((wGen.panel 0).shorted = false) ∧
    (isHalted wGen 0 = false) ∧
    ((wGen.core 0).active = true) ∧
    ((wGen.core 0).power = CorePower.run) ∧
    ((wGen.ctx 0).state = CtxState.running) ∧
    ((wGen.ctx 0).counter = false) ∧
    (draining wGen 0 = false) := by and_intros <;> decide +kernel

/-- Premises of RegisterInstructionsChangeNothingElse: frame. -/
theorem test_registerInstructionsChangeNothingElse_applies :
    ((Instr.addi { agent := Agent.core 0, w1 := 0, w2 := 0, w3 := 0 } { d := 3, a := 1, imm := 5 }, CIns.addi
      { d := 3, a := 1, imm := 5 }) = (Instr.nop { agent := Agent.core 0, w1 := 0, w2 := 0, w3 := 0 }, CIns.nop 0) ∨
      (Instr.addi { agent := Agent.core 0, w1 := 0, w2 := 0, w3 := 0 } { d := 3, a := 1, imm := 5 }, CIns.addi
      { d := 3, a := 1, imm := 5 }) ∈ [(Instr.add { agent := Agent.core 0, w1 := 0, w2 := 0, w3 := 0 }
      { d := 3, a := 1, b := 2, f := 0 }, CIns.add { d := 3, a := 1, b := 2, f := 0 }), (Instr.sub
      { agent := Agent.core 0, w1 := 0, w2 := 0, w3 := 0 } { d := 3, a := 1, b := 2, f := 0 }, CIns.sub
      { d := 3, a := 1, b := 2, f := 0 }), (Instr.andS { agent := Agent.core 0, w1 := 0, w2 := 0, w3 := 0 }
      { d := 3, a := 1, b := 2, f := 0 }, CIns.andS { d := 3, a := 1, b := 2, f := 0 }), (Instr.orS
      { agent := Agent.core 0, w1 := 0, w2 := 0, w3 := 0 } { d := 3, a := 1, b := 2, f := 0 }, CIns.orS
      { d := 3, a := 1, b := 2, f := 0 }), (Instr.xorS { agent := Agent.core 0, w1 := 0, w2 := 0, w3 := 0 }
      { d := 3, a := 1, b := 2, f := 0 }, CIns.xorS { d := 3, a := 1, b := 2, f := 0 }), (Instr.shl
      { agent := Agent.core 0, w1 := 0, w2 := 0, w3 := 0 } { d := 3, a := 1, b := 2, f := 0 }, CIns.shl
      { d := 3, a := 1, b := 2, f := 0 }), (Instr.shr { agent := Agent.core 0, w1 := 0, w2 := 0, w3 := 0 }
      { d := 3, a := 1, b := 2, f := 0 }, CIns.shr { d := 3, a := 1, b := 2, f := 0 }), (Instr.sra
      { agent := Agent.core 0, w1 := 0, w2 := 0, w3 := 0 } { d := 3, a := 1, b := 2, f := 0 }, CIns.sra
      { d := 3, a := 1, b := 2, f := 0 }), (Instr.minS { agent := Agent.core 0, w1 := 0, w2 := 0, w3 := 0 }
      { d := 3, a := 1, b := 2, f := 0 }, CIns.minS { d := 3, a := 1, b := 2, f := 0 }), (Instr.maxS
      { agent := Agent.core 0, w1 := 0, w2 := 0, w3 := 0 } { d := 3, a := 1, b := 2, f := 0 }, CIns.maxS
      { d := 3, a := 1, b := 2, f := 0 }), (Instr.mul { agent := Agent.core 0, w1 := 0, w2 := 0, w3 := 0 }
      { d := 3, a := 1, b := 2, f := 0 }, CIns.mul { d := 3, a := 1, b := 2, f := 0 }), (Instr.mulh
      { agent := Agent.core 0, w1 := 0, w2 := 0, w3 := 0 } { d := 3, a := 1, b := 2, f := 0 }, CIns.mulh
      { d := 3, a := 1, b := 2, f := 0 }), (Instr.cmp { agent := Agent.core 0, w1 := 0, w2 := 0, w3 := 0 }
      { d := 3, a := 1, b := 2, f := 0 }, CIns.cmp { d := 3, a := 1, b := 2, f := 0 }), (Instr.sel
      { agent := Agent.core 0, w1 := 0, w2 := 0, w3 := 0 } { d := 3, a := 1, b := 2, f := 0 }, CIns.sel
      { d := 3, a := 1, b := 2, f := 0 }), (Instr.amov { agent := Agent.core 0, w1 := 0, w2 := 0, w3 := 0 }
      { d := 3, a := 1, b := 2, f := 0 }, CIns.amov { d := 3, a := 1, b := 2, f := 0 }), (Instr.aget
      { agent := Agent.core 0, w1 := 0, w2 := 0, w3 := 0 } { d := 3, a := 1, b := 2, f := 0 }, CIns.aget
      { d := 3, a := 1, b := 2, f := 0 }), (Instr.aadd { agent := Agent.core 0, w1 := 0, w2 := 0, w3 := 0 }
      { d := 3, a := 1, b := 2, f := 0 }, CIns.aadd { d := 3, a := 1, b := 2, f := 0 }), (Instr.aform
      { agent := Agent.core 0, w1 := 0, w2 := 0, w3 := 0 } { d := 3, a := 1, b := 2, f := 0 }, CIns.aform
      { d := 3, a := 1, b := 2, f := 0 }), (Instr.kmov { agent := Agent.core 0, w1 := 0, w2 := 0, w3 := 0 }
      { d := 3, a := 1, b := 2, f := 0 }, CIns.kmov { d := 3, a := 1, b := 2, f := 0 }), (Instr.kget
      { agent := Agent.core 0, w1 := 0, w2 := 0, w3 := 0 } { d := 3, a := 1, b := 2, f := 0 }, CIns.kget
      { d := 3, a := 1, b := 2, f := 0 }), (Instr.ktail { agent := Agent.core 0, w1 := 0, w2 := 0, w3 := 0 }
      { d := 3, a := 1, b := 2, f := 0 }, CIns.ktail { d := 3, a := 1, b := 2, f := 0 }), (Instr.kop
      { agent := Agent.core 0, w1 := 0, w2 := 0, w3 := 0 } { d := 3, a := 1, b := 2, f := 0 }, CIns.kop
      { d := 3, a := 1, b := 2, f := 0 }), (Instr.pop { agent := Agent.core 0, w1 := 0, w2 := 0, w3 := 0 }
      { d := 3, a := 1, b := 2, f := 0 }, CIns.pop { d := 3, a := 1, b := 2, f := 0 }), (Instr.jr
      { agent := Agent.core 0, w1 := 0, w2 := 0, w3 := 0 } { d := 3, a := 1, b := 2, f := 0 }, CIns.jr
      { d := 3, a := 1, b := 2, f := 0 }), (Instr.mfc { agent := Agent.core 0, w1 := 0, w2 := 0, w3 := 0 }
      { d := 3, a := 1, b := 2, f := 0 }, CIns.mfc { d := 3, a := 1, b := 2, f := 0 })] ∨ (Instr.addi
      { agent := Agent.core 0, w1 := 0, w2 := 0, w3 := 0 } { d := 3, a := 1, imm := 5 }, CIns.addi
      { d := 3, a := 1, imm := 5 }) ∈ [(Instr.addi { agent := Agent.core 0, w1 := 0, w2 := 0, w3 := 0 }
      { d := 3, a := 1, imm := 5 }, CIns.addi { d := 3, a := 1, imm := 5 }), (Instr.andi
      { agent := Agent.core 0, w1 := 0, w2 := 0, w3 := 0 } { d := 3, a := 1, imm := 5 }, CIns.andi
      { d := 3, a := 1, imm := 5 }), (Instr.ori { agent := Agent.core 0, w1 := 0, w2 := 0, w3 := 0 }
      { d := 3, a := 1, imm := 5 }, CIns.ori { d := 3, a := 1, imm := 5 }), (Instr.aaddi
      { agent := Agent.core 0, w1 := 0, w2 := 0, w3 := 0 } { d := 3, a := 1, imm := 5 }, CIns.aaddi
      { d := 3, a := 1, imm := 5 })] ∨ (Instr.addi { agent := Agent.core 0, w1 := 0, w2 := 0, w3 := 0 }
      { d := 3, a := 1, imm := 5 }, CIns.addi { d := 3, a := 1, imm := 5 }) = (Instr.lui
      { agent := Agent.core 0, w1 := 0, w2 := 0, w3 := 0 } { d := 3, imm := 5 }, CIns.lui { d := 3, imm := 5 }) ∨
      (Instr.addi { agent := Agent.core 0, w1 := 0, w2 := 0, w3 := 0 } { d := 3, a := 1, imm := 5 }, CIns.addi
      { d := 3, a := 1, imm := 5 }) ∈ [(Instr.br { agent := Agent.core 0, w1 := 0, w2 := 0, w3 := 0 }
      { sense := 1, p := 1, off := 5 }, CIns.br { sense := 1, p := 1, off := 5 }), (Instr.jmp
      { agent := Agent.core 0, w1 := 0, w2 := 0, w3 := 0 } { sense := 1, p := 1, off := 5 }, CIns.jmp
      { sense := 1, p := 1, off := 5 })] ∨ (Instr.addi { agent := Agent.core 0, w1 := 0, w2 := 0, w3 := 0 }
      { d := 3, a := 1, imm := 5 }, CIns.addi { d := 3, a := 1, imm := 5 }) = (Instr.loop
      { agent := Agent.core 0, w1 := 0, w2 := 0, w3 := 0 } { s := 1, z := 0, body := 5 }, CIns.loop
      { s := 1, z := 0, body := 5 }) ∨ (Instr.addi { agent := Agent.core 0, w1 := 0, w2 := 0, w3 := 0 }
      { d := 3, a := 1, imm := 5 }, CIns.addi { d := 3, a := 1, imm := 5 }) = (Instr.loopi
      { agent := Agent.core 0, w1 := 0, w2 := 0, w3 := 0 } { count := 3, body := 5 }, CIns.loopi
      { count := 3, body := 5 })) ∧
    (issuesC 0 (CIns.addi { d := 3, a := 1, imm := 5 }) 0 0 0 w0 = true) := by and_intros <;> decide +kernel

/-- Premises of CoresKeepToTheirOwn: own, ownRetire. -/
theorem test_coresKeepToTheirOwn_applies :
    (0 < 35328) ∧
    (7 ≠ 0) := by and_intros <;> decide +kernel

/-- Premises of StepsKeepTheCapAndTheQueue: cap. -/
theorem test_stepsKeepTheCapAndTheQueue_applies :
    (16000 ≤ wpend.power.cap) ∧
    (wpend.power.cap ≤ 42000) := by and_intros <;> decide +kernel

/-- Premises of StepsKeepMemoryCanonical: canon. -/
theorem test_stepsKeepMemoryCanonical_applies :
    (Memory.wf wpend.mem = true) := by decide +kernel

/-- Premises of ChainsComputeTheirStages: chain. -/
theorem test_chainsComputeTheirStages_applies :
    (0 < 35328) ∧
    (9 ≤ (wChain.core 0).icyc) ∧
    ((wChain.core 0).flight = [{ due := 9, slot := 2, pc := 1, w := RegW.chain (fly0 chain2) }]) ∧
    ((fly0 chain2).stages ≠ []) := by and_intros <;> decide +kernel

/-- Premises of ArraysComputeTheirSums: enterDense, enterScaled, rowAdd, rowAddCtr, rowPut, rowClear. -/
theorem test_arraysComputeTheirSums_applies_1 :
    (0 < 35328) ∧
    (0 < 2) ∧
    (((wArrD.core 0).arr 0).inp = some inpA) ∧
    (inpA.kind = InKind.mmul 131072 196608) ∧
    (((wArrD.core 0).arr 0).rows = []) ∧
    (streamStands (wArrD.core 0) = false) ∧
    (inpA.t + inpA.v * inpA.next < (wArrD.core 0).icyc) ∧
    ((wArrD.core 0).icyc ≤ inpA.t + inpA.v * inpA.next + 20) ∧
    (((wArr8.core 0).arr 0).inp = some inpA) ∧
    (((wArr8.core 0).arr 0).rows = []) ∧
    (streamStands (wArr8.core 0) = false) ∧
    (inpA.t + inpA.v * inpA.next < (wArr8.core 0).icyc) ∧
    ((wArr8.core 0).icyc ≤ inpA.t + inpA.v * inpA.next + 20) ∧
    ((((wRow (rowA addV false) false).core 0).arr 0).inp = none) ∧
    ((((wRow (rowA addV false) false).core 0).arr 0).rows = [rowA addV false, rowB addV false]) ∧
    (∀ r ∈ [rowB addV false], (rowA addV false).due < r.due) ∧
    ((rowA addV false).due < ((wRow (rowA addV false) false).core 0).icyc ∨ streamStands ((wRow (rowA addV false)
      false).core 0) = true) ∧
    ((((wRow (rowA addV true) true).core 0).arr 0).inp = none) ∧
    ((((wRow (rowA addV true) true).core 0).arr 0).rows = [rowA addV true, rowB addV true]) ∧
    (∀ r ∈ [rowB addV true], (rowA addV true).due < r.due) ∧
    ((rowA addV true).due < ((wRow (rowA addV true) true).core 0).icyc ∨ streamStands ((wRow (rowA addV true)
      true).core 0) = true) ∧
    ((((wRow (rowA (RowVal.put (List.replicate 16 9) false) false) false).core 0).arr 0).inp = none) ∧
    ((((wRow (rowA (RowVal.put (List.replicate 16 9) false) false) false).core 0).arr 0).rows = [rowA (RowVal.put
      (List.replicate 16 9) false) false, rowB (RowVal.put (List.replicate 16 9) false) false]) ∧
    (∀ r ∈ [rowB (RowVal.put (List.replicate 16 9) false) false], (rowA (RowVal.put (List.replicate 16 9) false)
      false).due < r.due) ∧
    ((rowA (RowVal.put (List.replicate 16 9) false) false).due < ((wRow (rowA (RowVal.put (List.replicate 16 9)
      false) false) false).core 0).icyc ∨ streamStands ((wRow (rowA (RowVal.put (List.replicate 16 9) false) false)
      false).core 0) = true) ∧
    ((((wRow (rowA RowVal.clear false) false).core 0).arr 0).inp = none) ∧
    ((((wRow (rowA RowVal.clear false) false).core 0).arr 0).rows = [rowA RowVal.clear false, rowB RowVal.clear
      false]) ∧
    (∀ r ∈ [rowB RowVal.clear false], (rowA RowVal.clear false).due < r.due) ∧
    ((rowA RowVal.clear false).due < ((wRow (rowA RowVal.clear false) false).core 0).icyc ∨ streamStands ((wRow (rowA
      RowVal.clear false) false).core 0) = true) := by and_intros <;> decide +kernel

/-- Premises of ArraysComputeTheirSums: emit, emitPlain, spill, roundExact, roundUp. -/
theorem test_arraysComputeTheirSums_applies_2 :
    (0 < 35328) ∧
    (0 < 2) ∧
    ((((wDr drA).core 0).arr 0).queue = [drA]) ∧
    (drA.started = some 0) ∧
    (0 + drainTime drA ≤ ((wDr drA).panel (panelOf 0)).cyc) ∧
    (((wDr drA).core 0).undef = []) ∧
    (drA.kind = DKind.mdrain) ∧
    (drA.fmt < 5) ∧
    (drA.dst % 64 = 0) ∧
    (drA.dst + 256 * nth 1 [4, 2, 2] drA.fmt ≤ spdSize) ∧
    (drA.w = true → drA.wide + 2048 ≤ spdSize) ∧
    (drA.w = true → drA.cl = true → drA.wide + 2048 ≤ drA.dst ∨ drA.dst + 256 * nth 1 [4, 2, 2] drA.fmt ≤ drA.wide) ∧
    ((((wDr drN).core 0).arr 0).queue = [drN]) ∧
    (drN.started = some 0) ∧
    (0 + drainTime drN ≤ ((wDr drN).panel (panelOf 0)).cyc) ∧
    (((wDr drN).core 0).undef = []) ∧
    (drN.kind = DKind.mdrain) ∧
    (drN.fmt < 5) ∧
    (drN.dst % 64 = 0) ∧
    (drN.dst + 256 * nth 1 [4, 2, 2] drN.fmt ≤ spdSize) ∧
    (drN.w = true → drN.wide + 2048 ≤ spdSize) ∧
    (drN.w = true → drN.cl = true → drN.wide + 2048 ≤ drN.dst ∨ drN.dst + 256 * nth 1 [4, 2, 2] drN.fmt ≤ drN.wide) ∧
    ((((wDr drS).core 0).arr 0).queue = [drS]) ∧
    (drS.started = some 0) ∧
    (0 + drainTime drS ≤ ((wDr drS).panel (panelOf 0)).cyc) ∧
    (((wDr drS).core 0).undef = []) ∧
    (drS.kind = DKind.spill) ∧
    (drS.wide % 64 = 0) ∧
    (drS.wide + 2048 ≤ spdSize) ∧
    (0 < 2 ^ 16) ∧
    (max (↑(bitLen 5) + eInt 0 - ↑8) qInt ≤ eInt 0) ∧
    (65535 < 2 ^ 16) ∧
    (eInt 2 < max (↑(bitLen 5) + eInt 2 - ↑8) qInt) := by and_intros <;> decide +kernel

/-- Premises of WriteOneFieldsChangeTheirBitsAlone: w1_1, w1_2, w1_3, w1_4, w1_5, w1_6, w1_7, w1_8, w1_9, w1_10,
w1_11, w1_12, w1_13. -/
theorem test_writeOneFieldsChangeTheirBitsAlone_applies :
    (pcieUp wC1 = true) ∧
    (0 < 64) ∧
    (0 < 35328) ∧
    (panelOf 0 = 0) ∧
    (0 < 4) ∧
    (3 < 24) ∧
    ((9372254776102748161#64).getLsbD 56 = false) ∧
    ((9444312370140676097#64).getLsbD 56 = true) ∧
    (carriedTarget wC1 ((fun (u off : ℕ) => 2 ^ 47 + 0 * 2 ^ 40 + u * 2 ^ 32 + off) 16 ((fun (off : ℕ) => (lyOf 0 *
      23 + lxOf 0) * 65536 + off) 0)) 8 = false) ∧
    (ctlStatus wC1 0 16 ((fun (off : ℕ) => (lyOf 0 * 23 + lxOf 0) * 65536 + off) 0) = 0) ∧
    (carriedTarget wC1 ((fun (u off : ℕ) => 2 ^ 47 + 0 * 2 ^ 40 + u * 2 ^ 32 + off) 16 ((fun (off : ℕ) => (lyOf 0 *
      23 + lxOf 0) * 65536 + off) 8)) 8 = false) ∧
    (ctlStatus wC1 0 16 ((fun (off : ℕ) => (lyOf 0 * 23 + lxOf 0) * 65536 + off) 8) = 0) ∧
    (carriedTarget wC1 ((fun (u off : ℕ) => 2 ^ 47 + 0 * 2 ^ 40 + u * 2 ^ 32 + off) 16 ((fun (off : ℕ) => (lyOf 0 *
      23 + lxOf 0) * 65536 + off) 48)) 8 = false) ∧
    (ctlStatus wC1 0 16 ((fun (off : ℕ) => (lyOf 0 * 23 + lxOf 0) * 65536 + off) 48) = 0) ∧
    (carriedTarget wC1 ((fun (u off : ℕ) => 2 ^ 47 + 0 * 2 ^ 40 + u * 2 ^ 32 + off) 3 8) 8 = false) ∧
    (ctlStatus wC1 0 3 8 = 0) ∧
    (768 ∈ [0, 8, 24, 768, 65728, 65736, 65752, 131080, 131088, 196608, 262144, 262152, 262160, 16777216 + 0 * 65536,
      16777216 + 0 * 65536 + 24]) := by and_intros <;> decide +kernel

/-! Premises that rest on a constant of Config without a body. -/

/-- Whatever the break-even time, the horizon of PREST covers the learned cost, or is below it (PanelsRestAndWake). -/
theorem test_restCosts : wcost wNap 0 2 + beven 0 2 ≤ (prec 4000000).horizon ∧ wcost wSleep 0 3 + beven 0 3 ≤ (prec 4000000).horizon ∧
    wcost wNapCeil 0 2 + beven 0 2 ≤ precN.horizon ∧ ceilingOf wNapCeil 0 = 3 ∧ precN.saveOk = false ∧
    (prec 49).horizon < wcost wShortHz 0 2 + beven 0 2 ∧ (prec 49).horizon < wcost wShortHz 0 3 + beven 0 3 := by
  have h : ∀ j, beven 0 j < 2 ^ 20 := fun j => Nat.mod_lt _ (by decide)
  have a : wcost wNap 0 2 = 50 ∧ wcost wSleep 0 3 = 60 ∧ wcost wNapCeil 0 2 = 50 ∧ 50 ≤ wcost wShortHz 0 2 ∧ 50 ≤ wcost wShortHz 0 3 ∧
      ceilingOf wNapCeil 0 = 3 ∧ precN.saveOk = false ∧ precN.horizon = 4000000 := by and_intros <;> decide +kernel
  obtain ⟨a1, a2, a3, a4, a5, a6, a7, a8⟩ := a
  have c : (prec 4000000).horizon = 4000000 ∧ (prec 49).horizon = 49 := ⟨rfl, rfl⟩
  have h2 := h 2
  have h3 := h 3
  refine ⟨?_, ?_, ?_, a6, a7, ?_, ?_⟩ <;> omega

/-- The sector that a rebuild takes next is the first that is held, or none is (StackSectorsScrubMirrorsAndPower). -/
theorem test_rebuildNext :
    (∀ v, ((if (wReb.stack 0).rebuild = Fill.due then 0 else (wReb.stack 0).rebuilt) ≤ v ∧ ∃ x ∈ heldSectors wReb 1 0 deviceBase, otherCopy x / 512 = v) →
      otherCopy 0 / 512 ≤ v) ∧
    (∀ v, ¬((if (wRebNone.stack 0).rebuild = Fill.due then 0 else (wRebNone.stack 0).rebuilt) ≤ v ∧
      ∃ x ∈ heldSectors wRebNone 1 0 deviceBase, otherCopy x / 512 = v)) := by
  have a : ∀ x ∈ heldSectors wReb 1 0 deviceBase, otherCopy 0 / 512 ≤ otherCopy x / 512 := by decide +kernel
  have b : heldSectors wRebNone 1 0 deviceBase = [] := by decide +kernel
  refine ⟨?_, ?_⟩
  · rintro _ ⟨_, x, hx, rfl⟩
    exact a x hx
  · rintro _ ⟨_, x, hx, _⟩
    rw [b] at hx
    cases hx

/-! The governor's order (PowerIsGovernedAndSensed). -/

abbrev wGovAct (s : State) (q : Nat) : Prop :=
  q < 64 ∧ (s.panel q).power = .active ∧ (s.panel q).lost = false ∧ (s.panel q).tension.target = none
abbrev wIsHot (s : State) (q : Nat) : Prop := wGovAct s q ∧ 95 ≤ (s.panel q).tension.temp ∧ (s.panel q).tension.step < 5
abbrev wIsSlow (s : State) (q : Nat) : Prop := wGovAct s q ∧ (s.panel q).tension.step < 5
abbrev wIsCool (s : State) (q : Nat) : Prop := wGovAct s q ∧ tensionBound (s.panel q) < (s.panel q).tension.step ∧ (s.panel q).tension.temp ≤ 90 ∧
  s.power.in1ms + 500 ≤ s.power.cap

theorem test_governorHot : wIsHot wHot 0 ∧ ∀ r, wIsHot wHot r → (wHot.panel r).tension.temp < (wHot.panel 0).tension.temp ∨
    ((wHot.panel r).tension.temp = (wHot.panel 0).tension.temp ∧ 0 ≤ r) := by
  have a : ∀ r < 64, wIsHot wHot r → (wHot.panel r).tension.temp < (wHot.panel 0).tension.temp ∨
    ((wHot.panel r).tension.temp = (wHot.panel 0).tension.temp ∧ 0 ≤ r) := by decide +kernel
  exact ⟨by decide +kernel, fun r h => a r h.1.1 h⟩

theorem test_governorSlow : (∀ q, ¬wIsHot wOver q) ∧ wOver.power.cap < wOver.power.in1ms ∧ wIsSlow wOver 0 ∧
    (∀ r, wIsSlow wOver r → (wOver.panel r).tension.temp < (wOver.panel 0).tension.temp ∨
      ((wOver.panel r).tension.temp = (wOver.panel 0).tension.temp ∧ 0 ≤ r)) ∧
    (∀ q, ¬wIsHot wOverNone q) ∧ wOverNone.power.cap < wOverNone.power.in1ms ∧ (∀ q, ¬wIsSlow wOverNone q) := by
  have a : (∀ q < 64, ¬wIsHot wOver q) ∧ wOver.power.cap < wOver.power.in1ms ∧ wIsSlow wOver 0 ∧
    (∀ r < 64, wIsSlow wOver r → (wOver.panel r).tension.temp < (wOver.panel 0).tension.temp ∨
      ((wOver.panel r).tension.temp = (wOver.panel 0).tension.temp ∧ 0 ≤ r)) ∧
    (∀ q < 64, ¬wIsHot wOverNone q) ∧ wOverNone.power.cap < wOverNone.power.in1ms ∧ (∀ q < 64, ¬wIsSlow wOverNone q) := by
    and_intros <;> decide +kernel
  exact ⟨fun q h => a.1 q h.1.1 h, a.2.1, a.2.2.1, fun r h => a.2.2.2.1 r h.1.1 h, fun q h => a.2.2.2.2.1 q h.1.1 h, a.2.2.2.2.2.1,
    fun q h => a.2.2.2.2.2.2 q h.1.1 h⟩

theorem test_governorCool : (∀ q, ¬wIsHot wFast q) ∧ wFast.power.in1ms ≤ wFast.power.cap ∧ wIsCool wFast 0 ∧
    (∀ r, wIsCool wFast r → (wFast.panel 0).tension.temp < (wFast.panel r).tension.temp ∨
      ((wFast.panel r).tension.temp = (wFast.panel 0).tension.temp ∧ 0 ≤ r)) ∧
    (∀ q, ¬wIsHot wCool q) ∧ wCool.power.in1ms ≤ wCool.power.cap ∧ (∀ q, ¬wIsCool wCool q) := by
  have a : (∀ q < 64, ¬wIsHot wFast q) ∧ wFast.power.in1ms ≤ wFast.power.cap ∧ wIsCool wFast 0 ∧
    (∀ r < 64, wIsCool wFast r → (wFast.panel 0).tension.temp < (wFast.panel r).tension.temp ∨
      ((wFast.panel r).tension.temp = (wFast.panel 0).tension.temp ∧ 0 ≤ r)) ∧
    (∀ q < 64, ¬wIsHot wCool q) ∧ wCool.power.in1ms ≤ wCool.power.cap ∧ (∀ q < 64, ¬wIsCool wCool q) := by
    and_intros <;> decide +kernel
  exact ⟨fun q h => a.1 q h.1.1 h, a.2.1, a.2.2.1, fun r h => a.2.2.2.1 r h.1.1 h, fun q h => a.2.2.2.2.1 q h.1.1 h, a.2.2.2.2.2.1,
    fun q h => a.2.2.2.2.2.2 q h.1.1 h⟩

/-- The operands of a chain of two stages name what stands before them (ChainsComputeTheirStages). -/
theorem test_chainOperands : ∀ k st, (fly0 chain2).stages[k]? = some st → ∀ x ∈ st.sels, (x ≤ 19 ∨ (24 ≤ x ∧ x - 24 < k)) ∧ (x = 0 → 0 < k) := by
  intro k st h
  match k, h with
  | 0, h => cases h; decide +kernel
  | 1, h => cases h; decide +kernel
  | k + 2, h => simp [fly0, chain2] at h

def flitOwn : Flit := { draft 3 9 7 false false 0 false (leBytes 8 0x5A17) with credit := 0 }

/-- A token of the module with serial 0x5A17 comes back to its port (ControlFlitsOfTheJob). -/
theorem test_ownToken (h : Config.serial.toNat = 0x5A17) :
    (wJr.port 0).state = .up ∧ (wJr.port 0).spoilt = 0 ∧ (sealed 3 flitOwn).seq.toNat = (wJr.port 0).rxNext ∧ (sealed 3 flitOwn).vc = 3 ∧
      jobOf wJr 0 = some 0 ∧ flitCrc 3 (sealed 3 flitOwn) = (sealed 3 flitOwn).crc.toNat ∧ (wJr.port 0).role = .reduce ∧
      (wJr.job 0).stepOpen = true ∧ (sealed 3 flitOwn).step.toNat = (wJr.job 0).n ∧
      fld (leNat (sealed 3 flitOwn).payload) 63 0 = Config.serial.toNat ∧ (wJr.job 0).tokenAt.isSome = true := by
  rw [h]; and_intros <;> decide +kernel

/-- An image of 128 bytes of kind 1 with the header that R362 gives, but for its signature. -/
def image1 : List Byte := leBytes 4 0x4D524946 ++ [1, 0, 0, 0] ++ leBytes 4 7 ++ leBytes 4 0 ++ leBytes 4 0 ++ List.replicate 108 0
def wImg : State := wC part1 (fun s => { s with ubide := ub0, mem := (image1.zipIdx.map (fun e => ((2 ^ 49 + e.2 : Nat), e.1))).filter (fun e => e.2 != 0) })

/-- Where the vendor's key is the fused one and the signature verifies, the image is accepted (SecurityCommands). -/
theorem test_imageAccepted (h : sha512 Config.vendorKey = Config.vendorDigest)
    (k : Config.ed25519Verify Config.vendorKey (sha512 (cut image1 0 64 ++ image1.drop 128)) (cut image1 64 64) = true) :
    memBytes wImg.mem (2 ^ 49) 128 = image1 ∧ cutN image1 4 1 = 1 ∧ imageCode image1 wImg.ubide.floor = 0 := by
  have a : cutN image1 0 4 = 0x4D524946 ∧ allZero (cut image1 5 3) = true ∧ allZero (cut image1 20 44) = true ∧
      cutN image1 16 4 + 128 = image1.length ∧ cutN image1 12 4 = 0 := by and_intros <;> decide +kernel
  refine ⟨by decide +kernel, by decide +kernel, ?_⟩
  simp [imageCode, a.1, a.2.1, a.2.2.1, a.2.2.2.1, a.2.2.2.2, h, k]
  decide +kernel

/-- The same image stands in the update buffer of a module in RECOVERY (SecurityCommands). -/
def wImgRec : State := { wImg with mstate := .recovery }

theorem test_recoveryImageTaken (h : sha512 Config.vendorKey = Config.vendorDigest)
    (k : Config.ed25519Verify Config.vendorKey (sha512 (cut image1 0 64 ++ image1.drop 128)) (cut image1 64 64) = true) :
    pcieUp wImgRec = true ∧ wImgRec.host.win = none ∧ argsFrom (cmdA 128 0 0 0) 1 = false ∧ wImgRec.rst.running = [] ∧ bufferBad wImgRec 0 128 = false ∧
      cutN (memBytes wImgRec.mem (2 ^ 49) 128) 4 1 < 3 ∧ imageCode (memBytes wImgRec.mem (2 ^ 49) 128) wImgRec.ubide.floor = 0 := by
  have e := test_imageAccepted h k
  refine ⟨by decide +kernel, by decide +kernel, by decide +kernel, by decide +kernel, by decide +kernel, by decide +kernel, ?_⟩
  rw [show wImgRec.mem = wImg.mem from rfl, show wImgRec.ubide.floor = wImg.ubide.floor from rfl, e.1]
  exact e.2.2

/-- A certificate of level `l` for the module with serial 0x5A17, authorised by `who`, but for its signature. -/
def certBytes (l who : Byte) : List Byte := leBytes 4 0x47424444 ++ [l, who, 0, 0] ++ leBytes 8 0x5A17 ++ leBytes 4 1 ++ List.replicate 108 0
def wCert (l who : Byte) : State :=
  wC part1 (fun s => { s with ubide := { ub0 with record := some (List.replicate 88 0 ++ [1] ++ List.replicate 423 5) }
                              mem := ((certBytes l who).zipIdx.map (fun e => ((2 ^ 48 + 0x12000 + e.2 : Nat), e.1))).filter (fun e => e.2 != 0) })

/-- Where its signature verifies, the certificate for D3 is good (SecurityCommands). -/
theorem test_certificateGood (h : Config.serial.toNat = 0x5A17)
    (k : Config.ed25519Verify Config.vendorDebugKey (cut (certBytes 3 0xFF) 0 64) (cut (certBytes 3 0xFF) 64 64) = true) :
    (wCert 3 0xFF).ubide.dbg = 0 ∧ locked (wCert 3 0xFF) = false ∧
      certOk (wCert 3 0xFF) 3 (memBytes (wCert 3 0xFF).mem (2 ^ 48 + 0x12000) 128) = true := by
  have a : cutN (certBytes 3 0xFF) 5 1 = 0xFF ∧ cutN (certBytes 3 0xFF) 0 4 = 0x47424444 ∧ cutN (certBytes 3 0xFF) 4 1 = 3 ∧
      cut (certBytes 3 0xFF) 8 8 = leBytes 8 0x5A17 ∧ cutN (certBytes 3 0xFF) 16 4 = 1 ∧ (wCert 3 0xFF).ubide.unlocks = 0 ∧
      memBytes (wCert 3 0xFF).mem (2 ^ 48 + 0x12000) 128 = certBytes 3 0xFF := by and_intros <;> decide +kernel
  refine ⟨by decide +kernel, by decide +kernel, ?_⟩
  rw [a.2.2.2.2.2.2]
  simp only [certOk, a.1, a.2.1, a.2.2.1, a.2.2.2.1, a.2.2.2.2.1, a.2.2.2.2.2.1, if_true, k, serialBytes, h]
  decide

/-- Where its signature verifies under the key of an enrolled owner, so is the certificate for D2 of an open partition. -/
theorem test_certificateOfAnOwner (h : Config.serial.toNat = 0x5A17)
    (k : Config.ed25519Verify (List.replicate 32 5) (cut (certBytes 2 0) 0 64) (cut (certBytes 2 0) 64 64) = true) :
    (wCert 2 0).ubide.dbg < 2 ∧ locked (wCert 2 0) = false ∧ cutN (memBytes (wCert 2 0).mem (2 ^ 48 + 0x12000) 128) 6 1 < 4 ∧
      ((wCert 2 0).part (cutN (memBytes (wCert 2 0).mem (2 ^ 48 + 0x12000) 128) 6 1)).session = .opened ∧
      certOk (wCert 2 0) 2 (memBytes (wCert 2 0).mem (2 ^ 48 + 0x12000) 128) = true := by
  have a : cutN (certBytes 2 0) 5 1 = 0 ∧ cutN (certBytes 2 0) 0 4 = 0x47424444 ∧ cutN (certBytes 2 0) 4 1 = 2 ∧
      cut (certBytes 2 0) 8 8 = leBytes 8 0x5A17 ∧ cutN (certBytes 2 0) 16 4 = 1 ∧ (wCert 2 0).ubide.unlocks = 0 ∧
      memBytes (wCert 2 0).mem (2 ^ 48 + 0x12000) 128 = certBytes 2 0 := by and_intros <;> decide +kernel
  have r : (wCert 2 0).ubide.record = some (List.replicate 88 0 ++ [1] ++ List.replicate 423 5) := rfl
  have e : enrolled (List.replicate 88 0 ++ [1] ++ List.replicate 423 5) 0 = true ∧
      recordKey (List.replicate 88 0 ++ [1] ++ List.replicate 423 5) 0 = List.replicate 32 5 := by and_intros <;> decide +kernel
  refine ⟨by decide +kernel, by decide +kernel, by decide +kernel, by decide +kernel, ?_⟩
  rw [a.2.2.2.2.2.2]
  simp only [certOk, r, a.1, a.2.1, a.2.2.1, a.2.2.2.1, a.2.2.2.2.1, a.2.2.2.2.2.1, e.1, e.2, serialBytes, h, show ((2 : Nat) = 3) = False from eq_false (by decide), if_false,
    show ((0 : Nat) < 8 ∧ True) = True from eq_true ⟨by decide, trivial⟩, if_true, k]
  decide

/-! Steps that keep their invariant take place (StepsKeepTheCapAndTheQueue, StepsKeepMemoryCanonical). -/

theorem test_stepAnswers : ∃ t, step wpend = goes t := ⟨_, rfl⟩

/-- The port and the partition of the LINK_ROLE cases are the only ones of their job (PartitionLinkAndSessionCommands). -/
theorem test_linkRole_alone : ∀ s ∈ [wRole, wRoleRec], ∀ r i, r < 16 → portPart s r = some i → i = 0 := by
  have h : ∀ s ∈ [wRole, wRoleRec], ∀ r < 16, portPart s r = none ∨ portPart s r = some 0 := by decide +kernel
  intro s hs r i hr hi
  rcases h s hs r hr with h | h <;> rw [h] at hi
  · cases hi
  · exact (Option.some.inj hi).symm

/-- The exceptions of EveryCommandCompletes shut out no other form of their commands. -/
theorem test_everyCommandCompletes_forms (v : W64) :
    (∀ mv, Instr.inputOutOfRange 60000 = .inputOutOfRange mv → mv ≤ 60000) ∧
      (∀ j y size w, Instr.debugWindowAccess false 0x9FFFF8 8 true v = .debugWindowAccess j y size true w → y < 0xA00000 ∨ 2 ^ 24 ≤ y ∨ (wDbg 3).ubide.dbg < 3) ∧
      (∀ a size w, Instr.registerWrite .host ⟨0x39FFFF8, 8⟩ v = .registerWrite .host ⟨a, size⟩ w → a < 0x3A00000 ∨ 2 ^ 26 ≤ a ∨ (wDbg 3).ubide.dbg < 3) := by
  refine ⟨?_, ?_, ?_⟩
  · intro _ h; cases h; decide
  · intro _ _ _ _ h; cases h; decide
  · intro _ _ _ h; cases h; decide

end Sys2Proof.Tests
end

section
/-! SUPPORT. Register words: bytes and masks of an access, the register write and the clearing read of a source, and the
registers that the statements on register writes name. -/

namespace Sys2Proof.Machine

open Sys2Proof

/-! Bytes, fields and masks. -/

theorem leBytes_length (n : Nat) : ∀ v, (leBytes n v).length = n := by
  induction n with
  | zero => intro v; rfl
  | succ n ih => intro v; simp [leBytes, ih]

theorem leNat_leBytes (n : Nat) : ∀ v, leNat (leBytes n v) = v % 256 ^ n := by
  induction n with
  | zero => intro v; simp [leBytes, leNat, Nat.mod_one]
  | succ n ih =>
    intro v
    simp only [leBytes, leNat, ih, BitVec.toNat_ofNat]
    rw [show 256 ^ (n + 1) = 256 * 256 ^ n from Nat.pow_succ', Nat.mod_mul]

theorem leBytes_drop (n : Nat) : ∀ k v, (leBytes n v).drop k = leBytes (n - k) (v / 256 ^ k) := by
  induction n with
  | zero => intro k v; simp [leBytes]
  | succ n ih =>
    intro k v
    cases k with
    | zero => simp
    | succ k => simp only [leBytes, List.drop_succ_cons, ih, Nat.add_sub_add_right, Nat.pow_succ', Nat.div_div_eq_div_mul]

theorem fld_eq (v hi lo : Nat) : fld v hi lo = v / 2 ^ lo % 2 ^ (hi + 1 - lo) := by rw [fld, Nat.shiftRight_eq_div_pow]

theorem byteMask_whole : byteMask 0 8 = 2 ^ 64 - 1 := rfl
theorem byteMask_low : byteMask 0 4 = 2 ^ 32 - 1 := rfl
theorem byteMask_high : byteMask 4 4 = 2 ^ 64 - 2 ^ 32 := rfl

/-- The mask of a whole register keeps a word as it is. -/
theorem toNat_and_whole (v : W64) : v.toNat &&& (2 ^ 64 - 1) = v.toNat := by
  rw [Nat.and_two_pow_sub_one_eq_mod, Nat.mod_eq_of_lt v.isLt]

/-- A write of the whole register replaces it. -/
theorem mergeBits_whole (old : Nat) (v : W64) : mergeBits old v.toNat (2 ^ 64 - 1) = v.toNat := by
  rw [mergeBits, toNat_and_whole, Nat.sub_self, Nat.and_zero, Nat.zero_add]

/-- A write of the lower half replaces the low three bits too. -/
theorem mergeBits_low_mod (old v : Nat) : mergeBits old v (2 ^ 32 - 1) % 8 = v % 8 := by
  have hold : (old &&& (2 ^ 64 - 1 - (2 ^ 32 - 1))) % 2 ^ 3 = 0 := by rw [Nat.and_mod_two_pow]; exact Nat.and_zero _
  have hnew : v &&& (2 ^ 32 - 1) = v % 2 ^ 32 := Nat.and_two_pow_sub_one_eq_mod _ _
  rw [mergeBits, hnew]
  omega

/-! The host's register access over BAR0 (R269, R272). -/

theorem exec_registerWrite (src : Source) (a size : Nat) (v : W64) (s : State) :
    exec (.registerWrite src ⟨a, size⟩ v) s = registerWrite src a size v s := rfl

theorem exec_clearingRead (src : Source) (a size : Nat) (s : State) :
    exec (.clearingRead src ⟨a, size⟩) s = clearingRead src a size s := rfl

/-- A write of a whole register below the debug window. -/
theorem hostWrite_whole {s : State} (up : pcieUp s = true) (a : Nat) (v : W64) (ha : a % 8 = 0) (hw : a < 0x3000000) :
    exec (.registerWrite .host ⟨a, 8⟩ v) s = goes (bar0Write a v.toNat (2 ^ 64 - 1) s) := by
  have ok : bar0Valid a 8 = true := by simp [bar0Valid, ha]; omega
  simp [exec_registerWrite, registerWrite, up, ok, Nat.not_le.mpr hw, ha, byteMask_whole, Nat.mod_eq_of_lt v.isLt]

/-- A write of the lower half of a register. -/
theorem hostWrite_low {s : State} (up : pcieUp s = true) (a : Nat) (v : W64) (ha : a % 8 = 0) (hw : a < 0x3000000) :
    exec (.registerWrite .host ⟨a, 4⟩ v) s = goes (bar0Write a (v.toNat % 2 ^ 32) (2 ^ 32 - 1) s) := by
  have ok : bar0Valid a 4 = true := by simp [bar0Valid]; omega
  simp [exec_registerWrite, registerWrite, up, ok, Nat.not_le.mpr hw, ha, byteMask_low]

/-- A write of the upper half of a register. -/
theorem hostWrite_high {s : State} (up : pcieUp s = true) (a : Nat) (v : W64) (ha : a % 8 = 4) (hw : a < 0x3000000) :
    exec (.registerWrite .host ⟨a, 4⟩ v) s = goes (bar0Write a (v.toNat % 2 ^ 32 * 2 ^ 32) (2 ^ 64 - 2 ^ 32) s) := by
  have ok : bar0Valid a 4 = true := by simp [bar0Valid]; omega
  simp [exec_registerWrite, registerWrite, up, ok, Nat.not_le.mpr hw, ha, byteMask_high]

/-- The module block takes the writes below 0x1_0000. -/
theorem bar0Write_mod (a v m : Nat) (s : State) (h : a < 0x10000) : bar0Write a v m s = modWrite (a - a % 8) v m s := by
  have h' : a - a % 8 < 0x10000 := by omega
  simp [bar0Write, h']

/-- The panel blocks take the writes from 0x100_0000 on. -/
theorem bar0Write_panel {a p off : Nat} (v m : Nat) (s : State) (ha : a = 0x1000000 + p * 0x10000 + off) (hp : p < 64)
    (ho : off < 0x10000) (h8 : off % 8 = 0) : bar0Write a v m s = (panelWrite false p off v m s).2 := by
  have h0 : a - a % 8 = a := by omega
  have hq : (a - 0x1000000) / 0x10000 = p := by omega
  have hr : a % 0x10000 = off := by omega
  have hlo : 0x1000000 ≤ a := by omega
  have hhi : a < 0x1400000 := by omega
  clear ha
  unfold bar0Write
  simp only [h0, hq, hr]
  iterate 6 rw [if_neg (by omega)]
  rw [if_pos ⟨hlo, hhi⟩]

/-- The BAR0 addresses below the debug window where a write has a meaning. -/
def bar0Writable (a : Nat) : Prop :=
  a < 0x10000 ∨ (0x10040 ≤ a ∧ a < 0x10080) ∨ a = 0x100D0 ∨ (0x12000 ≤ a ∧ a < 0x13000) ∨ a = 0x20000 ∨ a = 0x30008 ∨
    (0x1000000 ≤ a ∧ a < 0x1400000) ∨ (0x2000000 ≤ a ∧ a < 0x2100000)

/-- Every other register of BAR0 ignores a write. -/
theorem bar0Write_ignored (a v m : Nat) (s : State) (h8 : a % 8 = 0) (h : ¬bar0Writable a) : bar0Write a v m s = s := by
  unfold bar0Writable at h
  have ha : a - a % 8 = a := by omega
  unfold bar0Write
  simp only [ha]
  iterate 8 rw [if_neg (by omega)]

/-! Fields of the module block. -/

theorem modWrite_sel (v m : Nat) (s : State) :
    modWrite 0x0010 v m s = s.onHost (fun h => { h with sel := mergeBits (regVal (modFlds 0x0010 s)) v m % 8 }) := rfl

theorem modWrite_mstat (v m : Nat) (s : State) :
    modWrite 0x0100 v m s = if (v &&& m).testBit 57 then { s with attention := false } else s := rfl

theorem modWrite_pstat (k v m : Nat) (s : State) (hk : k < 4) :
    modWrite (0x0108 + 8 * k) v m s = if (v &&& m).testBit 57 then s.onPart k (fun K => { K with attention := false }) else s := by
  have hi : (0x0108 + 8 * k - 0x0108) / 8 = k := by omega
  unfold modWrite
  iterate 4 rw [if_neg (by omega)]
  rw [if_pos (by omega), hi]

theorem modWrite_cmdRej (v m : Nat) (s : State) :
    modWrite 0x0288 v m s =
      if (v &&& m).testBit 63 then s.onHost (fun h => { h with rejValid := false, rejTag := 0, rejOp := 0 }) else s := rfl

theorem modWrite_identity (v m : Nat) (s : State) : modWrite 0x0000 v m s = s := rfl
theorem modWrite_capability (v m : Nat) (s : State) : modWrite 0x0008 v m s = s := rfl
theorem modWrite_hostStat (v m : Nat) (s : State) : modWrite 0x0018 v m s = s := rfl
theorem modWrite_result (v m : Nat) (s : State) : modWrite 0x0300 v m s = s := rfl

/-! The control units as a sequencer writes them (R30, R32). -/

/-- The address of offset `off` of a control unit names it. -/
theorem targetOf_ctl {p u off : Nat} (hp : p < 64) (hu : u < 256) (ho : off < 2 ^ 32) (h0 : unitOk u off = true)
    (h7 : unitOk u (off + 7) = true) : targetOf (2 ^ 47 + p * 2 ^ 40 + u * 2 ^ 32 + off) 8 = some (.ctl p u off) := by
  have hkind : fld (2 ^ 47 + p * 2 ^ 40 + u * 2 ^ 32 + off) 47 46 = 2 := by rw [fld_eq]; omega
  have hunit : fld (2 ^ 47 + p * 2 ^ 40 + u * 2 ^ 32 + off) 39 32 = u := by rw [fld_eq]; omega
  have hoff : fld (2 ^ 47 + p * 2 ^ 40 + u * 2 ^ 32 + off) 31 0 = off := by rw [fld_eq]; omega
  have hpanel : fld (2 ^ 47 + p * 2 ^ 40 + u * 2 ^ 32 + off) 45 43 * 8 + fld (2 ^ 47 + p * 2 ^ 40 + u * 2 ^ 32 + off) 42 40 = p := by
    rw [fld_eq, fld_eq]; omega
  simp only [targetOf, hkind, hunit, hoff, hpanel, h0, show off + 8 - 1 = off + 7 from rfl, h7, Bool.and_self, if_true]

/-- A whole register of a control unit that is no sequencer memory. -/
theorem unitWrite_whole (src : Source) (p u off : Nat) (v : W64) (s : State) (hm : inSeqMem u off = false) (h8 : off % 8 = 0) :
    unitWrite src p u off (leBytes 8 v.toNat) s = unitWriteReg src p u off v.toNat (2 ^ 64 - 1) s := by
  have hv : v.toNat % 2 ^ 64 = v.toNat := Nat.mod_eq_of_lt v.isLt
  have hn : leNat (leBytes 8 v.toNat) = v.toNat := (leNat_leBytes 8 _).trans hv
  simp only [unitWrite, hm, leBytes_length, h8, hn, byteMask_whole, hv, Nat.mul_zero, Nat.pow_zero, Nat.mul_one, Nat.sub_zero,
    Nat.zero_add, Nat.lt_irrefl, if_false, Bool.false_eq_true]

/-- A sequencer's write of a whole register of its own panel that row 3 of R32 serves. -/
theorem seqWrite_whole {s : State} {a p u off : Nat} (v : W64) (ht : targetOf a 8 = some (.ctl p u off)) (hu : u ≠ 0x11)
    (hm : inSeqMem u off = false) (h8 : off % 8 = 0) (hc : carriedTarget s a 8 = false) (hs : ctlStatus s p u off = 0) :
    exec (.registerWrite (.seq p) ⟨a, 8⟩ v) s = goes (unitWriteReg (.seq p) p u off v.toNat (2 ^ 64 - 1) s).2 := by
  have hr : seqReg p a 8 = some (u, off) := by simp [seqReg, ht, hu]
  simp only [exec_registerWrite, registerWrite, hr, hs, hc, unitWrite_whole _ _ _ _ _ _ hm h8, Bool.not_false, and_self, if_true]

/-! The registers of a core (R59, R147, R172). -/

/-- A core stands at its local coordinates in its panel (R17, R18). -/
theorem coreIn_panelOf (n : Nat) : coreIn (panelOf n) (lxOf n) (lyOf n) = n := by
  simp only [coreIn, coreAt, panelOf, lxOf, lyOf, cxOf, cyOf]
  omega

/-- A core's own register block in unit 0x10 of its panel. -/
theorem unitWriteReg_core (src : Source) (n o v m : Nat) (s : State) (ho : o < 0x10000) :
    unitWriteReg src (panelOf n) 0x10 ((lyOf n * 23 + lxOf n) * 0x10000 + o) v m s = coreWrite n o v m s := by
  have hx : lxOf n < 23 := Nat.mod_lt _ (by decide)
  have hi : ((lyOf n * 23 + lxOf n) * 0x10000 + o) / 0x10000 = lyOf n * 23 + lxOf n := by omega
  have ho' : ((lyOf n * 23 + lxOf n) * 0x10000 + o) % 0x10000 = o := by omega
  have hlx : (lyOf n * 23 + lxOf n) % 23 = lxOf n := by omega
  have hly : (lyOf n * 23 + lxOf n) / 23 = lyOf n := by omega
  simp only [unitWriteReg, hi, ho', hlx, hly, coreIn_panelOf n]

/-- A sequencer's write of a register of a core of its panel. -/
theorem seqWrite_core {s : State} {n o : Nat} (v : W64) (hn : n < 35328) (ho : o < 0x10000) (h8 : o % 8 = 0)
    (hc : carriedTarget s (2 ^ 47 + panelOf n * 2 ^ 40 + 0x10 * 2 ^ 32 + ((lyOf n * 23 + lxOf n) * 0x10000 + o)) 8 = false)
    (hs : ctlStatus s (panelOf n) 0x10 ((lyOf n * 23 + lxOf n) * 0x10000 + o) = 0) :
    exec (.registerWrite (.seq (panelOf n)) ⟨2 ^ 47 + panelOf n * 2 ^ 40 + 0x10 * 2 ^ 32 + ((lyOf n * 23 + lxOf n) * 0x10000 + o), 8⟩ v) s =
      goes (coreWrite n o v.toNat (2 ^ 64 - 1) s).2 := by
  have hp : panelOf n < 64 := by simp only [panelOf, cxOf, cyOf]; omega
  have hx : lxOf n < 23 := Nat.mod_lt _ (by decide)
  have hy : lyOf n < 24 := Nat.mod_lt _ (by decide)
  have hu : ∀ b < 0x10000, unitOk 0x10 ((lyOf n * 23 + lxOf n) * 0x10000 + b) = true := fun b hb => by
    simp only [unitOk, decide_eq_true_eq]; omega
  have ht := targetOf_ctl hp (by decide) (by omega) (hu o ho) (by rw [Nat.add_assoc]; exact hu _ (by omega))
  rw [seqWrite_whole v ht (by decide) rfl (by omega) hc hs, unitWriteReg_core _ _ _ _ _ _ ho]

theorem coreWrite_status (n : Nat) (v : W64) (s : State) :
    (coreWrite n 0 v.toNat (2 ^ 64 - 1) s).2 = if v.getLsbD 20 = true then s.onCore n (fun c => { c with postFault := false }) else s := by
  simp only [coreWrite, toNat_and_whole, if_true, BitVec.testBit_toNat]

theorem coreWrite_streamStatus (n : Nat) (v : W64) (s : State) :
    (coreWrite n 8 v.toNat (2 ^ 64 - 1) s).2 = s.onCounts n (fun t =>
      { t with hazard := t.hazard &&& ~~~(v.extractLsb' 48 16), listFault := t.listFault &&& ~~~(v.extractLsb' 44 4) }) := by
  have hh : BitVec.ofNat 16 (fld v.toNat 63 48) = v.extractLsb' 48 16 := by
    apply BitVec.eq_of_toNat_eq; simp [fld, BitVec.extractLsb']
  have hl : BitVec.ofNat 4 (fld v.toNat 47 44) = v.extractLsb' 44 4 := by
    apply BitVec.eq_of_toNat_eq; simp [fld, BitVec.extractLsb']
  simp only [coreWrite, toNat_and_whole, hh, hl, if_true, show (8 : Nat) ≠ 0 from by decide, if_false]

theorem coreWrite_ueaddr (n : Nat) (v : W64) (s : State) :
    (coreWrite n 0x30 v.toNat (2 ^ 64 - 1) s).2 = if v.getLsbD 63 = true then s.onCore n (fun c => { c with ueaddr := 0 }) else s := by
  simp only [coreWrite, toNat_and_whole, if_true, BitVec.testBit_toNat, show (0x30 : Nat) ≠ 0 from by decide,
    show (0x30 : Nat) ≠ 8 from by decide, if_false]

theorem stkWrite_ueaddr (p : Nat) (v : W64) (s : State) :
    (stkWrite p 8 v.toNat (2 ^ 64 - 1) s).2 = if v.getLsbD 63 = true then s.onStack p (fun K => { K with ueaddr := 0 }) else s := by
  simp only [stkWrite, toNat_and_whole, if_true, BitVec.testBit_toNat]

/-! The panel registers (R301, R335, R336). -/

/-- Clearing listed keys of a table of flags, as a write of ones does, leaves every other flag. -/
theorem Tab.get_foldl_clear (one : Nat → Bool) (base i : Nat) : ∀ (l : List Nat) (t : Tab Bool),
    Tab.get false (l.foldl (fun t x => if one x = true then Tab.put false t (base + x) false else t) t) i =
      (Tab.get false t i && !l.any (fun x => one x && base + x == i)) := by
  intro l
  induction l with
  | nil => intro t; simp
  | cons x l ih =>
    intro t
    have hput : Tab.get false (if one x = true then Tab.put false t (base + x) false else t) i =
        (Tab.get false t i && !(one x && base + x == i)) := by
      by_cases hi : base + x = i
      · subst hi; cases one x <;> simp [Tab.get_put_same]
      · cases one x <;> simp [hi, Tab.get_put_other _ _ _ _ _ (Ne.symm hi)]
    rw [List.foldl_cons, ih, hput, List.any_cons, Bool.not_or, Bool.and_assoc]

/-- The PNL_FRESH bits of row `ly` after a write of `w`. -/
def clearFresh (ly w : Nat) (t : Tab Bool) : Tab Bool :=
  (List.range 23).foldl (fun t lx => if w.testBit lx = true then Tab.put false t (23 * ly + lx) false else t) t

theorem clearFresh_row (ly w lx : Nat) (t : Tab Bool) (h : lx < 23) :
    Tab.get false (clearFresh ly w t) (23 * ly + lx) = (Tab.get false t (23 * ly + lx) && !w.testBit lx) := by
  have hany : (List.range 23).any (fun x => w.testBit x && 23 * ly + x == 23 * ly + lx) = w.testBit lx := by
    rw [Bool.eq_iff_iff, List.any_eq_true]
    constructor
    · rintro ⟨x, _, hx⟩
      obtain ⟨hw, hx⟩ := Bool.and_eq_true_iff.mp hx
      exact Nat.add_left_cancel (beq_iff_eq.mp hx) ▸ hw
    · intro hw; exact ⟨lx, List.mem_range.mpr h, by simp [hw]⟩
  rw [clearFresh, Tab.get_foldl_clear, hany]

theorem clearFresh_other (ly w i : Nat) (t : Tab Bool) (h : i < 23 * ly ∨ 23 * ly + 23 ≤ i) :
    Tab.get false (clearFresh ly w t) i = Tab.get false t i := by
  have hany : (List.range 23).any (fun x => w.testBit x && 23 * ly + x == i) = false := by
    simp only [List.any_eq_false, List.mem_range, Bool.and_eq_true, beq_iff_eq]
    omega
  rw [clearFresh, Tab.get_foldl_clear, hany, Bool.not_false, Bool.and_true]

theorem panelWrite_fresh (p ly : Nat) (v : W64) (s : State) (h : ly < 24) :
    (panelWrite false p (0x0300 + 8 * ly) v.toNat (2 ^ 64 - 1) s).2 =
      s.onPanel p (fun P => { P with fresh := clearFresh ly v.toNat P.fresh }) := by
  have hi : (0x0300 + 8 * ly - 0x0300) / 8 = ly := by omega
  unfold panelWrite
  rw [if_neg (by omega), if_neg (by omega), if_pos (by omega)]
  simp only [toNat_and_whole, hi, clearFresh]

theorem panelWrite_power (p : Nat) (v : W64) (s : State) :
    (panelWrite false p 8 v.toNat (2 ^ 64 - 1) s).2 = if v.getLsbD 56 = true then (offRequest false p s).2 else s := by
  simp only [panelWrite, toNat_and_whole, if_true, BitVec.testBit_toNat]
  split <;> rfl

theorem panelWrite_status (p v m : Nat) (s : State) : (panelWrite false p 0 v m s).2 = s := rfl
theorem panelWrite_repair (p v m : Nat) (s : State) : (panelWrite false p 0x18 v m s).2 = s := rfl

/-- PNL_POWER_OFF by the host is the request of R301. -/
theorem exec_pnlPowerOff_host {s : State} (up : pcieUp s = true) {p : Nat} (hp : p < 64) :
    exec (.pnlPowerOff .host p) s = goes (offRequest false p s).2 := by
  change goes (powerOffWrite .host p s) = _
  simp [powerOffWrite, up, Nat.not_le.mpr hp]

/-! What the host's writes of single registers do (R271, R274, R278). -/

/-- A write of a whole register of the module block. -/
theorem write_module {s : State} (up : pcieUp s = true) (v : W64) {a : Nat} (h8 : a % 8 = 0) (ha : a < 0x10000) :
    exec (.registerWrite .host ⟨a, 8⟩ v) s = goes (modWrite a v.toNat (2 ^ 64 - 1) s) := by
  rw [hostWrite_whole up _ _ h8 (by omega), bar0Write_mod _ _ _ _ ha, h8, Nat.sub_zero]

theorem write_mstat {s : State} (up : pcieUp s = true) (v : W64) :
    exec (.registerWrite .host ⟨0x0100, 8⟩ v) s = goes (if v.getLsbD 57 = true then { s with attention := false } else s) := by
  rw [write_module up v (by decide) (by decide), modWrite_mstat, toNat_and_whole, BitVec.testBit_toNat]

theorem write_mstat_high {s : State} (up : pcieUp s = true) (v : W64) :
    exec (.registerWrite .host ⟨0x0104, 4⟩ v) s = goes (if v.getLsbD 25 = true then { s with attention := false } else s) := by
  have hbit : (v.toNat % 2 ^ 32 * 2 ^ 32 &&& (2 ^ 64 - 2 ^ 32)).testBit 57 = v.getLsbD 25 := by
    rw [Nat.testBit_and, Nat.testBit_mul_two_pow, Nat.testBit_mod_two_pow, BitVec.testBit_toNat,
      show Nat.testBit (2 ^ 64 - 2 ^ 32) 57 = true from by decide]
    simp
  rw [hostWrite_high up _ _ (by decide) (by decide), bar0Write_mod _ _ _ _ (by decide), modWrite_mstat, hbit]

theorem write_mstat_low {s : State} (up : pcieUp s = true) (v : W64) : exec (.registerWrite .host ⟨0x0100, 4⟩ v) s = goes s := by
  have hbit : (v.toNat % 2 ^ 32 &&& (2 ^ 32 - 1)).testBit 57 = false := by
    rw [Nat.testBit_and, Nat.testBit_mod_two_pow]; rfl
  rw [hostWrite_low up _ _ (by decide) (by decide), bar0Write_mod _ _ _ _ (by decide), modWrite_mstat, hbit]
  rfl

theorem write_pstat {s : State} (up : pcieUp s = true) (v : W64) {k : Nat} (hk : k < 4) :
    exec (.registerWrite .host ⟨0x0108 + 8 * k, 8⟩ v) s =
      goes (if v.getLsbD 57 = true then s.onPart k (fun K => { K with attention := false }) else s) := by
  rw [write_module up v (by omega) (by omega), modWrite_pstat _ _ _ _ hk, toNat_and_whole, BitVec.testBit_toNat]

theorem write_cmdRej {s : State} (up : pcieUp s = true) (v : W64) :
    exec (.registerWrite .host ⟨0x0288, 8⟩ v) s =
      goes (if v.getLsbD 63 = true then s.onHost (fun h => { h with rejValid := false, rejTag := 0, rejOp := 0 }) else s) := by
  rw [write_module up v (by decide) (by decide), modWrite_cmdRej, toNat_and_whole, BitVec.testBit_toNat]

/-- A write of a whole register of a panel block. -/
theorem write_panel {s : State} (up : pcieUp s = true) (v : W64) {a p off : Nat} (ha : a = 0x1000000 + p * 0x10000 + off)
    (hp : p < 64) (ho : off < 0x10000) (h8 : off % 8 = 0) :
    exec (.registerWrite .host ⟨a, 8⟩ v) s = goes (panelWrite false p off v.toNat (2 ^ 64 - 1) s).2 := by
  rw [hostWrite_whole up _ _ (by omega) (by omega), bar0Write_panel _ _ _ ha hp ho h8]

/-- The identity, counter and result registers of the control die. -/
def readOnlyRegs : List Nat :=
  [0x0000, 0x0008, 0x0018, 0x0300, 0x100C0, 0x100C8, 0x100D8, 0x20008, 0x20010, 0x30000, 0x40000, 0x40008, 0x40010]

/-- A register of the control die without writable bits ignores a write. -/
theorem write_readOnly {s : State} (up : pcieUp s = true) (v : W64) {a : Nat} (h : a ∈ readOnlyRegs) :
    exec (.registerWrite .host ⟨a, 8⟩ v) s = goes s := by
  obtain ⟨h8, hw⟩ := (show ∀ a ∈ readOnlyRegs, a % 8 = 0 ∧ a < 0x3000000 from by decide) a h
  by_cases hm : a < 0x10000
  · have ho : a ∈ [0x0000, 0x0008, 0x0018, 0x0300] :=
      (show ∀ a ∈ readOnlyRegs, a < 0x10000 → a ∈ [0x0000, 0x0008, 0x0018, 0x0300] from by decide) a h hm
    rw [write_module up v h8 hm]
    simp only [List.mem_cons, List.not_mem_nil, or_false] at ho
    rcases ho with rfl | rfl | rfl | rfl
    · rw [modWrite_identity]
    · rw [modWrite_capability]
    · rw [modWrite_hostStat]
    · rw [modWrite_result]
  · have hn : ¬bar0Writable a := by
      simp only [readOnlyRegs, List.mem_cons, List.not_mem_nil, or_false] at h
      unfold bar0Writable
      omega
    rw [hostWrite_whole up _ _ h8 hw, bar0Write_ignored _ _ _ _ h8 hn]

/-- Settles O51: each register's write is one update of the named field, under its bit. -/
theorem writeOneFieldsChangeTheirBitsAlone : Obligations.WriteOneFieldsChangeTheirBitsAlone := by
  intro v p n k ly s up hp hn hpn hk hly
  subst hpn
  refine ⟨write_mstat up v, write_mstat_high up v, write_mstat_low up v, write_pstat up v hk, write_cmdRej up v, ?fresh, ?powerKept,
    ?powerOff, ?coreStat, ?streamStat, ?spdUeaddr, ?stkUeaddr, ?readOnly⟩
  case fresh =>
    refine ⟨s.onPanel (panelOf n) (fun P => { P with fresh := clearFresh ly v.toNat P.fresh }), ?_, rfl, ?_, ?_, ?_, ?_⟩
    · rw [write_panel up v (Nat.add_assoc _ _ _) hp (by omega) (by omega), panelWrite_fresh _ _ _ _ hly]
    · intro lx hlx
      rw [State.panel_onPanel_same]
      exact clearFresh_row _ _ _ _ hlx
    · intro i hi
      rw [State.panel_onPanel_same]
      exact clearFresh_other _ _ _ _ hi
    · rw [State.panel_onPanel_same]
    · intro q hq
      exact State.panel_onPanel_other _ _ _ _ hq
  case powerKept =>
    intro hv
    rw [write_panel up v rfl hp (by decide) (by decide), panelWrite_power, hv]
    rfl
  case powerOff =>
    intro hv
    rw [write_panel up v rfl hp (by decide) (by decide), panelWrite_power, exec_pnlPowerOff_host up hp, hv]
    rfl
  case coreStat =>
    intro hc hs
    rw [seqWrite_core v hn (by decide) (by decide) hc hs, coreWrite_status]
  case streamStat =>
    intro hc hs
    rw [seqWrite_core v hn (by decide) (by decide) hc hs, coreWrite_streamStatus]
  case spdUeaddr =>
    intro hc hs
    rw [seqWrite_core v hn (by decide) (by decide) hc hs, coreWrite_ueaddr]
  case stkUeaddr =>
    intro hc hs
    have ht := targetOf_ctl (u := 3) (off := 8) hp (by decide) (by decide) (by decide) (by decide)
    rw [seqWrite_whole v ht (by decide) (by decide) (by decide) hc hs, ← stkWrite_ueaddr]
    rfl
  case readOnly =>
    intro a ha
    rw [show [0x0000, 0x0008, 0x0018, 0x0300, 0x100C0, 0x100C8, 0x100D8, 0x20008, 0x20010, 0x30000, 0x40000, 0x40008, 0x40010,
      0x1000000 + panelOf n * 0x10000, 0x1000000 + panelOf n * 0x10000 + 0x18] = readOnlyRegs ++
        [0x1000000 + panelOf n * 0x10000, 0x1000000 + panelOf n * 0x10000 + 0x18] from rfl, List.mem_append] at ha
    rcases ha with ha | ha
    · exact write_readOnly up v ha
    · simp only [List.mem_cons, List.not_mem_nil, or_false] at ha
      rcases ha with rfl | rfl
      · exact (write_panel up v (Nat.add_zero _).symm hp (by decide) (by decide)).trans (congrArg _ (panelWrite_status _ _ _ _))
      · exact (write_panel up v rfl hp (by decide) (by decide)).trans (congrArg _ (panelWrite_repair _ _ _ _))

/-! Fields of other registers as their own commands write them (R292, R309, R313, R357). -/

theorem exec_pnlTensionLimitWrite_host {s : State} (up : pcieUp s = true) {p : Nat} (hp : p < 64) (l : BitVec 3) :
    exec (.pnlTensionLimitWrite .host p l) s = goes (writeLimit p l.toNat s) := by
  change Host.Outcome.next (if p < 64 then blockWrite .host p 0 0x0010 (writeLimit p l.toNat) s else s) = _
  simp only [hp, blockWrite, up, if_true]

theorem exec_pwrCapWrite {s : State} (up : pcieUp s = true) (c : BitVec 16) :
    exec (.pwrCapWrite c) s = goes (writeCap c.toNat s) := by
  change Host.Outcome.next (hostWrite (writeCap c.toNat) s) = _
  simp only [hostWrite, up, if_true]

theorem exec_secCfgWrite {s : State} (up : pcieUp s = true) (r : BitVec 16) :
    exec (.secCfgWrite r) s = goes (writeResume r.toNat s) := by
  change Host.Outcome.next (hostWrite (writeResume r.toNat) s) = _
  simp only [hostWrite, up, if_true]

theorem exec_errTailWrite {s : State} (up : pcieUp s = true) (e : BitVec 9) :
    exec (.errTailWrite e) s = goes (writeTail e.toNat s) := by
  change Host.Outcome.next (hostWrite (writeTail e.toNat) s) = _
  simp only [hostWrite, up, if_true]

@[simp] theorem panel_onTension_same (p : Nat) (f : Tension → Tension) (s : State) :
    (onTension p f s).panel p = { s.panel p with tension := f (s.panel p).tension } := State.panel_onPanel_same _ _ _

/-- The bound sets a target at most: neither the limit nor the step changes at once (R308, R297). -/
theorem obeyBound_keeps (p : Nat) (s : State) :
    ((obeyBound p s).panel p).tension.limit = (s.panel p).tension.limit ∧
      ((obeyBound p s).panel p).tension.step = (s.panel p).tension.step := by
  simp only [obeyBound]
  split
  · simp
  · exact ⟨rfl, rfl⟩

theorem writeLimit_tension (p v : Nat) (s : State) :
    ((writeLimit p v s).panel p).tension.limit = min v 5 ∧ ((writeLimit p v s).panel p).tension.step = (s.panel p).tension.step := by
  obtain ⟨hl, hs⟩ := obeyBound_keeps p (onTension p (fun T => { T with limit := if 5 < v then 5 else v }) s)
  refine ⟨hl.trans ?_, hs.trans ?_⟩
  · rw [panel_onTension_same]
    change (if 5 < v then 5 else v) = min v 5
    split <;> omega
  · rw [panel_onTension_same]

/-- A tail between the old tail and the head frees the entries before it (R357). -/
theorem writeTail_frees (v : Nat) (s : State) (h : (v + 512 - s.log.tail) % 512 ≤ s.log.held.length) :
    writeTail v s = { s with log := { s.log with held := s.log.held.drop ((v + 512 - s.log.tail) % 512), tail := v % 512 } } :=
  if_neg (Nat.not_lt.mpr h)

/-- Any other tail is ignored. -/
theorem writeTail_ignored (v : Nat) (s : State) (h : s.log.held.length < (v + 512 - s.log.tail) % 512) : writeTail v s = s := if_pos h

/-! PNL_POWER.off (R301). -/

/-- Marking route tables out of date changes the hub of a panel alone. -/
theorem panel_foldl_stale (q : Nat) : ∀ (l : List Nat) (s : State),
    ∃ h, (l.foldl (fun s p => s.onPanel p (fun P => { P with hub := { P.hub with stale := true } })) s).panel q =
      { s.panel q with hub := h } := by
  intro l
  induction l with
  | nil => intro s; exact ⟨_, rfl⟩
  | cons p l ih =>
    intro s
    obtain ⟨h, e⟩ := ih (s.onPanel p (fun P => { P with hub := { P.hub with stale := true } }))
    refine ⟨h, ?_⟩
    rw [List.foldl_cons, e]
    by_cases hq : q = p
    · subst hq; rw [State.panel_onPanel_same]
    · rw [State.panel_onPanel_other _ _ _ _ hq]

theorem tablesChanged_panel (s : State) (q : Nat) : ∃ h, (tablesChanged s).panel q = { s.panel q with hub := h } := by
  unfold tablesChanged
  exact panel_foldl_stale q allPanels { s with transit := allPanels.map (fun p => (p, transitOf s p)) }

/-- A request that a check refuses leaves its status and nothing else. -/
theorem offRequest_seq (p : Nat) (s : State) : (offRequest true p s).2 = s.onPanel p (fun P => { P with reqSt := 0x0F }) := by
  simp [offRequest]

theorem offRequest_openSession {p k : Nat} {s : State} (hk : partOf s p = some k) (ho : (s.part k).session = .opened) :
    (offRequest false p s).2 = s.onPanel p (fun P => { P with reqSt := 0x04 }) := by
  simp [offRequest, hk, ho]

/-- An accepted request asks for OFF and the tables are recomputed first (R183). -/
theorem offRequest_accepted {p : Nat} {s : State} (hw : (s.panel p).power ≠ .off) (hp : partOf s p = none)
    (hm : (s.panel p).stack.mirrored = false) :
    (offRequest false p s).2 =
      tablesChanged ((s.onPanel p (fun P => { P with reqSt := 0 })).onPanel p (fun P => { P with offReq := true })) := by
  simp [offRequest, hw, hp, hm]

/-- An answer moves a packet and no panel changes. -/
theorem answer_panel (pid status : Nat) (data : List Byte) (pois : List Bool) (s : State) (q : Nat) :
    (answer pid status data pois s).panel q = s.panel q := by
  unfold answer movePacket
  split <;> rfl

/-- PNL_POWER_OFF by a panel's own sequencer is refused with ACCESS_DENIED, and p7 clears. -/
theorem powerOffWrite_seq_panel {p : Nat} (hp : p < 64) (s : State) :
    (powerOffWrite (.seq p) p s).panel p =
      { s.panel p with reqSt := 0x0F, seq := { s.seq p with regs := (s.seq p).regs.setP 7 false } } := by
  have hq : (((offRequest true p s).2).onSeq p (fun r => { r with regs := r.regs.setP 7 false })).panel p =
      { s.panel p with reqSt := 0x0F, seq := { s.seq p with regs := (s.seq p).regs.setP 7 false } } := by
    rw [offRequest_seq, State.onSeq, State.panel_onPanel_same, State.panel_onPanel_same]
    rfl
  simp only [powerOffWrite, Nat.not_le.mpr hp, if_false]
  split
  · rw [answer_panel, hq]
  · exact hq

/-! BAR2_SEL, the flag register and HOST_STAT (R66, R275, R276). -/

theorem write_bar2Sel {s : State} (up : pcieUp s = true) (v : W64) {size : Nat} (hs : size = 4 ∨ size = 8) :
    exec (.registerWrite .host ⟨0x0010, size⟩ v) s = goes (s.onHost (fun h => { h with sel := v.toNat % 8 })) := by
  rcases hs with rfl | rfl
  · rw [hostWrite_low up _ _ (by decide) (by decide), bar0Write_mod _ _ _ _ (by decide), modWrite_sel, mergeBits_low_mod,
      show v.toNat % 2 ^ 32 % 8 = v.toNat % 8 from by omega]
  · rw [write_module up v (by decide) (by decide), modWrite_sel, mergeBits_whole]

/-- A sequencer's flag register takes the whole word (R66). -/
theorem seqWrite_flags (p : Nat) (v : W64) (s : State) :
    (seqWrite p 8 v.toNat (2 ^ 64 - 1) s).2 = s.onSeq p (fun q => { q with flags := v }) := by
  simp only [seqWrite, if_true, mergeBits_whole, BitVec.ofNat_toNat, BitVec.setWidth_eq]

theorem regVal_nil : regVal [] = 0 := rfl

theorem regVal_rcOf (lo w v : Nat) (f : State → State) (l : List RFld) :
    regVal (rcOf lo w v f :: l) = v % 2 ^ w * 2 ^ lo + regVal l := by
  rw [regVal, List.map_cons, List.sum_cons]; rfl

theorem regClear_nil (mask : Nat) (s : State) : regClear [] mask s = s := rfl

/-- A read clears an RC field that it touches. -/
theorem regClear_hit {lo w mask : Nat} (h : mask &&& ((2 ^ w - 1) * 2 ^ lo) ≠ 0) (v : Nat) (f : State → State) (l : List RFld) (s : State) :
    regClear (rcOf lo w v f :: l) mask s = regClear l mask (f s) :=
  congrArg (regClear l mask) (if_pos h)

/-- A read leaves an RC field that it does not touch. -/
theorem regClear_miss {lo w mask : Nat} (h : mask &&& ((2 ^ w - 1) * 2 ^ lo) = 0) (v : Nat) (f : State → State) (l : List RFld) (s : State) :
    regClear (rcOf lo w v f :: l) mask s = regClear l mask s :=
  congrArg (regClear l mask) (if_neg (not_not.mpr h))

/-- The fields of HOST_STAT: four counters that a read clears. -/
theorem modFlds_hostStat (s : State) : modFlds 0x0018 s =
    [rcOf 48 16 s.host.retry (fun s => s.onHost (fun h => { h with retry := 0 })),
      rcOf 32 16 s.host.ur (fun s => s.onHost (fun h => { h with ur := 0 })),
      rcOf 16 16 s.host.ep (fun s => s.onHost (fun h => { h with ep := 0 })),
      rcOf 8 8 s.host.lastSt (fun s => s.onHost (fun h => { h with lastSt := 0 }))] := rfl

theorem regVal_hostStat (s : State) :
    regVal (modFlds 0x0018 s) = (s.host.retry % 2 ^ 16) * 2 ^ 48 + (s.host.ur % 2 ^ 16) * 2 ^ 32 + (s.host.ep % 2 ^ 16) * 2 ^ 16 +
      (s.host.lastSt % 2 ^ 8) * 2 ^ 8 := by
  rw [modFlds_hostStat, regVal_rcOf, regVal_rcOf, regVal_rcOf, regVal_rcOf, regVal_nil, Nat.add_zero, Nat.add_assoc, Nat.add_assoc]

/-- A read of the whole of HOST_STAT clears its four fields. -/
theorem regClear_hostStat_whole (s : State) :
    regClear (modFlds 0x0018 s) (2 ^ 64 - 1) s = s.onHost (fun h => { h with retry := 0, ur := 0, ep := 0, lastSt := 0 }) := by
  rw [modFlds_hostStat, regClear_hit (by decide), regClear_hit (by decide), regClear_hit (by decide), regClear_hit (by decide), regClear_nil]
  simp only [State.onHost]

/-- A read of its upper half clears the two fields there. -/
theorem regClear_hostStat_high (s : State) :
    regClear (modFlds 0x0018 s) (2 ^ 64 - 2 ^ 32) s = s.onHost (fun h => { h with retry := 0, ur := 0 }) := by
  rw [modFlds_hostStat, regClear_hit (by decide), regClear_hit (by decide), regClear_miss (by decide), regClear_miss (by decide), regClear_nil]
  simp only [State.onHost]

/-- A read of a register of the module block answers its bytes and clears the RC fields that it touches (R4, R6). -/
theorem hostRead_mod {s : State} (up : pcieUp s = true) {a size : Nat} (hv : bar0Valid a size = true) (ha : a < 0x10000)
    (hf : a / 8 * 8 ≠ 0x28) :
    exec (.clearingRead .host ⟨a, size⟩) s =
      goes (reply (((leBytes 8 (regVal (modFlds (a - a % 8) s))).drop (a % 8)).take size) false 0
        (regClear (modFlds (a - a % 8) s) (byteMask (a % 8) size) s)) := by
  have hraw : bar0Raw a = false := by simp [bar0Raw]; omega
  have hflds : bar0Flds (a - a % 8) s = modFlds (a - a % 8) s := if_pos (by omega)
  have hwin : ¬0x3000000 ≤ a := by omega
  simp [exec_clearingRead, clearingRead, up, hv, hwin, hf, bar0Read, hraw, hflds, readReg]

theorem read_hostStat {s : State} (up : pcieUp s = true) :
    exec (.clearingRead .host ⟨0x0018, 8⟩) s =
      goes (reply (leBytes 8 (regVal (modFlds 0x0018 s))) false 0
        (s.onHost (fun h => { h with retry := 0, ur := 0, ep := 0, lastSt := 0 }))) := by
  rw [hostRead_mod up rfl (by decide) (by decide), ← regClear_hostStat_whole]
  rfl

theorem read_hostStat_high {s : State} (up : pcieUp s = true) :
    exec (.clearingRead .host ⟨0x001C, 4⟩) s =
      goes (reply (leBytes 4 (regVal (modFlds 0x0018 s) / 2 ^ 32)) false 0 (s.onHost (fun h => { h with retry := 0, ur := 0 }))) := by
  have hd : ((leBytes 8 (regVal (modFlds 0x0018 s))).drop 4).take 4 = leBytes 4 (regVal (modFlds 0x0018 s) / 2 ^ 32) := by
    rw [leBytes_drop, List.take_of_length_le (leBytes_length _ _).le, show 256 ^ 4 = 2 ^ 32 from rfl]
  rw [hostRead_mod up rfl (by decide) (by decide), ← regClear_hostStat_high, ← hd]
  rfl

/-- Settles O42: each command is one update of the named registers, and what R301 refuses leaves its status alone. -/
theorem registersAreWrittenAndRead : Obligations.RegistersAreWrittenAndRead := by
  intro p l c r e v s hp up
  refine ⟨?offAsked, ?offShut, ?offSeq, ?tension, ?cap, ?resume, ⟨?tailFrees, ?tailIgnored⟩, ?bar2Sel, ?flags, ?statHigh, ?statWhole⟩
  case offAsked =>
    intro hw hn hm
    refine ⟨_, exec_pnlPowerOff_host up hp, ?_⟩
    rw [offRequest_accepted hw hn hm]
    obtain ⟨h, e⟩ := tablesChanged_panel ((s.onPanel p (fun P => { P with reqSt := 0 })).onPanel p (fun P => { P with offReq := true })) p
    rw [e, State.panel_onPanel_same, State.panel_onPanel_same]
    exact ⟨rfl, rfl, rfl⟩
  case offShut =>
    intro k hk ho
    refine ⟨_, exec_pnlPowerOff_host up hp, ?_⟩
    rw [offRequest_openSession hk ho, State.panel_onPanel_same]
    exact ⟨rfl, rfl⟩
  case offSeq =>
    refine ⟨powerOffWrite (.seq p) p s, rfl, ?_⟩
    rw [State.seq, powerOffWrite_seq_panel hp]
    exact ⟨rfl, rfl, rfl⟩
  case tension => exact ⟨_, exec_pnlTensionLimitWrite_host up hp l, writeLimit_tension p l.toNat s⟩
  case cap => exact exec_pwrCapWrite up c
  case resume =>
    have hz : (r = 0) = (r.toNat = 0) := propext (BitVec.toNat_inj (y := 0)).symm
    simp only [exec_secCfgWrite up, writeResume, hz]
  case tailFrees =>
    intro h
    refine ⟨_, exec_errTailWrite up e, ?_⟩
    rw [writeTail_frees _ _ h]
    exact ⟨Nat.mod_eq_of_lt e.isLt, rfl, rfl⟩
  case tailIgnored =>
    intro h
    rw [exec_errTailWrite up, writeTail_ignored _ _ h]
  case bar2Sel =>
    intro size hs
    exact ⟨_, write_bar2Sel up v hs, rfl, rfl⟩
  case flags =>
    intro hs
    have ha : 2 * 2 ^ 46 + (p / 8) * 2 ^ 43 + (p % 8) * 2 ^ 40 + 2 ^ 32 + 8 = 2 ^ 47 + p * 2 ^ 40 + 1 * 2 ^ 32 + 8 := by omega
    have ht := targetOf_ctl (u := 1) (off := 8) hp (by decide) (by decide) (by decide) (by decide)
    have hc : carriedTarget s (2 ^ 47 + p * 2 ^ 40 + 1 * 2 ^ 32 + 8) 8 = false := by rw [carriedTarget, ht]; rfl
    rw [ha, seqWrite_whole v ht (by decide) (by decide) (by decide) hc hs, ← seqWrite_flags]
    rfl
  case statHigh =>
    refine ⟨_, read_hostStat_high up, rfl, rfl, rfl, rfl, ?_⟩
    have hw : regVal (modFlds 0x0018 s) / 2 ^ 32 = (s.host.retry % 2 ^ 16) * 2 ^ 16 + s.host.ur % 2 ^ 16 := by
      rw [regVal_hostStat]; omega
    rw [hw]
    rfl
  case statWhole =>
    refine ⟨_, read_hostStat up, rfl, rfl, rfl, rfl, ?_⟩
    rw [regVal_hostStat]
    rfl

end Sys2Proof.Machine
end

section
/-! SUPPORT. What every step keeps: the canonical form of the memory, the bounds of the power cap, and the queue of
commands; the rules by which a function of the model keeps them. -/

namespace Sys2Proof.Machine

open Sys2Proof

/-- Removing an entry, or listing a byte that is not the default, keeps the canonical form. -/
theorem Memory.wf_set {m : List Host.Cell} {a : Nat} {v : Byte} (h : Memory.wf m = true) (hv : ¬v = memDefault) :
    Memory.wf (Tab.set m a v) = true := by
  have hp := Memory.wf_memPut m a v h
  rwa [memPut, Tab.put, if_neg hv] at hp

/-- Writes of bytes in turn keep the canonical form. -/
theorem Memory.wf_foldl_memPut {α : Type} (f : α → Nat) (g : α → Byte) (l : List α) (m : List Host.Cell)
    (h : Memory.wf m = true) : Memory.wf (l.foldl (fun m x => memPut m (f x) (g x)) m) = true := by
  induction l generalizing m with
  | nil => exact h
  | cons x l ih => exact ih _ (Memory.wf_memPut _ _ _ h)

/-- From `s` to `t` the canonical form of the memory is kept (R29, R128), and so are the bounds of the power cap
(R309, R315); the queue of commands is the same. -/
def Keeps (s t : State) : Prop :=
  (Memory.wf s.mem = true → Memory.wf t.mem = true) ∧
    (16000 ≤ s.power.cap ∧ s.power.cap ≤ 42000 → 16000 ≤ t.power.cap ∧ t.power.cap ≤ 42000) ∧ t.pending = s.pending

/-- What a slot of a bundle does at issue keeps the invariants, whichever state its registers are read from (R34). -/
def SlotKeeps (o : SlotOp) : Prop := ∀ s₀ n u s, Keeps s₀ s → Keeps s₀ (o.run n u s)

/-- Each of the four slots of a bundle does. -/
def OpsKeep (o : Ops) : Prop := SlotKeeps o.c ∧ SlotKeeps o.m ∧ SlotKeeps o.v ∧ SlotKeeps o.s

/-- What a clearing read of these fields changes keeps the invariants (R4, R6). -/
def FldsKeep (l : List RFld) : Prop := ∀ f ∈ l, ∀ g, f.clr = some g → ∀ s, Keeps s (g s)

namespace Keeps

theorem refl (s : State) : Keeps s s := ⟨id, id, rfl⟩

variable {s₀ s t : State} {α : Type}

theorem trans (h : Keeps s₀ s) (k : Keeps s t) : Keeps s₀ t := by
  obtain ⟨hm, hc, hq⟩ := h
  obtain ⟨km, kc, kq⟩ := k
  exact ⟨fun w => km (hm w), fun c => kc (hc c), kq.trans hq⟩

/-- The memory alone changes, and keeps its form. -/
theorem setMem {m : List Host.Cell} (h : Keeps s₀ s) (hm : Memory.wf s.mem = true → Memory.wf m = true) :
    Keeps s₀ { s with mem := m } := ⟨fun w => hm (h.1 w), h.2⟩

theorem ite {c : Prop} [Decidable c] (hs : Keeps s₀ s) (ht : Keeps s₀ t) : Keeps s₀ (if c then s else t) := by
  split
  · exact hs
  · exact ht

theorem iteSnd {c : Prop} [Decidable c] {x y : α × State} (hx : Keeps s₀ x.2) (hy : Keeps s₀ y.2) :
    Keeps s₀ (if c then x else y).2 := by
  split
  · exact hx
  · exact hy

theorem iteSndSnd {β : Type} {c : Prop} [Decidable c] {x y : α × β × State} (hx : Keeps s₀ x.2.2) (hy : Keeps s₀ y.2.2) :
    Keeps s₀ (if c then x else y).2.2 := by
  split
  · exact hx
  · exact hy

theorem ofSnd {x : α × State} {a : α} (h : Keeps s₀ x.2) (e : x = (a, t)) : Keeps s₀ t := by
  subst e
  exact h

theorem ofFst {x : State × α} {a : α} (h : Keeps s₀ x.1) (e : x = (t, a)) : Keeps s₀ t := by
  subst e
  exact h

theorem foldl {f : State → α → State} {l : List α} (h : Keeps s₀ s) (hf : ∀ t x, Keeps s₀ t → Keeps s₀ (f t x)) :
    Keeps s₀ (l.foldl f s) := by
  induction l generalizing s with
  | nil => exact h
  | cons x l ih => exact ih (hf s x h)

theorem foldlOn {β : Type} {π : β → State} {f : β → α → β} {b : β} {l : List α} (h : Keeps s₀ (π b))
    (hf : ∀ c x, Keeps s₀ (π c) → Keeps s₀ (π (f c x))) : Keeps s₀ (π (l.foldl f b)) := by
  induction l generalizing b with
  | nil => exact h
  | cons x l ih => exact ih (hf b x h)

theorem foldlSnd {β : Type} {f : β × State → α → β × State} {b : β × State} {l : List α} (h : Keeps s₀ b.2)
    (hf : ∀ c x, Keeps s₀ c.2 → Keeps s₀ (f c x).2) : Keeps s₀ (l.foldl f b).2 := foldlOn (π := Prod.snd) h hf

end Keeps

theorem fldsKeep_nil : FldsKeep [] := fun _ h => nomatch h

theorem fldsKeep_fldOf (lo w v : Nat) (l : List RFld) : FldsKeep (fldOf lo w v :: l) ↔ FldsKeep l := by
  simp [FldsKeep, fldOf]

theorem fldsKeep_rcOf (lo w v : Nat) (f : State → State) (l : List RFld) :
    FldsKeep (rcOf lo w v f :: l) ↔ (∀ s, Keeps s (f s)) ∧ FldsKeep l := by
  simp [FldsKeep, rcOf]

theorem fldsKeep_map_fldOf {α : Type} (f g h : α → Nat) (l : List α) : FldsKeep (l.map fun i => fldOf (f i) (g i) (h i)) := by
  simp [FldsKeep, fldOf]

theorem fldsKeep_ite {c : Prop} [Decidable c] {l m : List RFld} (hl : FldsKeep l) (hm : FldsKeep m) :
    FldsKeep (if c then l else m) := by
  split
  · exact hl
  · exact hm

/-- A clearing read changes neither the memory nor the cap nor the queue: an update of one part of the state does not. -/
theorem panelFlds_keep (p off : Nat) (s : State) : FldsKeep (panelFlds p off s) := by
  unfold panelFlds
  repeat' apply fldsKeep_ite
  all_goals simp [fldsKeep_nil, fldsKeep_fldOf, fldsKeep_rcOf, Keeps, onTension]

theorem seqFlds_keep (p off : Nat) (s : State) : FldsKeep (seqFlds p off s) := by
  unfold seqFlds
  repeat' apply fldsKeep_ite
  all_goals try split
  all_goals simp [fldsKeep_nil, fldsKeep_fldOf, fldsKeep_rcOf, Keeps]
theorem hubFlds_keep (p off : Nat) (s : State) : FldsKeep (hubFlds p off s) := by
  unfold hubFlds
  repeat' apply fldsKeep_ite
  all_goals simp [fldsKeep_nil, fldsKeep_fldOf, fldsKeep_rcOf, Keeps, State.onHub]
theorem stkFlds_keep (p off : Nat) (s : State) : FldsKeep (stkFlds p off s) := by
  unfold stkFlds
  dsimp only
  repeat' apply fldsKeep_ite
  all_goals try split
  all_goals simp [fldsKeep_nil, fldsKeep_fldOf, fldsKeep_rcOf, Keeps, State.onStack]
theorem lnkFlds_keep (o off : Nat) (s : State) : FldsKeep (lnkFlds o off s) := by
  unfold lnkFlds
  repeat' apply fldsKeep_ite
  all_goals try split
  all_goals try split
  all_goals simp [fldsKeep_nil, fldsKeep_fldOf, fldsKeep_rcOf, Keeps]
theorem coreFlds_keep (n off : Nat) (s : State) : FldsKeep (coreFlds n off s) := by
  unfold coreFlds
  repeat' apply fldsKeep_ite
  all_goals simp [fldsKeep_nil, fldsKeep_fldOf, fldsKeep_rcOf, Keeps, clrCount]
theorem dbgFlds_keep (off : Nat) (s : State) : FldsKeep (dbgFlds off s) := by
  unfold dbgFlds
  repeat' apply fldsKeep_ite
  all_goals simp [fldsKeep_nil, fldsKeep_fldOf, fldsKeep_rcOf, Keeps]
theorem modFlds_keep (off : Nat) (s : State) : FldsKeep (modFlds off s) := by
  unfold modFlds
  repeat' apply fldsKeep_ite
  all_goals simp [fldsKeep_nil, fldsKeep_fldOf, fldsKeep_rcOf, Keeps, mstatWord, pstatWord]
theorem secFlds_keep (off : Nat) (s : State) : FldsKeep (secFlds off s) := by
  unfold secFlds
  repeat' apply fldsKeep_ite
  all_goals simp [fldsKeep_nil, fldsKeep_fldOf, fldsKeep_rcOf, fldsKeep_map_fldOf, Keeps]
theorem pwrFlds_keep (off : Nat) (s : State) : FldsKeep (pwrFlds off s) := by
  unfold pwrFlds
  repeat' apply fldsKeep_ite
  all_goals simp [fldsKeep_nil, fldsKeep_fldOf, fldsKeep_rcOf, Keeps, State.onPower]
theorem errFlds_keep (off : Nat) (s : State) : FldsKeep (errFlds off s) := by
  unfold errFlds
  repeat' apply fldsKeep_ite
  all_goals try split
  all_goals simp [fldsKeep_nil, fldsKeep_fldOf, fldsKeep_rcOf, Keeps]
theorem rstFlds_keep (off : Nat) (s : State) : FldsKeep (rstFlds off s) := by
  unfold rstFlds
  repeat' apply fldsKeep_ite
  all_goals simp [fldsKeep_nil, fldsKeep_fldOf, fldsKeep_rcOf, fldsKeep_map_fldOf, Keeps]
theorem bar0Flds_keep (a : Nat) (s : State) : FldsKeep (bar0Flds a s) := by
  unfold bar0Flds
  exact fldsKeep_ite (modFlds_keep _ _) (fldsKeep_ite (secFlds_keep _ _) (fldsKeep_ite (pwrFlds_keep _ _)
    (fldsKeep_ite (errFlds_keep _ _) (fldsKeep_ite (rstFlds_keep _ _) (fldsKeep_ite (panelFlds_keep _ _ _)
      (fldsKeep_ite (lnkFlds_keep _ _ _) fldsKeep_nil))))))
theorem unitFlds_keep (p u off : Nat) (s : State) : FldsKeep (unitFlds p u off s) := by
  unfold unitFlds
  split
  · exact panelFlds_keep _ _ _
  · exact seqFlds_keep _ _ _
  · exact hubFlds_keep _ _ _
  · exact stkFlds_keep _ _ _
  · exact lnkFlds_keep _ _ _
  · exact lnkFlds_keep _ _ _
  · exact coreFlds_keep _ _ _
  · exact coreFlds_keep _ _ _

end Sys2Proof.Machine
end

section
/-! SUPPORT. What keeps the memory canonical and the power cap in its bounds: the updates of the state, the
scratchpad and the contexts of a core (chapters 02, 03 and 07). -/

namespace Sys2Proof.Machine

open Sys2Proof

namespace Keeps

variable {s₀ s t : State} {α : Type}

theorem onCore {n : Nat} {f : Core → Core} (h : Keeps s₀ s) : Keeps s₀ (State.onCore s n f) :=
  h

theorem onPanel {p : Nat} {f : Panel → Panel} (h : Keeps s₀ s) : Keeps s₀ (State.onPanel s p f) :=
  h

theorem onPart {k : Nat} {f : Part → Part} (h : Keeps s₀ s) : Keeps s₀ (State.onPart s k f) :=
  h

theorem onPort {o : Nat} {f : Port → Port} (h : Keeps s₀ s) : Keeps s₀ (State.onPort s o f) :=
  h

theorem onHost {f : HostIf → HostIf} (h : Keeps s₀ s) : Keeps s₀ (State.onHost s f) :=
  h

theorem onUbide {f : Ubide → Ubide} (h : Keeps s₀ s) : Keeps s₀ (State.onUbide s f) :=
  h

theorem onRst {f : ResetCtl → ResetCtl} (h : Keeps s₀ s) : Keeps s₀ (State.onRst s f) :=
  h

theorem onPower {f : Power → Power} (h : Keeps s₀ s) (hf : ∀ w, (f w).cap = w.cap := by exact fun _ => rfl) :
    Keeps s₀ (s.onPower f) := by
  obtain ⟨hm, hc, hq⟩ := h
  refine ⟨hm, fun c => ?_, hq⟩
  rw [State.onPower, hf]
  exact hc c

theorem onJob {k : Nat} {f : JobSt → JobSt} (h : Keeps s₀ s) : Keeps s₀ (State.onJob s k f) := by
  unfold State.onJob
  exact .onPart h

theorem freshNat (h : Keeps s₀ s) : Keeps s₀ (freshNat s).2 :=
  h

theorem msix (h : Keeps s₀ s) : Keeps s₀ (msix s) := by
  unfold Machine.msix
  exact .onHost h

theorem attend (h : Keeps s₀ s) : Keeps s₀ (attend s) := by
  unfold Machine.attend
  exact .ite h (.msix h)

theorem attendPart {k : Nat} (h : Keeps s₀ s) : Keeps s₀ (attendPart k s) := by
  unfold Machine.attendPart
  exact .ite h (.msix (.onPart h))

theorem logErr {severity cls unit status d0 d1 : Nat} (h : Keeps s₀ s) :
    Keeps s₀ (logErr severity cls unit status d0 d1 s) := by
  unfold Machine.logErr
  exact .ite (.ite (.attend h) h) (.ite (.attend h) h)

theorem onCtx {n k : Nat} {f : Ctx → Ctx} (h : Keeps s₀ s) : Keeps s₀ (State.onCtx s n k f) := by
  unfold State.onCtx
  exact .onCore h

theorem onCur {n : Nat} {f : Ctx → Ctx} (h : Keeps s₀ s) : Keeps s₀ (State.onCur s n f) := by
  unfold State.onCur
  exact .onCtx h

theorem onCounts {n : Nat} {f : Counts → Counts} (h : Keeps s₀ s) : Keeps s₀ (State.onCounts s n f) := by
  unfold State.onCounts
  exact .onCur h

theorem onArr {n a : Nat} {f : Arr → Arr} (h : Keeps s₀ s) : Keeps s₀ (State.onArr s n a f) := by
  unfold State.onArr
  exact .onCore h

theorem onList {n k l : Nat} {f : SList → SList} (h : Keeps s₀ s) : Keeps s₀ (State.onList s n k l f) := by
  unfold State.onList
  exact .onCtx h

theorem onSlot {n k q : Nat} {f : QSlot → QSlot} (h : Keeps s₀ s) : Keeps s₀ (State.onSlot s n k q f) := by
  unfold State.onSlot
  exact .onCtx h

theorem onSeq {p : Nat} {f : Seq → Seq} (h : Keeps s₀ s) : Keeps s₀ (State.onSeq s p f) := by
  unfold State.onSeq
  exact .onPanel h

theorem putLine {n l : Nat} {v : Line} (h : Keeps s₀ s) : Keeps s₀ (State.putLine s n l v) :=
  h

theorem recordUe {path n l : Nat} {weight checked : Bool} {off : Nat} (h : Keeps s₀ s) :
    Keeps s₀ (recordUe path n l weight checked off s) := by
  unfold Machine.recordUe
  exact .logErr (.putLine (.onCore h))

theorem materialise {n l : Nat} (h : Keeps s₀ s) : Keeps s₀ (materialise n l s) := by
  unfold Machine.materialise
  dsimp only
  split
  · exact h
  · exact .onCore (.putLine (.setMem h (Memory.wf_memPutBytes _ _ _)))

theorem readLine {path n l : Nat} (h : Keeps s₀ s) : Keeps s₀ (readLine path n l s).2 := by
  unfold Machine.readLine
  dsimp only
  split
  · exact h
  · exact .onCore h
  · exact .iteSnd (.onCore h) (.recordUe h)

theorem readLines {path n : Nat} {l : List Nat} (h : Keeps s₀ s) : Keeps s₀ (readLines path n l s).2 := by
  induction l generalizing s with
  | nil => exact h
  | cons l t ih => exact ih (.readLine h)

theorem spdRead {path n off len : Nat} (h : Keeps s₀ s) : Keeps s₀ (spdRead path n off len s).2 := .readLines h

theorem storeLine {n l : Nat} {bs : List (Nat × Byte)} {pois : Bool} (h : Keeps s₀ s) :
    Keeps s₀ (storeLine n l bs pois s) := by
  unfold Machine.storeLine
  exact .onCore (.putLine (.setMem (.materialise h) (Memory.wf_foldl_memPut _ _ _ _)))

theorem noteStore {n l : Nat} (h : Keeps s₀ s) : Keeps s₀ (noteStore n l s) := by
  unfold Machine.noteStore
  dsimp only
  exact .ite (.onCore h) h

theorem writeLine {n l : Nat} {bs : List (Nat × Byte)} {pois : Bool} (h : Keeps s₀ s) :
    Keeps s₀ (writeLine n l bs pois s) := by
  unfold Machine.writeLine
  exact .storeLine (.noteStore h)

theorem spdWrite {n : Nat} {pairs : List (Nat × Byte)} {pois : List Nat} (h : Keeps s₀ s) :
    Keeps s₀ (spdWrite n pairs pois s) := by
  unfold Machine.spdWrite
  dsimp only
  exact .foldl h (fun _ _ => .writeLine)

theorem zeroizeCore {n : Nat} (h : Keeps s₀ s) : Keeps s₀ (zeroizeCore n s) := by
  unfold Machine.zeroizeCore
  dsimp only
  exact .onCore (.onPanel (.setMem h (Memory.wf_delRange _ _ _)))

theorem unhalt {n : Nat} (h : Keeps s₀ s) : Keeps s₀ (unhalt n s) := by
  unfold Machine.unhalt
  exact .ite h (.ite (.onCore h) (.onSeq (.onCore h)))

theorem writeFull {n l : Nat} {ls : List (List Byte × Bool)} (h : Keeps s₀ s) : Keeps s₀ (writeFull n l ls s) := by
  unfold Machine.writeFull
  refine .onCore (.setMem h fun w => ?_)
  induction (ls.flatMap (·.1)).zipIdx with
  | nil => exact Memory.wf_delRange _ _ _ w
  | cons e t ih =>
    rw [List.foldr_cons]
    split
    · exact ih
    · exact Memory.wf_set ih ‹_›

theorem saveArea {n k : Nat} (h : Keeps s₀ s) : Keeps s₀ (saveArea n k s) := by
  unfold Machine.saveArea
  exact .writeFull h

theorem loadArea {n k : Nat} (h : Keeps s₀ s) : Keeps s₀ (loadArea n k s).2 := by
  unfold Machine.loadArea
  dsimp only
  exact .iteSnd (.readLines h) (.onCtx (.readLines h))

theorem flyRes {n slot pc lat : Nat} {w : RegW} (h : Keeps s₀ s) : Keeps s₀ (flyRes n slot pc lat w s) := by
  unfold Machine.flyRes
  exact .onCore h

theorem lateExc {n slot pc : Nat} {e : Exc} (h : Keeps s₀ s) : Keeps s₀ (lateExc n slot pc e s) := by
  unfold Machine.lateExc
  exact .flyRes h

theorem setFlag {n : Nat} (h : Keeps s₀ s) : Keeps s₀ (setFlag n s) := by
  unfold Machine.setFlag
  exact .onCore h

theorem retireChain {n : Nat} {f : Flying} (h : Keeps s₀ s) : Keeps s₀ (retireChain n f s) := by
  unfold Machine.retireChain
  exact .ite (.setFlag (.onCounts (.ite (.onCur h) (.onCounts (.onCur h))))) (.ite (.onCur h) (.onCounts (.onCur h)))

theorem writeGroupCount {n : Nat} {g : Group} (h : Keeps s₀ s) : Keeps s₀ (writeGroupCount n g s) := by
  unfold Machine.writeGroupCount
  exact .spdWrite h

theorem applyRes {n : Nat} {w : RegW} (h : Keeps s₀ s) : Keeps s₀ (applyRes n w s) := by
  unfold Machine.applyRes
  split
  · exact .onCur h
  · exact .onCur h
  · exact .onCur h
  · exact .onCur h
  · exact .onCur h
  · exact .onCur h
  · exact .onCur h
  · exact .retireChain h
  · exact h
  · exact .onCur h
  · split
    · exact .writeGroupCount (.onCur h)
    · exact h
  · exact .onCur h
  · exact .onArr h
  · exact .onCur h

theorem captureGens {n cyc : Nat} (h : Keeps s₀ s) : Keeps s₀ (captureGens n cyc s) := by
  unfold Machine.captureGens
  exact .ite h (.onCore h)

theorem retireUpTo {n cyc : Nat} (h : Keeps s₀ s) : Keeps s₀ (retireUpTo n cyc s).1 := by
  unfold Machine.retireUpTo
  dsimp only
  exact .foldl (.onCore h) (fun _ _ => .applyRes)

theorem commitStores {n cyc : Nat} (h : Keeps s₀ s) : Keeps s₀ (commitStores n cyc s) := by
  unfold Machine.commitStores
  exact .foldl (.onCore h) (fun _ _ => .spdWrite)

theorem arrayRead {n cyc off len : Nat} (h : Keeps s₀ s) : Keeps s₀ (arrayRead n cyc off len s).2 := by
  unfold Machine.arrayRead
  dsimp only
  exact .spdRead h

theorem gmeEvent {n kind count slotPc : Nat} (h : Keeps s₀ s) : Keeps s₀ (gmeEvent n kind count slotPc s) := by
  unfold Machine.gmeEvent
  exact .ite h (.ite (.lateExc (.onCounts h)) (.onCounts h))

theorem shadowPart {n a : Nat} (h : Keeps s₀ s) : Keeps s₀ (shadowPart n a s) := by
  unfold Machine.shadowPart
  dsimp only
  split
  · exact h
  · exact .gmeEvent (.onArr (.spdRead (.spdRead (.spdRead h))))

theorem shadowUpTo {n a cyc : Nat} {fuel : Nat} (h : Keeps s₀ s) : Keeps s₀ (shadowUpTo n a cyc fuel s) := by
  induction fuel generalizing s with
  | zero => exact h
  | succ fuel ih =>
    unfold Machine.shadowUpTo
    split
    · exact h
    · exact .ite (ih (.shadowPart h)) h

theorem pushRows {n a : Nat} {l : List RowOp} (h : Keeps s₀ s) : Keeps s₀ (pushRows n a l s) := by
  unfold Machine.pushRows
  exact .onArr h

theorem smulEntry {n a : Nat} {I : Inp} {x list base stride : Nat} {bad : Bool} (h : Keeps s₀ s) :
    Keeps s₀ (smulEntry n a I x list base stride bad s) := by
  unfold Machine.smulEntry
  dsimp only
  exact .ite (.pushRows (.arrayRead h)) (.ite (.pushRows (.arrayRead h)) (.ite (.pushRows (.arrayRead h)) (.ite
    (.gmeEvent (.pushRows (.arrayRead h))) (.ite (.gmeEvent (.pushRows (.arrayRead (.arrayRead h)))) (.pushRows
      (.arrayRead (.arrayRead h)))))))

theorem inputRow {n a : Nat} (h : Keeps s₀ s) : Keeps s₀ (inputRow n a s) := by
  unfold Machine.inputRow
  dsimp only
  split
  · exact h
  · split
    · exact .onArr (.pushRows h)
    · exact .onArr (.pushRows (.arrayRead h))
    · exact .onArr (.pushRows (.arrayRead h))
    · exact .onArr (.pushRows (.arrayRead (.arrayRead h)))
    · exact .onArr (.smulEntry h)

theorem inputUpTo {n a cyc : Nat} {fuel : Nat} (h : Keeps s₀ s) : Keeps s₀ (inputUpTo n a cyc fuel s) := by
  induction fuel generalizing s with
  | zero => exact h
  | succ fuel ih =>
    unfold Machine.inputUpTo
    split
    · exact h
    · exact .ite (ih (.inputRow h)) h

theorem noteWrite {n a : Nat} {op : RowOp} (h : Keeps s₀ s) : Keeps s₀ (noteWrite n a op s) := by
  unfold Machine.noteWrite
  exact .onArr h

theorem applyRow {n a : Nat} {op : RowOp} (h : Keeps s₀ s) : Keeps s₀ (applyRow n a op s) := by
  unfold Machine.applyRow
  dsimp only
  split
  · split
    · exact h
    · exact .noteWrite h
  · refine .onCur ?_
    split
    · exact h
    · exact .noteWrite h
  · refine .onCur ?_
    split
    · exact h
    · exact .noteWrite h
  · refine .onCur ?_
    split
    · exact h
    · exact .noteWrite h
  · refine .onArr ?_
    refine .onCur ?_
    split
    · exact h
    · exact .noteWrite h

theorem rowsUpTo {n a cyc : Nat} (h : Keeps s₀ s) : Keeps s₀ (rowsUpTo n a cyc s) := by
  unfold Machine.rowsUpTo
  exact .foldl (.onArr h) (fun _ _ => .applyRow)

theorem arrayBefore {n a cyc : Nat} (h : Keeps s₀ s) : Keeps s₀ (arrayBefore n a cyc s) := by
  unfold Machine.arrayBefore
  exact .ite h (.inputUpTo (.shadowUpTo h))

theorem writesOf {n t : Nat} (h : Keeps s₀ s) : Keeps s₀ (writesOf n t s) := by
  unfold Machine.writesOf
  exact .ite (.commitStores (.arrayBefore (.arrayBefore h))) h

theorem catchUp {n : Nat} (h : Keeps s₀ s) : Keeps s₀ (catchUp n s).1 := by
  unfold Machine.catchUp
  exact .retireUpTo (.commitStores (.arrayBefore (.arrayBefore h)))

theorem duringCycle {n c : Nat} (h : Keeps s₀ s) : Keeps s₀ (duringCycle n c s) := by
  unfold Machine.duringCycle
  exact .captureGens (.rowsUpTo (.rowsUpTo h))

theorem passCycle {n : Nat} (h : Keeps s₀ s) : Keeps s₀ (passCycle n s).1 := by
  unfold Machine.passCycle
  dsimp only
  exact .onCore (.duringCycle (.catchUp h))

theorem writeBlock {n k l : Nat} (h : Keeps s₀ s) : Keeps s₀ (writeBlock n k l s) := by
  unfold Machine.writeBlock
  exact .spdWrite h

theorem suspendLists {n k : Nat} (h : Keeps s₀ s) : Keeps s₀ (suspendLists n k s) := by
  unfold Machine.suspendLists
  exact .foldl h (fun _ _ h => .ite (.writeBlock h) h)

theorem reloadList {n k l : Nat} (h : Keeps s₀ s) : Keeps s₀ (reloadList n k l s) := by
  unfold Machine.reloadList
  dsimp only
  exact .ite (.onList (.spdRead h)) h

theorem reloadLists {n k : Nat} (h : Keeps s₀ s) : Keeps s₀ (reloadLists n k s) := by
  unfold Machine.reloadLists
  exact .foldl h (fun _ _ => .reloadList)

theorem endLists {n k : Nat} (h : Keeps s₀ s) : Keeps s₀ (endLists n k s) := by
  unfold Machine.endLists
  exact .foldl h (fun _ _ h => .ite (.writeBlock (.onList h)) (.ite (.writeBlock h) h))

theorem cleanArea {n k : Nat} (h : Keeps s₀ s) : Keeps s₀ (cleanArea n k s) := by
  unfold Machine.cleanArea
  dsimp only
  exact .onCore (.setMem h (Memory.wf_delRange _ _ _))

theorem releaseArea {n k : Nat} (h : Keeps s₀ s) : Keeps s₀ (releaseArea n k s) := by
  unfold Machine.releaseArea
  exact .onCore (.cleanArea h)

theorem writeGroups {n k : Nat} (h : Keeps s₀ s) : Keeps s₀ (writeGroups n k s) := by
  unfold Machine.writeGroups
  exact .foldl h (fun _ _ => .writeGroupCount)

theorem reopenGroups {n k : Nat} (h : Keeps s₀ s) : Keeps s₀ (reopenGroups n k s) := by
  unfold Machine.reopenGroups
  dsimp only
  exact .foldl h (fun _ _ h => .onCtx (.spdRead h))

theorem saveCur {n : Nat} {st : CtxState} (h : Keeps s₀ s) : Keeps s₀ (saveCur n st s) := by
  unfold Machine.saveCur
  exact .onCore (.saveArea (.onCtx (.suspendLists (.writeGroups h))))

theorem restoreFault {n k : Nat} {e : Exc} (h : Keeps s₀ s) : Keeps s₀ (restoreFault n k e s) := by
  unfold Machine.restoreFault
  dsimp only
  exact .onCore (.writeFull (.onCtx h))

theorem restoreArea {n k : Nat} {st : CtxState} (h : Keeps s₀ s) : Keeps s₀ (restoreArea n k st s) := by
  unfold Machine.restoreArea
  dsimp only
  split
  next t e =>
    exact .restoreFault (.ofSnd (.loadArea h) e)
  next t e =>
    exact .ite (.restoreFault (.ofSnd (.loadArea h) e)) (.reloadLists (.reopenGroups (.onCtx (.onCore (.ofSnd
      (.loadArea h) e)))))

theorem startCtx {n k : Nat} (h : Keeps s₀ s) : Keeps s₀ (startCtx n k s) := by
  unfold Machine.startCtx
  exact .ite (.onCtx (.onCore (.onCore h))) (.restoreArea (.onCore h))

theorem afterStop {n : Nat} (h : Keeps s₀ s) : Keeps s₀ (afterStop n s) := by
  unfold Machine.afterStop
  dsimp only
  split
  · exact .ite (.startCtx h) (.onCore h)
  · exact .onCore h

theorem recordExc {n : Nat} {r : ExcRec} (h : Keeps s₀ s) : Keeps s₀ (recordExc n r s) := by
  unfold Machine.recordExc
  dsimp only
  exact .onCore (.onCtx h)

theorem setSplit {p : Nat} {v : Split} (h : Keeps s₀ s) : Keeps s₀ (setSplit p v s) := by
  unfold Machine.setSplit
  exact .onPanel h

theorem relaxSplit {p : Nat} (h : Keeps s₀ s) : Keeps s₀ (relaxSplit p s) := by
  unfold Machine.relaxSplit
  exact .ite (.setSplit h) h

theorem finishBoundary {n : Nat} (h : Keeps s₀ s) : Keeps s₀ (finishBoundary n s) := by
  unfold Machine.finishBoundary
  dsimp only
  split
  · exact h
  · refine .ite h ?_
    split
    · exact .afterStop (.saveCur h)
    · exact .afterStop (.saveCur (.onCtx (.recordExc h)))
    · split
      · exact .ite (.startCtx (.saveCur h)) (.onCore (.writeGroups h))
      · exact .onCore (.writeGroups h)
    · exact .relaxSplit (.afterStop (.onCore (.releaseArea (.onCtx (.endLists (.writeGroups h))))))

theorem contextFault {n : Nat} {r : ExcRec} (h : Keeps s₀ s) : Keeps s₀ (contextFault n r s) := by
  unfold Machine.contextFault
  exact .finishBoundary (.onCore (.recordExc h))

theorem enterBoundary {n : Nat} {b : Boundary} {pc : Nat} (h : Keeps s₀ s) : Keeps s₀ (enterBoundary n b pc s) := by
  unfold Machine.enterBoundary
  exact .onCore h

theorem haltTry {n : Nat} (h : Keeps s₀ s) : Keeps s₀ (haltTry n s) := by
  unfold Machine.haltTry
  dsimp only
  refine .ite h ?_
  split
  · exact .ite (.onCore (.suspendLists h)) h
  · exact .ite h (.ite (.onCore (.suspendLists (.onSeq (.onCore h)))) (.onSeq (.onCore h)))

theorem drainCycle {n : Nat} (h : Keeps s₀ s) : Keeps s₀ (drainCycle n s) := by
  unfold Machine.drainCycle
  refine .ite ?_ h
  split
  next t e =>
    exact (.ofFst (.passCycle h) e)
  next t r e =>
    exact .ite (.ofFst (.passCycle h) e) (.contextFault (.ofFst (.passCycle h) e))

theorem stopCtx {n k : Nat} (h : Keeps s₀ s) : Keeps s₀ (stopCtx n k s) := by
  unfold Machine.stopCtx
  dsimp only
  exact .ite h (.ite (.relaxSplit (.afterStop (.onCore (.onCore (.releaseArea (.onCtx (.ite (.onCtx (.ite
    (.commitStores (.ite (.unhalt h) h)) (.ite (.unhalt h) h))) (.ite (.commitStores (.ite (.unhalt h) h)) (.ite
      (.unhalt h) h))))))))) (.relaxSplit (.onCore (.releaseArea (.onCtx (.ite (.onCtx (.ite (.commitStores (.ite
        (.unhalt h) h)) (.ite (.unhalt h) h))) (.ite (.commitStores (.ite (.unhalt h) h)) (.ite (.unhalt h) h))))))))

theorem launchOn {n k entry : Nat} {args : List W64} {sel : Sel} (h : Keeps s₀ s)
    (e : launchOn n k entry args sel s = some t) : Keeps s₀ t := by
  unfold Machine.launchOn at e
  dsimp only at e
  split at e
  · cases e
  · split at e <;> cases e
    · exact .startCtx (.onCore (.onCtx h))
    · exact .onCore (.onCtx h)

theorem markSwitch {n k : Nat} (h : Keeps s₀ s) : Keeps s₀ (markSwitch n k s) := by
  unfold Machine.markSwitch
  exact .ite (.ite (.startCtx h) h) (.onCore h)

end Keeps

end Sys2Proof.Machine
end

section
/-! SUPPORT. What keeps the memory canonical and the power cap in its bounds: the four slots of a bundle, the arrays
with their drain units, and the issue of a bundle (chapters 03 to 08). -/

namespace Sys2Proof.Machine

open Sys2Proof

namespace Keeps

variable {s₀ s t : State} {α : Type}

theorem slotUndef : SlotKeeps SlotOp.undef := fun _ _ _ _ h => h

theorem setBranch {n : Nat} {t : Int} (h : Keeps s₀ s) : Keeps s₀ (setBranch n t s) := by
  unfold Machine.setBranch
  exact .onCur h

theorem openLoop {n count body : Nat} (h : Keeps s₀ s) : Keeps s₀ (openLoop n count body s) := by
  unfold Machine.openLoop
  exact .onCur h

theorem consumeEvent {n kind : Nat} (h : Keeps s₀ s) : Keeps s₀ (consumeEvent n kind s) := by
  unfold Machine.consumeEvent
  exact .ite (.onCore h) h

theorem setHazard {n q : Nat} (h : Keeps s₀ s) : Keeps s₀ (setHazard n q s) := by
  unfold Machine.setHazard
  exact .onCounts h

theorem putPoisonEntry {n k q : Nat} (h : Keeps s₀ s) : Keeps s₀ (putPoisonEntry n k q s) := by
  unfold Machine.putPoisonEntry
  exact .onSlot (.spdWrite h)

theorem payOwed {n k q : Nat} {fuel : Nat} (h : Keeps s₀ s) : Keeps s₀ (payOwed n k q fuel s) := by
  induction fuel generalizing s with
  | zero => exact h
  | succ fuel ih =>
    unfold Machine.payOwed
    exact .ite (ih (.putPoisonEntry h)) h

theorem slotPop {n q : Nat} (h : Keeps s₀ s) : Keeps s₀ (slotPop n q s) := by
  unfold Machine.slotPop
  exact .payOwed (.onSlot (.ite h (.setHazard h)))

theorem slotPush {n q : Nat} (h : Keeps s₀ s) : Keeps s₀ (slotPush n q s) := by
  unfold Machine.slotPush
  exact .onSlot (.ite (.onCur (.ite (.setHazard h) h)) (.ite (.setHazard h) h))

theorem storeNow {n port : Nat} {bytes : List (Nat × Byte)} {pois : List Nat} (h : Keeps s₀ s) :
    Keeps s₀ (storeNow n port bytes pois s) := by
  unfold Machine.storeNow
  exact .onCore h

theorem takePort {n p : Nat} (h : Keeps s₀ s) : Keeps s₀ (takePort n p s) := by
  unfold Machine.takePort
  exact .onCore h

theorem countPois {n : Nat} {b : Bool} (h : Keeps s₀ s) : Keeps s₀ (countPois n b s) := by
  unfold Machine.countPois
  exact .ite (.onCounts h) h

theorem vinsOp (i : VIns) : SlotKeeps i.op := by
  intro s₀ n u s h
  cases i
  case vbc | vext | vseed => exact .foldl h fun _ _ => .flyRes
  case nop => exact h
  case vld => exact .flyRes (.takePort (.readLines h))
  case vst => exact .onCore (.countPois (.takePort h))
  case vldc => exact .flyRes (.spdRead (.takePort h))
  case vqrd => exact .flyRes (.slotPop (.spdRead (.takePort h)))
  case vqwr => exact .slotPush (.storeNow (.countPois (.takePort h)))
  case vch =>
    dsimp only [VIns.op, opVch]
    split
    · exact h
    · exact .ite (.onCounts h) (.flyRes (.ite (.onCur h) h))

theorem slotV (w : W32) : SlotKeeps (slotV w) := by
  unfold Machine.slotV
  split
  · exact vinsOp _
  · exact slotUndef

theorem joinQueue {n a : Nat} {op : DrainOp} (h : Keeps s₀ s) : Keeps s₀ (joinQueue n a op s) := by
  unfold Machine.joinQueue
  exact .onArr h

theorem doPass {n a t k last pc : Nat} (h : Keeps s₀ s) : Keeps s₀ (doPass n a t k last pc s) := by
  unfold Machine.doPass
  dsimp only
  exact .foldl h (fun _ _ h => .ite (.foldl (.onCur h) (fun _ _ => .joinQueue)) (.onCur h))

theorem takeInput {n a cycles : Nat} {I : Inp} (h : Keeps s₀ s) : Keeps s₀ (takeInput n a cycles I s) := by
  unfold Machine.takeInput
  exact .onArr h

theorem swapIn {n a : Nat} {sw : BitVec 1} (h : Keeps s₀ s) : Keeps s₀ (swapIn n a sw s) := by
  unfold Machine.swapIn
  exact .ite (.onArr h) h

theorem startLoad {n a wf af nm src sc md pc : Nat} (h : Keeps s₀ s) :
    Keeps s₀ (startLoad n a wf af nm src sc md pc s) := by
  unfold Machine.startLoad
  exact .onArr (.shadowUpTo h)

theorem minsOp (i : MIns) : SlotKeeps i.op := by
  intro s₀ n u s h
  cases i
  case mcfg | mseed => exact .foldl h fun _ _ => .flyRes
  case nop => exact h
  case mldw | mlds => exact .startLoad h
  case mmul => exact .doPass (.takeInput (.swapIn h))
  case mpre | mclr => exact .takeInput h
  case mdrain | mdrs | smrg | scmp | strw => exact .joinQueue h
  case mspill =>
    refine .foldl h fun _ _ h => ?_
    split
    · exact .joinQueue h
    · exact h
  case mgrpOpen => exact .flyRes (.spdRead h)
  case mgrpClose => exact .flyRes h
  case smul => exact .doPass (.takeInput (.gmeEvent (.spdRead (.swapIn h))))

theorem slotM (w : W32) : SlotKeeps (slotM w) := by
  unfold Machine.slotM
  split
  · exact minsOp _
  · exact slotUndef

theorem drainStart {n a : Nat} (h : Keeps s₀ s) : Keeps s₀ (drainStart n a s) := by
  unfold Machine.drainStart
  dsimp only
  split
  · exact h
  · exact .ite h (.ite (.onCur (.onArr h)) (.onArr h))

theorem readWide {n off : Nat} (h : Keeps s₀ s) : Keeps s₀ (readWide n off s).2.2 := by
  unfold Machine.readWide
  dsimp only
  exact .spdRead h

theorem drainValues {n : Nat} {op : DrainOp} (h : Keeps s₀ s) : Keeps s₀ (drainValues n op s).2.2 := by
  unfold Machine.drainValues
  dsimp only
  exact .iteSndSnd (.readWide h) h

theorem drainTail {n a : Nat} {op : DrainOp} {rowP : List Bool} {anyP flag : Bool} (h : Keeps s₀ s) :
    Keeps s₀ (drainTail n a op rowP anyP flag s) := by
  unfold Machine.drainTail
  exact .ite (.setFlag (.ite (.onCounts (.ite (.onCur (.ite (.spdWrite h) h)) (.ite (.spdWrite h) h))) (.ite (.onCur
    (.ite (.spdWrite h) h)) (.ite (.spdWrite h) h)))) (.ite (.onCounts (.ite (.onCur (.ite (.spdWrite h) h)) (.ite
      (.spdWrite h) h))) (.ite (.onCur (.ite (.spdWrite h) h)) (.ite (.spdWrite h) h)))

theorem emitMdrain {n a : Nat} {op : DrainOp} (h : Keeps s₀ s) : Keeps s₀ (emitMdrain n a op s) := by
  unfold Machine.emitMdrain
  dsimp only
  exact .drainTail (.spdWrite (.drainValues h))

theorem emitSpill {n : Nat} {op : DrainOp} (h : Keeps s₀ s) : Keeps s₀ (emitSpill n op s) := by
  unfold Machine.emitSpill
  dsimp only
  exact .onCounts (.spdWrite (.readWide h))

theorem emitMdrs {n a : Nat} {op : DrainOp} (h : Keeps s₀ s) : Keeps s₀ (emitMdrs n a op s) := by
  unfold Machine.emitMdrs
  dsimp only
  exact .drainTail (.spdWrite (.drainValues h))

theorem onHead {n a : Nat} {f : DrainOp → DrainOp} (h : Keeps s₀ s) : Keeps s₀ (onHead n a f s) := by
  unfold Machine.onHead
  exact .onArr h

theorem smrgRow {n a : Nat} {op : DrainOp} {j : Nat} (h : Keeps s₀ s) : Keeps s₀ (smrgRow n a op s j) := by
  unfold Machine.smrgRow
  dsimp only
  split
  · exact h
  · refine .ite h ?_
    split
    · refine .onHead ?_
      split
      · exact .freshNat (.spdRead h)
      · exact .spdRead h
    · refine .onHead ?_
      refine .storeLine ?_
      split
      · exact .freshNat (.spdRead h)
      · exact .spdRead h

theorem fillGroup {k : Nat} {unused : List Nat} {g : List (Nat × Nat)} (h : Keeps s₀ s) :
    Keeps s₀ (fillGroup k unused g s).2 := by
  induction k generalizing unused g s with
  | zero => exact h
  | succ k ih => exact ih (.freshNat h)

theorem makeGroup {per : Nat} {kept : List (Nat × Nat)} (h : Keeps s₀ s) : Keeps s₀ (makeGroup per kept s).2 := by
  unfold Machine.makeGroup
  dsimp only
  exact .iteSnd h (.fillGroup h)

theorem makeGroups {per : Nat} {l : List (List (Nat × Nat))} (h : Keeps s₀ s) : Keeps s₀ (makeGroups per l s).2 := by
  induction l generalizing s with
  | nil => exact h
  | cons k t ih => exact ih (.makeGroup h)

theorem writeCompact {n fmt per dst md : Nat} {groups : List (List (Nat × Nat))} {bad : List Bool} (h : Keeps s₀ s) :
    Keeps s₀ (writeCompact n fmt per dst md groups bad s) := by
  unfold Machine.writeCompact
  dsimp only
  exact .spdWrite (.spdWrite h)

theorem emitScmp {n : Nat} {op : DrainOp} (h : Keeps s₀ s) : Keeps s₀ (emitScmp n op s) := by
  unfold Machine.emitScmp
  dsimp only
  exact .writeCompact (.makeGroups h)

theorem emitStrwTile {n : Nat} {op : DrainOp} {src : List (Nat × Nat × Nat × Bool)} {j : Nat} (h : Keeps s₀ s) :
    Keeps s₀ (emitStrwTile n op src s j) := by
  unfold Machine.emitStrwTile
  dsimp only
  exact .writeCompact (.makeGroups h)

theorem emitStrw {n : Nat} {op : DrainOp} (h : Keeps s₀ s) : Keeps s₀ (emitStrw n op s) := by
  unfold Machine.emitStrw
  exact .foldl h (fun _ _ => .emitStrwTile)

theorem inputEvents {n : Nat} {op : DrainOp} (h : Keeps s₀ s) : Keeps s₀ (inputEvents n op s) := by
  unfold Machine.inputEvents
  dsimp only
  split
  · exact .gmeEvent h
  · exact .foldl h (fun _ _ h => .gmeEvent (.gmeEvent h))
  · exact .gmeEvent h
  · exact .gmeEvent h
  · exact h

theorem readInput {n a i : Nat} {op : DrainOp} {rest : List DrainOp} (h : Keeps s₀ s) :
    Keeps s₀ (readInput n a i op rest s) := by
  unfold Machine.readInput
  dsimp only
  split
  · exact h
  · exact .ite (.inputEvents (.onArr (.readLine h))) (.onArr (.readLine h))

theorem drainTick {n a : Nat} (h : Keeps s₀ s) : Keeps s₀ (drainTick n a s) := by
  unfold Machine.drainTick
  dsimp only
  split
  · exact h
  · split
    · exact h
    · exact .ite (.smrgRow (.ite (.readInput (.onArr h)) (.onArr h))) (.ite (.readInput (.onArr h)) (.onArr h))

theorem emitOp {n a : Nat} {op : DrainOp} (h : Keeps s₀ s) : Keeps s₀ (emitOp n a op s) := by
  unfold Machine.emitOp
  split
  · exact .emitMdrain h
  · exact .emitSpill h
  · exact .emitMdrs h
  · exact h
  · exact .emitScmp h
  · exact .emitStrw h

theorem drainDone {n a : Nat} (h : Keeps s₀ s) : Keeps s₀ (drainDone n a s) := by
  unfold Machine.drainDone
  split
  · exact h
  · split
    · exact h
    · exact .ite h (.emitOp (.onArr h))

theorem partNow {n a : Nat} (h : Keeps s₀ s) : Keeps s₀ (partNow n a s) := by
  unfold Machine.partNow
  split
  · exact .ite (.shadowPart h) h
  · exact h

theorem accumulateNow {n a : Nat} (h : Keeps s₀ s) : Keeps s₀ (accumulateNow n a s) := by
  unfold Machine.accumulateNow
  dsimp only
  split
  · split
    · exact .ite (.inputRow h) h
    · exact h
  · refine .ite ?_ ?_
    · refine .rowsUpTo ?_
      split
      · exact .ite (.inputRow h) h
      · exact h
    · split
      · exact .ite (.inputRow h) h
      · exact h

theorem newEpoch {b : Nat} (h : Keeps s₀ s) : Keeps s₀ (newEpoch b s) :=
  h

theorem noticeEpochs {hit : Nat → Bool} (h : Keeps s₀ s) : Keeps s₀ (noticeEpochs hit s) :=
  h

theorem coreEpoch {n : Nat} (h : Keeps s₀ s) : Keeps s₀ (coreEpoch n s) := by
  unfold Machine.coreEpoch
  exact .noticeEpochs (.newEpoch h)

theorem launchPacket {k : Packet} (h : Keeps s₀ s) : Keeps s₀ (launchPacket k s) :=
  h

theorem dropPacket {pid : Nat} (h : Keeps s₀ s) : Keeps s₀ (dropPacket pid s) :=
  h

theorem onPacket {pid : Nat} {f : Packet → Packet} (h : Keeps s₀ s) : Keeps s₀ (onPacket pid f s) :=
  h

theorem movePacket {pid : Nat} {f : Packet → Packet} (h : Keeps s₀ s) : Keeps s₀ (movePacket pid f s) := by
  unfold Machine.movePacket
  split
  · exact h
  · exact h

theorem answer {pid status : Nat} {data : List Byte} {pois : List Bool} (h : Keeps s₀ s) :
    Keeps s₀ (answer pid status data pois s) := by
  unfold Machine.answer
  dsimp only
  exact .movePacket h

theorem sendReq {n : Nat} {op : POp} {q : Req} (h : Keeps s₀ s) : Keeps s₀ (sendReq n op q s) := by
  unfold Machine.sendReq
  dsimp only
  exact .launchPacket (.onCore h)

theorem reserveTail {n q bytes : Nat} (h : Keeps s₀ s) : Keeps s₀ (reserveTail n q bytes s) := by
  unfold Machine.reserveTail
  exact .onSlot (.ite (.setHazard h) h)

theorem sinsOp (i : SIns) : SlotKeeps i.op := by
  intro s₀ n u s h
  cases i
  case nop => exact h
  case sqcfg => exact .flyRes (.spdRead h)
  case sqcnt | shead | stail | slstat => exact .flyRes h
  case spop => exact .slotPop h
  case spush => exact .slotPush h
  case slist => exact .onList (.spdRead h)
  case slstop => exact .onList h

theorem slotS (w : W32) : SlotKeeps (slotS w) := by
  unfold Machine.slotS
  split
  · exact sinsOp _
  · exact slotUndef

theorem cinsOp (i : CIns) : SlotKeeps i.op := by
  intro s₀ n u s h
  cases i
  case add | sub | andS | orS | xorS | shl | shr | sra | minS | maxS | mul | mulh | cmp | sel | addi | andi | lui | ori |
      amov | aget | aadd | aaddi | aform | pop | kmov | kget | ktail | kop => exact .foldl h fun _ _ => .flyRes
  case nop | yield | endC | launch | cswitch | cstop | xwake | fset | fclr | fwait | barrier | prest | stepBegin | stepEnd |
      wdog | cwait => exact h
  case ld => exact .ite (.flyRes (.spdRead h)) (.flyRes (.spdRead h))
  case st => exact .onCore h
  case ldf => exact .sendReq (.reserveTail h)
  case stf => exact .onCur (.slotPush (.storeNow h))
  case srd => exact .flyRes (.slotPop (.spdRead h))
  case swr => exact .slotPush (.storeNow h)
  case br => exact .ite (.setBranch h) h
  case jmp | jr => exact .setBranch h
  case loop | loopi => exact .openLoop h
  case wait => exact .ite (.consumeEvent (.flyRes h)) (.onCore (.onCur h))
  case rest => exact .ite (.consumeEvent h) (.onCore (.onCur h))
  case sig | arrive => exact .onSeq h
  case mfc => exact .flyRes h
  case mtc => exact .onCur h

theorem slotC (c : Option CIns) : SlotKeeps (slotC c) := by
  unfold Machine.slotC
  split
  · exact cinsOp _
  · exact slotUndef

theorem fetchLine {n : Nat} (h : Keeps s₀ s) : Keeps s₀ (fetchLine n s).2 := by
  unfold Machine.fetchLine
  dsimp only
  exact .spdRead h

theorem opsRun {o : Ops} {n : Nat} (h : Keeps s₀ s) (ho : OpsKeep o) : Keeps s₀ (o.run n s) := by
  obtain ⟨hc, hm, hv, hs⟩ := ho
  exact hs _ _ _ _ (hc _ _ _ _ (hv _ _ _ _ (hm _ _ _ _ h)))

theorem issued {n pc : Nat} (h : Keeps s₀ s) : Keeps s₀ (issued n pc s) := by
  unfold Machine.issued
  exact .onCore (.onCur h)

theorem goIssue {n : Nat} {o : Ops} (h : Keeps s₀ s) (ho : OpsKeep o) : Keeps s₀ (goIssue n o s) := by
  unfold Machine.goIssue
  have hi {pc t : Nat} : Keeps s₀ (Machine.issued n pc (Machine.writesOf n t (o.run n (Machine.duringCycle n t s)))) :=
    .issued (.writesOf (.opsRun (.duringCycle h) ho))
  dsimp only
  split
  · exact hi
  · exact .finishBoundary (.enterBoundary hi)

theorem issueFault {n : Nat} {e : Exc} {slot : Nat} (h : Keeps s₀ s) : Keeps s₀ (issueFault n e slot s) := by
  unfold Machine.issueFault
  exact .contextFault h

theorem issueAt {n : Nat} {b : Bundle} {o : Ops} (h : Keeps s₀ s) (ho : OpsKeep o) : Keeps s₀ (issueAt n b o s) := by
  unfold Machine.issueAt
  dsimp only
  refine .ite (.issueFault h) (.ite (.issueFault (.fetchLine h)) (.ite (.onCore (.fetchLine h)) ?_))
  split
  · exact .issueFault (.fetchLine h)
  · exact .goIssue (.fetchLine h) ho

theorem issueOps {n : Nat} {b : Bundle} {o : Ops} (h : Keeps s₀ s) (ho : OpsKeep o) : Keeps s₀ (issueOps n b o s) := by
  unfold Machine.issueOps
  refine .ite h ?_
  split
  next t r e => exact .contextFault (.ofFst (.catchUp h) e)
  next t e => exact .issueAt (.ofFst (.catchUp h) e) ho

theorem issueRaw {n : Nat} {b : Bundle} (h : Keeps s₀ s) : Keeps s₀ (issueRaw n b s) :=
  .issueOps h ⟨slotC _, slotM _, slotV _, slotS _⟩

theorem issueC {n : Nat} {i : CIns} {m v t : W32} (h : Keeps s₀ s) : Keeps s₀ (issueC n i m v t s) :=
  .issueOps h ⟨cinsOp _, slotM _, slotV _, slotS _⟩

theorem issueM {n : Nat} {i : MIns} {c v t : W32} (h : Keeps s₀ s) : Keeps s₀ (issueM n i c v t s) :=
  .issueOps h ⟨slotC _, minsOp _, slotV _, slotS _⟩

theorem issueV {n : Nat} {i : VIns} {c m t : W32} (h : Keeps s₀ s) : Keeps s₀ (issueV n i c m t s) :=
  .issueOps h ⟨slotC _, slotM _, vinsOp _, slotS _⟩

theorem issueS {n : Nat} {i : SIns} {c m v : W32} (h : Keeps s₀ s) : Keeps s₀ (issueS n i c m v s) :=
  .issueOps h ⟨slotC _, slotM _, slotV _, sinsOp _⟩

theorem retireNow {n : Nat} (h : Keeps s₀ s) : Keeps s₀ (retireNow n s) := by
  unfold Machine.retireNow
  exact .foldl (.onCore h) (fun _ _ => .applyRes)

theorem lateNow {n : Nat} (h : Keeps s₀ s) : Keeps s₀ (lateNow n s) := by
  unfold Machine.lateNow
  dsimp only
  refine .ite ?_ h
  split
  next t r e =>
    exact .contextFault (.ofFst (.catchUp h) e)
  next t e =>
    exact (.ofFst (.catchUp h) e)

theorem waitDone {n : Nat} (h : Keeps s₀ s) : Keeps s₀ (waitDone n s) := by
  unfold Machine.waitDone
  dsimp only
  split
  · exact h
  · refine .ite ?_ (.ite (.onCore (.onCur (.flyRes (.consumeEvent h)))) (.ite (.onCore (.onCur (.flyRes h))) h))
    split
    · exact .contextFault (.onCur h)
    · exact h

end Keeps

end Sys2Proof.Machine
end

section
/-! SUPPORT. What keeps the memory canonical and the power cap in its bounds: the engine and the mesh (chapters 08
and 09). -/

namespace Sys2Proof.Machine

open Sys2Proof

namespace Keeps

variable {s₀ s t : State} {α : Type}

theorem faultEntries {n k : Nat} {d : Desc} (h : Keeps s₀ s) : Keeps s₀ (faultEntries n k d s) := by
  unfold Machine.faultEntries
  exact .ite (.payOwed (.onSlot h)) h

theorem onCountsAt {n k : Nat} {f : Counts → Counts} (h : Keeps s₀ s) : Keeps s₀ (onCountsAt n k f s) := by
  unfold Machine.onCountsAt
  exact .onCtx h

theorem recordFaultSt {n k st : Nat} (h : Keeps s₀ s) : Keeps s₀ (recordFaultSt n k st s) := by
  unfold Machine.recordFaultSt
  exact .onCountsAt h

theorem descFault {n k l st : Nat} {d : Desc} (h : Keeps s₀ s) : Keeps s₀ (descFault n k l st d s) := by
  unfold Machine.descFault
  exact .writeBlock (.faultEntries (.recordFaultSt (.onCountsAt (.onList h))))

theorem reached {n l : Nat} {x : Desc × Bool × State} (h : Keeps s₀ s) (e : reached n l s = some x) : Keeps s₀ x.2.2 := by
  unfold Machine.reached at e
  dsimp only at e
  split at e
  · cases e
    exact .spdRead h
  · cases e

theorem passDesc {n k l : Nat} (h : Keeps s₀ s) : Keeps s₀ (passDesc n k l s) := by
  unfold Machine.passDesc
  exact .onList h

theorem descEndNow {n l : Nat} (h : Keeps s₀ s) : Keeps s₀ (descEndNow n l s) := by
  unfold Machine.descEndNow
  dsimp only
  split
  · exact h
  next d bad t e =>
    exact .ite (.reached h e) (.ite (.descFault (.reached h e)) (.writeBlock (.onList (.reached h e))))

theorem startXfer {n l : Nat} {d : Desc} (h : Keeps s₀ s) : Keeps s₀ (startXfer n l d s) := by
  unfold Machine.startXfer
  dsimp only
  exact .onList h

theorem descXferNow {kinds : Nat → Bool} {n l : Nat} (h : Keeps s₀ s) : Keeps s₀ (descXferNow kinds n l s) := by
  unfold Machine.descXferNow
  dsimp only
  split
  · exact h
  next d bad t e =>
    exact .ite (.reached h e) (.ite (.descFault (.reached h e)) (.startXfer (.reached h e)))

theorem descStitchNow {n l : Nat} (h : Keeps s₀ s) : Keeps s₀ (descStitchNow n l s) := by
  unfold Machine.descStitchNow
  dsimp only
  split
  · exact h
  next d bad t e =>
    exact .ite (.reached h e) (.ite (.descFault (.reached h e)) (.ite (.passDesc (.reached h e)) (.onList (.reached h
      e))))

theorem markerPassNow {n l : Nat} (h : Keeps s₀ s) : Keeps s₀ (markerPassNow n l s) := by
  unfold Machine.markerPassNow
  dsimp only
  exact .ite (.ite (.passDesc (.onList (.spdRead h))) (.spdRead h)) h

theorem descSignalNow {n l : Nat} (h : Keeps s₀ s) : Keeps s₀ (descSignalNow n l s) := by
  unfold Machine.descSignalNow
  dsimp only
  split
  · exact h
  next d bad t e =>
    exact .ite (.reached h e) (.ite (.descFault (.reached h e)) (.onList (.reached h e)))

theorem signalFireNow {n l : Nat} (h : Keeps s₀ s) : Keeps s₀ (signalFireNow n l s) := by
  unfold Machine.signalFireNow
  dsimp only
  split
  · split
    · exact .onSeq (.onList h)
    · exact h
  · exact h

theorem descLinkNow {n l : Nat} (h : Keeps s₀ s) : Keeps s₀ (descLinkNow n l s) := by
  unfold Machine.descLinkNow
  dsimp only
  split
  · exact h
  next d bad t e =>
    exact .ite (.reached h e) (.ite (.descFault (.reached h e)) (.onList (.reached h e)))

theorem localReq {n : Nat} {q : Req} (h : Keeps s₀ s) : Keeps s₀ (localReq n q s) := by
  unfold Machine.localReq
  exact .onCore h

theorem moreOut {n k l id : Nat} (h : Keeps s₀ s) : Keeps s₀ (moreOut n k l id s) := by
  unfold Machine.moreOut
  exact .onList h

theorem lessOut {n k l id : Nat} (h : Keeps s₀ s) : Keeps s₀ (lessOut n k l id s) := by
  unfold Machine.lessOut
  exact .onList h

theorem sendPart {n k l id len : Nat} {src : From} {late : Bool} {use : ReqUse} {dst : Nat} (h : Keeps s₀ s) :
    Keeps s₀ (sendPart n k l id len src late use dst s) := by
  unfold Machine.sendPart
  dsimp only
  split
  · split
    · exact .sendReq (.moreOut h)
    · exact .localReq (.moreOut h)
  · exact .sendReq (.moreOut h)

theorem reserveEnts {n k m : Nat} {x : Xfer} (h : Keeps s₀ s) : Keeps s₀ (reserveEnts n k m x s).2 := by
  unfold Machine.reserveEnts
  dsimp only
  exact .onSlot h

theorem takeSlot {n k q total len : Nat} (h : Keeps s₀ s) : Keeps s₀ (takeSlot n k q total len s).2.2 := by
  unfold Machine.takeSlot
  dsimp only
  exact .onSlot (.foldlOn (π := fun (a : List (Byte × Bool) × Bool × State) => a.2.2) h (fun _ _ => .spdRead))

theorem gatherRow {n : Nat} {d : Desc} {row : Nat} (h : Keeps s₀ s) : Keeps s₀ (gatherRow n d row s).2.2 := by
  unfold Machine.gatherRow
  dsimp only
  exact .iteSndSnd (.spdRead h) (.iteSndSnd (.spdRead h) (.iteSndSnd (.spdRead h) (.spdRead h)))

theorem ownBytes {n off len : Nat} (h : Keeps s₀ s) : Keeps s₀ (ownBytes n off len s).2 := by
  unfold Machine.ownBytes
  dsimp only
  exact .spdRead h

theorem fromAddr {n a len : Nat} (h : Keeps s₀ s) : Keeps s₀ (fromAddr n a len s).2 := by
  unfold Machine.fromAddr
  split
  · exact .iteSnd (.ownBytes h) h
  · exact h

theorem progress {n k l : Nat} {x : Xfer} (h : Keeps s₀ s) : Keeps s₀ (progress n k l x s) := by
  unfold Machine.progress
  exact .onList h

theorem slotWaits {n k l : Nat} (h : Keeps s₀ s) : Keeps s₀ (slotWaits n k l s) := by
  unfold Machine.slotWaits
  exact .onList h

theorem reserveXf {n k l m : Nat} {x : Xfer} (h : Keeps s₀ s) (e : reserveXf n k l x m s = some t) : Keeps s₀ t := by
  unfold Machine.reserveXf at e
  dsimp only at e
  split at e
  · cases e
    exact .onList (.reserveEnts h)
  · split at e <;> cases e
    exact h

theorem useOf {n k l len dst : Nat} {x : Xfer} {y : ReqUse × Xfer × State} (h : Keeps s₀ s)
    (e : useOf n k l x len dst s = some y) : Keeps s₀ y.2.2 := by
  unfold Machine.useOf at e
  dsimp only at e
  split at e
  · split at e
    · obtain ⟨t, et, rfl⟩ := Option.map_eq_some_iff.1 e
      exact .reserveXf h et
    · cases e
      exact h
  · split at e
    · cases e
      exact .reserveEnts h
    · split at e
      · cases e
        exact h
      · split at e <;> cases e <;> exact h

theorem issueFromMem {n k l : Nat} {x : Xfer} {src : Row} {late : Bool} (h : Keeps s₀ s) :
    Keeps s₀ (issueFromMem n k l x src late s) := by
  unfold Machine.issueFromMem
  dsimp only
  refine .ite (.slotWaits h) ?_
  refine .ite h ?_
  split
  · exact .slotWaits h
  next use v1 t e =>
    refine .progress ?_
    refine .sendPart ?_
    split
    · exact .fromAddr (.useOf h e)
    · exact (.useOf h e)

theorem issueFromSlot {n k l : Nat} {x : Xfer} (h : Keeps s₀ s) : Keeps s₀ (issueFromSlot n k l x s) := by
  unfold Machine.issueFromSlot
  dsimp only
  refine .ite (.slotWaits h) ?_
  refine .ite h ?_
  refine .ite (.onList (.takeSlot h)) ?_
  split
  · exact .slotWaits h
  next use v1 t e =>
    exact .progress (.sendPart (.takeSlot (.useOf h e)))

theorem countLanded {n k : Nat} {pois : List Bool} (h : Keeps s₀ s) : Keeps s₀ (countLanded n k pois s) := by
  unfold Machine.countLanded
  exact .ite h (.onCountsAt h)

theorem landAt {n k off : Nat} {data : List Byte} {pois : List Bool} (h : Keeps s₀ s) :
    Keeps s₀ (landAt n k off data pois s) := by
  unfold Machine.landAt
  exact .countLanded (.spdWrite h)

theorem entryLanded {n k q pos m : Nat} (h : Keeps s₀ s) : Keeps s₀ (entryLanded n k q pos m s) := by
  unfold Machine.entryLanded
  exact .onSlot h

theorem landRuns {n k q : Nat} {runs : List (Nat × Nat)} {data : List Byte} {pois : List Bool} (h : Keeps s₀ s) :
    Keeps s₀ (landRuns n k q runs data pois s) := by
  unfold Machine.landRuns
  dsimp only
  exact .foldl (.countLanded (.spdWrite h)) (fun _ _ => .entryLanded)

theorem putBeat {n k l desc r dst : Nat} {data : List Byte} {pois : List Bool} (h : Keeps s₀ s) :
    Keeps s₀ (putBeat n k l desc r dst data pois s) := by
  unfold Machine.putBeat
  dsimp only
  split
  · exact .ite (.moreOut h) h
  · exact h

theorem outMoved {n k l : Nat} {x : Xfer} {len : Nat} (h : Keeps s₀ s) : Keeps s₀ (outMoved n k l x len s) := by
  unfold Machine.outMoved
  exact .onList h

theorem countLate {n k q : Nat} {fixed : Bool} {at_ : List Nat} (h : Keeps s₀ s) :
    Keeps s₀ (countLate n k q fixed at_ s) := by
  unfold Machine.countLate
  exact .ite (.onCore h) h

theorem flushStep {n k l : Nat} {x : Xfer} (h : Keeps s₀ s) (e : flushStep n k l x s = some t) : Keeps s₀ t := by
  unfold Machine.flushStep at e
  dsimp only at e
  obtain ⟨-, e⟩ := Option.ite_none_left_eq_some.1 e
  split at e
  · obtain ⟨-, ⟨⟩⟩ := Option.ite_none_left_eq_some.1 e
    exact .outMoved (.putBeat h)
  · split at e
    · obtain ⟨-, ⟨⟩⟩ := Option.ite_none_left_eq_some.1 e
      exact .outMoved (.landRuns (.countLate (.iteSnd h (.reserveEnts h))))
    · split at e
      · obtain ⟨-, ⟨⟩⟩ := Option.ite_none_left_eq_some.1 e
        exact .outMoved (.landAt h)
      · cases e

theorem flushXf {n k l id : Nat} {fuel : Nat} (h : Keeps s₀ s) : Keeps s₀ (flushXf n k l id fuel s) := by
  induction fuel generalizing s with
  | zero => exact h
  | succ fuel ih =>
    unfold Machine.flushXf
    split
    · exact h
    · split
      · exact h
      next e => exact ih (.flushStep h e)

theorem closeReq {n tag : Nat} (h : Keeps s₀ s) : Keeps s₀ (closeReq n tag s) := by
  unfold Machine.closeReq
  exact .onCore h

theorem countStale {n : Nat} (h : Keeps s₀ s) : Keeps s₀ (countStale n s) := by
  unfold Machine.countStale
  exact .onCounts h

theorem finishPart {n tag : Nat} {q : Req} (h : Keeps s₀ s) : Keeps s₀ (finishPart n tag q s) := by
  unfold Machine.finishPart
  dsimp only
  split
  · exact .lessOut (.closeReq h)
  · exact .closeReq h

theorem landReply {n tag : Nat} (h : Keeps s₀ s) : Keeps s₀ (landReply n tag s) := by
  unfold Machine.landReply
  dsimp only
  split
  · exact h
  · refine .ite h ?_
    refine .ite (.countStale (.closeReq h)) ?_
    split
    · exact .finishPart (.landAt (.ite (.recordFaultSt h) h))
    · exact .finishPart (.landRuns (.countLate (.ite (.recordFaultSt h) h)))
    · exact .finishPart (.flushXf (.onList (.ite (.recordFaultSt h) h)))
    · exact .ite h (.sendReq (.closeReq (.ite (.recordFaultSt h) h)))
    · exact .closeReq (.onSlot (.spdWrite (.countLate (.ite (.recordFaultSt h) h))))
    · exact .ite (.recordFaultSt h) h
    · exact .ite (.recordFaultSt h) h

theorem flushAll {n k l : Nat} (h : Keeps s₀ s) : Keeps s₀ (flushAll n k l s) := by
  unfold Machine.flushAll
  exact .foldl h (fun _ _ => .flushXf)

theorem engineIssue {n l : Nat} (h : Keeps s₀ s) : Keeps s₀ (engineIssue n l s) := by
  unfold Machine.engineIssue
  dsimp only
  refine .ite h ?_
  refine .ite (.flushAll h) ?_
  split
  · exact .outMoved (.sendPart (.flushAll h))
  · refine .ite (.flushAll h) ?_
    split
    · exact .flushAll h
    · exact .ite (.issueFromSlot (.flushAll h)) (.ite (.issueFromMem (.gatherRow (.flushAll h))) (.issueFromMem
      (.flushAll h)))

theorem stfSend {n sl : Nat} (h : Keeps s₀ s) : Keeps s₀ (stfSend n sl s) := by
  unfold Machine.stfSend
  dsimp only
  exact .ite (.sendReq (.onSlot (.spdRead h))) h

theorem countEpoch {p : Nat} (h : Keeps s₀ s) : Keeps s₀ (countEpoch p s) := by
  unfold Machine.countEpoch
  exact .onPanel h

theorem refuseReq {n tag : Nat} {q : Req} (h : Keeps s₀ s) : Keeps s₀ (refuseReq n tag q s) := by
  unfold Machine.refuseReq
  exact .onCore (.onCountsAt h)

theorem retryReq {n tag : Nat} (h : Keeps s₀ s) : Keeps s₀ (retryReq n tag s) := by
  unfold Machine.retryReq
  dsimp only
  split
  · exact h
  · split
    · exact .ite (.closeReq h) (.ite h (.launchPacket (.onCore h)))
    · exact h

theorem coreReply {k : Packet} {n : Nat} (h : Keeps s₀ s) : Keeps s₀ (coreReply k n s) := by
  unfold Machine.coreReply
  dsimp only
  split
  · exact .countEpoch (.dropPacket h)
  · exact .ite (.countStale (.closeReq (.dropPacket h))) (.ite (.refuseReq (.dropPacket h)) (.onCore (.dropPacket h)))

theorem coreAck {k : Packet} {n : Nat} (h : Keeps s₀ s) : Keeps s₀ (coreAck k n s) := by
  unfold Machine.coreAck
  dsimp only
  split
  · exact .countEpoch (.dropPacket h)
  · refine .ite (.countStale (.closeReq (.dropPacket h))) ?_
    refine .ite (.refuseReq (.dropPacket h)) ?_
    split
    · exact .ite (.closeReq (.onCtx (.dropPacket h))) (.onCtx (.onCore (.closeReq (.onCtx (.dropPacket h)))))
    · exact .finishPart (.ite (.recordFaultSt (.dropPacket h)) (.dropPacket h))

theorem listStoppedNow {n k l : Nat} (h : Keeps s₀ s) : Keeps s₀ (listStoppedNow n k l s) := by
  unfold Machine.listStoppedNow
  dsimp only
  exact .ite (.onList (.writeBlock (.onList h))) h

theorem tablesChanged (h : Keeps s₀ s) : Keeps s₀ (tablesChanged s) := by
  unfold Machine.tablesChanged
  dsimp only
  exact .foldl h (fun _ _ => .onPanel)

theorem tablesAfter (h : Keeps s₀ s) : Keeps s₀ (tablesAfter s) := by
  unfold Machine.tablesAfter
  exact .ite h (.tablesChanged h)

theorem countRerouted {p n : Nat} (h : Keeps s₀ s) : Keeps s₀ (countRerouted p n s) := by
  unfold Machine.countRerouted
  exact .onPanel h

theorem tableArrives {p : Nat} (h : Keeps s₀ s) : Keeps s₀ (tableArrives p s) := by
  unfold Machine.tableArrives
  dsimp only
  exact .ite h h

theorem countAbsent {p : Nat} (h : Keeps s₀ s) : Keeps s₀ (countAbsent p s) := by
  unfold Machine.countAbsent
  exact .onPanel h

theorem endHere {k : Packet} {p : Nat} (h : Keeps s₀ s) : Keeps s₀ (endHere k p s) := by
  unfold Machine.endHere
  exact .ite (.dropPacket h) (.ite (.countAbsent (.answer h)) (.answer h))

theorem served {k : Packet} {out : Nat} (h : Keeps s₀ s) : Keeps s₀ (served k out s) :=
  h

theorem meshForward {pid : Nat} (h : Keeps s₀ s) : Keeps s₀ (meshForward pid s) := by
  unfold Machine.meshForward
  dsimp only
  split
  · exact h
  · split
    · exact h
    · exact .ite h (.ite (.onPacket h) (.countRerouted (.onPacket h)))
    · exact .ite (.endHere (.served h)) h
    · exact .ite (.movePacket (.served h)) h
    · exact .ite (.movePacket (.served h)) h

theorem redLand {p : RedPkt} (h : Keeps s₀ s) : Keeps s₀ (redLand p s) := by
  unfold Machine.redLand
  dsimp only
  split
  · split
    · exact .ite (.lessOut (.spdWrite h)) (.spdWrite h)
    · exact .spdWrite h
  · exact h

theorem combine {n id : Nat} (h : Keeps s₀ s) : Keeps s₀ (combine n id s) := by
  unfold Machine.combine
  dsimp only
  split
  · exact .ite h (.ite (.redLand (.ite (.onPanel h) h)) (.ite (.onPanel (.ite (.onPanel h) h)) (.ite (.onPanel h) h)))
  · exact h

end Keeps

end Sys2Proof.Machine
end

section
/-! SUPPORT. What keeps the memory canonical and the power cap in its bounds: the stacks, their hubs and the control
die (chapters 08 and 10). -/

namespace Sys2Proof.Machine

open Sys2Proof

namespace Keeps

variable {s₀ s t : State} {α : Type}

theorem onStack {p : Nat} {f : Stack → Stack} (h : Keeps s₀ s) : Keeps s₀ (State.onStack s p f) := by
  unfold State.onStack
  exact .onPanel h

theorem onHub {p : Nat} {f : Hub → Hub} (h : Keeps s₀ s) : Keeps s₀ (State.onHub s p f) := by
  unfold State.onHub
  exact .onPanel h

theorem putSector {p phys : Nat} {data check : List Byte} (h : Keeps s₀ s) :
    Keeps s₀ (putSector p phys data check s) := by
  unfold Machine.putSector
  exact .onStack (.setMem h (Memory.wf_memPutBytes _ _ _))

theorem writeSector {p x : Nat} {data : List Byte} {pois : Bool} (h : Keeps s₀ s) :
    Keeps s₀ (writeSector p x data pois s) := by
  unfold Machine.writeSector
  exact .onStack (.putSector h)

theorem markSector {p x phys aw source : Nat} {addr : Bool} (h : Keeps s₀ s) :
    Keeps s₀ (markSector p x phys aw source addr s) := by
  unfold Machine.markSector
  exact .logErr (.onStack (.putSector h))

theorem noteCorrected {p phys : Nat} (h : Keeps s₀ s) : Keeps s₀ (noteCorrected p phys s) := by
  unfold Machine.noteCorrected
  exact .onStack h

theorem readSector {p x source : Nat} {raw : Bool} (h : Keeps s₀ s) : Keeps s₀ (readSector p x source s raw).2 := by
  unfold Machine.readSector
  dsimp only
  split
  · exact h
  · exact .onStack h
  · exact .noteCorrected h
  · exact .iteSnd h (.markSector h)

theorem readSectors {p source : Nat} {l : List Nat} (h : Keeps s₀ s) : Keeps s₀ (readSectors p source l s).2 := by
  induction l generalizing s with
  | nil => exact h
  | cons x t ih => exact ih (.readSector h)

theorem readStack {p x len source : Nat} (h : Keeps s₀ s) : Keeps s₀ (readStack p x len source s).2 := by
  unfold Machine.readStack
  dsimp only
  exact .readSectors h

theorem writeSectors {p x : Nat} {data : List Byte} {pois : List Bool} (h : Keeps s₀ s) :
    Keeps s₀ (writeSectors p x data pois s) := by
  unfold Machine.writeSectors
  exact .foldl h (fun _ _ => .writeSector)

theorem mergeUnit {p u x : Nat} {data : List Byte} {pois : List Bool} {secs : List SecRd} (h : Keeps s₀ s) :
    Keeps s₀ (mergeUnit p u x data pois secs s) := by
  unfold Machine.mergeUnit
  dsimp only
  exact .writeSectors (.onStack h)

theorem hubArrive {pid : Nat} (h : Keeps s₀ s) : Keeps s₀ (hubArrive pid s) := by
  unfold Machine.hubArrive
  dsimp only
  split
  · exact h
  · split
    · exact .ite h (.ite (.countAbsent (.answer h)) (.ite (.answer h) (.ite (.answer (.onHub h)) (.onHub h))))
    · exact h

theorem onWaiting {p pid : Nat} {f : HubReq → HubReq} (h : Keeps s₀ s) : Keeps s₀ (onWaiting p pid f s) := by
  unfold Machine.onWaiting
  exact .onHub h

theorem countDelayed {p : Nat} {q : HubReq} {k : Packet} (h : Keeps s₀ s) : Keeps s₀ (countDelayed p q k s) := by
  unfold Machine.countDelayed
  dsimp only
  split
  · exact .onCountsAt (.onWaiting (.onHub h))
  · exact .onWaiting (.onHub h)

theorem requestDone {p : Nat} {q : HubReq} (h : Keeps s₀ s) : Keeps s₀ (requestDone p q s) := by
  unfold Machine.requestDone
  exact .ite (.onHub h) (.answer (.onHub h))

theorem unitDone {p : Nat} {q : HubReq} (h : Keeps s₀ s) : Keeps s₀ (unitDone p q s) := by
  unfold Machine.unitDone
  exact .ite (.onWaiting h) (.requestDone h)

theorem mirrorDue {p pid x : Nat} {data : List Byte} {pois : List Bool} (h : Keeps s₀ s) :
    Keeps s₀ (mirrorDue p pid x data pois s) := by
  unfold Machine.mirrorDue
  dsimp only
  split
  · exact .ite h (.onStack h)
  · exact h

theorem sendPartner {p q : Nat} {r : MirrorReq} (h : Keeps s₀ s) : Keeps s₀ (sendPartner p q r s) := by
  -- With `expectOf` any function, kept so by `id`, the kernel does not compute with the stack's addresses.
  suffices hg : Machine.sendPartner ∈ {g | ∀ p q r s, Keeps s₀ s → Keeps s₀ (g p q r s)} from hg p q r s h
  delta Machine.sendPartner
  generalize expectOf = f
  revert f
  exact id fun _ _ _ _ _ h => .launchPacket (.onStack h)

theorem markCorrected {n : Nat} {k : Packet} (h : Keeps s₀ s) : Keeps s₀ (markCorrected n k s) := by
  unfold Machine.markCorrected
  dsimp only
  exact .onCore h

theorem readDone {p : Nat} {q : HubReq} {k : Packet} (h : Keeps s₀ s) : Keeps s₀ (readDone p q k s) := by
  unfold Machine.readDone
  dsimp only
  refine .unitDone ?_
  split
  · exact .ite (.markCorrected h) h
  · exact h

theorem sectorCame {p : Nat} {q : HubReq} {k : Packet} {i : Nat} {r : SecRd} (h : Keeps s₀ s) :
    Keeps s₀ (sectorCame p q k i r s) := by
  unfold Machine.sectorCame
  dsimp only
  exact .ite (.readDone h) (.onWaiting h)

theorem readUnit {p pid : Nat} {k : Packet} (h : Keeps s₀ s) : Keeps s₀ (readUnit p pid k s) := by
  unfold Machine.readUnit
  dsimp only
  refine .foldl h (fun _ _ h => ?_)
  split
  · exact h
  · split
    · exact .sectorCame (.readSector h)
    · exact .sendPartner (.onStack (.readSector h))
    · exact .readSector h

theorem serveUnit {p : Nat} {q : HubReq} {k : Packet} (h : Keeps s₀ s) : Keeps s₀ (serveUnit p q k s) := by
  unfold Machine.serveUnit
  dsimp only
  split
  · exact .readUnit h
  · exact .ite (.unitDone (.mirrorDue (.writeSectors h))) (.readUnit (.onStack h))

theorem hubGrant {p : Nat} (h : Keeps s₀ s) : Keeps s₀ (hubGrant p s) := by
  unfold Machine.hubGrant
  dsimp only
  split
  · exact .ite (.onHub h) h
  · split
    · exact .onHub (.ite (.onHub h) h)
    · refine .ite (.requestDone (.onHub (.ite (.countDelayed (.ite (.onHub h) h)) (.ite (.onHub h) h)))) ?_
      split
      · exact .serveUnit (.onStack (.onHub (.ite (.countDelayed (.ite (.onHub h) h)) (.ite (.onHub h) h))))
      · exact .onStack (.onHub (.ite (.countDelayed (.ite (.onHub h) h)) (.ite (.onHub h) h)))

theorem mergeNow {p : Nat} (h : Keeps s₀ s) : Keeps s₀ (mergeNow p s) := by
  unfold Machine.mergeNow
  dsimp only
  split
  · exact h
  · split
    · exact .ite (.requestDone (.onStack h)) (.ite h (.unitDone (.mirrorDue (.mergeUnit (.onStack h)))))
    · exact .onStack h

theorem partnerDone {p : Nat} {r : MirrorReq} (h : Keeps s₀ s) : Keeps s₀ (partnerDone p r s) := by
  unfold Machine.partnerDone
  exact .ite (.onStack h) (.answer (.onStack h))

theorem mirrorWriteNow {p : Nat} (h : Keeps s₀ s) : Keeps s₀ (mirrorWriteNow p s) := by
  unfold Machine.mirrorWriteNow
  dsimp only
  split
  · exact h
  · split
    · exact .ite h (.sendPartner h)
    · refine .ite (.partnerDone h) ?_
      split
      · exact .readUnit (.partnerDone h)
      · exact .partnerDone h

theorem copyCame {p : Nat} {r : MirrorReq} {good : Bool} {data : List Byte} (h : Keeps s₀ s) :
    Keeps s₀ (copyCame p r good data s) := by
  unfold Machine.copyCame
  split
  · exact .ite (.requestDone (.onStack h)) (.ite (.sectorCame (.onStack (.writeSector h))) (.sectorCame (.markSector
    h)))
  · exact h

theorem rebuiltUnit {p q : Nat} {r : MirrorReq} {data : List Byte} {pois : List Bool} (h : Keeps s₀ s) :
    Keeps s₀ (rebuiltUnit p q r data pois s) := by
  unfold Machine.rebuiltUnit
  exact .foldl h (fun _ _ h => .onStack (.putSector h))

theorem stackReply {k : Packet} {p : Nat} (h : Keeps s₀ s) : Keeps s₀ (stackReply k p s) := by
  unfold Machine.stackReply
  dsimp only
  split
  · exact .countEpoch (.dropPacket h)
  · refine .ite (.onStack (.dropPacket h)) ?_
    split
    · exact .copyCame (.partnerDone (.dropPacket h))
    · exact .ite (.rebuiltUnit (.partnerDone (.dropPacket h))) (.partnerDone (.dropPacket h))
    · exact .partnerDone (.dropPacket h)

theorem forceSector {p x source : Nat} (h : Keeps s₀ s) : Keeps s₀ (forceSector p x source s).2 := by
  unfold Machine.forceSector
  dsimp only
  split
  next r t e =>
    exact (.ofSnd (.readSector h) e)
  next t e =>
    exact .markSector (.ofSnd (.readSector h) e)

theorem putPart {p x : Nat} {data : List Byte} {pois : List Bool} (h : Keeps s₀ s) :
    Keeps s₀ (putPart p x data pois s) := by
  unfold Machine.putPart
  dsimp only
  exact .ite h (.ite (.writeSectors h) (.mergeUnit (.foldlSnd h (fun _ _ => .forceSector))))

theorem finishWrite {p : Nat} {q : HubReq} {k : Packet} (h : Keeps s₀ s) : Keeps s₀ (finishWrite p q k s) := by
  unfold Machine.finishWrite
  dsimp only
  refine .foldl h (fun _ _ h => ?_)
  split
  · exact .ite (.putPart h) (.putPart (.putPart h))
  · exact .putPart h

theorem finishWrites (h : Keeps s₀ s) : Keeps s₀ (finishWrites s) := by
  unfold Machine.finishWrites
  dsimp only
  refine .foldl ?_ (fun _ _ h => ?_)
  · refine .foldl ?_ (fun _ _ h => ?_)
    · refine .foldl h (fun _ _ h => ?_)
      refine .foldl h (fun _ _ h => ?_)
      split
      · exact .ite (.finishWrite h) h
      · exact h
    · refine .foldl h (fun _ _ h => ?_)
      split
      · exact .ite h (.putPart h)
      · exact h
  · refine .foldl h (fun _ _ h => ?_)
    split
    · exact .ite (.finishWrite h) h
    · exact h

theorem copyStored {p x q y len : Nat} (h : Keeps s₀ s) : Keeps s₀ (copyStored p x q y len s) := by
  unfold Machine.copyStored
  exact .onStack (.setMem h fun w => Memory.wf_foldl_memPut _ _ _ _ (Memory.wf_delRange _ _ _ w))

theorem rebuildNow {p : Nat} (h : Keeps s₀ s) : Keeps s₀ (rebuildNow p s) := by
  unfold Machine.rebuildNow
  dsimp only
  split
  · refine .ite h ?_
    split
    · exact .onStack h
    · exact .ite (.onStack h) (.sendPartner (.onStack h))
  · exact h

theorem rebuildDone {p : Nat} (h : Keeps s₀ s) : Keeps s₀ (rebuildDone p s) := by
  unfold Machine.rebuildDone
  dsimp only
  split
  · exact .ite h (.onStack (.onStack h))
  · exact h

theorem scrubSector {p phys : Nat} (h : Keeps s₀ s) : Keeps s₀ (scrubSector p s phys) := by
  unfold Machine.scrubSector
  split
  · exact .noteCorrected h
  · exact .markSector h
  · exact .onStack h
  · exact h

theorem stacksFollow {k : Nat} (h : Keeps s₀ s) : Keeps s₀ (stacksFollow k s) := by
  unfold Machine.stacksFollow
  exact .foldl h (fun _ _ h => .ite (.onStack h) h)

theorem scrubNow {p : Nat} (h : Keeps s₀ s) : Keeps s₀ (scrubNow p s) := by
  unfold Machine.scrubNow
  refine .ite h ?_
  split
  · exact .onStack (.foldl h (fun _ _ => .scrubSector))
  · exact .ite (.onStack (.foldl h (fun _ _ => .scrubSector))) h

theorem rewriteNow {p : Nat} (h : Keeps s₀ s) : Keeps s₀ (rewriteNow p s) := by
  unfold Machine.rewriteNow
  dsimp only
  split
  · exact h
  · split
    · exact .putSector (.onStack h)
    · exact .onStack h

theorem stackLost {p : Nat} (h : Keeps s₀ s) : Keeps s₀ (stackLost p s) := by
  unfold Machine.stackLost
  dsimp only
  exact .onStack (.setMem h (Memory.wf_delRange _ _ _))

theorem fillNow {p : Nat} (h : Keeps s₀ s) : Keeps s₀ (fillNow p s) := by
  unfold Machine.fillNow
  exact .ite (.onStack h) h

theorem fillDone {p : Nat} (h : Keeps s₀ s) : Keeps s₀ (fillDone p s) := by
  unfold Machine.fillDone
  exact .ite (.onStack h) h

theorem retireDone {p : Nat} (h : Keeps s₀ s) : Keeps s₀ (retireDone p s) := by
  unfold Machine.retireDone
  split
  · exact h
  · exact .onStack (.copyStored h)

theorem powerDownNow {p : Nat} (h : Keeps s₀ s) : Keeps s₀ (powerDownNow p s) := by
  unfold Machine.powerDownNow
  exact .ite (.onStack h) h

theorem winEnd {code : Nat} {res : List Nat} (h : Keeps s₀ s) : Keeps s₀ (winEnd code res s) := by
  unfold Machine.winEnd
  exact .onHost h

theorem winEndIf {op code : Nat} {res : List Nat} (h : Keeps s₀ s) : Keeps s₀ (winEndIf op code res s) := by
  unfold Machine.winEndIf
  split
  · exact .ite (.winEnd h) h
  · exact h

theorem zeroWindow {k : Nat} (h : Keeps s₀ s) : Keeps s₀ (zeroWindow k s) := by
  unfold Machine.zeroWindow
  exact .onPart (.setMem h (Memory.wf_delRange _ _ _))

theorem partEnd {k code : Nat} {res : List Nat} (h : Keeps s₀ s) : Keeps s₀ (partEnd k code res s) := by
  unfold Machine.partEnd
  exact .onPart (.setMem h (Memory.wf_memPutBytes _ _ _))

theorem putUnit {k off : Nat} {bs : List Byte} (h : Keeps s₀ s) : Keeps s₀ (putUnit k off bs s) := by
  unfold Machine.putUnit
  exact .foldl h (fun _ _ h => .ite h (.foldl h (fun _ _ => .writeSector)))

theorem readUnitAt {k off : Nat} (h : Keeps s₀ s) : Keeps s₀ (readUnitAt k off s) := by
  unfold Machine.readUnitAt
  exact .forceSector h

theorem putHdr {k : Nat} {hd : Hdr} (h : Keeps s₀ s) : Keeps s₀ (putHdr k hd s) := by
  unfold Machine.putHdr
  exact .putUnit h

theorem putRec {k n : Nat} {r : Rec} (h : Keeps s₀ s) : Keeps s₀ (putRec k n r s) := by
  unfold Machine.putRec
  exact .putUnit h

theorem editHdr {k : Nat} {f : Hdr → Hdr} (h : Keeps s₀ s) : Keeps s₀ (editHdr k f s) := by
  unfold Machine.editHdr
  exact .putHdr (.readUnitAt h)

theorem editRec {k n : Nat} {f : Rec → Rec} (h : Keeps s₀ s) : Keeps s₀ (editRec k n f s) := by
  unfold Machine.editRec
  exact .putRec (.readUnitAt h)

theorem freshRecords {k job : Nat} (h : Keeps s₀ s) : Keeps s₀ (freshRecords k job s) := by
  unfold Machine.freshRecords
  exact .foldl (.putHdr h) (fun _ _ h => .ite h (.onStack (.setMem h (Memory.wf_delRange _ _ _))))

theorem freshHeader {k job : Nat} (h : Keeps s₀ s) : Keeps s₀ (freshHeader k job s) := by
  unfold Machine.freshHeader
  exact .putHdr h

theorem recordApplied {k : Nat} (h : Keeps s₀ s) : Keeps s₀ (recordApplied k s) := by
  unfold Machine.recordApplied
  dsimp only
  split
  · exact h
  · exact .onJob (.editHdr (.editRec h))

end Keeps

end Sys2Proof.Machine
end

section
/-! SUPPORT. What keeps the memory canonical and the power cap in its bounds: the link ports (chapter 11). -/

namespace Sys2Proof.Machine

open Sys2Proof

namespace Keeps

variable {s₀ s t : State} {α : Type}

theorem sendCtl {o kind step : Nat} {data : List Byte} (h : Keeps s₀ s) : Keeps s₀ (sendCtl o kind step data s) := by
  unfold Machine.sendCtl
  exact .onPort h

theorem forwardFlit {src o : Nat} {t : TxFlit} (h : Keeps s₀ s) : Keeps s₀ (forwardFlit src o t s) := by
  unfold Machine.forwardFlit
  exact .onPort h

theorem raiseFlag {p f : Nat} (h : Keeps s₀ s) : Keeps s₀ (raiseFlag p f s) := by
  unfold Machine.raiseFlag
  exact .onSeq h

theorem entryStatus {o st : Nat} (h : Keeps s₀ s) : Keeps s₀ (entryStatus o st s) := by
  unfold Machine.entryStatus
  exact .ite h (.onPort h)

theorem discardEntries {o st : Nat} (h : Keeps s₀ s) : Keeps s₀ (discardEntries o st s) := by
  unfold Machine.discardEntries
  dsimp only
  exact .onPort (.foldl h (fun _ _ h => .entryStatus (.raiseFlag h)))

theorem flushBuffers {o : Nat} (h : Keeps s₀ s) : Keeps s₀ (flushBuffers o s) := by
  unfold Machine.flushBuffers
  dsimp only
  exact .onPort h

theorem sendRejoin {k o : Nat} (h : Keeps s₀ s) : Keeps s₀ (sendRejoin k o s) := by
  unfold Machine.sendRejoin
  exact .ite (.onPort (.sendCtl h)) h

theorem sendRejoins {k : Nat} (h : Keeps s₀ s) : Keeps s₀ (sendRejoins k s) := by
  unfold Machine.sendRejoins
  exact .foldl h (fun _ _ => .sendRejoin)

theorem sendVoids {k : Nat} (h : Keeps s₀ s) : Keeps s₀ (sendVoids k s) := by
  unfold Machine.sendVoids
  exact .foldl h (fun _ _ h => .ite (.sendCtl h) h)

theorem sendToken {k : Nat} {t : Token} (h : Keeps s₀ s) : Keeps s₀ (sendToken k t s) := by
  unfold Machine.sendToken
  split
  · exact .sendCtl h
  · exact h

theorem setGates {p : Nat} {g : Gate} (h : Keeps s₀ s) : Keeps s₀ (setGates p g s) := by
  unfold Machine.setGates
  exact .foldl h (fun _ _ => .onCore)

theorem clearStepFlags {p : Nat} (h : Keeps s₀ s) : Keeps s₀ (clearStepFlags p s) := by
  unfold Machine.clearStepFlags
  exact .foldl h (fun _ _ => .onCore)

theorem stopPanel {p : Nat} (h : Keeps s₀ s) : Keeps s₀ (stopPanel p s) := by
  unfold Machine.stopPanel
  exact .foldl h (fun _ _ h => .foldl h (fun _ _ => .stopCtx))

theorem askWake {forced : Bool} {p : Nat} (h : Keeps s₀ s) : Keeps s₀ (askWake forced p s) := by
  unfold Machine.askWake
  exact .ite (.onPanel h) h

theorem frogPanel {p : Nat} (h : Keeps s₀ s) : Keeps s₀ (frogPanel p s) := by
  unfold Machine.frogPanel
  exact .onSeq (.askWake (.setGates (.stopPanel h)))

theorem saveState {k : Nat} (h : Keeps s₀ s) : Keeps s₀ (saveState k s) := by
  unfold Machine.saveState
  exact .editHdr h

theorem enterHold {k cause : Nat} {down : Bool} (h : Keeps s₀ s) : Keeps s₀ (enterHold k cause down s) := by
  unfold Machine.enterHold
  extract_lets J v s₁ s₂ s₃ s₄ s₅ s₆ s₇
  have h₃ : Keeps s₀ s₃ := .saveState (.onJob (.ite (.editRec h) h))
  have h₄ : Keeps s₀ s₄ := .foldl h₃ (fun _ _ h => .onPort (.flushBuffers (.discardEntries h)))
  have h₆ : Keeps s₀ s₆ := .foldl (.sendVoids h₄) (fun _ _ => .onSeq)
  have h₇ : Keeps s₀ s₇ := .ite (.foldl h₆ (fun _ _ => .frogPanel)) h₆
  exact .ite (.attendPart h₇) h₇

theorem voidStep {k cause : Nat} {down : Bool} (h : Keeps s₀ s) : Keeps s₀ (voidStep k cause down s) := by
  unfold Machine.voidStep
  exact .ite h (.ite (.enterHold h) (.ite (.sendRejoins (.sendVoids (.attendPart (.onJob h)))) h))

theorem voidPanel {p cause : Nat} (h : Keeps s₀ s) : Keeps s₀ (voidPanel p cause s) := by
  unfold Machine.voidPanel
  split
  · exact .voidStep h
  · exact h

theorem voidRecords {k r : Nat} (h : Keeps s₀ s) : Keeps s₀ (voidRecords k r s) := by
  unfold Machine.voidRecords
  exact .foldl h (fun _ _ h => .ite (.onJob (.putRec (.readUnitAt h))) (.readUnitAt h))

theorem rollback {k r : Nat} (h : Keeps s₀ s) : Keeps s₀ (rollback k r s) := by
  unfold Machine.rollback
  dsimp only
  exact .onJob (.editHdr (.voidRecords h))

theorem leaveHold {k : Nat} (h : Keeps s₀ s) : Keeps s₀ (leaveHold k s) := by
  unfold Machine.leaveHold
  exact .ite (.saveState (.onJob h)) (.foldl (.foldl (.saveState (.onJob (.ite h (.rollback h)))) (fun _ _ =>
    .onPort)) (fun _ _ => .onSeq))

theorem holdEnd {k : Nat} (h : Keeps s₀ s) : Keeps s₀ (holdEnd k s) := by
  unfold Machine.holdEnd
  exact .ite (.leaveHold h) h

theorem takeProposal {k r : Nat} {down : Bool} (h : Keeps s₀ s) : Keeps s₀ (takeProposal k r down s) := by
  unfold Machine.takeProposal
  exact .ite (.sendRejoins (.ite (.attendPart (.onJob h)) (.onJob h))) h

theorem unarrive {p : Nat} (h : Keeps s₀ s) : Keeps s₀ (unarrive p s) := by
  unfold Machine.unarrive
  split
  · exact .onJob h
  · exact h

theorem seqFault {p : Nat} {f : SeqFault} (h : Keeps s₀ s) : Keeps s₀ (seqFault p f s) := by
  unfold Machine.seqFault
  dsimp only
  split
  · exact .voidStep (.attendPart (.onPart (.unarrive (.onSeq h))))
  · exact .unarrive (.onSeq h)

theorem openStep {k n : Nat} (h : Keeps s₀ s) : Keeps s₀ (openStep k n s) := by
  unfold Machine.openStep
  dsimp only
  exact .foldl (.foldl (.foldl (.ite (.onJob (.recordApplied h)) (.putHdr (.putRec (.readUnitAt (.onJob
    (.recordApplied h)))))) (fun _ _ => .clearStepFlags)) (fun _ _ => .onPort)) (fun _ _ => .onSeq)

theorem stepOpenNow {k : Nat} (h : Keeps s₀ s) : Keeps s₀ (stepOpenNow k s) := by
  unfold Machine.stepOpenNow
  dsimp only
  refine .ite h ?_
  split
  · exact .openStep h
  · split
    · exact .openStep h
    · exact .foldl h (fun _ _ => .seqFault)

theorem flagSample {p : Nat} (h : Keeps s₀ s) : Keeps s₀ (flagSample p s) := by
  unfold Machine.flagSample
  split
  · exact .ite (.onJob h) h
  · exact h

theorem forwardToken {k : Nat} {nf : Bool} {t : Token} (h : Keeps s₀ s) : Keeps s₀ (forwardToken k nf t s) := by
  unfold Machine.forwardToken
  exact .sendToken h

theorem reductionDone {k : Nat} (h : Keeps s₀ s) : Keeps s₀ (reductionDone k s) := by
  unfold Machine.reductionDone
  exact .ite h (.foldl (.ite (.sendToken (.onJob h)) (.onJob h)) (fun _ _ => .forwardToken))

theorem decideStep {k : Nat} (h : Keeps s₀ s) : Keeps s₀ (decideStep k s) := by
  unfold Machine.decideStep
  dsimp only
  split
  · exact .foldl (.foldl (.ite (.onJob (.ite h (.editRec h))) (.editHdr (.onJob (.ite h (.editRec h))))) (fun _ _ =>
    .setGates)) (fun _ _ => .onSeq)
  · exact h

theorem stepVoidNow {k cause : Nat} (h : Keeps s₀ s) : Keeps s₀ (stepVoidNow k cause s) := by
  unfold Machine.stepVoidNow
  exact .ite (.voidStep h) h

theorem portTo {o : Nat} {st : LnkState} (h : Keeps s₀ s) : Keeps s₀ (portTo o st s) := by
  unfold Machine.portTo
  dsimp only
  refine .ite h ?_
  split
  · exact .ite (.voidStep (.onPort h)) (.ite (.sendRejoin (.onPort h)) (.onPort h))
  · exact .onPort h

theorem startTraining {o : Nat} (h : Keeps s₀ s) : Keeps s₀ (startTraining o s) := by
  unfold Machine.startTraining
  dsimp only
  exact .onPort (.portTo (.onPort h))

theorem equalise {o : Nat} (h : Keeps s₀ s) : Keeps s₀ (equalise o s) := by
  unfold Machine.equalise
  dsimp only
  exact .onPort (.freshNat h)

theorem trainingDone {o : Nat} (h : Keeps s₀ s) : Keeps s₀ (trainingDone o s) := by
  unfold Machine.trainingDone
  dsimp only
  refine .ite h ?_
  refine .ite (.logErr (.portTo h)) ?_
  split
  · exact .portTo h
  · exact .onPort (.portTo (.onPort (.equalise h)))

theorem portAbsentNow {o : Nat} (h : Keeps s₀ s) : Keeps s₀ (portAbsentNow o s) := by
  unfold Machine.portAbsentNow
  exact .ite (.portTo h) h

theorem portPresent {o : Nat} (h : Keeps s₀ s) : Keeps s₀ (portPresent o s) := by
  unfold Machine.portPresent
  exact .ite (.ite (.portTo h) (.startTraining h)) h

theorem sendPReq {o tag : Nat} {q : PReq} (h : Keeps s₀ s) : Keeps s₀ (sendPReq o tag q s) := by
  unfold Machine.sendPReq
  dsimp only
  exact .launchPacket (.onPort h)

theorem newPReq {o vc eid : Nat} {wr : Bool} {addr len : Nat} {data : List Byte} {pois : List Bool} (h : Keeps s₀ s) :
    Keeps s₀ (newPReq o vc eid wr addr len data pois s) := by
  unfold Machine.newPReq
  exact .sendPReq (.onPort h)

theorem onEntry {o vc id : Nat} {f : Entry → Entry} (h : Keeps s₀ s) : Keeps s₀ (onEntry o vc id f s) := by
  unfold Machine.onEntry
  exact .onPort h

theorem unserved {len : Nat} (h : Keeps s₀ s) : Keeps s₀ (unserved len s).2 := by
  unfold Machine.unserved
  dsimp only
  exact .freshNat h

theorem readFor {o : Nat} {e : Entry} {addr len : Nat} (h : Keeps s₀ s) : Keeps s₀ (readFor o e addr len s) := by
  unfold Machine.readFor
  exact .newPReq (.onEntry h)

theorem landFor {o vc id addr : Nat} {bs : List (Byte × Bool)} (h : Keeps s₀ s) :
    Keeps s₀ (landFor o vc id addr bs s) := by
  unfold Machine.landFor
  exact .newPReq (.onEntry h)

theorem landWhole {o vc id : Nat} {fin : Bool} {fuel : Nat} (h : Keeps s₀ s) : Keeps s₀ (landWhole fuel o vc id fin s) := by
  induction fuel generalizing s with
  | zero => exact h
  | succ fuel ih =>
    unfold Machine.landWhole
    split
    · exact h
    · exact .ite h (.ite (ih (.landFor (.onEntry h))) h)

theorem countProto {o : Nat} (h : Keeps s₀ s) : Keeps s₀ (countProto o s) := by
  unfold Machine.countProto
  exact .onPort h

theorem takeRx {o vc : Nat} (h : Keeps s₀ s) : Keeps s₀ (takeRx o vc s) := by
  unfold Machine.takeRx
  exact .onPort h

theorem consume {o : Nat} {e : Entry} {f : RxFlit} {add : Option (List Byte × List Bool)} (h : Keeps s₀ s) :
    Keeps s₀ (consume o e f add s) := by
  unfold Machine.consume
  extract_lets len raw addP data poison bad nf s₁ fin s₂ s₃
  have h₁ : Keeps s₀ s₁ := .ite (.onPort h) h
  have h₂ : Keeps s₀ s₂ := .onEntry (.takeRx h₁)
  have h₃ : Keeps s₀ s₃ := .ite (.landWhole h₂) h₂
  exact .ite (.forwardFlit h₃) h₃

theorem endForward {o : Nat} {e : Entry} (h : Keeps s₀ s) : Keeps s₀ (endForward o e s) := by
  unfold Machine.endForward
  exact .ite (.onPort h) h

theorem pumpRx {o vc : Nat} {fuel : Nat} (h : Keeps s₀ s) : Keeps s₀ (pumpRx fuel o vc s) := by
  induction fuel generalizing s with
  | zero => exact h
  | succ fuel ih =>
    unfold Machine.pumpRx
    dsimp only
    split
    · refine .ite (ih (.onEntry (.takeRx h))) (.ite ?mismatch (.ite h ?taken))
      case mismatch =>
        split
        · exact .voidStep (.countProto (.takeRx h))
        · exact ih (.onEntry (.endForward (.countProto (.takeRx h))))
      case taken =>
        split
        · exact .ite h (ih (.readFor h))
        · exact ih (.consume h)
        · exact ih (.consume h)
    · exact h

theorem pumpTx {o vc : Nat} {fuel : Nat} (h : Keeps s₀ s) : Keeps s₀ (pumpTx fuel o vc s) := by
  induction fuel generalizing s with
  | zero => exact h
  | succ fuel ih =>
    unfold Machine.pumpTx
    dsimp only
    split
    · exact h
    · refine .ite h ?_
      split
      · exact .ite h (ih (.readFor h))
      · exact ih (.onEntry (.forwardFlit h))

theorem pumpPort {o : Nat} (h : Keeps s₀ s) : Keeps s₀ (pumpPort o s) := by
  unfold Machine.pumpPort
  exact .onPort (.foldl (.onPort h) (fun _ _ h => .pumpTx (.pumpRx h)))

theorem pumpAll (h : Keeps s₀ s) : Keeps s₀ (pumpAll s) := by
  unfold Machine.pumpAll
  dsimp only
  exact .foldl h (fun _ _ => .pumpPort)

theorem countEpochAt {p : Nat} (h : Keeps s₀ s) : Keeps s₀ (portReply.countEpochAt p s) := h

theorem portReply {k : Packet} {o : Nat} (h : Keeps s₀ s) : Keeps s₀ (portReply k o s) := by
  unfold Machine.portReply
  dsimp only
  split
  · exact .countEpochAt (.dropPacket h)
  · have hd {f : Port → Port} : Keeps s₀ ((Machine.dropPacket k.pid s).onPort o f) := .onPort (.dropPacket h)
    exact .ite hd (.ite (.pumpAll (.onEntry hd)) (.ite (.pumpAll (.onEntry (.unserved hd))) (.pumpAll (.onEntry hd))))

theorem retryPort {o vc : Nat} (h : Keeps s₀ s) : Keeps s₀ (retryPort o vc s) := by
  unfold Machine.retryPort
  split
  · exact .pumpAll (.sendPReq h)
  · exact h

theorem entryComplete {o vc : Nat} (h : Keeps s₀ s) : Keeps s₀ (entryComplete o vc s) := by
  unfold Machine.entryComplete
  split
  · exact h
  · exact .entryStatus (.raiseFlag (.onPort h))

theorem postEntry {src : Source} {o w : Nat} (h : Keeps s₀ s) : Keeps s₀ (postEntry src o w s).2 := by
  unfold Machine.postEntry
  split
  · exact h
  · exact .iteSnd h (.iteSnd h (.iteSnd (.onPort h) (.pumpAll (.onPort h))))

theorem postWords {src : Source} {o : Nat} {w0 w1 w2 w3 : W64} (h : Keeps s₀ s) :
    Keeps s₀ (postWords src o w0 w1 w2 w3 s).2 := by
  unfold Machine.postWords
  exact .postEntry (.onPort h)

theorem postNow {code : Nat} {src : Source} {o : Nat} {w0 w1 w2 w3 : W64} (h : Keeps s₀ s) :
    Keeps s₀ (postNow code src o w0 w1 w2 w3 s).2 := by
  unfold Machine.postNow
  exact .iteSnd (.postWords h) h

theorem takeToken {k o : Nat} {f : Flit} (h : Keeps s₀ s) : Keeps s₀ (takeToken k o f s) := by
  unfold Machine.takeToken
  refine .ite (.countProto h) ?_
  refine .ite (.ite (.onJob h) (.countProto h)) ?_
  refine .ite (.countProto h) ?_
  refine .ite ?_ (.ite (.forwardToken h) (.countProto h))
  split
  · exact .forwardToken h
  · exact .onJob h

theorem takeVoid {k o : Nat} {f : Flit} (h : Keeps s₀ s) : Keeps s₀ (takeVoid k o f s) := by
  unfold Machine.takeVoid
  exact .ite (.voidStep h) (.countProto h)

theorem takeRejoin {k o : Nat} {f : Flit} (h : Keeps s₀ s) : Keeps s₀ (takeRejoin k o f s) := by
  unfold Machine.takeRejoin
  exact .ite (.portTo h) (.ite (.takeProposal (.onPort h)) (.onPort h))

theorem deliver {o kind : Nat} {f : Flit} (h : Keeps s₀ s) : Keeps s₀ (deliver o kind f s) := by
  unfold Machine.deliver
  dsimp only
  refine .ite (.onPort (.countProto h)) ?_
  refine .ite (.ite (.onPort (.onPort h)) (.pumpAll (.onPort h))) ?_
  split
  · exact .onPort (.countProto h)
  · split
    · exact .takeToken (.onPort (.onPort h))
    · exact .takeVoid (.onPort (.onPort h))
    · exact .takeRejoin (.onPort (.onPort h))

theorem rxGood {o kind : Nat} {f : Flit} {act : State → State} (h : Keeps s₀ s) (ha : ∀ t, Keeps s₀ t → Keeps s₀ (act t)) :
    Keeps s₀ (rxGood o kind f act s) := by
  unfold Machine.rxGood
  exact .ite h (.ite (.pumpAll (.onPort h)) (.ite (.pumpAll (.onPort h)) (.pumpAll (ha _ h))))

theorem rxFlit {o kind : Nat} {f : Flit} {act : State → State} (h : Keeps s₀ s) (ha : ∀ t, Keeps s₀ t → Keeps s₀ (act t)) :
    Keeps s₀ (rxFlit o kind f act s) := .rxGood h fun _ h => ha _ (.onPort h)

theorem rxPlain {o kind : Nat} {f : Flit} (h : Keeps s₀ s) : Keeps s₀ (rxPlain o kind f s) := by
  unfold Machine.rxPlain
  exact .rxFlit h (fun _ => .onPort)

theorem rxSeq {o kind : Nat} {f : Flit} (h : Keeps s₀ s) : Keeps s₀ (rxSeq o kind f s) := by
  unfold Machine.rxSeq
  exact .rxFlit h (fun _ h => .ite (.deliver (.onPort (.onPort h))) (.onPort h))

theorem rxReserved {o kind : Nat} {f : Flit} (h : Keeps s₀ s) : Keeps s₀ (rxReserved o kind f s) := by
  unfold Machine.rxReserved
  exact .rxGood h (fun _ h => .countProto (.onPort h))

theorem rxIdent {o : Nat} {f : Flit} (h : Keeps s₀ s) : Keeps s₀ (rxIdent o f s) := by
  unfold Machine.rxIdent
  refine .ite (.rxPlain h) ?_
  refine .ite (.onPort h) ?_
  refine .ite (.ite (.onPort h) h) ?_
  split
  · exact .onPort h
  · exact .ite h (.onPort (.startTraining h))
  · exact h

theorem queueRepair {kind unit index : Nat} (h : Keeps s₀ s) : Keeps s₀ (queueRepair kind unit index s) := by
  unfold Machine.queueRepair
  dsimp only
  exact .ite h (.ite (.logErr (.onPanel h)) h)

theorem failLane {o lane : Nat} (h : Keeps s₀ s) : Keeps s₀ (failLane o lane s) := by
  unfold Machine.failLane
  dsimp only
  exact .ite h (.ite (.portTo (.logErr (.queueRepair (.onPort h)))) (.ite (.onPort (.logErr (.queueRepair (.onPort
    h)))) (.ite (.onPort (.logErr (.queueRepair (.onPort h)))) (.onPort (.logErr (.queueRepair (.onPort h)))))))

theorem rxLane {o : Nat} {f : Flit} (h : Keeps s₀ s) : Keeps s₀ (rxLane o f s) := by
  unfold Machine.rxLane
  dsimp only
  exact .rxFlit h (fun _ h => .onPort (.ite (.onPort h) (.failLane (.onPort h))))

theorem laneSwitchNow {o : Nat} (h : Keeps s₀ s) : Keeps s₀ (laneSwitchNow o s) := by
  unfold Machine.laneSwitchNow
  split
  · exact .ite (.onPort h) h
  · exact h

theorem codeword {o : Nat} {errs : List (Nat × BitVec 10)} {flits : Nat} (h : Keeps s₀ s) :
    Keeps s₀ (codeword o errs flits s) := by
  unfold Machine.codeword
  dsimp only
  exact .ite h (.ite (.foldl (.onPort h) (fun _ _ h => .ite (.failLane h) h)) (.ite (.onPort (.freshNat h)) (.onPort
    (.freshNat h))))

theorem replayNow {o : Nat} (h : Keeps s₀ s) : Keeps s₀ (replayNow o s) := by
  unfold Machine.replayNow
  exact .ite (.portTo (.onPort h)) (.onPort h)

theorem replayGap {o : Nat} (h : Keeps s₀ s) : Keeps s₀ (replayGap o s) := by
  unfold Machine.replayGap
  exact .ite (.replayNow h) h

theorem replayLate {o : Nat} (h : Keeps s₀ s) : Keeps s₀ (replayLate o s) := by
  unfold Machine.replayLate
  exact .ite (.replayNow h) h

theorem signalLoss {o : Nat} (h : Keeps s₀ s) : Keeps s₀ (signalLoss o s) := by
  unfold Machine.signalLoss
  exact .ite (.portTo h) h

theorem retrainNow {o : Nat} (h : Keeps s₀ s) : Keeps s₀ (retrainNow o s) := by
  unfold Machine.retrainNow
  exact .ite (.startTraining (.onPort h)) h

theorem trainingLate {o : Nat} (h : Keeps s₀ s) : Keeps s₀ (trainingLate o s) := by
  unfold Machine.trainingLate
  exact .ite (.portTo h) h

theorem gapTimeout {o : Nat} (h : Keeps s₀ s) : Keeps s₀ (gapTimeout o s) := by
  unfold Machine.gapTimeout
  dsimp only
  split
  · exact h
  · exact .ite (.voidStep h) h

theorem commitTimeoutNow {k : Nat} (h : Keeps s₀ s) : Keeps s₀ (commitTimeoutNow k s) := by
  unfold Machine.commitTimeoutNow
  dsimp only
  split
  · exact .ite (.voidStep h) h
  · exact h

theorem rejoinDue {o : Nat} (h : Keeps s₀ s) : Keeps s₀ (rejoinDue o s) := by
  unfold Machine.rejoinDue
  split
  · exact .ite (.sendRejoin h) h
  · exact h

theorem writeLnkCfg {src : Source} {o : Nat} {v : W64} (h : Keeps s₀ s) : Keeps s₀ (writeLnkCfg src o v s) := by
  unfold Machine.writeLnkCfg
  dsimp only
  exact .ite h (.ite (.onPort h) (.onPort h))

end Keeps

end Sys2Proof.Machine
end

section
/-! SUPPORT. What keeps the memory canonical and the power cap in its bounds: registers, remote requests, sequencers
and rest states (chapters 03, 09 and 14). -/

namespace Sys2Proof.Machine

open Sys2Proof

namespace Keeps

variable {s₀ s t : State} {α : Type}

theorem regClear {l : List RFld} {mask : Nat} (h : Keeps s₀ s) (hl : FldsKeep l) : Keeps s₀ (regClear l mask s) := by
  unfold Machine.regClear
  induction l generalizing s with
  | nil => exact h
  | cons f l ih =>
    rw [List.foldl_cons]
    refine ih ?_ fun g hg => hl g (List.mem_cons_of_mem _ hg)
    split
    next g e => exact .ite (h.trans (hl f List.mem_cons_self g e s)) h
    · exact h

theorem onTension {p : Nat} {f : Tension → Tension} (h : Keeps s₀ s) : Keeps s₀ (onTension p f s) := by
  unfold Machine.onTension
  exact .onPanel h

theorem obeyBound {p : Nat} (h : Keeps s₀ s) : Keeps s₀ (obeyBound p s) := by
  unfold Machine.obeyBound
  exact .ite (.onTension h) h

theorem writeLimit {p v : Nat} (h : Keeps s₀ s) : Keeps s₀ (writeLimit p v s) := by
  unfold Machine.writeLimit
  exact .obeyBound (.onTension h)

theorem offRequest {fromSeq : Bool} {p : Nat} (h : Keeps s₀ s) : Keeps s₀ (offRequest fromSeq p s).2 := by
  unfold Machine.offRequest
  dsimp only
  exact .iteSnd (.onPanel h) (.tablesChanged (.onPanel (.onPanel h)))

theorem panelWrite {fromSeq : Bool} {p off v mask : Nat} (h : Keeps s₀ s) :
    Keeps s₀ (panelWrite fromSeq p off v mask s).2 := by
  unfold Machine.panelWrite
  dsimp only
  exact .iteSnd (.iteSnd (.offRequest h) h) (.iteSnd (.ite (.writeLimit h) h) (.iteSnd (.onPanel h) h))

theorem seqWrite {p off v mask : Nat} (h : Keeps s₀ s) : Keeps s₀ (seqWrite p off v mask s).2 := by
  unfold Machine.seqWrite
  dsimp only
  exact .iteSnd (.onSeq h) (.iteSnd (.onSeq h) (.iteSnd (.onSeq h) h))

theorem writeScrub {p v mask : Nat} (h : Keeps s₀ s) : Keeps s₀ (writeScrub p v mask s) := by
  unfold Machine.writeScrub
  exact .onStack h

theorem stkWrite {p off v mask : Nat} (h : Keeps s₀ s) : Keeps s₀ (stkWrite p off v mask s).2 := by
  unfold Machine.stkWrite
  exact .iteSnd (.ite (.onStack h) h) (.iteSnd (.writeScrub h) h)

theorem lnkWrite {src : Source} {o off v mask : Nat} (h : Keeps s₀ s) : Keeps s₀ (lnkWrite src o off v mask s).2 := by
  unfold Machine.lnkWrite
  dsimp only
  exact .iteSnd (.writeLnkCfg h) (.iteSnd (.iteSnd (.postEntry (.onPort h)) (.onPort h)) h)

theorem writeRegion {n r v : Nat} (h : Keeps s₀ s) : Keeps s₀ (writeRegion n r v s).2 := by
  unfold Machine.writeRegion
  exact .iteSnd h (.iteSnd h (.onCore h))

theorem writeRed {n r v : Nat} (h : Keeps s₀ s) : Keeps s₀ (writeRed n r v s).2 := by
  unfold Machine.writeRed
  dsimp only
  exact .iteSnd h (.iteSnd h (.onCore h))

theorem coreWrite {n off v mask : Nat} (h : Keeps s₀ s) : Keeps s₀ (coreWrite n off v mask s).2 := by
  unfold Machine.coreWrite
  dsimp only
  exact .iteSnd (.ite (.onCore h) h) (.iteSnd (.onCounts h) (.iteSnd (.ite (.onCore h) h) (.iteSnd (.writeRegion h)
    (.iteSnd (.writeRed h) h))))

theorem dropSpares {p : Nat} {all : Bool} (h : Keeps s₀ s) : Keeps s₀ (dropSpares p all s) :=
  h

theorem readReg {l : List RFld} {b len : Nat} (h : Keeps s₀ s) (hl : FldsKeep l) : Keeps s₀ (readReg l b len s).2 :=
  .regClear h hl

theorem unitRead {p u off len : Nat} (h : Keeps s₀ s) : Keeps s₀ (unitRead p u off len s).2 := by
  unfold Machine.unitRead
  dsimp only
  have hr {o b m : Nat} : Keeps s₀ (Machine.readReg (unitFlds p u o s) b m s).2 := .readReg h (unitFlds_keep _ _ _ _)
  exact .iteSnd h (.iteSnd (.readReg hr (unitFlds_keep _ _ _ _)) hr)

theorem unitWriteReg {src : Source} {p u off v mask : Nat} (h : Keeps s₀ s) :
    Keeps s₀ (unitWriteReg src p u off v mask s).2 := by
  unfold Machine.unitWriteReg
  dsimp only
  split
  · exact .panelWrite h
  · exact .seqWrite h
  · exact h
  · exact .stkWrite h
  · exact .lnkWrite h
  · exact .lnkWrite h
  · exact .coreWrite h
  · exact .coreWrite h

theorem unitWrite {src : Source} {p u off : Nat} {bs : List Byte} (h : Keeps s₀ s) :
    Keeps s₀ (unitWrite src p u off bs s).2 := by
  unfold Machine.unitWrite
  dsimp only
  exact .iteSnd (.setMem h (Memory.wf_memPutBytes _ _ _)) (.iteSnd (.unitWriteReg (.unitWriteReg h)) (.unitWriteReg
    h))

theorem serveSpd {k : Packet} {n off : Nat} (h : Keeps s₀ s) : Keeps s₀ (serveSpd k n off s) := by
  unfold Machine.serveSpd
  dsimp only
  refine .ite (.countAbsent (.answer h)) ?_
  refine .ite (.answer h) ?_
  split
  · refine .answer ?_
    split
    · exact .ite (.markCorrected (.spdRead h)) (.spdRead h)
    · exact .spdRead h
  · exact .answer (.spdWrite h)

theorem serveCtl {k : Packet} {p u off : Nat} (h : Keeps s₀ s) : Keeps s₀ (serveCtl k p u off s) := by
  unfold Machine.serveCtl
  dsimp only
  refine .ite (.countAbsent (.answer h)) ?_
  refine .ite (.answer h) ?_
  split
  · exact .answer (.unitRead h)
  · exact .answer (.unitWrite h)

theorem remoteRequest {pid : Nat} (h : Keeps s₀ s) : Keeps s₀ (remoteRequest pid s) := by
  unfold Machine.remoteRequest
  split
  · exact h
  · split
    · exact .serveSpd h
    · exact .serveCtl h
    · exact .answer h
    · exact h

theorem writeBackNow {n l : Nat} (h : Keeps s₀ s) : Keeps s₀ (writeBackNow n l s) := by
  unfold Machine.writeBackNow
  split
  · exact h
  · exact .putLine (.setMem (.onCore h) (Memory.wf_memPutBytes _ _ _))

theorem seqGo {p : Nat} {f : Seq → Seq} (h : Keeps s₀ s) : Keeps s₀ (seqGo p f s) := by
  unfold Machine.seqGo
  exact .onSeq h

theorem seqAlu {a : Alu} {p : Nat} (h : Keeps s₀ s) : Keeps s₀ (seqAlu a p s) := by
  unfold Machine.seqAlu
  exact .ite (.seqGo h) (.seqFault h)

theorem seqJump {p : Nat} {t : Int} (h : Keeps s₀ s) : Keeps s₀ (seqJump p t s) := by
  unfold Machine.seqJump
  dsimp only
  exact .onSeq h

theorem seqBranch {p : Nat} {legal : Bool} {t : Option Int} (h : Keeps s₀ s) : Keeps s₀ (seqBranch p legal t s) := by
  unfold Machine.seqBranch
  refine .ite (.seqFault h) ?_
  split
  · exact .seqJump h
  · exact .seqGo h

theorem seqLoop {p : Nat} {legal : Bool} {count body : Nat} (h : Keeps s₀ s) :
    Keeps s₀ (seqLoop p legal count body s) := by
  unfold Machine.seqLoop
  exact .ite (.seqFault h) (.ite (.onSeq h) (.onSeq h))

theorem seqMem {p : Nat} {i : CM} {st : Bool} (h : Keeps s₀ s) : Keeps s₀ (seqMem p i st s) := by
  unfold Machine.seqMem
  exact .ite (.seqFault h) (.ite (.seqGo (.setMem h (Memory.wf_memPutBytes _ _ _))) (.seqGo h))

theorem seqWait {p : Nat} {w : SeqWait} (h : Keeps s₀ s) : Keeps s₀ (seqWait p w s) := by
  unfold Machine.seqWait
  exact .onSeq h

theorem seqResume {p : Nat} {f : Seq → Seq} (h : Keeps s₀ s) : Keeps s₀ (seqResume p f s) := by
  unfold Machine.seqResume
  dsimp only
  exact .onSeq h

theorem sendSeqReq {p : Nat} {q : SeqReq} (h : Keeps s₀ s) : Keeps s₀ (sendSeqReq p q s) := by
  unfold Machine.sendSeqReq
  dsimp only
  exact .launchPacket (.onSeq h)

theorem seqFabDone {p : Nat} {q : SeqReq} {st : Nat} {data : List Byte} (h : Keeps s₀ s) :
    Keeps s₀ (seqFabDone p q st data s) := by
  unfold Machine.seqFabDone
  dsimp only
  exact .ite (.seqResume h) (.seqResume (.iteSnd h (.freshNat h)))

theorem seqFab {p : Nat} {i : CQ} {st : Bool} (h : Keeps s₀ s) : Keeps s₀ (seqFab p i st s) := by
  unfold Machine.seqFab
  exact .ite (.seqFault h) (.ite (.seqFabDone (.seqWait h)) (.ite (.seqWait h) (.sendSeqReq (.seqWait h))))

theorem seqReply {k : Packet} {p : Nat} (h : Keeps s₀ s) : Keeps s₀ (seqReply k p s) := by
  unfold Machine.seqReply
  dsimp only
  split
  · exact .ite (.onPanel (.dropPacket h)) (.ite (.onSeq (.dropPacket h)) (.onSeq (.dropPacket h)))
  · exact .onPanel (.dropPacket h)

theorem publishNow {p x : Nat} {data : List Byte} (h : Keeps s₀ s) : Keeps s₀ (publishNow p x data s) := by
  unfold Machine.publishNow
  split
  · refine .ite ?_ h
    split
    · exact .seqFabDone h
    · exact .ite (.seqFabDone h) (.seqFabDone (.ite (.onPart (.setMem h (Memory.wf_memPutBytes _ _ _))) (.setMem h
      (Memory.wf_memPutBytes _ _ _))))
  · exact h

theorem seqSet {p : Nat} {legal : Bool} {a : BitVec 5} {f : List Nat → State → State} (h : Keeps s₀ s)
    (hf : ∀ l t, Keeps s₀ t → Keeps s₀ (f l t)) : Keeps s₀ (seqSet p legal a f s) := by
  unfold Machine.seqSet
  refine .ite (.seqFault h) ?_
  split
  · exact .seqFault h
  · exact hf _ _ h

theorem launchSet {k entry : Nat} {args : List W64} {l : List Nat} (h : Keeps s₀ s) :
    Keeps s₀ (launchSet k entry args l s).2 := by
  induction l generalizing s with
  | nil => exact h
  | cons n t ih =>
    unfold Machine.launchSet
    split
    next e => exact ih (.launchOn h e)
    · exact ih h

theorem seqLaunch {p : Nat} {i : CR} (h : Keeps s₀ s) : Keeps s₀ (seqLaunch p i s) := by
  unfold Machine.seqLaunch
  dsimp only
  exact .seqSet h (fun _ _ h => .seqGo (.launchSet h))

theorem seqCswitch {p : Nat} {i : CR} (h : Keeps s₀ s) : Keeps s₀ (seqCswitch p i s) := by
  unfold Machine.seqCswitch
  exact .seqSet h (fun _ _ h => .seqGo (.foldl h (fun _ _ h => .ite h (.markSwitch h))))

theorem seqCstop {p : Nat} {i : CR} (h : Keeps s₀ s) : Keeps s₀ (seqCstop p i s) := by
  unfold Machine.seqCstop
  exact .seqSet h (fun _ _ h => .seqGo (.foldl h (fun _ _ h => .ite h (.stopCtx h))))

theorem seqXwake {p : Nat} {i : CR} (h : Keeps s₀ s) : Keeps s₀ (seqXwake p i s) := by
  unfold Machine.seqXwake
  exact .seqSet h (fun _ _ h => .seqGo (.foldl h (fun _ _ h => .ite h (.onCore h))))

theorem seqFlag {p : Nat} {i : CR} {set : Bool} (h : Keeps s₀ s) : Keeps s₀ (seqFlag p i set s) := by
  unfold Machine.seqFlag
  exact .ite (.seqGo h) (.seqFault h)

theorem seqFwait {p : Nat} {i : CR} (h : Keeps s₀ s) : Keeps s₀ (seqFwait p i s) := by
  unfold Machine.seqFwait
  exact .ite (.seqWait h) (.seqFault h)

theorem seqBarrier {p : Nat} {i : CR} (h : Keeps s₀ s) : Keeps s₀ (seqBarrier p i s) := by
  unfold Machine.seqBarrier
  exact .ite (.seqWait h) (.seqFault h)

theorem seqPrest {p : Nat} {i : CE} (h : Keeps s₀ s) : Keeps s₀ (seqPrest p i s) := by
  unfold Machine.seqPrest
  exact .ite (.onSeq h) (.seqFault h)

theorem seqStepBegin {p : Nat} {i : CR} (h : Keeps s₀ s) : Keeps s₀ (seqStepBegin p i s) := by
  unfold Machine.seqStepBegin
  dsimp only
  refine .ite (.seqFault h) ?_
  refine .ite (.seqFault h) ?_
  split
  · exact .onJob (.seqWait h)
  · exact .seqWait h

theorem seqStepEnd {p : Nat} {i : CR} (h : Keeps s₀ s) : Keeps s₀ (seqStepEnd p i s) := by
  unfold Machine.seqStepEnd
  exact .ite (.seqWait h) (.seqFault h)

theorem seqWdog {p : Nat} {i : CR} (h : Keeps s₀ s) : Keeps s₀ (seqWdog p i s) := by
  unfold Machine.seqWdog
  exact .ite (.seqGo h) (.seqFault h)

theorem seqCwait {p : Nat} {i : CR} (h : Keeps s₀ s) : Keeps s₀ (seqCwait p i s) := by
  unfold Machine.seqCwait
  exact .seqSet h (fun _ _ => .seqWait)

theorem seqMfc {p : Nat} {i : CR} (h : Keeps s₀ s) : Keeps s₀ (seqMfc p i s) := by
  unfold Machine.seqMfc
  exact .ite (.seqGo h) (.seqFault h)

theorem seqMtc {p : Nat} {i : CR} (h : Keeps s₀ s) : Keeps s₀ (seqMtc p i s) := by
  unfold Machine.seqMtc
  exact .ite (.seqGo h) (.seqFault h)

theorem seqExec {p : Nat} {i : CIns} (h : Keeps s₀ s) : Keeps s₀ (seqExec p i s) := by
  unfold Machine.seqExec
  cases i
  case nop => exact .seqGo h
  case add | sub | andS | orS | xorS | shl | shr | sra | minS | maxS | mul | mulh | cmp | sel | addi | andi | lui | ori |
      amov | aget | aadd | aaddi | aform | pop => exact .seqAlu h
  case ld | st => exact .seqMem h
  case ldf | stf => exact .seqFab h
  case br | jmp | jr => exact .seqBranch h
  case loop | loopi => exact .seqLoop h
  case sig | fset | fclr => exact .seqFlag h
  case mfc => exact .seqMfc h
  case mtc => exact .seqMtc h
  case launch => exact .seqLaunch h
  case cswitch => exact .seqCswitch h
  case cstop => exact .seqCstop h
  case xwake => exact .seqXwake h
  case fwait => exact .seqFwait h
  case barrier => exact .seqBarrier h
  case prest => exact .seqPrest h
  case stepBegin => exact .seqStepBegin h
  case stepEnd => exact .seqStepEnd h
  case wdog => exact .seqWdog h
  case cwait => exact .seqCwait h
  case kmov | kget | ktail | kop | srd | swr | wait | rest | yield | endC | arrive => exact .seqFault h

theorem seqStep {p : Nat} {i : CIns} (h : Keeps s₀ s) : Keeps s₀ (seqStep p i s) := by
  unfold Machine.seqStep
  exact .ite (.seqExec h) h

theorem seqUndefined {p : Nat} (h : Keeps s₀ s) : Keeps s₀ (seqUndefined p s) := by
  unfold Machine.seqUndefined
  exact .ite (.seqFault h) h

theorem prestDone {p : Nat} {r : PrestRec} (h : Keeps s₀ s) : Keeps s₀ (prestDone p r s) := by
  unfold Machine.prestDone
  exact .seqResume h

theorem seqWaitEnd {p : Nat} (h : Keeps s₀ s) : Keeps s₀ (seqWaitEnd p s) := by
  unfold Machine.seqWaitEnd
  refine .ite h ?_
  split
  · exact .ite (.seqResume h) h
  · exact .ite (.seqResume h) h
  · exact .ite (.seqResume h) h
  · split
    · exact .seqFabDone h
    · exact .ite (.sendSeqReq h) h
    · exact h
  · exact .ite (.prestDone h) h
  · exact h

theorem startSeq {p entry : Nat} (h : Keeps s₀ s) : Keeps s₀ (startSeq p entry s) := by
  unfold Machine.startSeq
  exact .onSeq h

theorem haltSeq {p : Nat} (h : Keeps s₀ s) : Keeps s₀ (haltSeq p s) := by
  unfold Machine.haltSeq
  exact .unarrive (.onSeq h)

theorem coreCycle {n : Nat} (h : Keeps s₀ s) : Keeps s₀ (coreCycle n s) := by
  unfold Machine.coreCycle
  exact .ite (.onCore h) (.haltTry (.onCore (.drainTick (.drainTick (.drainCycle h)))))

theorem panelCycle {p : Nat} (h : Keeps s₀ s) : Keeps s₀ (panelCycle p s) := by
  unfold Machine.panelCycle
  exact .ite h (.onPanel (.foldl h (fun _ _ => .coreCycle)))

theorem restOver {n : Nat} {r : RestRec} (h : Keeps s₀ s) : Keeps s₀ (restOver n r s) := by
  unfold Machine.restOver
  exact .onCore (.onCur (.consumeEvent h))

theorem restEntry {n : Nat} (h : Keeps s₀ s) : Keeps s₀ (restEntry n s) := by
  unfold Machine.restEntry
  dsimp only
  split
  · exact h
  · exact .ite h (.ite (.restOver h) (.onCore (.freshNat h)))

theorem learn {p j m : Nat} {horizon : Option Nat} {upd : Bool} (h : Keeps s₀ s) :
    Keeps s₀ (learn p j m horizon upd s) := by
  unfold Machine.learn
  exact .onPanel h

theorem coreWake {n : Nat} (h : Keeps s₀ s) : Keeps s₀ (coreWake n s) := by
  unfold Machine.coreWake
  dsimp only
  split
  · exact h
  · exact .ite h (.ite (.ite (.restOver h) h) (.ite (.ite h (.onCore (.onPanel h))) (.ite (.restOver (.learn
    (.onPanel (.freshNat h)))) (.onCore (.learn (.onPanel (.freshNat h)))))))

theorem suspendCore {n : Nat} (h : Keeps s₀ s) : Keeps s₀ (suspendCore n s) := by
  unfold Machine.suspendCore
  exact .foldl h (fun _ _ => .suspendLists)

theorem sleepCore {n : Nat} (h : Keeps s₀ s) : Keeps s₀ (sleepCore n s) := by
  unfold Machine.sleepCore
  exact .onCore (.ite (.saveArea (.onCtx (.writeGroups h))) h)

theorem enterRest {p : Nat} {st : PPower} (h : Keeps s₀ s) : Keeps s₀ (enterRest p st s) := by
  unfold Machine.enterRest
  exact .onPanel (.ite (.foldl (.foldl h (fun _ _ => .suspendCore)) (fun _ _ => .sleepCore)) (.foldl h (fun _ _ =>
    .suspendCore)))

theorem panelRestEntry {p : Nat} (h : Keeps s₀ s) : Keeps s₀ (panelRestEntry p s) := by
  unfold Machine.panelRestEntry
  dsimp only
  split
  · exact .ite h (.ite (.prestDone h) (.ite (.onSeq h) (.ite h (.enterRest (.onSeq h)))))
  · exact h

theorem restoreRest {n : Nat} (h : Keeps s₀ s) : Keeps s₀ (restoreRest n s) := by
  unfold Machine.restoreRest
  exact .ite (.restoreArea h) h

theorem takeUnits {p : Nat} (h : Keeps s₀ s) (e : takeUnits p s = some t) : Keeps s₀ t := by
  unfold Machine.takeUnits at e
  dsimp only at e
  split at e <;> cases e
  exact .onPower h

theorem takeNew {p : Nat} (h : Keeps s₀ s) (e : takeNew p s = some t) : Keeps s₀ t := by
  unfold Machine.takeNew at e
  split at e
  · cases e
  · exact .takeUnits h e

theorem deferWake {p : Nat} {forced : Bool} (h : Keeps s₀ s) : Keeps s₀ (deferWake p forced s) := by
  unfold Machine.deferWake
  exact .onPower (.onPanel h)

theorem wakeDone {p : Nat} {forced : Bool} (h : Keeps s₀ s) : Keeps s₀ (wakeDone p forced s) := by
  unfold Machine.wakeDone
  dsimp only
  split
  · exact .ite (.prestDone (.obeyBound (.ite (.foldl (.onPanel (.learn (.freshNat h))) (fun _ _ => .restoreRest))
    (.foldl (.onPanel (.learn (.freshNat h))) (fun _ _ => .reloadLists))))) (.obeyBound (.ite (.foldl (.onPanel
      (.learn (.freshNat h))) (fun _ _ => .restoreRest)) (.foldl (.onPanel (.learn (.freshNat h))) (fun _ _ =>
        .reloadLists))))
  · exact .obeyBound (.ite (.foldl (.onPanel (.learn (.freshNat h))) (fun _ _ => .restoreRest)) (.foldl (.onPanel
    (.learn (.freshNat h))) (fun _ _ => .reloadLists)))

theorem panelWake {p : Nat} (h : Keeps s₀ s) : Keeps s₀ (panelWake p s) := by
  unfold Machine.panelWake
  dsimp only
  split
  · refine .ite h ?_
    split
    next t e =>
      exact .wakeDone (.takeNew h e)
    · exact .deferWake h
  · refine .ite ?_ h
    split
    next t e =>
      exact .wakeDone (.takeNew h e)
    · exact .deferWake h

theorem inrushWake (h : Keeps s₀ s) : Keeps s₀ (inrushWake s) := by
  unfold Machine.inrushWake
  split
  · exact h
  · split
    · exact h
    next t e =>
      exact .ite (.onPanel (.takeUnits h e)) (.wakeDone (.takeUnits h e))

theorem sensorSample {p : Nat} {junction : List Nat} {stack watts input : Nat} (h : Keeps s₀ s) :
    Keeps s₀ (sensorSample p junction stack watts input s) := by
  unfold Machine.sensorSample
  exact .ite (.ite h (.onTension h)) (.onPower (.ite h (.onTension h)))

theorem changeStep {p n last : Nat} (h : Keeps s₀ s) : Keeps s₀ (changeStep p n last s) := by
  unfold Machine.changeStep
  exact .onTension h

theorem governorEval (h : Keeps s₀ s) : Keeps s₀ (governorEval s) := by
  unfold Machine.governorEval
  dsimp only
  refine .ite h ?_
  refine .ite ?_ ?_
  · refine .logErr ?_
    refine .onPower ?_
    refine .onPower ?_
    split
    · exact .changeStep h
    · exact h
  · refine .onPower ?_
    split
    · exact .changeStep h
    · exact h

theorem stepChanged {p : Nat} (h : Keeps s₀ s) : Keeps s₀ (stepChanged p s) := by
  unfold Machine.stepChanged
  split
  · exact h
  · exact .obeyBound (.onTension h)

theorem firstUseEnd {p : Nat} (h : Keeps s₀ s) : Keeps s₀ (firstUseEnd p s) := by
  unfold Machine.firstUseEnd
  split
  · exact .ite (.onPanel h) h
  · exact h

theorem droopNow {p : Nat} (h : Keeps s₀ s) : Keeps s₀ (droopNow p s) := by
  unfold Machine.droopNow
  exact .ite h (.onTension h)

theorem writeCap {v : Nat} (h : Keeps s₀ s) : Keeps s₀ (writeCap v s) := by
  obtain ⟨hm, -, hq⟩ := h
  refine ⟨hm, fun _ => ?_, hq⟩
  show 16000 ≤ max 16000 (min v 42000) ∧ max 16000 (min v 42000) ≤ 42000
  omega

theorem tripRelease (h : Keeps s₀ s) : Keeps s₀ (tripRelease s) := by
  unfold Machine.tripRelease
  exact .ite (.onPower h) h

theorem panelOff {p : Nat} (h : Keeps s₀ s) : Keeps s₀ (panelOff p s) := by
  unfold Machine.panelOff
  dsimp only
  exact .onSeq (.tablesAfter (.foldl (.onPanel (.setMem (.onPower (.stackLost (.foldl (.dropSpares (.unarrive h))
    (fun _ _ h => .onCore (.zeroizeCore h))))) (Memory.wf_delRange _ _ _))) (fun _ _ h => .ite (.portAbsentNow h) h)))

theorem panelOffDone {p : Nat} (h : Keeps s₀ s) : Keeps s₀ (panelOffDone p s) := by
  unfold Machine.panelOffDone
  exact .ite (.panelOff h) h

end Keeps

end Sys2Proof.Machine
end

section
/-! SUPPORT. What keeps the memory canonical and the power cap in its bounds: darning, resets and the hang detector
(chapters 15 and 16). -/

namespace Sys2Proof.Machine

open Sys2Proof

namespace Keeps

variable {s₀ s t : State} {α : Type}

theorem loadMap {p : Nat} (h : Keeps s₀ s) : Keeps s₀ (loadMap p s) := by
  unfold Machine.loadMap
  exact .dropSpares (.onPanel h)

theorem answerAt {hit : Packet → Bool} {st : Nat} (h : Keeps s₀ s) : Keeps s₀ (answerAt hit st s) := by
  unfold Machine.answerAt
  exact .foldl h (fun _ _ => .answer)

theorem markBad {p site : Nat} (h : Keeps s₀ s) : Keeps s₀ (markBad p site s) := by
  unfold Machine.markBad
  exact .onPanel h

theorem countFence {p site : Nat} (h : Keeps s₀ s) : Keeps s₀ (countFence p site s) := by
  unfold Machine.countFence
  exact .onPanel (.markBad h)

theorem fenceCore {n : Nat} (h : Keeps s₀ s) : Keeps s₀ (fenceCore n s) := by
  unfold Machine.fenceCore
  exact .ite h (.ite (.onPanel (.logErr (.relaxSplit (.voidPanel (.onPanel (.countFence (.coreEpoch (.onCore (.unhalt
    (.answerAt h)))))))))) (.logErr (.relaxSplit (.voidPanel (.onPanel (.countFence (.coreEpoch (.onCore (.unhalt
      (.answerAt h))))))))))

theorem routerFault {p site : Nat} (h : Keeps s₀ s) : Keeps s₀ (routerFault p site s) := by
  unfold Machine.routerFault
  refine .ite h ?_
  refine .tablesAfter ?_
  split
  · exact .fenceCore (.onPanel h)
  · exact .ite (.onPanel h) (.countFence (.onPanel h))

theorem probeNow {p : Nat} (h : Keeps s₀ s) : Keeps s₀ (probeNow p s) := by
  unfold Machine.probeNow
  dsimp only
  exact .ite (.onPanel h) h

theorem probeTimeout {p n : Nat} (h : Keeps s₀ s) : Keeps s₀ (probeTimeout p n s) := by
  unfold Machine.probeTimeout
  dsimp only
  refine .ite h ?_
  split
  · exact .ite (.onPanel h) h
  · exact .ite (.fenceCore (.onPanel h)) h

theorem machineCheck {p site : Nat} {router : Bool} (h : Keeps s₀ s) : Keeps s₀ (machineCheck p site router s) := by
  unfold Machine.machineCheck
  refine .ite (.routerFault h) ?_
  refine .ite h ?_
  split
  · exact h
  · exact .ite h (.fenceCore (.onPanel h))

theorem stopAll {n : Nat} (h : Keeps s₀ s) : Keeps s₀ (stopAll n s) := by
  unfold Machine.stopAll
  exact .foldl h (fun _ _ => .stopCtx)

theorem darnEnds {n code r0 r1 : Nat} (h : Keeps s₀ s) : Keeps s₀ (darnEnds n code r0 r1 s) := by
  unfold Machine.darnEnds
  split
  · exact .ite (.winEnd h) h
  · exact h

theorem onDarn {p : Nat} {f : Darn → Darn} (h : Keeps s₀ s) : Keeps s₀ (onDarn p f s) := by
  unfold Machine.onDarn
  exact .onPanel h

theorem makeHole {n : Nat} (h : Keeps s₀ s) : Keeps s₀ (makeHole n s) := by
  unfold Machine.makeHole
  exact .darnEnds (.logErr (.onPanel h))

theorem furtherFailed {p : Nat} {l : List Nat} (h : Keeps s₀ s) : Keeps s₀ (furtherFailed p l s) := by
  unfold Machine.furtherFailed
  exact .relaxSplit (.foldl h (fun _ _ h => .ite (.ite h (.coreEpoch (.onCore (.unhalt (.answerAt (.onDarn h))))))
    (.onDarn (.ite h (.coreEpoch (.onCore (.unhalt (.answerAt (.onDarn h)))))))))

theorem darnStart {p : Nat} (h : Keeps s₀ s) : Keeps s₀ (darnStart p s) := by
  unfold Machine.darnStart
  dsimp only
  split
  · exact h
  · refine .ite h ?_
    refine .ite (.onDarn h) ?_
    refine .ite (.voidPanel (.onDarn (.onDarn h))) ?_
    split
    · exact .makeHole (.onDarn h)
    · exact .voidPanel (.onDarn (.furtherFailed (.foldl (.dropSpares (.onPanel (.onDarn h))) (fun _ _ => .stopAll))))

theorem carryDone {p : Nat} (h : Keeps s₀ s) : Keeps s₀ (carryDone p s) := by
  unfold Machine.carryDone
  dsimp only
  split
  · exact .onDarn h
  · exact h

theorem darnDone {p : Nat} (h : Keeps s₀ s) : Keeps s₀ (darnDone p s) := by
  unfold Machine.darnDone
  exact .ite h (.ite (.onDarn h) (.darnEnds (.queueRepair (.onPanel (.coreEpoch (.onCore (.zeroizeCore h)))))))

theorem fuseWrite (h : Keeps s₀ s) : Keeps s₀ (fuseWrite s) := by
  unfold Machine.fuseWrite
  split
  · exact h
  · exact h

theorem fenceSite {p site : Nat} (h : Keeps s₀ s) : Keeps s₀ (fenceSite p site s).2 := by
  unfold Machine.fenceSite
  dsimp only
  refine .iteSnd h ?_
  refine .iteSnd h ?_
  split
  · exact .fenceCore h
  · exact .markBad h

theorem remoteNow {pid : Nat} (h : Keeps s₀ s) : Keeps s₀ (remoteNow pid s) := by
  unfold Machine.remoteNow
  split
  · exact h
  · exact .ite h (.remoteRequest h)

theorem markCause {r : RunReset} (h : Keeps s₀ s) : Keeps s₀ (markCause r s) := by
  unfold Machine.markCause
  exact .foldl (.onRst h) (fun _ _ => .onPanel)

theorem recordReset {r : RunReset} (h : Keeps s₀ s) : Keeps s₀ (recordReset r s) := by
  unfold Machine.recordReset
  exact .ite (.foldl (.onRst (.markCause h)) (fun _ _ => .onPanel)) (.logErr (.foldl (.onRst (.markCause h)) (fun _
    _ => .onPanel)))

theorem resetEnds {code : Nat} {res : List Nat} (h : Keeps s₀ s) : Keeps s₀ (resetEnds code res s) := by
  unfold Machine.resetEnds
  exact .winEndIf h

theorem creditFirst {source level target : Nat} (h : Keeps s₀ s) : Keeps s₀ (creditFirst source level target s) := by
  unfold Machine.creditFirst
  exact .ite (.ite (.onRst h) (.foldl (.onRst h) (fun _ _ => .onPanel))) h

theorem markReset {level t : Nat} {b : Bool} (h : Keeps s₀ s) : Keeps s₀ (markReset level t b s) := by
  unfold Machine.markReset
  exact .ite (.onCore h) (.ite (.onPanel h) (.ite (.onPort h) h))

theorem fireReset {source level target : Nat} {escalated : Bool} (h : Keeps s₀ s) :
    Keeps s₀ (fireReset source level target escalated s) := by
  unfold Machine.fireReset
  extract_lets R live r s₁ gone s₂ s₃ s₄ s₅
  have h₁ : Keeps s₀ s₁ := .ite h (.creditFirst h)
  have h₄ : Keeps s₀ s₄ := .onRst (.foldl (.ite (.resetEnds h) h) (fun _ _ => .markReset))
  have h₅ : Keeps s₀ s₅ := .ite (.foldl h₄ (fun _ _ => .askWake)) h₄
  split
  · have hr {r : RunReset} {c : Prop} [Decidable c] {x : Nat} {l : List Nat} :
        Keeps s₀ (Machine.recordReset r (if c then Machine.resetEnds x l s else s)) := .recordReset (.ite (.resetEnds h) h)
    exact .ite (.ite (.markCause hr) hr) (.ite (.ite (.resetEnds h₁) (.resetEnds h₁)) h₁)
  · refine .ite h₅ ?_
    split
    · exact .ite (.recordReset h₅) (.markCause (.recordReset h₅))
    · exact .recordReset h₅

theorem wipeCore {n : Nat} (h : Keeps s₀ s) : Keeps s₀ (wipeCore n s) := by
  unfold Machine.wipeCore
  exact .onCore (.zeroizeCore (.unhalt h))

theorem resetCore {n : Nat} (h : Keeps s₀ s) : Keeps s₀ (resetCore n s) := by
  unfold Machine.resetCore
  exact .relaxSplit (.newEpoch (.wipeCore (.answerAt h)))

theorem resetPanel {p : Nat} (h : Keeps s₀ s) : Keeps s₀ (resetPanel p s) := by
  unfold Machine.resetPanel
  dsimp only
  exact .setSplit (.newEpoch (.newEpoch (.foldl (.onPanel (.setMem (.foldl (.dropSpares (.onPanel (.answerAt
    (.unarrive h)))) (fun _ _ h => .ite (.newEpoch (.wipeCore h)) (.newEpoch h))) (Memory.wf_delRange _ _ _))) (fun _
      _ => .newEpoch))))

theorem resetPort {o : Nat} (h : Keeps s₀ s) : Keeps s₀ (resetPort o s) := by
  unfold Machine.resetPort
  dsimp only
  exact .newEpoch (.ite (.onPort (.flushBuffers (.discardEntries h))) (.portTo (.onPort (.flushBuffers
    (.discardEntries h)))))

theorem putReset {i : Nat} {r : RunReset} (h : Keeps s₀ s) : Keeps s₀ (putReset i r s) := by
  unfold Machine.putReset
  exact .onRst h

theorem dropReset {i : Nat} (h : Keeps s₀ s) : Keeps s₀ (dropReset i s) := by
  unfold Machine.dropReset
  exact .onRst h

theorem resetDone {i : Nat} {r : RunReset} (h : Keeps s₀ s) : Keeps s₀ (resetDone i r s) := by
  unfold Machine.resetDone
  exact .ite (.dropReset h) (.ite (.resetEnds (.dropReset h)) (.resetEnds (.dropReset h)))

theorem blockNow {i : Nat} {r : RunReset} (h : Keeps s₀ s) : Keeps s₀ (blockNow i r s) := by
  unfold Machine.blockNow
  exact .ite (.resetDone (.stopCtx h)) (.putReset (.ite (.resetCore h) (.ite (.resetPanel h) (.resetPort h))))

theorem quiesce {r : RunReset} (h : Keeps s₀ s) : Keeps s₀ (quiesce r s) := by
  unfold Machine.quiesce
  exact .ite (.voidPanel (.markReset h)) (.ite (.foldl (.ite (.haltSeq (.voidPanel (.markReset h))) (.voidPanel
    (.markReset h))) (fun _ _ => .portAbsentNow)) (.markReset h))

theorem blockReset {i : Nat} (h : Keeps s₀ s) : Keeps s₀ (blockReset i s) := by
  unfold Machine.blockReset
  split
  · exact h
  · refine .ite h ?_
    split
    · exact .ite h (.ite (.blockNow h) (.quiesce (.putReset h)))
    · exact .ite (.blockNow h) h
    · exact h

theorem drainTimeout {i : Nat} (h : Keeps s₀ s) : Keeps s₀ (drainTimeout i s) := by
  unfold Machine.drainTimeout
  split
  · exact h
  · split
    · exact .ite (.blockNow (.onRst h)) h
    · exact h

theorem epochNotice {i : Nat} (h : Keeps s₀ s) : Keeps s₀ (epochNotice i s) := by
  unfold Machine.epochNotice
  split
  · exact h
  · split
    · exact .resetDone (.ite (.foldl (.noticeEpochs (.markReset h)) (fun _ _ => .portPresent)) (.ite (.noticeEpochs
      (.markReset h)) (.ite (.portTo (.noticeEpochs (.markReset h))) (.ite (.startTraining (.noticeEpochs (.markReset
        h))) (.noticeEpochs (.markReset h))))))
    · exact h

theorem escalate {i : Nat} (h : Keeps s₀ s) : Keeps s₀ (escalate i s) := by
  unfold Machine.escalate
  dsimp only
  split
  · exact h
  · exact .ite h (.fireReset (.ite (.resetEnds (.onRst (.markReset (.dropReset h)))) (.onRst (.markReset (.dropReset
    h)))))

theorem portsOff {k : Nat} (h : Keeps s₀ s) : Keeps s₀ (portsOff k s) := by
  unfold Machine.portsOff
  dsimp only
  exact .foldl h (fun _ _ h => .onPort (.discardEntries (.ite h (.portTo h))))

theorem dropJob {k : Nat} (h : Keeps s₀ s) : Keeps s₀ (dropJob k s) := by
  unfold Machine.dropJob
  exact .saveState (.onJob h)

theorem endJob {k : Nat} (h : Keeps s₀ s) : Keeps s₀ (endJob k s) := by
  unfold Machine.endJob
  exact .dropJob (.recordApplied h)

theorem partitionReset {k : Nat} (h : Keeps s₀ s) : Keeps s₀ (partitionReset k s) := by
  unfold Machine.partitionReset
  split
  · exact h
  · split
    · exact h
    · exact .ite h (.resetDone (.onPart (.zeroWindow (.ite (.partEnd (.dropJob (.foldl (.foldl (.foldl (.portsOff
      (.foldl h (fun _ _ => .onSeq))) (fun _ _ => .portTo)) (fun _ _ h => .noticeEpochs (.resetPanel h))) (fun _ _ =>
        .portPresent)))) (.dropJob (.foldl (.foldl (.foldl (.portsOff (.foldl h (fun _ _ => .onSeq))) (fun _ _ =>
          .portTo)) (fun _ _ h => .noticeEpochs (.resetPanel h))) (fun _ _ => .portPresent)))))))

theorem moduleReset {r : RunReset} (h : Keeps s₀ s) : Keeps s₀ (moduleReset r s) := by
  unfold Machine.moduleReset
  extract_lets cold s₁ kept s₂ resumeS
  have h₂ : Keeps s₀ s₂ := .foldl (.finishWrites h) (fun _ _ => .onPanel)
  clear_value s₂
  exact ⟨fun w => Memory.wf_filter _ _ (h₂.1 w), h₂.2⟩

theorem moduleResetNow (h : Keeps s₀ s) : Keeps s₀ (moduleResetNow s) := by
  unfold Machine.moduleResetNow
  split
  · exact .moduleReset h
  · exact h

theorem dropKey {k : Nat} (h : Keeps s₀ s) : Keeps s₀ (dropKey k s) := by
  unfold Machine.dropKey
  exact .onPart (.foldl h (fun _ _ => .onPanel))

theorem closeKeyless {k : Nat} (h : Keeps s₀ s) : Keeps s₀ (closeKeyless k s) := by
  unfold Machine.closeKeyless
  exact .stacksFollow (.onPart (.dropKey h))

theorem trayCycle (h : Keeps s₀ s) : Keeps s₀ (trayCycle s) := by
  unfold Machine.trayCycle
  split
  · exact h
  · extract_lets s₁ _ s₂
    have h₁ : Keeps s₀ s₁ := .foldl h (fun _ _ => .closeKeyless)
    clear_value s₁
    exact .moduleReset h₁

theorem watchdogExpire {p : Nat} (h : Keeps s₀ s) : Keeps s₀ (watchdogExpire p s) := by
  unfold Machine.watchdogExpire
  dsimp only
  exact .ite (.fireReset (.onSeq h)) h

theorem thermalTrip {p : Nat} (h : Keeps s₀ s) : Keeps s₀ (thermalTrip p s) := by
  unfold Machine.thermalTrip
  exact .ite (.fireReset (.logErr (.attend (.onPower h)))) h

theorem perstAssert (h : Keeps s₀ s) : Keeps s₀ (perstAssert s) := by
  unfold Machine.perstAssert
  exact .ite h (.ite (.fireReset h) h)

theorem moduleResetPin (h : Keeps s₀ s) : Keeps s₀ (moduleResetPin s) := by
  unfold Machine.moduleResetPin
  exact .ite h (.ite (.fireReset h) h)

theorem moduleResetRelease (h : Keeps s₀ s) : Keeps s₀ (moduleResetRelease s) := by
  unfold Machine.moduleResetRelease
  exact .ite h h

theorem securityViolation (h : Keeps s₀ s) : Keeps s₀ (securityViolation s) := by
  unfold Machine.securityViolation
  exact .ite (.fireReset h) h

theorem darkPanel {p : Nat} (h : Keeps s₀ s) : Keeps s₀ (darkPanel p s) := by
  unfold Machine.darkPanel
  dsimp only
  exact .ite h (.ite (.onPanel h) (.panelOff h))

theorem castFail {code : Nat} (h : Keeps s₀ s) : Keeps s₀ (castFail code s) := by
  unfold Machine.castFail
  exact .ite (.logErr (.attend (.onHost (.onRst (.ite (.foldl h (fun _ _ => .darkPanel)) h))))) (.logErr (.attend
    (.onHost (.onRst (.ite (.foldl h (fun _ _ => .darkPanel)) h)))))

theorem castOnFail {code : Nat} (h : Keeps s₀ s) : Keeps s₀ (castOnFail code s) := by
  unfold Machine.castOnFail
  exact .ite (.castFail h) h

theorem supplyShort {p : Nat} (h : Keeps s₀ s) : Keeps s₀ (supplyShort p s) := by
  unfold Machine.supplyShort
  exact .ite h (.onPanel h)

theorem loseStack {p : Nat} (h : Keeps s₀ s) : Keeps s₀ (loseStack p s) := by
  unfold Machine.loseStack
  dsimp only
  split
  · exact .ite (.onStack (.onStack h)) (.onStack h)
  · exact .onStack h

theorem packetsLost {p : Nat} (h : Keeps s₀ s) : Keeps s₀ (packetsLost p s) := by
  unfold Machine.packetsLost
  dsimp only
  split
  · exact h
  · exact .foldl h (fun _ _ => .countAbsent)

theorem panelLost {p : Nat} (h : Keeps s₀ s) : Keeps s₀ (panelLost p s) := by
  unfold Machine.panelLost
  extract_lets r ended s₁ s₂ s₃ s₄ s₅ s₆ s₇ s₈ _ t₁ t₂ t₃ t₄ t₅ t₆
  have h₁ : Keeps s₀ s₁ := .foldl h (fun _ _ => .markReset)
  have h₂ : Keeps s₀ s₂ := .ite (.resetEnds h₁) h₁
  have h₅ : Keeps s₀ s₅ := .packetsLost (.answerAt (.unarrive (.onPanel (.onRst h₂))))
  have h₆ : Keeps s₀ s₆ := .foldl h₅ (fun _ _ => .newEpoch)
  have h₇ : Keeps s₀ s₇ := .foldl (.newEpoch (.newEpoch h₆)) (fun _ _ => .newEpoch)
  have h₈ : Keeps s₀ s₈ := .noticeEpochs h₇
  clear_value s₈
  have k₁ : Keeps s₀ t₁ := ⟨fun w => Memory.wf_filter _ _ (h₈.1 w), h₈.2⟩
  clear_value t₁
  have k₂ : Keeps s₀ t₂ := .onPower (.stackLost (.setMem k₁ (Memory.wf_delRange _ _ _)))
  have k₄ : Keeps s₀ t₄ := .logErr (.onPanel k₂)
  clear_value t₄
  have k₅ : Keeps s₀ t₅ := by
    unfold t₅
    split
    · exact .attendPart (.onPart k₄)
    · exact k₄
  clear_value t₅
  have k₆ : Keeps s₀ t₆ := .foldl (.voidPanel k₅) (fun _ _ => .portAbsentNow)
  exact .ite h (.onSeq (.tablesChanged (.loseStack (.foldl k₆ (fun _ _ => .onPanel)))))

theorem inputLost (h : Keeps s₀ s) : Keeps s₀ (inputLost s) := by
  obtain ⟨-, -, hq⟩ := h
  refine ⟨fun _ => rfl, fun _ => ?_, hq⟩
  show 16000 ≤ 0xA410 ∧ 0xA410 ≤ 42000
  decide

theorem powerOn (h : Keeps s₀ s) : Keeps s₀ (powerOn s) := by
  unfold Machine.powerOn
  dsimp only
  exact .ite h h

theorem hangSnapshotNow {p : Nat} (h : Keeps s₀ s) : Keeps s₀ (hangSnapshotNow p s) := by
  unfold Machine.hangSnapshotNow
  dsimp only
  exact .ite (.ite h (.onPanel h)) h

theorem onHangs {ps : List Nat} {f : Hang → Hang} (h : Keeps s₀ s) : Keeps s₀ (onHangs ps f s) := by
  unfold Machine.onHangs
  exact .foldl h (fun _ _ => .onPanel)

theorem nextHang (h : Keeps s₀ s) : Keeps s₀ (nextHang s) := by
  unfold Machine.nextHang
  dsimp only
  split
  · exact h
  · exact h

theorem declareHang {k : Nat} {S : List EngRec} (h : Keeps s₀ s) : Keeps s₀ (declareHang k S s) := by
  unfold Machine.declareHang
  dsimp only
  exact .ite (.foldl (.ite (.voidStep (.logErr (.onHangs h))) (.logErr (.onHangs h))) (fun _ _ => .fireReset))
    (.nextHang (.ite (.voidStep (.logErr (.onHangs h))) (.logErr (.onHangs h))))

theorem hangCombineNow (h : Keeps s₀ s) : Keeps s₀ (hangCombineNow s) := by
  unfold Machine.hangCombineNow
  exact .ite h (.foldl h (fun _ _ h => .ite h (.declareHang h)))

theorem stopsNow (h : Keeps s₀ s) : Keeps s₀ (stopsNow s) := by
  unfold Machine.stopsNow
  exact .foldl h (fun _ _ => .stopCtx)

theorem suspectReplayNow (h : Keeps s₀ s) : Keeps s₀ (suspectReplayNow s) := by
  unfold Machine.suspectReplayNow
  extract_lets s₁
  have h₁ : Keeps s₀ s₁ := .nextHang (.stopsNow h)
  clear_value s₁
  split
  · refine .ite h₁ (.ite h₁ (.ite (.askWake h₁) (.ite h₁ ?_)))
    extract_lets c s₂ lost
    have hl {x : State} (hx : Keeps s₀ x) : Keeps s₀ (lost x) := .fireReset (.onRst hx)
    split
    · exact hl h₁
    · split
      · exact hl h₁
      next e =>
        extract_lets s₃ s₄
        have h₄ : Keeps s₀ s₄ := .onPanel (.onHangs (.launchOn (s := s₂) h₁ e))
        exact h₄
  · exact h₁

theorem shelve {n k : Nat} (h : Keeps s₀ s) : Keeps s₀ (shelve n k s) := by
  unfold Machine.shelve
  dsimp only
  exact .ite h (.onCtx (.ite (.afterStop (.saveCur (.commitStores h))) (.ite (.saveArea (.onCtx h)) (.spdWrite
    (.onCtx h)))))

theorem suspectReplayEndNow (h : Keeps s₀ s) : Keeps s₀ (suspectReplayEndNow s) := by
  unfold Machine.suspectReplayEndNow
  dsimp only
  split
  · split
    · exact h
    · exact .shelve h
  · exact h

theorem blame {x : Nat × Nat} (h : Keeps s₀ s) : Keeps s₀ (blame x s) := by
  unfold Machine.blame
  dsimp only
  exact .ite h (.ite (.saveArea (.onCtx h)) (.spdWrite (.onCtx h)))

theorem blameLog {n : Nat} (h : Keeps s₀ s) : Keeps s₀ (blameLog n s) := by
  unfold Machine.blameLog
  dsimp only
  split
  · exact h
  · exact h

theorem acquit {x : Nat × Nat} (h : Keeps s₀ s) : Keeps s₀ (acquit x s) := by
  unfold Machine.acquit
  dsimp only
  exact .onCore (.stopCtx h)

theorem relaunch {x : Nat × Nat} (h : Keeps s₀ s) : Keeps s₀ (relaunch x s) := by
  unfold Machine.relaunch
  dsimp only
  split
  next entry args _ =>
    cases e : Machine.launchOn x.1 x.2 entry args (selOf (s.core x.1) x.2) s with
    | none => exact h
    | some t => exact .launchOn h e
  · exact h

theorem hangVerdictNow (h : Keeps s₀ s) : Keeps s₀ (hangVerdictNow s) := by
  unfold Machine.hangVerdictNow
  split
  · extract_lets g first s₁ others s₂ s₃ s₄
    have h₁ : Keeps s₀ s₁ := .onHangs h
    have h₂ : Keeps s₀ s₂ := .foldl (.foldl h₁ (fun _ _ => .blame)) (fun _ _ => .acquit)
    have h₃ : Keeps s₀ s₃ := .ite (.foldl h₁ (fun _ _ => .blame)) (.ite h₂ (.foldl h₂ (fun _ _ => .relaunch)))
    have h₄ : Keeps s₀ s₄ := .ite h₃ (.blameLog h₃)
    exact .nextHang h₄
  · exact h

end Keeps

end Sys2Proof.Machine
end

section
/-! SUPPORT. What keeps the memory canonical and the power cap in its bounds: the command window, sessions, images,
the debug window and cast-on (chapters 12, 13 and 15). -/

namespace Sys2Proof.Machine

open Sys2Proof

namespace Keeps

variable {s₀ s t : State} {α : Type}

theorem writeArgs {q : Cmd} (h : Keeps s₀ s) : Keeps s₀ (writeArgs q s) := by
  unfold Machine.writeArgs
  exact .onHost h

theorem refuseCmd {op : Nat} (h : Keeps s₀ s) : Keeps s₀ (refuseCmd op s) := by
  unfold Machine.refuseCmd
  exact .onHost h

theorem latch {op : Nat} {q : Cmd} (h : Keeps s₀ s) : Keeps s₀ (latch op q s) := by
  unfold Machine.latch
  exact .onHost h

theorem countDenied {op : Nat} (h : Keeps s₀ s) : Keeps s₀ (countDenied op s) := by
  unfold Machine.countDenied
  exact .ite (.onUbide h) h

theorem runCmd {op : Nat} {q : Cmd} {r : State → Rules} {body : State → State} (h : Keeps s₀ s)
    (hb : ∀ t, Keeps s₀ t → Keeps s₀ (body t)) : Keeps s₀ (runCmd op q r body s) := by
  unfold Machine.runCmd
  have hw : Keeps s₀ (Machine.writeArgs q s) := .writeArgs h
  exact .ite h (.ite (.refuseCmd hw) (.ite (.winEnd (.countDenied (.latch hw))) (hb _ (.latch hw))))

theorem onWin {f : Win → Win} (h : Keeps s₀ s) : Keeps s₀ (onWin f s) := by
  unfold Machine.onWin
  exact .onHost h

theorem cmdIdentify {q : Cmd} (h : Keeps s₀ s) : Keeps s₀ (cmdIdentify q s) := by
  unfold Machine.cmdIdentify
  exact .runCmd h (fun _ => .winEnd)

theorem removePart {n : Nat} (h : Keeps s₀ s) : Keeps s₀ (removePart n s) := by
  unfold Machine.removePart
  exact .onPart (.foldl h (fun _ _ => .onStack))

theorem definePart {n x0 y0 x1 y1 : Nat} {mirror commanded : Bool} (h : Keeps s₀ s) :
    Keeps s₀ (definePart n x0 y0 x1 y1 mirror commanded s) := by
  unfold Machine.definePart
  exact .foldl (.onPart h) (fun _ _ => .onStack)

theorem cmdDefine {q : Cmd} (h : Keeps s₀ s) : Keeps s₀ (cmdDefine q s) := by
  unfold Machine.cmdDefine
  dsimp only
  exact .runCmd h (fun _ h => .winEnd (.ite (.removePart h) (.definePart h)))

theorem launchHost {k entry : Nat} {sel : Sel} {args : List W64} {acc : Nat × Nat} {l : List Nat} (h : Keeps s₀ s) :
    Keeps s₀ (launchHost k entry sel args l acc s).2 := by
  induction l generalizing acc s with
  | nil => exact h
  | cons n t ih =>
    unfold Machine.launchHost
    refine .iteSnd (ih h) (.iteSnd (ih h) ?_)
    split
    next e => exact ih (.launchOn h e)
    · exact ih h

theorem cmdLaunch {q : Cmd} (h : Keeps s₀ s) : Keeps s₀ (cmdLaunch q s) := by
  unfold Machine.cmdLaunch
  dsimp only
  refine .runCmd h (fun _ h => ?_)
  split
  · exact .winEnd h
  · exact .winEnd (.ite (.foldl (.foldl (.launchHost (.foldl h (fun _ _ h => .ite h (.setSplit h)))) (fun _ _ =>
    .relaxSplit)) (fun _ _ => .startSeq)) (.foldl (.launchHost (.foldl h (fun _ _ h => .ite h (.setSplit h)))) (fun _
      _ => .relaxSplit)))

theorem wakeFor {k : Nat} (h : Keeps s₀ s) : Keeps s₀ (wakeFor k s) := by
  unfold Machine.wakeFor
  exact .foldl h (fun _ _ h => .foldl (.askWake h) (fun _ _ => .onCore))

theorem stopHost {k c : Nat} {l : List Nat} (h : Keeps s₀ s) : Keeps s₀ (stopHost k l c s).2 := by
  induction l generalizing c s with
  | nil => exact h
  | cons n t ih => exact .iteSnd (ih (.stopCtx h)) (ih h)

theorem cmdStop {q : Cmd} (h : Keeps s₀ s) : Keeps s₀ (cmdStop q s) := by
  unfold Machine.cmdStop
  dsimp only
  refine .runCmd h (fun _ h => ?_)
  split
  · exact .winEnd h
  · exact .winEnd (.stopHost (.ite (.foldl (.wakeFor h) (fun _ _ => .haltSeq)) (.wakeFor h)))

theorem cmdZeroize {q : Cmd} (h : Keeps s₀ s) : Keeps s₀ (cmdZeroize q s) := by
  unfold Machine.cmdZeroize
  dsimp only
  refine .runCmd h (fun _ h => ?_)
  split
  · exact .winEnd h
  · exact .winEnd (.foldl (.wakeFor h) (fun _ _ => .zeroizeCore))

theorem cmdRelease {q : Cmd} (h : Keeps s₀ s) : Keeps s₀ (cmdRelease q s) := by
  unfold Machine.cmdRelease
  dsimp only
  exact .runCmd h (fun _ h => .ite (.ite (.winEnd (.leaveHold h)) (.winEnd (.leaveHold h))) (.winEnd (.foldl h (fun _
    _ => .onSeq))))

theorem cmdDarn {q : Cmd} (h : Keeps s₀ s) : Keeps s₀ (cmdDarn q s) := by
  unfold Machine.cmdDarn
  exact .runCmd h (fun _ h => .ite (.ite (.onWin h) (.fenceCore (.onWin h))) (.onDarn (.ite (.onWin h) (.fenceCore
    (.onWin h)))))

theorem cmdFence {q : Cmd} (h : Keeps s₀ s) : Keeps s₀ (cmdFence q s) := by
  unfold Machine.cmdFence
  dsimp only
  exact .runCmd h (fun _ h => .winEnd (.fenceSite h))

theorem cmdRetire {q : Cmd} (h : Keeps s₀ s) : Keeps s₀ (cmdRetire q s) := by
  unfold Machine.cmdRetire
  exact .runCmd h (fun _ h => .onWin (.onStack h))

theorem pageRetired {p : Nat} (h : Keeps s₀ s) : Keeps s₀ (pageRetired p s) := by
  unfold Machine.pageRetired
  dsimp only
  refine .ite h ?_
  split
  · exact .ite (.winEnd (.retireDone h)) (.retireDone h)
  · exact .retireDone h

theorem cmdScrub {q : Cmd} (h : Keeps s₀ s) : Keeps s₀ (cmdScrub q s) := by
  unfold Machine.cmdScrub
  exact .runCmd h (fun _ h => .onWin (.onStack h))

theorem scrubRead {p : Nat} (h : Keeps s₀ s) : Keeps s₀ (scrubRead p s) := by
  unfold Machine.scrubRead
  dsimp only
  split
  · exact .scrubNow h
  · refine .ite h ?_
    split
    · exact .ite (.ite (.winEnd (.onWin (.scrubNow h))) (.onWin (.scrubNow h))) (.scrubNow h)
    · exact .scrubNow h

theorem scheduleReset {level : Nat} (h : Keeps s₀ s) : Keeps s₀ (scheduleReset level s) := by
  unfold Machine.scheduleReset
  exact .onRst h

theorem cmdReset {q : Cmd} (h : Keeps s₀ s) : Keeps s₀ (cmdReset q s) := by
  unfold Machine.cmdReset
  exact .runCmd h (fun _ h => .ite (.scheduleReset (.winEnd h)) (.fireReset h))

theorem trainEnds (h : Keeps s₀ s) : Keeps s₀ (trainEnds s) := by
  unfold Machine.trainEnds
  split
  · exact .ite (.winEnd h) h
  · exact h

theorem trainPort {o : Nat} (h : Keeps s₀ s) : Keeps s₀ (trainPort o s) := by
  unfold Machine.trainPort
  exact .ite (.startTraining h) h

theorem cmdTrain {q : Cmd} (h : Keeps s₀ s) : Keeps s₀ (cmdTrain q s) := by
  unfold Machine.cmdTrain
  exact .runCmd h (fun _ h => .trainEnds (.onWin (.foldl h (fun _ _ => .trainPort))))

theorem loadRecords {k job : Nat} (h : Keeps s₀ s) : Keeps s₀ (loadRecords k job s) := by
  unfold Machine.loadRecords
  dsimp only
  exact .ite (.ite (.sendRejoins (.saveState (.onJob (.freshHeader (.onJob (.readUnitAt h)))))) (.freshHeader (.onJob
    (.readUnitAt h)))) (.ite (.onJob (.enterHold (.readUnitAt h))) (.readUnitAt h))

theorem assignRole {o : Nat} {r : Role} {commit : Bool} {job : Nat} (h : Keeps s₀ s) :
    Keeps s₀ (assignRole o r commit job s) := by
  unfold Machine.assignRole
  extract_lets gone s₁ s₂ s₃
  have h₂ : Keeps s₀ s₂ := .onPort (.ite h (.portTo h))
  have h₃ : Keeps s₀ s₃ := by
    refine .ite ?_ h₂
    split
    · exact .onPort (.loadRecords h₂)
    · exact h₂
  exact .ite h₃ (.ite h₃ (.ite (.portTo h₃) (.startTraining h₃)))

theorem cmdRole {q : Cmd} (h : Keeps s₀ s) : Keeps s₀ (cmdRole q s) := by
  unfold Machine.cmdRole
  exact .runCmd h (fun _ h => .winEnd (.assignRole h))

theorem acceptPart {n op : Nat} {q : Cmd} {c : PCmd} (h : Keeps s₀ s) : Keeps s₀ (acceptPart n op q c s) := by
  unfold Machine.acceptPart
  exact .winEnd (.onPart h)

theorem quietPart {k : Nat} (h : Keeps s₀ s) : Keeps s₀ (quietPart k s) := by
  unfold Machine.quietPart
  exact .portsOff (.foldl (.foldl (.wakeFor h) (fun _ _ => .stopPanel)) (fun _ _ => .haltSeq))

theorem cmdBindOff {q : Cmd} (h : Keeps s₀ s) : Keeps s₀ (cmdBindOff q s) := by
  unfold Machine.cmdBindOff
  exact .runCmd h (fun _ => .acceptPart)

theorem bindOffEnd {k : Nat} (h : Keeps s₀ s) : Keeps s₀ (bindOffEnd k s) := by
  unfold Machine.bindOffEnd
  exact .ite h (.partEnd (.onPart (.endJob (.quietPart h))))

theorem bindOffTimeoutNow {k : Nat} (h : Keeps s₀ s) : Keeps s₀ (bindOffTimeoutNow k s) := by
  unfold Machine.bindOffTimeoutNow
  split
  · exact .ite (.partEnd (.quietPart (.voidStep h))) h
  · exact h

theorem imgPut {n k off : Nat} {b : Byte} (h : Keeps s₀ s) : Keeps s₀ (imgPut n k off b s) := by
  unfold Machine.imgPut
  dsimp only
  exact .ite (.onCtx h) (.spdWrite h)

theorem imgWrite {n k off : Nat} {l : List Byte} (h : Keeps s₀ s) : Keeps s₀ (imgWrite n k off l s) := by
  induction l generalizing off s with
  | nil => exact h
  | cons b t ih => exact ih (.imgPut h)

theorem resumeCore {n : Nat} (h : Keeps s₀ s) : Keeps s₀ (resumeCore n s) := by
  unfold Machine.resumeCore
  split
  · exact h
  · exact .ite (.reloadLists (.onCore (.unhalt h))) (.contextFault (.onCore (.unhalt h)))

theorem resumeAll (h : Keeps s₀ s) : Keeps s₀ (resumeAll s) := by
  unfold Machine.resumeAll
  exact .foldl h (fun _ _ h => .ite (.onCore (.resumeCore h)) h)

theorem dbgRefuse {st : Nat} (h : Keeps s₀ s) : Keeps s₀ (dbgRefuse st s) := by
  unfold Machine.dbgRefuse
  exact .onHost h

theorem haltNow (h : Keeps s₀ s) : Keeps s₀ (haltNow s) := by
  unfold Machine.haltNow
  exact .ite (.dbgRefuse h) (.ite h (.haltTry (.onCore h)))

theorem resumeNow (h : Keeps s₀ s) : Keeps s₀ (resumeNow s) := by
  unfold Machine.resumeNow
  exact .ite (.dbgRefuse h) (.ite (.resumeCore h) h)

theorem stepNow (h : Keeps s₀ s) : Keeps s₀ (stepNow s) := by
  unfold Machine.stepNow
  exact .ite (.dbgRefuse h) (.ite h (.ite (.resumeCore h) (.ite (.haltTry (.issueRaw (.onCore (.resumeCore h))))
    (.onCore (.resumeCore h)))))

theorem selWrite {v : Nat} (h : Keeps s₀ s) : Keeps s₀ (selWrite v s) := by
  unfold Machine.selWrite
  exact .ite (.dbgRefuse h) (.ite (.dbgRefuse h) h)

theorem ctlWrite {v : Nat} (h : Keeps s₀ s) : Keeps s₀ (ctlWrite v s) := by
  unfold Machine.ctlWrite
  exact .ite (.dbgRefuse h) (.ite (.haltNow h) (.ite (.resumeNow h) (.ite (.stepNow h) h)))

theorem reply {data : List Byte} {ep : Bool} {status : Nat} (h : Keeps s₀ s) : Keeps s₀ (reply data ep status s) := by
  unfold Machine.reply
  exact .onHost h

theorem dbgSpd {off size : Nat} {wr : Bool} {v : Nat} (h : Keeps s₀ s) : Keeps s₀ (dbgSpd off size wr v s) := by
  unfold Machine.dbgSpd
  dsimp only
  exact .ite (.dbgRefuse h) (.ite (.reply (.spdWrite h)) (.reply (.spdRead h)))

theorem imgAccess {n k off size : Nat} {wr : Bool} {v : Nat} (h : Keeps s₀ s) :
    Keeps s₀ (imgAccess n k off size wr v s) := by
  unfold Machine.imgAccess
  dsimp only
  exact .ite (.ite (.reply (.imgWrite h)) (.reply h)) (.ite (.reply (.spdWrite h)) (.reply (.spdRead h)))

theorem pinLevels (h : Keeps s₀ s) : Keeps s₀ (pinLevels s).2 := by
  unfold Machine.pinLevels
  dsimp only
  exact .freshNat h

theorem jtagNow {c : JtagCode} (h : Keeps s₀ s) : Keeps s₀ (jtagNow c s) := by
  unfold Machine.jtagNow
  dsimp only
  exact .ite h (.iteSnd (.pinLevels h) h)

theorem tapResetNow (h : Keeps s₀ s) : Keeps s₀ (tapResetNow s) :=
  h

theorem assignI3c {da : BitVec 7} (h : Keeps s₀ s) : Keeps s₀ (assignI3c da s) := by
  unfold Machine.assignI3c
  exact .ite h h

theorem countFail (h : Keeps s₀ s) : Keeps s₀ (countFail s) := by
  unfold Machine.countFail
  exact .onUbide h

theorem zeroizePart {k : Nat} (h : Keeps s₀ s) : Keeps s₀ (zeroizePart k s) := by
  unfold Machine.zeroizePart
  dsimp only
  exact .foldl (.foldl (.setMem h (Memory.wf_filter _ _)) (fun _ _ => .onPanel)) (fun _ _ => .zeroizeCore)

theorem loadKey {k : Nat} (h : Keeps s₀ s) : Keeps s₀ (loadKey k s) := by
  unfold Machine.loadKey
  exact .foldl h (fun _ _ => .onStack)

theorem openSession {k : Nat} (h : Keeps s₀ s) : Keeps s₀ (openSession k s) := by
  unfold Machine.openSession
  exact .onPart (.zeroWindow (.zeroizePart (.freshRecords (.onJob (.loadKey (.onPart (.onUbide h)))))))

theorem resumeSession {k : Nat} (h : Keeps s₀ s) : Keeps s₀ (resumeSession k s) := by
  unfold Machine.resumeSession
  exact .stacksFollow (.loadKey (.onPart h))

theorem dropD2 {k : Nat} (h : Keeps s₀ s) : Keeps s₀ (dropD2 k s) := by
  unfold Machine.dropD2
  exact .ite (.onUbide (.resumeAll h)) h

theorem closeBegin {k : Nat} {force : Bool} (h : Keeps s₀ s) : Keeps s₀ (closeBegin k force s) := by
  unfold Machine.closeBegin
  exact .endJob (.ite (.quietPart (.dropD2 h)) (.dropD2 h))

theorem closeEnd {k : Nat} (h : Keeps s₀ s) : Keeps s₀ (closeEnd k s) := by
  unfold Machine.closeEnd
  exact .stacksFollow (.onPart (.dropKey (.zeroWindow (.zeroizePart h))))

theorem closeSession {k : Nat} {force : Bool} (h : Keeps s₀ s) : Keeps s₀ (closeSession k force s) := by
  unfold Machine.closeSession
  exact .closeEnd (.closeBegin h)

theorem closeEnds (h : Keeps s₀ s) : Keeps s₀ (closeEnds s) := by
  unfold Machine.closeEnds
  split
  · exact .ite (.winEnd (.foldl (.closeEnd h) (fun _ _ h => .ite (.enterRest h) h))) h
  · exact h

theorem closeBody {k : Nat} {force : Bool} (h : Keeps s₀ s) : Keeps s₀ (closeBody k force s) := by
  unfold Machine.closeBody
  exact .ite (.winEnd (.closeEnd (.closeBegin h))) (.onWin (.wakeFor (.closeBegin h)))

theorem challengeNow {k : Nat} {byKey : Bool} {idx : Nat} (h : Keeps s₀ s) : Keeps s₀ (challengeNow k byKey idx s) :=
  by
  unfold Machine.challengeNow
  dsimp only
  exact .winEnd (.onUbide (.freshNat h))

theorem consumeChallenge (h : Keeps s₀ s) : Keeps s₀ (consumeChallenge s) := by
  unfold Machine.consumeChallenge
  exact .onUbide h

theorem proveNow {resume : Bool} {k : Nat} {byKey : Bool} {idx : Nat} {c : Option Challenge} (h : Keeps s₀ s) :
    Keeps s₀ (proveNow resume k byKey idx c s) := by
  unfold Machine.proveNow
  split
  · exact .winEnd h
  · exact .ite (.winEnd h) (.ite (.winEnd h) (.ite (.winEnd (.countFail h)) (.winEnd (.ite (.resumeSession (.onUbide
    h)) (.openSession (.onUbide h))))))

theorem authBody {resume : Bool} {a : Nat} (h : Keeps s₀ s) : Keeps s₀ (authBody resume a s) := by
  unfold Machine.authBody
  exact .ite (.winEnd (.ite (.consumeChallenge h) h)) (.ite (.winEnd (.ite (.consumeChallenge h) h)) (.ite (.winEnd
    (.ite (.consumeChallenge h) h)) (.ite (.proveNow (.ite (.consumeChallenge h) h)) (.challengeNow (.ite
      (.consumeChallenge h) h)))))

theorem cmdOpen {q : Cmd} (h : Keeps s₀ s) : Keeps s₀ (cmdOpen q s) := by
  unfold Machine.cmdOpen
  exact .runCmd h (fun _ => .authBody)

theorem cmdResume {q : Cmd} (h : Keeps s₀ s) : Keeps s₀ (cmdResume q s) := by
  unfold Machine.cmdResume
  exact .runCmd h (fun _ => .authBody)

theorem cmdClose {q : Cmd} (h : Keeps s₀ s) : Keeps s₀ (cmdClose q s) := by
  unfold Machine.cmdClose
  exact .runCmd h (fun _ => .closeBody)

theorem resumeTimeoutNow {k : Nat} (h : Keeps s₀ s) : Keeps s₀ (resumeTimeoutNow k s) := by
  unfold Machine.resumeTimeoutNow
  exact .ite (.closeKeyless h) h

theorem cmdAttest {q : Cmd} (h : Keeps s₀ s) : Keeps s₀ (cmdAttest q s) := by
  unfold Machine.cmdAttest
  exact .runCmd h (fun _ h => .winEnd (.setMem h (Memory.wf_memPutBytes _ _ _)))

theorem installImage {k : Nat} {l : List Byte} (h : Keeps s₀ s) : Keeps s₀ (installImage k l s) := by
  unfold Machine.installImage
  exact .onUbide h

theorem closeAll (h : Keeps s₀ s) : Keeps s₀ (closeAll s) := by
  unfold Machine.closeAll
  extract_lets s₁ s₂
  have h₁ : Keeps s₀ s₁ := .foldl h (fun _ _ h => .ite (.closeSession h) (.dropKey h))
  clear_value s₁
  obtain ⟨hm, hc, hq⟩ : Keeps s₀ s₂ := h₁
  exact .foldl ⟨fun w => Memory.wf_filter _ _ (hm w), hc, hq⟩ (fun _ _ => .zeroizeCore)

theorem retireModule (h : Keeps s₀ s) : Keeps s₀ (retireModule s) := by
  unfold Machine.retireModule
  exact .onUbide (.closeAll h)

theorem installRecord {r : List Byte} (h : Keeps s₀ s) : Keeps s₀ (installRecord r s) := by
  unfold Machine.installRecord
  exact .ite (.retireModule (.onUbide h)) (.onUbide h)

theorem updateRecord {len : Nat} (h : Keeps s₀ s) : Keeps s₀ (updateRecord len s) := by
  unfold Machine.updateRecord
  exact .ite (.winEnd h) (.ite (.winEnd h) (.ite (.winEnd h) (.ite (.winEnd (.installRecord h)) (.winEnd (.ite
    (.countFail h) h)))))

theorem cmdFirmware {q : Cmd} (h : Keeps s₀ s) : Keeps s₀ (cmdFirmware q s) := by
  unfold Machine.cmdFirmware
  exact .runCmd h (fun _ h => .ite (.updateRecord h) (.ite (.winEnd h) (.ite (.winEnd h) (.ite (.winEnd h) (.winEnd
    (.installImage h))))))

theorem cmdRecovery {q : Cmd} (h : Keeps s₀ s) : Keeps s₀ (cmdRecovery q s) := by
  unfold Machine.cmdRecovery
  exact .runCmd h (fun _ h => .ite (.winEnd h) (.ite (.winEnd h) (.ite (.winEnd h) (.scheduleReset (.winEnd
    (.installImage (.onRst h)))))))

theorem unlockRefused {code : Nat} {res : List Nat} (h : Keeps s₀ s) : Keeps s₀ (unlockRefused code res s) := by
  unfold Machine.unlockRefused
  exact .winEnd (.countDenied h)

theorem voidOpen {k : Nat} (h : Keeps s₀ s) : Keeps s₀ (voidOpen k s) := by
  unfold Machine.voidOpen
  exact .ite (.voidStep h) h

theorem unlockBody {L : Nat} (h : Keeps s₀ s) : Keeps s₀ (unlockBody L s) := by
  unfold Machine.unlockBody
  exact .ite (.winEnd h) (.ite (.winEnd (.onUbide (.foldl h (fun _ _ => .voidOpen)))) (.ite (.unlockRefused h) (.ite
    (.unlockRefused h) (.ite (.unlockRefused h) (.ite (.unlockRefused (.countFail h)) (.ite (.winEnd (.onUbide
      (.voidOpen h))) (.winEnd (.onUbide (.closeAll h)))))))))

theorem cmdUnlock {q : Cmd} (h : Keeps s₀ s) : Keeps s₀ (cmdUnlock q s) := by
  unfold Machine.cmdUnlock
  exact .runCmd h (fun _ => .unlockBody)

theorem cmdLock {q : Cmd} (h : Keeps s₀ s) : Keeps s₀ (cmdLock q s) := by
  unfold Machine.cmdLock
  exact .runCmd h (fun _ h => .ite (.winEnd h) (.ite (.scheduleReset (.winEnd (.onUbide (.ite (.resumeAll h) h))))
    (.winEnd (.onUbide (.ite (.resumeAll h) h)))))

theorem stagingRead {k off len : Nat} (h : Keeps s₀ s) : Keeps s₀ (stagingRead k off len s).2 := by
  unfold Machine.stagingRead
  dsimp only
  exact .iteSnd h (.readStack h)

theorem imageHeader {k base : Nat} (h : Keeps s₀ s) : Keeps s₀ (imageHeader k base s).2 := by
  unfold Machine.imageHeader
  split
  next t e =>
    have ht : Keeps s₀ t := .ofSnd (.stagingRead h) e
    refine .iteSnd ht ?_
    split
    next u e => exact .ofSnd (.stagingRead ht) e
    next u _ e => exact .ofSnd (.stagingRead ht) e
  next t _ e => exact .ofSnd (.stagingRead h) e

theorem sectData {k base size : Nat} {c : Sect} (h : Keeps s₀ s) : Keeps s₀ (sectData k base size c s).2 := by
  unfold Machine.sectData
  refine .iteSnd h ?_
  split
  next d t e =>
    exact (.ofSnd (.stagingRead h) e)
  next t e =>
    exact (.ofSnd (.stagingRead h) e)

theorem sectsData {k base size : Nat} {l : List Sect} (h : Keeps s₀ s) : Keeps s₀ (sectsData k base size l s).2 := by
  induction l generalizing s with
  | nil => exact h
  | cons c t ih => exact ih (.sectData h)

theorem imagePlan {k base : Nat} (h : Keeps s₀ s) : Keeps s₀ (imagePlan k base s).2 := by
  unfold Machine.imagePlan
  dsimp only
  split
  next t e =>
    exact (.ofSnd (.imageHeader h) e)
  next entry size sects t e =>
    exact .sectsData (.ofSnd (.imageHeader h) e)

theorem sectCast {k i : Nat} {c : Sect} {d : List Byte} {good : Bool} {src : Option Nat} (h : Keeps s₀ s) :
    Keeps s₀ (sectCast k i c d good src s) :=
  h

theorem castAgain {b : Bcast} (h : Keeps s₀ s) : Keeps s₀ (castAgain b s) := by
  unfold Machine.castAgain
  dsimp only
  split
  · exact .stagingRead h
  · exact h

theorem castReject {k i : Nat} (h : Keeps s₀ s) : Keeps s₀ (castReject k i s) := by
  unfold Machine.castReject
  exact .onPart h

theorem castsSettle {k : Nat} {fuel : Nat} (h : Keeps s₀ s) : Keeps s₀ (castsSettle k fuel s) := by
  induction fuel generalizing s with
  | zero => exact h
  | succ fuel ih =>
    unfold Machine.castsSettle
    split
    · exact .ite h (.ite (.ite (.castReject h) (ih (.castAgain h))) (ih (.onPart h)))
    · exact h

theorem startImage {k : Nat} {q : Cmd} (h : Keeps s₀ s) : Keeps s₀ (startImage k q s) := by
  unfold Machine.startImage
  dsimp only
  split
  · exact .acceptPart (.imagePlan h)
  · exact .castsSettle (.foldl (.acceptPart (.imagePlan h)) (fun _ _ => .sectCast))

theorem cmdLoad {q : Cmd} (h : Keeps s₀ s) : Keeps s₀ (cmdLoad q s) := by
  unfold Machine.cmdLoad
  dsimp only
  exact .runCmd h (fun _ => .startImage)

theorem takeCopy {b : Bcast} {n : Nat} (h : Keeps s₀ s) : Keeps s₀ (takeCopy b n s) := by
  unfold Machine.takeCopy
  split
  · exact .spdWrite h
  · exact .setMem h (Memory.wf_memPutBytes _ _ _)
  · exact .foldl h (fun _ _ => .writeRegion)
  · exact .foldl h (fun _ _ => .writeRed)

theorem deliverCast {pid n : Nat} (h : Keeps s₀ s) : Keeps s₀ (deliverCast pid n s) := by
  unfold Machine.deliverCast
  split
  · exact h
  · split
    · exact .ite (.castsSettle (.ite (.takeCopy h) h)) h
    · exact h

theorem imageEnd {k : Nat} {c : PCmd} (h : Keeps s₀ s) : Keeps s₀ (imageEnd k c s) := by
  unfold Machine.imageEnd
  refine .ite (.castsSettle h) ?_
  split
  · exact .partEnd (.castsSettle h)
  · exact .partEnd (.onPart (.castsSettle h))

theorem raisePanel {p : Nat} (h : Keeps s₀ s) : Keeps s₀ (raisePanel p s) := by
  unfold Machine.raisePanel
  extract_lets _ _ s₁
  have h₁ : Keeps s₀ s₁ := h
  split
  next t e => exact .onPanel (.takeNew h₁ e)
  · exact .deferWake h₁

theorem waveEnds (h : Keeps s₀ s) : Keeps s₀ (waveEnds s) := by
  unfold Machine.waveEnds
  split
  · exact .ite (.winEnd h) h
  · exact h

theorem cmdWave {q : Cmd} (h : Keeps s₀ s) : Keeps s₀ (cmdWave q s) := by
  unfold Machine.cmdWave
  exact .runCmd h (fun _ h => .waveEnds (.onWin (.ite (.foldl h (fun _ _ => .raisePanel)) (.foldl h (fun _ _ =>
    .raisePanel)))))

theorem autoWave {k : Nat} (h : Keeps s₀ s) : Keeps s₀ (autoWave k s) := by
  unfold Machine.autoWave
  split
  · exact h
  · exact .ite h (.foldl (.onPart h) (fun _ _ => .raisePanel))

theorem testSites {p : Nat} {bad : List Nat} (h : Keeps s₀ s) : Keeps s₀ (testSites p bad s) := by
  unfold Machine.testSites
  exact .foldl h (fun _ _ h => .ite h (.markBad (.queueRepair h)))

theorem bringUp {p : Nat} {bad : List Nat} (h : Keeps s₀ s) : Keeps s₀ (bringUp p bad s) := by
  unfold Machine.bringUp
  dsimp only
  exact .ite h (.onPanel (.ite (.foldl (.onPanel (.testSites (.loadMap (.onPanel h)))) (fun _ _ h => .ite (.onCore h)
    (.ite (.onCore (.zeroizeCore h)) h))) (.stackLost (.foldl (.onPanel (.testSites (.loadMap (.onPanel h)))) (fun _
      _ h => .ite (.onCore h) (.ite (.onCore (.zeroizeCore h)) h))))))

theorem noteChange {p : Nat} {failed : Bool} (h : Keeps s₀ s) : Keeps s₀ (noteChange p failed s) := by
  unfold Machine.noteChange
  split
  · exact h
  · split
    · exact h
    · exact .onPart h

theorem broughtUp {p : Nat} (h : Keeps s₀ s) : Keeps s₀ (broughtUp p s) := by
  unfold Machine.broughtUp
  dsimp only
  exact .noteChange (.obeyBound (.ite (.foldl (.tablesChanged (.onPanel h)) (fun _ _ => .portPresent)) (.foldl
    (.tablesChanged (.onPanel h)) (fun _ _ => .portPresent))))

theorem bringFailed {p stepNo : Nat} (h : Keeps s₀ s) : Keeps s₀ (bringFailed p stepNo s) := by
  unfold Machine.bringFailed
  dsimp only
  exact .noteChange (.logErr (.onPower (.onPanel (.ite (.loseStack (.stackLost (.foldl h (fun _ _ h => .onCore
    (.zeroizeCore h))))) (.stackLost (.foldl h (fun _ _ h => .onCore (.zeroizeCore h))))))))

theorem bringDone {p : Nat} {ok : Bool} {stepNo : Nat} (h : Keeps s₀ s) : Keeps s₀ (bringDone p ok stepNo s) := by
  unfold Machine.bringDone
  exact .ite h (.ite (.ite (.waveEnds (.broughtUp h)) h) (.ite (.waveEnds (.bringFailed h)) h))

theorem commandTimeoutNow (h : Keeps s₀ s) : Keeps s₀ (commandTimeoutNow s) := by
  unfold Machine.commandTimeoutNow
  split
  · exact h
  · split
    · exact h
    · exact .ite h (.ite (.winEnd (.foldl h (fun _ _ => .bringFailed))) (.winEnd h))

theorem gaugeFence {l : List (Nat × Nat × Nat)} (h : Keeps s₀ s) : Keeps s₀ (gaugeFence l s) := by
  unfold Machine.gaugeFence
  dsimp only
  exact .foldl h (fun _ _ => .routerFault)

theorem cmdGauge {q : Cmd} (h : Keeps s₀ s) : Keeps s₀ (cmdGauge q s) := by
  unfold Machine.cmdGauge
  dsimp only
  exact .runCmd h (fun _ h => .ite (.ite (.winEnd (.gaugeFence h)) (.castFail (.winEnd (.gaugeFence h)))) (.ite
    (.winEnd (.gaugeFence h)) (.winEnd (.logErr (.gaugeFence h)))))

theorem setCast {c : CastOn} (h : Keeps s₀ s) : Keeps s₀ { s with cast := c } := h

theorem castOnNow (h : Keeps s₀ s) : Keeps s₀ (castOnNow s) := by
  unfold Machine.castOnNow
  have h₁ : Keeps s₀ (allPanels.foldl (fun s p => Machine.loadMap p s) s) := .foldl h (fun _ _ => .loadMap)
  exact .ite h (.ite (.castFail h) (.ite (.setCast h₁) (.setCast h₁)))

theorem perstRelease (h : Keeps s₀ s) : Keeps s₀ (perstRelease s) := by
  unfold Machine.perstRelease
  exact .ite h h

theorem undefineRest {k : Nat} (h : Keeps s₀ s) : Keeps s₀ (undefineRest k s) := by
  unfold Machine.undefineRest
  exact .ite h (.onPart (.removePart h))

theorem castFinish (h : Keeps s₀ s) : Keeps s₀ (castFinish s) := by
  unfold Machine.castFinish
  extract_lets s₁ s₂ svn
  have h₁ : Keeps s₀ s₁ := .foldl h (fun _ _ h => .ite h (.ite (.enterRest h) (.panelOff h)))
  have h₂ : Keeps s₀ s₂ := .foldl h₁ (fun _ _ => .undefineRest)
  clear_value s₂
  exact .ite h h₂

theorem castRestart (h : Keeps s₀ s) : Keeps s₀ (castRestart s) := by
  unfold Machine.castRestart
  split
  · exact h
  · exact .ite h h

theorem startPower {k goal : Nat} {q : Cmd} (h : Keeps s₀ s) : Keeps s₀ (startPower k goal q s) := by
  unfold Machine.startPower
  exact .ite (.tablesChanged (.foldl (.onPart (.acceptPart h)) (fun _ _ => .onPanel))) (.ite (.foldl (.onPart
    (.acceptPart h)) (fun _ _ => .askWake)) (.onPart (.acceptPart h)))

theorem cmdPower {q : Cmd} (h : Keeps s₀ s) : Keeps s₀ (cmdPower q s) := by
  unfold Machine.cmdPower
  exact .runCmd h (fun _ h => .startPower (.onPart h))

theorem standPanel {p : Nat} (h : Keeps s₀ s) : Keeps s₀ (standPanel p s) := by
  unfold Machine.standPanel
  refine .ite h ?_
  split
  · exact .enterRest h
  · exact .onPanel h
  · exact .onPanel h
  · exact h

theorem powerEnd {k : Nat} {c : PCmd} (h : Keeps s₀ s) : Keeps s₀ (powerEnd k c s) := by
  unfold Machine.powerEnd
  dsimp only
  exact .ite h (.ite (.ite (.partEnd h) (.ite (.partEnd h) h)) (.ite (.ite (.partEnd (.attendPart (.onPart h))) h)
    (.ite (.partEnd (.attendPart (.onPart (.gaugeFence h)))) (.ite (.partEnd (.foldl h (fun _ _ => .standPanel)))
      (.partEnd h)))))

theorem partCommandEnd {k : Nat} (h : Keeps s₀ s) : Keeps s₀ (partCommandEnd k s) := by
  unfold Machine.partCommandEnd
  split
  · exact h
  · split
    · exact .powerEnd h
    · exact .imageEnd h
    · exact .bindOffEnd h

end Keeps

end Sys2Proof.Machine
end

section
/-! SUPPORT. What keeps the memory canonical and the power cap in its bounds: accesses over PCI Express and the
shared forms of the commands (chapter 12). -/

namespace Sys2Proof.Machine

open Sys2Proof

namespace Keeps

variable {s₀ s t : State} {α : Type}

theorem publishRead {k : Nat} (h : Keeps s₀ s) : Keeps s₀ (publishRead k s) := by
  unfold Machine.publishRead
  exact .onPart h

theorem bar0Read {a len : Nat} (h : Keeps s₀ s) : Keeps s₀ (bar0Read a len s).2 := by
  unfold Machine.bar0Read
  exact .iteSnd (.ite (.publishRead h) h) (.readReg h (bar0Flds_keep _ _))

theorem msixGo (h : Keeps s₀ s) : Keeps s₀ (msixGo s) := by
  unfold Machine.msixGo
  exact .onHost h

theorem msixUnmask (h : Keeps s₀ s) : Keeps s₀ (msixUnmask s) := by
  unfold Machine.msixUnmask
  exact .ite h (.msixGo (.onHost h))

theorem pciePower {d3 : Bool} (h : Keeps s₀ s) : Keeps s₀ (pciePower d3 s) := by
  unfold Machine.pciePower
  exact .ite h (.msixGo (.onHost h))

theorem flrNow (h : Keeps s₀ s) : Keeps s₀ (flrNow s) := by
  unfold Machine.flrNow
  exact .ite h (.onHost h)

theorem noteUnserved {st : Nat} (h : Keeps s₀ s) : Keeps s₀ (noteUnserved st s) := by
  unfold Machine.noteUnserved
  exact .onHost h

theorem hostUr {completion st : Nat} (h : Keeps s₀ s) : Keeps s₀ (hostUr completion st s) := by
  unfold Machine.hostUr
  exact .onHost h

theorem fabDone {wr : Bool} {st : Nat} {data : List Byte} {ep : Bool} (h : Keeps s₀ s) :
    Keeps s₀ (fabDone wr st data ep s) := by
  unfold Machine.fabDone
  exact .ite (.reply (.onHost h)) (.reply (.onHost (.onHost h)))

theorem sendHost {tag : Nat} {q : HostReq} (h : Keeps s₀ s) : Keeps s₀ (sendHost tag q s) := by
  unfold Machine.sendHost
  dsimp only
  exact .launchPacket h

theorem newHost {fab wr : Bool} {addr len : Nat} {data : List Byte} {pois : Bool} (h : Keeps s₀ s) :
    Keeps s₀ (newHost fab wr addr len data pois s) := by
  unfold Machine.newHost
  exact .sendHost (.onHost h)

theorem fabAccess {wr : Option W64} (h : Keeps s₀ s) : Keeps s₀ (fabAccess wr s) := by
  unfold Machine.fabAccess
  dsimp only
  refine .ite (.fabDone h) ?_
  refine .ite (.fabDone (.ite (.onHost h) h)) ?_
  split
  · exact .ite (.newHost (.ite (.onHost h) h)) (.ite (.fabDone (.ite (.onHost h) h)) (.ite (.fabDone (.spdWrite (.ite
    (.onHost h) h))) (.fabDone (.spdRead (.ite (.onHost h) h)))))
  · exact .ite (.newHost (.ite (.onHost h) h)) (.ite (.fabDone (.ite (.onHost h) h)) (.ite (.fabDone (.unitWrite
    (.ite (.onHost h) h))) (.fabDone (.unitRead (.ite (.onHost h) h)))))
  · exact .newHost (.ite (.onHost h) h)
  · exact .fabDone (.ite (.onHost h) h)

theorem fabRead (h : Keeps s₀ s) : Keeps s₀ (fabRead s) := by
  unfold Machine.fabRead
  exact .ite (.fabAccess h) h

theorem fabWrite {v : W64} (h : Keeps s₀ s) : Keeps s₀ (fabWrite v s) := by
  unfold Machine.fabWrite
  exact .ite (.fabAccess h) h

theorem bufferWrite {y : Nat} {data : List Byte} {ep : Bool} (h : Keeps s₀ s) : Keeps s₀ (bufferWrite y data ep s) :=
  by
  unfold Machine.bufferWrite
  exact .onUbide (.setMem h (Memory.wf_memPutBytes _ _ _))

theorem bar2Read {y len : Nat} (h : Keeps s₀ s) : Keeps s₀ (bar2Read y len s) := by
  unfold Machine.bar2Read
  refine .ite h ?_
  refine .ite (.hostUr h) ?_
  split
  · exact .hostUr h
  · exact .reply (.ite (.onHost h) h)
  · exact .newHost h

theorem bar2Write {y : Nat} {data : List Byte} {ep : Bool} (h : Keeps s₀ s) : Keeps s₀ (bar2Write y data ep s) := by
  unfold Machine.bar2Write
  refine .ite h ?_
  refine .ite (.hostUr h) ?_
  split
  · exact .hostUr h
  · exact .reply (.bufferWrite h)
  · exact .reply (.newHost h)

theorem hostReply {k : Packet} (h : Keeps s₀ s) : Keeps s₀ (hostReply k s) := by
  unfold Machine.hostReply
  dsimp only
  split
  · exact .dropPacket h
  · exact .ite (.onHost (.dropPacket h)) (.ite (.fabDone (.onHost (.dropPacket h))) (.ite (.ite (.onHost (.dropPacket
    h)) (.reply (.onHost (.dropPacket h)))) (.ite (.reply (.onHost (.onHost (.dropPacket h)))) (.ite (.onHost
      (.onHost (.dropPacket h))) (.hostUr (.onHost (.dropPacket h)))))))

theorem retryHost {tag : Nat} (h : Keeps s₀ s) : Keeps s₀ (retryHost tag s) := by
  unfold Machine.retryHost
  dsimp only
  split
  · split
    · exact .ite h (.sendHost (.onHost h))
    · exact h
  · exact h

theorem hostAbort (h : Keeps s₀ s) : Keeps s₀ (hostAbort s) := by
  unfold Machine.hostAbort
  split
  · exact h
  · exact .ite (.onHost h) (.hostUr (.onHost h))

theorem clearAttention (h : Keeps s₀ s) : Keeps s₀ (clearAttention s) :=
  h

theorem writeResume {v : Nat} (h : Keeps s₀ s) : Keeps s₀ (writeResume v s) := by
  unfold Machine.writeResume
  exact .onUbide h

theorem writeTail {v : Nat} (h : Keeps s₀ s) : Keeps s₀ (writeTail v s) := by
  unfold Machine.writeTail
  exact .ite h h

theorem writeProof {i v mask : Nat} (h : Keeps s₀ s) : Keeps s₀ (writeProof i v mask s) := by
  unfold Machine.writeProof
  exact .onUbide h

theorem opMeaning {op : Nat} {f : Cmd → State → State} {q : Cmd} (h : Keeps s₀ s) (e : Machine.opMeaning op = some f) :
    Keeps s₀ (f q s) := by
  unfold Machine.opMeaning at e
  split at e <;> cases e
  · exact .cmdIdentify h
  · exact .cmdOpen h
  · exact .cmdResume h
  · exact .cmdClose h
  · exact .cmdAttest h
  · exact .cmdDefine h
  · exact .cmdPower h
  · exact .cmdWave h
  · exact .cmdGauge h
  · exact .cmdLoad h
  · exact .cmdLaunch h
  · exact .cmdStop h
  · exact .cmdRelease h
  · exact .cmdTrain h
  · exact .cmdRole h
  · exact .cmdReset h
  · exact .cmdBindOff h
  · exact .cmdDarn h
  · exact .cmdFence h
  · exact .cmdRetire h
  · exact .cmdScrub h
  · exact .cmdZeroize h
  · exact .cmdUnlock h
  · exact .cmdLock h
  · exact .cmdFirmware h
  · exact .cmdRecovery h

theorem cmdUndefined {op : Nat} {q : Cmd} (h : Keeps s₀ s) : Keeps s₀ (cmdUndefined op q s) := by
  unfold Machine.cmdUndefined
  split
  next f e => exact .opMeaning h e
  · exact .runCmd h fun _ h => h

theorem opWrite {op : Nat} (h : Keeps s₀ s) : Keeps s₀ (opWrite op s) := by
  unfold Machine.opWrite
  exact .cmdUndefined h

theorem modWrite {off v mask : Nat} (h : Keeps s₀ s) : Keeps s₀ (modWrite off v mask s) := by
  unfold Machine.modWrite
  exact .ite (.onHost h) (.ite (.onHost h) (.ite (.fabAccess h) (.ite (.ite (.clearAttention h) h) (.ite (.ite
    (.onPart h) h) (.ite (.onHost h) (.ite (.onHost h) (.ite (.ite (.opWrite h) h) (.ite (.ite (.onHost h) h) (.ite
      (.onHost h) (.ite (.msixGo (.onHost h)) h))))))))))

theorem bar0Write {a v mask : Nat} (h : Keeps s₀ s) : Keeps s₀ (bar0Write a v mask s) := by
  unfold Machine.bar0Write
  dsimp only
  exact .ite (.modWrite h) (.ite (.writeProof h) (.ite (.ite (.writeResume h) h)
    (.ite (.setMem h (Memory.wf_foldl_memPut _ _ _ _)) (.ite (.ite (.writeCap h) h) (.ite (.ite (.writeTail h) h)
      (.ite (.panelWrite h) (.ite (.noteUnserved (.lnkWrite h)) h)))))))

theorem bar0Invalid {a size : Nat} (h : Keeps s₀ s) : Keeps s₀ (bar0Invalid a size s) := by
  unfold Machine.bar0Invalid
  exact .ite (.hostUr h) h

theorem publishWordRead {k : Nat} (h : Keeps s₀ s) : Keeps s₀ (publishWordRead k s) := by
  unfold Machine.publishWordRead
  dsimp only
  exact .ite (.reply (.bar0Read h)) h

theorem hostWrite {f : State → State} (h : Keeps s₀ s) (hf : ∀ t, Keeps s₀ t → Keeps s₀ (f t)) :
    Keeps s₀ (hostWrite f s) := by
  unfold Machine.hostWrite
  exact .ite (hf _ h) h

theorem blockWrite {src : Source} {p u off : Nat} {f : State → State} (h : Keeps s₀ s)
    (hf : ∀ t, Keeps s₀ t → Keeps s₀ (f t)) : Keeps s₀ (blockWrite src p u off f s) := by
  unfold Machine.blockWrite
  split
  · exact .ite (hf _ h) h
  · exact .ite (hf _ h) h

theorem replyNow {k : Packet} (h : Keeps s₀ s) : Keeps s₀ (replyNow k s) := by
  unfold Machine.replyNow
  split
  · exact .ite (.coreReply h) (.coreAck h)
  · exact .seqReply h
  · exact .portReply h
  · exact .hostReply h
  · exact .stackReply h

theorem replyIf {kind : Packet → Bool} {pid : Nat} (h : Keeps s₀ s) : Keeps s₀ (replyIf kind pid s) := by
  unfold Machine.replyIf
  split
  · exact .ite (.replyNow h) h
  · exact h

theorem zeroizeNow {n : Nat} (h : Keeps s₀ s) : Keeps s₀ (zeroizeNow n s) := by
  unfold Machine.zeroizeNow
  exact .ite h (.zeroizeCore h)

theorem seqWord {p : Nat} {i : CIns} (h : Keeps s₀ s) : Keeps s₀ (seqWord p i s) := by
  unfold Machine.seqWord
  exact .ite (.seqStep h) h

theorem seqNoWord {p : Nat} (h : Keeps s₀ s) : Keeps s₀ (seqNoWord p s) := by
  unfold Machine.seqNoWord
  exact .ite (.seqUndefined h) h

theorem releaseHeld {n : Nat} (h : Keeps s₀ s) : Keeps s₀ (releaseHeld n s) := by
  unfold Machine.releaseHeld
  split
  · exact .haltTry (.issueRaw h)
  · exact h

theorem answerStf {q a : Nat} {data : List Byte} {st : Nat} (h : Keeps s₀ s) : Keeps s₀ (answerStf q a data st s) :=
  by
  unfold Machine.answerStf
  split
  · exact .answer h
  · exact h

theorem fabricWrite {src : Source} {p u off : Nat} {v : W64} {f : State → Nat × State} (h : Keeps s₀ s)
    (hf : ∀ t, Keeps s₀ t → Keeps s₀ (f t).2) : Keeps s₀ (fabricWrite src p u off v f s) := by
  unfold Machine.fabricWrite
  refine .ite h ?_
  split
  · exact .ite h (.ite (.fabDone h) (.ite (.newHost h) (.ite (.fabDone h) (.fabDone (hf _ h)))))
  · exact .ite h (.answerStf (hf _ h))

theorem coreRegister {src : Source} {n base r : Nat} {v : W64} {f : State → Nat × State} (h : Keeps s₀ s)
    (hf : ∀ t, Keeps s₀ t → Keeps s₀ (f t).2) : Keeps s₀ (coreRegister src n base r v f s) := by
  unfold Machine.coreRegister
  exact .ite (.fabricWrite h hf) h

theorem powerOffWrite {src : Source} {p : Nat} (h : Keeps s₀ s) : Keeps s₀ (powerOffWrite src p s) := by
  unfold Machine.powerOffWrite
  dsimp only
  refine .ite h ?_
  split
  · exact .ite (.offRequest h) h
  · split
    · exact .answer (.onSeq (.offRequest h))
    · exact .onSeq (.offRequest h)

theorem linkWrite {src : Source} {o : Nat} {f : State → State} (h : Keeps s₀ s)
    (hf : ∀ t, Keeps s₀ t → Keeps s₀ (f t)) : Keeps s₀ (linkWrite src o f s) := by
  unfold Machine.linkWrite
  refine .ite h ?_
  split
  · exact .ite (hf _ h) h
  · exact .ite (hf _ h) h

theorem linkPost {code : Nat} {src : Source} {o : Nat} {w0 w1 w2 w3 : W64} (h : Keeps s₀ s) :
    Keeps s₀ (linkPost code src o w0 w1 w2 w3 s) := by
  unfold Machine.linkPost
  dsimp only
  refine .linkWrite h (fun _ h => ?_)
  split
  · exact .noteUnserved (.postNow h)
  · exact .answerStf (.postNow h)

end Keeps

end Sys2Proof.Machine
end

section
/-! SUPPORT. Every command keeps the memory canonical and the power cap in its bounds (R29, R128, R309, R315). -/

namespace Sys2Proof.Machine

open Sys2Proof

namespace Keeps

variable {s₀ s : State}

theorem idle (h : Keeps s₀ s) : Keeps s₀ (idle s) :=
  h

end Keeps

/-- Where the answer is a next state, it keeps the invariants. -/
def Kept (s₀ : State) : Host.Outcome State Fault Refusal → Prop
  | .next t => Keeps s₀ t
  | .fault _ | .refused _ => True

namespace Kept

variable {s₀ s t : State}

theorem next (h : Keeps s₀ s) : Kept s₀ (.next s) := h

theorem ite {c : Prop} [Decidable c] {x y : Host.Outcome State Fault Refusal} (hx : Kept s₀ x) (hy : Kept s₀ y) :
    Kept s₀ (if c then x else y) := by
  split
  · exact hx
  · exact hy

theorem windowAccess {y size : Nat} {wr : Bool} {v : Nat} (h : Keeps s₀ s) : Kept s₀ (windowAccess y size wr v s) := by
  unfold Machine.windowAccess
  dsimp only
  refine .ite (.next (.onHost h)) (.ite (.ite (.next (.dbgRefuse h)) (.ite (.next ?_) ?_)) (.ite ?_ (.ite ?_ (.ite
    (.next (.dbgSpd h)) (.ite (.ite (.next (.dbgRefuse h)) (.ite trivial ?_)) (.next (.reply h)))))))
  · exact .ite (.selWrite (.reply h)) (.ctlWrite (.reply h))
  · exact .next (.reply (.readReg h (dbgFlds_keep _ _)))
  · exact .ite (.next (.dbgRefuse h)) (.ite (.next (.reply h)) (.next (.reply (.unitRead h))))
  · exact .ite (.next (.dbgRefuse h)) (.next (.imgAccess h))
  · exact .next (.reply (.freshNat h))

theorem windowNow {jtag : Bool} {y size : Nat} {wr : Bool} {v : Nat} (h : Keeps s₀ s) :
    Kept s₀ (windowNow jtag y size wr v s) := .ite (.windowAccess h) (.next h)

theorem clearingRead {src : Source} {a size : Nat} (h : Keeps s₀ s) : Kept s₀ (clearingRead src a size s) := by
  unfold Machine.clearingRead
  dsimp only
  split
  · exact .ite (.next h) (.ite (.next (.hostUr h)) (.ite (.windowNow h)
      (.ite (.next (.fabAccess h)) (.next (.reply (.bar0Read h))))))
  · split
    · exact .next (.ite (.unitRead h) h)
    · exact .next h

theorem registerWrite {src : Source} {a size : Nat} {v : W64} (h : Keeps s₀ s) :
    Kept s₀ (registerWrite src a size v s) := by
  unfold Machine.registerWrite
  split
  · exact .ite (.next h) (.ite (.next (.hostUr h)) (.ite (.windowNow h) (.next (.bar0Write h))))
  · split
    · exact .next (.ite (.unitWrite h) h)
    · exact .next h

theorem atC {w : Site} {i : CIns} (h : Keeps s₀ s) : Kept s₀ (atC w i s) := by
  unfold Machine.atC
  split
  · exact .next (.ite (.issueC h) h)
  · exact .next (.seqWord h)

theorem atM {w : Site} {i : MIns} (h : Keeps s₀ s) : Kept s₀ (atM w i s) := by
  unfold Machine.atM
  split
  · exact .next (.ite (.issueM h) h)
  · exact .next (.seqNoWord h)

theorem atV {w : Site} {i : VIns} (h : Keeps s₀ s) : Kept s₀ (atV w i s) := by
  unfold Machine.atV
  split
  · exact .next (.ite (.issueV h) h)
  · exact .next (.seqNoWord h)

theorem atS {w : Site} {i : SIns} (h : Keeps s₀ s) : Kept s₀ (atS w i s) := by
  unfold Machine.atS
  split
  · exact .next (.ite (.issueS h) h)
  · exact .next (.seqNoWord h)

theorem atRaw {g : Agent} {b : Bundle} (h : Keeps s₀ s) : Kept s₀ (atRaw g b s) := by
  unfold Machine.atRaw
  split
  · exact .next (.ite (.issueRaw h) h)
  · exact .next (.seqNoWord h)

theorem inputRange {mv : Nat} (h : Keeps s₀ s) : Kept s₀ (inputRange mv s) := 
  .ite trivial (.ite (.next (.onPower h)) (.next (.inputLost h)))
/-- Every command keeps the invariants (R29, R128, R309, R315): by its family, whatever its operands. -/
theorem exec (h : Keeps s₀ s) : (i : Instr) → Kept s₀ (exec i s)
  | .add .. | .sub .. | .andS .. | .orS .. | .xorS .. | .shl .. | .shr .. | .sra .. | .minS .. | .maxS .. | .mul ..
    | .mulh .. | .cmp .. | .sel .. | .addi .. | .andi .. | .lui .. | .ori .. | .amov .. | .aget .. | .aadd ..
    | .aaddi .. | .aform .. | .kmov .. | .kget .. | .ktail .. | .kop .. | .pop .. | .ld .. | .st .. | .ldf ..
    | .stf .. | .srd .. | .swr .. | .br .. | .jmp .. | .jr .. | .loop .. | .loopi .. | .wait .. | .rest ..
    | .yield .. | .endC .. | .sig .. | .arrive .. | .mfc .. | .mtc .. | .nop .. => .atC h
  | .waitComplete .. => .next (.ite (.waitDone h) h)
  | .restStateEntry .. => .next (.ite (.restEntry h) h)
  | .coreWake .. => .next (.ite (.haltTry (.coreWake h)) h)
  | .resultRetire .. => .next (.ite (.retireNow h) h)
  | .interlockRelease .. => .next (.ite (.releaseHeld h) h)
  | .lateException .. => .next (.ite (.lateNow h) h)
  | .contextBoundarySwitch .. => .next (.ite (.haltTry (.finishBoundary h)) h)
  | .postedStoreFault .. | .writeAcknowledge .. | .replyArrival .. => .next (.replyIf h)
  | .launch .. | .cswitch .. | .cstop .. | .xwake .. | .fset .. | .fclr .. | .fwait .. | .barrier .. | .prest ..
    | .stepBegin .. | .stepEnd .. | .wdog .. | .cwait .. => .next (.seqWord h)
  | .seqWaitEnd .. => .next (.ite (.seqWaitEnd h) h)
  | .panelRestEntry .. => .next (.ite (.panelRestEntry h) h)
  | .panelWake .. => .next (.ite (.closeEnds (.panelWake h)) h)
  | .stepOpen .. => .next (.ite (.stepOpenNow h) h)
  | .panelFlagSample .. => .next (.ite (.flagSample h) h)
  | .watchdogExpire .. => .next (.ite (.watchdogExpire h) h)
  | .mcfg .. | .mseed .. | .mldw .. | .mmul .. | .mpre .. | .mclr .. | .mdrain .. | .mspill .. | .mgrpOpen ..
    | .mgrpClose .. | .mlds .. | .smul .. | .mdrs .. | .smrg .. | .scmp .. | .strw .. => .atM h
  | .shadowPartWrite .. => .next (.ite (.partNow h) h)
  | .accumulateRow .. => .next (.ite (.accumulateNow h) h)
  | .drainOpStart .. => .next (.ite (.drainStart h) h)
  | .drainOpEmitDone .. => .next (.ite (.drainDone h) h)
  | .vld .. | .vst .. | .vbc .. | .vext .. | .vldc .. | .vseed .. | .vqrd .. | .vqwr .. | .vch .. => .atV h
  | .laneGeneratorAdvance .. => .next (.ite (.panelCycle h) h)
  | .sqcfg .. | .sqcnt .. | .shead .. | .spop .. | .stail .. | .spush .. | .slist .. | .slstop .. | .slstat ..
    => .atS h
  | .listStopped .. => .next (.ite (.listStoppedNow h) h)
  | .descEnd .. => .next (.ite (.descEndNow h) h)
  | .descCopy .. | .descGather .. => .next (.ite (.descXferNow h) h)
  | .descStitch .. => .next (.ite (.descStitchNow h) h)
  | .markerPass .. => .next (.ite (.markerPassNow h) h)
  | .descSignal .. => .next (.ite (.descSignalNow h) h)
  | .signalFire .. => .next (.ite (.signalFireNow h) h)
  | .descLink .. => .next (.ite (.descLinkNow h) h)
  | .engineRequestIssue .. => .next (.ite (.engineIssue h) h)
  | .replyLanding .. => .next (.ite (.landReply h) h)
  | .stfEntrySend .. => .next (.ite (.stfSend h) h)
  | .requestRetry none _ => .next (.retryHost h)
  | .requestRetry (some _) _ => .next (.ite (.retryReq h) h)
  | .hubRequestArrival .. => .next (.hubArrive h)
  | .hubGrant .. => .next (.ite (.hubGrant h) h)
  | .remoteRequest .. => .next (.remoteNow h)
  | .meshForward .. => .next (.meshForward h)
  | .reductionCombine .. => .next (.ite (.combine h) h)
  | .broadcastDelivery .. => .next (.ite (.deliverCast h) h)
  | .epochNotice .. => .next (.trainEnds (.epochNotice h))
  | .routeTableUpdate => .next (.tablesAfter h)
  | .routeTableArrival .. => .next (.ite (.waveEnds (.tableArrives h)) h)
  | .correctionWriteBack .. => .next (.ite (.writeBackNow h) h)
  | .spdRegionWrite .. => .next (.coreRegister h (fun _ => .writeRegion))
  | .fabRedWrite .. => .next (.coreRegister h (fun _ => .writeRed))
  | .scratchpadZeroization .. => .next (.ite (.zeroizeNow h) h)
  | .stackSectorRewrite .. => .next (.ite (.rewriteNow h) h)
  | .readMerge .. => .next (.ite (.mergeNow h) h)
  | .patrolScrubRead .. => .next (.ite (.scrubRead h) h)
  | .stackFill .. => .next (.ite (.fillNow h) h)
  | .stackFillDone .. => .next (.ite (.fillDone h) h)
  | .mirrorWrite .. => .next (.ite (.mirrorWriteNow h) h)
  | .mirrorRebuild .. => .next (.ite (.rebuildNow h) h)
  | .mirrorRebuildDone .. => .next (.ite (.rebuildDone h) h)
  | .stackPowerDown .. => .next (.ite (.powerDownNow h) h)
  | .pageRetireDone .. => .next (.ite (.pageRetired h) h)
  | .laneFail .. => .next (.ite (.trainEnds (.failLane h)) h)
  | .laneSwitch .. => .next (.ite (.laneSwitchNow h) h)
  | .codewordReceive .. => .next (.ite (.trainEnds (.codeword h)) h)
  | .flitIdle .. => .next (.ite (.rxPlain h) h)
  | .flitData .. | .flitDataEnd .. | .flitCommit .. | .flitVoid .. | .flitRejoin .. => .next (.ite (.rxSeq h) h)
  | .flitLane .. => .next (.ite (.trainEnds (.rxLane h)) h)
  | .flitIdent .. => .next (.ite (.rxIdent h) h)
  | .flitReserved .. => .next (.ite (.ite (.rxReserved h) h) h)
  | .replay .. => .next (.ite (.replayGap h) h)
  | .replayTimeout .. => .next (.ite (.replayLate h) h)
  | .linkSignalLoss .. => .next (.ite (.signalLoss h) h)
  | .retrainAttempt .. => .next (.ite (.retrainNow h) h)
  | .trainingComplete .. => .next (.ite (.trainEnds (.trainingDone h)) h)
  | .trainingTimeout .. => .next (.ite (.trainEnds (.trainingLate h)) h)
  | .portAbsent .. => .next (.ite (.trainEnds (.portAbsentNow h)) h)
  | .postSend .. | .postRecv .. | .postReduce .. | .postRelay .. => .next (.linkPost h)
  | .entryComplete .. => .next (.ite (.entryComplete h) h)
  | .addendReadRetry .. => .next (.ite (.retryPort h) h)
  | .reduceGapTimeout .. => .next (.ite (.gapTimeout h) h)
  | .commitTimeout .. => .next (.ite (.commitTimeoutNow h) h)
  | .reductionDone .. => .next (.ite (.reductionDone h) h)
  | .decideStep .. => .next (.ite (.decideStep h) h)
  | .stepVoid .. => .next (.ite (.stepVoidNow h) h)
  | .rejoinSend .. => .next (.ite (.rejoinDue h) h)
  | .holdEnd .. => .next (.ite (.holdEnd h) h)
  | .identify .. => .next (.cmdIdentify h)
  | .sessionOpen .. => .next (.cmdOpen h)
  | .sessionResume .. => .next (.cmdResume h)
  | .sessionClose .. => .next (.cmdClose h)
  | .attest .. => .next (.cmdAttest h)
  | .partitionDefine .. => .next (.cmdDefine h)
  | .partitionPower .. => .next (.cmdPower h)
  | .panelWave .. => .next (.cmdWave h)
  | .automaticWave .. => .next (.ite (.autoWave h) h)
  | .gaugeCheck .. => .next (.cmdGauge h)
  | .loadImage .. => .next (.cmdLoad h)
  | .contextLaunch .. => .next (.cmdLaunch h)
  | .contextStop .. => .next (.cmdStop h)
  | .stepRelease .. => .next (.cmdRelease h)
  | .linkTrain .. => .next (.cmdTrain h)
  | .linkRole .. => .next (.cmdRole h)
  | .reset .. => .next (.cmdReset h)
  | .bindOff .. => .next (.cmdBindOff h)
  | .bindOffTimeout .. => .next (.ite (.bindOffTimeoutNow h) h)
  | .darn .. => .next (.cmdDarn h)
  | .fence .. => .next (.cmdFence h)
  | .retirePage .. => .next (.cmdRetire h)
  | .scrub .. => .next (.cmdScrub h)
  | .zeroize .. => .next (.cmdZeroize h)
  | .debugUnlock .. => .next (.cmdUnlock h)
  | .debugLock .. => .next (.cmdLock h)
  | .firmwareUpdate .. => .next (.cmdFirmware h)
  | .recoveryImage .. => .next (.cmdRecovery h)
  | .commandTimeout => .next (.commandTimeoutNow h)
  | .partitionCommandEnd .. => .next (.ite (.partCommandEnd h) h)
  | .bar0AccessInvalid .. => .next (.bar0Invalid h)
  | .bar2Read .. => .next (.bar2Read h)
  | .bar2Write .. => .next (.bar2Write h)
  | .hostCompletionAbort => .next (.hostAbort h)
  | .fabDataRead => .next (.fabRead h)
  | .fabDataWrite .. => .next (.fabWrite h)
  | .publishWordWrite .. => .next (.ite (.publishNow h) h)
  | .publishWordRead .. => .next (.ite (.publishWordRead h) h)
  | .functionLevelReset => .next (.flrNow h)
  | .pciePowerStateChange .. => .next (.pciePower h)
  | .pnlPowerOff .. => .next (.powerOffWrite h)
  | .pnlTensionLimitWrite .. => .next (.ite (.blockWrite h (fun _ => .writeLimit)) h)
  | .pwrCapWrite .. => .next (.hostWrite h (fun _ => .writeCap))
  | .stkScrubWrite .. => .next (.fabricWrite h (fun _ => .writeScrub))
  | .lnkCfgWrite .. => .next (.linkWrite h (fun _ => .writeLnkCfg))
  | .secCfgWrite .. => .next (.hostWrite h (fun _ => .writeResume))
  | .errTailWrite .. => .next (.hostWrite h (fun _ => .writeTail))
  | .dbgSelWrite .. => .next (.hostWrite h (fun _ => .selWrite))
  | .dbgHalt => .next (.hostWrite h (fun _ => .haltNow))
  | .dbgResume => .next (.hostWrite h (fun _ => .resumeNow))
  | .dbgStep => .next (.hostWrite h (fun _ => .stepNow))
  | .debugWindowAccess .. => .windowNow h
  | .registerWrite .. => .registerWrite h
  | .jtagInstruction .. => .next (.jtagNow h)
  | .livenessProbe .. => .next (.ite (.probeNow h) h)
  | .probeTimeout .. => .next (.ite (.probeTimeout h) h)
  | .machineCheck .. => .next (.machineCheck h)
  | .darningStart .. => .next (.ite (.darnStart h) h)
  | .carryStepDone .. => .next (.ite (.carryDone h) h)
  | .darningDone .. => .next (.ite (.darnDone h) h)
  | .fieldRepairFuseWrite => .next (.fuseWrite h)
  | .hangSnapshot .. => .next (.ite (.hangSnapshotNow h) h)
  | .hangCombine => .next (.hangCombineNow h)
  | .suspectReplay => .next (.suspectReplayNow h)
  | .suspectReplayEnd => .next (.suspectReplayEndNow h)
  | .hangVerdict => .next (.hangVerdictNow h)
  | .sensorSample .. => .next (.ite (.sensorSample h) h)
  | .governorEval => .next (.governorEval h)
  | .clockStepChangeDone .. => .next (.ite (.stepChanged h) h)
  | .firstUseHoldEnd .. => .next (.ite (.firstUseEnd h) h)
  | .droop .. => .next (.ite (.droopNow h) h)
  | .thermalTrip .. => .next (.ite (.thermalTrip h) h)
  | .thermTripRelease => .next (.tripRelease h)
  | .inrushDeferredWake => .next (.closeEnds (.inrushWake h))
  | .panelSupplyShort .. => .next (.ite (.supplyShort h) h)
  | .panelLost .. => .next (.ite (.closeEnds (.trainEnds (.panelLost h))) h)
  | .blockReset .. => .next (.trainEnds (.blockReset h))
  | .resetDrainTimeout .. => .next (.trainEnds (.drainTimeout h))
  | .resetEscalate .. => .next (.escalate h)
  | .partitionReset .. => .next (.ite (.trainEnds (.partitionReset h)) h)
  | .moduleReset => .next (.moduleResetNow h)
  | .trayPowerCycle => .next (.trayCycle h)
  | .perstAssert => .next (.perstAssert h)
  | .perstDeassert => .next (.perstRelease h)
  | .moduleResetPin => .next (.moduleResetPin h)
  | .securityViolation => .next (.securityViolation h)
  | .inputOutOfRange .. => .inputRange h
  | .powerOn => .next (.powerOn h)
  | .castOn => .next (.castOnNow h)
  | .castOnFinish => .next (.castFinish h)
  | .castOnFail .. => .next (.castOnFail h)
  | .castOnRestart => .next (.castRestart h)
  | .panelBringUp .. => .next (.ite (.bringUp h) h)
  | .panelBringUpDone .. => .next (.ite (.bringDone h) h)
  | .resumeTimeout .. => .next (.ite (.resumeTimeoutNow h) h)
  | .undefinedOpcode .. => .atRaw h
  | .undefinedCommand .. => .next (.cmdUndefined h)
  | .clearingRead .. => .clearingRead h
  | .moduleResetDeassert => .next (.moduleResetRelease h)
  | .tapReset => .next (.tapResetNow h)
  | .dynamicAddressAssignment .. => .next (.assignI3c h)
  | .msixUnmask => .next (.msixUnmask h)
  | .lockoutExpiry => .next h
  | .panelOffDone .. => .next (.ite (.trainEnds (.panelOffDone h)) h)

/-- One step from a state with the command in front keeps the invariants of the state without it. -/
theorem step {c : Instr} {rest : List Instr} (hp : s.pending = c :: rest) :
    Kept { s with pending := rest } (step s) := by
  unfold Machine.step
  rw [hp]
  exact .exec (.refl _) c

end Kept

/-- Settles O56: every command keeps the memory canonical (`Kept.step`); the tick of the empty queue leaves it alone. -/
theorem stepsKeepMemoryCanonical : Obligations.StepsKeepMemoryCanonical := by
  unfold Obligations.StepsKeepMemoryCanonical
  intro s t hs e
  cases hp : s.pending with
  | nil =>
    unfold step at e
    rw [hp] at e
    cases e
    exact (Keeps.idle (.refl s)).1 hs
  | cons c rest =>
    have hk := Kept.step hp
    rw [e] at hk
    exact hk.1 hs

end Sys2Proof.Machine
end

section
/-! SUPPORT. Right after the power-on reset every table is empty, so that every core, context, line, partition and byte
is as its default says (R29, R52, R143). -/

namespace Sys2Proof.Machine

open Sys2Proof

theorem core_reset (n : Nat) : State.reset.core n = Core.init := rfl

theorem ctxAt_reset (n k : Nat) : State.reset.ctxAt n k = Ctx.init := by
  rw [State.ctxAt, core_reset]
  rfl

theorem line_reset (n l : Nat) : State.reset.line n l = Line.zero := rfl

theorem memGet_reset (a : Nat) : memGet State.reset.mem a = memDefault := rfl

theorem part_reset (k : Nat) : State.reset.part k = Part.init := rfl

/-- Settles O57: the registers by the reset values of their blocks, the rest by the empty tables. -/
theorem resetLeaves : Obligations.ResetLeaves := by
  unfold Obligations.ResetLeaves
  refine ⟨rfl, rfl, rfl, rfl, rfl, rfl, rfl, fun n => ?cores, fun n k => ?contexts, line_reset, memGet_reset, rfl,
    fun k => ?parts, rfl⟩
  case cores =>
    rw [core_reset]
    exact ⟨rfl, rfl, rfl⟩
  case contexts =>
    rw [ctxAt_reset]
    rfl
  case parts =>
    rw [part_reset]
    rfl

end Sys2Proof.Machine
end

section
/-! SUPPORT. Packets: the packet that answers or moves stands last, with its number; the bytes that a write of a scratchpad
leaves (R128, R131, R175). -/

namespace Sys2Proof.Machine

open Sys2Proof

/-! The packets of the state. -/

theorem pid_of_packetOf {s : State} {pid : Nat} {k : Packet} (h : packetOf s pid = some k) : k.pid = pid := by
  simpa using List.find?_some h

theorem packetOf_congr {s t : State} (h : t.packets = s.packets) (pid : Nat) : packetOf t pid = packetOf s pid := by
  rw [packetOf, h, packetOf]

theorem movePacket_of_some {s : State} {pid : Nat} {k : Packet} (f : Packet → Packet) (h : packetOf s pid = some k) :
    movePacket pid f s = { s with packets := s.packets.filter (fun q => q.pid != pid) ++ [f k] } := by
  rw [movePacket, h]

/-- A packet that changes and stands behind the others is found by its number. -/
theorem packetOf_movePacket {s : State} {pid : Nat} {k : Packet} {f : Packet → Packet} (h : packetOf s pid = some k)
    (hf : (f k).pid = pid) : packetOf (movePacket pid f s) pid = some (f k) := by
  have hn : (s.packets.filter (fun q => q.pid != pid)).find? (fun q => q.pid == pid) = none := by simp
  rw [movePacket_of_some f h, packetOf, List.find?_append, hn, Option.none_or]
  simp [hf]

@[simp] theorem movePacket_mem (pid : Nat) (f : Packet → Packet) (s : State) : (movePacket pid f s).mem = s.mem := by
  unfold movePacket
  split <;> rfl

@[simp] theorem movePacket_cores (pid : Nat) (f : Packet → Packet) (s : State) : (movePacket pid f s).cores = s.cores := by
  unfold movePacket
  split <;> rfl

@[simp] theorem answer_mem (pid status : Nat) (data : List Byte) (pois : List Bool) (s : State) :
    (answer pid status data pois s).mem = s.mem := movePacket_mem _ _ _

@[simp] theorem answer_cores (pid status : Nat) (data : List Byte) (pois : List Bool) (s : State) :
    (answer pid status data pois s).cores = s.cores := movePacket_cores _ _ _

/-- An answered request is a reply with its status (R173, R193). -/
theorem packetOf_answer {s : State} {pid : Nat} {k : Packet} (status : Nat) (data : List Byte) (pois : List Bool)
    (h : packetOf s pid = some k) :
    ∃ q, packetOf (answer pid status data pois s) pid = some q ∧ q.reply = true ∧ q.status = status :=
  ⟨_, packetOf_movePacket h (show k.pid = pid from pid_of_packetOf h), rfl, rfl⟩

/-! The bytes of a scratchpad write. -/

/-- The pairs of offset and byte written in turn into the memory of core `n`. -/
def putPairs (n : Nat) (bs : List (Nat × Byte)) (m : List Host.Cell) : List Host.Cell :=
  bs.foldl (fun m b => memPut m (spdKey n b.1) b.2) m

theorem spdKey_inj {n a b : Nat} : spdKey n a = spdKey n b ↔ a = b := by
  unfold spdKey
  omega

theorem memGet_putPairs_other {n a : Nat} {bs : List (Nat × Byte)} (m : List Host.Cell)
    (h : ∀ b ∈ bs, a ≠ spdKey n b.1) : memGet (putPairs n bs m) a = memGet m a := by
  induction bs generalizing m with
  | nil => rfl
  | cons b bs ih =>
    rw [putPairs, List.foldl_cons, ← putPairs, ih _ fun c hc => h c (List.mem_cons_of_mem _ hc)]
    exact memGet_memPut_other _ _ _ _ (h b List.mem_cons_self)

/-- Where all the pairs of an offset agree, it holds their byte. -/
theorem memGet_putPairs_same {n : Nat} {bs : List (Nat × Byte)} {b : Nat × Byte} (m : List Host.Cell)
    (hv : ∀ c ∈ bs, c.1 = b.1 → c.2 = b.2) (hb : b ∈ bs) : memGet (putPairs n bs m) (spdKey n b.1) = b.2 := by
  induction bs generalizing m with
  | nil => cases hb
  | cons c bs ih =>
    have hv' : ∀ d ∈ bs, d.1 = b.1 → d.2 = b.2 := fun d hd => hv d (List.mem_cons_of_mem _ hd)
    rw [putPairs, List.foldl_cons, ← putPairs]
    by_cases h : b ∈ bs
    · exact ih _ hv' h
    · obtain rfl := (List.mem_cons.1 hb).resolve_right h
      have ho : ∀ d ∈ bs, spdKey n b.1 ≠ spdKey n d.1 := by
        intro d hd e
        have e' := (spdKey_inj.1 e).symm
        exact h (Prod.ext e' (hv' d hd e') ▸ hd)
      rw [memGet_putPairs_other _ ho]
      exact memGet_memPut_same _ _ _

theorem mem_lineList {bs : List (Nat × Byte)} {b : Nat × Byte} (h : b ∈ bs) : b.1 / 64 ∈ lineList bs := by
  have key : ∀ (l : List (Nat × Byte)) (acc : List Nat), (b ∈ l ∨ b.1 / 64 ∈ acc) →
      b.1 / 64 ∈ l.foldl (fun (acc : List Nat) b => if acc.contains (b.1 / 64) then acc else (b.1 / 64) :: acc) acc := by
    intro l
    induction l with
    | nil => exact fun acc h => h.resolve_left (by simp)
    | cons c l ih =>
      intro acc h
      rw [List.foldl_cons]
      refine ih _ ?_
      rcases h with h | h
      · rcases List.mem_cons.1 h with rfl | h
        · right
          split
          next hc => exact List.contains_iff_mem.1 hc
          · exact List.mem_cons_self
        · exact .inl h
      · right
        split
        · exact h
        · exact List.mem_cons_of_mem _ h
  exact List.mem_reverse.2 (key bs [] (.inl h))

/-- In a core without undefined contents every line's bytes are those of the memory (R53). -/
theorem undefSeed_none {s : State} {n : Nat} (l : Nat) (h : (s.core n).undef = []) : undefSeed s n l = none := by
  unfold undefSeed
  dsimp only
  rw [h]
  split <;> rfl

/-- What a write of a line does to the rest: the bytes of its pairs are written, undefined contents stay where they were,
no packet moves. -/
theorem writeLine_effect {s : State} {n : Nat} (l : Nat) (bs : List (Nat × Byte)) (pois : Bool)
    (h : (s.core n).undef = []) :
    (writeLine n l bs pois s).mem = putPairs n bs s.mem ∧ ((writeLine n l bs pois s).core n).undef = [] ∧
      (writeLine n l bs pois s).packets = s.packets := by
  obtain ⟨hm, hu, hp⟩ : (noteStore n l s).mem = s.mem ∧ ((noteStore n l s).core n).undef = [] ∧
      (noteStore n l s).packets = s.packets := by
    unfold noteStore
    split
    · exact ⟨rfl, by rw [State.core_onCore_same]; exact h, rfl⟩
    · exact ⟨rfl, h, rfl⟩
  unfold writeLine storeLine materialise
  rw [undefSeed_none l hu]
  refine ⟨?_, ?_, hp⟩
  · rw [← hm]
    rfl
  · rw [State.core_onCore_same]
    exact hu

theorem writeLines_effect {n : Nat} (bs : List (Nat × Byte)) (pois : List Nat) (ls : List Nat) (s : State)
    (h : (s.core n).undef = []) :
    let t := ls.foldl (fun s l => writeLine n l (bs.filter (fun b => b.1 / 64 == l)) (pois.contains l) s) s
    t.mem = putPairs n (ls.flatMap (fun l => bs.filter (fun b => b.1 / 64 == l))) s.mem ∧ t.packets = s.packets := by
  induction ls generalizing s with
  | nil => exact ⟨rfl, rfl⟩
  | cons l ls ih =>
    obtain ⟨hm, hu, hp⟩ := writeLine_effect l (bs.filter (fun b => b.1 / 64 == l)) (pois.contains l) h
    obtain ⟨im, ip⟩ := ih _ hu
    refine ⟨im.trans ?_, ip.trans hp⟩
    rw [hm, List.flatMap_cons, putPairs, putPairs, putPairs, List.foldl_append]

theorem spdWrite_packets {s : State} {n : Nat} (pairs : List (Nat × Byte)) (pois : List Nat) (h : (s.core n).undef = []) :
    (spdWrite n pairs pois s).packets = s.packets := (writeLines_effect _ pois _ s h).2

/-- Where no pair goes, a scratchpad write leaves the memory as it was. -/
theorem memGet_spdWrite_other {s : State} {n a : Nat} {pairs : List (Nat × Byte)} (pois : List Nat)
    (h : (s.core n).undef = []) (ha : ∀ b ∈ pairs, a ≠ spdKey n b.1) :
    memGet (spdWrite n pairs pois s).mem a = memGet s.mem a := by
  rw [spdWrite, (writeLines_effect _ pois _ s h).1]
  refine memGet_putPairs_other _ fun b hb => ?_
  obtain ⟨l, -, hb⟩ := List.mem_flatMap.1 hb
  exact ha b (List.mem_of_mem_filter (List.mem_of_mem_filter hb))

/-- Each byte within the scratchpad is written (R128). -/
theorem memGet_spdWrite_same {s : State} {n : Nat} {pairs : List (Nat × Byte)} {b : Nat × Byte} (pois : List Nat)
    (h : (s.core n).undef = []) (hv : ∀ c ∈ pairs, c.1 = b.1 → c.2 = b.2) (hb : b ∈ pairs) (hs : b.1 < spdSize) :
    memGet (spdWrite n pairs pois s).mem (spdKey n b.1) = b.2 := by
  have hf : b ∈ pairs.filter (fun b => decide (b.1 < spdSize)) := List.mem_filter.2 ⟨hb, by simpa using hs⟩
  rw [spdWrite, (writeLines_effect _ pois _ s h).1]
  refine memGet_putPairs_same _ (fun c hc => ?_) ?_
  · obtain ⟨l, -, hc⟩ := List.mem_flatMap.1 hc
    exact hv c (List.mem_of_mem_filter (List.mem_of_mem_filter hc))
  · exact List.mem_flatMap.2 ⟨b.1 / 64, mem_lineList hf, List.mem_filter.2 ⟨hf, by simp⟩⟩

theorem mem_atOff {off : Nat} {data : List Byte} {b : Nat × Byte} :
    b ∈ atOff off data ↔ ∃ i, data[i]? = some b.2 ∧ b.1 = off + i := by
  unfold atOff
  constructor
  · intro h
    obtain ⟨e, he, rfl⟩ := List.mem_map.1 h
    exact ⟨e.2, List.mem_zipIdx_iff_getElem?.1 he, rfl⟩
  · rintro ⟨i, hi, hb⟩
    exact List.mem_map.2 ⟨(b.2, i), List.mem_zipIdx_iff_getElem?.2 hi, Prod.ext hb.symm rfl⟩

/-- Bytes written at consecutive offsets of a scratchpad, and nothing else. -/
theorem memBytes_spdWrite_atOff {s : State} {n off : Nat} {data : List Byte} (pois : List Nat) (h : (s.core n).undef = [])
    (hs : off + data.length ≤ spdSize) :
    memBytes (spdWrite n (atOff off data) pois s).mem (spdKey n off) data.length = data := by
  refine List.ext_getElem (by simp [memBytes]) fun i hi hd => ?_
  have hb : (off + i, data[i]) ∈ atOff off data := mem_atOff.2 ⟨i, List.getElem?_eq_getElem hd, rfl⟩
  have hv : ∀ c ∈ atOff off data, c.1 = off + i → c.2 = data[i] := by
    intro c hc e
    obtain ⟨j, hj, hc⟩ := mem_atOff.1 hc
    obtain rfl : j = i := by omega
    exact Option.some.inj (hj.symm.trans (List.getElem?_eq_getElem hd))
  have hw := memGet_spdWrite_same pois h hv hb (by show off + i < spdSize; omega)
  simpa [memBytes, spdKey, Nat.add_assoc] using hw

theorem memGet_spdWrite_atOff_other {s : State} {n off a : Nat} {data : List Byte} (pois : List Nat)
    (h : (s.core n).undef = []) (ha : a < spdKey n off ∨ spdKey n off + data.length ≤ a) :
    memGet (spdWrite n (atOff off data) pois s).mem a = memGet s.mem a := by
  refine memGet_spdWrite_other pois h fun b hb => ?_
  obtain ⟨i, hi, e⟩ := mem_atOff.1 hb
  obtain ⟨hi, -⟩ := List.getElem?_eq_some_iff.1 hi
  rw [e]
  unfold spdKey at ha ⊢
  omega

end Sys2Proof.Machine
end

section
/-! SUPPORT. A request at its scratchpad, in the order of R32; the hop of a request of class XY and the choice of an output
(R25, R32, R174, R175, R178). -/

namespace Sys2Proof.Machine

open Sys2Proof

/-- A target in a scratchpad lies within it (R29). -/
theorem targetOf_spd_le {a len n off : Nat} (h : targetOf a len = some (.spd n off)) : off + len ≤ spdSize := by
  unfold targetOf at h
  split at h
  · split at h
    next hc =>
      cases h
      exact hc.2.2.2
    · cases h
  · split at h <;> cases h
  · split at h <;> cases h
  · cases h

/-- A scratchpad range and its first byte have the same target; an empty range at the end has none. -/
theorem targetOf_spd_one {a len n off : Nat} (h : targetOf a len = some (.spd n off)) :
    targetOf a 1 = none ∨ targetOf a 1 = some (.spd n off) := by
  unfold targetOf at h ⊢
  split at h
  · split at h
    · cases h
      split
      · exact .inr rfl
      · exact .inl rfl
    · cases h
  · split at h <;> cases h
  · split at h <;> cases h
  · cases h

section
variable {s : State} {pid n off : Nat} {k : Packet}

/-- A request that has arrived at a scratchpad of a panel whose converters run, which is not being carried and that nothing
sent before stands in the way of, is served or refused there. -/
theorem remoteNow_spd (hk : packetOf s pid = some k) (hr : k.reply = false) (hp : k.pos = .there)
    (ht : targetOf k.dst k.size = some (.spd n off)) (hc : beingCarried s n = false) (ho : overtakes s k = false)
    (hs : (s.panel (panelOf n)).shorted = false) : remoteNow pid s = serveSpd k n off s := by
  have hq : carriedTarget s k.dst k.size = false := by
    rw [carriedTarget, ht]
    exact hc
  have hn : remoteNow pid s = remoteRequest pid s := by
    rcases targetOf_spd_one ht with e | e <;> simp [remoteNow, hk, e, hq, ho, Target.panel, hs]
  rw [hn, remoteRequest, hk]
  dsimp only
  rw [hr, hp, ht]

/-- What no row of R32 refuses and names the epoch is written, and answered OK. -/
theorem serveSpd_write (hw : ownAccess k n = false) (h0 : spdStatus s n off k.size (decide (k.op ≠ .read)) = 0)
    (he : k.epoch = epochOf s n) (hop : k.op = .write) :
    serveSpd k n off s =
      answer k.pid 0 [] [] (spdWrite n (atOff off k.data) (poisonedLines off k.data.length k.pois) s) := by
  have h0 : spdStatus s n off k.size true = 0 := by
    rw [← h0, hop]
    rfl
  simp [serveSpd, hw, h0, he, hop]

/-- What a row of R32 refuses, or what names another epoch, is answered with its status and nothing else changes. -/
theorem serveSpd_refused {st : Nat} (hk : packetOf s pid = some k) (hw : ownAccess k n = false)
    (hst : (if (spdStatus s n off k.size (decide (k.op ≠ .read)) = 0 ∨ spdStatus s n off k.size (decide (k.op ≠ .read)) = 0x0F) ∧
      k.epoch ≠ epochOf s n then 0x07 else spdStatus s n off k.size (decide (k.op ≠ .read))) = st) (h : st ≠ 0) :
    ∃ q, packetOf (serveSpd k n off s) pid = some q ∧ q.reply = true ∧ q.status = st ∧ (serveSpd k n off s).mem = s.mem ∧
      (serveSpd k n off s).cores = s.cores := by
  obtain ⟨q, hq, hr, he⟩ := packetOf_answer st [] [] hk
  obtain rfl := pid_of_packetOf hk
  unfold serveSpd
  dsimp only
  simp only [hw, Bool.false_eq_true, if_false]
  rw [hst]
  split
  · exact ⟨q, hq, hr, he, answer_mem _ _ _ _ _, answer_cores _ _ _ _ _⟩
  · exact ⟨q, hq, hr, he, answer_mem _ _ _ _ _, answer_cores _ _ _ _ _⟩

end

/-! The next router of a request of class XY (R178): first along the row, then along the column. -/

section
variable {n m : Nat}

theorem coreAt_cxOf_cyOf (n : Nat) : cyOf n * 184 + cxOf n = n := by
  unfold cxOf cyOf
  omega

theorem cxOf_lt (n : Nat) : cxOf n < 184 := Nat.mod_lt _ (by decide)

theorem meshNext_east (h : cxOf n < cxOf m) : meshNext true n m = n + 1 ∧ dirOf n (n + 1) = 1 := by
  have hn := coreAt_cxOf_cyOf n
  have hm := cxOf_lt m
  have hx : cxOf n < cxOf (n + 1) ∧ ¬ cyOf (n + 1) < cyOf n := by
    unfold cxOf cyOf at *
    omega
  constructor
  · rw [meshNext, if_pos rfl, if_pos h.ne, toward, if_pos h, coreAt]
    omega
  · rw [dirOf, if_neg hx.2, if_pos hx.1]

theorem meshNext_west (h : cxOf m < cxOf n) : meshNext true n m = n - 1 ∧ dirOf n (n - 1) = 3 := by
  have hn := coreAt_cxOf_cyOf n
  have hx : ¬ cxOf n < cxOf (n - 1) ∧ cyOf (n - 1) = cyOf n := by
    unfold cxOf cyOf at *
    omega
  constructor
  · rw [meshNext, if_pos rfl, if_pos h.ne', toward, if_neg h.not_gt, if_pos h, coreAt]
    omega
  · rw [dirOf, hx.2, if_neg (Nat.lt_irrefl _), if_neg hx.1, if_neg (Nat.lt_irrefl _)]

theorem meshNext_south (hx : cxOf n = cxOf m) (h : cyOf n < cyOf m) :
    meshNext true n m = n + 184 ∧ dirOf n (n + 184) = 2 := by
  have hn := coreAt_cxOf_cyOf n
  have hs : cxOf (n + 184) = cxOf n ∧ cyOf (n + 184) = cyOf n + 1 := by
    unfold cxOf cyOf
    omega
  constructor
  · rw [meshNext, if_pos rfl, if_neg (not_not.2 hx), toward, if_pos h, coreAt]
    omega
  · rw [dirOf, hs.1, hs.2, if_neg (by omega), if_neg (Nat.lt_irrefl _), if_pos (Nat.lt_succ_self _)]

theorem meshNext_north (hx : cxOf n = cxOf m) (h : cyOf m < cyOf n) :
    meshNext true n m = n - 184 ∧ dirOf n (n - 184) = 0 := by
  have hn := coreAt_cxOf_cyOf n
  have hs : cyOf (n - 184) < cyOf n := by
    unfold cyOf at *
    omega
  constructor
  · rw [meshNext, if_pos rfl, if_neg (not_not.2 hx), toward, if_neg h.not_gt, if_pos h, coreAt]
    omega
  · rw [dirOf, if_pos hs]

end

section
variable {s : State} {k : Packet} {n m off : Nat}

/-- The hop of a request of class XY at a router: to its core, or to the next router where the panel there forwards. -/
theorem hopOf_xy (hr : k.reply = false) (hp : k.pos = .mesh n) (hl : k.lost = false) (hx : k.route = .xy)
    (hs : stands s (panelOf n) = false) (ht : targetOf k.dst 1 = some (.spd m off)) :
    hopOf s k =
      if n = m then .go 4 .there 0
      else
        let nx := meshNext true n m
        let q := panelOf nx
        if noTransit s q then (if k.goal = q then .ends (dirOf n nx) else .hold)
        else if (s.panel q).shorted then .wait
        else .go (dirOf n nx) (.mesh nx) (1 + (dirOf n nx + 2) % 4) := by
  rw [hopOf, hl, if_neg (by decide), hp]
  dsimp only
  rw [hs, if_neg (by decide), meshHop, hr, ht, hx]
  rfl

theorem hopOf_home (hr : k.reply = false) (hp : k.pos = .mesh n) (hl : k.lost = false) (hx : k.route = .xy)
    (hs : stands s (panelOf n) = false) (ht : targetOf k.dst 1 = some (.spd n off)) : hopOf s k = .go 4 .there 0 := by
  rw [hopOf_xy hr hp hl hx hs ht, if_pos rfl]

theorem hopOf_next {nx d : Nat} (hr : k.reply = false) (hp : k.pos = .mesh n) (hl : k.lost = false) (hx : k.route = .xy)
    (hs : stands s (panelOf n) = false) (ht : targetOf k.dst 1 = some (.spd m off)) (hm : n ≠ m)
    (hd : meshNext true n m = nx ∧ dirOf n nx = d) (hq : stands s (panelOf nx) = false) :
    hopOf s k = .go d (.mesh nx) (1 + (d + 2) % 4) := by
  obtain ⟨hq, hb⟩ := Bool.or_eq_false_iff.1 hq
  rw [hopOf_xy hr hp hl hx hs ht, if_neg hm]
  dsimp only
  rw [hd.1, hd.2, hq, hb, if_neg (by decide), if_neg (by decide)]

theorem hopOf_hold {nx d : Nat} (hr : k.reply = false) (hp : k.pos = .mesh n) (hl : k.lost = false) (hx : k.route = .xy)
    (hs : stands s (panelOf n) = false) (ht : targetOf k.dst 1 = some (.spd m off)) (hm : n ≠ m)
    (hd : meshNext true n m = nx ∧ dirOf n nx = d) (hq : noTransit s (panelOf nx) = true) (hg : panelOf m ≠ panelOf nx) :
    hopOf s k = .hold := by
  have hgoal : k.goal = panelOf m := by rw [Packet.goal, hr, ht]; rfl
  rw [hopOf_xy hr hp hl hx hs ht, if_neg hm]
  dsimp only
  rw [hd.1, hq, if_pos rfl, hgoal, if_neg hg]

/-! Who wins an output (R175). -/

theorem winsOutput_reply (hr : k.reply = false) {out : Nat} {q : Packet} (hq : q ∈ s.packets) (hqr : q.reply = true)
    (hp : q.pos = k.pos) (hh : headOf s q = true) (ho : (hopOf s q).out = some out) : winsOutput s k out = false := by
  have hw : (s.packets.filter (fun q => shareOut q.pos k.pos out && headOf s q && (hopOf s q).out == some out)).any (·.reply)
      = true := List.any_eq_true.2 ⟨q, List.mem_filter.2 ⟨hq, by simp [shareOut, hp, hh, ho]⟩, hqr⟩
  simp [winsOutput, hr, hw]

theorem winsOutput_red (hr : k.reply = false) (hp : k.pos = .mesh n) {out i : Nat} (hi : i < 16)
    (hred : redOut s n i = some out) : winsOutput s k out = false := by
  have hw : (List.range 16).any (fun i => redOut s n i == some out) = true :=
    List.any_eq_true.2 ⟨i, List.mem_range.2 hi, by simp [hred]⟩
  simp only [winsOutput, hr, hp, hw]
  simp

theorem winsOutput_alone (hr : k.reply = false) (hp : k.pos = .mesh n) {out : Nat} (hh : headOf s k = true)
    (hu : ∀ q ∈ s.packets, shareOut q.pos k.pos out = true → headOf s q = true → (hopOf s q).out = some out → q = k)
    (hred : ∀ i, i < 16 → redOut s n i ≠ some out) : winsOutput s k out = true := by
  have hw : ∀ q ∈ s.packets.filter (fun q => shareOut q.pos k.pos out && headOf s q && (hopOf s q).out == some out),
      q = k := by
    intro q hq
    obtain ⟨hq, h⟩ := List.mem_filter.1 hq
    simp only [Bool.and_eq_true, beq_iff_eq] at h
    exact hu q hq h.1.1 h.1.2 h.2
  have hn : (List.range 16).any (fun i => redOut s n i == some out) = false :=
    List.any_eq_false.2 fun i hi => by simpa using hred i (List.mem_range.1 hi)
  have ha : (s.packets.filter (fun q => shareOut q.pos k.pos out && headOf s q && (hopOf s q).out == some out)).any (·.reply)
      = false := List.any_eq_false.2 fun q hq => by rw [hw q hq, hr]; decide
  have hl : ((s.packets.filter (fun q => shareOut q.pos k.pos out && headOf s q && (hopOf s q).out == some out)).filter
      (fun q => q.reply == k.reply)).all (fun q => decide (turnsLeft s out k ≤ turnsLeft s out q)) = true :=
    List.all_eq_true.2 fun q hq => by rw [hw q (List.mem_of_mem_filter hq)]; simp
  unfold winsOutput
  dsimp only
  rw [ha, hl, hh, hr, hp]
  dsimp only
  rw [hn]
  rfl

end

section
variable {s : State} {k : Packet} {pid n out inp : Nat} {q : Pos}

/-- A packet at a router that wins its output moves on, behind what is there. -/
theorem meshForward_go (hk : packetOf s pid = some k) (hp : k.pos = .mesh n) (hh : hopOf s k = .go out q inp)
    (hw : winsOutput s k out = true) : (meshForward pid s).mem = s.mem ∧
      (meshForward pid s).packets = s.packets.filter (fun p => p.pid != pid) ++ [{ k with pos := q, inp := inp }] := by
  have hk' : packetOf (served k out s) pid = some k := hk
  rw [meshForward, hk]
  dsimp only
  rw [hh]
  dsimp only
  rw [if_pos hw, hp]
  dsimp only
  rw [movePacket_of_some _ hk']
  exact ⟨rfl, rfl⟩

theorem meshForward_stays (hk : packetOf s pid = some k) (hh : hopOf s k = .go out q inp) (hw : winsOutput s k out = false) :
    meshForward pid s = s := by
  rw [meshForward, hk]
  dsimp only
  rw [hh]
  dsimp only
  rw [hw, if_neg (by decide)]

theorem meshForward_hold (hk : packetOf s pid = some k) (hp : k.pos = .mesh n) (hh : hopOf s k = .hold)
    (hd : headOf s k = true) (hs : (s.panel (panelOf n)).hub.stale = true) :
    meshForward pid s = onPacket pid (fun k => { k with lost := true }) s := by
  rw [meshForward, hk]
  dsimp only
  rw [hh]
  dsimp only
  rw [hd, hp, if_neg (by decide), Pos.panel, Option.getD_some, hs, Bool.true_or, if_pos rfl]

end

/-- Settles O25: at its scratchpad by the order of R32, on its way by the hop of its class and the choice at the output. -/
theorem requestsAndPacketsTravel : Obligations.RequestsAndPacketsTravel := by
  intro pid n off s k hk hr
  refine ⟨fun hp ht hc hw ho hs => ?atScratchpad, ?shorted, fun m o hp hl hx hst ht => ?onItsWay⟩
  case atScratchpad =>
    have hnow := remoteNow_spd hk hr hp ht hc ho hs
    refine ⟨fun h0 he hop hlen hu => ?served, fun hne he => ?refused, fun h0 he => ?epoch⟩
    case served =>
      rw [serveSpd_write hw h0 he hop, pid_of_packetOf hk] at hnow
      have hk' := (packetOf_congr (spdWrite_packets (atOff off k.data) (poisonedLines off k.data.length k.pois) hu) pid).trans hk
      obtain ⟨q, hq, hqr, hqs⟩ := packetOf_answer 0 [] [] hk'
      refine ⟨_, q, congrArg goes hnow, hq, hqr, hqs, ?_, fun a ha => ?_⟩
      · rw [answer_mem, ← hlen]
        exact memBytes_spdWrite_atOff _ hu (hlen ▸ targetOf_spd_le ht)
      · rw [answer_mem]
        exact memGet_spdWrite_atOff_other _ hu (hlen ▸ ha)
    case refused =>
      obtain ⟨q, hq, hqr, hqs, hm, hco⟩ := serveSpd_refused hk hw (if_neg fun h => h.2 he) hne
      exact ⟨_, q, congrArg goes hnow, hq, hqr, hqs, hm, hco⟩
    case epoch =>
      obtain ⟨q, hq, hqr, hqs, hm, -⟩ := serveSpd_refused hk hw (if_pos ⟨.inl h0, he⟩) (by decide)
      exact ⟨_, q, congrArg goes hnow, hq, hqr, hqs, hm⟩
  case shorted =>
    intro ht hs
    refine congrArg goes (a₁ := remoteNow pid s) ?_
    simp [remoteNow, hk, ht, Target.panel, hs]
  case onItsWay =>
    have goesTo {out inp : Nat} {q : Pos} (hh : hopOf s k = .go out q inp) :
        (winsOutput s k out = true → ∃ t inp, exec (.meshForward pid) s = goes t ∧ t.mem = s.mem ∧
          t.packets = s.packets.filter (fun p => p.pid != pid) ++ [{ k with pos := q, inp := inp }]) ∧
        (winsOutput s k out = false → exec (.meshForward pid) s = goes s) ∧
        ((∃ q ∈ s.packets, q.reply = true ∧ q.pos = k.pos ∧ headOf s q = true ∧ (hopOf s q).out = some out) →
          winsOutput s k out = false) ∧
        ((∃ i, i < 16 ∧ redOut s n i = some out) → winsOutput s k out = false) ∧
        (headOf s k = true →
          (∀ q ∈ s.packets, shareOut q.pos k.pos out = true → headOf s q = true → (hopOf s q).out = some out → q = k) →
          (∀ i, i < 16 → redOut s n i ≠ some out) → winsOutput s k out = true) :=
      ⟨fun h => ⟨_, inp, rfl, meshForward_go hk hp hh h⟩, fun h => congrArg goes (meshForward_stays hk hh h),
        fun ⟨_, hq, hqr, hqp, hd, hout⟩ => winsOutput_reply hr hq hqr hqp hd hout,
        fun ⟨_, hi, h⟩ => winsOutput_red hr hp hi h, winsOutput_alone hr hp⟩
    have hne : ∀ {f : Nat → Nat}, f n ≠ f m → n ≠ m := fun h e => h (e ▸ rfl)
    refine ⟨?home, ?east, ?west, ?south, ?north, ?held⟩
    case home =>
      rintro rfl
      exact goesTo (hopOf_home hr hp hl hx hst ht)
    case east => exact fun h hq => goesTo (hopOf_next hr hp hl hx hst ht (hne h.ne) (meshNext_east h) hq)
    case west => exact fun h hq => goesTo (hopOf_next hr hp hl hx hst ht (hne h.ne') (meshNext_west h) hq)
    case south => exact fun hc h hq => goesTo (hopOf_next hr hp hl hx hst ht (hne h.ne) (meshNext_south hc h) hq)
    case north => exact fun hc h hq => goesTo (hopOf_next hr hp hl hx hst ht (hne h.ne') (meshNext_north hc h) hq)
    case held =>
      intro h hq hg hd hs
      have hh := hopOf_hold hr hp hl hx hst ht (hne h.ne) (meshNext_east h) hq hg
      exact ⟨_, congrArg goes (meshForward_hold hk hp hh hd hs), rfl⟩

end Sys2Proof.Machine
end

section
/-! SUPPORT. The hub of a panel and its stack: what an update of one leaves of the other, and the requests that a hub holds
(R162 to R164). -/

namespace Sys2Proof.Machine

open Sys2Proof

section
variable (s : State) (p : Nat)

@[simp] theorem panel_onHub (f : Hub → Hub) : (s.onHub p f).panel p = { s.panel p with hub := f (s.panel p).hub } :=
  State.panel_onPanel_same _ _ _

@[simp] theorem panel_onStack (f : Stack → Stack) : (s.onStack p f).panel p = { s.panel p with stack := f (s.stack p) } :=
  State.panel_onPanel_same _ _ _

@[simp] theorem stack_onHub (f : Hub → Hub) : (s.onHub p f).stack p = s.stack p := by
  rw [State.stack, panel_onHub, State.stack]

@[simp] theorem stack_onStack (f : Stack → Stack) : (s.onStack p f).stack p = f (s.stack p) := by
  rw [State.stack, panel_onStack]

theorem attend_panel : (attend s).panel p = s.panel p := by
  unfold attend msix
  split <;> rfl

theorem logErr_panel (severity cls unit status d0 d1 : Nat) : (logErr severity cls unit status d0 d1 s).panel p = s.panel p := by
  have h : (if severity = 2 then attend s else s).panel p = s.panel p := by
    split
    · exact attend_panel s p
    · rfl
  unfold logErr
  dsimp only
  split <;> exact h

end

/-- A counter of `w` bits stops at its greatest value (R7). -/
theorem inc_eq_min (w v : Nat) : inc w v = min (2 ^ w - 1) (v + 1) := Nat.min_comm _ _

/-! Arrival at a hub. -/

section
variable {s : State} {pid p off : Nat} {k : Packet}

/-- A request that has reached its hub and that nothing holds up is tracked or answered. -/
theorem hubArrive_eq (hk : packetOf s pid = some k) (hr : k.reply = false) (hp : k.pos = .there)
    (ht : targetOf k.dst k.size = some (.stk p off)) (hs : (s.panel p).shorted = false)
    (hw : ∀ q ∈ (s.panel p).hub.waiting, q.pid ≠ pid) (hm : ∀ e ∈ (s.stack p).partner, e.pid = pid → e.kind = .rebuild)
    (ho : overtakes s k = false) :
    hubArrive pid s =
      if stackStatus s p off k = 0x06 then countAbsent p (answer pid (stackStatus s p off k) [] [] s)
      else if stackStatus s p off k ≠ 0 then answer pid (stackStatus s p off k) [] [] s
      else if 16 * (s.panel p).hub.split.of (classAt k p) < entriesOf s p (classAt k p) + unitsOf off k.size ∨
          1024 < entriesAll s p + unitsOf off k.size then
        answer pid 0x0D [] [] (s.onHub p (fun H => { H with
          refused := Tab.put 0 H.refused (classAt k p) (inc 16 (Tab.get 0 H.refused (classAt k p))) }))
      else
        s.onHub p (fun H => { H with
          waiting := H.waiting ++ [{ pid := pid, cls := classAt k p, unit := off / 512, left := unitsOf off k.size, fresh := true,
                                     late := false, counted := false, secs := [], data := [], pois := [], status := 0 }] }) := by
  have hwa : (s.panel p).hub.waiting.any (fun q => q.pid == pid) = false :=
    List.any_eq_false.2 fun q hq => by simpa using hw q hq
  have hpa : owesPartner (s.stack p) pid = false :=
    List.any_eq_false.2 fun e he => by simpa using hm e he
  rw [hubArrive, hk]
  dsimp only
  rw [hr, hp, ht]
  dsimp only
  rw [hwa, hs, hpa, ho]
  rfl

end

/-- Without a reply on its way the entries of a class are those of the requests that wait (R164). -/
theorem entriesOf_of_requests {s : State} (p cls : Nat) (h : ∀ m ∈ s.packets, m.reply = false) :
    entriesOf s p cls = (((s.panel p).hub.waiting.filter (fun q => q.cls == cls)).map (HubReq.entries s)).sum := by
  have hn : s.packets.filter (fun k => leaving p k && classAt k p == cls) = [] :=
    List.filter_eq_nil_iff.2 fun m hm => by simp [leaving, h m hm]
  rw [entriesOf, hn, List.map_nil, List.sum_nil, Nat.add_zero]

end Sys2Proof.Machine
end

section
/-! SUPPORT. The grant of a unit of a read: the eight sectors of the unit come in turn into the request that waits, and
nothing else of the hub changes (R162, R163, R201). -/

namespace Sys2Proof.Machine

open Sys2Proof

/-- A place behind all those of a table is listed last. -/
theorem Tab.set_eq_append {α : Type} {t : Tab α} {k : Nat} (v : α) (h : ∀ e ∈ t, e.1 < k) : Tab.set t k v = t ++ [(k, v)] := by
  induction t with
  | nil => rfl
  | cons e t ih =>
    have he := h e List.mem_cons_self
    rw [Tab.set, if_neg he.not_gt, if_neg he.ne', ih fun x hx => h x (List.mem_cons_of_mem _ hx), List.cons_append]

/-- In `t` the hub of panel `p` is that of `s`, and so is what says whether and since when the stack is active. -/
def SameHub (p : Nat) (s t : State) : Prop :=
  (t.panel p).hub = (s.panel p).hub ∧ (t.stack p).power = (s.stack p).power ∧ (t.stack p).lastUse = (s.stack p).lastUse ∧
    (t.stack p).mirrored = (s.stack p).mirrored

section
variable {s : State} {p : Nat}

theorem SameHub.refl : SameHub p s s := ⟨rfl, rfl, rfl, rfl⟩

theorem SameHub.of_panel {t : State} (h : t.panel p = s.panel p) : SameHub p s t := by
  unfold SameHub State.stack
  rw [h]
  exact ⟨rfl, rfl, rfl, rfl⟩

theorem SameHub.trans {t u : State} (h : SameHub p s t) (k : SameHub p t u) : SameHub p s u := by
  obtain ⟨h₁, h₂, h₃, h₄⟩ := h
  obtain ⟨k₁, k₂, k₃, k₄⟩ := k
  exact ⟨k₁.trans h₁, k₂.trans h₂, k₃.trans h₃, k₄.trans h₄⟩

theorem SameHub.onStack {f : Stack → Stack} (hp : (f (s.stack p)).power = (s.stack p).power)
    (hl : (f (s.stack p)).lastUse = (s.stack p).lastUse) (hm : (f (s.stack p)).mirrored = (s.stack p).mirrored) :
    SameHub p s (s.onStack p f) := by
  unfold SameHub
  rw [panel_onStack, stack_onStack]
  exact ⟨rfl, hp, hl, hm⟩

/-- Where no stack is mirrored there is no other copy (R208, R209). -/
theorem copyAt_none (x : Nat) (h : (s.stack p).mirrored = false) : copyAt s p x = none := by
  rw [copyAt, h]
  rfl

/-- A sector without another copy is read, whatever its check bits say, and the hub stays. -/
theorem readSector_some (x source : Nat) (raw : Bool) (h : (s.stack p).mirrored = false) :
    ∃ r, (readSector p x source s raw).1 = some r ∧ SameHub p s (readSector p x source s raw).2 := by
  unfold readSector
  dsimp only
  split
  · exact ⟨_, rfl, .refl⟩
  · exact ⟨_, rfl, .onStack rfl rfl rfl⟩
  · exact ⟨_, rfl, .onStack rfl rfl rfl⟩
  · rw [copyAt_none x h]
    refine ⟨_, rfl, ?_⟩
    refine .trans ?_ (.of_panel (logErr_panel _ _ _ _ _ _ _ _))
    exact .trans (t := putSector p _ _ _ s) (.onStack rfl rfl rfl) (.onStack rfl rfl rfl)

/-- `s` is as `s₀` at the hub of panel `p`, but for the request `w` that waits there between `pre` and `post`. -/
def WaitsWith (p : Nat) (s₀ : State) (pre post : List HubReq) (w : HubReq) (s : State) : Prop :=
  SameHub p (s₀.onHub p fun H => { H with waiting := pre ++ [w] ++ post }) s

variable {s₀ : State} {pre post : List HubReq} {w : HubReq}

theorem WaitsWith.waiting (h : WaitsWith p s₀ pre post w s) : (s.panel p).hub.waiting = pre ++ [w] ++ post := by
  rw [h.1, panel_onHub]

theorem WaitsWith.mirrored (h : WaitsWith p s₀ pre post w s) : (s.stack p).mirrored = (s₀.stack p).mirrored := by
  obtain ⟨-, -, -, h⟩ := h
  rw [h, stack_onHub]

theorem WaitsWith.trans {t : State} (h : WaitsWith p s₀ pre post w s) (k : SameHub p s t) : WaitsWith p s₀ pre post w t :=
  SameHub.trans h k

/-- The first request of its number is found. -/
theorem waitingAt_of_waiting {pid : Nat} (h : (s.panel p).hub.waiting = pre ++ [w] ++ post) (hw : w.pid = pid)
    (hpre : ∀ v ∈ pre, v.pid ≠ pid) : waitingAt s p pid = some w := by
  have hn : pre.find? (fun v => v.pid == pid) = none := List.find?_eq_none.2 fun v hv => by simpa using hpre v hv
  rw [waitingAt, h, List.append_assoc, List.find?_append, hn]
  simp [hw]

/-- A change of the request of a number changes no other. -/
theorem map_waiting {pid : Nat} (f : HubReq → HubReq) (hw : w.pid = pid) (ho : ∀ v ∈ pre ++ post, v.pid ≠ pid) :
    (pre ++ [w] ++ post).map (fun v => if v.pid = pid then f v else v) = pre ++ [f w] ++ post := by
  have hk : ∀ l : List HubReq, (∀ v ∈ l, v.pid ≠ pid) → l.map (fun v => if v.pid = pid then f v else v) = l := fun l hl =>
    (List.map_congr_left fun v hv => if_neg (hl v hv)).trans (List.map_id l)
  rw [List.map_append, List.map_append, hk pre fun v hv => ho v (List.mem_append_left _ hv),
    hk post fun v hv => ho v (List.mem_append_right _ hv), List.map_singleton, if_pos hw]

theorem WaitsWith.onWaiting {pid : Nat} (f : HubReq → HubReq) (h : WaitsWith p s₀ pre post w s) (hw : w.pid = pid)
    (ho : ∀ v ∈ pre ++ post, v.pid ≠ pid) : WaitsWith p s₀ pre post (f w) (onWaiting p pid f s) := by
  obtain ⟨h₁, h₂, h₃, h₄⟩ := h
  unfold WaitsWith SameHub Machine.onWaiting
  simp only [panel_onHub, stack_onHub] at *
  refine ⟨?_, h₂, h₃, h₄⟩
  rw [h₁]
  dsimp only
  rw [map_waiting f hw ho]

/-- A sector that is not the last of its unit is kept with the request. -/
theorem sectorCame_early {pid i : Nat} (k : Packet) (r : SecRd) (h : WaitsWith p s₀ pre post w s) (hw : w.pid = pid)
    (ho : ∀ v ∈ pre ++ post, v.pid ≠ pid) (hl : (Tab.set w.secs i r).length ≠ 8) :
    WaitsWith p s₀ pre post { w with secs := Tab.set w.secs i r } (sectorCame p w k i r s) := by
  unfold sectorCame
  dsimp only
  rw [if_neg fun c => hl c.1, hw]
  exact h.onWaiting (fun _ => _) hw ho

/-- With its last sector a unit of a read is done, and a read of more units goes on to the next. -/
theorem readDone_waits {q : HubReq} {k : Packet} (h : WaitsWith p s₀ pre post w s) (hq : w.pid = q.pid)
    (ho : ∀ v ∈ pre ++ post, v.pid ≠ q.pid) (hu : 1 < q.left) :
    ∃ v, WaitsWith p s₀ pre post v (readDone p q k s) ∧ v.pid = q.pid ∧ v.unit = q.unit + 1 ∧ v.left = q.left - 1 ∧
      v.counted = q.counted := by
  unfold readDone
  split
  extract_lets bs mine st t
  have ht : SameHub p s t := by
    unfold t
    split
    · split
      · exact .of_panel rfl
      · exact .refl
    · exact .refl
  unfold unitDone
  rw [if_pos hu]
  exact ⟨_, (h.trans ht).onWaiting (fun _ => _) hq ho, rfl, rfl, rfl, rfl⟩

/-- What comes of sector `i` of the unit in progress of the request `pid`. -/
def sectorStep (p pid : Nat) (k : Packet) (s : State) (i : Nat) : State :=
  match waitingAt s p pid with
  | none => s
  | some q =>
    let x := q.unit * 512 + 64 * i
    let (r, s) := readSector p x (readSource k) s k.raw
    match r, copyAt s p x with
    | some r, _ => sectorCame p q k i r s
    | none, some m =>
      let c : MirrorReq := { pid := pid, kind := .copy, off := x, data := [], pois := [], sent := none }
      sendPartner p m c (s.onStack p (fun K => { K with partner := K.partner ++ [c] }))
    | none, none => s

theorem readUnit_eq_foldl (p pid : Nat) (k : Packet) (s : State) :
    readUnit p pid k s = (List.range 8).foldl (sectorStep p pid k) s := rfl

theorem sectorStep_came {k : Packet} (i : Nat) (h : WaitsWith p s₀ pre post w s) (ho : ∀ v ∈ pre ++ post, v.pid ≠ w.pid)
    (hm : (s₀.stack p).mirrored = false) :
    ∃ r t, WaitsWith p s₀ pre post w t ∧ sectorStep p w.pid k s i = sectorCame p w k i r t := by
  obtain ⟨r, hr, hs⟩ := readSector_some (s := s) (p := p) (w.unit * 512 + 64 * i) (readSource k) k.raw (h.mirrored.trans hm)
  refine ⟨r, _, h.trans hs, ?_⟩
  unfold sectorStep
  rw [waitingAt_of_waiting h.waiting rfl fun v hv => ho v (List.mem_append_left _ hv)]
  dsimp only
  rw [hr]

/-- Before the last sector of the unit each is kept with the request, in their order. -/
theorem sectors_waits {k : Packet} (h : WaitsWith p s₀ pre post w s) (hs : w.secs = []) (ho : ∀ v ∈ pre ++ post, v.pid ≠ w.pid)
    (hm : (s₀.stack p).mirrored = false) (j : Nat) (hj : j < 8) :
    ∃ S : Tab SecRd, S.length = j ∧ (∀ e ∈ S, e.1 < j) ∧
      WaitsWith p s₀ pre post { w with secs := S } ((List.range j).foldl (sectorStep p w.pid k) s) := by
  induction j with
  | zero => exact ⟨[], rfl, by simp, by rwa [← hs]⟩
  | succ j ih =>
    obtain ⟨S, hl, hlt, hw⟩ := ih (by omega)
    obtain ⟨r, t, ht, e⟩ := sectorStep_came (k := k) j hw ho hm
    have hS := Tab.set_eq_append r hlt
    refine ⟨Tab.set S j r, by rw [hS]; simp [hl], fun x hx => ?_, ?_⟩
    · rw [hS] at hx
      rcases List.mem_append.1 hx with hx | hx
      · exact (hlt x hx).trans (Nat.lt_succ_self j)
      · rw [List.mem_singleton.1 hx]
        exact Nat.lt_succ_self j
    · rw [List.range_succ, List.foldl_append, List.foldl_cons, List.foldl_nil]
      have hne : (Tab.set S j r).length ≠ 8 := by
        rw [hS, List.length_append, hl, List.length_singleton]
        omega
      exact e ▸ sectorCame_early k r ht rfl ho hne

/-- A unit of a read is read whole: the request goes on to the next unit. -/
theorem readUnit_waits {k : Packet} (h : WaitsWith p s₀ pre post w s) (hs : w.secs = []) (ho : ∀ v ∈ pre ++ post, v.pid ≠ w.pid)
    (hm : (s₀.stack p).mirrored = false) (hk : k.op = .read) (hu : 1 < w.left) :
    ∃ v, WaitsWith p s₀ pre post v (readUnit p w.pid k s) ∧ v.pid = w.pid ∧ v.unit = w.unit + 1 ∧ v.left = w.left - 1 ∧
      v.counted = w.counted := by
  obtain ⟨S, hl, hlt, hw⟩ := sectors_waits (k := k) h hs ho hm 7 (by decide)
  obtain ⟨r, t, ht, e⟩ := sectorStep_came (k := k) 7 hw ho hm
  have h8 : (Tab.set S 7 r).length = 8 := by rw [Tab.set_eq_append r hlt, List.length_append, hl, List.length_singleton]
  have e' : readUnit p w.pid k s = sectorCame p { w with secs := S } k 7 r t := by
    rw [readUnit_eq_foldl, List.range_succ, List.foldl_append, List.foldl_cons, List.foldl_nil]
    exact e
  rw [e']
  unfold sectorCame
  dsimp only
  rw [if_pos ⟨h8, hk⟩]
  exact readDone_waits ht rfl ho hu

end

end Sys2Proof.Machine
end

section
/-! SUPPORT. The choice of a hub among the requests that wait, and the grant of a unit (R162, R163). -/

namespace Sys2Proof.Machine

open Sys2Proof

/-- The state in which a hub grants: a new window takes the split that waits for it (R166). -/
def openWindow (p : Nat) (s : State) : State :=
  if (s.panel p).hub.grants = 0 then s.onHub p (fun H => { H with split := H.next.getD H.split, next := none }) else s

/-- A request's class is within its share of the window. -/
def inShare (p : Nat) (s : State) (q : HubReq) : Bool :=
  decide (Tab.get 0 (s.panel p).hub.used q.cls < (s.panel p).hub.split.of q.cls)

/-- The request that the hub grants: the oldest within its share whose unit is free, else the oldest whose unit is free. -/
def grantChoice (p : Nat) (s : State) : Option HubReq :=
  let cand := (s.panel p).hub.waiting.filter (fun q => !unitBusy s p q)
  (cand.find? (inShare p s)).or cand.head?

/-- The exhausted share of its class makes, or has made, a request late. -/
def isLate (p : Nat) (s : State) (q : HubReq) : Bool := q.late || (q.fresh && !inShare p s q)

/-- The state with a late request counted as delayed, once, and its grant counted in the window. -/
def grantCounted (p : Nat) (q : HubReq) (k : Packet) (s : State) : State :=
  (if isLate p s q && !q.counted then countDelayed p q k s else s).onHub p (windowStep q.cls)

/-- A grant keeps the stack of a running panel active (R201). -/
def stackUsed (p : Nat) (t : State) : State :=
  t.onStack p (fun K => { K with power := if (t.panel p).power = .active then .active else K.power, lastUse := t.now })

/-- The grant to request `q` of packet `k`. -/
def grantTo (p : Nat) (q : HubReq) (k : Packet) (s : State) : State :=
  let t := grantCounted p q k s
  if (t.stack p).key.isNone && !k.raw then requestDone p { q with status := 0x04, data := [], pois := [] } t
  else
    match waitingAt (stackUsed p t) p q.pid with
    | some q => serveUnit p q k (stackUsed p t)
    | none => stackUsed p t

section
variable {s : State} {p : Nat} {q : HubReq} {k : Packet}

theorem openWindow_of_grants (h : 0 < (s.panel p).hub.grants) : openWindow p s = s := if_neg h.ne'

theorem openWindow_panel : ∃ (split : Split) (next : Option Split), (openWindow p s).panel p =
    { s.panel p with hub := { (s.panel p).hub with split := split, next := next } } := by
  unfold openWindow
  split
  · exact ⟨_, _, panel_onHub _ _ _⟩
  · exact ⟨_, _, rfl⟩

theorem openWindow_packets : (openWindow p s).packets = s.packets := by
  unfold openWindow
  split <;> rfl

theorem openWindow_mem : (openWindow p s).mem = s.mem := by
  unfold openWindow
  split <;> rfl

theorem hubGrant_of_choice (hs : (s.panel p).shorted = false) (hc : grantChoice p (openWindow p s) = some q)
    (hk : packetOf s q.pid = some k) : hubGrant p s = grantTo p q k (openWindow p s) := by
  have hs' : ((openWindow p s).panel p).shorted = false := by
    obtain ⟨_, _, h⟩ := openWindow_panel (s := s) (p := p)
    rw [h]
    exact hs
  have hk' : packetOf (openWindow p s) q.pid = some k := (packetOf_congr openWindow_packets _).trans hk
  unfold grantChoice at hc
  unfold hubGrant
  extract_lets _ t H cand inSh
  have hcand : cand = ((openWindow p s).panel p).hub.waiting.filter (fun q => !unitBusy (openWindow p s) p q) :=
    if_neg (by show ¬ ((openWindow p s).panel p).shorted = true; rw [hs']; decide)
  dsimp only at hc
  rw [← hcand] at hc
  clear_value cand
  cases hf : cand.find? inSh with
  | some r =>
    obtain rfl : r = q := by
      rw [show cand.find? (inShare p (openWindow p s)) = some r from hf] at hc
      exact Option.some.inj hc
    dsimp only
    rw [show packetOf t r.pid = some k from hk']
    rfl
  | none =>
    rw [show cand.find? (inShare p (openWindow p s)) = none from hf, Option.none_or] at hc
    dsimp only
    rw [hc]
    dsimp only
    rw [show packetOf t q.pid = some k from hk']
    rfl

theorem hubGrant_none (hw : (s.panel p).hub.waiting = []) : hubGrant p s = openWindow p s := by
  have hw' : ((openWindow p s).panel p).hub.waiting = [] := by
    obtain ⟨_, _, h⟩ := openWindow_panel (s := s) (p := p)
    rw [h]
    exact hw
  unfold hubGrant
  extract_lets _ t H cand inSh
  have hcand : cand = [] := by
    show (if _ then [] else List.filter _ ((openWindow p s).panel p).hub.waiting) = []
    rw [hw']
    split <;> rfl
  rw [hcand]
  rfl

/-! The count of the grant. -/

/-- A late request is counted as delayed, and its class once more, and nothing else of the panel changes. -/
theorem countDelayed_panel {pre post : List HubReq} (hw : (s.panel p).hub.waiting = pre ++ [q] ++ post)
    (ho : ∀ v ∈ pre ++ post, v.pid ≠ q.pid) :
    (countDelayed p q k s).panel p =
      { s.panel p with
        hub := { (s.panel p).hub with
          delayed := Tab.put 0 (s.panel p).hub.delayed q.cls (inc 16 (Tab.get 0 (s.panel p).hub.delayed q.cls))
          waiting := pre ++ [{ q with counted := true }] ++ post } } := by
  have h : (countDelayed p q k s).panel p = (onWaiting p q.pid (fun w => { w with counted := true }) (s.onHub p (fun H =>
      { H with delayed := Tab.put 0 H.delayed q.cls (inc 16 (Tab.get 0 H.delayed q.cls)) }))).panel p := by
    unfold countDelayed
    dsimp only
    split <;> rfl
  rw [h, Machine.onWaiting, panel_onHub, panel_onHub]
  dsimp only
  rw [hw, map_waiting _ rfl ho]

theorem countDelayed_frame (p : Nat) (q : HubReq) (k : Packet) (s : State) :
    (countDelayed p q k s).mem = s.mem ∧ (countDelayed p q k s).packets = s.packets ∧ (countDelayed p q k s).now = s.now := by
  unfold countDelayed
  dsimp only
  split <;> exact ⟨rfl, rfl, rfl⟩

theorem grantCounted_frame (p : Nat) (q : HubReq) (k : Packet) (s : State) :
    (grantCounted p q k s).mem = s.mem ∧ (grantCounted p q k s).packets = s.packets ∧ (grantCounted p q k s).now = s.now := by
  unfold grantCounted
  split
  · exact countDelayed_frame p q k s
  · exact ⟨rfl, rfl, rfl⟩

/-- Within a window the grant is counted for the window and its class; the request keeps its place. -/
theorem grantCounted_panel {pre post : List HubReq} (hw : (s.panel p).hub.waiting = pre ++ [q] ++ post)
    (ho : ∀ v ∈ pre ++ post, v.pid ≠ q.pid) (hg : (s.panel p).hub.grants < 63) :
    ∃ D : Tab Nat, (grantCounted p q k s).panel p =
        { s.panel p with
          hub := { (s.panel p).hub with
            delayed := D
            grants := (s.panel p).hub.grants + 1
            used := Tab.set (s.panel p).hub.used q.cls (Tab.get 0 (s.panel p).hub.used q.cls + 1)
            waiting := pre ++ [{ q with counted := q.counted || isLate p s q }] ++ post } } ∧
      (q.counted = false → isLate p s q = true →
        Tab.get 0 D q.cls = min 65535 (Tab.get 0 (s.panel p).hub.delayed q.cls + 1)) := by
  have hg' : ¬ (s.panel p).hub.grants + 1 = 64 := by omega
  unfold grantCounted
  rw [panel_onHub]
  by_cases hl : (isLate p s q && !q.counted) = true
  · obtain ⟨hl₁, hl₂⟩ := Bool.and_eq_true_iff.1 hl
    refine ⟨Tab.put 0 (s.panel p).hub.delayed q.cls (inc 16 (Tab.get 0 (s.panel p).hub.delayed q.cls)), ?_,
      fun _ _ => (Tab.get_put_same _ _ _ _).trans (inc_eq_min _ _)⟩
    rw [if_pos hl, countDelayed_panel hw ho, hl₁, Bool.or_true, windowStep, if_neg hg']
  · refine ⟨(s.panel p).hub.delayed, ?_, fun hc ht => absurd (by rw [hc, ht]; rfl) hl⟩
    have hq : (q.counted || isLate p s q) = q.counted := by
      cases hc : q.counted <;> cases ht : isLate p s q <;> simp_all
    rw [if_neg hl, windowStep, if_neg hg', hq, ← hw]

/-- A unit of a read is served from an active stack, which notes the use. -/
theorem readUnit_stackUsed {pre post : List HubReq} (hw : (s.panel p).hub.waiting = pre ++ [q] ++ post)
    (ho : ∀ v ∈ pre ++ post, v.pid ≠ q.pid) (hop : k.op = .read) (hl : 1 < q.left) (hs : q.secs = [])
    (hm : (s.stack p).mirrored = false) (ha : (s.panel p).power = .active) :
    ∃ v, ((readUnit p q.pid k (stackUsed p s)).panel p).hub = { (s.panel p).hub with waiting := pre ++ [v] ++ post } ∧
      ((readUnit p q.pid k (stackUsed p s)).stack p).power = .active ∧
      ((readUnit p q.pid k (stackUsed p s)).stack p).lastUse = s.now ∧
      v.pid = q.pid ∧ v.unit = q.unit + 1 ∧ v.left = q.left - 1 ∧ v.counted = q.counted := by
  have hu : (stackUsed p s).panel p = { s.panel p with stack := { s.stack p with power := .active, lastUse := s.now } } := by
    rw [stackUsed, panel_onStack, if_pos ha]
  have hsu : (stackUsed p s).stack p = { s.stack p with power := .active, lastUse := s.now } := by rw [State.stack, hu]
  have hq : WaitsWith p (stackUsed p s) pre post q (stackUsed p s) := by
    refine ⟨?_, ?_, ?_, ?_⟩ <;> simp only [panel_onHub, stack_onHub, ← hw, hu]
  have hmu : ((stackUsed p s).stack p).mirrored = false := by
    rw [hsu]
    exact hm
  obtain ⟨v, ⟨hhub, hpow, huse, -⟩, hv⟩ := readUnit_waits (k := k) hq hs ho hmu hop hl
  rw [panel_onHub, hu] at hhub
  rw [stack_onHub, hsu] at hpow huse
  exact ⟨v, hhub, hpow, huse, hv⟩

/-- A grant to a read of more units: its window, its place and its stack. -/
theorem grantTo_read {pre post : List HubReq} (hw : (s.panel p).hub.waiting = pre ++ [q] ++ post)
    (ho : ∀ v ∈ pre ++ post, v.pid ≠ q.pid) (hg : (s.panel p).hub.grants < 63) (hop : k.op = .read) (hl : 1 < q.left)
    (hs : q.secs = []) (hkey : (s.stack p).key.isSome = true) (hm : (s.stack p).mirrored = false)
    (ha : (s.panel p).power = .active) :
    ∃ v, (((grantTo p q k s).panel p).hub.grants = (s.panel p).hub.grants + 1 ∧
      Tab.get 0 ((grantTo p q k s).panel p).hub.used q.cls = Tab.get 0 (s.panel p).hub.used q.cls + 1 ∧
      ((grantTo p q k s).panel p).hub.waiting = pre ++ [v] ++ post ∧ v.pid = q.pid ∧ v.unit = q.unit + 1 ∧
      v.left = q.left - 1 ∧ ((grantTo p q k s).stack p).power = .active ∧ ((grantTo p q k s).stack p).lastUse = s.now) ∧
      v.counted = (q.counted || isLate p s q) ∧
      (q.counted = false → isLate p s q = true →
        Tab.get 0 ((grantTo p q k s).panel p).hub.delayed q.cls = min 65535 (Tab.get 0 (s.panel p).hub.delayed q.cls + 1)) := by
  obtain ⟨D, hp, hD⟩ := grantCounted_panel (k := k) hw ho hg
  obtain ⟨-, -, hnow⟩ := grantCounted_frame p q k s
  have hst : (grantCounted p q k s).stack p = s.stack p := by
    rw [State.stack, hp]
    rfl
  have hwt : ((grantCounted p q k s).panel p).hub.waiting = pre ++ [{ q with counted := q.counted || isLate p s q }] ++ post := by
    rw [hp]
  obtain ⟨v, hhub, hpow, huse, hpid, hunit, hleft, hcnt⟩ :=
    readUnit_stackUsed (k := k) hwt ho hop hl hs (by rw [hst]; exact hm) (by rw [hp]; exact ha)
  have hwu : ((stackUsed p (grantCounted p q k s)).panel p).hub.waiting =
      pre ++ [{ q with counted := q.counted || isLate p s q }] ++ post := by
    rw [stackUsed, panel_onStack]
    exact hwt
  have hserve : grantTo p q k s = readUnit p q.pid k (stackUsed p (grantCounted p q k s)) := by
    unfold grantTo
    dsimp only
    rw [hst, Option.isNone_eq_false_iff.2 hkey, Bool.false_and, if_neg (by decide),
      waitingAt_of_waiting hwu rfl fun w hw => ho w (List.mem_append_left _ hw)]
    dsimp only
    rw [serveUnit, hop]
  dsimp only at hhub hpow huse
  rw [hserve]
  rw [hp] at hhub
  rw [hnow] at huse
  refine ⟨v, ⟨?_, ?_, ?_, hpid, hunit, hleft, hpow, huse⟩, hcnt, fun hc ht => ?_⟩ <;> rw [hhub]
  · exact Tab.get_set_same _ _ _ _
  · exact hD hc ht

/-! A stack that has lost its key (R203). -/

theorem windowStep_pids (cls : Nat) (H : Hub) : (windowStep cls H).waiting.map HubReq.pid = H.waiting.map HubReq.pid := by
  unfold windowStep
  dsimp only
  split
  · rw [List.map_map]
    rfl
  · rfl

/-- The count of the grant keeps the stack and the numbers of the requests that wait. -/
theorem grantCounted_alone (hw : (s.panel p).hub.waiting = [q]) :
    (grantCounted p q k s).stack p = s.stack p ∧ ((grantCounted p q k s).panel p).hub.waiting.map HubReq.pid = [q.pid] := by
  unfold grantCounted
  rw [stack_onHub, panel_onHub]
  dsimp only
  rw [windowStep_pids]
  split
  · have hp := countDelayed_panel (k := k) (pre := []) (post := []) hw (by simp)
    rw [State.stack, hp]
    exact ⟨rfl, rfl⟩
  · rw [hw]
    exact ⟨rfl, rfl⟩

/-- Without a key a request waits no more and is answered WRONG_STATE. -/
theorem grantTo_lostKey (hw : (s.panel p).hub.waiting = [q]) (hk : packetOf s q.pid = some k) (hkey : (s.stack p).key = none)
    (hraw : k.raw = false) (hpart : (s.stack p).partner = []) :
    ∃ w, ((grantTo p q k s).panel p).hub.waiting = [] ∧ packetOf (grantTo p q k s) q.pid = some w ∧ w.reply = true ∧
      w.status = 0x04 ∧ (grantTo p q k s).mem = s.mem := by
  obtain ⟨hst, hpid⟩ := grantCounted_alone (k := k) hw
  obtain ⟨hmem, hpk, -⟩ := grantCounted_frame p q k s
  have hnone : ((grantCounted p q k s).panel p).hub.waiting.filter (fun w => w.pid != q.pid) = [] := by
    refine List.filter_eq_nil_iff.2 fun w hw => ?_
    have hm := List.mem_map_of_mem (f := HubReq.pid) hw
    rw [hpid] at hm
    simpa using hm
  have hdone : grantTo p q k s = answer q.pid 0x04 [] [] ((grantCounted p q k s).onHub p fun H =>
      { H with waiting := H.waiting.filter fun w => w.pid != q.pid }) := by
    unfold grantTo
    dsimp only
    rw [hst, hkey, hraw]
    rw [if_pos (show (Option.isNone none && !false) = true from rfl), requestDone]
    dsimp only
    rw [stack_onHub, hst, owesPartner, hpart, List.any_nil, if_neg (by decide)]
    rfl
  obtain ⟨w, hq, hr, he⟩ := packetOf_answer 0x04 [] [] (s := (grantCounted p q k s).onHub p fun H =>
      { H with waiting := H.waiting.filter fun w => w.pid != q.pid }) ((packetOf_congr hpk _).trans hk)
  rw [hdone]
  refine ⟨w, ?_, hq, hr, he, ?_⟩
  · rw [answer_panel, panel_onHub]
    exact hnone
  · rw [answer_mem]
    exact hmem

/-! Which request a hub chooses (R162, R163). -/

/-- The oldest request whose unit is free and whose class is within its share. -/
theorem grantChoice_inShare {pre post : List HubReq} (hw : (s.panel p).hub.waiting = pre ++ [q] ++ post)
    (hb : unitBusy s p q = false) (hq : inShare p s q = true) (hpre : ∀ w ∈ pre, ¬ (unitBusy s p w = false ∧ inShare p s w = true)) :
    grantChoice p s = some q := by
  have hn : (pre.filter fun w => !unitBusy s p w).find? (inShare p s) = none := by
    refine List.find?_eq_none.2 fun w hw => ?_
    obtain ⟨hw, hf⟩ := List.mem_filter.1 hw
    exact fun hi => hpre w hw ⟨by simpa using hf, hi⟩
  rw [grantChoice, hw, List.filter_append, List.filter_append, List.append_assoc, List.find?_append, hn]
  simp [hb, hq]

/-- Where there is none, the oldest request whose unit is free. -/
theorem grantChoice_free {pre post : List HubReq} (hw : (s.panel p).hub.waiting = pre ++ [q] ++ post)
    (hb : unitBusy s p q = false) (hall : ∀ w ∈ pre ++ [q] ++ post, ¬ (unitBusy s p w = false ∧ inShare p s w = true))
    (hpre : ∀ w ∈ pre, unitBusy s p w = true) : grantChoice p s = some q := by
  have hn : ((pre ++ [q] ++ post).filter fun w => !unitBusy s p w).find? (inShare p s) = none := by
    refine List.find?_eq_none.2 fun w hw => ?_
    obtain ⟨hw, hf⟩ := List.mem_filter.1 hw
    exact fun hi => hall w hw ⟨by simpa using hf, hi⟩
  have hf : pre.find? (fun w => !unitBusy s p w) = none := List.find?_eq_none.2 fun w hw => by simp [hpre w hw]
  rw [grantChoice, hw, hn, List.head?_filter, List.append_assoc, List.find?_append, hf]
  simp [hb]

theorem secs_of_unitBusy (h : unitBusy s p q = false) : q.secs = [] := by
  simp only [unitBusy, Bool.or_eq_false_iff] at h
  simpa using h.1.1.2

theorem unitBusy_openWindow : unitBusy (openWindow p s) p q = unitBusy s p q := by
  obtain ⟨_, _, h⟩ := openWindow_panel (s := s) (p := p)
  simp only [unitBusy, State.stack, h]

/-- A request alone at its hub is the one chosen. -/
theorem grantChoice_alone (hw : (s.panel p).hub.waiting = [q]) (hb : unitBusy s p q = false) : grantChoice p s = some q := by
  by_cases hq : inShare p s q = true
  · exact grantChoice_inShare (pre := []) (post := []) hw hb hq (by simp)
  · exact grantChoice_free (pre := []) (post := []) hw hb (by simpa using fun _ => hq) (by simp)

end

theorem exec_hubGrant {p : Nat} (hp : p < 64) (s : State) : exec (.hubGrant p) s = goes (hubGrant p s) :=
  congrArg goes (if_pos hp)

/-- Settles O28: at its arrival by the checks in their order; a grant by the choice of the hub and what comes of its unit. -/
theorem hubsTrackAndGrant : Obligations.HubsTrackAndGrant := by
  intro pid p off s k hp
  refine ⟨fun hk hr hpos ht hs hw hm ho => ?arrival, ?entries, fun cls => entriesOf_of_requests p cls, ?granted, ?lostKey, ?idle⟩
  case arrival =>
    have hnow := hubArrive_eq hk hr hpos ht hs hw hm ho
    refine ⟨fun h0 hroom hall => ?tracked, fun h0 hfull => ?full, fun hne => ?refused⟩
    case tracked =>
      rw [if_neg (by rw [h0]; decide), if_neg (by rw [h0]; decide), if_neg (by unfold unitsOf; omega)] at hnow
      refine ⟨_, congrArg goes hnow, ?_, rfl⟩
      rw [panel_onHub]
      rfl
    case full =>
      have hfull : 16 * (s.panel p).hub.split.of (classAt k p) < entriesOf s p (classAt k p) + unitsOf off k.size ∨
          1024 < entriesAll s p + unitsOf off k.size := hfull
      rw [if_neg (by rw [h0]; decide), if_neg (by rw [h0]; decide), if_pos hfull] at hnow
      obtain ⟨q, hq, hqr, hqs⟩ := packetOf_answer 0x0D [] [] (s := s.onHub p (fun H => { H with
        refused := Tab.put 0 H.refused (classAt k p) (inc 16 (Tab.get 0 H.refused (classAt k p))) })) hk
      refine ⟨_, q, congrArg goes hnow, ?_, hq, hqr, hqs, ?_⟩ <;> rw [answer_panel, panel_onHub]
      exact (Tab.get_put_same _ _ _ _).trans (inc_eq_min _ _)
    case refused =>
      obtain ⟨q, hq, hqr, hqs⟩ := packetOf_answer (stackStatus s p off k) [] [] hk
      by_cases h6 : stackStatus s p off k = 0x06
      · rw [if_pos h6] at hnow
        refine ⟨_, q, congrArg goes hnow, ?_, hq, hqr, hqs⟩
        rw [countAbsent, State.panel_onPanel_same, answer_panel]
      · rw [if_neg h6, if_pos hne] at hnow
        refine ⟨_, q, congrArg goes hnow, ?_, hq, hqr, hqs⟩
        rw [answer_panel]
  case entries =>
    intro q w hq
    rw [HubReq.entries, hq]
  case granted =>
    intro pre post q hw ho hk hop hl hs hb hg hg' hkey hm ha free granted
    have hread := grantTo_read (k := k) hw ho hg' hop hl (secs_of_unitBusy hb) hkey hm ha
    have hfree (w : HubReq) : free w ↔ unitBusy s p w = false ∧ inShare p s w = true := by
      rw [inShare, decide_eq_true_iff]
    have hgrant (hc : grantChoice p s = some q) : exec (.hubGrant p) s = goes (grantTo p q k s) := by
      rw [exec_hubGrant hp, hubGrant_of_choice hs (by rwa [openWindow_of_grants hg]) hk, openWindow_of_grants hg]
    obtain ⟨v, hv, hcnt, hdel⟩ := hread
    refine ⟨fun hq hpre hlate => ?inShare, fun hall hpre => ?overShare⟩
    case inShare =>
      obtain ⟨-, hin⟩ := (hfree q).1 hq
      have hc := grantChoice_inShare hw hb hin fun w hw h => hpre w hw ((hfree w).2 h)
      refine ⟨_, v, hgrant hc, hv, ?_⟩
      rw [hcnt, isLate, hlate, hin]
      simp
    case overShare =>
      have hc := grantChoice_free hw hb (fun w hm h => hall w (hw ▸ hm) ((hfree w).2 h)) hpre
      have hin : inShare p s q = false := by
        simpa using fun h => hall q (by simp [hw]) ((hfree q).2 ⟨hb, h⟩)
      have hlate : isLate p s q = (q.late || q.fresh) := by rw [isLate, hin, Bool.not_false, Bool.and_true]
      rw [hlate] at hcnt hdel
      refine ⟨_, v, hgrant hc, hv, ?_, hdel⟩
      rw [hcnt, Bool.or_assoc]
  case lostKey =>
    intro q hw hk hb hs hkey hraw hpart
    obtain ⟨_, _, hpan⟩ := openWindow_panel (s := s) (p := p)
    have hst : (openWindow p s).stack p = s.stack p := by
      rw [State.stack, hpan]
      rfl
    have hwo : ((openWindow p s).panel p).hub.waiting = [q] := by rw [hpan]; exact hw
    have hc := grantChoice_alone hwo (unitBusy_openWindow.trans hb)
    have hko : packetOf (openWindow p s) q.pid = some k := (packetOf_congr openWindow_packets _).trans hk
    obtain ⟨w, hwait, hq, hr, he, hmem⟩ := grantTo_lostKey hwo hko (by rw [hst]; exact hkey) hraw (by rw [hst]; exact hpart)
    exact ⟨_, w, (exec_hubGrant hp s).trans (congrArg goes (hubGrant_of_choice hs hc hk)), hwait, hq, hr, he, hmem.trans openWindow_mem⟩
  case idle =>
    intro hw
    refine ⟨_, (exec_hubGrant hp s).trans (congrArg goes (hubGrant_none hw)), openWindow_mem, openWindow_packets, ?_⟩
    obtain ⟨_, _, hpan⟩ := openWindow_panel (s := s) (p := p)
    rw [hpan]
    exact hw

end Sys2Proof.Machine
end

section
/-! SUPPORT. A core that is fenced and yet runs a context, below a site that a darning leaves out (chapter 15). -/

namespace Sys2Proof.Machine

open Sys2Proof

/-- A running panel whose sites 0 and 2 are bad: core 0 waits to be darned. -/
def badSitesPanel : Panel :=
  { Panel.init with power := .active, bad := [(0, true), (2, true)], darn := { Panel.init.darn with queue := [0] } }

/-- Panel 0 in a partition whose step is open. Core 1 is FENCED, and a context of it is still running, which no
hypothesis of the statement shuts out. -/
def fencedCoreRuns : State :=
  { State.reset with
    panels := [(0, badSitesPanel)]
    parts := [(0, { Part.init with defined := true, job := { JobSt.init with stepOpen := true } })]
    cores := [(0, { Core.init with power := .fenced }),
      (1, { Core.init with power := .fenced, active := true, ctxs := [(0, { Ctx.init with state := .running })] })] }

/-- The map change that the darning of core 0 chooses: row 0 leaves out site 0, so each core of the row moves east. -/
def rowZeroShifted : Panel := { badSitesPanel with skipCol := [(0, 0)] }

theorem chooseChange_badSitesPanel : chooseChange badSitesPanel 0 = some rowZeroShifted := by rfl

theorem coreOne_moves : 1 ∈ movedCores 0 badSitesPanel rowZeroShifted := by decide +kernel

/-- The void of the open step stops the context, and a core whose context stops becomes IDLE. -/
theorem darnStart_fencedCoreRuns_power : ((darnStart 0 fencedCoreRuns).core 1).power = .idle := by decide +kernel

theorem darnStart_fencedCoreRuns_site :
    Tab.get false badSitesPanel.bad (siteIdx (darnStart 0 fencedCoreRuns) 1) = true := by decide +kernel

/-- Refutes O44: core 1 is fenced and its running context is not stopped; the change moves it to the bad site 2,
where a core already FENCED is left as it is; then the darning voids the partition's open step, which stops that
context and leaves the core IDLE, not FENCED. -/
theorem not_coresAreProbedFencedAndDarned : ¬ Obligations.CoresAreProbedFencedAndDarned := by
  intro h
  obtain ⟨-, -, -, -, -, darning, -⟩ := h 0 0 fencedCoreRuns (by omega) (by omega) rfl
  have changes := (darning [] (by decide +kernel) (by decide +kernel) (by decide +kernel) (by decide +kernel)
    (by decide +kernel)).2
  obtain ⟨t, ht, -, -, -, -, -, moved⟩ := changes rowZeroShifted chooseChange_badSitesPanel
  have step : exec (.darningStart 0) fencedCoreRuns = goes (darnStart 0 fencedCoreRuns) :=
    congrArg goes (if_pos (by omega : 0 < 64))
  obtain rfl : darnStart 0 fencedCoreRuns = t := Host.Outcome.next.inj (step.symm.trans ht)
  have fenced := (moved 1 coreOne_moves (by decide) (by decide +kernel) darnStart_fencedCoreRuns_site).1
  rw [darnStart_fencedCoreRuns_power] at fenced
  cases fenced

end Sys2Proof.Machine
end

section
/-! SUPPORT. Each form of an instruction word reads back: `word` gives the word exactly when the
opcode and the fields cut out of the word are the form's own (03_core_programs.md). -/

namespace Sys2Proof.Machine

open Sys2Proof

theorem append_eq_iff {n m : Nat} (x : BitVec n) (y : BitVec m) (w : BitVec (n + m)) :
    x ++ y = w ↔ x = w.extractLsb' m n ∧ y = w.extractLsb' 0 m := by
  constructor
  · rintro rfl
    constructor <;> ext <;> grind
  · rintro ⟨rfl, rfl⟩
    ext
    grind

theorem extract_extract {n : Nat} (w : BitVec n) (a b c d : Nat) (h : c + d ≤ b) :
    (w.extractLsb' a b).extractLsb' c d = w.extractLsb' (a + c) d := by
  ext
  grind

theorem CR.word_eq_iff (o : BitVec 8) (i : CR) (w : W32) :
    CR.word o i = w ↔ o = w.extractLsb' 24 8 ∧ i = CR.ofWord w := by
  cases i
  rw [CR.word]
  repeat rw [append_eq_iff]
  simp [extract_extract, CR.ofWord, and_assoc]

theorem CI.word_eq_iff (o : BitVec 8) (i : CI) (w : W32) :
    CI.word o i = w ↔ o = w.extractLsb' 24 8 ∧ i = CI.ofWord w := by
  cases i
  rw [CI.word]
  repeat rw [append_eq_iff]
  simp [extract_extract, CI.ofWord, and_assoc]

theorem CU.word_eq_iff (o : BitVec 8) (i : CU) (w : W32) :
    CU.word o i = w ↔ o = w.extractLsb' 24 8 ∧ i = CU.ofWord w := by
  cases i
  rw [CU.word]
  repeat rw [append_eq_iff]
  simp [extract_extract, CU.ofWord, and_assoc]

theorem CB.word_eq_iff (o : BitVec 8) (i : CB) (w : W32) :
    CB.word o i = w ↔ o = w.extractLsb' 24 8 ∧ i = CB.ofWord w := by
  cases i
  rw [CB.word]
  repeat rw [append_eq_iff]
  simp [extract_extract, CB.ofWord, and_assoc]

theorem CM.word_eq_iff (o : BitVec 8) (i : CM) (w : W32) :
    CM.word o i = w ↔ o = w.extractLsb' 24 8 ∧ i = CM.ofWord w := by
  cases i
  rw [CM.word]
  repeat rw [append_eq_iff]
  simp [extract_extract, CM.ofWord, and_assoc]

theorem CQ.word_eq_iff (o : BitVec 8) (i : CQ) (w : W32) :
    CQ.word o i = w ↔ o = w.extractLsb' 24 8 ∧ i = CQ.ofWord w := by
  cases i
  rw [CQ.word]
  repeat rw [append_eq_iff]
  simp [extract_extract, CQ.ofWord, and_assoc]

theorem CLoop.word_eq_iff (o : BitVec 8) (i : CLoop) (w : W32) :
    CLoop.word o i = w ↔ o = w.extractLsb' 24 8 ∧ i = CLoop.ofWord w := by
  cases i
  rw [CLoop.word]
  repeat rw [append_eq_iff]
  simp [extract_extract, CLoop.ofWord, and_assoc]

theorem CLoopI.word_eq_iff (o : BitVec 8) (i : CLoopI) (w : W32) :
    CLoopI.word o i = w ↔ o = w.extractLsb' 24 8 ∧ i = CLoopI.ofWord w := by
  cases i
  rw [CLoopI.word]
  repeat rw [append_eq_iff]
  simp [extract_extract, CLoopI.ofWord, and_assoc]

theorem CE.word_eq_iff (o : BitVec 8) (i : CE) (w : W32) :
    CE.word o i = w ↔ o = w.extractLsb' 24 8 ∧ i = CE.ofWord w := by
  cases i
  rw [CE.word]
  repeat rw [append_eq_iff]
  simp [extract_extract, CE.ofWord, and_assoc]

theorem McfgF.word_eq_iff (o : BitVec 8) (i : McfgF) (w : W32) :
    McfgF.word o i = w ↔ o = w.extractLsb' 24 8 ∧ i = McfgF.ofWord w := by
  cases i
  rw [McfgF.word]
  repeat rw [append_eq_iff]
  simp [extract_extract, McfgF.ofWord, and_assoc]

theorem MseedF.word_eq_iff (o : BitVec 8) (i : MseedF) (w : W32) :
    MseedF.word o i = w ↔ o = w.extractLsb' 24 8 ∧ i = MseedF.ofWord w := by
  cases i
  rw [MseedF.word]
  repeat rw [append_eq_iff]
  simp [extract_extract, MseedF.ofWord, and_assoc]

theorem MldwF.word_eq_iff (o : BitVec 8) (i : MldwF) (w : W32) :
    MldwF.word o i = w ↔ o = w.extractLsb' 24 8 ∧ i = MldwF.ofWord w := by
  cases i
  rw [MldwF.word]
  repeat rw [append_eq_iff]
  simp [extract_extract, MldwF.ofWord, and_assoc]

theorem MmulF.word_eq_iff (o : BitVec 8) (i : MmulF) (w : W32) :
    MmulF.word o i = w ↔ o = w.extractLsb' 24 8 ∧ i = MmulF.ofWord w := by
  cases i
  rw [MmulF.word]
  repeat rw [append_eq_iff]
  simp [extract_extract, MmulF.ofWord, and_assoc]

theorem MpreF.word_eq_iff (o : BitVec 8) (i : MpreF) (w : W32) :
    MpreF.word o i = w ↔ o = w.extractLsb' 24 8 ∧ i = MpreF.ofWord w := by
  cases i
  rw [MpreF.word]
  repeat rw [append_eq_iff]
  simp [extract_extract, MpreF.ofWord, and_assoc]

theorem MtilesF.word_eq_iff (o : BitVec 8) (i : MtilesF) (w : W32) :
    MtilesF.word o i = w ↔ o = w.extractLsb' 24 8 ∧ i = MtilesF.ofWord w := by
  cases i
  rw [MtilesF.word]
  repeat rw [append_eq_iff]
  simp [extract_extract, MtilesF.ofWord, and_assoc]

theorem MdrainF.word_eq_iff (o : BitVec 8) (i : MdrainF) (w : W32) :
    MdrainF.word o i = w ↔ o = w.extractLsb' 24 8 ∧ i = MdrainF.ofWord w := by
  cases i
  rw [MdrainF.word]
  repeat rw [append_eq_iff]
  simp [extract_extract, MdrainF.ofWord, and_assoc]

theorem MgrpF.word_eq_iff (o : BitVec 8) (op : BitVec 1) (i : MgrpF) (w : W32) :
    MgrpF.word o op i = w ↔ o = w.extractLsb' 24 8 ∧ op = w.extractLsb' 19 1 ∧ i = MgrpF.ofWord w := by
  cases i
  rw [MgrpF.word]
  repeat rw [append_eq_iff]
  simp [extract_extract, MgrpF.ofWord, and_assoc, and_left_comm]

theorem MldsF.word_eq_iff (o : BitVec 8) (i : MldsF) (w : W32) :
    MldsF.word o i = w ↔ o = w.extractLsb' 24 8 ∧ i = MldsF.ofWord w := by
  cases i
  rw [MldsF.word]
  repeat rw [append_eq_iff]
  simp [extract_extract, MldsF.ofWord, and_assoc]

theorem SmulF.word_eq_iff (o : BitVec 8) (i : SmulF) (w : W32) :
    SmulF.word o i = w ↔ o = w.extractLsb' 24 8 ∧ i = SmulF.ofWord w := by
  cases i
  rw [SmulF.word]
  repeat rw [append_eq_iff]
  simp [extract_extract, SmulF.ofWord, and_assoc]

theorem MdrsF.word_eq_iff (o : BitVec 8) (i : MdrsF) (w : W32) :
    MdrsF.word o i = w ↔ o = w.extractLsb' 24 8 ∧ i = MdrsF.ofWord w := by
  cases i
  rw [MdrsF.word]
  repeat rw [append_eq_iff]
  simp [extract_extract, MdrsF.ofWord, and_assoc]

theorem SmrgF.word_eq_iff (o : BitVec 8) (i : SmrgF) (w : W32) :
    SmrgF.word o i = w ↔ o = w.extractLsb' 24 8 ∧ i = SmrgF.ofWord w := by
  cases i
  rw [SmrgF.word]
  repeat rw [append_eq_iff]
  simp [extract_extract, SmrgF.ofWord, and_assoc]

theorem ScmpF.word_eq_iff (o : BitVec 8) (i : ScmpF) (w : W32) :
    ScmpF.word o i = w ↔ o = w.extractLsb' 24 8 ∧ i = ScmpF.ofWord w := by
  cases i
  rw [ScmpF.word]
  repeat rw [append_eq_iff]
  simp [extract_extract, ScmpF.ofWord, and_assoc]

theorem StrwF.word_eq_iff (o : BitVec 8) (i : StrwF) (w : W32) :
    StrwF.word o i = w ↔ o = w.extractLsb' 24 8 ∧ i = StrwF.ofWord w := by
  cases i
  rw [StrwF.word]
  repeat rw [append_eq_iff]
  simp [extract_extract, StrwF.ofWord, and_assoc]

theorem VmemF.word_eq_iff (o : BitVec 8) (i : VmemF) (w : W32) :
    VmemF.word o i = w ↔ o = w.extractLsb' 24 8 ∧ i = VmemF.ofWord w := by
  cases i
  rw [VmemF.word]
  repeat rw [append_eq_iff]
  simp [extract_extract, VmemF.ofWord, and_assoc]

theorem VbcF.word_eq_iff (o : BitVec 8) (i : VbcF) (w : W32) :
    VbcF.word o i = w ↔ o = w.extractLsb' 24 8 ∧ i = VbcF.ofWord w := by
  cases i
  rw [VbcF.word]
  repeat rw [append_eq_iff]
  simp [extract_extract, VbcF.ofWord, and_assoc]

theorem VextF.word_eq_iff (o : BitVec 8) (i : VextF) (w : W32) :
    VextF.word o i = w ↔ o = w.extractLsb' 24 8 ∧ i = VextF.ofWord w := by
  cases i
  rw [VextF.word]
  repeat rw [append_eq_iff]
  simp [extract_extract, VextF.ofWord, and_assoc]

theorem VldcF.word_eq_iff (o : BitVec 8) (i : VldcF) (w : W32) :
    VldcF.word o i = w ↔ o = w.extractLsb' 24 8 ∧ i = VldcF.ofWord w := by
  cases i
  rw [VldcF.word]
  repeat rw [append_eq_iff]
  simp [extract_extract, VldcF.ofWord, and_assoc]

theorem VseedF.word_eq_iff (o : BitVec 8) (i : VseedF) (w : W32) :
    VseedF.word o i = w ↔ o = w.extractLsb' 24 8 ∧ i = VseedF.ofWord w := by
  cases i
  rw [VseedF.word]
  repeat rw [append_eq_iff]
  simp [extract_extract, VseedF.ofWord, and_assoc]

theorem VqrdF.word_eq_iff (o : BitVec 8) (i : VqrdF) (w : W32) :
    VqrdF.word o i = w ↔ o = w.extractLsb' 24 8 ∧ i = VqrdF.ofWord w := by
  cases i
  rw [VqrdF.word]
  repeat rw [append_eq_iff]
  simp [extract_extract, VqrdF.ofWord, and_assoc]

theorem VqwrF.word_eq_iff (o : BitVec 8) (i : VqwrF) (w : W32) :
    VqwrF.word o i = w ↔ o = w.extractLsb' 24 8 ∧ i = VqwrF.ofWord w := by
  cases i
  rw [VqwrF.word]
  repeat rw [append_eq_iff]
  simp [extract_extract, VqwrF.ofWord, and_assoc]

theorem SqcfgF.word_eq_iff (o : BitVec 8) (i : SqcfgF) (w : W32) :
    SqcfgF.word o i = w ↔ o = w.extractLsb' 24 8 ∧ i = SqcfgF.ofWord w := by
  cases i
  rw [SqcfgF.word]
  repeat rw [append_eq_iff]
  simp [extract_extract, SqcfgF.ofWord, and_assoc]

theorem SqcntF.word_eq_iff (o : BitVec 8) (i : SqcntF) (w : W32) :
    SqcntF.word o i = w ↔ o = w.extractLsb' 24 8 ∧ i = SqcntF.ofWord w := by
  cases i
  rw [SqcntF.word]
  repeat rw [append_eq_iff]
  simp [extract_extract, SqcntF.ofWord, and_assoc]

theorem SaddrF.word_eq_iff (o : BitVec 8) (i : SaddrF) (w : W32) :
    SaddrF.word o i = w ↔ o = w.extractLsb' 24 8 ∧ i = SaddrF.ofWord w := by
  cases i
  rw [SaddrF.word]
  repeat rw [append_eq_iff]
  simp [extract_extract, SaddrF.ofWord, and_assoc]

theorem SqF.word_eq_iff (o : BitVec 8) (i : SqF) (w : W32) :
    SqF.word o i = w ↔ o = w.extractLsb' 24 8 ∧ i = SqF.ofWord w := by
  cases i
  rw [SqF.word]
  repeat rw [append_eq_iff]
  simp [extract_extract, SqF.ofWord, and_assoc]

theorem SlistF.word_eq_iff (o : BitVec 8) (i : SlistF) (w : W32) :
    SlistF.word o i = w ↔ o = w.extractLsb' 24 8 ∧ i = SlistF.ofWord w := by
  cases i
  rw [SlistF.word]
  repeat rw [append_eq_iff]
  simp [extract_extract, SlistF.ofWord, and_assoc]

theorem SlstopF.word_eq_iff (o : BitVec 8) (i : SlstopF) (w : W32) :
    SlstopF.word o i = w ↔ o = w.extractLsb' 24 8 ∧ i = SlstopF.ofWord w := by
  cases i
  rw [SlstopF.word]
  repeat rw [append_eq_iff]
  simp [extract_extract, SlstopF.ofWord, and_assoc]

theorem SlstatF.word_eq_iff (o : BitVec 8) (i : SlstatF) (w : W32) :
    SlstatF.word o i = w ↔ o = w.extractLsb' 24 8 ∧ i = SlstatF.ofWord w := by
  cases i
  rw [SlstatF.word]
  repeat rw [append_eq_iff]
  simp [extract_extract, SlstatF.ofWord, and_assoc]

theorem VIns.word_vch_eq_iff (i : VchF) (w : W32) :
    (VIns.vch i).word = w ↔ 0b00010#5 = w.extractLsb' 27 5 ∧ i = VchF.ofWord w := by
  cases i
  rw [VIns.word]
  repeat rw [append_eq_iff]
  simp [extract_extract, VchF.ofWord, and_assoc]

theorem nop_word_eq_iff (z : BitVec 24) (w : W32) :
    (0x00#8 ++ z : BitVec (8 + 24)) = w ↔ 0x00#8 = w.extractLsb' 24 8 ∧ z = w.extractLsb' 0 24 := append_eq_iff _ _ _


theorem CIns.ofWord_eq_some_iff (w : W32) (i : CIns) : CIns.ofWord w = some i ↔ i.word = w := by
  constructor
  · intro h
    unfold CIns.ofWord at h
    split at h <;> cases h <;>
      simp only [CIns.word, nop_word_eq_iff, CR.word_eq_iff, CI.word_eq_iff, CU.word_eq_iff, CB.word_eq_iff, CM.word_eq_iff,
        CQ.word_eq_iff, CLoop.word_eq_iff, CLoopI.word_eq_iff, CE.word_eq_iff, and_true]
    all_goals exact BitVec.eq_of_toNat_eq (Eq.symm ‹_›)
  · intro h
    cases i <;>
      simp only [CIns.word, nop_word_eq_iff, CR.word_eq_iff, CI.word_eq_iff, CU.word_eq_iff, CB.word_eq_iff, CM.word_eq_iff,
        CQ.word_eq_iff, CLoop.word_eq_iff, CLoopI.word_eq_iff, CE.word_eq_iff] at h <;>
      obtain ⟨ho, rfl⟩ := h <;> rw [CIns.ofWord, ← ho] <;> rfl

/-- The bit that tells the opening of a group from its closing (R74). -/
theorem one_bit_eq_iff (w : W32) (b : Bool) (k : Nat) : BitVec.ofBool b = w.extractLsb' k 1 ↔ w.getLsbD k = b := by
  have hw : w.extractLsb' k 1 = BitVec.ofBool (w.getLsbD k) := by
    ext j hj
    obtain rfl : j = 0 := by omega
    simp
  rw [hw, eq_comm]
  exact ⟨fun h => by simpa using congrArg (BitVec.getLsbD · 0) h, fun h => congrArg _ h⟩

theorem MIns.ofWord_eq_some_iff (w : W32) (i : MIns) : MIns.ofWord w = some i ↔ i.word = w := by
  constructor
  · intro h
    unfold MIns.ofWord at h
    split at h
    case h_10 hk =>
      have ho : 0x0E#8 = w.extractLsb' 24 8 := BitVec.eq_of_toNat_eq hk.symm
      split at h <;> cases h
      · exact (MgrpF.word_eq_iff _ _ _ _).2 ⟨ho, (one_bit_eq_iff w true 19).2 ‹_›, rfl⟩
      · exact (MgrpF.word_eq_iff _ _ _ _).2 ⟨ho, (one_bit_eq_iff w false 19).2 (Bool.eq_false_of_not_eq_true ‹_›), rfl⟩
    all_goals cases h
    all_goals
      simp only [MIns.word, nop_word_eq_iff, McfgF.word_eq_iff, MseedF.word_eq_iff, MldwF.word_eq_iff, MmulF.word_eq_iff,
        MpreF.word_eq_iff, MtilesF.word_eq_iff, MdrainF.word_eq_iff, MldsF.word_eq_iff, SmulF.word_eq_iff, MdrsF.word_eq_iff,
        SmrgF.word_eq_iff, ScmpF.word_eq_iff, StrwF.word_eq_iff, and_true]
      exact BitVec.eq_of_toNat_eq (Eq.symm ‹_›)
  · intro h
    cases i
    case mgrpOpen i =>
      obtain ⟨ho, hb, rfl⟩ := (MgrpF.word_eq_iff _ _ _ _).1 h
      rw [MIns.ofWord, ← ho, (one_bit_eq_iff w true 19).1 hb]
      rfl
    case mgrpClose i =>
      obtain ⟨ho, hb, rfl⟩ := (MgrpF.word_eq_iff _ _ _ _).1 h
      rw [MIns.ofWord, ← ho, (one_bit_eq_iff w false 19).1 hb]
      rfl
    all_goals
      simp only [MIns.word, nop_word_eq_iff, McfgF.word_eq_iff, MseedF.word_eq_iff, MldwF.word_eq_iff, MmulF.word_eq_iff,
        MpreF.word_eq_iff, MtilesF.word_eq_iff, MdrainF.word_eq_iff, MldsF.word_eq_iff, SmulF.word_eq_iff, MdrsF.word_eq_iff,
        SmrgF.word_eq_iff, ScmpF.word_eq_iff, StrwF.word_eq_iff] at h
      obtain ⟨ho, rfl⟩ := h
      rw [MIns.ofWord, ← ho]
      rfl

/-- The five opcode bits of a chain are the upper part of the opcode byte (R101). -/
theorem chain_opcode_iff (w : W32) : 0b00010#5 = w.extractLsb' 27 5 ↔ (w.extractLsb' 24 8).toNat / 8 = 2 := by
  have h : (w.extractLsb' 27 5).toNat = (w.extractLsb' 24 8).toNat / 8 := by
    simp only [BitVec.extractLsb'_toNat, Nat.shiftRight_eq_div_pow]
    omega
  rw [← BitVec.toNat_inj, h, eq_comm]
  rfl

theorem VIns.ofWord_eq_some_iff (w : W32) (i : VIns) : VIns.ofWord w = some i ↔ i.word = w := by
  constructor
  · intro h
    unfold VIns.ofWord at h
    split at h <;> cases h
    case h_10 | h_11 | h_12 | h_13 | h_14 | h_15 | h_16 | h_17 =>
      exact (VIns.word_vch_eq_iff _ _).2 ⟨(chain_opcode_iff w).2 (by omega), rfl⟩
    all_goals
      simp only [VIns.word, nop_word_eq_iff, VmemF.word_eq_iff, VbcF.word_eq_iff, VextF.word_eq_iff, VldcF.word_eq_iff,
        VseedF.word_eq_iff, VqrdF.word_eq_iff, VqwrF.word_eq_iff, and_true]
      exact BitVec.eq_of_toNat_eq (Eq.symm ‹_›)
  · intro h
    cases i
    case vch i =>
      obtain ⟨ho, rfl⟩ := (VIns.word_vch_eq_iff _ _).1 h
      have hk := (chain_opcode_iff w).1 ho
      have hc : ∀ x, x / 8 = 2 → x = 16 ∨ x = 17 ∨ x = 18 ∨ x = 19 ∨ x = 20 ∨ x = 21 ∨ x = 22 ∨ x = 23 := by omega
      rw [VIns.ofWord]
      rcases hc _ hk with e | e | e | e | e | e | e | e <;> rw [e] <;> rfl
    all_goals
      simp only [VIns.word, nop_word_eq_iff, VmemF.word_eq_iff, VbcF.word_eq_iff, VextF.word_eq_iff, VldcF.word_eq_iff,
        VseedF.word_eq_iff, VqrdF.word_eq_iff, VqwrF.word_eq_iff] at h
      obtain ⟨ho, rfl⟩ := h
      rw [VIns.ofWord, ← ho]
      rfl

theorem SIns.ofWord_eq_some_iff (w : W32) (i : SIns) : SIns.ofWord w = some i ↔ i.word = w := by
  constructor
  · intro h
    unfold SIns.ofWord at h
    split at h <;> cases h
    all_goals
      simp only [SIns.word, nop_word_eq_iff, SqcfgF.word_eq_iff, SqcntF.word_eq_iff, SaddrF.word_eq_iff, SqF.word_eq_iff,
        SlistF.word_eq_iff, SlstopF.word_eq_iff, SlstatF.word_eq_iff, and_true]
      exact BitVec.eq_of_toNat_eq (Eq.symm ‹_›)
  · intro h
    cases i
    all_goals
      simp only [SIns.word, nop_word_eq_iff, SqcfgF.word_eq_iff, SqcntF.word_eq_iff, SaddrF.word_eq_iff, SqF.word_eq_iff,
        SlistF.word_eq_iff, SlstopF.word_eq_iff, SlstatF.word_eq_iff] at h
      obtain ⟨ho, rfl⟩ := h
      rw [SIns.ofWord, ← ho]
      rfl

/-- Settles O54: each format's fields partition its word, so an opcode's word is read back field by field. -/
theorem slotWordsReadBackAndAsTheTablesGive : Obligations.SlotWordsReadBackAndAsTheTablesGive := by
  refine ⟨fun w => ⟨CIns.ofWord_eq_some_iff w, MIns.ofWord_eq_some_iff w, VIns.ofWord_eq_some_iff w,
    SIns.ofWord_eq_some_iff w⟩, ?_⟩
  and_intros <;> decide

end Sys2Proof.Machine

end

section
/-! SUPPORT. What the work of one core touches (chapters 02 to 08): its own part of the state and its scratchpad, the sequencer
and the hub's split of its panel, the packets, the error log with its attention, and the counter of free values. -/

namespace Sys2Proof.Machine

open Sys2Proof

/-- The context that a core runs, and the one that a pending switch names, are among the four that it has (R52). -/
def Core.inFour (c : Core) : Prop := c.cur < 4 ∧ ∀ k, c.mark = some k → k < 4

/-- An address outside the scratchpad of core `n` (R29, R128). -/
def outsideSpd (n a : Nat) : Prop := a < spdKey n 0 ∨ spdKey n 0 + spdSize ≤ a

/-- A sequencer as the cores of its panel leave it: they set its flags, count its barriers, and its watchdog stands or counts on
with their debug halts (R61, R65). -/
def Seq.Signalled (q r : Seq) : Prop :=
  r = { q with flags := r.flags, bar := r.bar, wdLeft := r.wdLeft, wdRun := r.wdRun, wdFrom := r.wdFrom }

theorem Seq.Signalled.trans {q r t : Seq} (h : q.Signalled r) (k : r.Signalled t) : q.Signalled t := by
  cases q
  cases r
  cases t
  simp only [Seq.Signalled, Seq.mk.injEq, true_and, and_true] at *
  simp only [h, k, and_true]

theorem Seq.signalled_pauseWd (now : Nat) (q : Seq) : q.Signalled (q.pauseWd now) := by
  unfold Seq.pauseWd
  split <;> rfl

theorem Seq.signalled_resumeWd (now : Nat) (armed : Bool) (q : Seq) : q.Signalled (q.resumeWd now armed) := by
  unfold Seq.resumeWd
  split <;> rfl

/-- A message to the host is sent or stands pending. -/
theorem msix_eq (s : State) : ∃ p m, msix s = { s with host := { s.host with msixPending := p, msixSent := m } } := by
  unfold msix State.onHost
  dsimp only
  split
  · exact ⟨_, _, rfl⟩
  · exact ⟨_, _, rfl⟩

/-- From `s` to `t` only core `n` and what its work reaches have changed. -/
structure Own (n : Nat) (s t : State) : Prop where
  cores : ∀ m, m ≠ n → t.core m = s.core m
  panels : ∀ p, ∃ q H, t.panel p = { s.panel p with seq := q, hub := H } ∧ (s.seq p).Signalled q
  others : { t with
    cores := s.cores, panels := s.panels, mem := s.mem, lines := s.lines, packets := s.packets, nextPid := s.nextPid
    log := s.log, attention := s.attention, freeSeq := s.freeSeq
    host := { t.host with msixPending := s.host.msixPending, msixSent := s.host.msixSent } } = s
  mem : (s.core n).inFour → (t.core n).inFour ∧ ∀ a, outsideSpd n a → memGet t.mem a = memGet s.mem a

/-- What a slot of a bundle of core `n` does at issue stays with the core, whichever state its registers are read from. -/
def SlotOwn (n : Nat) (o : SlotOp) : Prop := ∀ s₀ u s, Own n s₀ s → Own n s₀ (o.run n u s)

/-- Each of the four slots of a bundle does. -/
def OpsOwn (n : Nat) (o : Ops) : Prop := SlotOwn n o.c ∧ SlotOwn n o.m ∧ SlotOwn n o.v ∧ SlotOwn n o.s

/-! Bytes that a scratchpad write leaves alone. -/

/-- A range within the scratchpad misses every address outside it. -/
theorem range_outside {n a o len : Nat} (h : outsideSpd n a) (ho : o + len ≤ spdSize) :
    a < spdKey n o ∨ spdKey n o + len ≤ a := by
  have e : spdKey n o = spdKey n 0 + o := by rw [spdKey, spdKey, Nat.add_zero]
  unfold outsideSpd at h
  rw [e]
  generalize spdKey n 0 = b at *
  omega

theorem spdKey_outside {n a o : Nat} (h : outsideSpd n a) (ho : o < spdSize) : a ≠ spdKey n o := by
  have := range_outside (len := 1) h ho
  omega

/-- The four save areas lie in the scratchpad (R53). -/
theorem saveBase_within {k : Nat} (h : k < 4) : saveBase k + 0x14000 ≤ spdSize := by
  unfold saveBase spdSize
  omega

theorem saveBase_lines (k : Nat) : 64 * (saveBase k / 64) = saveBase k := by
  unfold saveBase
  omega

theorem chunks_length_le {α : Type} (fuel : Nat) (l : List α) :
    64 * (chunks 64 fuel l).length ≤ l.length + 63 ∧ (chunks 64 fuel l).flatten.length ≤ l.length := by
  induction fuel generalizing l with
  | zero => simp [chunks]
  | succ fuel ih =>
    cases l with
    | nil => simp [chunks]
    | cons x l =>
      obtain ⟨hc, hf⟩ := ih ((x :: l).drop 64)
      rw [chunks.eq_3 _ _ _ (by simp), List.flatten_cons, List.length_append, List.length_cons]
      simp only [List.length_cons, List.length_drop, List.length_take] at *
      omega

theorem imgHeader_length (x : Ctx) : (imgHeader x).length = 64 := by
  unfold imgHeader
  simp [leBytes_length]

theorem imgBlock_length (x : Ctx) : (imgBlock x).length = 64 := by
  unfold imgBlock
  dsimp only
  simp only [List.length_append, leBytes_length, List.length_flatMap]
  rw [List.map_congr_left (g := fun _ => 12)]
  · simp
  · intro i _
    cases x.loops[i]? <;> simp [leBytes_length]

theorem zipIdx_map_flatMap_fst {α β : Type} (l : List (List α)) (f : List α × Nat → β) :
    (l.zipIdx.map (fun e => (e.1, f e))).flatMap (·.1) = l.flatten := by
  rw [List.flatMap_map]
  show (l.zipIdx.flatMap fun e => e.1) = _
  rw [List.flatMap_def, List.zipIdx_map_fst]

theorem length_flatMap_leBytes (m k : Nat) (f : Nat → Nat) :
    ((List.range m).flatMap fun i => leBytes k (f i)).length = m * k := by
  rw [List.length_flatMap, List.map_congr_left fun i _ => leBytes_length k (f i)]
  simp

/-- A save area holds all that a save writes (R53, R54). -/
theorem areaContents_length_le (x : Ctx) :
    64 * (areaContents x).length ≤ 0x14000 ∧ ((areaContents x).flatMap (·.1)).length ≤ 0x14000 := by
  have hb : (areaBytes x ++ (if x.indexed then areaTiles x else [])).length ≤ 75584 := by
    unfold areaBytes areaTiles
    split <;>
      simp only [List.length_append, imgHeader_length, imgBlock_length, length_flatMap_leBytes, List.length_nil] <;> decide
  obtain ⟨hc, hf⟩ := chunks_length_le (areaBytes x ++ (if x.indexed then areaTiles x else [])).length
    (areaBytes x ++ (if x.indexed then areaTiles x else []))
  unfold areaContents
  dsimp only
  rw [zipIdx_map_flatMap_fst, List.length_map, List.length_zipIdx]
  omega

theorem memGet_foldr_set_other {base a : Nat} (l : List (Byte × Nat)) (m : List Host.Cell) (h : ∀ e ∈ l, a ≠ base + e.2) :
    memGet (l.foldr (fun e m => if e.1 = memDefault then m else Tab.set m (base + e.2) e.1) m) a = memGet m a := by
  induction l with
  | nil => rfl
  | cons e l ih =>
    rw [List.foldr_cons]
    have hl := ih fun e he => h e (List.mem_cons_of_mem _ he)
    split
    · exact hl
    · exact (Tab.get_set_other _ _ _ _ _ (h e List.mem_cons_self)).trans hl

theorem memGet_delRange_other {m : List Host.Cell} {lo len a : Nat} (h : a < lo ∨ lo + len ≤ a) :
    memGet (Tab.delRange m lo len) a = memGet m a :=
  Tab.get_filter_keep _ _ _ _ fun _ => by
    simp only [Bool.not_eq_true', Bool.and_eq_false_iff, decide_eq_false_iff_not]
    omega

theorem exists_of_mem_lineList {bs : List (Nat × Byte)} {l : Nat} (h : l ∈ lineList bs) : ∃ b ∈ bs, b.1 / 64 = l := by
  have key : ∀ (cs : List (Nat × Byte)) (acc : List Nat), (∀ l ∈ acc, ∃ b ∈ bs, b.1 / 64 = l) → (∀ b ∈ cs, b ∈ bs) →
      ∀ l ∈ cs.foldl (fun (acc : List Nat) b => if acc.contains (b.1 / 64) then acc else (b.1 / 64) :: acc) acc,
        ∃ b ∈ bs, b.1 / 64 = l := by
    intro cs
    induction cs with
    | nil => exact fun acc h _ => h
    | cons c cs ih =>
      intro acc h hc
      rw [List.foldl_cons]
      refine ih _ (fun l hl => ?_) fun b hb => hc b (List.mem_cons_of_mem _ hb)
      split at hl
      · exact h l hl
      · rcases List.mem_cons.1 hl with rfl | hl
        · exact ⟨c, hc c List.mem_cons_self, rfl⟩
        · exact h l hl
  exact key bs [] (fun _ h => nomatch h) (fun _ h => h) l (List.mem_reverse.1 h)

theorem rawLine_length (s : State) (n l : Nat) : (rawLine s n l).1.length = 64 := by
  unfold rawLine
  split <;> simp [memBytes]

namespace Own

variable {n : Nat} {s₀ s t : State} {α : Type}

theorem refl (s : State) : Own n s s := ⟨fun _ _ => rfl, fun _ => ⟨_, _, rfl, rfl⟩, rfl, fun h => ⟨h, fun _ _ => rfl⟩⟩

theorem stack (h : Own n s t) (p : Nat) : t.stack p = s.stack p := by
  obtain ⟨q, H, e, -⟩ := h.panels p
  rw [State.stack, e, State.stack]

/-- Core `n` alone changes, and still names contexts that it has. -/
theorem onCoreWith {f : Core → Core} (h : Own n s₀ s) (hf : (s₀.core n).inFour → (f (s.core n)).inFour) :
    Own n s₀ (s.onCore n f) where
  cores m hm := (State.core_onCore_other s n m f hm).trans (h.cores m hm)
  panels := h.panels
  others := h.others
  mem hc := ⟨by rw [State.core_onCore_same]; exact hf hc, (h.mem hc).2⟩

theorem onCore {f : Core → Core} (h : Own n s₀ s)
    (hf : ∀ c, (f c).cur = c.cur ∧ (f c).mark = c.mark) : Own n s₀ (s.onCore n f) :=
  h.onCoreWith fun hc => by
    obtain ⟨ecur, emark⟩ := hf (s.core n)
    obtain ⟨hcur, hmark⟩ := (h.mem hc).1
    exact ⟨ecur ▸ hcur, emark ▸ hmark⟩

/-- The sequencer and the hub of a panel alone change. -/
theorem onPanel {p : Nat} {f : Panel → Panel} (h : Own n s₀ s)
    (hf : ∀ P, ∃ q H, f P = { P with seq := q, hub := H } ∧ P.seq.Signalled q) : Own n s₀ (s.onPanel p f) where
  cores := h.cores
  panels r := by
    obtain ⟨q, H, e, hq⟩ := h.panels r
    by_cases hr : r = p
    · subst hr
      obtain ⟨q', H', e', hq'⟩ := hf (s.panel r)
      rw [e] at hq'
      exact ⟨q', H', by rw [State.panel_onPanel_same, e', e], hq.trans hq'⟩
    · exact ⟨q, H, by rw [State.panel_onPanel_other _ _ _ _ hr, e], hq⟩
  others := h.others
  mem := h.mem

/-- The memory alone changes, within the scratchpad. -/
theorem setMem {m : List Host.Cell} (h : Own n s₀ s)
    (hm : (s₀.core n).inFour → ∀ a, outsideSpd n a → memGet m a = memGet s.mem a) : Own n s₀ { s with mem := m } where
  cores := h.cores
  panels := h.panels
  others := h.others
  mem hc := ⟨(h.mem hc).1, fun a ha => (hm hc a ha).trans ((h.mem hc).2 a ha)⟩

theorem setBytes {m : List Host.Cell} {l : Tab Line} (h : Own n s₀ s)
    (hm : (s₀.core n).inFour → ∀ a, outsideSpd n a → memGet m a = memGet s.mem a) :
    Own n s₀ { s with mem := m, lines := l } where
  cores := h.cores
  panels := h.panels
  others := h.others
  mem hc := ⟨(h.mem hc).1, fun a ha => (hm hc a ha).trans ((h.mem hc).2 a ha)⟩

theorem ite {c : Prop} [Decidable c] (hs : Own n s₀ s) (ht : Own n s₀ t) : Own n s₀ (if c then s else t) := by
  split
  · exact hs
  · exact ht

theorem iteSnd {c : Prop} [Decidable c] {x y : α × State} (hx : Own n s₀ x.2) (hy : Own n s₀ y.2) :
    Own n s₀ (if c then x else y).2 := by
  split
  · exact hx
  · exact hy

theorem ofSnd {x : α × State} {a : α} (h : Own n s₀ x.2) (e : x = (a, t)) : Own n s₀ t := by
  subst e
  exact h

theorem ofFst {x : State × α} {a : α} (h : Own n s₀ x.1) (e : x = (t, a)) : Own n s₀ t := by
  subst e
  exact h

theorem foldlMem {f : State → α → State} {l : List α} (h : Own n s₀ s) (hf : ∀ t, ∀ x ∈ l, Own n s₀ t → Own n s₀ (f t x)) :
    Own n s₀ (l.foldl f s) := by
  induction l generalizing s with
  | nil => exact h
  | cons x l ih => exact ih (hf s x List.mem_cons_self h) fun t y hy => hf t y (List.mem_cons_of_mem _ hy)

theorem foldl {f : State → α → State} {l : List α} (h : Own n s₀ s) (hf : ∀ t x, Own n s₀ t → Own n s₀ (f t x)) :
    Own n s₀ (l.foldl f s) := h.foldlMem fun t x _ => hf t x

theorem freshNat (h : Own n s₀ s) : Own n s₀ (freshNat s).2 := ⟨h.1, h.2, h.3, h.4⟩

theorem msix (h : Own n s₀ s) : Own n s₀ (msix s) := by
  obtain ⟨p, m, e⟩ := msix_eq s
  rw [e]
  exact ⟨h.1, h.2, h.3, h.4⟩

theorem setLog {l : ErrLog} (h : Own n s₀ s) : Own n s₀ { s with log := l } := ⟨h.1, h.2, h.3, h.4⟩

theorem attend (h : Own n s₀ s) : Own n s₀ (attend s) := by
  unfold Machine.attend
  exact .ite h (.msix ⟨h.1, h.2, h.3, h.4⟩)

theorem logErr {severity cls unit status d0 d1 : Nat} (h : Own n s₀ s) :
    Own n s₀ (logErr severity cls unit status d0 d1 s) := by
  unfold Machine.logErr
  exact .ite (.setLog (.ite (.attend h) h)) (.setLog (.ite (.attend h) h))

theorem onCtx {k : Nat} {f : Ctx → Ctx} (h : Own n s₀ s) : Own n s₀ (State.onCtx s n k f) := by
  unfold State.onCtx
  exact .onCore h fun _ => ⟨rfl, rfl⟩

theorem onCur {f : Ctx → Ctx} (h : Own n s₀ s) : Own n s₀ (State.onCur s n f) := by
  unfold State.onCur
  exact .onCtx h

theorem onCounts {f : Counts → Counts} (h : Own n s₀ s) : Own n s₀ (State.onCounts s n f) := by
  unfold State.onCounts
  exact .onCur h

theorem onArr {a : Nat} {f : Arr → Arr} (h : Own n s₀ s) : Own n s₀ (State.onArr s n a f) := by
  unfold State.onArr
  refine .onCore h fun c => ?_
  unfold Core.onArr
  split <;> exact ⟨rfl, rfl⟩

theorem onList {k l : Nat} {f : SList → SList} (h : Own n s₀ s) : Own n s₀ (State.onList s n k l f) := by
  unfold State.onList
  exact .onCtx h

theorem onSlot {k q : Nat} {f : QSlot → QSlot} (h : Own n s₀ s) : Own n s₀ (State.onSlot s n k q f) := by
  unfold State.onSlot
  exact .onCtx h

theorem onSeq {p : Nat} {f : Seq → Seq} (h : Own n s₀ s) (hf : ∀ q : Seq, q.Signalled (f q)) :
    Own n s₀ (State.onSeq s p f) :=
  .onPanel h fun P => ⟨_, _, rfl, hf P.seq⟩

theorem putLine {l : Nat} {v : Line} (h : Own n s₀ s) : Own n s₀ (State.putLine s n l v) := ⟨h.1, h.2, h.3, h.4⟩

theorem recordUe {path l : Nat} {weight checked : Bool} {off : Nat} (h : Own n s₀ s) :
    Own n s₀ (recordUe path n l weight checked off s) := by
  unfold Machine.recordUe
  exact .logErr (.putLine (.onCore h fun _ => ⟨rfl, rfl⟩))

theorem materialise {l : Nat} (h : Own n s₀ s) (hl : 64 * l + 64 ≤ spdSize) : Own n s₀ (materialise n l s) := by
  unfold Machine.materialise
  dsimp only
  split
  · exact h
  · refine .onCore (.putLine (.setMem h fun _ a ha => memGet_memPutBytes_other _ _ _ _ ?_)) fun _ => ⟨rfl, rfl⟩
    rw [rawLine_length]
    exact range_outside ha hl

theorem readLine {path l : Nat} (h : Own n s₀ s) : Own n s₀ (readLine path n l s).2 := by
  unfold Machine.readLine
  dsimp only
  split
  · exact h
  · dsimp only
    exact .onCore h fun _ => ⟨rfl, rfl⟩
  · split
    · dsimp only
      exact .onCore h fun _ => ⟨rfl, rfl⟩
    · exact .recordUe h

theorem readLines {path : Nat} {l : List Nat} (h : Own n s₀ s) : Own n s₀ (readLines path n l s).2 := by
  induction l generalizing s with
  | nil => exact h
  | cons l t ih => exact ih (.readLine h)

theorem spdRead {path off len : Nat} (h : Own n s₀ s) : Own n s₀ (spdRead path n off len s).2 := .readLines h

theorem storeLine {l : Nat} {bs : List (Nat × Byte)} {pois : Bool} (h : Own n s₀ s) (hl : 64 * l + 64 ≤ spdSize)
    (hb : ∀ b ∈ bs, b.1 < spdSize) : Own n s₀ (storeLine n l bs pois s) := by
  unfold Machine.storeLine
  exact .onCore (.putLine (.setMem (.materialise h hl) fun _ a ha =>
    memGet_putPairs_other _ fun b hm => spdKey_outside ha (hb b hm))) fun _ => ⟨rfl, rfl⟩

theorem noteStore {l : Nat} (h : Own n s₀ s) : Own n s₀ (noteStore n l s) := by
  unfold Machine.noteStore
  dsimp only
  exact .ite (.onCore h fun _ => ⟨rfl, rfl⟩) h

theorem writeLine {l : Nat} {bs : List (Nat × Byte)} {pois : Bool} (h : Own n s₀ s) (hl : 64 * l + 64 ≤ spdSize)
    (hb : ∀ b ∈ bs, b.1 < spdSize) : Own n s₀ (writeLine n l bs pois s) := by
  unfold Machine.writeLine
  exact .storeLine (.noteStore h) hl hb

theorem spdWrite {pairs : List (Nat × Byte)} {pois : List Nat} (h : Own n s₀ s) :
    Own n s₀ (spdWrite n pairs pois s) := by
  unfold Machine.spdWrite
  dsimp only
  have hin : ∀ b ∈ pairs.filter (fun b => decide (b.1 < spdSize)), b.1 < spdSize := fun b hb => by
    simpa using (List.mem_filter.1 hb).2
  refine .foldlMem h fun t l hl ht => .writeLine ht ?_ fun b hb => hin b (List.mem_of_mem_filter hb)
  obtain ⟨b, hb, rfl⟩ := exists_of_mem_lineList hl
  have := hin b hb
  unfold spdSize at *
  omega

theorem unhalt (h : Own n s₀ s) : Own n s₀ (unhalt n s) := by
  unfold Machine.unhalt
  have hn : Own n s₀ (s.onCore n (fun c => { c with halted := none })) := .onCore h fun _ => ⟨rfl, rfl⟩
  exact .ite h (.ite hn (.onSeq hn (Seq.signalled_resumeWd _ _)))

theorem writeFull {l : Nat} {ls : List (List Byte × Bool)} (h : Own n s₀ s)
    (hl : (s₀.core n).inFour → 64 * l + 64 * ls.length ≤ spdSize ∧ 64 * l + (ls.flatMap (·.1)).length ≤ spdSize) :
    Own n s₀ (writeFull n l ls s) := by
  unfold Machine.writeFull
  refine .onCore (.setBytes h fun hc a ha => ?_) fun _ => ⟨rfl, rfl⟩
  obtain ⟨hlen, hbytes⟩ := hl hc
  refine (memGet_foldr_set_other _ _ fun e he => ?_).trans (memGet_delRange_other (range_outside ha hlen))
  have he2 : e.2 < (ls.flatMap (·.1)).length := List.snd_lt_of_mem_zipIdx he
  rcases range_outside ha hbytes with h | h <;> omega

theorem saveArea {k : Nat} (h : Own n s₀ s) (hk : (s₀.core n).inFour → k < 4) : Own n s₀ (saveArea n k s) := by
  unfold Machine.saveArea
  refine .writeFull h fun hc => ?_
  obtain ⟨hlen, hbytes⟩ := areaContents_length_le (s.ctxAt n k)
  have := saveBase_within (hk hc)
  rw [saveBase_lines]
  omega

theorem loadArea {k : Nat} (h : Own n s₀ s) : Own n s₀ (loadArea n k s).2 := by
  unfold Machine.loadArea
  dsimp only
  split
  · exact .readLines h
  · exact .onCtx (.readLines h)

theorem flyRes {slot pc lat : Nat} {w : RegW} (h : Own n s₀ s) : Own n s₀ (flyRes n slot pc lat w s) := by
  unfold Machine.flyRes
  exact .onCore h fun _ => ⟨rfl, rfl⟩

theorem lateExc {slot pc : Nat} {e : Exc} (h : Own n s₀ s) : Own n s₀ (lateExc n slot pc e s) := by
  unfold Machine.lateExc
  exact .flyRes h

theorem setFlag (h : Own n s₀ s) : Own n s₀ (setFlag n s) := by
  unfold Machine.setFlag
  exact .onCore h fun _ => ⟨rfl, rfl⟩

theorem retireChain {f : Flying} (h : Own n s₀ s) : Own n s₀ (retireChain n f s) := by
  unfold Machine.retireChain
  exact .ite (.setFlag (.onCounts (.ite (.onCur h) (.onCounts (.onCur h))))) (.ite (.onCur h) (.onCounts (.onCur h)))

theorem writeGroupCount {g : Group} (h : Own n s₀ s) : Own n s₀ (writeGroupCount n g s) := by
  unfold Machine.writeGroupCount
  exact .spdWrite h

theorem applyRes {w : RegW} (h : Own n s₀ s) : Own n s₀ (applyRes n w s) := by
  unfold Machine.applyRes
  split
  · exact .onCur h
  · exact .onCur h
  · exact .onCur h
  · exact .onCur h
  · exact .onCur h
  · exact .onCur h
  · exact .onCur h
  · exact .retireChain h
  · exact h
  · exact .onCur h
  · split
    · exact .writeGroupCount (.onCur h)
    · exact h
  · exact .onCur h
  · exact .onArr h
  · exact .onCur h

theorem captureGens {cyc : Nat} (h : Own n s₀ s) : Own n s₀ (captureGens n cyc s) := by
  unfold Machine.captureGens
  exact .ite h (.onCore h fun _ => ⟨rfl, rfl⟩)

theorem retireUpTo {cyc : Nat} (h : Own n s₀ s) : Own n s₀ (retireUpTo n cyc s).1 := by
  unfold Machine.retireUpTo
  dsimp only
  exact .foldl (.onCore h fun _ => ⟨rfl, rfl⟩) (fun _ _ => .applyRes)

theorem commitStores {cyc : Nat} (h : Own n s₀ s) : Own n s₀ (commitStores n cyc s) := by
  unfold Machine.commitStores
  exact .foldl (.onCore h fun _ => ⟨rfl, rfl⟩) (fun _ _ => .spdWrite)

theorem arrayRead {cyc off len : Nat} (h : Own n s₀ s) : Own n s₀ (arrayRead n cyc off len s).2 := by
  unfold Machine.arrayRead
  dsimp only
  exact .spdRead h

theorem gmeEvent {kind count slotPc : Nat} (h : Own n s₀ s) : Own n s₀ (gmeEvent n kind count slotPc s) := by
  unfold Machine.gmeEvent
  exact .ite h (.ite (.lateExc (.onCounts h)) (.onCounts h))

theorem shadowPart {a : Nat} (h : Own n s₀ s) : Own n s₀ (shadowPart n a s) := by
  unfold Machine.shadowPart
  dsimp only
  split
  · exact h
  · exact .gmeEvent (.onArr (.spdRead (.spdRead (.spdRead h))))

theorem shadowUpTo {a cyc : Nat} {fuel : Nat} (h : Own n s₀ s) : Own n s₀ (shadowUpTo n a cyc fuel s) := by
  induction fuel generalizing s with
  | zero => exact h
  | succ fuel ih =>
    unfold Machine.shadowUpTo
    split
    · exact h
    · exact .ite (ih (.shadowPart h)) h

theorem pushRows {a : Nat} {l : List RowOp} (h : Own n s₀ s) : Own n s₀ (pushRows n a l s) := by
  unfold Machine.pushRows
  exact .onArr h

theorem smulEntry {a : Nat} {I : Inp} {x list base stride : Nat} {bad : Bool} (h : Own n s₀ s) :
    Own n s₀ (smulEntry n a I x list base stride bad s) := by
  unfold Machine.smulEntry
  dsimp only
  exact .ite (.pushRows (.arrayRead h)) (.ite (.pushRows (.arrayRead h)) (.ite (.pushRows (.arrayRead h)) (.ite
    (.gmeEvent (.pushRows (.arrayRead h))) (.ite (.gmeEvent (.pushRows (.arrayRead (.arrayRead h)))) (.pushRows
      (.arrayRead (.arrayRead h)))))))

theorem inputRow {a : Nat} (h : Own n s₀ s) : Own n s₀ (inputRow n a s) := by
  unfold Machine.inputRow
  dsimp only
  split
  · exact h
  · split
    · exact .onArr (.pushRows h)
    · exact .onArr (.pushRows (.arrayRead h))
    · exact .onArr (.pushRows (.arrayRead h))
    · exact .onArr (.pushRows (.arrayRead (.arrayRead h)))
    · exact .onArr (.smulEntry h)

theorem inputUpTo {a cyc : Nat} {fuel : Nat} (h : Own n s₀ s) : Own n s₀ (inputUpTo n a cyc fuel s) := by
  induction fuel generalizing s with
  | zero => exact h
  | succ fuel ih =>
    unfold Machine.inputUpTo
    split
    · exact h
    · exact .ite (ih (.inputRow h)) h

theorem noteWrite {a : Nat} {op : RowOp} (h : Own n s₀ s) : Own n s₀ (noteWrite n a op s) := by
  unfold Machine.noteWrite
  exact .onArr h

theorem applyRow {a : Nat} {op : RowOp} (h : Own n s₀ s) : Own n s₀ (applyRow n a op s) := by
  unfold Machine.applyRow
  dsimp only
  split
  · split
    · exact h
    · exact .noteWrite h
  · refine .onCur ?_
    split
    · exact h
    · exact .noteWrite h
  · refine .onCur ?_
    split
    · exact h
    · exact .noteWrite h
  · refine .onCur ?_
    split
    · exact h
    · exact .noteWrite h
  · refine .onArr ?_
    refine .onCur ?_
    split
    · exact h
    · exact .noteWrite h

theorem rowsUpTo {a cyc : Nat} (h : Own n s₀ s) : Own n s₀ (rowsUpTo n a cyc s) := by
  unfold Machine.rowsUpTo
  exact .foldl (.onArr h) (fun _ _ => .applyRow)

theorem arrayBefore {a cyc : Nat} (h : Own n s₀ s) : Own n s₀ (arrayBefore n a cyc s) := by
  unfold Machine.arrayBefore
  exact .ite h (.inputUpTo (.shadowUpTo h))

theorem writesOf {t : Nat} (h : Own n s₀ s) : Own n s₀ (writesOf n t s) := by
  unfold Machine.writesOf
  exact .ite (.commitStores (.arrayBefore (.arrayBefore h))) h

theorem catchUp (h : Own n s₀ s) : Own n s₀ (catchUp n s).1 := by
  unfold Machine.catchUp
  exact .retireUpTo (.commitStores (.arrayBefore (.arrayBefore h)))

theorem duringCycle {c : Nat} (h : Own n s₀ s) : Own n s₀ (duringCycle n c s) := by
  unfold Machine.duringCycle
  exact .captureGens (.rowsUpTo (.rowsUpTo h))

theorem passCycle (h : Own n s₀ s) : Own n s₀ (passCycle n s).1 := by
  unfold Machine.passCycle
  dsimp only
  exact .onCore (.duringCycle (.catchUp h)) fun _ => ⟨rfl, rfl⟩

theorem writeBlock {k l : Nat} (h : Own n s₀ s) : Own n s₀ (writeBlock n k l s) := by
  unfold Machine.writeBlock
  exact .spdWrite h

theorem suspendLists {k : Nat} (h : Own n s₀ s) : Own n s₀ (suspendLists n k s) := by
  unfold Machine.suspendLists
  exact .foldl h (fun _ _ h => .ite (.writeBlock h) h)

theorem reloadList {k l : Nat} (h : Own n s₀ s) : Own n s₀ (reloadList n k l s) := by
  unfold Machine.reloadList
  dsimp only
  exact .ite (.onList (.spdRead h)) h

theorem reloadLists {k : Nat} (h : Own n s₀ s) : Own n s₀ (reloadLists n k s) := by
  unfold Machine.reloadLists
  exact .foldl h (fun _ _ => .reloadList)

theorem endLists {k : Nat} (h : Own n s₀ s) : Own n s₀ (endLists n k s) := by
  unfold Machine.endLists
  exact .foldl h (fun _ _ h => .ite (.writeBlock (.onList h)) (.ite (.writeBlock h) h))

theorem cleanArea {k : Nat} (h : Own n s₀ s) (hk : (s₀.core n).inFour → k < 4) : Own n s₀ (cleanArea n k s) := by
  unfold Machine.cleanArea
  dsimp only
  exact .onCore (.setBytes h fun hc a ha => memGet_delRange_other (range_outside ha (saveBase_within (hk hc))))
    fun _ => ⟨rfl, rfl⟩

theorem releaseArea {k : Nat} (h : Own n s₀ s) (hk : (s₀.core n).inFour → k < 4) : Own n s₀ (releaseArea n k s) := by
  unfold Machine.releaseArea
  exact .onCore (.cleanArea ⟨h.1, h.2, h.3, h.4⟩ hk) fun _ => ⟨rfl, rfl⟩

theorem writeGroups {k : Nat} (h : Own n s₀ s) : Own n s₀ (writeGroups n k s) := by
  unfold Machine.writeGroups
  exact .foldl h (fun _ _ => .writeGroupCount)

theorem reopenGroups {k : Nat} (h : Own n s₀ s) : Own n s₀ (reopenGroups n k s) := by
  unfold Machine.reopenGroups
  dsimp only
  exact .foldl h (fun _ _ h => .onCtx (.spdRead h))

theorem saveCur {st : CtxState} (h : Own n s₀ s) : Own n s₀ (saveCur n st s) := by
  unfold Machine.saveCur
  exact .onCore (.saveArea (.onCtx (.suspendLists (.writeGroups h))) fun hc => (h.mem hc).1.1) fun _ => ⟨rfl, rfl⟩

theorem restoreFault {k : Nat} {e : Exc} (h : Own n s₀ s) (hk : (s₀.core n).inFour → k < 4) :
    Own n s₀ (restoreFault n k e s) := by
  unfold Machine.restoreFault
  dsimp only
  refine .onCore (.writeFull (.onCtx h) fun hc => ?_) fun _ => ⟨rfl, rfl⟩
  have := saveBase_within (hk hc)
  rw [saveBase_lines]
  simp only [List.flatMap_cons, List.flatMap_nil, List.append_nil, imgHeader_length, List.length_cons, List.length_nil]
  omega

theorem restoreArea {k : Nat} {st : CtxState} (h : Own n s₀ s) (hk : (s₀.core n).inFour → k < 4) :
    Own n s₀ (restoreArea n k st s) := by
  unfold Machine.restoreArea
  dsimp only
  split
  next t e =>
    exact .restoreFault (.ofSnd (.loadArea h) e) hk
  next t e =>
    have ht : Own n s₀ t := .ofSnd (.loadArea h) e
    exact .ite (.restoreFault ht hk) (.reloadLists (.reopenGroups (.onCtx (.onCore ht fun _ => ⟨rfl, rfl⟩))))

theorem startCtx {k : Nat} (h : Own n s₀ s) (hk : (s₀.core n).inFour → k < 4) : Own n s₀ (startCtx n k s) := by
  unfold Machine.startCtx
  have hs : Own n s₀ (s.onCore n (fun c => { c with cur := k, power := .run, mark := none, boundary := none })) :=
    .onCoreWith h fun hc => ⟨hk hc, nofun⟩
  exact .ite (.onCtx (.onCore hs fun _ => ⟨rfl, rfl⟩)) (.restoreArea hs hk)

theorem afterStop (h : Own n s₀ s) : Own n s₀ (afterStop n s) := by
  unfold Machine.afterStop
  dsimp only
  split
  next k e =>
    exact .ite (.startCtx h fun hc => (h.mem hc).1.2 k e) (.onCoreWith h fun hc => ⟨(h.mem hc).1.1, nofun⟩)
  · exact .onCore h fun _ => ⟨rfl, rfl⟩

theorem recordExc {r : ExcRec} (h : Own n s₀ s) : Own n s₀ (recordExc n r s) := by
  unfold Machine.recordExc
  dsimp only
  exact .onCore (.onCtx h) fun _ => ⟨rfl, rfl⟩

theorem setSplit {p : Nat} {v : Split} (h : Own n s₀ s) : Own n s₀ (setSplit p v s) := by
  unfold Machine.setSplit
  refine .onPanel h fun P => ?_
  dsimp only
  split <;> exact ⟨_, _, rfl, rfl⟩

theorem relaxSplit {p : Nat} (h : Own n s₀ s) : Own n s₀ (relaxSplit p s) := by
  unfold Machine.relaxSplit
  exact .ite (.setSplit h) h

theorem finishBoundary (h : Own n s₀ s) : Own n s₀ (finishBoundary n s) := by
  unfold Machine.finishBoundary
  dsimp only
  split
  · exact h
  · refine .ite h ?_
    split
    · exact .afterStop (.saveCur h)
    · exact .afterStop (.saveCur (.onCtx (.recordExc h)))
    · split
      next j e =>
        exact .ite (.startCtx (.saveCur h) fun hc => (h.mem hc).1.2 j e)
          (.onCoreWith (.writeGroups h) fun hc => ⟨((Own.writeGroups h).mem hc).1.1, nofun⟩)
      · exact .onCore (.writeGroups h) fun _ => ⟨rfl, rfl⟩
    · exact .relaxSplit (.afterStop (.onCore (.releaseArea (.onCtx (.endLists (.writeGroups h))) fun hc => (h.mem hc).1.1)
        fun _ => ⟨rfl, rfl⟩))

theorem contextFault {r : ExcRec} (h : Own n s₀ s) : Own n s₀ (contextFault n r s) := by
  unfold Machine.contextFault
  exact .finishBoundary (.onCore (.recordExc h) fun _ => ⟨rfl, rfl⟩)

theorem enterBoundary {b : Boundary} {pc : Nat} (h : Own n s₀ s) : Own n s₀ (enterBoundary n b pc s) := by
  unfold Machine.enterBoundary
  exact .onCore h fun _ => ⟨rfl, rfl⟩

theorem haltTry (h : Own n s₀ s) : Own n s₀ (haltTry n s) := by
  unfold Machine.haltTry
  dsimp only
  refine .ite h ?_
  split
  · exact .ite (.onCore (.suspendLists h) fun _ => ⟨rfl, rfl⟩) h
  · refine .ite h ?_
    have hp : Own n s₀ ((s.onCore n (fun c => { c with halted := some c.cur, held := none })).onSeq (panelOf n)
        (Seq.pauseWd s.now)) := .onSeq (.onCore h fun _ => ⟨rfl, rfl⟩) (Seq.signalled_pauseWd _)
    exact .ite (.onCore (.suspendLists hp) fun _ => ⟨rfl, rfl⟩) hp

theorem drainCycle (h : Own n s₀ s) : Own n s₀ (drainCycle n s) := by
  unfold Machine.drainCycle
  refine .ite ?_ h
  split
  next t e =>
    exact (.ofFst (.passCycle h) e)
  next t r e =>
    exact .ite (.ofFst (.passCycle h) e) (.contextFault (.ofFst (.passCycle h) e))

theorem stopCtx {k : Nat} (h : Own n s₀ s) (hk : (s₀.core n).inFour → k < 4) : Own n s₀ (stopCtx n k s) := by
  unfold Machine.stopCtx
  dsimp only
  refine .ite h ?_
  split
  · exact .relaxSplit (.afterStop (.onCore (.onCore (.releaseArea (.onCtx (.onCtx (.commitStores (.unhalt h)))) hk)
      fun _ => ⟨rfl, rfl⟩) fun _ => ⟨rfl, rfl⟩))
  · exact .relaxSplit (.onCore (.releaseArea (.onCtx h) hk) fun _ => ⟨rfl, rfl⟩)

theorem launchOn {k entry : Nat} {args : List W64} {sel : Sel} (h : Own n s₀ s) (hk : (s₀.core n).inFour → k < 4)
    (e : launchOn n k entry args sel s = some t) : Own n s₀ t := by
  unfold Machine.launchOn at e
  dsimp only at e
  split at e
  · cases e
  · split at e <;> cases e
    · exact .startCtx (.onCore (.onCtx h) fun _ => ⟨rfl, rfl⟩) hk
    · exact .onCore (.onCtx h) fun _ => ⟨rfl, rfl⟩

theorem markSwitch {k : Nat} (h : Own n s₀ s) (hk : (s₀.core n).inFour → k < 4) : Own n s₀ (markSwitch n k s) := by
  unfold Machine.markSwitch
  exact .ite (.ite (.startCtx h hk) h)
    (.onCoreWith h fun hc => ⟨(h.mem hc).1.1, fun j e => Option.some.inj e ▸ hk hc⟩)


theorem slotUndef : SlotOwn n SlotOp.undef := fun _ _ _ h => h

theorem setBranch {t : Int} (h : Own n s₀ s) : Own n s₀ (setBranch n t s) := by
  unfold Machine.setBranch
  exact .onCur h

theorem openLoop {count body : Nat} (h : Own n s₀ s) : Own n s₀ (openLoop n count body s) := by
  unfold Machine.openLoop
  exact .onCur h

theorem consumeEvent {kind : Nat} (h : Own n s₀ s) : Own n s₀ (consumeEvent n kind s) := by
  unfold Machine.consumeEvent
  exact .ite (.onCore h fun _ => ⟨rfl, rfl⟩) h

theorem setHazard {q : Nat} (h : Own n s₀ s) : Own n s₀ (setHazard n q s) := by
  unfold Machine.setHazard
  exact .onCounts h

theorem putPoisonEntry {k q : Nat} (h : Own n s₀ s) : Own n s₀ (putPoisonEntry n k q s) := by
  unfold Machine.putPoisonEntry
  exact .onSlot (.spdWrite h)

theorem payOwed {k q : Nat} {fuel : Nat} (h : Own n s₀ s) : Own n s₀ (payOwed n k q fuel s) := by
  induction fuel generalizing s with
  | zero => exact h
  | succ fuel ih =>
    unfold Machine.payOwed
    exact .ite (ih (.putPoisonEntry h)) h

theorem slotPop {q : Nat} (h : Own n s₀ s) : Own n s₀ (slotPop n q s) := by
  unfold Machine.slotPop
  exact .payOwed (.onSlot (.ite h (.setHazard h)))

theorem slotPush {q : Nat} (h : Own n s₀ s) : Own n s₀ (slotPush n q s) := by
  unfold Machine.slotPush
  exact .onSlot (.ite (.onCur (.ite (.setHazard h) h)) (.ite (.setHazard h) h))

theorem storeNow {port : Nat} {bytes : List (Nat × Byte)} {pois : List Nat} (h : Own n s₀ s) :
    Own n s₀ (storeNow n port bytes pois s) := by
  unfold Machine.storeNow
  exact .onCore h fun _ => ⟨rfl, rfl⟩

theorem takePort {p : Nat} (h : Own n s₀ s) : Own n s₀ (takePort n p s) := by
  unfold Machine.takePort
  exact .onCore h fun _ => ⟨rfl, rfl⟩

theorem countPois {b : Bool} (h : Own n s₀ s) : Own n s₀ (countPois n b s) := by
  unfold Machine.countPois
  exact .ite (.onCounts h) h

theorem vinsOp (i : VIns) : SlotOwn n i.op := by
  intro s₀ u s h
  cases i
  case vbc | vext | vseed => exact .foldl h fun _ _ => .flyRes
  case nop => exact h
  case vld => exact .flyRes (.takePort (.readLines h))
  case vst =>
    dsimp only [VIns.op, opVst]
    exact .onCore (.countPois (.takePort h)) fun _ => ⟨rfl, rfl⟩
  case vldc => exact .flyRes (.spdRead (.takePort h))
  case vqrd => exact .flyRes (.slotPop (.spdRead (.takePort h)))
  case vqwr => exact .slotPush (.storeNow (.countPois (.takePort h)))
  case vch =>
    dsimp only [VIns.op, opVch]
    split
    · exact h
    · exact .ite (.onCounts h) (.flyRes (.ite (.onCur h) h))

theorem slotV (w : W32) : SlotOwn n (slotV w) := by
  unfold Machine.slotV
  split
  · exact vinsOp _
  · exact slotUndef

theorem joinQueue {a : Nat} {op : DrainOp} (h : Own n s₀ s) : Own n s₀ (joinQueue n a op s) := by
  unfold Machine.joinQueue
  exact .onArr h

theorem doPass {a t k last pc : Nat} (h : Own n s₀ s) : Own n s₀ (doPass n a t k last pc s) := by
  unfold Machine.doPass
  dsimp only
  exact .foldl h (fun _ _ h => .ite (.foldl (.onCur h) (fun _ _ => .joinQueue)) (.onCur h))

theorem takeInput {a cycles : Nat} {I : Inp} (h : Own n s₀ s) : Own n s₀ (takeInput n a cycles I s) := by
  unfold Machine.takeInput
  exact .onArr h

theorem swapIn {a : Nat} {sw : BitVec 1} (h : Own n s₀ s) : Own n s₀ (swapIn n a sw s) := by
  unfold Machine.swapIn
  exact .ite (.onArr h) h

theorem startLoad {a wf af nm src sc md pc : Nat} (h : Own n s₀ s) :
    Own n s₀ (startLoad n a wf af nm src sc md pc s) := by
  unfold Machine.startLoad
  exact .onArr (.shadowUpTo h)

theorem minsOp (i : MIns) : SlotOwn n i.op := by
  intro s₀ u s h
  cases i
  case mcfg | mseed => exact .foldl h fun _ _ => .flyRes
  case nop => exact h
  case mldw | mlds => exact .startLoad h
  case mmul => exact .doPass (.takeInput (.swapIn h))
  case mpre | mclr => exact .takeInput h
  case mdrain | mdrs | smrg | scmp | strw => exact .joinQueue h
  case mspill =>
    refine .foldl h fun _ _ h => ?_
    split
    · exact .joinQueue h
    · exact h
  case mgrpOpen => exact .flyRes (.spdRead h)
  case mgrpClose => exact .flyRes h
  case smul => exact .doPass (.takeInput (.gmeEvent (.spdRead (.swapIn h))))

theorem slotM (w : W32) : SlotOwn n (slotM w) := by
  unfold Machine.slotM
  split
  · exact minsOp _
  · exact slotUndef

theorem launchPacket {k : Packet} (h : Own n s₀ s) : Own n s₀ (launchPacket k s) := ⟨h.1, h.2, h.3, h.4⟩

theorem sendReq {op : POp} {q : Req} (h : Own n s₀ s) : Own n s₀ (sendReq n op q s) := by
  unfold Machine.sendReq
  dsimp only
  exact .launchPacket (.onCore h fun _ => ⟨rfl, rfl⟩)

theorem reserveTail {q bytes : Nat} (h : Own n s₀ s) : Own n s₀ (reserveTail n q bytes s) := by
  unfold Machine.reserveTail
  exact .onSlot (.ite (.setHazard h) h)

theorem sinsOp (i : SIns) : SlotOwn n i.op := by
  intro s₀ u s h
  cases i
  case nop => exact h
  case sqcfg => exact .flyRes (.spdRead h)
  case sqcnt | shead | stail | slstat => exact .flyRes h
  case spop => exact .slotPop h
  case spush => exact .slotPush h
  case slist =>
    dsimp only [SIns.op, opSlist]
    exact .onList (.spdRead h)
  case slstop =>
    dsimp only [SIns.op, opSlstop]
    exact .onList h

theorem slotS (w : W32) : SlotOwn n (slotS w) := by
  unfold Machine.slotS
  split
  · exact sinsOp _
  · exact slotUndef

theorem cinsOp (i : CIns) : SlotOwn n i.op := by
  intro s₀ u s h
  cases i
  case add | sub | andS | orS | xorS | shl | shr | sra | minS | maxS | mul | mulh | cmp | sel | addi | andi | lui | ori |
      amov | aget | aadd | aaddi | aform | pop | kmov | kget | ktail | kop => exact .foldl h fun _ _ => .flyRes
  case nop | yield | endC | launch | cswitch | cstop | xwake | fset | fclr | fwait | barrier | prest | stepBegin | stepEnd |
      wdog | cwait => exact h
  case ld => exact .ite (.flyRes (.spdRead h)) (.flyRes (.spdRead h))
  case st =>
    dsimp only [CIns.op, opSt]
    exact .onCore h fun _ => ⟨rfl, rfl⟩
  case ldf => exact .sendReq (.reserveTail h)
  case stf =>
    dsimp only [CIns.op, opStf]
    exact .onCur (.slotPush (.storeNow h))
  case srd => exact .flyRes (.slotPop (.spdRead h))
  case swr => exact .slotPush (.storeNow h)
  case br => exact .ite (.setBranch h) h
  case jmp | jr => exact .setBranch h
  case loop | loopi => exact .openLoop h
  case wait => exact .ite (.consumeEvent (.flyRes h)) (.onCore (.onCur h) fun _ => ⟨rfl, rfl⟩)
  case rest => exact .ite (.consumeEvent h) (.onCore (.onCur h) fun _ => ⟨rfl, rfl⟩)
  case sig =>
    dsimp only [CIns.op, opSig]
    exact .onSeq h fun _ => rfl
  case arrive =>
    dsimp only [CIns.op, opArrive]
    exact .onSeq h fun _ => rfl
  case mfc => exact .flyRes h
  case mtc =>
    dsimp only [CIns.op, opMtc]
    exact .onCur h

theorem slotC (c : Option CIns) : SlotOwn n (slotC c) := by
  unfold Machine.slotC
  split
  · exact cinsOp _
  · exact slotUndef

theorem fetchLine (h : Own n s₀ s) : Own n s₀ (fetchLine n s).2 := by
  unfold Machine.fetchLine
  dsimp only
  exact .spdRead h

theorem opsRun {o : Ops} (h : Own n s₀ s) (ho : OpsOwn n o) : Own n s₀ (o.run n s) := by
  obtain ⟨hc, hm, hv, hs⟩ := ho
  exact hs _ _ _ (hc _ _ _ (hv _ _ _ (hm _ _ _ h)))

theorem issued {pc : Nat} (h : Own n s₀ s) : Own n s₀ (issued n pc s) := by
  unfold Machine.issued
  exact .onCore (.onCur h) fun _ => ⟨rfl, rfl⟩

theorem goIssue {o : Ops} (h : Own n s₀ s) (ho : OpsOwn n o) : Own n s₀ (goIssue n o s) := by
  unfold Machine.goIssue
  have hi {pc t : Nat} : Own n s₀ (Machine.issued n pc (Machine.writesOf n t (o.run n (Machine.duringCycle n t s)))) :=
    .issued (.writesOf (.opsRun (.duringCycle h) ho))
  dsimp only
  split
  · exact hi
  · exact .finishBoundary (.enterBoundary hi)

theorem issueFault {e : Exc} {slot : Nat} (h : Own n s₀ s) : Own n s₀ (issueFault n e slot s) := by
  unfold Machine.issueFault
  exact .contextFault h

theorem issueAt {b : Bundle} {o : Ops} (h : Own n s₀ s) (ho : OpsOwn n o) : Own n s₀ (issueAt n b o s) := by
  unfold Machine.issueAt
  dsimp only
  refine .ite (.issueFault h) (.ite (.issueFault (.fetchLine h)) (.ite (.onCore (.fetchLine h) fun _ => ⟨rfl, rfl⟩) ?_))
  split
  · exact .issueFault (.fetchLine h)
  · exact .goIssue (.fetchLine h) ho

theorem issueOps {b : Bundle} {o : Ops} (h : Own n s₀ s) (ho : OpsOwn n o) : Own n s₀ (issueOps n b o s) := by
  unfold Machine.issueOps
  refine .ite h ?_
  split
  next t r e => exact .contextFault (.ofFst (.catchUp h) e)
  next t e => exact .issueAt (.ofFst (.catchUp h) e) ho

theorem issueRaw {b : Bundle} (h : Own n s₀ s) : Own n s₀ (issueRaw n b s) :=
  .issueOps h ⟨slotC _, slotM _, slotV _, slotS _⟩

theorem issueC {i : CIns} {m v t : W32} (h : Own n s₀ s) : Own n s₀ (issueC n i m v t s) :=
  .issueOps h ⟨cinsOp _, slotM _, slotV _, slotS _⟩

theorem issueM {i : MIns} {c v t : W32} (h : Own n s₀ s) : Own n s₀ (issueM n i c v t s) :=
  .issueOps h ⟨slotC _, minsOp _, slotV _, slotS _⟩

theorem issueV {i : VIns} {c m t : W32} (h : Own n s₀ s) : Own n s₀ (issueV n i c m t s) :=
  .issueOps h ⟨slotC _, slotM _, vinsOp _, slotS _⟩

theorem issueS {i : SIns} {c m v : W32} (h : Own n s₀ s) : Own n s₀ (issueS n i c m v s) :=
  .issueOps h ⟨slotC _, slotM _, slotV _, sinsOp _⟩

theorem retireNow (h : Own n s₀ s) : Own n s₀ (retireNow n s) := by
  unfold Machine.retireNow
  exact .foldl (.onCore h fun _ => ⟨rfl, rfl⟩) (fun _ _ => .applyRes)

theorem lateNow (h : Own n s₀ s) : Own n s₀ (lateNow n s) := by
  unfold Machine.lateNow
  dsimp only
  refine .ite ?_ h
  split
  next t r e =>
    exact .contextFault (.ofFst (.catchUp h) e)
  next t e =>
    exact (.ofFst (.catchUp h) e)

theorem waitDone (h : Own n s₀ s) : Own n s₀ (waitDone n s) := by
  unfold Machine.waitDone
  dsimp only
  split
  · exact h
  · refine .ite ?_ (.ite (.onCore (.onCur (.flyRes (.consumeEvent h))) fun _ => ⟨rfl, rfl⟩)
      (.ite (.onCore (.onCur (.flyRes h)) fun _ => ⟨rfl, rfl⟩) h))
    split
    · exact .contextFault (.onCur h)
    · exact h

theorem releaseHeld (h : Own n s₀ s) : Own n s₀ (releaseHeld n s) := by
  unfold Machine.releaseHeld
  split
  · exact .haltTry (.issueRaw h)
  · exact h

end Own

/-- O53 of an outcome: the command answers a next state, and what its core touches is its own. -/
theorem goes_of_own {n m : Nat} {s u : State} {o : Host.Outcome State Fault Refusal} (hm : m ≠ n) (h : Own n s u)
    (ho : o = goes u) : ∃ t : State, o = goes t ∧ t.core m = s.core m ∧ (∀ p, t.stack p = s.stack p) ∧
      t.parts = s.parts ∧ t.ports = s.ports ∧ t.fuses = s.fuses ∧ t.ubide = s.ubide ∧ t.power = s.power ∧
      ((s.core n).cur < 4 → (∀ k, (s.core n).mark = some k → k < 4) →
        ∀ a, (a < spdKey n 0 ∨ spdKey n 0 + spdSize ≤ a) → memGet t.mem a = memGet s.mem a) :=
  ⟨u, ho, h.cores m hm, h.stack, (congrArg State.parts h.others :), (congrArg State.ports h.others :),
    (congrArg State.fuses h.others :), (congrArg State.ubide h.others :), (congrArg State.power h.others :),
    fun hcur hmark a ha => (h.mem ⟨hcur, hmark⟩).2 a ha⟩

/-- A command of a core that stands in the module is carried out. -/
theorem next_ite_of_core {n : Nat} (hn : n < 35328) (s t : State) :
    (Host.Outcome.next (if n < 35328 then t else s) : Host.Outcome State Fault Refusal) = goes t := by
  rw [if_pos hn, goes]

/-- Settles O53: `Own` is kept by every operation that a core's instructions and its commands between bundles are made of. -/
theorem coresKeepToTheirOwn : Obligations.CoresKeepToTheirOwn := by
  intro n m w1 w2 w3 s hn hm site own
  have carried {t : State} (h : Own n s t) : own (.next (if n < 35328 then t else s)) :=
    goes_of_own hm h (next_ite_of_core hn s t)
  have start : Own n s s := .refl s
  exact ⟨fun _ => carried (.issueC start), fun _ => carried (.issueM start), fun _ => carried (.issueV start),
    fun _ => carried (.issueS start), fun _ => carried (.issueRaw start), carried (.retireNow start), carried (.lateNow start),
    carried (.releaseHeld start), carried (.waitDone start), carried (.haltTry (.finishBoundary start))⟩

end Sys2Proof.Machine

end

section
/-! SUPPORT. The control-slot register instructions (R34, R39): the command of a slot whose effect is known, and the results
that are written in another form than the slot's function. -/

namespace Sys2Proof.Machine

open Sys2Proof

/-- The command of a control-slot instruction whose bundle issues, by what its slot does on the state before the bundle. -/
theorem atC_of_issues_does {n : Nat} {i : CIns} {w1 w2 w3 : W32} {s : State} (f : State → State)
    (hf : i.op.run n (fetched n s) = f) (hb : boundaryOf (some i) = none) (h : issuesC n i w1 w2 w3 s = true) :
    atC { agent := .core n, w1 := w1, w2 := w2, w3 := w3 } i s = goes (afterC n w1 w2 w3 s f) := by
  rw [atC_of_issues_run h hb, hf]

/-- A control slot whose one result is in flight. -/
theorem atC_of_issues_flyRes {n : Nat} {i : CIns} {w1 w2 w3 : W32} {s : State} {lat : Nat} {v w : RegW}
    (hf : i.op.run n (fetched n s) = flyRes n 0 ((fetched n s).ctx n).pc lat v) (hv : v = w)
    (hb : boundaryOf (some i) = none) (h : issuesC n i w1 w2 w3 s = true) :
    atC { agent := .core n, w1 := w1, w2 := w2, w3 := w3 } i s =
      goes (afterC n w1 w2 w3 s (flyRes n 0 ((fetched n s).ctx n).pc lat w)) :=
  atC_of_issues_does _ (hv ▸ hf) hb h

theorem ite_ite_choice {α : Type} {c : Prop} [Decidable c] (p q : Bool) (a b : α) :
    (if c then (if p then a else b) else (if q then a else b)) = if (if c then p else q) then a else b := by
  split <;> rfl

/-- The relations of CMP by the field f. -/
theorem cmpFlag_toNat (f : BitVec 9) (a b : W64) :
    cmpFlag f.toNat a b =
      (if f = 0 then decide (a = b) else if f = 1 then decide (a ≠ b) else if f = 2 then decide (a.toInt < b.toInt)
        else if f = 3 then decide (a.toInt ≤ b.toInt) else if f = 4 then decide (a.toNat < b.toNat)
        else decide (a.toNat ≤ b.toNat)) := by
  have hf (k : BitVec 9) : f = k ↔ f.toNat = k.toNat := BitVec.toNat_inj.symm
  simp only [hf]
  unfold cmpFlag
  split <;> simp_all [BitVec.slt, BitVec.sle, BitVec.ult, BitVec.ule, Bool.beq_eq_decide_eq, bne]

/-- The functions of POP. -/
theorem popFlag_toNat (f : BitVec 9) (a b : Bool) :
    popFlag f.toNat a b =
      (if f = 0 then a && b else if f = 1 then a || b else if f = 2 then a != b else if f = 3 then a && !b else !a) := by
  simp only [← BitVec.toNat_inj]
  unfold popFlag
  split <;> simp_all

/-- The functions of KOP. -/
theorem maskOp_toNat (f : BitVec 9) (a b : W64) :
    maskOp f.toNat a b = (if f = 0 then a &&& b else if f = 1 then a ||| b else if f = 2 then a ^^^ b else a &&& ~~~b) := by
  simp only [← BitVec.toNat_inj]
  unfold maskOp
  split <;> simp_all

/-- The fields of the address that AFORM builds do not overlap. -/
theorem aform_eq_or (a b : W64) :
    BitVec.ofNat 48 (fld a.toNat 15 8 * 2 ^ 38 + fld a.toNat 7 0 * 2 ^ 30 + fld b.toNat 22 0) =
      (a.extractLsb' 8 8).setWidth 48 <<< 38 ||| (a.extractLsb' 0 8).setWidth 48 <<< 30 ||| (b.extractLsb' 0 23).setWidth 48 := by
  have hrow : fld a.toNat 15 8 < 2 ^ 8 := Nat.mod_lt _ (by decide)
  have hcol : fld a.toNat 7 0 < 2 ^ 8 := Nat.mod_lt _ (by decide)
  have hoff : fld b.toNat 22 0 < 2 ^ 23 := Nat.mod_lt _ (by decide)
  have hsum : fld a.toNat 15 8 * 2 ^ 38 + fld a.toNat 7 0 * 2 ^ 30 + fld b.toNat 22 0 =
      fld a.toNat 15 8 * 2 ^ 38 ||| fld a.toNat 7 0 * 2 ^ 30 ||| fld b.toNat 22 0 := by
    rw [Nat.add_assoc, Nat.or_assoc, Nat.mul_comm, Nat.mul_comm (fld a.toNat 7 0),
      ← Nat.two_pow_add_eq_or_of_lt (i := 30) (by omega),
      ← Nat.two_pow_add_eq_or_of_lt (i := 38) (by omega)]
  apply BitVec.eq_of_toNat_eq
  rw [hsum]
  simp only [BitVec.toNat_or, BitVec.toNat_shiftLeft, BitVec.toNat_setWidth, BitVec.extractLsb'_toNat, BitVec.toNat_ofNat,
    Nat.shiftLeft_eq]
  have erow : a.toNat >>> 8 % 2 ^ 8 % 2 ^ 48 * 2 ^ 38 % 2 ^ 48 = fld a.toNat 15 8 * 2 ^ 38 := by
    rw [show a.toNat >>> 8 % 2 ^ 8 = fld a.toNat 15 8 from rfl, Nat.mod_eq_of_lt (a := fld _ _ _) (by omega)]
    exact Nat.mod_eq_of_lt (by omega)
  have ecol : a.toNat >>> 0 % 2 ^ 8 % 2 ^ 48 * 2 ^ 30 % 2 ^ 48 = fld a.toNat 7 0 * 2 ^ 30 := by
    rw [show a.toNat >>> 0 % 2 ^ 8 = fld a.toNat 7 0 from rfl, Nat.mod_eq_of_lt (a := fld _ _ _) (by omega)]
    exact Nat.mod_eq_of_lt (by omega)
  have eoff : b.toNat >>> 0 % 2 ^ 23 % 2 ^ 48 = fld b.toNat 22 0 := by
    rw [show b.toNat >>> 0 % 2 ^ 23 = fld b.toNat 22 0 from rfl]
    exact Nat.mod_eq_of_lt (by omega)
  rw [erow, ecol, eoff, Nat.mod_eq_of_lt]
  rw [← hsum]
  omega

/-- Settles O3: an instruction whose slot does what O3 says by definition goes by `atC_of_issues_does`, one whose result is
written in another form by the equation of its function. -/
theorem scalarAddressMaskAndPredicateResults : Obligations.ScalarAddressMaskAndPredicateResults := by
  refine ⟨fun n w1 w2 w3 s i j k => ?_, fun n w1 w2 w3 s i j => ?_⟩
  · refine ⟨atC_of_issues_does _ rfl rfl, atC_of_issues_does _ rfl rfl, atC_of_issues_does _ rfl rfl,
      atC_of_issues_does _ rfl rfl, atC_of_issues_does _ rfl rfl, atC_of_issues_does _ rfl rfl,
      atC_of_issues_does _ rfl rfl, atC_of_issues_does _ rfl rfl, ?min, ?max, atC_of_issues_does _ rfl rfl,
      atC_of_issues_does _ rfl rfl, atC_of_issues_does _ rfl rfl, atC_of_issues_does _ rfl rfl,
      atC_of_issues_does _ rfl rfl, atC_of_issues_does _ rfl rfl, atC_of_issues_does _ rfl rfl⟩
    case min | max => exact atC_of_issues_flyRes rfl (congrArg _ (ite_ite_choice _ _ _ _)) rfl
  · exact ⟨atC_of_issues_does _ rfl rfl, atC_of_issues_does _ rfl rfl, atC_of_issues_does _ rfl rfl,
      atC_of_issues_does _ rfl rfl, atC_of_issues_flyRes rfl (congrArg _ (aform_eq_or _ _)) rfl,
      atC_of_issues_does _ rfl rfl, atC_of_issues_does _ rfl rfl, atC_of_issues_does _ rfl rfl,
      atC_of_issues_flyRes rfl (congrArg _ (maskOp_toNat _ _ _)) rfl,
      atC_of_issues_flyRes rfl (congrArg _ (cmpFlag_toNat _ _ _)) rfl,
      atC_of_issues_flyRes rfl (congrArg _ (popFlag_toNat _ _ _)) rfl⟩

end Sys2Proof.Machine

end

section
/-! SUPPORT. Loads, stores, control registers and flags of a core (R40, R61), alone in their bundle or beside other slots. -/

namespace Sys2Proof.Machine

open Sys2Proof

theorem slotM_zero : slotM 0 = SlotOp.nop := rfl
theorem slotV_zero : slotV 0 = SlotOp.nop := rfl
theorem slotS_zero : slotS 0 = SlotOp.nop := rfl

/-- Beside three NOP slots the control slot's effect is all. -/
theorem afterC_zero (n : Nat) (s : State) (f : State → State) : afterC n 0 0 0 s f = afterOne n s f := by
  rw [afterC, slotM_zero, slotV_zero, slotS_zero]
  rfl

/-- The command of a control-slot instruction whose bundle issues beside three NOP slots. -/
theorem atC_of_issues_one {n : Nat} {i : CIns} {s : State} (f : State → State)
    (hf : i.op.run n (fetched n s) (fetched n s) = f (fetched n s)) (hb : boundaryOf (some i) = none)
    (h : issuesC n i 0 0 0 s = true) :
    atC { agent := .core n, w1 := 0, w2 := 0, w3 := 0 } i s = goes (afterOne n s f) := by
  rw [atC_of_issues_run h hb, afterC_zero, afterOne, hf, ← afterOne]

theorem loopCount_eq (l : List LoopLv) (k : Nat) : loopCount l k = ((l[k]?).map LoopLv.count).getD 0 := by
  unfold loopCount
  cases l[k]? <;> rfl

/-- What MFC reads, by the field f. -/
theorem mfcCore_toNat (n : Nat) (s : State) (f : BitVec 9) :
    mfcCore n s f.toNat =
      (if f = 0 then BitVec.ofNat 64 (s.ctx n).cycle else if f = 1 then BitVec.ofNat 64 (s.ctx n).issue
        else if f = 2 then BitVec.ofNat 64 (panelTick s (panelOf n)) else if f = 3 then BitVec.ofNat 64 n
        else if f = 4 then BitVec.ofNat 64 (s.core n).cur else if f = 9 then (s.ctx n).mode.setWidth 64
        else if f = 10 then (s.ctx n).scratch
        else BitVec.ofNat 64 ((((s.ctx n).loops[f.toNat - 5]?).map LoopLv.count).getD 0)) := by
  simp only [← BitVec.toNat_inj, ← loopCount_eq]
  unfold mfcCore
  split <;> simp_all

/-- LD whose lines read puts the value of its bytes in flight. -/
theorem opLd_run_good {n : Nat} {i : CM} {u : State} {o : Nat} (ho : (cmOff (u.ctx n) i).toNat = o)
    (h : (spdRead 0 n o (2 ^ i.size.toNat) u).1.bad = []) :
    (opLd i).run n u u = flyRes n 0 (u.ctx n).pc (bankLat o 3 6)
      (.s i.t.toNat (BitVec.ofNat 64 (leNat (overlay (u.core n) o (spdRead 0 n o (2 ^ i.size.toNat) u).1.bytes))))
      (spdRead 0 n o (2 ^ i.size.toNat) u).2 := by
  subst ho
  exact if_pos (List.isEmpty_iff.2 h)

/-- LD of an uncorrectable line puts its exception in flight. -/
theorem opLd_run_bad {n : Nat} {i : CM} {u : State} {o : Nat} (ho : (cmOff (u.ctx n) i).toNat = o)
    (h : (spdRead 0 n o (2 ^ i.size.toNat) u).1.bad ≠ []) :
    (opLd i).run n u u = flyRes n 0 (u.ctx n).pc (bankLat o 3 6) (.exc .ue) (spdRead 0 n o (2 ^ i.size.toNat) u).2 := by
  subst ho
  exact if_neg (mt List.isEmpty_iff.1 h)

/-- Settles O4: every slot but LD's, MFC's and ARRIVE's does what O4 says by definition. -/
theorem loadsStoresControlRegistersFlags : Obligations.LoadsStoresControlRegistersFlags := by
  refine ⟨fun n s i => ⟨fun h hb => ?ld, fun h hb => ?ldBad, ?st⟩, fun n w1 w2 w3 s i => ⟨?nop, ?mfc, ?mtc, ?sig, ?arrive⟩⟩
  case ld => exact atC_of_issues_one _ (opLd_run_good rfl hb) rfl h
  case ldBad => exact atC_of_issues_one _ (opLd_run_bad rfl hb) rfl h
  case st => exact atC_of_issues_one _ rfl rfl
  case mfc => exact atC_of_issues_flyRes rfl (congrArg _ (mfcCore_toNat _ _ _)) rfl
  case arrive =>
    simp only [← inc_eq_min]
    exact atC_of_issues_does _ rfl rfl
  case nop | mtc | sig => exact atC_of_issues_does _ rfl rfl

end Sys2Proof.Machine

end

section
/-! SUPPORT. Branches and loops of a core: the levels that go on, end or are closed (R42, R43). -/

namespace Sys2Proof.Machine

open Sys2Proof

/-! The advance of pc and loop levels (R42, R43). -/

/-- Levels whose count is 1 end together with the bundle at their last index. -/
theorem loopNext_append_ends {pc : Nat} {ends : List LoopLv} (l : List LoopLv) (h : ∀ v ∈ ends, v.stop = pc ∧ v.count = 1) :
    loopNext pc (ends ++ l) = loopNext pc l := by
  induction ends with
  | nil => rfl
  | cons v ends ih =>
    obtain ⟨hstop, hcount⟩ := h v List.mem_cons_self
    rw [List.cons_append, loopNext, if_pos hstop.symm, if_neg (by omega), ih fun w hw => h w (List.mem_cons_of_mem _ hw)]

/-- The innermost level goes back to its start. -/
theorem loopNext_back {pc : Nat} {v : LoopLv} (l : List LoopLv) (hstop : v.stop = pc) (hcount : 1 < v.count) :
    loopNext pc (v :: l) = (v.start, { v with count := v.count - 1 } :: l) := by
  rw [loopNext, if_pos hstop.symm, if_pos hcount]

/-- Where the innermost level does not end, the next bundle follows. -/
theorem loopNext_on {pc : Nat} {l : List LoopLv} (h : ∀ v ∈ l.head?, v.stop ≠ pc) : loopNext pc l = (pc + 1, l) := by
  cases l with
  | nil => rfl
  | cons v l => rw [loopNext, if_neg (h v rfl).symm]

theorem loopNext_reverse_on {pc : Nat} {l : List LoopLv} (h : ∀ v ∈ l, v.stop ≠ pc) :
    loopNext pc l.reverse = (pc + 1, l.reverse) :=
  loopNext_on fun v hv => h v (List.mem_reverse.1 (List.mem_of_mem_head? hv))

/-- A branch closes the levels that do not hold its target. -/
theorem keepLevels_append_left {t : Nat} {left : List LoopLv} (l : List LoopLv) (h : ∀ v ∈ left, t < v.start ∨ v.stop < t) :
    keepLevels t (left ++ l) = keepLevels t l := by
  induction left with
  | nil => rfl
  | cons v left ih =>
    have hv := h v List.mem_cons_self
    rw [List.cons_append, keepLevels, if_neg (by omega), ih fun w hw => h w (List.mem_cons_of_mem _ hw)]

section
variable {pc nx : Nat} {x : Ctx} {lv : List LoopLv}

theorem advancePc_of_no_branch (hpc : x.pc = pc) (hn : loopNext pc x.loops.reverse = (nx, lv)) (hx : nx < 2 ^ 20)
    (hb : x.branch = none) : (advancePc pc x).pc = nx ∧ (advancePc pc x).loops = lv.reverse := by
  have hm : nx % 2 ^ 20 = nx := Nat.mod_eq_of_lt hx
  simp only [advancePc, hpc, hn, hb, hm, ne_eq, not_true_eq_false, decide_false, Bool.false_eq_true, if_false, and_self]

theorem advancePc_of_delay {t k : Nat} (hpc : x.pc = pc) (hn : loopNext pc x.loops.reverse = (nx, lv)) (hx : nx < 2 ^ 20)
    (hb : x.branch = some (t, k)) (hk : 1 < k) :
    (advancePc pc x).pc = nx ∧ (advancePc pc x).branch = some (t, k - 1) ∧ (advancePc pc x).loops = lv.reverse := by
  have hm : nx % 2 ^ 20 = nx := Nat.mod_eq_of_lt hx
  simp only [advancePc, hpc, hn, hb, hm, Nat.not_le.2 hk, ne_eq, not_true_eq_false, decide_false, Bool.false_eq_true, if_false,
    and_self]

theorem advancePc_of_branch {t : Nat} (hb : x.branch = some (t, 1)) :
    (advancePc pc x).pc = t ∧ (advancePc pc x).branch = none ∧
      (advancePc pc x).loops = (keepLevels t (loopNext pc x.loops.reverse).2).reverse := by
  simp only [advancePc, hb, le_refl, if_true, and_self]

end

/-! Branches and loops at issue. -/

theorem opBr_run (n : Nat) (b : CB) (u : State) :
    (opBr b).run n u = fun s =>
      if (u.ctx n).regs.getP b.p.toNat = decide (b.sense = 1) then setBranch n ((u.ctx n).pc + b.off.toInt) s else s := by
  funext s
  simp only [opBr, beq_iff_eq]
  rfl

theorem opJr_run (n : Nat) (i : CR) (u : State) :
    (opJr i).run n u = setBranch n (((u.ctx n).regs.getS i.a.toNat).toNat : Int) := by
  funext s
  simp only [opJr, setBranch, Int.emod_emod_of_dvd, dvd_refl]

theorem openLoop_of_count {count : Nat} (n body : Nat) (h : count ≠ 0) :
    openLoop n count body = fun s => s.onCur n (fun x =>
      { x with loops := x.loops ++ [{ count := count, start := x.pc + 1, stop := x.pc + body }] }) := by
  funext s
  simp only [openLoop, if_neg h]

theorem openLoop_zero (n body : Nat) : openLoop n 0 body = fun s => s.onCur n (fun x => { x with pc := x.pc + body }) := rfl

/-- Settles O5: the slots by their functions, the advance by what `loopNext` and `keepLevels` leave of the levels, innermost
first. -/
theorem branchesLoopsAndTheirAdvance : Obligations.BranchesLoopsAndTheirAdvance := by
  refine ⟨fun n w1 w2 w3 s i b l m => ⟨fun h hp => ?taken, fun h hp => ?notTaken, ?jmp, ?jr, fun h hc => ?loop,
    fun h hc => ?skip, ?loopi⟩, fun pc x l outer hpc hpc1 hl => ⟨fun hb hx hstop hcount => ?back, fun ends hb hends =>
      ⟨fun v hx hstop hcount hv => ?endsBack, fun v hx hstop => ?endsOn, fun hx => ?endsAll⟩, fun hb hx => ?on,
      fun t k hk hb hx => ?delay, fun t hb => ?branch⟩⟩
  case taken => exact atC_of_issues_does _ ((opBr_run _ _ _).trans (by simp only [if_pos hp]; rfl)) rfl h
  case notTaken => exact atC_of_issues_does _ ((opBr_run _ _ _).trans (by simp only [if_neg hp]; rfl)) rfl h
  case jmp => exact atC_of_issues_does _ rfl rfl
  case jr => exact atC_of_issues_does _ (opJr_run _ _ _) rfl
  case loop => exact atC_of_issues_does _ (openLoop_of_count _ _ hc) rfl h
  case skip =>
    refine atC_of_issues_does _ (Eq.trans ?_ (openLoop_zero _ _)) rfl h
    exact congrArg (fun c => openLoop n c _) hc
  case loopi => exact atC_of_issues_does _ (openLoop_of_count _ _ (Nat.succ_ne_zero _)) rfl
  case back =>
    have hr : loopNext pc x.loops.reverse = (l.start, { l with count := l.count - 1 } :: outer.reverse) := by
      rw [hx, List.reverse_append, List.reverse_singleton, List.singleton_append, loopNext_back _ hstop hcount]
    simpa using advancePc_of_no_branch hpc hr hl hb
  case endsBack =>
    have hr : loopNext pc x.loops.reverse = (v.start, { v with count := v.count - 1 } :: outer.reverse) := by
      rw [hx, List.reverse_append, loopNext_append_ends _ (by simpa using hends), List.reverse_append, List.reverse_singleton,
        List.singleton_append, loopNext_back _ hstop hcount]
    simpa using advancePc_of_no_branch hpc hr hv hb
  case endsOn =>
    have hr : loopNext pc x.loops.reverse = (pc + 1, v :: outer.reverse) := by
      rw [hx, List.reverse_append, loopNext_append_ends _ (by simpa using hends), List.reverse_append, List.reverse_singleton,
        List.singleton_append, loopNext_on (by simpa using hstop)]
    simpa using advancePc_of_no_branch hpc hr hpc1 hb
  case endsAll =>
    have hr : loopNext pc x.loops.reverse = (pc + 1, []) := by
      rw [hx, ← List.append_nil ends.reverse, loopNext_append_ends _ (by simpa using hends), loopNext]
    exact advancePc_of_no_branch hpc hr hpc1 hb
  case on =>
    simpa using advancePc_of_no_branch hpc (loopNext_reverse_on hx) hpc1 hb
  case delay =>
    simpa using advancePc_of_delay hpc (loopNext_reverse_on hx) hpc1 hb (by omega)
  case branch =>
    obtain ⟨hpct, hbranch, hloops⟩ := advancePc_of_branch (pc := pc) hb
    refine ⟨hpct, hbranch, fun hx left hleft => ?_⟩
    rw [loopNext_reverse_on hx] at hloops
    refine ⟨fun hl => ?_, fun v hl hstart hstop => ?_⟩
    · rw [hloops, hl, ← List.append_nil left.reverse, keepLevels_append_left _ (by simpa using hleft), keepLevels,
        List.reverse_nil]
    · rw [hloops, hl, List.reverse_append, keepLevels_append_left _ (by simpa using hleft), List.reverse_append,
        List.reverse_singleton, List.singleton_append, keepLevels, if_pos ⟨hstart, hstop⟩, List.reverse_cons,
        List.reverse_reverse]

end Sys2Proof.Machine

end

section
/-! SUPPORT. The four slots of a bundle that issues (R34). -/

namespace Sys2Proof.Machine

open Sys2Proof

/-- Settles O7: each command issues its bundle, and without a boundary that leaves what the four slots leave. -/
theorem fourSlotsIssueTogether : Obligations.FourSlotsIssueTogether := by
  intro n w1 w2 w3 s
  have runs {o : Ops} (hb : o.bd = none) : goes (goIssue n o (atChecks n s)) = goes (afterSlots n s (o.run n (fetched n s))) := by
    rw [goIssue_eq n o s hb]
  exact ⟨fun i h hb => (atC_of_issues h).trans (runs hb), fun i h hb => (atM_of_issues h).trans (runs hb),
    fun i h hb => (atV_of_issues h).trans (runs hb), fun i h hb => (atS_of_issues h).trans (runs hb)⟩

end Sys2Proof.Machine

end

section
/-! SUPPORT. What the fixed-latency work of a core and its scratchpad accesses leave alone in the core (R34, R35, R70, R76,
R77, R131): all that is not in flight, in an array, a status register or a register file; no store is added. -/

namespace Sys2Proof.Machine

open Sys2Proof

/-- A core changed in nothing but what is in flight, its arrays, its status registers, its finite flag and its contexts. -/
def CoreFlows (c d : Core) : Prop :=
  d = { c with
    flight := d.flight, stores := d.stores, wcollide := d.wcollide, m0 := d.m0, m1 := d.m1, spd := d.spd, ueaddr := d.ueaddr
    wb := d.wb, redef := d.redef, flag := d.flag, ctxs := d.ctxs }

theorem CoreFlows.trans {c d e : Core} (h : CoreFlows c d) (k : CoreFlows d e) : CoreFlows c e := by
  cases c
  cases d
  cases e
  simp only [CoreFlows, Core.mk.injEq, true_and] at *
  simp only [h, k, and_true]

/-- A context goes on as it was: its state, its posted stores and its exception. -/
def CtxFlows (x y : Ctx) : Prop := y.state = x.state ∧ y.posted = x.posted ∧ y.exc = x.exc

theorem CtxFlows.trans {x y z : Ctx} (h : CtxFlows x y) (k : CtxFlows y z) : CtxFlows x z := by
  obtain ⟨hstate, hposted, hexc⟩ := h
  obtain ⟨kstate, kposted, kexc⟩ := k
  exact ⟨kstate.trans hstate, kposted.trans hposted, kexc.trans hexc⟩

theorem CtxFlows.ite {c : Prop} [Decidable c] {x y z : Ctx} (h : CtxFlows x y) (k : CtxFlows x z) :
    CtxFlows x (if c then y else z) := by
  split
  · exact h
  · exact k

theorem CtxFlows.setK (x : Ctx) (i : Nat) (v : W64) : CtxFlows x (x.setK i v) := .ite ⟨rfl, rfl, rfl⟩ ⟨rfl, rfl, rfl⟩

theorem CtxFlows.foldl {α : Type} {f : Ctx → α → Ctx} (hf : ∀ x a, CtxFlows x (f x a)) (l : List α) (x : Ctx) :
    CtxFlows x (l.foldl f x) := by
  induction l generalizing x with
  | nil => exact ⟨rfl, rfl, rfl⟩
  | cons a l ih => exact (hf x a).trans (ih _)

theorem CtxFlows.putLanes (r : Nat) (lanes : List (Nat × W32)) (pois : List Nat) (x : Ctx) :
    CtxFlows x (putLanes r lanes pois x) := by
  have hv : CtxFlows x (lanes.foldl (fun x e => x.setV r e.1 e.2) x) :=
    .foldl (f := fun x e => x.setV r e.1 e.2) (fun _ _ => ⟨rfl, rfl, rfl⟩) lanes x
  refine hv.trans (.foldl (fun y q => ?_) _ _)
  exact .ite ⟨rfl, rfl, rfl⟩ ⟨rfl, rfl, rfl⟩

/-- From `s` to `t` core `n` has changed only so; no store is added and each context goes on as it was. -/
structure Flows (n : Nat) (s t : State) : Prop where
  core : CoreFlows (s.core n) (t.core n)
  stores : ∀ p ∈ (t.core n).stores, p ∈ (s.core n).stores
  ctx : ∀ k, CtxFlows (s.ctxAt n k) (t.ctxAt n k)

theorem State.ctxAt_onCtx_same (s : State) (n k : Nat) (f : Ctx → Ctx) : (s.onCtx n k f).ctxAt n k = f (s.ctxAt n k) := by
  rw [State.onCtx, State.ctxAt, State.core_onCore_same]
  exact Tab.get_set_same _ _ _ _

theorem State.ctxAt_onCtx_other (s : State) {n k j : Nat} (f : Ctx → Ctx) (h : j ≠ k) :
    (s.onCtx n k f).ctxAt n j = s.ctxAt n j := by
  rw [State.onCtx, State.ctxAt, State.core_onCore_same]
  exact Tab.get_set_other _ _ _ _ _ h

theorem attend_cores (s : State) : (attend s).cores = s.cores := by
  unfold attend
  split <;> rfl

theorem logErr_cores (severity cls unit status d0 d1 : Nat) (s : State) :
    (logErr severity cls unit status d0 d1 s).cores = s.cores := by
  have h : (if severity = 2 then attend s else s).cores = s.cores := by
    split
    · exact attend_cores s
    · rfl
  unfold logErr
  dsimp only
  split
  · exact h
  · exact h

theorem State.core_onCtx (s : State) (n k : Nat) (f : Ctx → Ctx) :
    (s.onCtx n k f).core n = { s.core n with ctxs := Tab.set (s.core n).ctxs k (f (s.ctxAt n k)) } := by
  rw [State.onCtx, State.core_onCore_same, State.ctxAt]

/-- A change of a core that leaves its contexts leaves each of them. -/
theorem State.ctxAt_onCore {s : State} {n : Nat} {f : Core → Core} (k : Nat) (h : (f (s.core n)).ctxs = (s.core n).ctxs) :
    (s.onCore n f).ctxAt n k = s.ctxAt n k := by
  rw [State.ctxAt, State.core_onCore_same, h, State.ctxAt]

theorem State.ctx_eq_ctxAt (s : State) (n : Nat) : s.ctx n = s.ctxAt n (s.core n).cur := rfl

theorem State.ctx_onCur (s : State) (n : Nat) (f : Ctx → Ctx) : (s.onCur n f).ctx n = f (s.ctx n) := by
  rw [State.ctx_eq_ctxAt, State.onCur, State.core_onCtx]
  exact State.ctxAt_onCtx_same _ _ _ _

theorem State.ctx_onCore {s : State} {n : Nat} {f : Core → Core} (hc : (f (s.core n)).cur = (s.core n).cur)
    (h : (f (s.core n)).ctxs = (s.core n).ctxs) : (s.onCore n f).ctx n = s.ctx n := by
  rw [State.ctx_eq_ctxAt, State.ctxAt_onCore _ h, State.core_onCore_same, hc, State.ctx_eq_ctxAt]

namespace Flows

variable {n : Nat} {s₀ s t : State} {α : Type}

theorem refl (s : State) : Flows n s s := ⟨rfl, fun _ h => h, fun _ => ⟨rfl, rfl, rfl⟩⟩

/-- Core `n` changes, its contexts aside. -/
theorem onCore {f : Core → Core} (h : Flows n s₀ s)
    (hf : ∀ c, CoreFlows c (f c) ∧ (∀ p ∈ (f c).stores, p ∈ c.stores) ∧ (f c).ctxs = c.ctxs) : Flows n s₀ (s.onCore n f) := by
  obtain ⟨hcore, hstores, hctxs⟩ := hf (s.core n)
  refine ⟨?_, ?_, fun k => ?_⟩
  · rw [State.core_onCore_same]
    exact h.core.trans hcore
  · rw [State.core_onCore_same]
    exact fun p hp => h.stores p (hstores p hp)
  · have e : (s.onCore n f).ctxAt n k = s.ctxAt n k := by rw [State.ctxAt, State.core_onCore_same, hctxs, State.ctxAt]
    rw [e]
    exact h.ctx k

/-- A context of the core changes, and goes on as it was. -/
theorem onCtxAt {k : Nat} {f : Ctx → Ctx} (h : Flows n s₀ s) (hf : CtxFlows (s.ctxAt n k) (f (s.ctxAt n k))) :
    Flows n s₀ (State.onCtx s n k f) := by
  refine ⟨?_, ?_, fun j => ?_⟩
  · rw [State.onCtx, State.core_onCore_same]
    exact h.core.trans rfl
  · rw [State.onCtx, State.core_onCore_same]
    exact h.stores
  · by_cases hj : j = k
    · subst hj
      rw [State.ctxAt_onCtx_same]
      exact (h.ctx j).trans hf
    · rw [State.ctxAt_onCtx_other _ _ hj]
      exact h.ctx j

theorem onCtx {k : Nat} {f : Ctx → Ctx} (h : Flows n s₀ s)
    (hf : ∀ x, CtxFlows x (f x)) : Flows n s₀ (State.onCtx s n k f) := h.onCtxAt (hf _)

theorem onCur {f : Ctx → Ctx} (h : Flows n s₀ s) (hf : ∀ x, CtxFlows x (f x)) :
    Flows n s₀ (State.onCur s n f) := .onCtx h hf

/-- Nothing but what is not in the cores changes. -/
theorem ofCores (h : Flows n s₀ s) (e : t.cores = s.cores) : Flows n s₀ t := by
  have ec : t.core n = s.core n := by rw [State.core, e, State.core]
  have ex : ∀ k, t.ctxAt n k = s.ctxAt n k := fun k => by rw [State.ctxAt, ec, State.ctxAt]
  exact ⟨ec ▸ h.core, ec ▸ h.stores, fun k => ex k ▸ h.ctx k⟩

theorem ite {c : Prop} [Decidable c] (hs : Flows n s₀ s) (ht : Flows n s₀ t) : Flows n s₀ (if c then s else t) := by
  split
  · exact hs
  · exact ht

theorem iteSnd {c : Prop} [Decidable c] {x y : α × State} (hx : Flows n s₀ x.2) (hy : Flows n s₀ y.2) :
    Flows n s₀ (if c then x else y).2 := by
  split
  · exact hx
  · exact hy

theorem ofSnd {x : α × State} {a : α} (h : Flows n s₀ x.2) (e : x = (a, t)) : Flows n s₀ t := by
  subst e
  exact h

theorem ofFst {x : State × α} {a : α} (h : Flows n s₀ x.1) (e : x = (t, a)) : Flows n s₀ t := by
  subst e
  exact h

theorem foldl {f : State → α → State} {l : List α} (h : Flows n s₀ s) (hf : ∀ t x, Flows n s₀ t → Flows n s₀ (f t x)) :
    Flows n s₀ (l.foldl f s) := by
  induction l generalizing s with
  | nil => exact h
  | cons x l ih => exact ih (hf s x h)

theorem onCounts {f : Counts → Counts} (h : Flows n s₀ s) : Flows n s₀ (State.onCounts s n f) := by
  unfold State.onCounts
  exact .onCur h fun _ => ⟨rfl, rfl, rfl⟩

theorem onArr {a : Nat} {f : Arr → Arr} (h : Flows n s₀ s) : Flows n s₀ (State.onArr s n a f) := by
  unfold State.onArr
  refine .onCore h fun c => ?_
  unfold Core.onArr
  split <;> exact ⟨rfl, fun _ h => h, rfl⟩

theorem onList {k l : Nat} {f : SList → SList} (h : Flows n s₀ s) : Flows n s₀ (State.onList s n k l f) := by
  unfold State.onList
  exact .onCtx h fun _ => ⟨rfl, rfl, rfl⟩

theorem putLine {l : Nat} {v : Line} (h : Flows n s₀ s) : Flows n s₀ (State.putLine s n l v) := h.ofCores rfl

theorem logErr {severity cls unit status d0 d1 : Nat} (h : Flows n s₀ s) :
    Flows n s₀ (logErr severity cls unit status d0 d1 s) := h.ofCores (logErr_cores _ _ _ _ _ _ _)

theorem recordUe {path l : Nat} {weight checked : Bool} {off : Nat} (h : Flows n s₀ s) :
    Flows n s₀ (recordUe path n l weight checked off s) := by
  unfold Machine.recordUe
  exact .logErr (.putLine (.onCore h fun _ => ⟨rfl, fun _ h => h, rfl⟩))

theorem materialise {l : Nat} (h : Flows n s₀ s) : Flows n s₀ (materialise n l s) := by
  unfold Machine.materialise
  dsimp only
  split
  · exact h
  · exact .onCore (.putLine (h.ofCores rfl)) fun _ => ⟨rfl, fun _ h => h, rfl⟩

theorem readLine {path l : Nat} (h : Flows n s₀ s) : Flows n s₀ (readLine path n l s).2 := by
  unfold Machine.readLine
  dsimp only
  split
  · exact h
  · dsimp only
    exact .onCore h fun _ => ⟨rfl, fun _ h => h, rfl⟩
  · split
    · dsimp only
      exact .onCore h fun _ => ⟨rfl, fun _ h => h, rfl⟩
    · exact .recordUe h

theorem readLines {path : Nat} {l : List Nat} (h : Flows n s₀ s) : Flows n s₀ (readLines path n l s).2 := by
  induction l generalizing s with
  | nil => exact h
  | cons l t ih => exact ih (.readLine h)

theorem spdRead {path off len : Nat} (h : Flows n s₀ s) : Flows n s₀ (spdRead path n off len s).2 := .readLines h

theorem storeLine {l : Nat} {bs : List (Nat × Byte)} {pois : Bool} (h : Flows n s₀ s) :
    Flows n s₀ (storeLine n l bs pois s) := by
  unfold Machine.storeLine
  exact .onCore (.putLine (ofCores (.materialise h) rfl)) fun _ => ⟨rfl, fun _ h => h, rfl⟩

theorem noteStore {l : Nat} (h : Flows n s₀ s) : Flows n s₀ (noteStore n l s) := by
  unfold Machine.noteStore
  dsimp only
  exact .ite (.onCore h fun _ => ⟨rfl, fun _ h => h, rfl⟩) h

theorem writeLine {l : Nat} {bs : List (Nat × Byte)} {pois : Bool} (h : Flows n s₀ s) :
    Flows n s₀ (writeLine n l bs pois s) := by
  unfold Machine.writeLine
  exact .storeLine (.noteStore h)

theorem spdWrite {pairs : List (Nat × Byte)} {pois : List Nat} (h : Flows n s₀ s) :
    Flows n s₀ (spdWrite n pairs pois s) := by
  unfold Machine.spdWrite
  dsimp only
  exact .foldl h fun _ _ => .writeLine

theorem flyRes {slot pc lat : Nat} {w : RegW} (h : Flows n s₀ s) : Flows n s₀ (flyRes n slot pc lat w s) := by
  unfold Machine.flyRes
  exact .onCore h fun _ => ⟨rfl, fun _ h => h, rfl⟩

theorem lateExc {slot pc : Nat} {e : Exc} (h : Flows n s₀ s) : Flows n s₀ (lateExc n slot pc e s) := by
  unfold Machine.lateExc
  exact .flyRes h

theorem setFlag (h : Flows n s₀ s) : Flows n s₀ (setFlag n s) := by
  unfold Machine.setFlag
  exact .onCore h fun _ => ⟨rfl, fun _ h => h, rfl⟩

theorem retireChain {f : Flying} (h : Flows n s₀ s) : Flows n s₀ (retireChain n f s) := by
  unfold Machine.retireChain
  have hp := onCur h (CtxFlows.putLanes f.vd (evalChain f).lanes (evalChain f).pois)
  exact .ite (.setFlag (.onCounts (.ite hp (.onCounts hp)))) (.ite hp (.onCounts hp))

theorem writeGroupCount {g : Group} (h : Flows n s₀ s) : Flows n s₀ (writeGroupCount n g s) := by
  unfold Machine.writeGroupCount
  exact .spdWrite h

theorem applyRes {w : RegW} (h : Flows n s₀ s) : Flows n s₀ (applyRes n w s) := by
  unfold Machine.applyRes
  split
  · exact .onCur h fun _ => ⟨rfl, rfl, rfl⟩
  · exact .onCur h fun _ => ⟨rfl, rfl, rfl⟩
  · exact .onCur h fun x => .setK x _ _
  · exact .onCur h fun _ => ⟨rfl, rfl, rfl⟩
  · exact .onCur h fun _ => ⟨rfl, rfl, rfl⟩
  · exact .onCur h fun _ => ⟨rfl, rfl, rfl⟩
  · exact .onCur h (.putLanes _ _ _)
  · exact .retireChain h
  · exact h
  · exact .onCur h fun _ => ⟨rfl, rfl, rfl⟩
  · split
    · exact .writeGroupCount (.onCur h fun _ => ⟨rfl, rfl, rfl⟩)
    · exact h
  · exact .onCur h fun _ => .ite ⟨rfl, rfl, rfl⟩ ⟨rfl, rfl, rfl⟩
  · exact .onArr h
  · exact .onCur h fun _ => ⟨rfl, rfl, rfl⟩

theorem captureGens {cyc : Nat} (h : Flows n s₀ s) : Flows n s₀ (captureGens n cyc s) := by
  unfold Machine.captureGens
  exact .ite h (.onCore h fun _ => ⟨rfl, fun _ h => h, rfl⟩)

theorem retireUpTo {cyc : Nat} (h : Flows n s₀ s) : Flows n s₀ (retireUpTo n cyc s).1 := by
  unfold Machine.retireUpTo
  dsimp only
  exact .foldl (.onCore h fun _ => ⟨rfl, fun _ h => h, rfl⟩) (fun _ _ => .applyRes)

theorem commitStores {cyc : Nat} (h : Flows n s₀ s) : Flows n s₀ (commitStores n cyc s) := by
  unfold Machine.commitStores
  exact .foldl (.onCore h fun _ => ⟨rfl, fun _ hp => List.mem_of_mem_filter hp, rfl⟩) (fun _ _ => .spdWrite)

theorem arrayRead {cyc off len : Nat} (h : Flows n s₀ s) : Flows n s₀ (arrayRead n cyc off len s).2 := by
  unfold Machine.arrayRead
  dsimp only
  exact .spdRead h

theorem gmeEvent {kind count slotPc : Nat} (h : Flows n s₀ s) : Flows n s₀ (gmeEvent n kind count slotPc s) := by
  unfold Machine.gmeEvent
  exact .ite h (.ite (.lateExc (.onCounts h)) (.onCounts h))

theorem shadowPart {a : Nat} (h : Flows n s₀ s) : Flows n s₀ (shadowPart n a s) := by
  unfold Machine.shadowPart
  dsimp only
  split
  · exact h
  · exact .gmeEvent (.onArr (.spdRead (.spdRead (.spdRead h))))

theorem shadowUpTo {a cyc : Nat} {fuel : Nat} (h : Flows n s₀ s) : Flows n s₀ (shadowUpTo n a cyc fuel s) := by
  induction fuel generalizing s with
  | zero => exact h
  | succ fuel ih =>
    unfold Machine.shadowUpTo
    split
    · exact h
    · exact .ite (ih (.shadowPart h)) h

theorem pushRows {a : Nat} {l : List RowOp} (h : Flows n s₀ s) : Flows n s₀ (pushRows n a l s) := by
  unfold Machine.pushRows
  exact .onArr h

theorem smulEntry {a : Nat} {I : Inp} {x list base stride : Nat} {bad : Bool} (h : Flows n s₀ s) :
    Flows n s₀ (smulEntry n a I x list base stride bad s) := by
  unfold Machine.smulEntry
  dsimp only
  exact .ite (.pushRows (.arrayRead h)) (.ite (.pushRows (.arrayRead h)) (.ite (.pushRows (.arrayRead h)) (.ite
    (.gmeEvent (.pushRows (.arrayRead h))) (.ite (.gmeEvent (.pushRows (.arrayRead (.arrayRead h)))) (.pushRows
      (.arrayRead (.arrayRead h)))))))

theorem inputRow {a : Nat} (h : Flows n s₀ s) : Flows n s₀ (inputRow n a s) := by
  unfold Machine.inputRow
  dsimp only
  split
  · exact h
  · split
    · exact .onArr (.pushRows h)
    · exact .onArr (.pushRows (.arrayRead h))
    · exact .onArr (.pushRows (.arrayRead h))
    · exact .onArr (.pushRows (.arrayRead (.arrayRead h)))
    · exact .onArr (.smulEntry h)

theorem inputUpTo {a cyc : Nat} {fuel : Nat} (h : Flows n s₀ s) : Flows n s₀ (inputUpTo n a cyc fuel s) := by
  induction fuel generalizing s with
  | zero => exact h
  | succ fuel ih =>
    unfold Machine.inputUpTo
    split
    · exact h
    · exact .ite (ih (.inputRow h)) h

theorem noteWrite {a : Nat} {op : RowOp} (h : Flows n s₀ s) : Flows n s₀ (noteWrite n a op s) := by
  unfold Machine.noteWrite
  exact .onArr h

theorem applyRow {a : Nat} {op : RowOp} (h : Flows n s₀ s) : Flows n s₀ (applyRow n a op s) := by
  have hm (x y : Ctx) (b : Bool) (hxy : CtxFlows x y) :
      CtxFlows x (if y.indexed then y else { y with dirty := Tab.put false y.dirty a b }) :=
    .ite hxy hxy
  unfold Machine.applyRow
  dsimp only
  split
  · split
    · exact h
    · exact .noteWrite h
  · refine .onCur ?_ fun _ => ⟨rfl, rfl, rfl⟩
    split
    · exact h
    · exact .noteWrite h
  · refine .onCur ?_ fun x => hm x _ _ ⟨rfl, rfl, rfl⟩
    split
    · exact h
    · exact .noteWrite h
  · refine .onCur ?_ fun x => hm x _ _ ⟨rfl, rfl, rfl⟩
    split
    · exact h
    · exact .noteWrite h
  · refine .onArr ?_
    refine .onCtxAt ?_ (hm _ _ _ ⟨rfl, rfl, rfl⟩)
    split
    · exact h
    · exact .noteWrite h

theorem rowsUpTo {a cyc : Nat} (h : Flows n s₀ s) : Flows n s₀ (rowsUpTo n a cyc s) := by
  unfold Machine.rowsUpTo
  exact .foldl (.onArr h) (fun _ _ => .applyRow)

theorem arrayBefore {a cyc : Nat} (h : Flows n s₀ s) : Flows n s₀ (arrayBefore n a cyc s) := by
  unfold Machine.arrayBefore
  exact .ite h (.inputUpTo (.shadowUpTo h))

theorem writesOf {t : Nat} (h : Flows n s₀ s) : Flows n s₀ (writesOf n t s) := by
  unfold Machine.writesOf
  exact .ite (.commitStores (.arrayBefore (.arrayBefore h))) h

theorem catchUp (h : Flows n s₀ s) : Flows n s₀ (catchUp n s).1 := by
  unfold Machine.catchUp
  exact .retireUpTo (.commitStores (.arrayBefore (.arrayBefore h)))

theorem duringCycle {c : Nat} (h : Flows n s₀ s) : Flows n s₀ (duringCycle n c s) := by
  unfold Machine.duringCycle
  exact .captureGens (.rowsUpTo (.rowsUpTo h))

theorem writeBlock {k l : Nat} (h : Flows n s₀ s) : Flows n s₀ (writeBlock n k l s) := by
  unfold Machine.writeBlock
  exact .spdWrite h

theorem suspendLists {k : Nat} (h : Flows n s₀ s) : Flows n s₀ (suspendLists n k s) := by
  unfold Machine.suspendLists
  exact .foldl h (fun _ _ h => .ite (.writeBlock h) h)

theorem endLists {k : Nat} (h : Flows n s₀ s) : Flows n s₀ (endLists n k s) := by
  unfold Machine.endLists
  exact .foldl h (fun _ _ h => .ite (.writeBlock (.onList h)) (.ite (.writeBlock h) h))

theorem writeGroups {k : Nat} (h : Flows n s₀ s) : Flows n s₀ (writeGroups n k s) := by
  unfold Machine.writeGroups
  exact .foldl h (fun _ _ => .writeGroupCount)

theorem fetchLine (h : Flows n s₀ s) : Flows n s₀ (fetchLine n s).2 := by
  unfold Machine.fetchLine
  dsimp only
  exact .spdRead h

end Flows

end Sys2Proof.Machine

end

section
/-! SUPPORT. The frame of a register instruction (R34, R35): its one result, its advance, and nothing else. -/

namespace Sys2Proof.Machine

open Sys2Proof

/-! No store that waits is due in the present issue cycle once the bundle's slots read the state. -/

theorem CoreFlows.icyc {c d : Core} (h : CoreFlows c d) : d.icyc = c.icyc := by rw [h]

/-- A commit of the stores due leaves those that are due later. -/
theorem commitStores_stores {n cyc : Nat} (s : State) : ∀ p ∈ ((commitStores n cyc s).core n).stores, cyc < p.due := by
  intro p hp
  unfold commitStores at hp
  dsimp only at hp
  have hf := (Flows.foldl (Flows.refl (n := n) _) (fun _ _ => Flows.spdWrite)).stores p hp
  rw [State.core_onCore_same] at hf
  have hd := (List.mem_filter.1 hf).2
  simpa using hd

theorem catchUp_flows (n : Nat) (s : State) :
    Flows n (commitStores n (s.core n).icyc (arrayBefore n 1 (s.core n).icyc (arrayBefore n 0 (s.core n).icyc s)))
      (catchUp n s).1 :=
  .retireUpTo (.refl _)

theorem atChecks_flows (n : Nat) (s : State) : Flows n s (atChecks n s) := .fetchLine (.catchUp (.refl s))

theorem fetched_stores (n : Nat) (s : State) : ∀ p ∈ ((fetched n s).core n).stores, ((atChecks n s).core n).icyc < p.due := by
  intro p hp
  have hu : Flows n (catchUp n s).1 (fetched n s) := .duringCycle (.fetchLine (.refl _))
  have hc : ((atChecks n s).core n).icyc = (s.core n).icyc := (atChecks_flows n s).core.icyc
  rw [hc]
  exact commitStores_stores _ p ((catchUp_flows n s).stores p (hu.stores p hp))

/-- Where no store is due, a bundle writes nothing at once. -/
theorem writesOf_of_later {n t : Nat} {s : State} (h : ∀ p ∈ (s.core n).stores, t < p.due) : writesOf n t s = s := by
  have hn : (s.core n).stores.any (fun p => decide (p.due ≤ t)) = false := by
    simpa using h
  rw [writesOf, hn]
  rfl

/-! The frame of a register instruction. -/

/-- From `u` to `v` core `n` has at most one result more in flight, and its running context another pc, other loop levels and
another pending branch; nothing else has changed. -/
structure RegOnly (n : Nat) (u v : State) : Prop where
  rest : { v with cores := u.cores } = u
  cores : ∀ k, k ≠ n → v.core k = u.core k
  others : ∀ k, k ≠ (u.core n).cur → v.ctxAt n k = u.ctxAt n k
  core : ∃ f : List Res, f.length ≤ 1 ∧ v.core n = { u.core n with flight := (u.core n).flight ++ f, ctxs := (v.core n).ctxs }
  ctx : ∃ pc lv br, v.ctx n = { u.ctx n with pc := pc, loops := lv, branch := br }

theorem RegOnly.refl (n : Nat) (u : State) : RegOnly n u u :=
  ⟨rfl, fun _ _ => rfl, fun _ _ => rfl, ⟨[], by simp⟩, ⟨_, _, _, rfl⟩⟩

theorem RegOnly.flyRes (n slot pc lat : Nat) (w : RegW) (u : State) : RegOnly n u (flyRes n slot pc lat w u) where
  rest := rfl
  cores k hk := State.core_onCore_other _ _ _ _ hk
  others k _ := State.ctxAt_onCore _ rfl
  core := ⟨[_], le_rfl, by rw [Machine.flyRes, State.core_onCore_same]⟩
  ctx := ⟨_, _, _, State.ctx_onCore rfl rfl⟩

theorem RegOnly.onCur {n : Nat} {u : State} {f : Ctx → Ctx}
    (hf : ∃ pc lv br, f (u.ctx n) = { u.ctx n with pc := pc, loops := lv, branch := br }) : RegOnly n u (u.onCur n f) where
  rest := rfl
  cores k hk := State.core_onCore_other _ _ _ _ hk
  others k hk := State.ctxAt_onCtx_other _ _ hk
  core := ⟨[], by simp, by rw [State.onCur, State.core_onCtx, List.append_nil]⟩
  ctx := by
    rw [State.ctx_onCur]
    exact hf

theorem advancePc_shape (pc : Nat) (x : Ctx) :
    ∃ pc' lv br, advancePc pc x = { x with pc := pc', loops := lv, branch := br } := by
  unfold advancePc
  dsimp only
  split
  · exact ⟨_, _, x.branch, rfl⟩
  · split
    · exact ⟨_, _, _, rfl⟩
    · exact ⟨_, _, _, rfl⟩

/-- O52 of a bundle whose slots leave `v`. -/
theorem RegOnly.frame {n pc : Nat} {u v : State} (h : RegOnly n u v) :
    let t := issued n pc v
    { t with cores := u.cores } = u ∧ (∀ k, k ≠ n → t.core k = u.core k) ∧
      (∀ k, k ≠ (u.core n).cur → t.ctxAt n k = u.ctxAt n k) ∧
      (∃ (f : List Res) (pc : Nat) (lv : List LoopLv) (br : Option (Nat × Nat)), f.length ≤ 1 ∧
        t.core n = { u.core n with
          flight := (u.core n).flight ++ f, icyc := (u.core n).icyc + 1, held := none
          haltReq := (u.core n).haltReq || (u.core n).stepReq, stepReq := false, ctxs := (t.core n).ctxs } ∧
        t.ctx n = { u.ctx n with pc := pc, loops := lv, branch := br, issue := (u.ctx n).issue + 1 }) := by
  obtain ⟨rest, cores, others, ⟨f, hf, hcore⟩, ⟨pc₁, lv₁, br₁, hctx⟩⟩ := h
  have hcur : (v.core n).cur = (u.core n).cur := by rw [hcore]
  intro t
  refine ⟨rest, fun k hk => ?_, fun k hk => ?_, ?_⟩
  · exact (State.core_onCore_other _ _ _ _ hk).trans ((State.core_onCore_other _ _ _ _ hk).trans (cores k hk))
  · exact (State.ctxAt_onCore _ rfl).trans ((State.ctxAt_onCtx_other _ _ (hcur ▸ hk)).trans (others k hk))
  · obtain ⟨pc₂, lv₂, br₂, hadv⟩ := advancePc_shape pc (v.ctx n)
    have hx : t.ctx n = { advancePc pc (v.ctx n) with issue := (v.ctx n).issue + 1 } :=
      (State.ctx_onCore rfl rfl).trans (State.ctx_onCur _ _ _)
    refine ⟨f, pc₂, lv₂, br₂, hf, ?_, ?_⟩
    · have ht : t.core n = { v.core n with
          icyc := (v.core n).icyc + 1, held := none, haltReq := (v.core n).haltReq || (v.core n).stepReq, stepReq := false
          ctxs := (t.core n).ctxs } := by
        simp only [t, issued, State.core_onCore_same, State.onCur, State.core_onCtx]
      rw [ht, hcore]
    · rw [hx, hadv, hctx]

/-- The command of an instruction whose slot does no more, beside three NOP slots. -/
theorem frame_of_issues {n : Nat} {s : State} {i : CIns} {j : Instr}
    (hj : exec j s = atC { agent := .core n, w1 := 0, w2 := 0, w3 := 0 } i s)
    (hb : boundaryOf (some i) = none) (hr : RegOnly n (fetched n s) (i.op.run n (fetched n s) (fetched n s)))
    (h : issuesC n i 0 0 0 s = true) :
    ∃ v pc, exec j s = goes (issued n pc v) ∧ RegOnly n (fetched n s) v := by
  refine ⟨_, ((atChecks n s).ctx n).pc, ?_, hr⟩
  obtain ⟨f, -, hcore⟩ := hr.core
  have hs : ((i.op.run n (fetched n s) (fetched n s)).core n).stores = ((fetched n s).core n).stores := by rw [hcore]
  rw [hj, atC_of_issues_one (i.op.run n (fetched n s)) rfl hb h, afterOne, afterSlots,
    writesOf_of_later (hs ▸ fetched_stores n s)]

theorem regOnly_setBranch (n : Nat) (t : Int) (u : State) : RegOnly n u (setBranch n t u) := .onCur ⟨_, _, _, rfl⟩

theorem regOnly_openLoop (n count body : Nat) (u : State) : RegOnly n u (openLoop n count body u) := by
  refine .onCur ?_
  dsimp only
  split
  · exact ⟨_, _, _, rfl⟩
  · exact ⟨_, _, _, rfl⟩

/-- Settles O52: each instruction's slot does at most one of three things (a result in flight, a branch, a loop level), and no store
that waits is due. -/
theorem registerInstructionsChangeNothingElse : Obligations.RegisterInstructionsChangeNothingElse := by
  intro n s i j r c w b l m site u hij h
  suffices hd : exec j s = atC site i s ∧ boundaryOf (some i) = none ∧ RegOnly n u (i.op.run n u u) by
    obtain ⟨hj, hb, hr⟩ := hd
    obtain ⟨v, pc, e, hv⟩ := frame_of_issues hj hb hr h
    exact ⟨_, e, hv.frame⟩
  have reg {slot pc lat : Nat} {x : RegW} : RegOnly n u (flyRes n slot pc lat x u) := .flyRes ..
  have br : RegOnly n u ((opBr b).run n u u) := by
    rw [opBr_run]
    dsimp only
    split
    · exact regOnly_setBranch ..
    · exact .refl ..
  simp only [List.mem_cons, List.not_mem_nil, or_false, Prod.mk.injEq] at hij
  rcases hij with ⟨rfl, rfl⟩ | hreg | himm | ⟨rfl, rfl⟩ | (⟨rfl, rfl⟩ | ⟨rfl, rfl⟩) | ⟨rfl, rfl⟩ | ⟨rfl, rfl⟩
  · exact ⟨rfl, rfl, .refl ..⟩
  · rcases hreg with ⟨rfl, rfl⟩ | ⟨rfl, rfl⟩ | ⟨rfl, rfl⟩ | ⟨rfl, rfl⟩ | ⟨rfl, rfl⟩ | ⟨rfl, rfl⟩ | ⟨rfl, rfl⟩ | ⟨rfl, rfl⟩ |
      ⟨rfl, rfl⟩ | ⟨rfl, rfl⟩ | ⟨rfl, rfl⟩ | ⟨rfl, rfl⟩ | ⟨rfl, rfl⟩ | ⟨rfl, rfl⟩ | ⟨rfl, rfl⟩ | ⟨rfl, rfl⟩ | ⟨rfl, rfl⟩ |
      ⟨rfl, rfl⟩ | ⟨rfl, rfl⟩ | ⟨rfl, rfl⟩ | ⟨rfl, rfl⟩ | ⟨rfl, rfl⟩ | ⟨rfl, rfl⟩ | ⟨rfl, rfl⟩ | ⟨rfl, rfl⟩
    on_goal 24 => exact ⟨rfl, rfl, regOnly_setBranch ..⟩
    all_goals exact ⟨rfl, rfl, reg⟩
  · rcases himm with ⟨rfl, rfl⟩ | ⟨rfl, rfl⟩ | ⟨rfl, rfl⟩ | ⟨rfl, rfl⟩ <;> exact ⟨rfl, rfl, reg⟩
  · exact ⟨rfl, rfl, reg⟩
  · exact ⟨rfl, rfl, br⟩
  · exact ⟨rfl, rfl, regOnly_setBranch ..⟩
  · exact ⟨rfl, rfl, regOnly_openLoop ..⟩
  · exact ⟨rfl, rfl, regOnly_openLoop ..⟩

end Sys2Proof.Machine

end

section
/-! SUPPORT. Fabric loads and stores and slot scalars of a core (R41, R149). -/

namespace Sys2Proof.Machine

open Sys2Proof

/-! The posted stores of a context through a bundle (R41). -/

theorem Flows.posted {n : Nat} {s t : State} (h : Flows n s t) : (t.ctx n).posted = (s.ctx n).posted := by
  have hcur : (t.core n).cur = (s.core n).cur := by rw [h.core]
  rw [State.ctx_eq_ctxAt, hcur]
  exact (h.ctx _).2.1

theorem issued_posted (n pc : Nat) (s : State) : ((issued n pc s).ctx n).posted = (s.ctx n).posted := by
  obtain ⟨pc', lv, br, h⟩ := advancePc_shape pc (s.ctx n)
  rw [issued, State.ctx_onCore rfl rfl, State.ctx_onCur, h]

/-- A store at issue leaves the posted stores of the context. -/
theorem storeNow_posted (n port : Nat) (bytes : List (Nat × Byte)) (pois : List Nat) (s : State) :
    ((storeNow n port bytes pois s).ctx n).posted = (s.ctx n).posted := by
  rw [storeNow, State.ctx_onCore rfl rfl]

theorem slotPush_posted {n q : Nat} {s : State} (h : ((s.ctx n).slot q).hasSpace = true) :
    ((slotPush n q s).ctx n).posted = (s.ctx n).posted := by
  have hf : Flows n s (slotPush n q s) := by
    unfold slotPush
    simp only [h, Bool.not_true, Bool.false_and, Bool.false_eq_true, if_false]
    exact .onCtx (.refl s) fun _ => ⟨rfl, rfl, rfl⟩
  exact hf.posted

theorem afterSlots_posted (n : Nat) (s v : State) : ((afterSlots n s v).ctx n).posted = (v.ctx n).posted := by
  have hw : Flows n v (writesOf n ((atChecks n s).core n).icyc v) := .writesOf (.refl v)
  rw [afterSlots, issued_posted, hw.posted]

/-- The status byte of an LDF entry. -/
theorem leNat_byte (l : List Byte) (k : Nat) : leNat ((l.drop k).take 1) = (l.getD k 0).toNat := by
  induction l generalizing k with
  | nil => simp [leNat]
  | cons b l ih =>
    cases k with
    | zero => simp [leNat]
    | succ k => simpa using ih k

/-- SRD: the entry is read, removed and put in flight, or its exception `e` is. -/
theorem opSrd_run {n : Nat} {i : CQ} {u : State} {Q : QSlot} {rd : Rd × State} {st : Nat} {e : Option Exc}
    (hQ : (u.ctx n).slot i.q.toNat = Q) (hr : spdRead 0 n (Q.at_ Q.head) Q.bytes u = rd)
    (hst : (if Q.mode = 3 then (rd.1.bytes.getD 8 0).toNat else 0) = st)
    (he : (if rd.1.bad = [] then statusExc st else some .ue) = e) :
    (opSrd i).run n u u = flyRes n 0 (u.ctx n).pc 1
      (e.elim (.s i.s.toNat (BitVec.ofNat 64 (leNat (rd.1.bytes.take 8)))) .exc) (slotPop n i.q.toNat rd.2) := by
  subst hQ hr hst
  simp only [opSrd, leNat_byte, Bool.not_eq_true', ← Bool.not_eq_true, List.isEmpty_iff, ite_not]
  rw [he]
  cases e <;> rfl

/-- Settles O14: each slot does what O14 says by definition, SRD by `opSrd_run`; between STF's slot and the end of its bundle
nothing changes the count of posted stores. -/
theorem fabricLoadsStoresAndSlotScalars : Obligations.FabricLoadsStoresAndSlotScalars := by
  intro n s i u x pc site q Q rd st
  refine ⟨?ldf, fun h => ⟨_, ?stf, fun hq => ?posted, rfl⟩, fun h hb hst => ?srd, fun e h hb hst => ?status, fun h hb => ?ue,
    ?swr⟩
  case ldf => exact atC_of_issues_one _ rfl rfl
  case stf => exact atC_of_issues_one _ rfl rfl h
  case posted =>
    rw [afterOne, afterSlots_posted, State.ctx_onCur]
    dsimp only
    rw [slotPush_posted, storeNow_posted]
    rw [storeNow, State.ctx_onCore rfl rfl]
    exact hq
  case srd =>
    exact atC_of_issues_one _ (opSrd_run rfl rfl rfl (e := none) (by rw [if_pos hb]; exact congrArg statusExc hst)) rfl h
  case status => exact atC_of_issues_one _ (opSrd_run rfl rfl rfl (e := some e) (by rw [if_pos hb]; exact hst)) rfl h
  case ue => exact atC_of_issues_one _ (opSrd_run rfl rfl rfl (e := some .ue) (if_neg hb)) rfl h
  case swr => exact atC_of_issues_one _ rfl rfl

end Sys2Proof.Machine

end

section
/-! SUPPORT. What reading and writing the step records touches (R199 to R201, R259): the stacks of the panels, the memory, the error
log and its attention. -/

namespace Sys2Proof.Machine

open Sys2Proof

/-- From `s` to `t` only what an access to the step records reaches has changed. -/
structure RecOnly (s t : State) : Prop where
  panels : ∀ p, ∃ K, t.panel p = { s.panel p with stack := K }
  others : { t with
    panels := s.panels, mem := s.mem, log := s.log, attention := s.attention
    host := { t.host with msixPending := s.host.msixPending, msixSent := s.host.msixSent } } = s

namespace RecOnly

variable {s₀ s t : State} {α : Type}

theorem refl (s : State) : RecOnly s s := ⟨fun _ => ⟨_, rfl⟩, rfl⟩

theorem trans {u : State} (h : RecOnly s t) (k : RecOnly t u) : RecOnly s u where
  panels p := by
    obtain ⟨K, e⟩ := h.panels p
    obtain ⟨L, d⟩ := k.panels p
    exact ⟨L, by rw [d, e]⟩
  others := by
    have e := congrArg (fun v : State =>
      { v with
        panels := s.panels, mem := s.mem, log := s.log, attention := s.attention
        host := { v.host with msixPending := s.host.msixPending, msixSent := s.host.msixSent } }) k.others
    exact e.trans h.others

theorem onStack {p : Nat} {f : Stack → Stack} (h : RecOnly s₀ s) : RecOnly s₀ (s.onStack p f) where
  panels r := by
    obtain ⟨K, e⟩ := h.panels r
    by_cases hr : r = p
    · subst hr
      exact ⟨f K, by rw [State.onStack, State.panel_onPanel_same, e]⟩
    · exact ⟨K, by rw [State.onStack, State.panel_onPanel_other _ _ _ _ hr, e]⟩
  others := h.others

theorem setMem {m : List Host.Cell} (h : RecOnly s₀ s) : RecOnly s₀ { s with mem := m } := ⟨h.panels, h.others⟩

theorem foldl {f : State → α → State} {l : List α} (h : RecOnly s₀ s) (hf : ∀ t x, RecOnly s₀ t → RecOnly s₀ (f t x)) :
    RecOnly s₀ (l.foldl f s) := by
  induction l generalizing s with
  | nil => exact h
  | cons x l ih => exact ih (hf s x h)

theorem attend (h : RecOnly s₀ s) : RecOnly s₀ (attend s) := by
  unfold Machine.attend
  split
  · exact h
  · obtain ⟨p, m, e⟩ := msix_eq { s with attention := true }
    rw [e]
    exact ⟨h.panels, h.others⟩

theorem logErr {severity cls unit status d0 d1 : Nat} (h : RecOnly s₀ s) :
    RecOnly s₀ (logErr severity cls unit status d0 d1 s) := by
  have ha : RecOnly s₀ (if severity = 2 then Machine.attend s else s) := by
    split
    · exact .attend h
    · exact h
  unfold Machine.logErr
  dsimp only
  split
  · exact ⟨ha.panels, ha.others⟩
  · exact ⟨ha.panels, ha.others⟩

theorem putSector {p phys : Nat} {data check : List Byte} (h : RecOnly s₀ s) : RecOnly s₀ (putSector p phys data check s) := by
  unfold Machine.putSector
  exact .onStack (.setMem h)

theorem writeSector {p x : Nat} {data : List Byte} {pois : Bool} (h : RecOnly s₀ s) :
    RecOnly s₀ (writeSector p x data pois s) := by
  unfold Machine.writeSector
  exact .onStack (.putSector h)

theorem markSector {p x phys aw source : Nat} {addr : Bool} (h : RecOnly s₀ s) :
    RecOnly s₀ (markSector p x phys aw source addr s) := by
  unfold Machine.markSector
  exact .logErr (.onStack (.putSector h))

theorem noteCorrected {p phys : Nat} (h : RecOnly s₀ s) : RecOnly s₀ (noteCorrected p phys s) := by
  unfold Machine.noteCorrected
  exact .onStack h

theorem readSector {p x source : Nat} {raw : Bool} (h : RecOnly s₀ s) : RecOnly s₀ (readSector p x source s raw).2 := by
  unfold Machine.readSector
  dsimp only
  split
  · exact h
  · dsimp only
    exact .onStack h
  · exact .noteCorrected h
  · split
    · exact h
    · exact .markSector h

theorem forceSector {p x source : Nat} (h : RecOnly s₀ s) : RecOnly s₀ (forceSector p x source s).2 := by
  have hr : RecOnly s₀ (Machine.readSector p x source s).2 := .readSector h
  unfold Machine.forceSector
  dsimp only
  split
  next e =>
    rw [e] at hr
    exact hr
  next e =>
    rw [e] at hr
    exact .markSector hr

theorem putUnit {k off : Nat} {bs : List Byte} (h : RecOnly s₀ s) : RecOnly s₀ (putUnit k off bs s) := by
  unfold Machine.putUnit
  refine .foldl h fun _ _ h => ?_
  split
  · exact h
  · exact .foldl h fun _ _ => .writeSector

theorem readUnitAt {k off : Nat} (h : RecOnly s₀ s) : RecOnly s₀ (readUnitAt k off s) := .forceSector h

theorem putHdr {k : Nat} {d : Hdr} (h : RecOnly s₀ s) : RecOnly s₀ (putHdr k d s) := .putUnit h

theorem putRec {k n : Nat} {r : Rec} (h : RecOnly s₀ s) : RecOnly s₀ (putRec k n r s) := .putUnit h

theorem editHdr {k : Nat} {f : Hdr → Hdr} (h : RecOnly s₀ s) : RecOnly s₀ (editHdr k f s) := .putHdr (.readUnitAt h)

theorem editRec {k n : Nat} {f : Rec → Rec} (h : RecOnly s₀ s) : RecOnly s₀ (editRec k n f s) := .putRec (.readUnitAt h)

theorem saveState {k : Nat} (h : RecOnly s₀ s) : RecOnly s₀ (saveState k s) := .editHdr h

/-! What stays. -/

theorem seq (h : RecOnly s t) (p : Nat) : t.seq p = s.seq p := by
  obtain ⟨K, e⟩ := h.panels p
  rw [State.seq, e, State.seq]

theorem parts (h : RecOnly s t) : t.parts = s.parts := (congrArg State.parts h.others :)

theorem ports (h : RecOnly s t) : t.ports = s.ports := (congrArg State.ports h.others :)

theorem cores (h : RecOnly s t) : t.cores = s.cores := (congrArg State.cores h.others :)

theorem now (h : RecOnly s t) : t.now = s.now := (congrArg State.now h.others :)

end RecOnly

end Sys2Proof.Machine

end

section
/-! SUPPORT. What the work of cores, ports and records does to the sequencers (R61, R65): flags, barrier counts and the watchdog; and a
sequencer fault, which a void of the step leaves (R63, R66). -/

namespace Sys2Proof.Machine

open Sys2Proof

/-- From `s` to `t` each sequencer has at most other flags, barrier counts or another watchdog. -/
def Signals (s t : State) : Prop := ∀ p, (s.seq p).Signalled (t.seq p)

namespace Signals

variable {s₀ s t : State} {α : Type}

theorem refl (s : State) : Signals s s := fun _ => rfl

theorem trans {u : State} (h : Signals s t) (k : Signals t u) : Signals s u := fun p => (h p).trans (k p)

theorem of_panels (h : Signals s₀ s) (e : t.panels = s.panels) : Signals s₀ t := fun p => by
  have ep : t.seq p = s.seq p := by rw [State.seq, State.panel, e, State.seq, State.panel]
  rw [ep]
  exact h p

theorem of_recOnly (h : Signals s₀ s) (k : RecOnly s t) : Signals s₀ t := fun p => by
  rw [k.seq]
  exact h p

theorem of_own {n : Nat} (h : Signals s₀ s) (k : Own n s t) : Signals s₀ t := fun p => by
  obtain ⟨q, H, e, hq⟩ := k.panels p
  have ep : t.seq p = q := by rw [State.seq, e]
  rw [ep]
  exact (h p).trans hq

theorem onPart {k : Nat} {f : Part → Part} (h : Signals s₀ s) : Signals s₀ (s.onPart k f) := h.of_panels rfl

theorem foldlMem {f : State → α → State} {l : List α} (h : Signals s₀ s)
    (hf : ∀ t, ∀ x ∈ l, Signals s₀ t → Signals s₀ (f t x)) : Signals s₀ (l.foldl f s) := by
  induction l generalizing s with
  | nil => exact h
  | cons x l ih => exact ih (hf s x List.mem_cons_self h) fun t y hy => hf t y (List.mem_cons_of_mem _ hy)

theorem foldl {f : State → α → State} {l : List α} (h : Signals s₀ s) (hf : ∀ t x, Signals s₀ t → Signals s₀ (f t x)) :
    Signals s₀ (l.foldl f s) := h.foldlMem fun t x _ => hf t x

theorem ite {c : Prop} [Decidable c] (hs : Signals s₀ s) (ht : Signals s₀ t) : Signals s₀ (if c then s else t) := by
  split
  · exact hs
  · exact ht

/-- A panel changes, its sequencer at most in its signals. -/
theorem onPanel {p : Nat} {f : Panel → Panel} (h : Signals s₀ s) (hf : ∀ P : Panel, P.seq.Signalled (f P).seq) :
    Signals s₀ (s.onPanel p f) := fun r => by
  by_cases hr : r = p
  · subst hr
    have e : (s.onPanel r f).seq r = (f (s.panel r)).seq := by rw [State.seq, State.panel_onPanel_same]
    rw [e]
    exact (h r).trans (hf _)
  · have e : (s.onPanel p f).seq r = s.seq r := by rw [State.seq, State.panel_onPanel_other _ _ _ _ hr, State.seq]
    rw [e]
    exact h r

theorem onSeq {p : Nat} {f : Seq → Seq} (h : Signals s₀ s) (hf : ∀ q : Seq, q.Signalled (f q)) :
    Signals s₀ (s.onSeq p f) := .onPanel h fun P => hf P.seq

theorem attendPart {k : Nat} (h : Signals s₀ s) : Signals s₀ (attendPart k s) := by
  unfold Machine.attendPart
  exact .ite h (.of_panels h rfl)

theorem discardEntries {o st : Nat} (h : Signals s₀ s) : Signals s₀ (discardEntries o st s) := by
  unfold Machine.discardEntries
  dsimp only
  refine .of_panels (.foldl h fun t e ht => ?_) rfl
  unfold Machine.entryStatus
  have hr : Signals s₀ (raiseFlag e.panel e.flag t) := .onSeq ht fun _ => rfl
  exact .ite hr (hr.of_panels rfl)

theorem flushBuffers {o : Nat} (h : Signals s₀ s) : Signals s₀ (flushBuffers o s) := h.of_panels rfl

theorem sendCtl {o kind step : Nat} {data : List Byte} (h : Signals s₀ s) : Signals s₀ (sendCtl o kind step data s) :=
  h.of_panels rfl

theorem sendVoids {k : Nat} (h : Signals s₀ s) : Signals s₀ (sendVoids k s) := .foldl h fun _ _ h => .ite (.sendCtl h) h

theorem sendRejoins {k : Nat} (h : Signals s₀ s) : Signals s₀ (sendRejoins k s) :=
  .foldl h fun _ _ h => .ite (h.of_panels rfl) h

theorem onCore {n : Nat} {f : Core → Core} (h : Signals s₀ s) : Signals s₀ (s.onCore n f) := h.of_panels rfl

theorem setGates {p : Nat} {g : Gate} (h : Signals s₀ s) : Signals s₀ (setGates p g s) := .foldl h fun _ _ => .onCore

theorem stopPanel {p : Nat} (h : Signals s₀ s) : Signals s₀ (stopPanel p s) :=
  .foldl h fun _ _ h => .foldlMem h fun t _ hk h => .of_own h (.stopCtx (.refl t) fun _ => List.mem_range.1 hk)

theorem askWake {forced : Bool} {p : Nat} (h : Signals s₀ s) : Signals s₀ (askWake forced p s) := by
  unfold Machine.askWake
  exact .ite (.onPanel h fun _ => rfl) h

end Signals

/-! A sequencer in FAULT. -/

theorem seq_onSeq_same (s : State) (p : Nat) (g : Seq → Seq) : (s.onSeq p g).seq p = g (s.seq p) := by
  rw [State.seq, State.onSeq, State.panel_onPanel_same, State.seq]

/-- A faulted sequencer does not frog (R63). -/
theorem Seq.frogSeq_of_fault {q : Seq} (h : q.state = .fault) : frogSeq q = { q with stepOpen := false } := by
  unfold frogSeq
  split <;> simp_all

/-- The sequencer halted with fault `f` (R66). -/
def Seq.haltedWith (now : Nat) (f : SeqFault) (q : Seq) : Seq :=
  { (q.pauseWd now) with state := .fault, fault := some f, wait := none, prest := none }

theorem Seq.pauseWd_regs (q : Seq) (now : Nat) : (q.pauseWd now).regs = q.regs := by
  unfold Seq.pauseWd
  split <;> rfl

/-- The sequencer of panel `p` has halted with a fault, its registers `r` (R66). -/
def SeqFaulted (p : Nat) (f : SeqFault) (r : Regs) (s : State) : Prop :=
  (s.seq p).state = .fault ∧ (s.seq p).fault = some f ∧ (s.seq p).regs = r

namespace SeqFaulted

variable {p : Nat} {f : SeqFault} {r : Regs} {s t : State}

theorem signals (h : SeqFaulted p f r s) (k : Signals s t) : SeqFaulted p f r t := by
  have e := k p
  unfold SeqFaulted
  rw [e]
  exact h

theorem frogSeq (h : SeqFaulted p f r s) (q : Nat) : SeqFaulted p f r (s.onSeq q frogSeq) := by
  obtain ⟨hstate, hfault, hregs⟩ := h
  by_cases hq : p = q
  · subst hq
    have e : (s.onSeq p Machine.frogSeq).seq p = { s.seq p with stepOpen := false } := by
      rw [seq_onSeq_same, Seq.frogSeq_of_fault hstate]
    unfold SeqFaulted
    rw [e]
    exact ⟨hstate, hfault, hregs⟩
  · have e : (s.onSeq q Machine.frogSeq).seq p = s.seq p := by
      rw [State.seq, State.onSeq, State.panel_onPanel_other _ _ _ _ hq, State.seq]
    unfold SeqFaulted
    rw [e]
    exact ⟨hstate, hfault, hregs⟩

theorem frogPanel (h : SeqFaulted p f r s) (q : Nat) : SeqFaulted p f r (frogPanel q s) :=
  .frogSeq (h.signals (.askWake (.setGates (.stopPanel (.refl s))))) q

theorem foldl_frogPanel (h : SeqFaulted p f r s) (l : List Nat) :
    SeqFaulted p f r (l.foldl (fun s q => Machine.frogPanel q s) s) := by
  induction l generalizing s with
  | nil => exact h
  | cons q l ih => exact ih (h.frogPanel q)

theorem enterHold (h : SeqFaulted p f r s) (k cause : Nat) (down : Bool) : SeqFaulted p f r (enterHold k cause down s) := by
  unfold Machine.enterHold
  extract_lets J v s₁ s₂ s₃ s₄ s₅ s₆ s₇
  have h₁ : Signals s s₁ := .ite (.of_recOnly (.refl s) (.editRec (.refl s))) (.refl s)
  have h₃ : Signals s s₃ := (Signals.of_panels (t := s₂) h₁ rfl).of_recOnly (.saveState (.refl s₂))
  have h₄ : Signals s s₄ := .foldl h₃ fun t o h => by
    have hd : Signals s (flushBuffers o (discardEntries o 0x08 t)) := .flushBuffers (.discardEntries h)
    exact hd.of_panels rfl
  have h₆ : Signals s s₆ := .foldl (.sendVoids h₄) fun _ _ h => .onSeq h (Seq.signalled_pauseWd _)
  have h₇ : SeqFaulted p f r s₇ := by
    unfold s₇
    split
    · exact (h.signals h₆).foldl_frogPanel _
    · exact h.signals h₆
  split
  · exact h₇.signals (.attendPart (.refl _))
  · exact h₇

theorem voidStep (h : SeqFaulted p f r s) (k cause : Nat) (down : Bool) : SeqFaulted p f r (voidStep k cause down s) := by
  unfold Machine.voidStep
  dsimp only
  split
  · exact h
  · split
    · exact h.enterHold k cause down
    · split
      · exact h.signals (.sendRejoins (.sendVoids (.attendPart (.of_panels (.refl s) rfl))))
      · exact h

end SeqFaulted

/-- A sequencer fault halts the sequencer with its cause; its registers stay (R66). -/
theorem seqFault_faulted (p : Nat) (f : SeqFault) (s : State) : SeqFaulted p f (s.seq p).regs (seqFault p f s) := by
  have h : SeqFaulted p f (s.seq p).regs (s.onSeq p (Seq.haltedWith s.now f)) := by
    unfold SeqFaulted
    rw [seq_onSeq_same]
    exact ⟨rfl, rfl, Seq.pauseWd_regs _ _⟩
  have hu : ∀ t : State, SeqFaulted p f (s.seq p).regs t → SeqFaulted p f (s.seq p).regs (unarrive p t) := fun t ht => by
    refine ht.signals ?_
    unfold unarrive
    split
    · exact .of_panels (.refl t) rfl
    · exact .refl t
  have hf : SeqFaulted p f (s.seq p).regs (unarrive p (s.onSeq p (Seq.haltedWith s.now f))) := hu _ h
  unfold Seq.haltedWith at hf
  unfold seqFault
  dsimp only
  split
  · exact (hf.signals (.attendPart (.onPart (.refl _)))).voidStep _ _ _
  · exact hf

end Sys2Proof.Machine

end

section
/-! SUPPORT. The exceptions that a slot raises at issue (R37, R57): none but the rule on bundles raises EXC_BUNDLE, so that a slot with
an undefined opcode decides. -/

namespace Sys2Proof.Machine

open Sys2Proof

/-- A check that does not give EXC_BUNDLE. -/
structure NoBundle (e : Option Exc) : Prop where
  ne : e ≠ some .bundle

namespace NoBundle

theorem none : NoBundle Option.none := ⟨nofun⟩

theorem illegal : NoBundle (some .illegal) := ⟨nofun⟩

theorem addr : NoBundle (some .addr) := ⟨nofun⟩

theorem ite {c : Prop} [Decidable c] {a b : Option Exc} (ha : NoBundle a) (hb : NoBundle b) : NoBundle (if c then a else b) := by
  split
  · exact ha
  · exact hb

theorem needs (b : Bool) : NoBundle (Machine.needs b) := .ite .none .illegal

theorem minExc {a b : Option Exc} (ha : NoBundle a) (hb : NoBundle b) : NoBundle (minExc a b) := by
  unfold Machine.minExc
  split
  · exact hb
  · exact ha
  · exact .ite ha hb

theorem foldl {α : Type} {f : Option Exc → α → Option Exc} {l : List α} {a : Option Exc} (ha : NoBundle a)
    (hf : ∀ a, ∀ x ∈ l, NoBundle a → NoBundle (f a x)) : NoBundle (l.foldl f a) := by
  induction l generalizing a with
  | nil => exact ha
  | cons x l ih => exact ih (hf a x List.mem_cons_self ha) fun b y hy => hf b y (List.mem_cons_of_mem _ hy)

theorem excOf {l : List (Bool × Exc)} (h : ∀ e ∈ l, e.2 ≠ .bundle) : NoBundle (excOf l) :=
  .foldl .none fun _ e he ha => .ite (.minExc ha ⟨fun k => h e he (Option.some.inj k)⟩) ha

theorem rangeExc (c : Core) (x : Ctx) (off len : Nat) (w : Bool) : NoBundle (rangeExc c x off len w) :=
  .ite .none (.excOf (by simp))

theorem accessExc (c : Core) (o : Int) (align len : Nat) (w : Bool) : NoBundle (accessExc c o align len w) :=
  .ite .addr (.minExc (.ite .none .addr) (.rangeExc ..))

theorem baseExc (n : Nat) (s : State) (off align len : Nat) (w : Bool) : NoBundle (baseExc n s off align len w) :=
  .ite .none (.minExc (.ite .none .addr) (.rangeExc ..))

theorem headExc (q n : Nat) (s : State) : NoBundle (headExc q n s) := .rangeExc ..

theorem tailExc (q n : Nat) (s : State) : NoBundle (tailExc q n s) := .rangeExc ..

theorem statusExc (st : Nat) : NoBundle (statusExc st) := by
  unfold Machine.statusExc
  split <;> exact ⟨nofun⟩

theorem sqcfgExc (c : Core) (w : Nat) : NoBundle (sqcfgExc c w) := .ite .illegal (.excOf (by simp))

end NoBundle

/-- A slot raises no EXC_BUNDLE. -/
def SlotOp.Mild (p : SlotOp) : Prop := ∀ n s, NoBundle (p.exc n s)

theorem SlotOp.undef_mild : SlotOp.undef.Mild := fun _ _ => .illegal

theorem MIns.op_mild (i : MIns) : i.op.Mild := by
  intro n s
  cases i with
  | nop => exact .none
  | mcfg | mseed | mclr => exact .needs _
  | mldw => exact .ite .illegal (.minExc (.baseExc ..) (.baseExc ..))
  | mmul => exact .ite .illegal (.minExc (.baseExc ..) (.baseExc ..))
  | mpre => exact .ite .illegal (.baseExc ..)
  | mdrain i =>
    refine .ite .illegal (.minExc (.baseExc ..) ?_)
    split
    · exact .ite (.baseExc ..) .none
    · exact .none
  | mspill i =>
    refine .ite .illegal (.foldl .none fun a t _ ha => ?_)
    split
    · exact .minExc ha (.baseExc ..)
    · exact ha
  | mgrpOpen i =>
    refine .ite .illegal ?_
    have hb := NoBundle.baseExc n s (aOff (s.ctx n) i.tab) 16 16 false
    split
    next e => exact e ▸ hb
    next e => exact .ite (.baseExc ..) .illegal
  | mgrpClose i =>
    show NoBundle ((opMgrpClose i).exc n s)
    unfold opMgrpClose
    dsimp only
    split
    · exact .ite (.baseExc ..) .illegal
    · exact .illegal
  | mlds => exact .ite .illegal (.minExc (.baseExc ..) (.minExc (.baseExc ..) (.baseExc ..)))
  | smul => exact .ite .illegal (.minExc (.baseExc ..) (.ite .none .addr))
  | mdrs i =>
    refine .ite .illegal (.minExc (.baseExc ..) (.minExc (.baseExc ..) ?_))
    split
    · exact .ite (.baseExc ..) .none
    · exact .none
  | smrg => exact .ite .illegal (.minExc (.ite .none .addr) (.baseExc ..))
  | scmp => exact .ite .illegal (.minExc (.baseExc ..) (.minExc (.baseExc ..) (.minExc (.baseExc ..) (.baseExc ..))))
  | strw => exact .ite .illegal (.minExc (.baseExc ..) (.minExc (.baseExc ..) (.minExc (.baseExc ..) (.baseExc ..))))

theorem VIns.op_mild (i : VIns) : i.op.Mild := by
  intro n s
  cases i with
  | nop => exact .none
  | vld | vst => exact .ite .illegal (.foldl (.ite .none .addr) fun _ _ _ ha => .minExc ha (.accessExc ..))
  | vbc | vext | vseed | vch => exact .needs _
  | vldc => exact .ite .illegal (.accessExc ..)
  | vqrd => exact .ite .illegal (.headExc ..)
  | vqwr => exact .ite .illegal (.tailExc ..)

theorem SIns.op_mild (i : SIns) : i.op.Mild := by
  intro n s
  cases i with
  | nop => exact .none
  | sqcfg i =>
    refine .ite .illegal ?_
    have ha := NoBundle.accessExc (s.core n) (sqcfgOff (s.core n).ctx i) 32 32 false
    split
    next e => exact e ▸ ha
    next e => exact .sqcfgExc ..
  | sqcnt | shead | spop | stail | spush | slstop | slstat => exact .needs _
  | slist => exact .ite .illegal (.minExc (.ite .none .addr) (.rangeExc ..))

/-- A control slot that is not a whole bundle. -/
theorem CIns.op_mild (i : CIns) (h : i.op.whole = false) : i.op.Mild := by
  intro n s
  cases i with
  | nop => exact .none
  | ld => exact .accessExc ..
  | st => exact .accessExc ..
  | ldf => exact .ite .illegal (.minExc .none (.statusExc _))
  | stf => exact .ite .illegal (.minExc (.tailExc ..) (.statusExc _))
  | srd => exact .ite .illegal (.headExc ..)
  | swr => exact .ite .illegal (.tailExc ..)
  | wait => exact absurd h nofun
  | launch | cswitch | cstop | xwake | fset | fclr | fwait | barrier | prest | stepBegin | stepEnd | wdog | cwait => exact .illegal
  | addi | andi | lui | ori => exact .none
  | _ => exact .needs _

end Sys2Proof.Machine

end

section
/-! SUPPORT. The steps of a context boundary (R54, R55, R58): what the save, the start of another context and the stop leave in the
core and in its contexts. -/

namespace Sys2Proof.Machine

open Sys2Proof

/-- The context of a boundary as it is saved. -/
def saved (st : CtxState) (x : Ctx) : Ctx := { loseTiles x with state := st }

theorem loseTiles_exc (x : Ctx) : (loseTiles x).exc = x.exc := by
  unfold loseTiles
  split <;> rfl

theorem saved_exc (st : CtxState) (x : Ctx) : (saved st x).exc = x.exc := loseTiles_exc x

/-- A full write of lines changes no context of its core. -/
theorem writeFull_core (n l : Nat) (ls : List (List Byte × Bool)) (s : State) :
    ∃ wb spd redef, (writeFull n l ls s).core n = { s.core n with wb := wb, spd := spd, redef := redef } :=
  ⟨_, _, _, State.core_onCore_same _ _ _⟩

/-- The core of a context that has been saved: nothing of it runs (R55, R90). -/
def ceased (c : Core) : Core :=
  { clearArrays c with active := false, held := none, wait := none, rest := none, boundary := none, flight := [], stores := [] }

/-- The core after a save: what flows, the context as it is saved, and nothing that runs (R54, R90). -/
theorem saveCur_core (n : Nat) (st : CtxState) (s : State) :
    ∃ v, Flows n s v ∧ ∃ wb spd redef, (saveCur n st s).core n = ceased { v.core n with
      wb := wb, spd := spd, redef := redef
      ctxs := Tab.set (v.core n).ctxs (s.core n).cur (saved st (v.ctxAt n (s.core n).cur)) } := by
  have hv : Flows n s (suspendLists n (s.core n).cur (writeGroups n (s.core n).cur s)) := .suspendLists (.writeGroups (.refl s))
  have hs : saveCur n st s = (saveArea n (s.core n).cur
      (State.onCtx (suspendLists n (s.core n).cur (writeGroups n (s.core n).cur s)) n (s.core n).cur (saved st))).onCore n ceased := rfl
  generalize suspendLists n (s.core n).cur (writeGroups n (s.core n).cur s) = v at hv hs
  obtain ⟨wb, spd, redef, e⟩ := writeFull_core n (saveBase (s.core n).cur / 64)
    (areaContents ((State.onCtx v n (s.core n).cur (saved st)).ctxAt n (s.core n).cur)) (State.onCtx v n (s.core n).cur (saved st))
  refine ⟨v, hv, wb, spd, redef, ?_⟩
  rw [hs, State.core_onCore_same, saveArea, e, State.core_onCtx]

section
variable (n : Nat) (st : CtxState) (s : State)

theorem saveCur_stat : ((saveCur n st s).core n).stat = (s.core n).stat := by
  obtain ⟨v, hv, wb, spd, redef, e⟩ := saveCur_core n st s
  rw [e, ceased, clearArrays]
  exact (congrArg Core.stat hv.core :)

theorem saveCur_mark : ((saveCur n st s).core n).mark = (s.core n).mark := by
  obtain ⟨v, hv, wb, spd, redef, e⟩ := saveCur_core n st s
  rw [e, ceased, clearArrays]
  exact (congrArg Core.mark hv.core :)

theorem saveCur_haltReq : ((saveCur n st s).core n).haltReq = (s.core n).haltReq := by
  obtain ⟨v, hv, wb, spd, redef, e⟩ := saveCur_core n st s
  rw [e, ceased, clearArrays]
  exact (congrArg Core.haltReq hv.core :)

theorem saveCur_wait : ((saveCur n st s).core n).wait = none := by
  obtain ⟨v, hv, wb, spd, redef, e⟩ := saveCur_core n st s
  rw [e, ceased]

/-- The saved context has its new state and its exception. -/
theorem saveCur_ctxAt_same : ((saveCur n st s).ctxAt n (s.core n).cur).state = st ∧
    ((saveCur n st s).ctxAt n (s.core n).cur).exc = (s.ctxAt n (s.core n).cur).exc := by
  obtain ⟨v, hv, wb, spd, redef, e⟩ := saveCur_core n st s
  have hx : (saveCur n st s).ctxAt n (s.core n).cur = saved st (v.ctxAt n (s.core n).cur) := by
    rw [State.ctxAt, e]
    exact Tab.get_set_same _ _ _ _
  obtain ⟨-, -, hexc⟩ := hv.ctx (s.core n).cur
  rw [hx]
  exact ⟨rfl, (saved_exc _ _).trans hexc⟩

/-- Another context goes on as it was. -/
theorem saveCur_ctxAt_other {j : Nat} (hj : j ≠ (s.core n).cur) : CtxFlows (s.ctxAt n j) ((saveCur n st s).ctxAt n j) := by
  obtain ⟨v, hv, wb, spd, redef, e⟩ := saveCur_core n st s
  have hx : (saveCur n st s).ctxAt n j = v.ctxAt n j := by
    rw [State.ctxAt, e, State.ctxAt]
    exact Tab.get_set_other _ _ _ _ _ hj
  rw [hx]
  exact hv.ctx j

end

/-! The start of a context lets another go on as it was, and begins no WAIT. -/

theorem CtxFlows.refl (x : Ctx) : CtxFlows x x := ⟨rfl, rfl, rfl⟩

/-- Context `j` of core `n` goes on as it was, and the core waits in `t` only if it does in `s`. -/
structure StartKeeps (n j : Nat) (s t : State) : Prop where
  ctx : CtxFlows (s.ctxAt n j) (t.ctxAt n j)
  wait : (s.core n).wait = none → (t.core n).wait = none

namespace StartKeeps

variable {n j k : Nat} {s₀ s t : State}

theorem refl (s : State) : StartKeeps n j s s := ⟨.refl _, id⟩

theorem flows (h : StartKeeps n j s₀ s) (k : Flows n s t) : StartKeeps n j s₀ t :=
  ⟨h.ctx.trans (k.ctx j), fun hw => (congrArg Core.wait k.core :).trans (h.wait hw)⟩

theorem onCtx {f : Ctx → Ctx} (h : StartKeeps n j s₀ s) (hj : j ≠ k) : StartKeeps n j s₀ (State.onCtx s n k f) where
  ctx := by
    rw [State.ctxAt_onCtx_other _ _ hj]
    exact h.ctx
  wait := by
    rw [State.core_onCtx]
    exact h.wait

theorem onCore {f : Core → Core} (h : StartKeeps n j s₀ s)
    (hf : ∀ c, (f c).ctxs = c.ctxs ∧ (c.wait = none → (f c).wait = none)) : StartKeeps n j s₀ (s.onCore n f) := by
  obtain ⟨hctxs, hwait⟩ := hf (s.core n)
  refine ⟨?_, ?_⟩
  · rw [State.ctxAt_onCore _ hctxs]
    exact h.ctx
  · rw [State.core_onCore_same]
    exact fun hw => hwait (h.wait hw)

theorem writeFull {l : Nat} {ls : List (List Byte × Bool)} (h : StartKeeps n j s₀ s) :
    StartKeeps n j s₀ (writeFull n l ls s) := by
  obtain ⟨wb, spd, redef, e⟩ := writeFull_core n l ls s
  have hx : (Machine.writeFull n l ls s).ctxAt n j = s.ctxAt n j := by rw [State.ctxAt, e, State.ctxAt]
  refine ⟨?_, ?_⟩
  · rw [hx]
    exact h.ctx
  · rw [e]
    exact h.wait

theorem ite {c : Prop} [Decidable c] (hs : StartKeeps n j s₀ s) (ht : StartKeeps n j s₀ t) :
    StartKeeps n j s₀ (if c then s else t) := by
  split
  · exact hs
  · exact ht

theorem loadArea (h : StartKeeps n j s₀ s) (hj : j ≠ k) : StartKeeps n j s₀ (loadArea n k s).2 := by
  unfold Machine.loadArea
  dsimp only
  split
  · exact h.flows (.readLines (.refl s))
  · exact .onCtx (h.flows (.readLines (.refl s))) hj

theorem reopenGroups (h : StartKeeps n j s₀ s) (hj : j ≠ k) : StartKeeps n j s₀ (reopenGroups n k s) := by
  unfold Machine.reopenGroups
  generalize (s.ctxAt n k).groups = l
  induction l generalizing s with
  | nil => exact h
  | cons e l ih => exact ih (.onCtx (h.flows (.spdRead (.refl s))) hj)

theorem reloadList {l : Nat} (h : StartKeeps n j s₀ s) (hj : j ≠ k) : StartKeeps n j s₀ (reloadList n k l s) := by
  unfold Machine.reloadList
  exact .ite (.onCtx (h.flows (.spdRead (.refl s))) hj) h

theorem reloadLists (h : StartKeeps n j s₀ s) (hj : j ≠ k) : StartKeeps n j s₀ (reloadLists n k s) := by
  unfold Machine.reloadLists
  generalize List.range 4 = l
  induction l generalizing s with
  | nil => exact h
  | cons e l ih => exact ih (h.reloadList hj)

theorem restoreFault {e : Exc} (h : StartKeeps n j s₀ s) (hj : j ≠ k) : StartKeeps n j s₀ (restoreFault n k e s) := by
  unfold Machine.restoreFault
  exact .onCore (.writeFull (.onCtx h hj)) fun _ => ⟨rfl, fun _ => rfl⟩

theorem restoreArea {st : CtxState} (h : StartKeeps n j s₀ s) (hj : j ≠ k) : StartKeeps n j s₀ (restoreArea n k st s) := by
  have hl := h.loadArea hj
  unfold Machine.restoreArea
  split
  next t e => exact .restoreFault (e ▸ hl :) hj
  next t e =>
    have ht : StartKeeps n j s₀ t := (e ▸ hl :)
    exact .ite (.restoreFault ht hj) (.reloadLists (.reopenGroups (.onCtx (.onCore ht fun _ => ⟨rfl, id⟩) hj) hj) hj)

theorem startCtx (h : StartKeeps n j s₀ s) (hj : j ≠ k) : StartKeeps n j s₀ (startCtx n k s) := by
  unfold Machine.startCtx
  have hs : StartKeeps n j s₀ (s.onCore n fun c => { c with cur := k, power := .run, mark := none, boundary := none }) :=
    .onCore h fun _ => ⟨rfl, id⟩
  exact .ite (.onCtx (.onCore hs fun _ => ⟨rfl, id⟩) hj) (.restoreArea hs hj)

/-- A context that may not run next goes on as it was where the core stops. -/
theorem afterStop (h : StartKeeps n j s₀ s) (hj : startable (s.ctxAt n j) = false) : StartKeeps n j s₀ (afterStop n s) := by
  unfold Machine.afterStop
  dsimp only
  split
  next k e =>
    split
    next hk =>
      refine .startCtx h fun hjk => ?_
      subst hjk
      exact absurd hk (by rw [hj]; nofun)
    · exact .onCore h fun _ => ⟨rfl, id⟩
  · exact .onCore h fun _ => ⟨rfl, id⟩

end StartKeeps

theorem afterStop_of_unmarked {n : Nat} {s : State} (h : (s.core n).mark = none) :
    afterStop n s = s.onCore n (fun c => { c with active := false, power := .idle }) := by
  unfold afterStop
  dsimp only
  rw [h]

end Sys2Proof.Machine

end

section
/-! SUPPORT. A bundle that is held or stopped at issue (R45, R57, R58): the exception chosen, and what it leaves. -/

namespace Sys2Proof.Machine

open Sys2Proof

/-! The choice among the exceptions of the slots (R57). -/

/-- Of two exceptions with their slots, the one of the lower rank, else the first. -/
def lowerExc (a : Option (Exc × Nat)) (e : Exc × Nat) : Option (Exc × Nat) :=
  match a with
  | none => some e
  | some v => if e.1.rank < v.1.rank then some e else some v

/-- The exceptions of the slots, each with its slot. -/
def Ops.excs (o : Ops) (n : Nat) (s : State) : List (Exc × Nat) :=
  o.list.zipIdx.filterMap (fun e => (e.1.exc n s).map (fun x => (x, e.2)))

theorem Ops.exc_of_legal {o : Ops} {b : Bundle} (h : o.illegal b = false) (n : Nat) (s : State) :
    o.exc b n s = (o.excs n s).foldl lowerExc none := by
  unfold Ops.exc
  rw [h]
  rfl

theorem Ops.mem_excs {o : Ops} {n : Nat} {s : State} {e : Exc × Nat} :
    e ∈ o.excs n s ↔ ∃ p, (p, e.2) ∈ o.list.zipIdx ∧ p.exc n s = some e.1 := by
  obtain ⟨x, k⟩ := e
  simp only [Ops.excs, List.mem_filterMap, Option.map_eq_some_iff, Prod.mk.injEq, Prod.exists]
  constructor
  · rintro ⟨p, i, hp, y, hy, rfl, rfl⟩
    exact ⟨p, hp, hy⟩
  · rintro ⟨p, hp, hy⟩
    exact ⟨p, k, hp, x, hy, rfl, rfl⟩

theorem one_le_rank {e : Exc} (h : e ≠ .bundle) : 1 ≤ e.rank := by
  cases e with
  | bundle => exact absurd rfl h
  | _ => decide

theorem eq_illegal_of_rank {e : Exc} (h : e.rank = 1) : e = .illegal := by
  cases e <;> first | rfl | exact absurd h (by decide)

/-- An exception of rank 1 in a list without EXC_BUNDLE is the one chosen. -/
theorem foldl_lowerExc_illegal (l : List (Exc × Nat)) (a : Option (Exc × Nat)) (hl : ∀ e ∈ l, e.1 ≠ .bundle)
    (ha : ∀ e ∈ a, e.1 ≠ .bundle) (h : (∃ e ∈ a, e.1 = .illegal) ∨ ∃ e ∈ l, e.1 = .illegal) :
    ∃ k, l.foldl lowerExc a = some (.illegal, k) := by
  induction l generalizing a with
  | nil =>
    obtain ⟨⟨x, k⟩, hk, rfl⟩ | ⟨_, he, _⟩ := h
    · exact ⟨k, hk⟩
    · exact absurd he List.not_mem_nil
  | cons e l ih =>
    have hle := hl e List.mem_cons_self
    refine ih _ (fun d hd => hl d (List.mem_cons_of_mem _ hd)) ?_ ?_
    · cases a with
      | none => simpa [lowerExc] using hle
      | some v =>
        simp only [lowerExc]
        split
        · simpa using hle
        · exact ha
    · have he := one_le_rank hle
      cases a with
      | none =>
        rcases h with ⟨_, hv, _⟩ | ⟨d, hd, hi⟩
        · nomatch hv
        · rcases List.mem_cons.1 hd with rfl | hd
          · exact .inl ⟨d, rfl, hi⟩
          · exact .inr ⟨d, hd, hi⟩
      | some v =>
        have hv := one_le_rank (ha v rfl)
        simp only [lowerExc]
        split
        next hlt =>
          rcases h with ⟨w, hw, hi⟩ | ⟨d, hd, hi⟩
          · cases hw
            rw [hi] at hlt
            rw [show Exc.rank .illegal = 1 from rfl] at hlt
            omega
          · rcases List.mem_cons.1 hd with rfl | hd
            · exact .inl ⟨d, rfl, hi⟩
            · exact .inr ⟨d, hd, hi⟩
        next hge =>
          rcases h with ⟨w, hw, hi⟩ | ⟨d, hd, hi⟩
          · exact .inl ⟨w, hw, hi⟩
          · rcases List.mem_cons.1 hd with rfl | hd
            · rw [hi] at hge
              rw [show Exc.rank .illegal = 1 from rfl] at hge
              exact .inl ⟨v, rfl, eq_illegal_of_rank (by omega)⟩
            · exact .inr ⟨d, hd, hi⟩

/-- An undefined slot beside slots that raise no EXC_BUNDLE decides. -/
theorem Ops.exc_of_illegal {o : Ops} {b : Bundle} {n : Nat} {s : State} (hb : o.illegal b = false)
    (hm : ∀ p ∈ o.list, p.Mild) (hi : ∃ p ∈ o.list, p.exc n s = some .illegal) : ∃ k, o.exc b n s = some (.illegal, k) := by
  rw [Ops.exc_of_legal hb]
  refine foldl_lowerExc_illegal _ none (fun e he => ?_) (fun e he => nomatch he) (.inr ?_)
  · obtain ⟨p, hp, hx⟩ := Ops.mem_excs.1 he
    have hne := (hm p (List.fst_mem_of_mem_zipIdx hp) n s).ne
    exact fun h => hne (h ▸ hx)
  · obtain ⟨p, hp, hx⟩ := hi
    obtain ⟨i, hi, rfl⟩ := List.getElem_of_mem hp
    exact ⟨(.illegal, i), Ops.mem_excs.2 ⟨_, List.mem_zipIdx_iff_getElem?.2 (List.getElem?_eq_getElem hi), hx⟩, rfl⟩

/-! The slots of raw words. -/

theorem slotM_mild (w : W32) : (slotM w).Mild := by
  unfold slotM
  split
  · exact MIns.op_mild _
  · exact SlotOp.undef_mild

theorem slotV_mild (w : W32) : (slotV w).Mild := by
  unfold slotV
  split
  · exact VIns.op_mild _
  · exact SlotOp.undef_mild

theorem slotS_mild (w : W32) : (slotS w).Mild := by
  unfold slotS
  split
  · exact SIns.op_mild _
  · exact SlotOp.undef_mild

theorem slotC_mild {i : Option CIns} (h : (slotC i).whole = false) : (slotC i).Mild := by
  cases i with
  | none => exact SlotOp.undef_mild
  | some i => exact CIns.op_mild i h

theorem MIns.ofWord_isSome_of_nop {w : W32} (h : (w.extractLsb' 24 8 == 0) = true) : MIns.ofWord w ≠ none := by
  have e : w.extractLsb' 24 8 = 0 := by simpa using h
  unfold MIns.ofWord
  rw [e]
  nofun

theorem VIns.ofWord_isSome_of_nop {w : W32} (h : (w.extractLsb' 24 8 == 0) = true) : VIns.ofWord w ≠ none := by
  have e : w.extractLsb' 24 8 = 0 := by simpa using h
  unfold VIns.ofWord
  rw [e]
  nofun

theorem SIns.ofWord_isSome_of_nop {w : W32} (h : (w.extractLsb' 24 8 == 0) = true) : SIns.ofWord w ≠ none := by
  have e : w.extractLsb' 24 8 = 0 := by simpa using h
  unfold SIns.ofWord
  rw [e]
  nofun

/-- A legal bundle with an undefined slot holds no whole-bundle instruction: it stands beside NOP slots alone (R37). -/
theorem slotC_whole_of_undefined {b : Bundle} (h : (rawOps b).illegal b = false)
    (hu : CIns.ofWord b.c = none ∨ MIns.ofWord b.m = none ∨ VIns.ofWord b.v = none ∨ SIns.ofWord b.s = none) :
    (slotC (CIns.ofWord b.c)).whole = false := by
  by_contra hw
  have hw : (slotC (CIns.ofWord b.c)).whole = true := by simpa using hw
  have hn : othersNop b = true := by
    simp only [Ops.illegal, Bool.or_eq_false_iff] at h
    obtain ⟨⟨⟨⟨ho, -⟩, -⟩, -⟩, -⟩ := h
    simp only [rawOps, hw, Bool.true_and, Bool.not_eq_false'] at ho
    exact ho
  simp only [othersNop, List.all_cons, List.all_nil, Bool.and_true, Bool.and_eq_true] at hn
  obtain ⟨hm, hv, hs⟩ := hn
  rcases hu with hc | hc | hc | hc
  · rw [hc] at hw
    nomatch hw
  · exact MIns.ofWord_isSome_of_nop hm hc
  · exact VIns.ofWord_isSome_of_nop hv hc
  · exact SIns.ofWord_isSome_of_nop hs hc

/-- A legal bundle with an undefined slot raises EXC_ILLEGAL. -/
theorem rawOps_exc_of_undefined {b : Bundle} (h : (rawOps b).illegal b = false)
    (hu : CIns.ofWord b.c = none ∨ MIns.ofWord b.m = none ∨ VIns.ofWord b.v = none ∨ SIns.ofWord b.s = none) (n : Nat)
    (s : State) : ∃ k, (rawOps b).exc b n s = some (.illegal, k) := by
  refine Ops.exc_of_illegal h (fun p hp => ?_) ?_
  · have hc := slotC_mild (slotC_whole_of_undefined h hu)
    simp only [Ops.list, rawOps, List.mem_cons, List.not_mem_nil, or_false] at hp
    rcases hp with rfl | rfl | rfl | rfl
    · exact hc
    · exact slotM_mild _
    · exact slotV_mild _
    · exact slotS_mild _
  · simp only [Ops.list, rawOps, List.mem_cons, List.not_mem_nil, or_false, exists_eq_or_imp, exists_eq_left]
    rcases hu with hc | hc | hc | hc
    · exact .inl (by rw [hc]; rfl)
    · exact .inr (.inl (by rw [slotM, hc]; rfl))
    · exact .inr (.inr (.inl (by rw [slotV, hc]; rfl)))
    · exact .inr (.inr (.inr (by rw [slotS, hc]; rfl)))

/-! An exception stops the context (R58). -/

/-- The state in which an exception has been recorded and its boundary entered. -/
def excEntered (n : Nat) (r : ExcRec) (s : State) : State :=
  (recordExc n r s).onCore n (fun c => { c with boundary := some .exc, held := none, wait := none, rest := none, stepReq := false })

theorem excEntered_core (n : Nat) (r : ExcRec) (s : State) :
    ((excEntered n r s).core n).cur = (s.core n).cur ∧ ((excEntered n r s).core n).mark = (s.core n).mark ∧
      ((excEntered n r s).core n).boundary = some .exc ∧
      ((s.core n).stat = none → ((excEntered n r s).core n).stat = some (r, (s.core n).cur)) := by
  unfold excEntered recordExc
  rw [State.core_onCore_same, State.core_onCore_same, State.core_onCtx]
  refine ⟨rfl, rfl, rfl, fun h => ?_⟩
  dsimp only
  rw [h]

theorem excEntered_exc (n : Nat) (r : ExcRec) (s : State) : ((excEntered n r s).ctxAt n (s.core n).cur).exc = some r := by
  unfold excEntered recordExc
  rw [State.ctxAt_onCore _ rfl, State.ctxAt_onCore _ rfl, State.ctxAt_onCtx_same]

/-- An exception's boundary is carried out once the outstanding work is complete. -/
theorem contextFault_cases (n : Nat) (r : ExcRec) (s : State) :
    contextFault n r s = excEntered n r s ∨ contextFault n r s = afterStop n (saveCur n .faulted (excEntered n r s)) := by
  have hb := (excEntered_core n r s).2.2.1
  show finishBoundary n (excEntered n r s) = _ ∨ finishBoundary n (excEntered n r s) = _
  unfold finishBoundary
  dsimp only
  rw [hb]
  dsimp only
  split
  · exact .inl rfl
  · exact .inr rfl

/-- The context holds the record of its exception. -/
theorem contextFault_exc (n : Nat) (r : ExcRec) (s : State) :
    ((contextFault n r s).ctxAt n (s.core n).cur).exc = some r := by
  obtain ⟨hcur, -, -, -⟩ := excEntered_core n r s
  have hexc := excEntered_exc n r s
  rcases contextFault_cases n r s with e | e
  · rw [e]
    exact hexc
  · obtain ⟨hstate, hsaved⟩ := saveCur_ctxAt_same n .faulted (excEntered n r s)
    rw [hcur] at hstate hsaved
    have hstop : startable ((saveCur n .faulted (excEntered n r s)).ctxAt n (s.core n).cur) = false := by
      rw [startable, hstate]
    have hk := StartKeeps.afterStop (.refl _) hstop
    obtain ⟨-, -, hk⟩ := hk.ctx
    rw [e]
    exact (hk.trans hsaved).trans hexc

/-- Nor does the core wait. -/
theorem contextFault_wait (n : Nat) (r : ExcRec) (s : State) : ((contextFault n r s).core n).wait = none := by
  obtain ⟨hcur, -, -, -⟩ := excEntered_core n r s
  rcases contextFault_cases n r s with e | e
  · rw [e, excEntered, State.core_onCore_same]
  · obtain ⟨hstate, -⟩ := saveCur_ctxAt_same n .faulted (excEntered n r s)
    rw [hcur] at hstate
    have hstop : startable ((saveCur n .faulted (excEntered n r s)).ctxAt n (s.core n).cur) = false := by
      rw [startable, hstate]
    have hk := StartKeeps.afterStop (.refl _) hstop
    rw [e]
    exact hk.wait (saveCur_wait ..)

/-- Without a switch pending, CORE_STAT holds the record if it held none. -/
theorem contextFault_stat {n : Nat} {r : ExcRec} {s : State} (hstat : (s.core n).stat = none) (hmark : (s.core n).mark = none) :
    ((contextFault n r s).core n).stat = some (r, (s.core n).cur) := by
  obtain ⟨-, hm, -, hst⟩ := excEntered_core n r s
  rcases contextFault_cases n r s with e | e
  · rw [e]
    exact hst hstat
  · rw [e, afterStop_of_unmarked ((saveCur_mark ..).trans (hm.trans hmark)), State.core_onCore_same]
    dsimp only
    rw [saveCur_stat, hst hstat]

/-! The bundle at its checks. -/

section
variable {n : Nat} {b : Bundle} {o : Ops} {s : State}

theorem fetchable_iff : fetchable n b s = true ↔ n < 35328 ∧ canIssue n b s = true ∧ (catchUp n s).2 = none ∧
    fetchOk ((catchUp n s).1.core n) = true ∧ (fetchLine n (catchUp n s).1).1 = false := by
  simp only [fetchable, Bool.and_eq_true, decide_eq_true_eq, Bool.not_eq_true', Option.isNone_iff_eq_none, and_assoc]

/-- A bundle at its checks that an interlock holds. -/
theorem issueOps_of_held (h : fetchable n b s = true) (hh : o.held n (atChecks n s) = true) :
    issueOps n b o s = (atChecks n s).onCore n (fun c => { c with held := some b, late := c.late && c.held.isSome }) := by
  obtain ⟨-, hc, hl, hf, hb⟩ := fetchable_iff.1 h
  rcases issueOps_cases n b o s with ⟨k, -⟩ | ⟨_, -, k, -⟩ | ⟨-, -, k, -⟩ | ⟨-, -, -, k, -⟩ |
    ⟨-, -, -, -, ⟨-, e⟩ | ⟨_, _, k, -⟩ | ⟨k, -⟩⟩
  on_goal 5 => exact e
  · exact absurd (hc.symm.trans k) nofun
  · exact absurd (hl.symm.trans k) nofun
  · exact absurd (hf.symm.trans k) nofun
  · exact absurd (hb.symm.trans k) nofun
  · exact absurd (hh.symm.trans k) nofun
  · exact absurd (hh.symm.trans k) nofun

/-- A bundle at its checks that raises an exception. -/
theorem issueOps_of_exc {e : Exc} {k : Nat} (h : fetchable n b s = true) (hh : o.held n (atChecks n s) = false)
    (he : o.exc b n (atChecks n s) = some (e, k)) : issueOps n b o s = issueFault n e k (atChecks n s) := by
  obtain ⟨-, hc, hl, hf, hb⟩ := fetchable_iff.1 h
  rcases issueOps_cases n b o s with ⟨k, -⟩ | ⟨_, -, k, -⟩ | ⟨-, -, k, -⟩ | ⟨-, -, -, k, -⟩ |
    ⟨-, -, -, -, ⟨k, -⟩ | ⟨_, _, -, k, r⟩ | ⟨-, k, -⟩⟩
  on_goal 6 =>
    cases he.symm.trans k
    exact r
  · exact absurd (hc.symm.trans k) nofun
  · exact absurd (hl.symm.trans k) nofun
  · exact absurd (hf.symm.trans k) nofun
  · exact absurd (hb.symm.trans k) nofun
  · exact absurd (hh.symm.trans k) nofun
  · exact absurd (he.symm.trans k) nofun

/-- A bundle outside the code region. -/
theorem issueOps_of_outside (hc : canIssue n b s = true) (hl : (catchUp n s).2 = none)
    (hf : fetchOk ((catchUp n s).1.core n) = false) : issueOps n b o s = issueFault n .access 0 (catchUp n s).1 := by
  rcases issueOps_cases n b o s with ⟨k, -⟩ | ⟨_, -, k, -⟩ | ⟨-, -, -, r⟩ | ⟨-, -, k, -⟩ | ⟨-, -, k, -⟩
  on_goal 3 => exact r
  · exact absurd (hc.symm.trans k) nofun
  · exact absurd (hl.symm.trans k) nofun
  · exact absurd (hf.symm.trans k) nofun
  · exact absurd (hf.symm.trans k) nofun

theorem undefinedOpcode_core (hn : n < 35328) (b : Bundle) (s : State) :
    exec (.undefinedOpcode (.core n) b) s = goes (issueOps n b (rawOps b) s) := by
  show (Host.Outcome.next (if n < 35328 then issueRaw n b s else s) : Host.Outcome State Fault Refusal) = _
  rw [if_pos hn, issueRaw]

theorem interlockRelease_held (hn : n < 35328) (hb : (s.core n).held = some b) :
    exec (.interlockRelease n) s = goes (haltTry n (issueOps n b (rawOps b) s)) := by
  show (Host.Outcome.next (if n < 35328 then releaseHeld n s else s) : Host.Outcome State Fault Refusal) = _
  rw [if_pos hn, releaseHeld, hb]
  rfl

end

/-- Settles O8, by the ways an attempt to issue ends and what an exception leaves of the boundary it makes. -/
theorem bundlesHeldOrStoppedAtIssue : Obligations.BundlesHeldOrStoppedAtIssue := by
  refine ⟨fun n b s hb => ⟨fun h hh => ?_, fun h hbd => ?_⟩, fun n b s => ⟨fun e k h hh he => ?_, fun h hh hl hu => ?_,
    fun hn hc hl hf => ?_, fun p hp hr => ?_⟩⟩
  · rw [interlockRelease_held (fetchable_iff.1 h).1 hb, issueOps_of_held h hh]
  · obtain ⟨hn, e⟩ := issueOps_of_issuable h
    rw [interlockRelease_held hn hb, e, goIssue_eq n _ s hbd]
  · rw [undefinedOpcode_core (fetchable_iff.1 h).1, issueOps_of_exc h hh he]
    exact ⟨_, rfl, rfl, contextFault_exc .., contextFault_stat⟩
  · obtain ⟨k, he⟩ := rawOps_exc_of_undefined hl hu n (atChecks n s)
    rw [undefinedOpcode_core (fetchable_iff.1 h).1, issueOps_of_exc h hh he]
    exact ⟨_, k, rfl, contextFault_exc ..⟩
  · rw [undefinedOpcode_core hn, issueOps_of_outside hc hl hf]
    rfl
  · obtain ⟨hstate, hfault, -⟩ := seqFault_faulted p .illegal s
    refine ⟨seqFault p .illegal s, ?_, hstate, hfault⟩
    show (Host.Outcome.next (seqNoWord p s) : Host.Outcome State Fault Refusal) = _
    rw [seqNoWord, if_pos hp, seqUndefined, hr]
    rfl

end Sys2Proof.Machine

end

section
/-! SUPPORT. WAIT, REST, YIELD and END of a core, and what a context boundary does (R49, R51, R55). -/

namespace Sys2Proof.Machine

open Sys2Proof

/-! WAIT and REST at issue. -/

/-- WAIT whose event has occurred. -/
theorem opWait_run_now {n : Nat} {i : CE} {u : State} (h : eventNow n i.kind.toNat i.arg.toNat u = true) :
    (opWait i).run n u u = consumeEvent n i.kind.toNat (flyRes n 0 (u.ctx n).pc 1 (.p i.pd.toNat true) u) := if_pos h

/-- REST whose event has occurred. -/
theorem opRest_run_now {n : Nat} {i : CE} {u : State} (h : eventNow n i.kind.toNat i.arg.toNat u = true) :
    (opRest i).run n u u = consumeEvent n i.kind.toNat u := if_pos h

/-- The command of YIELD or END that issues beside three NOP slots. -/
theorem atC_of_issues_boundary {n : Nat} {i : CIns} {b : Boundary} {s : State}
    (hf : i.op.run n (fetched n s) (fetched n s) = fetched n s) (hb : boundaryOf (some i) = some b)
    (h : issuesC n i 0 0 0 s = true) :
    atC { agent := .core n, w1 := 0, w2 := 0, w3 := 0 } i s =
      goes (finishBoundary n (enterBoundary n b ((atChecks n s).ctx n).pc (afterOne n s id))) := by
  have hr : (opsC i 0 0 0).run n (fetched n s) = fetched n s := by
    rw [Ops.run, opsC, slotM_zero, slotV_zero, slotS_zero]
    exact hf
  have hg : (opsC i 0 0 0).bd = some b := hb
  rw [atC_of_issues h]
  simp only [goIssue, hg]
  rw [← fetched, hr]
  rfl

/-! What a boundary that is carried out leaves. -/

theorem haltTry_of_not_asked {n : Nat} {s : State} (h : (s.core n).haltReq = false) : haltTry n s = s := by
  unfold haltTry
  dsimp only
  rw [h]
  rfl

theorem contextBoundarySwitch_eq {n : Nat} (hn : n < 35328) (s : State) :
    exec (.contextBoundarySwitch n) s = goes (haltTry n (finishBoundary n s)) := by
  show (Host.Outcome.next (if n < 35328 then haltTry n (finishBoundary n s) else s) : Host.Outcome State Fault Refusal) = _
  rw [if_pos hn]

section
variable {n : Nat} {s : State} (hq : ((s.core n).still && quiet (s.core n)) = true) (hp : (s.ctx n).postExc = none)
include hq hp

/-- YIELD without a switch. -/
theorem finishBoundary_yield (hb : (s.core n).boundary = some .yieldB) (hm : (s.core n).mark = none) :
    finishBoundary n s = (writeGroups n (s.core n).cur s).onCore n (fun c => { c with boundary := none }) := by
  have hx : (s.core n).ctx.postExc = none := hp
  unfold finishBoundary
  dsimp only
  rw [hb, hq, hx, hm]
  rfl

/-- YIELD with a switch to another context that may run. -/
theorem finishBoundary_switch {j : Nat} (hb : (s.core n).boundary = some .yieldB) (hm : (s.core n).mark = some j)
    (hj : j ≠ (s.core n).cur) (hs : startable (s.ctxAt n j) = true) :
    finishBoundary n s = startCtx n j (saveCur n .parked s) := by
  have hx : (s.core n).ctx.postExc = none := hp
  have hc : (startable (s.ctxAt n j) && j != (s.core n).cur) = true := by simp [hs, hj]
  unfold finishBoundary
  dsimp only
  rw [hb, hq, hx, hm]
  dsimp only
  rw [hc, if_neg (by decide), if_pos rfl]

end

/-- END: the lists end, the context is EMPTY, its area is free, and the core stops. -/
def ended (n : Nat) (s : State) : State :=
  (releaseArea n (s.core n).cur (State.onCtx (endLists n (s.core n).cur (writeGroups n (s.core n).cur s)) n (s.core n).cur
    (fun x => emptied (loseTiles x)))).onCore n
      (fun c => { clearArrays c with boundary := none, held := none, flight := [], stores := [] })

theorem finishBoundary_end {n : Nat} {s : State} (hq : ((s.core n).still && quiet (s.core n)) = true)
    (hp : (s.ctx n).postExc = none) (hb : (s.core n).boundary = some .endB) :
    finishBoundary n s = relaxSplit (panelOf n) (afterStop n (ended n s)) := by
  have hx : (s.core n).ctx.postExc = none := hp
  unfold finishBoundary
  dsimp only
  rw [hb, hq, hx]
  dsimp only
  rw [if_neg (by decide), ended]

theorem relaxSplit_cores (p : Nat) (s : State) : (relaxSplit p s).cores = s.cores := by
  unfold relaxSplit
  dsimp only
  split <;> rfl

/-- Releasing an area changes no context. -/
theorem releaseArea_core (n k : Nat) (s : State) :
    ∃ undef redef wb, (releaseArea n k s).core n = { s.core n with undef := undef, redef := redef, wb := wb } := by
  unfold releaseArea cleanArea
  rw [State.core_onCore_same, State.core_onCore_same]
  exact ⟨_, _, _, rfl⟩

/-- The core after END: nothing runs or is in flight, no halt is asked that was not, and its context is EMPTY. -/
theorem ended_core (n : Nat) (s : State) :
    ((ended n s).core n).flight = [] ∧ ((ended n s).core n).boundary = none ∧
      ((ended n s).core n).mark = (s.core n).mark ∧ ((ended n s).core n).haltReq = (s.core n).haltReq ∧
      ((ended n s).ctxAt n (s.core n).cur).state = .empty := by
  have hv : Flows n s (endLists n (s.core n).cur (writeGroups n (s.core n).cur s)) := .endLists (.writeGroups (.refl s))
  unfold ended
  generalize endLists n (s.core n).cur (writeGroups n (s.core n).cur s) = v at hv
  obtain ⟨undef, redef, wb, e⟩ := releaseArea_core n (s.core n).cur (State.onCtx v n (s.core n).cur (fun x => emptied (loseTiles x)))
  have hcore := hv.core
  refine ⟨?_, ?_, ?_, ?_, ?_⟩
  · rw [State.core_onCore_same]
  · rw [State.core_onCore_same]
  · rw [State.core_onCore_same, e, State.core_onCtx]
    exact (congrArg Core.mark hcore :)
  · rw [State.core_onCore_same, e, State.core_onCtx]
    exact (congrArg Core.haltReq hcore :)
  · rw [State.ctxAt_onCore _ rfl, State.ctxAt, e, ← State.ctxAt, State.ctxAt_onCtx_same]
    rfl

/-- The core in which a context starts from READY. -/
theorem startCtx_core_of_ready {n k : Nat} {s : State} (h : (s.ctxAt n k).state = .ready) :
    (startCtx n k s).core n =
      { seedArrays n (clearArrays { s.core n with cur := k, power := .run, mark := none, boundary := none }) with
        active := true, ctxs := Tab.set (s.core n).ctxs k { s.ctxAt n k with state := .running, everRun := true } } := by
  unfold startCtx
  dsimp only
  rw [if_pos (by rw [h]; rfl), State.core_onCtx, State.core_onCore_same, State.core_onCore_same, State.ctxAt_onCore _ rfl,
    State.ctxAt_onCore _ rfl]
  rfl

/-- A context that starts from READY runs; another is as it was. -/
theorem startCtx_ctxAt_of_ready {n k : Nat} {s : State} (h : (s.ctxAt n k).state = .ready) :
    (startCtx n k s).ctxAt n k = { s.ctxAt n k with state := .running, everRun := true } ∧
      ∀ j, j ≠ k → (startCtx n k s).ctxAt n j = s.ctxAt n j := by
  refine ⟨?_, fun j hj => ?_⟩
  · rw [State.ctxAt, startCtx_core_of_ready h]
    exact Tab.get_set_same _ _ _ _
  · rw [State.ctxAt, startCtx_core_of_ready h]
    exact Tab.get_set_other _ _ _ _ _ hj

/-- Settles O6: the words by what their slots do, the boundaries by the branches of `finishBoundary`. -/
theorem waitRestBoundariesAndSwitches : Obligations.WaitRestBoundariesAndSwitches := by
  refine ⟨fun n s i j => ⟨?wait, ?waits, ?rest, ?rests, ?yield, ?ends⟩, fun n s hn hh hs hq hp => ?_⟩
  case wait => exact fun h he => atC_of_issues_one _ (opWait_run_now he) rfl h
  case waits => exact fun h he => atC_of_issues_one _ (if_neg (ne_true_of_eq_false he)) rfl h
  case rest => exact fun h he => atC_of_issues_one _ (opRest_run_now he) rfl h
  case rests => exact fun h he => atC_of_issues_one _ (if_neg (ne_true_of_eq_false he)) rfl h
  case yield => exact atC_of_issues_boundary rfl rfl
  case ends => exact atC_of_issues_boundary rfl rfl
  have hsq : ((s.core n).still && quiet (s.core n)) = true := by rw [hs, hq]; rfl
  refine ⟨fun hb hm => ?_, fun j hb hm hj hr => ?_, fun hb hm => ?_⟩
  · have hf : Flows n s (writeGroups n (s.core n).cur s) := .writeGroups (.refl s)
    have hh' : ((writeGroups n (s.core n).cur s).core n).haltReq = false := (congrArg Core.haltReq hf.core :).trans hh
    rw [contextBoundarySwitch_eq hn, finishBoundary_yield hsq hp hb hm, haltTry_of_not_asked]
    rw [State.core_onCore_same]
    exact hh'
  · obtain ⟨hstate, -, -⟩ := saveCur_ctxAt_other n .parked s hj
    obtain ⟨hparked, -⟩ := saveCur_ctxAt_same n .parked s
    have hready := hstate.trans hr
    have hcore := startCtx_core_of_ready hready
    obtain ⟨hrun, hrest⟩ := startCtx_ctxAt_of_ready hready
    refine ⟨startCtx n j (saveCur n .parked s), ?_, by rw [hcore]; rfl, by rw [hcore], by rw [hrun], ?_, by rw [hcore]; rfl,
      by rw [hcore]; rfl⟩
    · have hst : startable (s.ctxAt n j) = true := by rw [startable, hr]
      rw [contextBoundarySwitch_eq hn, finishBoundary_switch hsq hp hb hm hj hst, haltTry_of_not_asked]
      rw [hcore]
      dsimp only [seedArrays, clearArrays]
      rw [saveCur_haltReq, hh]
    · rw [hrest _ (Ne.symm hj), hparked]
  · obtain ⟨hfl, hbd, hmark, hhalt, hempty⟩ := ended_core n s
    have hc : (relaxSplit (panelOf n) (afterStop n (ended n s))).core n =
        { (ended n s).core n with active := false, power := .idle } := by
      rw [State.core, relaxSplit_cores, ← State.core, afterStop_of_unmarked (hmark.trans hm), State.core_onCore_same]
    refine ⟨relaxSplit (panelOf n) (afterStop n (ended n s)), ?_, ?_, ?_, ?_, ?_, ?_⟩
    · rw [contextBoundarySwitch_eq hn, finishBoundary_end hsq hp hb, haltTry_of_not_asked]
      rw [hc]
      dsimp only
      rw [hhalt, hh]
    · have hx : (relaxSplit (panelOf n) (afterStop n (ended n s))).ctxAt n (s.core n).cur = (ended n s).ctxAt n (s.core n).cur := by
        rw [State.ctxAt, hc, State.ctxAt]
      rw [hx, hempty]
    all_goals rw [hc]
    · dsimp only
      rw [hfl]
    · dsimp only
      rw [hbd]

end Sys2Proof.Machine

end

section
/-! SUPPORT. Results that retire (R34, R35): one alone, and two of one issue cycle that name one register. -/

namespace Sys2Proof.Machine

open Sys2Proof

/-! Registers after a write. -/

theorem Regs.getS_setS_same (g : Regs) {i : Nat} (v : W64) (h : i ≠ 0) : (g.setS i v).getS i = v := by
  rw [Regs.setS, if_neg h, Regs.getS, if_neg h]
  exact Tab.get_put_same _ _ _ _

theorem Regs.getS_setS_other (g : Regs) {i j : Nat} (v : W64) (h : j ≠ i) : (g.setS i v).getS j = g.getS j := by
  unfold Regs.setS
  split
  · rfl
  · rw [Regs.getS, Regs.getS, Tab.get_put_other _ _ _ _ _ h]

theorem Regs.getA_setA_same (g : Regs) (i : Nat) (v : FAddr) : (g.setA i v).getA i = v := Tab.get_put_same _ _ _ _

theorem Regs.getA_setA_other (g : Regs) {i j : Nat} (v : FAddr) (h : j ≠ i) : (g.setA i v).getA j = g.getA j :=
  Tab.get_put_other _ _ _ _ _ h

theorem Regs.getP_setP_same (g : Regs) (i : Nat) (v : Bool) : (g.setP i v).getP i = v := Tab.get_put_same _ _ _ _

theorem Regs.getP_setP_other (g : Regs) {i j : Nat} (v : Bool) (h : j ≠ i) : (g.setP i v).getP j = g.getP j :=
  Tab.get_put_other _ _ _ _ _ h

theorem Ctx.getK_setK_same (x : Ctx) {i : Nat} (v : W64) (h : i ≠ 0) : (x.setK i v).getK i = v := by
  rw [Ctx.setK, if_neg h, Ctx.getK, if_neg h]
  exact Tab.get_put_same _ _ _ _

theorem Ctx.getK_setK_other (x : Ctx) {i j : Nat} (v : W64) (h : j ≠ i) : (x.setK i v).getK j = x.getK j := by
  unfold Ctx.setK
  split
  · rfl
  · rw [Ctx.getK, Ctx.getK, Tab.get_put_other _ _ _ _ _ h]

theorem Ctx.getC_put_same (x : Ctx) (i : Nat) (v : BitVec 256) : ({ x with c := Tab.put 0 x.c i v } : Ctx).getC i = v :=
  Tab.get_put_same _ _ _ _

/-- One lane that is written holds its value, whatever the poison of its quarter. -/
theorem getV_putLanes_one (r j : Nat) (v : W32) (pois : List Nat) (x : Ctx) : (putLanes r [(j, v)] pois x).getV r j = v := by
  have hq (l : List Nat) (g : Nat → Bool) (y : Ctx) (f : Nat → Ctx → Bool) :
      (l.foldl (fun x q => if g q then x else x.setVP r q (f q x)) y).v = y.v := by
    induction l generalizing y with
    | nil => rfl
    | cons q l ih =>
      rw [List.foldl_cons, ih]
      split <;> rfl
  unfold putLanes
  rw [Ctx.getV, hq]
  exact Tab.get_put_same _ _ _ _

/-! The results that retire. -/

/-- Core `n` without results in flight, `k` collisions counted. -/
def landed (n k : Nat) (s : State) : State :=
  s.onCore n (fun c => { c with flight := [], wcollide := sat 4 (c.wcollide + k) })

theorem resultRetire_eq {n : Nat} (hn : n < 35328) (s : State) : exec (.resultRetire n) s = goes (retireNow n s) := by
  show (Host.Outcome.next (if n < 35328 then retireNow n s else s) : Host.Outcome State Fault Refusal) = _
  rw [if_pos hn]

theorem State.onCore_congr {s : State} {n : Nat} {f g : Core → Core} (h : f (s.core n) = g (s.core n)) :
    s.onCore n f = s.onCore n g := by
  rw [State.onCore, State.onCore, h]

section
variable {n : Nat} {s : State}

/-- Where every result in flight is due, all retire in their order. -/
theorem retireNow_of_due (h : ∀ r ∈ (s.core n).flight, r.due ≤ (s.core n).icyc ∧ r.isExc = false) :
    retireNow n s = (sortRes (s.core n).flight).foldl (fun s r => applyRes n r.w s)
      (landed n (collisions (sortRes (s.core n).flight)) s) := by
  have hall : ∀ r ∈ (s.core n).flight, (decide (r.due ≤ (s.core n).icyc) && !r.isExc) = true := by
    intro r hr
    obtain ⟨hd, he⟩ := h r hr
    simp [hd, he]
  have hdue : (s.core n).flight.filter (fun r => decide (r.due ≤ (s.core n).icyc) && !r.isExc) = (s.core n).flight :=
    List.filter_eq_self.2 hall
  have hrest : (s.core n).flight.filter (fun r => !(decide (r.due ≤ (s.core n).icyc) && !r.isExc)) = [] :=
    List.filter_eq_nil_iff.2 fun r hr => by simp [hall r hr]
  unfold retireNow
  dsimp only
  rw [hdue]
  refine congrArg (fun t => List.foldl (fun s r => applyRes n r.w s) t (sortRes (s.core n).flight)) (State.onCore_congr ?_)
  rw [hrest]

/-- Where none is due, nothing retires. -/
theorem retireNow_of_later (h : ∀ r ∈ (s.core n).flight, (s.core n).icyc < r.due) :
    retireNow n s = s.onCore n (fun c => { c with wcollide := sat 4 (c.wcollide + 0) }) := by
  have hall : ∀ r ∈ (s.core n).flight, (decide (r.due ≤ (s.core n).icyc) && !r.isExc) = false := by
    intro r hr
    have := h r hr
    simp only [Bool.and_eq_false_iff, decide_eq_false_iff_not]
    omega
  have hdue : (s.core n).flight.filter (fun r => decide (r.due ≤ (s.core n).icyc) && !r.isExc) = [] :=
    List.filter_eq_nil_iff.2 fun r hr => by simp [hall r hr]
  have hrest : (s.core n).flight.filter (fun r => !(decide (r.due ≤ (s.core n).icyc) && !r.isExc)) = (s.core n).flight :=
    List.filter_eq_self.2 fun r hr => by simp [hall r hr]
  unfold retireNow
  dsimp only
  rw [hdue]
  refine State.onCore_congr ?_
  rw [hrest]
  rfl

/-- What a state is after the results of core `n` have retired into its running context as `f` says, `k` collisions counted. -/
def Retired (n k : Nat) (f : Ctx → Ctx) (s t : State) : Prop :=
  t.ctx n = f (s.ctx n) ∧ (t.core n).flight = [] ∧ (t.core n).wcollide = min 15 ((s.core n).wcollide + k) ∧ t.mem = s.mem

theorem retired_landed (k : Nat) : Retired n k id s (landed n k s) := by
  refine ⟨State.ctx_onCore rfl rfl, ?_, ?_, rfl⟩
  · rw [landed, State.core_onCore_same]
  · rw [landed, State.core_onCore_same]
    exact Nat.min_comm _ _

theorem Retired.onCur {k : Nat} {f : Ctx → Ctx} {t : State} (h : Retired n k f s t) (g : Ctx → Ctx) :
    Retired n k (fun x => g (f x)) s (t.onCur n g) := by
  obtain ⟨hctx, hflight, hcol, hmem⟩ := h
  refine ⟨?_, ?_, ?_, hmem⟩
  · rw [State.ctx_onCur, hctx]
  · rw [State.onCur, State.core_onCtx]
    exact hflight
  · rw [State.onCur, State.core_onCtx]
    exact hcol

variable {due c1 p1 c2 p2 : Nat} {a b : RegW} {f g : Ctx → Ctx}

/-- The only result in flight retires as its register is written. -/
theorem retireNow_one (hf : (s.core n).flight = [{ due := due, slot := c1, pc := p1, w := a }]) (hd : due ≤ (s.core n).icyc)
    (ha : ∀ t, applyRes n a t = t.onCur n f) (he : (⟨due, c1, p1, a⟩ : Res).isExc = false) : Retired n 0 f s (retireNow n s) := by
  rw [retireNow_of_due (by rw [hf]; simp [hd, he]), hf]
  have hk : collisions [(⟨due, c1, p1, a⟩ : Res)] = 0 := by simp [collisions, b2n]
  rw [show sortRes [(⟨due, c1, p1, a⟩ : Res)] = [⟨due, c1, p1, a⟩] from rfl, hk]
  show Retired n 0 f s (applyRes n a (landed n 0 s))
  rw [ha]
  exact (retired_landed 0).onCur f

/-- Two results for one register: the one of the later slot, then the later one in flight, is written last. -/
theorem retireNow_two (hf : (s.core n).flight =
    [{ due := due, slot := c1, pc := p1, w := a }, { due := due, slot := c2, pc := p2, w := b }])
    (hd : due ≤ (s.core n).icyc) (ha : ∀ t, applyRes n a t = t.onCur n f) (hb : ∀ t, applyRes n b t = t.onCur n g)
    (he : (⟨due, c1, p1, a⟩ : Res).isExc = false ∧ (⟨due, c2, p2, b⟩ : Res).isExc = false) (hr : a.reg = b.reg) :
    Retired n (if a.reg.isSome then 1 else 0) (fun x => if c2 < c1 then f (g x) else g (f x)) s (retireNow n s) := by
  obtain ⟨he1, he2⟩ := he
  rw [retireNow_of_due (by rw [hf]; simp [hd, he1, he2]), hf]
  by_cases hc : c2 < c1
  · have hs : sortRes [⟨due, c1, p1, a⟩, ⟨due, c2, p2, b⟩] = [⟨due, c2, p2, b⟩, ⟨due, c1, p1, a⟩] := by
      simp [sortRes, insRes, hc]
    have hk : collisions [(⟨due, c2, p2, b⟩ : Res), ⟨due, c1, p1, a⟩] = if a.reg.isSome then 1 else 0 := by
      simp [collisions, b2n, hr]
    rw [hs, hk]
    simp only [hc, if_true]
    show Retired n _ _ s (applyRes n a (applyRes n b (landed n _ s)))
    rw [ha, hb]
    exact ((retired_landed _).onCur g).onCur f
  · have hs : sortRes [⟨due, c1, p1, a⟩, ⟨due, c2, p2, b⟩] = [⟨due, c1, p1, a⟩, ⟨due, c2, p2, b⟩] := by
      simp [sortRes, insRes, hc]
    have hk : collisions [(⟨due, c1, p1, a⟩ : Res), ⟨due, c2, p2, b⟩] = if a.reg.isSome then 1 else 0 := by
      simp [collisions, b2n, hr]
    rw [hs, hk]
    simp only [hc, if_false]
    show Retired n _ _ s (applyRes n b (applyRes n a (landed n _ s)))
    rw [ha, hb]
    exact ((retired_landed _).onCur f).onCur g

end

end Sys2Proof.Machine

end

section
/-! SUPPORT. Results that retire in their issue cycle (R34, R35). -/

namespace Sys2Proof.Machine

open Sys2Proof

/-- Settles O19, by what the results retire into the running context. -/
theorem resultsRetireInTheirCycle : Obligations.ResultsRetireInTheirCycle := by
  intro n slot pc due r s hn hd only
  rw [resultRetire_eq hn]
  refine ⟨fun v hf hr => ?s, fun v hf => ?s0, fun v hf => ?a, fun v hf => ?p, fun v hf hr => ?k, fun v late hf hl => ?later,
    fun v w k q hf hr hk => ?two⟩
  case s =>
    obtain ⟨hctx, hflight, -, hmem⟩ := retireNow_one (f := fun x => { x with regs := x.regs.setS r v }) hf hd (fun _ => rfl) rfl
    refine ⟨_, rfl, ?_, fun q hq => ?_, hflight, hmem⟩
    · rw [hctx, Regs.getS_setS_same _ _ hr]
    · rw [hctx, Regs.getS_setS_other _ _ hq]
  case s0 =>
    obtain ⟨hctx, hflight, hcol, -⟩ := retireNow_one (f := fun x => { x with regs := x.regs.setS 0 v }) hf hd (fun _ => rfl) rfl
    refine ⟨_, rfl, ?_, hflight, hcol⟩
    rw [hctx]
    rfl
  case a =>
    obtain ⟨hctx, hflight, -, -⟩ := retireNow_one (f := fun x => { x with regs := x.regs.setA r v }) hf hd (fun _ => rfl) rfl
    refine ⟨_, rfl, ?_, fun q hq => ?_, hflight⟩
    · rw [hctx, Regs.getA_setA_same]
    · rw [hctx, Regs.getA_setA_other _ _ hq]
  case p =>
    obtain ⟨hctx, hflight, -, -⟩ := retireNow_one (f := fun x => { x with regs := x.regs.setP r v }) hf hd (fun _ => rfl) rfl
    refine ⟨_, rfl, ?_, fun q hq => ?_, hflight⟩
    · rw [hctx, Regs.getP_setP_same]
    · rw [hctx, Regs.getP_setP_other _ _ hq]
  case k =>
    obtain ⟨hctx, hflight, -, -⟩ := retireNow_one (f := fun x => x.setK r v) hf hd (fun _ => rfl) rfl
    refine ⟨_, rfl, ?_, fun q hq => ?_, hflight⟩
    · rw [hctx, Ctx.getK_setK_same _ _ hr]
    · rw [hctx, Ctx.getK_setK_other _ _ hq]
  case later =>
    refine ⟨_, rfl, ?_, ?_⟩
    all_goals rw [retireNow_of_later (by rw [hf]; simpa using hl)]
    · rw [State.core_onCore_same]
    · rw [State.ctx_onCore rfl rfl]
  case two =>
    obtain ⟨hctx, -, hcol, -⟩ := retireNow_two (f := fun x => { x with regs := x.regs.setS r v })
      (g := fun x => { x with regs := x.regs.setS r w }) hf hd (fun _ => rfl) (fun _ => rfl) ⟨rfl, rfl⟩ rfl
    refine ⟨_, rfl, ?_, ?_⟩
    · rw [hctx]
      dsimp only
      rw [if_neg (by omega), Regs.getS_setS_same _ _ hr]
    · rw [hcol, RegW.reg, if_neg hr]
      rfl

end Sys2Proof.Machine

end

section
/-! SUPPORT. Two results for one register (R35). -/

namespace Sys2Proof.Machine

open Sys2Proof

/-- A mask instruction beside three NOP slots whose fields are not legal raises EXC_ILLEGAL at issue. -/
theorem opsC_exc_of_illegal {i : CIns} {d : Nat × Nat} {l : Nat} {legal : Bool} {f : Nat → Ctx → List RegW}
    (h : i.op = SlotOp.reg 0 l [d] legal f) (hz : legal = false) (b : Bundle) (n : Nat) (u : State) :
    (opsC i 0 0 0).held n u = false ∧ (opsC i 0 0 0).exc b n u = some (.illegal, 0) := by
  subst hz
  have ho : (opsC i 0 0 0).list = [SlotOp.reg 0 l [d] false f, SlotOp.nop, SlotOp.nop, SlotOp.nop] := by
    simp only [Ops.list, opsC, h, slotM_zero, slotV_zero, slotS_zero]
  have hc : (opsC i 0 0 0).c = SlotOp.reg 0 l [d] false f := h
  have hs : (opsC i 0 0 0).s = SlotOp.nop := rfl
  have hl : (opsC i 0 0 0).illegal b = false := by
    unfold Ops.illegal
    rw [ho, hc, hs]
    simp [SlotOp.reg, SlotOp.nop, hasDup]
  refine ⟨?_, ?_⟩
  · unfold Ops.held
    rw [ho]
    rfl
  · rw [Ops.exc_of_legal hl, Ops.excs, ho]
    rfl

/-- Settles O58: the later slot's result is written last; the mask words for k0 are not legal. -/
theorem twoResultsOfOneRegister : Obligations.TwoResultsOfOneRegister := by
  intro n due c1 p1 c2 p2 r s hn hd two takes
  dsimp only [two, takes]
  rw [resultRetire_eq hn]
  have took {a b : RegW} {f g : Ctx → Ctx} {α : Type} {get : Ctx → α} {v w : α} (hf : two a b)
      (ha : ∀ t, applyRes n a t = t.onCur n f) (hb : ∀ t, applyRes n b t = t.onCur n g)
      (he : (⟨due, c1, p1, a⟩ : Res).isExc = false ∧ (⟨due, c2, p2, b⟩ : Res).isExc = false) (hr : a.reg = b.reg)
      (hs : a.reg.isSome = true) (hv : ∀ x, get (f x) = v) (hw : ∀ x, get (g x) = w) :
      get ((retireNow n s).ctx n) = (if c2 < c1 then v else w) ∧ ((retireNow n s).core n).flight = [] ∧
        ((retireNow n s).core n).wcollide = min 15 ((s.core n).wcollide + 1) := by
    obtain ⟨hctx, hflight, hcol, -⟩ := retireNow_two hf hd ha hb he hr
    rw [hs] at hcol
    refine ⟨?_, hflight, hcol⟩
    rw [hctx]
    dsimp only
    split
    · exact hv _
    · exact hw _
  refine ⟨fun v w hf hr => ?s, fun v w hf => ?a, fun v w hf => ?p, fun v w hf hr => ?k, fun v w hf => ?c, fun j v w d e hf => ?lanes,
    fun v w hf => ?s0, fun i j k hjk hd0 h => ?k0⟩
  case s =>
    exact ⟨_, rfl, took (get := fun x => x.regs.getS r) hf (fun _ => rfl) (fun _ => rfl) ⟨rfl, rfl⟩ rfl (by rw [RegW.reg, if_neg hr]; rfl)
      (fun x => Regs.getS_setS_same _ v hr) (fun x => Regs.getS_setS_same _ w hr)⟩
  case a =>
    exact ⟨_, rfl, took (get := fun x => x.regs.getA r) hf (fun _ => rfl) (fun _ => rfl) ⟨rfl, rfl⟩ rfl rfl
      (fun x => Regs.getA_setA_same _ r v) (fun x => Regs.getA_setA_same _ r w)⟩
  case p =>
    exact ⟨_, rfl, took (get := fun x => x.regs.getP r) hf (fun _ => rfl) (fun _ => rfl) ⟨rfl, rfl⟩ rfl rfl
      (fun x => Regs.getP_setP_same _ r v) (fun x => Regs.getP_setP_same _ r w)⟩
  case k =>
    exact ⟨_, rfl, took (get := fun x => x.getK r) hf (fun _ => rfl) (fun _ => rfl) ⟨rfl, rfl⟩ rfl rfl
      (fun x => Ctx.getK_setK_same x v hr) (fun x => Ctx.getK_setK_same x w hr)⟩
  case c =>
    exact ⟨_, rfl, took (get := fun x => x.getC r) hf (fun _ => rfl) (fun _ => rfl) ⟨rfl, rfl⟩ rfl rfl
      (fun x => Ctx.getC_put_same x r v) (fun x => Ctx.getC_put_same x r w)⟩
  case lanes =>
    exact ⟨_, rfl, took (get := fun x => x.getV r j) hf (fun _ => rfl) (fun _ => rfl) ⟨rfl, rfl⟩ rfl rfl
      (fun x => getV_putLanes_one r j v _ x) (fun x => getV_putLanes_one r j w _ x)⟩
  case s0 =>
    obtain ⟨hctx, hflight, hcol, -⟩ := retireNow_two (f := fun x => { x with regs := x.regs.setS 0 v })
      (g := fun x => { x with regs := x.regs.setS 0 w }) hf hd (fun _ => rfl) (fun _ => rfl) ⟨rfl, rfl⟩ rfl
    refine ⟨_, rfl, ?_, hflight, hcol⟩
    rw [hctx]
    dsimp only
    split <;> rfl
  case k0 =>
    suffices hk : exec j s = atC { agent := .core n, w1 := 0, w2 := 0, w3 := 0 } k s ∧
        ∃ d l legal f, k.op = SlotOp.reg 0 l [d] legal f ∧ legal = false by
      obtain ⟨hj, d, l, legal, f, ho, hz⟩ := hk
      obtain ⟨hh, he⟩ := opsC_exc_of_illegal ho hz (bundleC k 0 0 0) n (atChecks n s)
      have hi := issueOps_of_exc h hh he
      have hx : exec j s = goes (issueFault n .illegal 0 (atChecks n s)) := by
        rw [hj, ← hi]
        exact congrArg Host.Outcome.next (if_pos hn)
      exact ⟨_, hx, contextFault_exc ..⟩
    simp only [List.mem_cons, List.not_mem_nil, or_false, Prod.mk.injEq] at hjk
    rcases hjk with ⟨rfl, rfl⟩ | ⟨rfl, rfl⟩ | ⟨rfl, rfl⟩
    · exact ⟨rfl, _, _, _, _, opKmov.eq_1 i, by simp [hd0]⟩
    · exact ⟨rfl, _, _, _, _, opKtail.eq_1 i, by simp [hd0]⟩
    · exact ⟨rfl, _, _, _, _, opKop.eq_1 i, by simp [hd0]⟩

end Sys2Proof.Machine

end

section
/-! SUPPORT. The ends of WAIT and REST of a core, and late exceptions (R49, R51, R58, R303). -/

namespace Sys2Proof.Machine

open Sys2Proof

/-! A WAIT that ends. -/

theorem consumeEvent_core (n kind : Nat) (s : State) :
    ∃ x, (consumeEvent n kind s).core n = { s.core n with xwake := x } := by
  unfold consumeEvent
  split
  · exact ⟨false, State.core_onCore_same _ _ _⟩
  · exact ⟨_, rfl⟩

/-- The end of a WAIT: its predicate in flight, the context running. -/
def waitOver (n : Nat) (w : WaitRec) (v : Bool) (s : State) : State :=
  ((flyRes n 0 w.pc 0 (.p w.pd v) s).onCur n (fun x => { x with state := .running })).onCore n (fun c => { c with wait := none })

theorem waitOver_core (n : Nat) (w : WaitRec) (v : Bool) (s : State) :
    ((waitOver n w v s).core n).wait = none ∧ ((waitOver n w v s).ctx n).state = .running ∧
      ((waitOver n w v s).core n).flight = (s.core n).flight ++ [{ due := (s.core n).icyc, slot := 0, pc := w.pc, w := .p w.pd v }] := by
  refine ⟨?_, ?_, ?_⟩
  · rw [waitOver, State.core_onCore_same]
  · rw [waitOver, State.ctx_onCore rfl rfl, State.ctx_onCur]
  · rw [waitOver, State.core_onCore_same, State.onCur, State.core_onCtx, flyRes, State.core_onCore_same]
    rfl

section
variable {n : Nat} {s : State} {w : WaitRec} (hw : (s.core n).wait = some w)
include hw

/-- A WAIT ends with pd = 1 on its event, with pd = 0 at its timeout, unless a posted store has failed. -/
theorem waitDone_event (he : eventNow n w.kind w.arg s = true) (hp : w.kind = 5 → (s.ctx n).postExc = none) :
    waitDone n s = waitOver n w true (consumeEvent n w.kind s) := by
  rcases waitDone_cases n s w hw with ⟨e, hk, hx, -⟩ | ⟨-, h⟩ | ⟨h, -⟩ | ⟨h, -⟩
  · exact absurd (hx.symm.trans (hp hk)) nofun
  · exact h
  · exact absurd (he.symm.trans h) nofun
  · exact absurd (he.symm.trans h) nofun

theorem waitDone_timeout (he : eventNow n w.kind w.arg s = false) (ht : w.ticks ≠ 0 ∧ w.since + w.ticks ≤ s.now)
    (hp : w.kind = 5 → (s.ctx n).postExc = none) : waitDone n s = waitOver n w false s := by
  rcases waitDone_cases n s w hw with ⟨e, hk, hx, -⟩ | ⟨h, -⟩ | ⟨-, -, h⟩ | ⟨-, h, -⟩
  · exact absurd (hx.symm.trans (hp hk)) nofun
  · exact absurd (he.symm.trans h) nofun
  · exact h
  · exact absurd ht h

/-- Before either nothing changes. -/
theorem waitDone_before (he : eventNow n w.kind w.arg s = false) (ht : w.ticks = 0 ∨ s.now < w.since + w.ticks) :
    waitDone n s = s := by
  have ho : (decide (w.ticks ≠ 0) && decide (w.since + w.ticks ≤ s.now)) = false := by
    simp only [Bool.and_eq_false_iff, decide_eq_false_iff_not]
    omega
  unfold waitDone
  dsimp only
  rw [hw]
  dsimp only
  rw [he, ho]
  rfl

/-- A WAIT for posted stores that ends either way raises the exception of one that was not served (log entry 22). -/
theorem waitDone_failed {e : Exc} (hk : w.kind = 5) (hx : (s.ctx n).postExc = some e)
    (ht : eventNow n w.kind w.arg s = true ∨ (w.ticks ≠ 0 ∧ w.since + w.ticks ≤ s.now)) :
    waitDone n s = contextFault n { exc := e, slot := 0, pc := w.pc } (s.onCur n (fun x => { x with postExc := none })) := by
  have hx' : (s.core n).ctx.postExc = some e := hx
  have hc : ((eventNow n w.kind w.arg s || (decide (w.ticks ≠ 0) && decide (w.since + w.ticks ≤ s.now))) && w.kind == 5 &&
      (s.core n).ctx.postExc.isSome) = true := by
    rw [hx', hk]
    simpa [hk] using ht
  unfold waitDone
  dsimp only
  rw [hw]
  dsimp only
  rw [if_pos hc, hx']

end

/-! A REST that is entered and one that is over. -/

theorem restOver_core (n : Nat) (r : RestRec) (s : State) :
    ((restOver n r s).core n).rest = none ∧ ((restOver n r s).core n).power = .run ∧ ((restOver n r s).ctx n).state = .running ∧
      ((restOver n r s).core n).haltReq = (s.core n).haltReq := by
  obtain ⟨x, e⟩ := consumeEvent_core n r.kind s
  refine ⟨?_, ?_, ?_, ?_⟩
  · rw [restOver, State.core_onCore_same]
  · rw [restOver, State.core_onCore_same]
  · rw [restOver, State.ctx_onCore rfl rfl, State.ctx_onCur]
  · rw [restOver, State.core_onCore_same, State.onCur, State.core_onCtx, e]

/-- The state that a core enters at a REST: DOZE where the ceiling, its drains and streams and the learned cost allow it. -/
def dozes (n : Nat) (r : RestRec) (s : State) : Bool :=
  decide (1 ≤ ceilingOf s (panelOf n)) &&
    ((s.core n).m0.queue.isEmpty && (s.core n).m1.queue.isEmpty && !streaming (s.core n)) &&
    decide (wcost s (panelOf n) 1 + beven (panelOf n) 1 ≤ r.horizon)

theorem dozes_iff (n : Nat) (r : RestRec) (s : State) :
    dozes n r s = true ↔ 1 ≤ ceilingOf s (panelOf n) ∧ (s.core n).m0.queue = [] ∧ (s.core n).m1.queue = [] ∧
      streaming (s.core n) = false ∧ wcost s (panelOf n) 1 + beven (panelOf n) 1 ≤ r.horizon := by
  simp only [dozes, Bool.and_eq_true, decide_eq_true_eq, List.isEmpty_iff, Bool.not_eq_true', and_assoc]

theorem restEntry_enters {n : Nat} {s : State} {r : RestRec} (hr : (s.core n).rest = some r) (he : r.entered = false)
    (hc : restRuns s n = true) (hs : (s.core n).still = true) (hev : restEvent n r s = false) :
    ∃ t : State, ∃ at_ ticks : Nat, t.core n = s.core n ∧ restEntry n s = t.onCore n (fun c =>
      { c with
        power := if dozes n r s then .doze else .idle
        rest := some { r with entered := true, entryAt := at_, entryTicks := ticks } }) := by
  unfold restEntry
  rw [hr]
  dsimp only
  rw [he, hc, hs, hev]
  exact ⟨(freshNat s).2, _, _, rfl, rfl⟩

/-- A core that rests and whose event has come wakes where its panel lets it leave. -/
theorem coreWake_event {n : Nat} {s : State} {r : RestRec} (hr : (s.core n).rest = some r) (he : r.entered = true)
    (hc : restRuns s n = true) (hev : restEvent n r s = true)
    (hp : (s.core n).power = .idle ∨ ((s.core n).power = .doze ∧
      (((s.panel (panelOf n)).leaving).filter (fun t => decide (s.now < t))).length < 184 ∧ (s.panel (panelOf n)).coreWaits = [])) :
    ∃ t : State, t.core n = s.core n ∧ coreWake n s = restOver n r t := by
  unfold coreWake
  dsimp only
  rw [hr]
  dsimp only
  rw [he, hc, hev]
  rcases hp with hi | ⟨hd, hl, hw⟩
  · rw [hi]
    exact ⟨s, rfl, rfl⟩
  · have hn : ¬ (184 ≤ (((s.panel (panelOf n)).leaving).filter (fun t => decide (s.now < t))).length ∨
        ((s.panel (panelOf n)).coreWaits.filter (stillDeferred s) ≠ [] ∧
          ((s.panel (panelOf n)).coreWaits.filter (stillDeferred s)).head? ≠ some n)) := by
      rw [hw, List.filter_nil]
      rintro (h | ⟨h, -⟩)
      · omega
      · exact h rfl
    rw [hd, if_neg (by simp), if_neg (by decide), if_neg hn, if_pos rfl]
    refine ⟨_, ?_, rfl⟩
    rfl

/-- Settles O20, by the branches of `waitDone`, `restEntry`, `coreWake` and `lateNow`. -/
theorem waitsRestsAndWakesOfACore : Obligations.WaitsRestsAndWakesOfACore := by
  intro n s hn flies
  have hwait : exec (.waitComplete n) s = goes (waitDone n s) := congrArg Host.Outcome.next (if_pos hn)
  refine ⟨fun w hw he hp => ?event, fun w hw he h1 h2 hp => ?timeout, fun w hw he ht => ?before, fun w e hw hk hx ht => ?failed,
    fun r hr he hc hs hev => ?rest, fun r hr he hc hev hp hh => ?wake, fun e r x ha hb he hm hd hx => ?late⟩
  case event =>
    obtain ⟨x, hx⟩ := consumeEvent_core n w.kind s
    obtain ⟨h1, h2, h3⟩ := waitOver_core n w true (consumeEvent n w.kind s)
    rw [hx] at h3
    exact ⟨_, hwait.trans (congrArg _ (waitDone_event hw he hp)), h1, h2, h3⟩
  case timeout =>
    exact ⟨_, hwait.trans (congrArg _ (waitDone_timeout hw he ⟨h1, h2⟩ hp)), waitOver_core n w false s⟩
  case before => rw [hwait, waitDone_before hw he ht]
  case failed =>
    refine ⟨_, hwait.trans (congrArg _ (waitDone_failed hw hk hx ht)), contextFault_wait .., ?_⟩
    have h := contextFault_exc n { exc := e, slot := 0, pc := w.pc } (s.onCur n (fun x => { x with postExc := none }))
    rw [State.onCur, State.core_onCtx] at h
    exact h
  case rest =>
    obtain ⟨t, at_, ticks, hc, e⟩ := restEntry_enters hr he hc hs hev
    refine ⟨_, (congrArg Host.Outcome.next (if_pos hn)).trans (congrArg _ e), ?_, ?_⟩
    · rw [State.core_onCore_same]
      rfl
    · rw [State.core_onCore_same]
      simp only [dozes_iff]
  case wake =>
    obtain ⟨t, hc, e⟩ := coreWake_event hr he hc hev hp
    obtain ⟨h1, h2, h3, h4⟩ := restOver_core n r t
    refine ⟨restOver n r t, (congrArg Host.Outcome.next (if_pos hn)).trans (congrArg _ ?_), h1, h2, h3⟩
    rw [e, haltTry_of_not_asked]
    rw [h4, hc, hh]
  case late =>
    have hany : (s.core n).flight.any (fun r => decide (r.due ≤ (s.core n).icyc) && r.isExc) = true :=
      List.any_eq_true.2 ⟨r, hm, by simp [hd, Res.isExc, hx]⟩
    have hl : lateNow n s = contextFault n e (catchUp n s).1 := by
      unfold lateNow
      dsimp only
      rw [ha, hb, hany]
      rw [if_pos (by rfl)]
      split
      next v r' hv =>
        rw [hv] at he ⊢
        cases he
        rfl
      next v hv =>
        rw [hv] at he
        nomatch he
    exact ⟨_, (congrArg Host.Outcome.next (if_pos hn)).trans (congrArg _ hl), contextFault_exc ..⟩

end Sys2Proof.Machine

end

section
/-! SUPPORT. The words of a sequencer (R60): the command of a running sequencer, its step to the next word, its faults. -/

namespace Sys2Proof.Machine

open Sys2Proof

/-- A change of a sequencer counts at the state that it has. -/
theorem State.onSeq_congr {s : State} {p : Nat} {f g : Seq → Seq} (h : f (s.seq p) = g (s.seq p)) : s.onSeq p f = s.onSeq p g := by
  have hP : { s.panel p with seq := f (s.panel p).seq } = { s.panel p with seq := g (s.panel p).seq } := by
    rw [show f (s.panel p).seq = g (s.panel p).seq from h]
  exact congrArg (fun P => { s with panels := Tab.set s.panels p P }) hP

theorem stepSeq_regs (q : Seq) : (stepSeq q).regs = q.regs := rfl

section
variable {p : Nat} {s : State} {w1 w2 w3 : W32}

/-- The word that a running sequencer executes. -/
theorem atC_of_seq (hp : p < 64) (hr : seqReady s p = true) (i : CIns) :
    atC { agent := .seq p, w1 := w1, w2 := w2, w3 := w3 } i s = goes (seqExec p i s) := by
  show goes (seqWord p i s) = _
  rw [seqWord, if_pos hp, seqStep, if_pos hr]

/-- A word that the sequencer does not have faults it. -/
theorem seqNoWord_of_ready (hp : p < 64) (hr : seqReady s p = true) : seqNoWord p s = seqFault p .illegal s := by
  rw [seqNoWord, if_pos hp, seqUndefined, if_pos hr]

/-- A register word with legal fields writes its result and goes on. -/
theorem seqAlu_of_legal {a : Alu} (h : a.legal = true) {g : Regs} (hg : (a.res (s.seq p).regs).foldl regNow (s.seq p).regs = g) :
    seqAlu a p s = s.onSeq p (fun q => { stepSeq q with regs := g }) := by
  rw [seqAlu, if_pos h]
  refine State.onSeq_congr ?_
  dsimp only
  rw [stepSeq_regs, hg]

theorem seqAlu_of_illegal {a : Alu} (h : a.legal = false) : seqAlu a p s = seqFault p .illegal s := by
  rw [seqAlu, if_neg (ne_true_of_eq_false h)]

/-- The command that leaves a sequencer fault: FAULT with its cause, the registers as they were (R66). -/
theorem faults_of_seqFault {c : Instr} {f : SeqFault} (h : exec c s = goes (seqFault p f s)) :
    ∃ t, exec c s = goes t ∧ (t.seq p).state = .fault ∧ (t.seq p).fault = some f ∧ (t.seq p).regs = (s.seq p).regs :=
  ⟨_, h, seqFault_faulted p f s⟩

end

end Sys2Proof.Machine

end

section
/-! SUPPORT. Register words of a sequencer and the words that fault it (R60, R66). -/

namespace Sys2Proof.Machine

open Sys2Proof

/-- Settles O15: a register word writes its result at once, the words that a sequencer does not have fault it. -/
theorem sequencerRegisterWordsAndFaults : Obligations.SequencerRegisterWordsAndFaults := by
  refine ⟨fun p s i j k hp hr => ?regs, ?faults⟩
  case regs =>
    dsimp only
    have word {c : Instr} {x : CIns} {a : Alu} {g g' : Regs} (hc : exec c s = atC { agent := .seq p, w1 := 0, w2 := 0, w3 := 0 } x s)
        (hx : seqExec p x s = seqAlu a p s) (hl : a.legal = true) (hg : (a.res (s.seq p).regs).foldl regNow (s.seq p).regs = g)
        (he : g = g') : exec c s = goes (s.onSeq p (fun q => { stepSeq q with regs := g' })) := by
      rw [hc, atC_of_seq hp hr, hx, seqAlu_of_legal hl (hg.trans he)]
    have plain (h : i.f = 0) : crPlain i = true := by simp [crPlain, h]
    refine ⟨fun h => word (a := aluAdd i) rfl rfl (plain h) rfl rfl, fun h => word (a := aluSub i) rfl rfl (plain h) rfl rfl,
      fun h => word (a := aluAnd i) rfl rfl (plain h) rfl rfl, fun h => word (a := aluOr i) rfl rfl (plain h) rfl rfl,
      fun h => word (a := aluXor i) rfl rfl (plain h) rfl rfl, fun h => word (a := aluShl i) rfl rfl (plain h) rfl rfl,
      fun h => word (a := aluShr i) rfl rfl (plain h) rfl rfl, fun h => word (a := aluSra i) rfl rfl (plain h) rfl rfl,
      fun h => ?min, fun h => ?max, fun h => word (a := aluMul i) rfl rfl (plain h) rfl rfl,
      fun h => word (a := aluMulh i) rfl rfl (plain h) rfl rfl, fun h => word (a := aluSel i) rfl rfl (decide_eq_true h) rfl rfl,
      word (a := aluAddi j) rfl rfl rfl rfl rfl, word (a := aluAndi j) rfl rfl rfl rfl rfl, word (a := aluOri j) rfl rfl rfl rfl rfl,
      word (a := aluLui k) rfl rfl rfl rfl rfl, fun hd hb hf => ?amov, fun ha hb hf => ?aget, fun hd ha hf => ?aadd,
      fun hd hf => ?aform, fun hd ha => ?aaddi, fun hd hf => ?cmp, fun hd ha hb hf => ?pop⟩
    case min =>
      exact word (a := aluMin i) rfl rfl (decide_eq_true h) rfl 
        (congrArg (fun v => (s.seq p).regs.setS i.d.toNat v) (ite_ite_choice _ _ _ _))
    case max =>
      exact word (a := aluMax i) rfl rfl (decide_eq_true h) rfl 
        (congrArg (fun v => (s.seq p).regs.setS i.d.toNat v) (ite_ite_choice _ _ _ _))
    case amov => exact word (a := aluAmov i) rfl rfl (by simp [aluAmov, aReg, hd, hb, hf]) rfl rfl
    case aget => exact word (a := aluAget i) rfl rfl (by simp [aluAget, aReg, ha, hb, hf]) rfl rfl
    case aadd => exact word (a := aluAadd i) rfl rfl (by simp [aluAadd, aReg, hd, ha, hf]) rfl rfl
    case aform =>
      exact word (a := aluAform i) rfl rfl (by simp [aluAform, aReg, hd, hf]) rfl 
        (congrArg (fun v => (s.seq p).regs.setA i.d.toNat v) (aform_eq_or _ _))
    case aaddi => exact word (a := aluAaddi j) rfl rfl (by simp [aluAaddi, aReg, hd, ha]) rfl rfl
    case cmp => exact word (a := aluCmp i) rfl rfl (by simp [aluCmp, pReg, hd, hf]) rfl rfl
    case pop => exact word (a := aluPop i) rfl rfl (by simp [aluPop, pReg, hd, ha, hb, hf]) rfl rfl
  case faults =>
    intro p s i q e m1 m2 m3 m4 m5 m6 m7 m8 m9 m10 m11 m12 m13 m14 v1 v2 v3 v4 v5 v6 v7 v8 l1 l2 l3 l4 l5 l6 l7 hp hr site faults
    have noWord {c : Instr} (h : exec c s = goes (seqNoWord p s)) : faults c :=
      faults_of_seqFault (by rw [h, seqNoWord_of_ready hp hr])
    have word {c : Instr} {x : CIns} (hc : exec c s = atC site x s) (hx : seqExec p x s = seqFault p .illegal s) : faults c :=
      faults_of_seqFault (by rw [hc, atC_of_seq hp hr, hx])
    have alu {c : Instr} {x : CIns} {a : Alu} (hc : exec c s = atC site x s) (hx : seqExec p x s = seqAlu a p s)
        (hl : a.legal = false) : faults c := word hc (by rw [hx, seqAlu_of_illegal hl])
    simp only [List.forall_mem_cons, List.not_mem_nil, false_imp_iff, implies_true, and_true]
    refine ⟨?coreWords, ?vectorAndStream, fun hf => ?field, fun hd => ?address, fun hd => ?predicate⟩
    case coreWords =>
      exact ⟨word rfl rfl, word rfl rfl, word rfl rfl, word rfl rfl, word rfl rfl, word rfl rfl, word rfl rfl, word rfl rfl,
        word rfl rfl, word rfl rfl, word rfl rfl, noWord rfl, noWord rfl, noWord rfl, noWord rfl, noWord rfl, noWord rfl,
        noWord rfl, noWord rfl, noWord rfl, noWord rfl, noWord rfl, noWord rfl, noWord rfl, noWord rfl, noWord rfl, noWord rfl⟩
    case vectorAndStream =>
      exact ⟨noWord rfl, noWord rfl, noWord rfl, noWord rfl, noWord rfl, noWord rfl, noWord rfl, noWord rfl, noWord rfl,
        noWord rfl, noWord rfl, noWord rfl, noWord rfl, noWord rfl, noWord rfl, noWord rfl, noWord rfl, noWord rfl⟩
    case field =>
      have hf : ¬ i.f = 0#9 := hf
      have plain : crPlain i = false := by simp [crPlain, hf]
      exact ⟨alu (a := aluAdd i) rfl rfl plain, alu (a := aluSub i) rfl rfl plain, alu (a := aluAnd i) rfl rfl plain,
        alu (a := aluOr i) rfl rfl plain, alu (a := aluXor i) rfl rfl plain, alu (a := aluShl i) rfl rfl plain,
        alu (a := aluShr i) rfl rfl plain, alu (a := aluSra i) rfl rfl plain, alu (a := aluMul i) rfl rfl plain,
        alu (a := aluMulh i) rfl rfl plain, alu (a := aluAmov i) rfl rfl (by simp [aluAmov, hf]),
        alu (a := aluAget i) rfl rfl (by simp [aluAget, hf]), alu (a := aluAadd i) rfl rfl (by simp [aluAadd, hf]),
        alu (a := aluAform i) rfl rfl (by simp [aluAform, hf])⟩
    case address =>
      have ha : aReg i.d = false := by simpa [aReg] using hd
      exact ⟨alu (a := aluAmov i) rfl rfl (by simp [aluAmov, ha]), alu (a := aluAadd i) rfl rfl (by simp [aluAadd, ha]),
        alu (a := aluAform i) rfl rfl (by simp [aluAform, ha])⟩
    case predicate =>
      have hq : pReg i.d = false := by simpa [pReg] using hd
      exact ⟨alu (a := aluCmp i) rfl rfl (by simp [aluCmp, hq]), alu (a := aluPop i) rfl rfl (by simp [aluPop, hq])⟩

end Sys2Proof.Machine

end

section
/-! SUPPORT. Memory words, branches and loops of a sequencer (R42, R43, R60). -/

namespace Sys2Proof.Machine

open Sys2Proof

section
variable {p : Nat} {s : State}

/-- LD and ST inside the sequencer's memory. -/
theorem seqMem_of_inside {i : CM} {st : Bool} {o : Int} (ho : dispOff ((s.seq p).regs.getA i.base.toNat) i.off.toInt (2 ^ i.size.toNat) = o)
    (h0 : 0 ≤ o) (ha : o % ((2 ^ i.size.toNat : Nat) : Int) = 0) (hm : o + ((2 ^ i.size.toNat : Nat) : Int) ≤ 0x40000) :
    seqMem p i st s =
      if st then seqGo p id { s with
        mem := memPutBytes s.mem (seqKey p o.toNat) (leBytes (2 ^ i.size.toNat) ((s.seq p).regs.getS i.t.toNat).toNat) }
      else seqGo p (fun q => { q with
        regs := q.regs.setS i.t.toNat (BitVec.ofNat 64 (leNat (memBytes s.mem (seqKey p o.toNat) (2 ^ i.size.toNat)))) }) s := by
  unfold seqMem
  dsimp only
  rw [ho, if_neg (by omega)]

/-- A taken branch. -/
theorem seq_seqJump (t : Int) : ((seqJump p t s).seq p).pc = (t % 65536).toNat ∧
    ((seqJump p t s).seq p).issue = (s.seq p).issue + 1 := by
  unfold seqJump
  dsimp only
  rw [seq_onSeq_same]
  exact ⟨rfl, rfl⟩

theorem seqBranch_of_legal {legal : Bool} {t : Option Int} (hl : legal = true) (h : seqLastTwo (s.seq p) = false) :
    seqBranch p legal t s = t.elim (seqGo p id s) (fun t => seqJump p t s) := by
  unfold seqBranch
  rw [hl, h]
  cases t <;> rfl

/-- A loop level that opens where none is active. -/
theorem seqLoop_of_none {legal : Bool} {count body : Nat} (hl : legal = true) (h : (s.seq p).loops = []) (hc : count ≠ 0) :
    ((seqLoop p legal count body s).seq p).loops = [{ count := count, start := (s.seq p).pc + 1, stop := (s.seq p).pc + body }] ∧
      ((seqLoop p legal count body s).seq p).pc = ((s.seq p).pc + 1) % 65536 := by
  have hlast : seqLastTwo (s.seq p) = false := by rw [seqLastTwo, h, List.any_nil]
  unfold seqLoop
  dsimp only
  rw [hl, hlast, h, if_neg (by simp), if_neg hc, seq_onSeq_same, h]
  exact ⟨rfl, rfl⟩

end

/-- Settles O16, word by word. -/
theorem sequencerMemoryAndBranches : Obligations.SequencerMemoryAndBranches := by
  intro p s m b i l h hp hr
  dsimp only
  have word {c : Instr} {x : CIns} {t : State} (hc : exec c s = atC { agent := .seq p, w1 := 0, w2 := 0, w3 := 0 } x s)
      (hx : seqExec p x s = t) : exec c s = goes t := by rw [hc, atC_of_seq hp hr, hx]
  refine ⟨fun h0 ha hm => ⟨?ld, ?st⟩, fun ht hq => ?taken, fun ht hq => ?untaken, fun ht hs hb => ?jmp, fun ht hd hb hf => ?jr,
    fun hl hz hc => ?loop, fun hl => ?loopi, fun ha hb hf => ?mfc, fun hd hb hf => ?mtc, fun hd ha hb hf => ?sig, ?nop⟩
  case ld => exact word rfl ((seqMem_of_inside rfl h0 ha hm).trans ((if_neg nofun).trans (State.onSeq_congr rfl)))
  case st =>
    refine ⟨_, word rfl (seqMem_of_inside rfl h0 ha hm), ?_, rfl⟩
    rw [if_pos rfl, seqGo, seq_onSeq_same]
    rfl
  case taken =>
    have hc : ((s.seq p).regs.getP b.p.toNat == (b.sense == 1)) = true := by
      rw [hq]
      exact beq_self_eq_true _
    refine ⟨_, word rfl (seqBranch_of_legal rfl ht), ?_⟩
    rw [if_pos hc]
    exact seq_seqJump _
  case untaken =>
    have hc : ((s.seq p).regs.getP b.p.toNat == (b.sense == 1)) = false := beq_eq_false_iff_ne.2 hq
    refine word rfl ((seqBranch_of_legal rfl ht).trans ?_)
    rw [hc]
    rfl
  case jmp =>
    obtain ⟨hpc, -⟩ := seq_seqJump (p := p) (s := s) ((s.seq p).pc + b.off.toInt)
    have hl : (b.sense == 0 && b.p == 0) = true := by rw [hs, hb]; rfl
    exact ⟨_, word rfl (seqBranch_of_legal (t := some _) hl ht), hpc⟩
  case jr =>
    obtain ⟨hpc, -⟩ := seq_seqJump (p := p) (s := s) (((s.seq p).regs.getS i.a.toNat).toNat % 2 ^ 20 : Nat)
    have hl : (i.d == 0 && i.b == 0 && i.f == 0) = true := by rw [hd, hb, hf]; rfl
    refine ⟨_, word rfl (seqBranch_of_legal (t := some _) hl ht), hpc.trans ?_⟩
    omega
  case loop =>
    exact ⟨_, word rfl rfl, seqLoop_of_none (by rw [hz]; rfl) hl hc⟩
  case loopi =>
    obtain ⟨hlv, -⟩ := seqLoop_of_none (p := p) (s := s) (legal := true) (body := h.body.toNat + 1) rfl hl (Nat.succ_ne_zero h.count.toNat)
    exact ⟨_, word rfl rfl, hlv⟩
  case mfc =>
    refine word rfl ?_
    show seqMfc p i s = _
    rw [seqMfc, if_pos (by simp [ha, hb, hf])]
    rfl
  case mtc =>
    refine word rfl ?_
    show seqMtc p i s = _
    rw [seqMtc, if_pos (by simp [hd, hb, hf])]
    rfl
  case sig =>
    refine word rfl ?_
    show seqFlag p i true s = _
    rw [seqFlag, if_pos (by simp [hd, ha, hb, hf])]
    rfl
  case nop => exact word (x := .nop 0) rfl rfl

end Sys2Proof.Machine

end

section
/-! SUPPORT. Fabric accesses of a sequencer and the ends of its waits (R60 to R62). -/

namespace Sys2Proof.Machine

open Sys2Proof

/-! Rows 1 and 2 of R32 for a sequencer that waits. -/

theorem State.panel_onSeq_stack (s : State) (p r : Nat) (f : Seq → Seq) : ((s.onSeq p f).panel r).stack = (s.panel r).stack := by
  by_cases h : r = p
  · subst h
    rw [State.onSeq, State.panel_onPanel_same]
  · rw [State.onSeq, State.panel_onPanel_other _ _ _ _ h]

/-- What a sequencer does has no part in what it may reach. -/
theorem chk12_onSeq (s : State) (p : Nat) (f : Seq → Seq) (home : Nat) (seq write : Bool) (a len : Nat) :
    chk12 (s.onSeq p f) home seq write a len = chk12 s home seq write a len := by
  have hr (t : Target) : rowTwo (s.onSeq p f) home seq write t len = rowTwo s home seq write t len := by
    have hk (r off : Nat) : stackReserved (s.onSeq p f) r off len = stackReserved s r off len := by
      rw [stackReserved, stackReserved, State.panel_onSeq_stack]
    unfold rowTwo
    rw [show partOf (s.onSeq p f) home = partOf s home from rfl]
    cases partOf s home with
    | none => rfl
    | some k =>
      cases t with
      | stk r off =>
        dsimp only
        rw [hk]
        rfl
      | _ => rfl
  unfold chk12
  cases targetOf a len with
  | none => rfl
  | some t =>
    dsimp only
    rw [hr]

/-- A status of rows 1 and 2 that refuses is none with which data come. -/
theorem chk12_refused {s : State} {home : Nat} {seq write : Bool} {a len : Nat} (h : chk12 s home seq write a len ≠ 0) :
    chk12 s home seq write a len = 0x03 ∨ chk12 s home seq write a len = 0x0F := by
  unfold chk12 at h ⊢
  generalize targetOf a len = x at h ⊢
  cases x with
  | none => exact .inl rfl
  | some t =>
    dsimp only at h ⊢
    split at h
    · exact absurd rfl h
    next hc => exact .inr (if_neg hc)

/-! The steps of a sequencer's access and waits. -/

/-- The sequencer as a wait of it is over: the next word follows. -/
def resumed (q : Seq) : Seq :=
  { q with
    pc := (loopNext q.pc q.loops.reverse).1 % 65536, loops := (loopNext q.pc q.loops.reverse).2.reverse
    state := .running, wait := none, prest := none }

section
variable {p : Nat} {s : State}

theorem seq_seqResume (f : Seq → Seq) : (seqResume p f s).seq p = f (resumed (s.seq p)) := by
  rw [seqResume, seq_onSeq_same]
  rfl

theorem seq_seqWait (w : SeqWait) :
    (seqWait p w s).seq p = { s.seq p with state := .waiting, wait := some w, issue := (s.seq p).issue + 1 } := seq_onSeq_same ..

/-- PREST with legal fields. -/
theorem seq_seqPrest {e : CE} (hz : e.z = 0) (hk : eventOk 2 e.kind.toNat e.arg.toNat = true) :
    (seqPrest p e s).seq p =
      { s.seq p with
        state := .prest, issue := (s.seq p).issue + 1
        prest := some
          { kind := e.kind.toNat, arg := e.arg.toNat, horizon := ((s.seq p).regs.getS e.s.toNat).toNat % 2 ^ 32, since := none
            saveOk := e.saveOk == 1, pd := e.pd.toNat, resting := false } } := by
  rw [seqPrest, if_pos (by rw [hz, hk]; rfl), seq_onSeq_same]

/-- A request of a sequencer leaves. -/
theorem sendSeqReq_facts (q : SeqReq) :
    ((sendSeqReq p q s).seq p).state = (s.seq p).state ∧ (sendSeqReq p q s).nextPid = s.nextPid + 1 ∧
      ∃ k, (sendSeqReq p q s).packets = s.packets ++ [k] ∧ k.pid = s.nextPid ∧ k.dst = q.addr ∧ k.size = q.size ∧
        k.op = (if q.wr.isSome then .write else .read) ∧ k.src = .seq p ∧ k.reply = false ∧ k.data = q.wr.getD [] := by
  have h : (sendSeqReq p q s).seq p = { s.seq p with wait := some (.fabric
      { q with phase := .sent, block := (expectOf s q.addr).1, epoch := (expectOf s q.addr).2 }) } :=
    seq_onSeq_same s p (fun r => { r with wait := some (.fabric
      { q with phase := .sent, block := (expectOf s q.addr).1, epoch := (expectOf s q.addr).2 }) })
  exact ⟨by rw [h], rfl, _, rfl, rfl, rfl, rfl, rfl, rfl, rfl, rfl⟩

/-- An access that ends without data: a register of an LDF takes a value that the spec does not give. -/
theorem seqFabDone_unserved {q : SeqReq} {st : Nat} {data : List Byte} (hw : q.wr = none) (h : st = 0x03 ∨ st = 0x0F) :
    ∃ v, seqFabDone p q st data s = seqResume p (fun r =>
      { r with regs := (r.regs.setS q.dst (BitVec.ofNat 64 (v % 2 ^ (8 * q.size)))).setP 7 false }) (freshNat s).2 := by
  unfold seqFabDone
  rw [hw]
  rcases h with rfl | rfl
  · exact ⟨_, rfl⟩
  · exact ⟨_, rfl⟩

theorem seqFabDone_write {q : SeqReq} {st : Nat} {data : List Byte} (hw : q.wr.isSome = true) :
    seqFabDone p q st data s = seqResume p (fun r => { r with regs := r.regs.setP 7 (decide (st = 0)) }) s := by
  rw [seqFabDone, if_pos hw]

theorem seqFabDone_read {q : SeqReq} {data : List Byte} (hw : q.wr = none) :
    seqFabDone p q 0 data s = seqResume p (fun r =>
      { r with regs := (r.regs.setS q.dst (BitVec.ofNat 64 (leNat data % 2 ^ (8 * q.size)))).setP 7 true }) s := by
  unfold seqFabDone
  rw [hw]
  rfl

/-- The access of an LDF or an STF. -/
def accessOf (p : Nat) (i : CQ) (st : Bool) (s : State) : SeqReq :=
  { addr := ((s.seq p).regs.getA i.a.toNat).toNat, size := 2 ^ i.size.toNat
    wr := if st then some (leBytes (2 ^ i.size.toNat) ((s.seq p).regs.getS i.s.toNat).toNat) else none
    dst := i.s.toNat, block := 0, epoch := 0, refusals := 0, phase := .sent, status := 0, data := [] }

variable {i : CQ} {st : Bool} (hz : i.z = 0)
include hz

/-- LDF or STF of an address that rows 1 and 2 let through, no part of the result window. -/
theorem seqFab_sent (hc : chk12 s p true st ((s.seq p).regs.getA i.a.toNat).toNat (2 ^ i.size.toNat) = 0)
    (hw : (st && (windowOffset p ((s.seq p).regs.getA i.a.toNat).toNat (2 ^ i.size.toNat)).isSome) = false) :
    seqFab p i st s = sendSeqReq p (accessOf p i st s) (seqWait p (.fabric (accessOf p i st s)) s) := by
  unfold seqFab
  dsimp only
  rw [if_neg (not_not.2 hz), seqWait, chk12_onSeq, hc, hw]
  rfl

/-- One that rows 1 or 2 refuse. -/
theorem seqFab_refused (hc : chk12 s p true st ((s.seq p).regs.getA i.a.toNat).toNat (2 ^ i.size.toNat) ≠ 0) :
    seqFab p i st s = seqFabDone p (accessOf p i st s)
      (chk12 s p true st ((s.seq p).regs.getA i.a.toNat).toNat (2 ^ i.size.toNat)) [] (seqWait p (.fabric (accessOf p i st s)) s) := by
  unfold seqFab
  dsimp only
  rw [if_neg (not_not.2 hz), seqWait, chk12_onSeq, if_pos hc]
  rfl

end

/-! The end of a wait. -/

theorem seqWaitEnd_eq {p : Nat} (hp : p < 64) (s : State) : exec (.seqWaitEnd p) s = goes (seqWaitEnd p s) :=
  congrArg Host.Outcome.next (if_pos hp)

section
variable {p : Nat} {s : State}

theorem seqWaitEnd_held (h : hangHolds s p = true) : seqWaitEnd p s = s := by
  unfold seqWaitEnd
  rw [h]
  simp

variable (hr : panelRuns (s.panel p) = true) (hh : hangHolds s p = false)
include hr hh

/-- A PREST that waits without resting. -/
theorem seqWaitEnd_prest {r : PrestRec} (hq : (s.seq p).state = .prest) (hw : (s.seq p).prest = some r) :
    seqWaitEnd p s = if r.since.isSome && !r.resting && prestEvent s p r then prestDone p r s else s := by
  unfold seqWaitEnd
  dsimp only
  rw [hr, hh, hq, hw]
  cases (s.seq p).wait with
  | none => rfl
  | some w => cases w <;> rfl

variable (hq : (s.seq p).state = .waiting)
include hq

theorem seqWaitEnd_flag {f : Nat} (hw : (s.seq p).wait = some (.flag f)) :
    seqWaitEnd p s = if (s.seq p).flags.getLsbD f then seqResume p id s else s := by
  unfold seqWaitEnd
  dsimp only
  rw [hr, hh, hq, hw]
  rfl

theorem seqWaitEnd_barrier {c v f : Nat} (hw : (s.seq p).wait = some (.barrier c v f)) (hv : v ≤ Tab.get 0 (s.seq p).bar c) :
    seqWaitEnd p s = seqResume p (fun q =>
      { q with bar := Tab.put 0 q.bar c (Tab.get 0 q.bar c - v), flags := q.flags ||| (1#64 <<< f) }) s := by
  unfold seqWaitEnd
  dsimp only
  rw [hr, hh, hq, hw]
  exact if_pos hv

theorem seqWaitEnd_fabric {g : SeqReq} (hw : (s.seq p).wait = some (.fabric g)) :
    (g.phase = .replied → seqWaitEnd p s = seqFabDone p g g.status g.data s) ∧
      (∀ t, g.phase = .retry t → seqWaitEnd p s = if t ≤ (s.panel p).cyc then sendSeqReq p g s else s) ∧
      (g.phase = .sent → seqWaitEnd p s = s) := by
  unfold seqWaitEnd
  dsimp only
  rw [hr, hh, hq, hw]
  refine ⟨fun h => ?_, fun t h => ?_, fun h => ?_⟩
  all_goals
    dsimp only
    rw [h]
    rfl

theorem seqWaitEnd_cwait {k pd : Nat} {set : W64} {l : List Nat} (hw : (s.seq p).wait = some (.cwait k set pd))
    (hl : coreSet p set = some l) :
    seqWaitEnd p s =
      if (l.filter (fun n => !isDead s n)).all (fun n =>
          decide ((s.ctxAt n k).state = .empty) || decide ((s.ctxAt n k).state = .faulted)) then
        seqResume p (fun q =>
          { q with regs := q.regs.setP pd ((l.filter (fun n => !isDead s n)).all (fun n => decide ((s.ctxAt n k).state = .empty))) }) s
      else s := by
  unfold seqWaitEnd
  dsimp only
  rw [hr, hh, hq, hw]
  dsimp only
  rw [hl]
  rfl

end

/-- Settles O17, by the steps of an access and the branches of `seqWaitEnd`. -/
theorem sequencerFabricAndWaitWords : Obligations.SequencerFabricAndWaitWords := by
  refine ⟨fun p s i hp hr hz => ?words, fun p s hp hr => ⟨fun hh => ?held, fun hh => ?ends⟩⟩
  case words =>
    dsimp only
    have word {c : Instr} {x : CIns} {t : State} (hc : exec c s = atC { agent := .seq p, w1 := 0, w2 := 0, w3 := 0 } x s)
        (hx : seqExec p x s = t) : exec c s = goes t := by rw [hc, atC_of_seq hp hr, hx]
    have hw (st : Bool) := seq_seqWait (p := p) (s := s) (.fabric (accessOf p i st s))
    refine ⟨fun hc => ?ldf, fun hc hn => ?stf, fun hc => ?ldfRefused, ?slots, fun e => ?rest, fun e he hk => ?prest, fun hc => ?stfRefused⟩
    case ldf =>
      obtain ⟨hst, hpid, k, hk, h1, h2, h3, h4, h5, h6, -⟩ :=
        sendSeqReq_facts (p := p) (s := seqWait p (.fabric (accessOf p i false s)) s) (accessOf p i false s)
      exact ⟨_, k, word rfl (seqFab_sent hz hc rfl), by rw [hst, hw], hk, h1, hpid, h2, h3, h4, h5, h6⟩
    case stf =>
      obtain ⟨hst, -, k, hk, -, h2, h3, h4, h5, -, h7⟩ :=
        sendSeqReq_facts (p := p) (s := seqWait p (.fabric (accessOf p i true s)) s) (accessOf p i true s)
      exact ⟨_, k, word rfl (seqFab_sent hz hc (by rw [hn]; rfl)), by rw [hst, hw], hk, h2, h3, h4, h5, h7⟩
    case ldfRefused =>
      obtain ⟨v, hv⟩ := seqFabDone_unserved (p := p) (s := seqWait p (.fabric (accessOf p i false s)) s) (q := accessOf p i false s)
        (data := []) rfl (chk12_refused hc)
      refine ⟨_, v, word rfl ((seqFab_refused hz hc).trans hv), ?_⟩
      have hs : (freshNat (seqWait p (.fabric (accessOf p i false s)) s)).2.seq p = _ := hw false
      rw [seq_seqResume, hs]
      exact ⟨rfl, rfl, rfl, rfl, rfl, rfl⟩
    case slots =>
      simp only [List.forall_mem_cons, List.not_mem_nil, false_imp_iff, implies_true, and_true]
      exact ⟨faults_of_seqFault (word rfl rfl), faults_of_seqFault (word rfl rfl)⟩
    case rest => exact faults_of_seqFault (word rfl rfl)
    case prest =>
      have hx : exec (.prest p e) s = goes (seqExec p (.prest e) s) := atC_of_seq (w1 := 0) (w2 := 0) (w3 := 0) hp hr (.prest e)
      have hs : (seqExec p (.prest e) s).seq p = _ := seq_seqPrest he hk
      refine ⟨_, hx, ?_⟩
      rw [hs]
      exact ⟨rfl, rfl, rfl, rfl, rfl⟩
    case stfRefused =>
      refine ⟨_, word rfl ((seqFab_refused hz hc).trans (seqFabDone_write rfl)), ?_⟩
      rw [seq_seqResume, hw, decide_eq_false hc]
      exact ⟨rfl, rfl, rfl, rfl⟩
  case held => rw [seqWaitEnd_eq hp, seqWaitEnd_held hh]
  case ends =>
    dsimp only
    rw [seqWaitEnd_eq hp]
    refine ⟨fun r hq hw hs hn he => ?prest, fun r hq hw h => ?prestStays, fun hq => ⟨fun f hw hf => ?flag, fun f hw hf => ?flagStays,
      fun c v f hw hv => ?barrier, fun g hw hg hn hst => ?read, fun g d hw hg hd => ?write, fun g w hw hg => ?retry, fun g hw hg => ?sent,
      fun k set pd l hw hl => ?cwait⟩⟩
    case prest =>
      refine ⟨_, congrArg _ ((seqWaitEnd_prest hr hh hq hw).trans (if_pos (by rw [hs, hn, he]; rfl))), ?_⟩
      rw [prestDone, seq_seqResume]
      exact ⟨rfl, rfl, rfl, rfl, rfl⟩
    case prestStays =>
      have hc : (r.since.isSome && !r.resting && prestEvent s p r) = false := by
        rcases h with h | h
        · rw [h]
          rfl
        · rw [h, Bool.and_false]
      rw [seqWaitEnd_prest hr hh hq hw, if_neg (ne_true_of_eq_false hc)]
    case flag =>
      refine ⟨_, congrArg _ ((seqWaitEnd_flag hr hh hq hw).trans (if_pos hf)), ?_⟩
      rw [seq_seqResume]
      exact ⟨rfl, rfl, rfl, rfl⟩
    case flagStays => rw [seqWaitEnd_flag hr hh hq hw, if_neg (ne_true_of_eq_false hf)]
    case barrier =>
      refine ⟨_, congrArg _ (seqWaitEnd_barrier hr hh hq hw hv), ?_⟩
      rw [seq_seqResume]
      exact ⟨rfl, Tab.get_put_same _ _ _ _, rfl, rfl⟩
    case read =>
      obtain ⟨h, -, -⟩ := seqWaitEnd_fabric hr hh hq hw
      rw [hst] at h
      refine ⟨_, congrArg _ ((h hg).trans (seqFabDone_read hn)), ?_⟩
      rw [seq_seqResume]
      refine ⟨rfl, rfl, Regs.getP_setP_same _ _ _, ?_⟩
      split
      next h0 => exact if_pos h0
      next h0 => exact Regs.getS_setS_same _ _ h0
    case write =>
      obtain ⟨h, -, -⟩ := seqWaitEnd_fabric hr hh hq hw
      refine ⟨_, congrArg _ ((h hg).trans (seqFabDone_write (by rw [hd]; rfl))), ?_⟩
      rw [seq_seqResume]
      exact ⟨rfl, rfl⟩
    case retry =>
      obtain ⟨-, h, -⟩ := seqWaitEnd_fabric hr hh hq hw
      refine ⟨fun hle => ?_, fun hlt => ?_⟩
      · obtain ⟨hst, -, k, hk, -, h2, h3, -, h5, -, -⟩ := sendSeqReq_facts (p := p) (s := s) g
        exact ⟨_, k, congrArg _ ((h w hg).trans (if_pos hle)), hst.trans hq, hk, h2, h3, h5⟩
      · rw [h w hg, if_neg (by omega)]
    case sent =>
      obtain ⟨-, -, h⟩ := seqWaitEnd_fabric hr hh hq hw
      rw [h hg]
    case cwait =>
      refine ⟨fun hall => ?_, fun hex => ?_⟩
      · refine ⟨_, congrArg _ ((seqWaitEnd_cwait hr hh hq hw hl).trans (if_pos (List.all_eq_true.2 fun n hn => ?_))), ?_⟩
        · simpa using hall n hn
        · rw [seq_seqResume]
          exact ⟨rfl, rfl, rfl⟩
      · obtain ⟨n, hn, h1, h2⟩ := hex
        rw [seqWaitEnd_cwait hr hh hq hw hl, if_neg fun hall => ?_]
        have := List.all_eq_true.1 hall n hn
        simp [h1, h2] at this

end Sys2Proof.Machine

end

section
/-! SUPPORT. Commands on a set of cores (R62): what is done to one core of the set leaves the others and whether they are dead. -/

namespace Sys2Proof.Machine

open Sys2Proof

/-! The cores of a set. -/

theorem coreIn_inj {p x y x' y' : Nat} (hx : x ≤ 22) (hx' : x' ≤ 22) (h : coreIn p x y = coreIn p x' y') : x = x' ∧ y = y' := by
  unfold coreIn coreAt at h
  omega

theorem span_nodup (k n : Nat) : (span k n).Nodup := List.Nodup.map (fun _ _ => Nat.add_left_cancel) List.nodup_range

theorem mem_span_le {k n i : Nat} (h : i ∈ span k n) : i < k + n := by
  obtain ⟨j, hj, rfl⟩ := List.mem_map.1 h
  have := List.mem_range.1 hj
  omega

/-- A core set names each core once. -/
theorem coreSet_nodup {p : Nat} {v : W64} {l : List Nat} (h : coreSet p v = some l) : l.Nodup := by
  unfold coreSet at h
  dsimp only at h
  split at h
  · nomatch h
  next hb =>
    cases h
    have hx (i : Nat) (hi : i ∈ span (fld v.toNat 7 0) (fld v.toNat 23 16 + 1 - fld v.toNat 7 0)) : i ≤ 22 := by
      have := mem_span_le hi
      omega
    refine List.nodup_flatMap.2 ⟨fun y _ => ?_, (span_nodup _ _).imp fun {y y'} hy => ?_⟩
    · exact (List.nodup_map_iff_inj_on (span_nodup _ _)).2 fun i hi j hj e => (coreIn_inj (hx i hi) (hx j hj) e).1
    · intro n hn hn'
      obtain ⟨i, hi, rfl⟩ := List.mem_map.1 hn
      obtain ⟨j, hj, e⟩ := List.mem_map.1 hn'
      exact hy (coreIn_inj (hx j hj) (hx i hi) e).2.symm

/-! One core after another. -/

/-- What is done to another core does not make a core dead or alive. -/
theorem isDead_of_own {m n : Nat} {s t : State} (h : Own m s t) (hn : n ≠ m) : isDead t n = isDead s n := by
  obtain ⟨q, H, e, -⟩ := h.panels (panelOf n)
  unfold isDead isHole siteIdx
  rw [e, h.cores n hn]
  rfl

/-- `g` on each live core of a list. -/
def onLive (g : Nat → State → State) (l : List Nat) (s : State) : State :=
  l.foldl (fun t n => if isDead t n then t else g n t) s

section
variable {g : Nat → State → State} {l : List Nat} (hg : ∀ n s, Own n s (g n s))
include hg

theorem own_ite (n : Nat) (s : State) : Own n s (if isDead s n then s else g n s) := .ite (.refl s) (hg n s)

/-- A core that is not of the list, or dead, stays as it was. -/
theorem onLive_other {s : State} {n : Nat} (h : n ∉ l ∨ isDead s n = true) : (onLive g l s).core n = s.core n := by
  induction l generalizing s with
  | nil => rfl
  | cons m l ih =>
    have hm := own_ite hg m s
    by_cases hn : n = m
    · subst hn
      rcases h with h | h
      · exact absurd List.mem_cons_self h
      · have e : onLive g (n :: l) s = onLive g l s := by rw [onLive, List.foldl_cons, if_pos h, ← onLive]
        rw [e]
        exact ih (.inr h)
    · refine (ih (s := if isDead s m then s else g m s) ?_).trans (hm.cores n hn)
      rw [isDead_of_own hm hn]
      exact h.imp_left fun h hl => h (List.mem_cons_of_mem _ hl)

/-- A live core of the list is as `g` leaves it, from the core that it was. -/
theorem onLive_live (hl : l.Nodup) {s : State} {n : Nat} (hn : n ∈ l) (hd : isDead s n = false) :
    ∃ u, u.core n = s.core n ∧ (onLive g l s).core n = (g n u).core n := by
  induction l generalizing s with
  | nil => exact absurd hn List.not_mem_nil
  | cons m l ih =>
    obtain ⟨hml, hl⟩ := List.nodup_cons.1 hl
    have hm := own_ite hg m s
    by_cases h : n = m
    · subst h
      refine ⟨s, rfl, ?_⟩
      have e : onLive g (n :: l) s = onLive g l (g n s) := by rw [onLive, List.foldl_cons, if_neg (ne_true_of_eq_false hd), ← onLive]
      rw [e]
      exact onLive_other hg (.inl hml)
    · have hn : n ∈ l := (List.mem_cons.1 hn).resolve_left h
      obtain ⟨u, hu, e⟩ := ih hl (s := if isDead s m then s else g m s) hn (by rw [isDead_of_own hm h, hd])
      exact ⟨u, hu.trans (hm.cores n h), e⟩

theorem onLive_signals (s : State) : Signals s (onLive g l s) :=
  .foldl (.refl s) fun t n ht => ht.of_own (own_ite hg n t)

end

/-- What leaves every sequencer leaves them over a list. -/
theorem onLive_panels {g : Nat → State → State} (hg : ∀ n s, (g n s).panels = s.panels) (l : List Nat) (s : State) :
    (onLive g l s).panels = s.panels := by
  induction l generalizing s with
  | nil => rfl
  | cons m l ih =>
    refine (ih (if isDead s m then s else g m s)).trans ?_
    split
    · rfl
    · exact hg m s

/-! A mark or a start of a context touches no panel. -/

theorem attend_panels (s : State) : (attend s).panels = s.panels := by
  unfold attend
  split <;> rfl

theorem logErr_panels (severity cls unit status d0 d1 : Nat) (s : State) :
    (logErr severity cls unit status d0 d1 s).panels = s.panels := by
  have h : (if severity = 2 then attend s else s).panels = s.panels := by
    split
    · exact attend_panels s
    · rfl
  unfold logErr
  dsimp only
  split
  · exact h
  · exact h

theorem recordUe_panels (path n l : Nat) (weight checked : Bool) (off : Nat) (s : State) :
    (recordUe path n l weight checked off s).panels = s.panels := by
  unfold recordUe
  rw [logErr_panels]
  rfl

theorem readLine_panels (path n l : Nat) (s : State) : (readLine path n l s).2.panels = s.panels := by
  unfold readLine
  dsimp only
  split
  · rfl
  · rfl
  · split
    · rfl
    · exact recordUe_panels ..

theorem readLines_panels (path n : Nat) (l : List Nat) (s : State) : (readLines path n l s).2.panels = s.panels := by
  induction l generalizing s with
  | nil => rfl
  | cons i l ih => exact (ih _).trans (readLine_panels ..)

theorem spdRead_panels (path n off len : Nat) (s : State) : (spdRead path n off len s).2.panels = s.panels := readLines_panels ..

theorem reopenGroups_panels (n k : Nat) (s : State) : (reopenGroups n k s).panels = s.panels := by
  unfold reopenGroups
  generalize (s.ctxAt n k).groups = l
  induction l generalizing s with
  | nil => rfl
  | cons e l ih => exact (ih _).trans (spdRead_panels ..)

theorem reloadList_panels (n k l : Nat) (s : State) : (reloadList n k l s).panels = s.panels := by
  unfold reloadList
  split
  · exact spdRead_panels ..
  · rfl

theorem reloadLists_panels (n k : Nat) (s : State) : (reloadLists n k s).panels = s.panels := by
  unfold reloadLists
  generalize List.range 4 = l
  induction l generalizing s with
  | nil => rfl
  | cons e l ih => exact (ih _).trans (reloadList_panels ..)

theorem loadArea_panels (n k : Nat) (s : State) : (loadArea n k s).2.panels = s.panels := by
  unfold loadArea
  dsimp only
  split <;> exact readLines_panels ..

theorem restoreArea_panels (n k : Nat) (st : CtxState) (s : State) : (restoreArea n k st s).panels = s.panels := by
  have h := loadArea_panels n k s
  unfold restoreArea
  split
  next t e => exact (e ▸ h :)
  next t e =>
    dsimp only
    split
    · exact (e ▸ h :)
    · exact (reloadLists_panels ..).trans ((reopenGroups_panels ..).trans (e ▸ h :))

theorem startCtx_panels (n k : Nat) (s : State) : (startCtx n k s).panels = s.panels := by
  unfold startCtx
  dsimp only
  split
  · rfl
  · exact restoreArea_panels ..

theorem markSwitch_panels (n k : Nat) (s : State) : (markSwitch n k s).panels = s.panels := by
  unfold markSwitch
  dsimp only
  split
  · split
    · exact startCtx_panels ..
    · rfl
  · rfl

end Sys2Proof.Machine

end

section
/-! SUPPORT. The words that only a sequencer has, and its watchdog's reset (R52, R62 to R65, R338). -/

namespace Sys2Proof.Machine

open Sys2Proof

/-! LAUNCH on a set (R52, R62). -/

/-- The registers that a launch gives: its arguments in s1 onwards. -/
def argRegs (args : List W64) : Regs := args.zipIdx.foldl (fun r e => r.setS (e.2 + 1) e.1) Regs.init

theorem argRegs_getS (a b c d : W64) :
    (argRegs [a, b, c, d]).getS 1 = a ∧ (argRegs [a, b, c, d]).getS 2 = b ∧ (argRegs [a, b, c, d]).getS 3 = c ∧
      (argRegs [a, b, c, d]).getS 4 = d := by
  have h : argRegs [a, b, c, d] = (((Regs.init.setS 1 a).setS 2 b).setS 3 c).setS 4 d := rfl
  rw [h]
  refine ⟨?_, ?_, ?_, ?_⟩
  · rw [Regs.getS_setS_other _ _ (by decide), Regs.getS_setS_other _ _ (by decide), Regs.getS_setS_other _ _ (by decide),
      Regs.getS_setS_same _ _ (by decide)]
  · rw [Regs.getS_setS_other _ _ (by decide), Regs.getS_setS_other _ _ (by decide), Regs.getS_setS_same _ _ (by decide)]
  · rw [Regs.getS_setS_other _ _ (by decide), Regs.getS_setS_same _ _ (by decide)]
  · rw [Regs.getS_setS_same _ _ (by decide)]

/-- Core `n` takes a launch of context `k`. -/
def Launchable (n k : Nat) (s : State) : Prop :=
  isDead s n = false ∧ (s.ctxAt n k).resident = false ∧ regionOk (s.core n) (selOf (s.core n) k).region = true

theorem Launchable.of_own {m n k : Nat} {s t : State} (h : Launchable n k s) (ht : Own m s t) (hn : n ≠ m) : Launchable n k t := by
  have hc := ht.cores n hn
  have hx : t.ctxAt n k = s.ctxAt n k := by rw [State.ctxAt, hc, State.ctxAt]
  unfold Launchable
  rw [isDead_of_own ht hn, hx, hc]
  exact h

/-- The core that takes a launch. -/
structure LaunchedAt (n k entry : Nat) (args : List W64) (t : State) : Prop where
  resident : (t.ctxAt n k).resident = true
  pc : (t.ctxAt n k).pc = entry % 2 ^ 20
  gate : (t.core n).gate = .closed
  regs : (t.ctxAt n k).regs = argRegs args

theorem LaunchedAt.of_core {n k entry : Nat} {args : List W64} {s t : State} (h : LaunchedAt n k entry args s)
    (e : t.core n = s.core n) : LaunchedAt n k entry args t := by
  have hx : t.ctxAt n k = s.ctxAt n k := by rw [State.ctxAt, e, State.ctxAt]
  exact ⟨hx ▸ h.resident, hx ▸ h.pc, e ▸ h.gate, hx ▸ h.regs⟩

/-- The core as it accepts a launch, before the context starts. -/
def accepted (n k entry : Nat) (args : List W64) (sel : Sel) (s : State) : State :=
  (State.onCtx s n k (launched n sel entry args)).onCore n (fun c =>
    { c with gate := .closed, sels := Tab.set c.sels k sel, launches := Tab.set c.launches k (entry, args) })

theorem accepted_ctxAt (n k entry : Nat) (args : List W64) (sel : Sel) (s : State) :
    (accepted n k entry args sel s).ctxAt n k = launched n sel entry args (s.ctxAt n k) :=
  (State.ctxAt_onCore _ rfl).trans (State.ctxAt_onCtx_same ..)

theorem accepted_gate (n k entry : Nat) (args : List W64) (sel : Sel) (s : State) :
    ((accepted n k entry args sel s).core n).gate = .closed :=
  congrArg Core.gate (State.core_onCore_same ..)

theorem launchOn_accepted {n k : Nat} (entry : Nat) (args : List W64) {sel : Sel} {s : State} (hd : isDead s n = false)
    (hres : (s.ctxAt n k).resident = false) (hreg : regionOk (s.core n) sel.region = true) :
    ∃ t, launchOn n k entry args sel s = some t ∧ LaunchedAt n k entry args t := by
  have hres' : (Tab.get Ctx.init (s.core n).ctxs k).resident = false := hres
  have hc : (isDead s n || (Tab.get Ctx.init (s.core n).ctxs k).resident || !regionOk (s.core n) sel.region) = false := by
    rw [hd, hres', hreg]
    rfl
  have hx := accepted_ctxAt n k entry args sel s
  have hg := accepted_gate n k entry args sel s
  have he : launchOn n k entry args sel s =
      if !(s.core n).active && (s.core n).boundary.isNone && (s.core n).halted.isNone then
        some (startCtx n k (accepted n k entry args sel s)) else some (accepted n k entry args sel s) := by
    unfold launchOn
    dsimp only
    rw [if_neg (ne_true_of_eq_false hc), accepted]
  generalize accepted n k entry args sel s = v at hx hg he
  rw [he]
  split
  · have hready : (v.ctxAt n k).state = .ready := by rw [hx]; rfl
    obtain ⟨hs, -⟩ := startCtx_ctxAt_of_ready hready
    refine ⟨_, rfl, ?_, ?_, ?_, ?_⟩
    · rw [hs]
      rfl
    · rw [hs, hx]
      rfl
    · rw [startCtx_core_of_ready hready]
      exact hg
    · rw [hs, hx]
      rfl
  · refine ⟨v, rfl, ?_, ?_, hg, ?_⟩
    all_goals
      rw [hx]
      rfl

theorem launchOn_launchable {n k entry : Nat} {args : List W64} {s : State} (h : Launchable n k s) :
    ∃ t, launchOn n k entry args (selOf (s.core n) k) s = some t ∧ LaunchedAt n k entry args t := by
  obtain ⟨hd, hres, hreg⟩ := h
  exact launchOn_accepted entry args hd hres hreg

section
variable {k entry : Nat} {args : List W64} (hk : k < 4)
include hk

/-- A launch leaves the cores that are not of its set. -/
theorem launchSet_other {l : List Nat} {s : State} {n : Nat} (hn : n ∉ l) : (launchSet k entry args l s).2.core n = s.core n := by
  induction l generalizing s with
  | nil => rfl
  | cons m l ih =>
    obtain ⟨hm, hl⟩ := List.ne_and_not_mem_of_not_mem_cons hn
    unfold launchSet
    split
    next t e => exact (ih hl).trans ((Own.launchOn (.refl s) (fun _ => hk) e).cores n hm)
    · exact ih hl

/-- A launch leaves each sequencer its registers. -/
theorem launchSet_signals (l : List Nat) (s : State) : Signals s (launchSet k entry args l s).2 := by
  induction l generalizing s with
  | nil => exact .refl s
  | cons m l ih =>
    unfold launchSet
    split
    next t e => exact (Signals.of_own (.refl s) (.launchOn (.refl s) (fun _ => hk) e)).trans (ih t)
    · exact ih s

/-- Where every core of a set takes the launch, every one is launched. -/
theorem launchSet_all {l : List Nat} {s : State} (hl : l.Nodup) (h : ∀ n ∈ l, Launchable n k s) :
    (launchSet k entry args l s).1 = true ∧ ∀ n ∈ l, LaunchedAt n k entry args (launchSet k entry args l s).2 := by
  induction l generalizing s with
  | nil => exact ⟨rfl, fun n hn => absurd hn List.not_mem_nil⟩
  | cons m l ih =>
    obtain ⟨hml, hl⟩ := List.nodup_cons.1 hl
    obtain ⟨t, e, hm⟩ := launchOn_launchable (entry := entry) (args := args) (h m List.mem_cons_self)
    have ht : Own m s t := .launchOn (.refl s) (fun _ => hk) e
    have hlt : ∀ n ∈ l, Launchable n k t := fun n hn =>
      (h n (List.mem_cons_of_mem _ hn)).of_own ht fun hnm => hml (hnm ▸ hn)
    obtain ⟨hok, hall⟩ := ih hl hlt
    have hs : launchSet k entry args (m :: l) s = launchSet k entry args l t := by
      rw [launchSet, e]
    rw [hs]
    refine ⟨hok, fun n hn => ?_⟩
    rcases List.mem_cons.1 hn with rfl | hn
    · exact hm.of_core (launchSet_other hk hml)
    · exact hall n hn

/-- One core that is dead or holds the context refuses, whatever the others do. -/
theorem launchSet_refused {l : List Nat} {s : State} (h : ∃ n ∈ l, isDead s n = true ∨ (s.ctxAt n k).resident = true) :
    (launchSet k entry args l s).1 = false := by
  induction l generalizing s with
  | nil =>
    obtain ⟨n, hn, -⟩ := h
    exact absurd hn List.not_mem_nil
  | cons m l ih =>
    obtain ⟨n, hn, hr⟩ := h
    unfold launchSet
    split
    next t e =>
      have ht : Own m s t := .launchOn (.refl s) (fun _ => hk) e
      have hnm : n ≠ m := by
        rintro rfl
        have hc : (isDead s n || (Tab.get Ctx.init (s.core n).ctxs k).resident ||
            !regionOk (s.core n) (selOf (s.core n) k).region) = true := by
          rcases hr with hr | hr
          · rw [hr]
            rfl
          · have hr : (Tab.get Ctx.init (s.core n).ctxs k).resident = true := hr
            rw [hr, Bool.or_true]
            rfl
        unfold launchOn at e
        dsimp only at e
        rw [if_pos hc] at e
        nomatch e
      have hx : t.ctxAt n k = s.ctxAt n k := by rw [State.ctxAt, ht.cores n hnm, State.ctxAt]
      refine ih ⟨n, (List.mem_cons.1 hn).resolve_left hnm, ?_⟩
      rw [isDead_of_own ht hnm, hx]
      exact hr
    · rfl

end

/-! CSTOP and CSWITCH on one core. -/

/-- A context that is stopped is EMPTY (R62, R90). -/
theorem stopCtx_empty (n k : Nat) (s : State) : ((stopCtx n k s).ctxAt n k).state = .empty := by
  have after (t : State) (h : (t.ctxAt n k).state = .empty) : ((relaxSplit (panelOf n) t).ctxAt n k).state = .empty := by
    rw [State.ctxAt, State.core, relaxSplit_cores]
    exact h
  unfold stopCtx
  extract_lets c running s₁ s₂ s₃ s₄ s₅ s₆ s₇
  have h₄ : (s₄.ctxAt n k).state = .empty := by
    rw [State.ctxAt_onCtx_same]
    rfl
  have h₆ : (s₆.ctxAt n k).state = .empty := by
    obtain ⟨undef, redef, wb, e⟩ := releaseArea_core n k s₄
    rw [State.ctxAt_onCore _ rfl, State.ctxAt, e]
    exact h₄
  have h₇ : (s₇.ctxAt n k).state = .empty := by
    rw [State.ctxAt_onCore _ rfl]
    exact h₆
  clear_value s₆ s₇
  split
  next h =>
    rw [Bool.not_eq_true'] at h
    have h : (s.ctxAt n k).resident = false := h
    simpa [Ctx.resident] using h
  · split
    · have hk := StartKeeps.afterStop (n := n) (j := k) (.refl s₇) (by rw [startable, h₇])
      obtain ⟨hs, -, -⟩ := hk.ctx
      exact after _ (hs.trans h₇)
    · exact after _ h₆

section
variable {n k : Nat} {s : State}

/-- A switch on a core that runs or stands at a boundary is pending. -/
theorem markSwitch_busy (h : (s.core n).active = true ∨ (s.core n).boundary.isSome = true) :
    (markSwitch n k s).core n = { s.core n with mark := some k } := by
  have hc : (!(s.core n).active && (s.core n).boundary.isNone) = false := by
    rcases h with h | h
    · rw [h]
      rfl
    · rw [Bool.and_eq_false_iff]
      exact .inr (by rw [← Option.not_isSome, h]; rfl)
  unfold markSwitch
  dsimp only
  rw [if_neg (ne_true_of_eq_false hc), State.core_onCore_same]

/-- On an idle core it is made at once where the context may run, else dropped. -/
theorem markSwitch_idle (ha : (s.core n).active = false) (hb : (s.core n).boundary = none) :
    markSwitch n k s = if startable (s.ctxAt n k) then startCtx n k s else s := by
  unfold markSwitch
  dsimp only
  rw [ha, hb]
  rfl

end

/-! The words. -/

theorem seqSet_of_legal {p : Nat} {legal : Bool} {a : BitVec 5} {f : List Nat → State → State} {s : State} {l : List Nat}
    (hl : legal = true) (h : coreSet p ((s.seq p).regs.getS a.toNat) = some l) : seqSet p legal a f s = f l s := by
  unfold seqSet
  rw [hl, h]
  rfl

/-- LAUNCH with legal fields. -/
theorem seqLaunch_of_legal {p : Nat} {i : CR} {s : State} {l : List Nat} (hd : i.d.toNat < 8) (hf : i.f.toNat < 4)
    (hl : coreSet p ((s.seq p).regs.getS i.a.toNat) = some l) {z : Bool × State}
    (hz : launchSet i.f.toNat (((s.seq p).regs.getS i.b.toNat).toNat % 2 ^ 20)
      [(s.seq p).regs.getS 1, (s.seq p).regs.getS 2, (s.seq p).regs.getS 3, (s.seq p).regs.getS 4] l s = z) :
    seqLaunch p i s = seqGo p (fun q => { q with regs := q.regs.setP i.d.toNat z.1 }) z.2 := by
  subst hz
  have h : (pReg i.d && decide (i.f.toNat < 4)) = true := by simp [pReg, hd, hf]
  unfold seqLaunch
  dsimp only
  rw [seqSet_of_legal h hl]
  rfl

section
variable {p : Nat} {i : CR} {s : State} {l : List Nat} (hd : i.d = 0) (hb : i.b = 0)
  (hl : coreSet p ((s.seq p).regs.getS i.a.toNat) = some l)
include hd hb hl

/-- CSWITCH, CSTOP and XWAKE with legal fields do one thing to each live core of their set. -/
theorem seqCswitch_of_legal (hf : i.f.toNat < 4) :
    seqCswitch p i s = seqGo p id (onLive (fun n => markSwitch n i.f.toNat) l s) := by
  have h : (i.d == 0 && i.b == 0 && decide (i.f.toNat < 4)) = true := by simp [hd, hb, hf]
  rw [seqCswitch, seqSet_of_legal h hl, onLive]

theorem seqCstop_of_legal (hf : i.f.toNat < 4) :
    seqCstop p i s = seqGo p id (onLive (fun n => stopCtx n i.f.toNat) l s) := by
  have h : (i.d == 0 && i.b == 0 && decide (i.f.toNat < 4)) = true := by simp [hd, hb, hf]
  rw [seqCstop, seqSet_of_legal h hl, onLive]

theorem seqXwake_of_legal (hf : i.f = 0) :
    seqXwake p i s = seqGo p id (onLive (fun n s => s.onCore n (fun c => { c with xwake := true })) l s) := by
  have h : (i.d == 0 && i.b == 0 && i.f == 0) = true := by simp [hd, hb, hf]
  rw [seqXwake, seqSet_of_legal h hl, onLive]

end

theorem seq_of_panels {s t : State} (h : t.panels = s.panels) (p : Nat) : t.seq p = s.seq p := by
  rw [State.seq, State.panel, h, State.seq, State.panel]

/-- What stays of a sequencer whose signals change. -/
theorem Seq.Signalled.stays {q r : Seq} (h : q.Signalled r) : r.regs = q.regs ∧ r.pc = q.pc ∧ r.loops = q.loops := by
  rw [h]
  exact ⟨rfl, rfl, rfl⟩

theorem Seq.Signalled.stepSeq_pc {q r : Seq} (h : q.Signalled r) : (stepSeq r).pc = (stepSeq q).pc := by
  obtain ⟨-, hpc, hloops⟩ := h.stays
  unfold stepSeq
  rw [hpc, hloops]

/-! The watchdog's reset (R65, R338). -/

/-- From `s` to `t` no reset has begun or ended and the sequencers are as they were. -/
structure Quiet (s t : State) : Prop where
  running : t.rst.running = s.rst.running
  seqs : ∀ p, t.seq p = s.seq p

namespace Quiet

variable {s₀ s : State} {α : Type}

theorem refl (s : State) : Quiet s s := ⟨rfl, fun _ => rfl⟩

theorem onPanel {p : Nat} {f : Panel → Panel} (h : Quiet s₀ s) (hf : ∀ P : Panel, (f P).seq = P.seq) : Quiet s₀ (s.onPanel p f) where
  running := h.running
  seqs r := by
    by_cases hr : r = p
    · subst hr
      rw [State.seq, State.panel_onPanel_same, hf]
      exact h.seqs r
    · rw [State.seq, State.panel_onPanel_other _ _ _ _ hr]
      exact h.seqs r

theorem onRst {f : ResetCtl → ResetCtl} (h : Quiet s₀ s) (hf : ∀ R : ResetCtl, (f R).running = R.running) : Quiet s₀ (s.onRst f) :=
  ⟨(hf _).trans h.running, h.seqs⟩

theorem foldl {f : State → α → State} {l : List α} (h : Quiet s₀ s) (hf : ∀ t x, Quiet s₀ t → Quiet s₀ (f t x)) :
    Quiet s₀ (l.foldl f s) := by
  induction l generalizing s with
  | nil => exact h
  | cons x l ih => exact ih (hf s x h)

theorem attend (h : Quiet s₀ s) : Quiet s₀ (attend s) := by
  unfold Machine.attend
  split
  · exact h
  · exact ⟨h.running, h.seqs⟩

theorem logErr {severity cls unit status d0 d1 : Nat} (h : Quiet s₀ s) : Quiet s₀ (logErr severity cls unit status d0 d1 s) := by
  have ha : Quiet s₀ (if severity = 2 then Machine.attend s else s) := by
    split
    · exact .attend h
    · exact h
  unfold Machine.logErr
  dsimp only
  split
  · exact ⟨ha.running, ha.seqs⟩
  · exact ⟨ha.running, ha.seqs⟩

theorem askWake {forced : Bool} {p : Nat} (h : Quiet s₀ s) : Quiet s₀ (askWake forced p s) := by
  unfold Machine.askWake
  dsimp only
  split
  · exact .onPanel h fun _ => rfl
  · exact h

theorem markCause {r : RunReset} (h : Quiet s₀ s) : Quiet s₀ (markCause r s) :=
  .foldl (.onRst h fun _ => rfl) fun _ _ h => .onPanel h fun _ => rfl

theorem recordReset {r : RunReset} (h : Quiet s₀ s) : Quiet s₀ (recordReset r s) := by
  unfold Machine.recordReset
  extract_lets s₁ s₂ unit
  have h₁ : Quiet s₀ s₁ := .onRst (.markCause h) fun _ => rfl
  have h₂ : Quiet s₀ s₂ := .foldl h₁ fun _ _ h => .onPanel h fun _ => rfl
  split
  · exact h₂
  · exact .logErr h₂

end Quiet

/-- A reset that begins while none runs is the one that runs; the sequencers are as they were. -/
theorem fireReset_first {source level target : Nat} {s : State} (h : s.rst.running = []) :
    (fireReset source level target false s).rst.running =
        [{ source := source, level := level, target := target, escalated := false, phase := .fired, since := s.now, at_ := s.now }] ∧
      ∀ p, (fireReset source level target false s).seq p = s.seq p := by
  unfold fireReset
  extract_lets R live r s' gone s₁ s₂ s₃ s₄
  have hR : R = [] := h
  have h₁ : s₁ = s := by
    unfold s₁
    rw [hR]
    rfl
  have h₂ : s₂ = s := by
    unfold s₂
    rw [hR, h₁]
    rfl
  have h₃ : s₃.rst.running = [r] ∧ ∀ p, s₃.seq p = s.seq p := by
    unfold s₃
    rw [h₂]
    refine ⟨?_, fun _ => rfl⟩
    show s.rst.running.filter _ ++ [r] = [r]
    rw [h]
    rfl
  have h₄ : Quiet s₃ s₄ := by
    unfold s₄
    split
    · exact .foldl (.refl s₃) fun _ _ => .askWake
    · exact .refl s₃
  have key {t : State} (ht : Quiet s₃ t) : t.rst.running = [r] ∧ ∀ p, t.seq p = s.seq p :=
    ⟨ht.running.trans h₃.1, fun p => (ht.seqs p).trans (h₃.2 p)⟩
  rw [hR]
  dsimp only [List.find?]
  split
  · exact key h₄
  · exact key (.recordReset h₄)

/-- Settles O18, word by word; a set by what is done to one core of it. -/
theorem sequencerOnlyWordsAndWatchdog : Obligations.SequencerOnlyWordsAndWatchdog := by
  refine ⟨fun p s i e l hp hr => ?words, fun p s hp => ⟨fun h1 h2 h3 h4 h5 h6 h7 => ?watchdog, fun k d hk hw ho he => ?sample⟩⟩
  case words =>
    dsimp only
    have word {c : Instr} {x : CIns} {t : State} (hc : exec c s = atC { agent := .seq p, w1 := 0, w2 := 0, w3 := 0 } x s)
        (hx : seqExec p x s = t) : exec c s = goes t := by rw [hc, atC_of_seq hp hr, hx]
    refine ⟨fun hl hd hf => ?launch, fun hl hd hf => ⟨fun h => ?all, fun h => ?refused⟩,
      fun hl hd hb hf => ⟨⟨?cswitch, ?marks⟩, ?cstop, ?stops⟩,
      fun hl hd hb hf => ?xwake, fun hd ha hb hf => ⟨?fset, ?fclr, ?fwait⟩, fun hd hf => ?barrier, fun hl hd hb hf => ?cwait,
      fun hd ha hb hf => ?stepEnd, fun hz hk => ?prest, fun k hb hf ho hk => ?stepBegin, fun hd hb hf => ?wdog⟩
    case launch => exact word rfl (seqLaunch_of_legal hd hf hl rfl)
    case all =>
      obtain ⟨hok, hall⟩ := launchSet_all (k := i.f.toNat) hf (coreSet_nodup hl) (s := s)
        (entry := ((s.seq p).regs.getS i.b.toNat).toNat % 2 ^ 20)
        (args := [(s.seq p).regs.getS 1, (s.seq p).regs.getS 2, (s.seq p).regs.getS 3, (s.seq p).regs.getS 4]) h
      have hsig := launchSet_signals (k := i.f.toNat) (entry := ((s.seq p).regs.getS i.b.toNat).toNat % 2 ^ 20)
        (args := [(s.seq p).regs.getS 1, (s.seq p).regs.getS 2, (s.seq p).regs.getS 3, (s.seq p).regs.getS 4]) hf l s
      have hx := seqLaunch_of_legal hd hf hl rfl
      obtain ⟨hregs, -, -⟩ := (hsig p).stays
      refine ⟨_, word rfl hx, ?_, fun n hn => ?_⟩
      · rw [seqGo, seq_onSeq_same, hok]
        exact congrArg (fun r => Regs.setP r i.d.toNat true) hregs
      · obtain ⟨hres, hpc, hgate, hargs⟩ := hall n hn
        refine ⟨hres, hpc.trans (Nat.mod_mod _ _), hgate, fun j h1 h4 => ?_⟩
        obtain ⟨g1, g2, g3, g4⟩ :=
          argRegs_getS ((s.seq p).regs.getS 1) ((s.seq p).regs.getS 2) ((s.seq p).regs.getS 3) ((s.seq p).regs.getS 4)
        refine (congrArg (fun r => Regs.getS r j) hargs).trans ?_
        obtain rfl | rfl | rfl | rfl : j = 1 ∨ j = 2 ∨ j = 3 ∨ j = 4 := by omega
        · exact g1
        · exact g2
        · exact g3
        · exact g4
    case refused =>
      have hno := launchSet_refused (k := i.f.toNat) (entry := ((s.seq p).regs.getS i.b.toNat).toNat % 2 ^ 20)
        (args := [(s.seq p).regs.getS 1, (s.seq p).regs.getS 2, (s.seq p).regs.getS 3, (s.seq p).regs.getS 4]) hf h
      have hsig := launchSet_signals (k := i.f.toNat) (entry := ((s.seq p).regs.getS i.b.toNat).toNat % 2 ^ 20)
        (args := [(s.seq p).regs.getS 1, (s.seq p).regs.getS 2, (s.seq p).regs.getS 3, (s.seq p).regs.getS 4]) hf l s
      obtain ⟨hregs, -, -⟩ := (hsig p).stays
      refine ⟨_, word rfl (seqLaunch_of_legal hd hf hl rfl), ?_⟩
      rw [seqGo, seq_onSeq_same, hno]
      exact congrArg (fun r => Regs.setP r i.d.toNat false) hregs
    case cswitch => exact word rfl (seqCswitch_of_legal hd hb hl hf)
    case marks =>
      have hown : ∀ n s, Own n s (markSwitch n i.f.toNat s) := fun n s => .markSwitch (.refl s) fun _ => hf
      have hseq := seq_of_panels (onLive_panels (fun n s => markSwitch_panels n i.f.toNat s) l s) p
      refine ⟨seqGo p id (onLive (fun n => markSwitch n i.f.toNat) l s), word rfl (seqCswitch_of_legal hd hb hl hf), ?_, fun n hn => ?_,
        fun n hn hdead => ?_⟩
      · rw [seqGo, seq_onSeq_same, hseq]
        rfl
      · exact onLive_other hown hn
      · obtain ⟨u, hu, he⟩ := onLive_live hown (coreSet_nodup hl) hn hdead
        have hx : u.ctxAt n i.f.toNat = s.ctxAt n i.f.toNat := by rw [State.ctxAt, hu, State.ctxAt]
        have ht : (seqGo p id (onLive (fun n => markSwitch n i.f.toNat) l s)).core n = (markSwitch n i.f.toNat u).core n := he
        refine ⟨fun h => ?_, fun ha hbd hs => ?_, fun ha hbd h1 h2 => ?_⟩
        · rw [ht, markSwitch_busy (hu ▸ h), hu]
        · have hready : (u.ctxAt n i.f.toNat).state = .ready := by rw [hx, hs]
          have hm : markSwitch n i.f.toNat u = startCtx n i.f.toNat u := by
            rw [markSwitch_idle (hu ▸ ha) (hu ▸ hbd), startable, hready]
            rfl
          rw [hm] at ht
          obtain ⟨hrun, -⟩ := startCtx_ctxAt_of_ready hready
          refine ⟨by rw [ht, startCtx_core_of_ready hready], by rw [ht, startCtx_core_of_ready hready]; rfl, ?_⟩
          rw [State.ctxAt, ht, ← State.ctxAt, hrun]
        · have hst : startable (u.ctxAt n i.f.toNat) = false := by
            rw [hx]
            unfold startable
            split
            next h => exact absurd h h1
            next h => exact absurd h h2
            · rfl
          rw [ht, markSwitch_idle (hu ▸ ha) (hu ▸ hbd), hst]
          exact hu
    case cstop => exact word rfl (seqCstop_of_legal hd hb hl hf)
    case stops =>
      have hown : ∀ n s, Own n s (stopCtx n i.f.toNat s) := fun n s => .stopCtx (.refl s) fun _ => hf
      have hsig := onLive_signals (l := l) hown s p
      obtain ⟨hregs, -, -⟩ := hsig.stays
      refine ⟨seqGo p id (onLive (fun n => stopCtx n i.f.toNat) l s), word rfl (seqCstop_of_legal hd hb hl hf), ?_, ?_, fun n hn => ?_,
        fun n hn hdead => ?_⟩
      · rw [seqGo, seq_onSeq_same]
        exact hsig.stepSeq_pc
      · rw [seqGo, seq_onSeq_same]
        exact hregs
      · exact onLive_other hown hn
      · obtain ⟨u, -, he⟩ := onLive_live hown (coreSet_nodup hl) hn hdead
        have ht : (seqGo p id (onLive (fun n => stopCtx n i.f.toNat) l s)).core n = (stopCtx n i.f.toNat u).core n := he
        rw [State.ctxAt, ht, ← State.ctxAt, stopCtx_empty]
    case xwake =>
      have hown : ∀ n (s : State), Own n s (s.onCore n (fun c => { c with xwake := true })) := fun n s =>
        .onCore (.refl s) fun _ => ⟨rfl, rfl⟩
      have hseq := seq_of_panels (onLive_panels (g := fun n s => s.onCore n (fun c => { c with xwake := true })) (fun _ _ => rfl) l s) p
      refine ⟨seqGo p id (onLive (fun n s => s.onCore n (fun c => { c with xwake := true })) l s),
        word rfl (seqXwake_of_legal hd hb hl hf), ?_, fun n => ?_⟩
      · rw [seqGo, seq_onSeq_same, hseq]
        rfl
      · split
        next h =>
          obtain ⟨u, hu, he⟩ := onLive_live hown (coreSet_nodup hl) h.1 h.2
          exact he.trans (by rw [State.core_onCore_same, hu])
        next h =>
          refine onLive_other hown ?_
          by_cases hn : n ∈ l
          · exact .inr (by simpa [hn] using h)
          · exact .inl hn
    case fset | fclr | fwait => exact word rfl (if_pos (by simp [hd, ha, hb, hf]))
    case barrier => exact word rfl (if_pos (by simp [hd, hf]))
    case cwait =>
      have h : (pReg i.d && i.b == 0 && decide (i.f.toNat < 4)) = true := by simp [pReg, hd, hb, hf]
      refine word rfl ?_
      show seqCwait p i s = _
      rw [seqCwait, seqSet_of_legal h hl]
      rfl
    case stepEnd => exact word rfl (if_pos (by simp [pReg, hd, ha, hb, hf]))
    case prest =>
      have hs : (seqExec p (.prest e) s).seq p = _ := seq_seqPrest hz hk
      refine ⟨_, word rfl rfl, ?_⟩
      rw [hs]
      exact ⟨rfl, rfl⟩
    case stepBegin =>
      have hx : seqExec p (.stepBegin i) s = (seqWait p (.stepBegin i.d.toNat) s).onJob k (fun J =>
          { J with begun := Tab.set J.begun p (((s.seq p).regs.getS i.a.toNat).toNat % 2 ^ 32) }) := by
        show seqStepBegin p i s = _
        unfold seqStepBegin
        rw [if_neg (by simp [hb, hf]), if_neg (ne_true_of_eq_false ho)]
        dsimp only
        rw [show partOf (seqWait p (.stepBegin i.d.toNat) s) p = some k from hk]
      have hs := seq_seqWait (p := p) (s := s) (.stepBegin i.d.toNat)
      refine ⟨_, word rfl hx, congrArg Seq.state hs, congrArg Seq.wait hs, ?_⟩
      rw [State.job, State.onJob, State.part_onPart_same]
      exact Tab.get_set_same _ _ _ _
    case wdog =>
      refine ⟨_, word rfl (if_pos (by simp [hd, hb, hf])), ?_⟩
      rw [seqGo, seq_onSeq_same]
      exact ⟨rfl, rfl, rfl, rfl⟩
  case watchdog =>
    have hn : ((coresHeld s p).any fun n => (s.core n).halted.isSome) = false :=
      List.any_eq_false.2 fun n hn => by rw [h4 n hn]; nofun
    have hx : watchdogExpire p s = fireReset 4 (raisedTarget s (levelOf s 4) p).1 (raisedTarget s (levelOf s 4) p).2 false
        (s.onSeq p (fun q => { q with wdRun := false })) := by
      unfold watchdogExpire
      dsimp only
      rw [if_pos (by rw [h1, h2, h3, hn, h5, decide_eq_true h6]; rfl)]
    obtain ⟨hrun, hseq⟩ := fireReset_first (source := 4) (level := (raisedTarget s (levelOf s 4) p).1)
      (target := (raisedTarget s (levelOf s 4) p).2) (s := s.onSeq p (fun q => { q with wdRun := false })) h7
    refine ⟨_, (congrArg Host.Outcome.next (if_pos hp)).trans (congrArg _ hx), ?_, hrun⟩
    rw [hseq, seq_onSeq_same]
  case sample =>
    have hx : flagSample p s = s.onJob k (fun J => { J with ended := Tab.set J.ended p true, sample := J.sample || panelFlag s p }) := by
      unfold flagSample
      rw [hk, hw]
      dsimp only
      rw [if_pos (by rw [ho, he]; rfl)]
    refine ⟨_, (congrArg Host.Outcome.next (if_pos hp)).trans (congrArg _ hx), ?_, ?_, rfl⟩
    · rw [State.job, State.onJob, State.part_onPart_same]
      exact Tab.get_set_same _ _ _ _
    · rw [State.job, State.onJob, State.part_onPart_same]
      rfl

end Sys2Proof.Machine

end

section
/-! SUPPORT. The rest and the wake of a panel (R64, R302 to R306). -/

namespace Sys2Proof.Machine

open Sys2Proof

/-! What the work of a panel's cores leaves of the panel. -/

/-- The panel that the rest and wake of panel `p` find in `t` has the power, wake, counters, stack and costs that it has in `s`. -/
structure PanelKeeps (p : Nat) (s t : State) : Prop where
  power : (t.panel p).power = (s.panel p).power
  wake : (t.panel p).wake = (s.panel p).wake
  wakes : (t.panel p).wakes = (s.panel p).wakes
  stack : (t.panel p).stack = (s.panel p).stack
  costs : (t.panel p).costs = (s.panel p).costs

namespace PanelKeeps

variable {p : Nat} {s₀ s t : State} {α : Type}

theorem refl (s : State) : PanelKeeps p s s := ⟨rfl, rfl, rfl, rfl, rfl⟩

theorem trans (h : PanelKeeps p s₀ s) (k : PanelKeeps p s t) : PanelKeeps p s₀ t :=
  ⟨k.power.trans h.power, k.wake.trans h.wake, k.wakes.trans h.wakes, k.stack.trans h.stack, k.costs.trans h.costs⟩

theorem of_own {n : Nat} (h : Own n s t) : PanelKeeps p s t := by
  obtain ⟨q, H, e, -⟩ := h.panels p
  exact ⟨by rw [e], by rw [e], by rw [e], by rw [e], by rw [e]⟩

theorem foldl {f : State → α → State} {l : List α} (h : PanelKeeps p s₀ s) (hf : ∀ t x, PanelKeeps p t (f t x)) :
    PanelKeeps p s₀ (l.foldl f s) := by
  induction l generalizing s with
  | nil => exact h
  | cons x l ih => exact ih (h.trans (hf s x))

/-- A panel changes, but for these. -/
theorem onPanel {q : Nat} {f : Panel → Panel} (hf : ∀ P : Panel, (f P).power = P.power ∧ (f P).wake = P.wake ∧
    (f P).wakes = P.wakes ∧ (f P).stack = P.stack ∧ (f P).costs = P.costs) : PanelKeeps p s (s.onPanel q f) := by
  by_cases h : p = q
  · subst h
    obtain ⟨h1, h2, h3, h4, h5⟩ := hf (s.panel p)
    have e := State.panel_onPanel_same s p f
    exact ⟨by rw [e, h1], by rw [e, h2], by rw [e, h3], by rw [e, h4], by rw [e, h5]⟩
  · have e := State.panel_onPanel_other s q p f h
    exact ⟨by rw [e], by rw [e], by rw [e], by rw [e], by rw [e]⟩

end PanelKeeps

theorem Seq.Signalled.rests {q r : Seq} (h : q.Signalled r) : r.state = q.state ∧ r.prest = q.prest := by
  rw [h]
  exact ⟨rfl, rfl⟩

/-! The entry of a panel into its rest (R64, R302). -/

theorem own_suspendCore (n : Nat) (s : State) : Own n s (suspendCore n s) := by
  unfold suspendCore
  exact .foldl (.refl s) fun _ _ => .suspendLists

theorem own_sleepCore (n : Nat) (s : State) : Own n s (sleepCore n s) := by
  unfold sleepCore
  exact .onCore (.ite (.saveArea (.onCtx (.writeGroups (.refl s))) fun hc => hc.1) (.refl s)) fun _ => ⟨rfl, rfl⟩

/-- A panel that enters NAP or SLEEP: its power, its stack's power, its sequencer as it was. -/
theorem enterRest_facts (p : Nat) (st : PPower) (s : State) :
    ((enterRest p st s).panel p).power = st ∧
      ((enterRest p st s).stack p).power = (if st = .sleep then .selfRefresh else .powerDown) ∧
      ((enterRest p st s).seq p).state = (s.seq p).state ∧ ((enterRest p st s).seq p).prest = (s.seq p).prest := by
  unfold enterRest
  extract_lets held s₁ s₂
  have h₁ : Signals s s₁ := .foldl (.refl s) fun t n h => h.of_own (own_suspendCore n t)
  have h₂ : Signals s s₂ := by
    unfold s₂
    split
    · exact .foldl h₁ fun t n h => h.of_own (own_sleepCore n t)
    · exact h₁
  obtain ⟨hstate, hprest⟩ := ((h₂ p).trans (Seq.signalled_pauseWd s₂.now _)).rests
  rw [State.stack, State.seq, State.panel_onPanel_same]
  exact ⟨rfl, rfl, hstate, hprest⟩

section
variable {p : Nat} {s : State} {r : PrestRec}

/-- The choice of PREST where SLEEP, NAP or neither fits. -/
theorem restChoice_sleep (h1 : ceilingOf s p = 3) (h2 : r.saveOk = true) (h3 : wcost s p 3 + beven p 3 ≤ r.horizon) :
    restChoice s p r = .sleep := if_pos ⟨h1, h2, h3⟩

theorem restChoice_nap (h : ceilingOf s p = 2 ∨ (ceilingOf s p = 3 ∧ (r.saveOk = false ∨ r.horizon < wcost s p 3 + beven p 3)))
    (hn : wcost s p 2 + beven p 2 ≤ r.horizon) : restChoice s p r = .nap := by
  have h3 : ¬ (ceilingOf s p = 3 ∧ r.saveOk = true ∧ wcost s p 3 + beven p 3 ≤ r.horizon) := by
    rintro ⟨hc, hs, hw⟩
    rcases h with h | ⟨-, h | h⟩
    · omega
    · exact absurd (hs.symm.trans h) nofun
    · omega
  have h2 : 2 ≤ ceilingOf s p ∧ wcost s p 2 + beven p 2 ≤ r.horizon := ⟨by omega, hn⟩
  exact (if_neg h3).trans (if_pos h2)

theorem restChoice_active (h : ceilingOf s p < 2 ∨ (r.horizon < wcost s p 2 + beven p 2 ∧ r.horizon < wcost s p 3 + beven p 3)) :
    restChoice s p r = .active := by
  have h3 : ¬ (ceilingOf s p = 3 ∧ r.saveOk = true ∧ wcost s p 3 + beven p 3 ≤ r.horizon) := by
    rintro ⟨hc, -, hw⟩
    omega
  have h2 : ¬ (2 ≤ ceilingOf s p ∧ wcost s p 2 + beven p 2 ≤ r.horizon) := by omega
  exact (if_neg h3).trans (if_neg h2)

variable (hq : (s.seq p).state = .prest) (hw : (s.seq p).prest = some r) (hn : r.since = none)
  (hr : panelRuns (s.panel p) = true) (hh : hangHolds s p = false)
include hq hw hn hr hh

theorem panelRestEntry_eq :
    panelRestEntry p s =
      if !(coresHeld s p).all (coreAtRest s) then s
      else if prestEvent s p { r with since := some s.now } then prestDone p r s
      else if restChoice s p r = .active then s.onSeq p (fun q => { q with prest := some { r with since := some s.now } })
      else if !(coresHeld s p).all (fun n => (s.core n).outst.isEmpty) || (decide (restChoice s p r = .sleep) &&
          !(coresHeld s p).all (fun n => (s.core n).m0.queue.isEmpty && (s.core n).m1.queue.isEmpty)) then s
      else enterRest p (restChoice s p r)
        (s.onSeq p (fun q => { q with prest := some { r with since := some s.now, resting := true } })) := by
  unfold panelRestEntry
  dsimp only
  rw [hq, hw]
  dsimp only
  rw [hn, hr, hh]
  rfl

/-- A panel whose cores rest and whose choice is not ACTIVE enters it, its requests answered and, for SLEEP, no drain queued. -/
theorem panelRestEntry_enters (hc : ∀ n ∈ coresHeld s p, coreAtRest s n = true)
    (he : prestEvent s p { r with since := some s.now } = false) (ha : restChoice s p r ≠ .active)
    (ho : ∀ n ∈ coresHeld s p, (s.core n).outst = [])
    (hd : restChoice s p r = .sleep → ∀ n ∈ coresHeld s p, (s.core n).m0.queue = [] ∧ (s.core n).m1.queue = []) :
    panelRestEntry p s = enterRest p (restChoice s p r)
      (s.onSeq p (fun q => { q with prest := some { r with since := some s.now, resting := true } })) := by
  have h1 : (coresHeld s p).all (coreAtRest s) = true := List.all_eq_true.2 hc
  have h2 : (coresHeld s p).all (fun n => (s.core n).outst.isEmpty) = true :=
    List.all_eq_true.2 fun n hn => List.isEmpty_iff.2 (ho n hn)
  have h3 : (decide (restChoice s p r = .sleep) &&
      !(coresHeld s p).all (fun n => (s.core n).m0.queue.isEmpty && (s.core n).m1.queue.isEmpty)) = false := by
    by_cases hs : restChoice s p r = .sleep
    · have hall : (coresHeld s p).all (fun n => (s.core n).m0.queue.isEmpty && (s.core n).m1.queue.isEmpty) = true :=
        List.all_eq_true.2 fun n hn => by
          obtain ⟨h0, h1⟩ := hd hs n hn
          rw [h0, h1]
          rfl
      rw [hall, Bool.not_true, Bool.and_false]
    · rw [decide_eq_false hs, Bool.false_and]
  rw [panelRestEntry_eq hq hw hn hr hh, h1, he, if_neg (by decide), if_neg (by decide), if_neg ha, h2, h3, if_neg (by decide)]

end

/-! The wake of a panel (R303 to R306). -/

theorem own_restoreRest (n : Nat) (s : State) : Own n s (restoreRest n s) := by
  unfold restoreRest
  exact .ite (.restoreArea (.refl s) fun hc => hc.1) (.refl s)

theorem panelKeeps_obeyBound (p q : Nat) (s : State) : PanelKeeps p s (obeyBound q s) := by
  unfold obeyBound
  dsimp only
  split
  · exact .onPanel fun _ => ⟨rfl, rfl, rfl, rfl, rfl⟩
  · exact .refl s

theorem panelKeeps_prestDone (p q : Nat) (r : PrestRec) (s : State) : PanelKeeps p s (prestDone q r s) := by
  unfold prestDone seqResume State.onSeq
  exact .onPanel fun _ => ⟨rfl, rfl, rfl, rfl, rfl⟩

/-- The panel as its wake begins to count: ACTIVE, the round trip learned. -/
def risen (p : Nat) (forced : Bool) (s : State) : State :=
  let P := s.panel p
  let v := learn p (if P.power = .nap then 2 else 3) ((freshNat s).1 % 2 ^ 20) ((P.wake.bind (·.horizon)).or P.restHorizon) (!forced)
    (freshNat s).2
  v.onPanel p (fun P' =>
    { P' with
      power := .active, wake := none, wakes := inc 16 P'.wakes, hang := P'.hang.fresh, probed := 0, missed := []
      firstUse := P'.firstUse.map (fun t => v.now - t)
      seq := { (P'.seq.resumeWd v.now (P.seq.busy && !inHold v p)) with prest := P'.seq.prest.map (fun r => { r with resting := false }) }
      stack := { P'.stack with power := wakePower v p, lastUse := v.now } })

/-- What a wake does after that leaves them as they are. -/
theorem wakeDone_keeps (p : Nat) (forced : Bool) (s : State) : PanelKeeps p (risen p forced s) (wakeDone p forced s) := by
  unfold wakeDone
  extract_lets P from_ hor
  split
  rename_i f v₀ hf
  obtain rfl : (freshNat s).1 = f := congrArg Prod.fst hf
  obtain rfl : (freshNat s).2 = v₀ := congrArg Prod.snd hf
  extract_lets m v run pw u held u₁ u₂
  have h₁ : PanelKeeps p u u₁ := by
    unfold u₁
    split
    · exact .foldl (.refl u) fun t n => .of_own (own_restoreRest n t)
    · exact .foldl (.refl u) fun t n => .of_own (.reloadLists (.refl t))
  have h₂ : PanelKeeps p (risen p forced s) u₂ := h₁.trans (panelKeeps_obeyBound p p u₁)
  clear_value u₂
  split
  · split
    · exact h₂.trans (panelKeeps_prestDone p p _ u₂)
    · exact h₂
  · exact h₂

section
variable {p : Nat} {s : State}

theorem wcost_of_costs {s t : State} {p : Nat} (h : (t.panel p).costs = (s.panel p).costs) (j : Nat) : wcost t p j = wcost s p j := by
  unfold wcost
  rw [h]

theorem wcost_of_set {t : State} {T : Tab Nat} {j v : Nat} (h : (t.panel p).costs = Tab.set T j v) : wcost t p j = v := by
  unfold wcost
  rw [h, Tab.get_set_same]

/-- The panel that a round trip is learned for: its costs, and nothing else that its wake looks at. -/
theorem panel_learn (p j m : Nat) (h : Option Nat) (upd : Bool) (s : State) :
    ((learn p j m h upd s).panel p).wakes = (s.panel p).wakes ∧
      ((learn p j m h upd s).panel p).costs = (if upd then Tab.set (s.panel p).costs j
        (if wcost s p j ≤ m then min m (2 ^ 20 - 1) else wcost s p j - (wcost s p j - m) / 8) else (s.panel p).costs) ∧
      (learn p j m h upd s).parts = s.parts := by
  unfold learn
  dsimp only
  rw [State.panel_onPanel_same]
  exact ⟨rfl, rfl, rfl⟩

theorem wakePower_of_parts {s t : State} (h : t.parts = s.parts) (p : Nat) : wakePower t p = wakePower s p := by
  have hp : partOf t p = partOf s p := by
    unfold partOf State.part
    rw [h]
  unfold wakePower State.part
  rw [hp, h]

/-- A panel that wakes is ACTIVE, with its stack, one wake more and its round trip learned unless it was forced. -/
theorem wakeDone_facts (p : Nat) (forced : Bool) (s : State) :
    let t := wakeDone p forced s
    let j := if (s.panel p).power = .nap then 2 else 3
    (t.panel p).power = .active ∧ (t.panel p).wake = none ∧ (t.panel p).wakes = min 65535 ((s.panel p).wakes + 1) ∧
      (t.stack p).power = wakePower s p ∧
      (forced = false → ∃ m, m < 2 ^ 20 ∧ wcost t p j = if wcost s p j ≤ m then m else wcost s p j - (wcost s p j - m) / 8) ∧
      (forced = true → wcost t p j = wcost s p j) := by
  intro t j
  obtain ⟨hpow, hwake, hwakes, hstack, hcosts⟩ := wakeDone_keeps p forced s
  have hw := wcost_of_costs hcosts j
  obtain ⟨lwakes, lcosts, lparts⟩ := panel_learn p j ((freshNat s).1 % 2 ^ 20)
    (((s.panel p).wake.bind (·.horizon)).or (s.panel p).restHorizon) (!forced) (freshNat s).2
  have lpow := wakePower_of_parts lparts p
  have hrise : (risen p forced s).panel p = _ := State.panel_onPanel_same _ p _
  refine ⟨hpow.trans (congrArg Panel.power hrise), hwake.trans (congrArg Panel.wake hrise), ?_, ?_, ?_, ?_⟩
  · rw [hwakes]
    exact (congrArg Panel.wakes hrise).trans ((congrArg (inc 16) lwakes).trans (inc_eq_min 16 _))
  · unfold State.stack
    rw [hstack, hrise]
    exact lpow
  · intro hf
    refine ⟨(freshNat s).1 % 2 ^ 20, Nat.mod_lt _ (by decide), hw.trans ?_⟩
    have hm : (freshNat s).1 % 2 ^ 20 < 2 ^ 20 := Nat.mod_lt _ (by decide)
    have hc := (congrArg Panel.costs hrise).trans (lcosts.trans (if_pos (by rw [hf]; rfl)))
    have hmin : min ((freshNat s).1 % 2 ^ 20) (2 ^ 20 - 1) = (freshNat s).1 % 2 ^ 20 := by omega
    rw [wcost_of_set hc, hmin]
    rfl
  · intro hf
    exact hw.trans (wcost_of_costs ((congrArg Panel.costs hrise).trans (lcosts.trans (if_neg (by rw [hf]; decide)))) j)

/-! Whether a wake starts or waits (R306). -/

theorem takeNew_some (h : firstFits s = false) (hu : unitsInUse s + wakeUnits (s.panel p).power ≤ 16) :
    ∃ f, takeNew p s = some (s.onPower f) := by
  unfold takeNew takeUnits
  rw [h, if_neg (by decide)]
  exact ⟨_, if_neg (by omega)⟩

theorem takeNew_none (h : firstFits s = true ∨ 16 < unitsInUse s + wakeUnits (s.panel p).power) : takeNew p s = none := by
  unfold takeNew takeUnits
  rcases h with h | h
  · exact if_pos h
  · split
    · rfl
    · exact if_pos h

/-- A wake that starts, or is deferred. -/
def wakeOrDefer (p : Nat) (forced : Bool) (s : State) : State :=
  match takeNew p s with
  | some s => wakeDone p forced s
  | none => deferWake p forced s

variable {forced : Bool}

theorem panelWake_eq (hp : (s.panel p).power = .nap ∨ (s.panel p).power = .sleep) (hl : (s.panel p).lost = false)
    (hs : (s.panel p).shorted = false)
    (hw : (∃ w, (s.panel p).wake = some w ∧ w.deferred = false ∧ w.forced = forced) ∨
      ((s.panel p).wake = none ∧ restCalls s p = true ∧ forced = false)) :
    panelWake p s = wakeOrDefer p forced s := by
  have hr : ((decide ((s.panel p).power = .nap) || decide ((s.panel p).power = .sleep)) && !(s.panel p).lost &&
      !(s.panel p).shorted) = true := by
    rw [hl, hs]
    rcases hp with h | h <;> rw [h] <;> rfl
  unfold panelWake
  dsimp only
  rw [hr]
  rcases hw with ⟨w, hw, hd, rfl⟩ | ⟨hw, hc, rfl⟩
  · rw [hw]
    dsimp only
    rw [hd]
    rfl
  · rw [hw]
    dsimp only
    rw [hc]
    rfl

theorem panelWake_active (h : (s.panel p).power = .active) : panelWake p s = s := by
  unfold panelWake
  dsimp only
  rw [h]
  cases (s.panel p).wake <;> rfl

/-- A wake that must wait: counted with its panel and the module, behind those that wait. -/
theorem deferWake_facts (p : Nat) (forced : Bool) (s : State) :
    ((deferWake p forced s).panel p).power = (s.panel p).power ∧
      ((deferWake p forced s).panel p).deferred = min 255 ((s.panel p).deferred + 1) ∧
      (deferWake p forced s).power.deferred = s.power.deferred ++ [p] ∧
      (deferWake p forced s).power.inrushDeferred = min 65535 (s.power.inrushDeferred + 1) ∧ (deferWake p forced s).mem = s.mem := by
  unfold deferWake
  dsimp only
  rw [State.panel_onPower_apart, State.panel_onPanel_same]
  exact ⟨rfl, inc_eq_min 8 _, rfl, inc_eq_min 16 _, rfl⟩

end

/-- Settles O35. -/
theorem panelsRestAndWake : Obligations.PanelsRestAndWake := by
  intro p s hp P
  have hentry : exec (.panelRestEntry p) s = goes (panelRestEntry p s) := congrArg Host.Outcome.next (if_pos hp)
  have hwake : exec (.panelWake p) s = goes (closeEnds (panelWake p s)) := congrArg Host.Outcome.next (if_pos hp)
  refine ⟨fun r hq hr hn hruns hh => ?_, fun forced hpow hl hs hw => ?_, fun h => ?_⟩
  · have heq := hentry.trans (congrArg goes (panelRestEntry_eq hq hr hn hruns hh))
    have henter := fun hc he ha ho hd => hentry.trans (congrArg goes (panelRestEntry_enters hq hr hn hruns hh hc he ha ho hd))
    refine ⟨fun hc he => ⟨fun ha => ?_, fun hceil hfit ho => ?_, fun hceil hsave hfit ho => ?_,
      fun hceil => restChoice_active (.inl hceil), fun h2 h3 => restChoice_active (.inr ⟨h2, h3⟩)⟩, fun hc he => ?_, ?_⟩
    · have hall : (coresHeld s p).all (coreAtRest s) = true := List.all_eq_true.2 hc
      rw [heq, hall, he, if_neg (by decide), if_neg (by decide), if_pos ha]
    · have hnap := restChoice_nap hceil hfit
      have h := henter hc he (by rw [hnap]; decide) ho (fun hsl => absurd (hnap.symm.trans hsl) nofun)
      rw [hnap] at h
      obtain ⟨hpower, hstack, hstate, hprest⟩ := enterRest_facts p .nap
        (s.onSeq p (fun q => { q with prest := some { r with since := some s.now, resting := true } }))
      have e := State.panel_onPanel_same s p fun P =>
        { P with seq := { P.seq with prest := some { r with since := some s.now, resting := true } } }
      refine ⟨_, h, hpower, hstack, hstate.trans ?_, (congrArg _ hprest).trans ?_⟩
      · exact (congrArg (fun P => P.seq.state) e).trans hq
      · exact congrArg (fun P => P.seq.prest.map PrestRec.resting) e
    · have hsl := restChoice_sleep hceil hsave hfit
      have h := henter hc he (by rw [hsl]; decide) (fun n hn => (ho n hn).1) (fun _ n hn => (ho n hn).2)
      rw [hsl] at h
      obtain ⟨hpower, hstack, -, -⟩ := enterRest_facts p .sleep
        (s.onSeq p (fun q => { q with prest := some { r with since := some s.now, resting := true } }))
      exact ⟨_, h, hpower, hstack⟩
    · have hall : (coresHeld s p).all (coreAtRest s) = true := List.all_eq_true.2 hc
      rw [heq, hall, he, if_neg (by decide), if_pos rfl]
    · rintro ⟨n, hn', hnr⟩
      have hall : (coresHeld s p).all (coreAtRest s) = false := List.all_eq_false.2 ⟨n, hn', ne_true_of_eq_false hnr⟩
      rw [heq, hall]
      rfl
  · rw [hwake, panelWake_eq hpow hl hs hw]
    refine ⟨fun hf hu => ?_, fun hf => ?_⟩
    · obtain ⟨f, hf⟩ := takeNew_some hf hu
      have e : wakeOrDefer p forced s = wakeDone p forced (s.onPower f) := by
        unfold wakeOrDefer
        rw [hf]
      exact ⟨_, congrArg (fun t => goes (closeEnds t)) e, wakeDone_facts p forced (s.onPower f)⟩
    · have e : wakeOrDefer p forced s = deferWake p forced s := by
        unfold wakeOrDefer
        rw [takeNew_none hf]
      exact ⟨_, congrArg (fun t => goes (closeEnds t)) e, deferWake_facts p forced s⟩
  · rw [hwake, panelWake_active h]

end Sys2Proof.Machine

end

section
/-! SUPPORT. The command window (R278 to R281): a command that R280 lets through, and what the work of cores, panels and records leaves
of its answer. -/

namespace Sys2Proof.Machine

open Sys2Proof

/-! One after another. -/

theorem foldl_fix {α β : Type} (F : State → β) {f : State → α → State} {l : List α} (hf : ∀ t, ∀ x ∈ l, F (f t x) = F t) (s : State) :
    F (l.foldl f s) = F s := by
  induction l generalizing s with
  | nil => rfl
  | cons x l ih => exact (ih (fun t y hy => hf t y (List.mem_cons_of_mem _ hy)) _).trans (hf s x List.mem_cons_self)

/-- What one step of a fold brings about, and no step undoes, holds after it. -/
theorem foldl_brings {α : Type} {I P : State → Prop} {f : State → α → State} {l : List α} {x : α} (hx : x ∈ l)
    (hI : ∀ t y, I t → I (f t y)) (hP : ∀ t, I t → P (f t x)) (hf : ∀ t y, P t → P (f t y)) {s : State} (hs : I s) :
    P (l.foldl f s) := by
  induction l generalizing s with
  | nil => exact absurd hx List.not_mem_nil
  | cons y l ih =>
    rcases List.mem_cons.1 hx with rfl | hx
    · refine List.foldlRecOn l f (hP s hs) fun t ht z _ => hf t z ht
    · exact ih hx (hI s y hs)

/-! The answer of the window. -/

/-- The host's side but for its messages: the window and its answer among it. -/
def hostAnswer (s : State) : HostIf := { s.host with msixPending := false, msixSent := 0 }

theorem answer_of_host {s t : State}
    (h : { t.host with msixPending := s.host.msixPending, msixSent := s.host.msixSent } = s.host) : hostAnswer t = hostAnswer s :=
  congrArg (fun H : HostIf => { H with msixPending := false, msixSent := 0 }) h

theorem answer_of_own {n : Nat} {s t : State} (h : Own n s t) : hostAnswer t = hostAnswer s := answer_of_host (congrArg State.host h.others)

theorem answer_of_recOnly {s t : State} (h : RecOnly s t) : hostAnswer t = hostAnswer s := answer_of_host (congrArg State.host h.others)

/-- A command as it stands in the window. -/
def taken (op : Nat) (q : Cmd) (s : State) : State := latch op q (writeArgs q s)

/-- A command has ended with its code, opcode and tag in the answer. -/
def Answered (op code : Nat) (q : Cmd) (t : State) : Prop :=
  t.host.win = none ∧ t.host.code = code ∧ t.host.opcode = op ∧ t.host.tag = q.tag.toNat

theorem Answered.winEnd {op code : Nat} {q : Cmd} {s u : State} {res : List Nat} (h : hostAnswer u = hostAnswer (taken op q s)) :
    Answered op code q (winEnd code res u) :=
  ⟨rfl, rfl, (congrArg HostIf.opcode h :), (congrArg HostIf.tag h :)⟩

theorem Answered.of_answer {op code : Nat} {q : Cmd} {t u : State} (h : Answered op code q t) (e : hostAnswer u = hostAnswer t) :
    Answered op code q u := by
  obtain ⟨hw, hc, ho, ht⟩ := h
  exact ⟨(congrArg HostIf.win e :).trans hw, (congrArg HostIf.code e :).trans hc, (congrArg HostIf.opcode e :).trans ho,
    (congrArg HostIf.tag e :).trans ht⟩

/-! The checks of R280. -/

theorem runCmd_runs {op : Nat} {q : Cmd} {r : State → Rules} {body : State → State} {s : State} (hp : pcieUp s = true)
    (hw : s.host.win = none) (hc : cmdCode op (r (taken op q s)) (taken op q s) = 0) :
    runCmd op q r body s = body (taken op q s) := by
  have hw' : (writeArgs q s).host.win.isSome = false := congrArg Option.isSome hw
  unfold runCmd
  rw [hp, if_neg (by decide)]
  dsimp only
  rw [hw', if_neg (by decide)]
  exact if_neg fun h => h hc

theorem stateAllows_ready {s : State} {op : Nat} (h : s.mstate = .ready) (ho : op ≠ 0x71) : stateAllows s op = true := by
  unfold stateAllows
  rw [h]
  exact bne_iff_ne.2 ho

/-- A command on a partition with an OPEN session passes once its arguments are legal and its own conditions hold. -/
theorem cmdCode_zero {op n : Nat} {r : Rules} {s : State} (hs : s.mstate = .ready) (ho : op ≠ 0x71) (hb : r.bad = false)
    (hp : r.part = some n) (hc : (s.part n).cmd = none) (hx : (s.part n).session = .opened) (hd : r.denied = false)
    (hown : r.own = 0) : cmdCode op r s = 0 := by
  unfold cmdCode
  rw [hp, hb, stateAllows_ready hs ho, hd, hown]
  dsimp only
  rw [hc, hx]
  cases r.session <;> rfl

theorem resWords_getD {l : List Nat} {i : Nat} (h : i < 8) : (resWords l).getD i 0 = BitVec.ofNat 64 (l.getD i 0) := by
  unfold resWords
  rw [List.getD_eq_getElem?_getD, List.getElem?_map, List.getElem?_range h]
  rfl

/-- A rectangle inside its defined partition is legal. -/
theorem rectBad_of_in {s : State} {n v : Nat} {r : Rect} (h : rectOf v = some r) (hi : rectIn (s.part n) r = true) :
    rectBad s n v = false := by
  unfold rectBad
  rw [h]
  dsimp only
  rw [hi, Bool.not_true, Bool.and_false]

/-- A rectangle names each core once. -/
theorem Rect.cores_nodup {v : Nat} {r : Rect} (h : rectOf v = some r) : r.cores.Nodup := by
  unfold rectOf at h
  dsimp only at h
  split at h
  · nomatch h
  next hb =>
    cases h
    simp only [Bool.or_eq_true, decide_eq_true_eq, not_or] at hb
    obtain ⟨⟨⟨⟨-, hx⟩, -⟩, hW⟩, -⟩ := hb
    unfold gridW at hW
    unfold Rect.cores
    dsimp only at hx hW ⊢
    generalize fld v 7 0 = x0, fld v 15 8 = y0, fld v 23 16 = x1, fld v 31 24 = y1 at hx hW ⊢
    have hspan (i : Nat) (hi : i ∈ span x0 (x1 + 1 - x0)) : i < 184 := by
      have := mem_span_le hi
      omega
    refine List.nodup_flatMap.2 ⟨fun y _ => ?_, (span_nodup _ _).imp fun {y y'} hy => ?_⟩
    · refine (List.nodup_map_iff_inj_on (span_nodup _ _)).2 fun i hi j hj e => ?_
      unfold coreAt at e
      omega
    · intro n hn hn'
      obtain ⟨i, hi, rfl⟩ := List.mem_map.1 hn
      obtain ⟨j, hj, e⟩ := List.mem_map.1 hn'
      have := hspan i hi
      have := hspan j hj
      unfold coreAt at e
      omega

/-! Panels whose sites stay. -/

/-- From `s` to `t` each panel has at most another sequencer, hub or wake. -/
def SameSites (s t : State) : Prop := ∀ p, ∃ q H w, t.panel p = { s.panel p with seq := q, hub := H, wake := w }

namespace SameSites

variable {s₀ s t : State} {α : Type}

theorem refl (s : State) : SameSites s s := fun _ => ⟨_, _, _, rfl⟩

theorem trans {u : State} (h : SameSites s t) (k : SameSites t u) : SameSites s u := fun p => by
  obtain ⟨q, H, w, e⟩ := h p
  obtain ⟨q', H', w', e'⟩ := k p
  exact ⟨q', H', w', by rw [e', e]⟩

theorem of_panels (e : t.panels = s.panels) : SameSites s t := fun p =>
  ⟨_, _, _, (congrArg (fun T => Tab.get Panel.init T p) e).trans rfl⟩

theorem of_own {n : Nat} (h : Own n s t) : SameSites s t := fun p => by
  obtain ⟨q, H, e, -⟩ := h.panels p
  exact ⟨q, H, _, e⟩

theorem onPanel {p : Nat} {f : Panel → Panel} (hf : ∀ P, ∃ q H w, f P = { P with seq := q, hub := H, wake := w }) :
    SameSites s (s.onPanel p f) := fun r => by
  by_cases hr : r = p
  · subst hr
    rw [State.panel_onPanel_same]
    exact hf _
  · rw [State.panel_onPanel_other _ _ _ _ hr]
    exact ⟨_, _, _, rfl⟩

theorem foldl {f : State → α → State} {l : List α} (hf : ∀ t x, SameSites t (f t x)) (s : State) : SameSites s (l.foldl f s) := by
  induction l generalizing s with
  | nil => exact .refl s
  | cons x l ih => exact (hf s x).trans (ih _)

theorem panelRuns (h : SameSites s t) (p : Nat) : panelRuns (t.panel p) = panelRuns (s.panel p) := by
  obtain ⟨q, H, w, e⟩ := h p
  rw [e]
  rfl

theorem lost (h : SameSites s t) (p : Nat) : (t.panel p).lost = (s.panel p).lost := by
  obtain ⟨q, H, w, e⟩ := h p
  rw [e]

theorem isDead (h : SameSites s t) {n : Nat} (hc : (t.core n).power = (s.core n).power) : isDead t n = isDead s n := by
  obtain ⟨q, H, w, e⟩ := h (panelOf n)
  unfold Machine.isDead isHole siteIdx
  rw [e, hc]
  rfl

end SameSites

end Sys2Proof.Machine

end

section
/-! SUPPORT. Host commands on the cores of a rectangle (R52, R143, R282): the launch, the stop and the zeroizing of core after core. -/

namespace Sys2Proof.Machine

open Sys2Proof

/-! CONTEXT_LAUNCH. -/

/-- Core `n` takes a launch of context `k` by the host with a code region. -/
structure HostLaunchable (n k : Nat) (sel : Sel) (s : State) : Prop where
  runs : panelRuns (s.panel (panelOf n)) = true
  live : isDead s n = false
  free : (s.ctxAt n k).resident = false
  region : regionOk (s.core n) sel.region = true

theorem HostLaunchable.of_same {n k : Nat} {sel : Sel} {s t : State} (h : HostLaunchable n k sel s) (hp : SameSites s t)
    (hc : t.core n = s.core n) : HostLaunchable n k sel t where
  runs := (hp.panelRuns _).trans h.runs
  live := (hp.isDead (congrArg Core.power hc)).trans h.live
  free := by
    rw [State.ctxAt, hc]
    exact h.free
  region := by
    rw [hc]
    exact h.region

theorem lost_of_panelRuns {P : Panel} (h : panelRuns P = true) : P.lost = false := by
  unfold panelRuns at h
  cases hl : P.lost
  · rfl
  · rw [hl] at h
    simp at h

theorem isHole_of_live {s : State} {n : Nat} (h : isDead s n = false) : isHole s n = false := by
  unfold isDead at h
  cases hh : isHole s n
  · rfl
  · rw [hh] at h
    simp at h

section
variable {k entry : Nat} {sel : Sel} {args : List W64}

/-- What no single launch changes, the launch of a list does not. -/
theorem launchHost_fix {β : Type} (F : State → β) (hF : ∀ n t u, launchOn n k entry args sel t = some u → F u = F t) (l : List Nat)
    (acc : Nat × Nat) (s : State) : F (launchHost k entry sel args l acc s).2 = F s := by
  induction l generalizing acc s with
  | nil => rfl
  | cons n l ih =>
    unfold launchHost
    split
    · exact ih ..
    · split
      · exact ih ..
      · split
        next t e => exact (ih ..).trans (hF n s t e)
        · exact ih ..

variable (hk : k < 4)
include hk

theorem launchHost_other {l : List Nat} {acc : Nat × Nat} {s : State} {n : Nat} (hn : n ∉ l) :
    (launchHost k entry sel args l acc s).2.core n = s.core n := by
  induction l generalizing acc s with
  | nil => rfl
  | cons m l ih =>
    obtain ⟨hm, hl⟩ := List.ne_and_not_mem_of_not_mem_cons hn
    unfold launchHost
    split
    · exact ih hl
    · split
      · exact ih hl
      · split
        next t e => exact (ih hl).trans ((Own.launchOn (.refl s) (fun _ => hk) e).cores n hm)
        · exact ih hl

/-- Where every core takes the launch, every one is launched and counted. -/
theorem launchHost_all {l : List Nat} {a b : Nat} {s : State} (hl : l.Nodup) (h : ∀ n ∈ l, HostLaunchable n k sel s) :
    (launchHost k entry sel args l (a, b) s).1 = (a + l.length, b) ∧
      ∀ n ∈ l, LaunchedAt n k entry args (launchHost k entry sel args l (a, b) s).2 := by
  induction l generalizing a s with
  | nil => exact ⟨rfl, fun n hn => absurd hn List.not_mem_nil⟩
  | cons m l ih =>
    obtain ⟨hml, hl⟩ := List.nodup_cons.1 hl
    obtain ⟨hruns, hlive, hfree, hreg⟩ := h m List.mem_cons_self
    obtain ⟨t, e, hm⟩ := launchOn_accepted entry args hlive hfree hreg
    have ht : Own m s t := .launchOn (.refl s) (fun _ => hk) e
    obtain ⟨hcount, hall⟩ := ih (a := a + 1) (s := t) hl fun n hn =>
      (h n (List.mem_cons_of_mem _ hn)).of_same (.of_own ht) (ht.cores n fun hnm => hml (hnm ▸ hn))
    have hs : launchHost k entry sel args (m :: l) (a, b) s = launchHost k entry sel args l (a + 1, b) t := by
      rw [launchHost, isHole_of_live hlive, lost_of_panelRuns hruns, hruns, e]
      rfl
    rw [hs]
    refine ⟨hcount.trans ?_, fun n hn => ?_⟩
    · rw [List.length_cons]
      congr 1
      omega
    · rcases List.mem_cons.1 hn with rfl | hn
      · exact hm.of_core (launchHost_other hk hml)
      · exact hall n hn

end

/-! The split of a hub (R16, R166). -/

theorem sameSites_setSplit (p : Nat) (v : Split) (s : State) : SameSites s (setSplit p v s) := .onPanel fun _ => ⟨_, _, _, rfl⟩

/-- A hub's split stays, or is set. -/
theorem relaxSplit_eq (p : Nat) (s : State) : relaxSplit p s = s ∨ relaxSplit p s = setSplit p Split.basic s := by
  unfold relaxSplit
  dsimp only
  split
  · exact .inr rfl
  · exact .inl rfl

/-! The start and the halt of sequencers (R60, R65). -/

theorem startSeq_seq (p entry : Nat) (s : State) :
    ((startSeq p entry s).seq p).state = .running ∧ ((startSeq p entry s).seq p).pc = entry % 65536 := by
  unfold startSeq
  dsimp only
  rw [seq_onSeq_same]
  exact ⟨rfl, rfl⟩

theorem seq_onSeq_other {p q : Nat} (h : q ≠ p) (f : Seq → Seq) (s : State) : (s.onSeq p f).seq q = s.seq q := by
  rw [State.seq, State.onSeq, State.panel_onPanel_other _ _ _ _ h, State.seq]

theorem unarrive_eq (p : Nat) (s : State) : ∃ P, unarrive p s = { s with parts := P } := by
  unfold unarrive
  split
  · exact ⟨_, rfl⟩
  · exact ⟨_, rfl⟩

/-- A sequencer that a host command halts. -/
def Seq.haltedAt (now : Nat) (q : Seq) : Seq := { (q.pauseWd now) with state := .halted, wait := none, prest := none }

theorem haltSeq_eq (p : Nat) (s : State) : ∃ P, haltSeq p s = { s.onSeq p (Seq.haltedAt s.now) with parts := P } := unarrive_eq ..

theorem haltSeq_panels (p : Nat) (s : State) : (haltSeq p s).panels = (s.onSeq p (Seq.haltedAt s.now)).panels := by
  obtain ⟨P, e⟩ := haltSeq_eq p s
  rw [e]

theorem haltSeq_halted (p : Nat) (s : State) : ((haltSeq p s).seq p).state = .halted := by
  rw [seq_of_panels (haltSeq_panels p s), seq_onSeq_same]
  rfl

/-- The halt of another sequencer leaves a halted one halted. -/
theorem haltSeq_keeps {p : Nat} (q : Nat) {s : State} (h : (s.seq p).state = .halted) : ((haltSeq q s).seq p).state = .halted := by
  by_cases hp : p = q
  · subst hp
    exact haltSeq_halted p s
  · rw [seq_of_panels (haltSeq_panels q s), seq_onSeq_other hp]
    exact h

/-! CONTEXT_STOP. -/

/-- From `s` to `t` each core has the contexts that it had, and is dead or live as it was. -/
def SameCtxs (s t : State) : Prop := ∀ n, (t.core n).ctxs = (s.core n).ctxs ∧ isDead t n = isDead s n

namespace SameCtxs

variable {s t : State} {α : Type}

theorem refl (s : State) : SameCtxs s s := fun _ => ⟨rfl, rfl⟩

theorem trans {u : State} (h : SameCtxs s t) (k : SameCtxs t u) : SameCtxs s u := fun n =>
  ⟨(k n).1.trans (h n).1, (k n).2.trans (h n).2⟩

theorem foldl {f : State → α → State} {l : List α} (hf : ∀ t x, SameCtxs t (f t x)) (s : State) : SameCtxs s (l.foldl f s) := by
  induction l generalizing s with
  | nil => exact .refl s
  | cons x l ih => exact (hf s x).trans (ih _)

theorem of_cores (hp : SameSites s t) (hc : t.cores = s.cores) : SameCtxs s t := fun n => by
  have e : t.core n = s.core n := by rw [State.core, hc, State.core]
  exact ⟨congrArg Core.ctxs e, hp.isDead (congrArg Core.power e)⟩

theorem onCore {m : Nat} {f : Core → Core} (hf : ∀ c, (f c).ctxs = c.ctxs ∧ (f c).power = c.power) :
    SameCtxs s (s.onCore m f) := fun n => by
  have hp : SameSites s (s.onCore m f) := .of_panels rfl
  by_cases h : n = m
  · subst h
    obtain ⟨hx, hw⟩ := hf (s.core n)
    have e := State.core_onCore_same s n f
    exact ⟨(congrArg Core.ctxs e).trans hx, hp.isDead ((congrArg Core.power e).trans hw)⟩
  · have e := State.core_onCore_other s m n f h
    exact ⟨congrArg Core.ctxs e, hp.isDead (congrArg Core.power e)⟩

theorem ctxAt (h : SameCtxs s t) (n k : Nat) : t.ctxAt n k = s.ctxAt n k := by
  rw [State.ctxAt, (h n).1, State.ctxAt]

end SameCtxs

theorem askWake_sites (forced : Bool) (p : Nat) (s : State) : SameSites s (askWake forced p s) := by
  unfold askWake
  dsimp only
  split
  · exact .onPanel fun _ => ⟨_, _, _, rfl⟩
  · exact .refl s

theorem askWake_fix {β : Type} (F : State → β) (hF : ∀ s p f, F (s.onPanel p f) = F s) (forced : Bool) (p : Nat) (s : State) :
    F (askWake forced p s) = F s := by
  unfold askWake
  dsimp only
  split
  · exact hF ..
  · rfl

/-- The wake of a partition changes wakes of panels and rests of cores. -/
theorem wakeFor_fix {β : Type} (F : State → β) (hP : ∀ s p f, F (s.onPanel p f) = F s) (hC : ∀ s n f, F (s.onCore n f) = F s)
    (k : Nat) (s : State) : F (wakeFor k s) = F s := by
  unfold wakeFor
  refine foldl_fix F (fun t p _ => ?_) s
  exact (foldl_fix F (fun u n _ => hC ..) _).trans (askWake_fix F hP ..)

theorem wakeFor_sites (k : Nat) (s : State) : SameSites s (wakeFor k s) := by
  unfold wakeFor
  refine .foldl (fun t p => (askWake_sites true p t).trans ?_) s
  refine .of_panels (foldl_fix State.panels (fun u n _ => ?_) _)
  rfl

theorem wakeFor_ctxs (k : Nat) (s : State) : SameCtxs s (wakeFor k s) := by
  unfold wakeFor
  refine .foldl (fun t p => ?_) s
  refine (SameCtxs.of_cores (askWake_sites true p t) (askWake_fix State.cores (fun _ _ _ => rfl) ..)).trans ?_
  refine .foldl (fun u n => .onCore fun c => ?_) _
  split
  · exact ⟨rfl, rfl⟩
  · exact ⟨rfl, rfl⟩

theorem haltSeq_ctxs (p : Nat) (s : State) : SameCtxs s (haltSeq p s) := by
  obtain ⟨P, e⟩ := haltSeq_eq p s
  rw [e]
  refine .of_cores ?_ rfl
  exact (SameSites.onPanel fun P => ⟨_, _, _, rfl⟩).trans (.of_panels rfl)

section
variable {k : Nat} (hk : k < 4)
include hk

theorem stopHost_signals (l : List Nat) (c : Nat) (s : State) : Signals s (stopHost k l c s).2 := by
  induction l generalizing c s with
  | nil => exact .refl s
  | cons n l ih =>
    unfold stopHost
    split
    · exact (Signals.of_own (.refl s) (.stopCtx (.refl s) fun _ => hk)).trans (ih _ _)
    · exact ih _ _

theorem stopHost_answer (l : List Nat) (c : Nat) (s : State) : hostAnswer (stopHost k l c s).2 = hostAnswer s := by
  induction l generalizing c s with
  | nil => rfl
  | cons n l ih =>
    unfold stopHost
    split
    · exact (ih ..).trans (answer_of_own (.stopCtx (.refl s) fun _ => hk))
    · exact ih ..

theorem stopHost_other {l : List Nat} {c : Nat} {s : State} {n : Nat} (hn : n ∉ l) : (stopHost k l c s).2.core n = s.core n := by
  induction l generalizing c s with
  | nil => rfl
  | cons m l ih =>
    obtain ⟨hm, hl⟩ := List.ne_and_not_mem_of_not_mem_cons hn
    unfold stopHost
    split
    · exact (ih hl).trans ((Own.stopCtx (.refl s) fun _ => hk).cores n hm)
    · exact ih hl

/-- Core `n` is live and holds context `k`. -/
def holdsCtx (k : Nat) (s : State) (n : Nat) : Bool := !isDead s n && (s.ctxAt n k).resident

/-- Every live core of a list is left without the context, and those that held it are counted. -/
theorem stopHost_all {l : List Nat} {c : Nat} {s : State} (hl : l.Nodup) :
    (stopHost k l c s).1 = c + (l.filter (holdsCtx k s)).length ∧
      ∀ n ∈ l, isDead s n = false → ((stopHost k l c s).2.ctxAt n k).resident = false := by
  induction l generalizing c s with
  | nil => exact ⟨rfl, fun n hn => absurd hn List.not_mem_nil⟩
  | cons m l ih =>
    obtain ⟨hml, hl⟩ := List.nodup_cons.1 hl
    by_cases hm : holdsCtx k s m = true
    · have ho : Own m s (stopCtx m k s) := .stopCtx (.refl s) fun _ => hk
      have hs : stopHost k (m :: l) c s = stopHost k l (c + 1) (stopCtx m k s) := by
        rw [stopHost]
        exact if_pos hm
      have hother : ∀ n ∈ l, isDead (stopCtx m k s) n = isDead s n ∧ (stopCtx m k s).ctxAt n k = s.ctxAt n k := fun n hn => by
        have hnm : n ≠ m := fun h => hml (h ▸ hn)
        exact ⟨isDead_of_own ho hnm, by rw [State.ctxAt, ho.cores n hnm, State.ctxAt]⟩
      have hf : l.filter (holdsCtx k (stopCtx m k s)) = l.filter (holdsCtx k s) := List.filter_congr fun n hn => by
        obtain ⟨hd, hx⟩ := hother n hn
        rw [holdsCtx, hd, hx, holdsCtx]
      obtain ⟨hcount, hall⟩ := ih (c := c + 1) (s := stopCtx m k s) hl
      rw [hs]
      refine ⟨?_, fun n hn hd => ?_⟩
      · rw [hcount, hf, List.filter_cons_of_pos hm, List.length_cons]
        omega
      · rcases List.mem_cons.1 hn with rfl | hn
        · rw [State.ctxAt, stopHost_other hk hml, Ctx.resident, ← State.ctxAt, stopCtx_empty]
          rfl
        · exact hall n hn ((hother n hn).1.trans hd)
    · have hs : stopHost k (m :: l) c s = stopHost k l c s := by
        rw [stopHost]
        exact if_neg hm
      obtain ⟨hcount, hall⟩ := ih (c := c) (s := s) hl
      rw [hs]
      refine ⟨?_, fun n hn hd => ?_⟩
      · rw [hcount, List.filter_cons_of_neg hm]
      · rcases List.mem_cons.1 hn with rfl | hn
        · rw [State.ctxAt, stopHost_other hk hml, ← State.ctxAt]
          rw [holdsCtx, hd, Bool.not_false, Bool.true_and] at hm
          exact Bool.eq_false_of_not_eq_true hm
        · exact hall n hn hd

end

/-! ZEROIZE (R143). -/

theorem memGet_delRange_inside {m : List Host.Cell} {lo len a : Nat} (h : lo ≤ a) (h' : a < lo + len) :
    memGet (Tab.delRange m lo len) a = 0 :=
  Tab.get_filter_drop _ _ _ _ (by simp [h, h'])

/-- A byte that reads 0 reads 0 after any range is deleted. -/
theorem memGet_delRange_zero {m : List Host.Cell} {lo len a : Nat} (h : memGet m a = 0) : memGet (Tab.delRange m lo len) a = 0 := by
  by_cases hin : lo ≤ a ∧ a < lo + len
  · exact memGet_delRange_inside hin.1 hin.2
  · rw [memGet_delRange_other (by omega), h]

theorem zeroizeCores_zero {l : List Nat} {n o : Nat} (hn : n ∈ l) (ho : o < spdSize) (s : State) :
    memGet (l.foldl (fun s m => zeroizeCore m s) s).mem (spdKey n o) = 0 := by
  refine foldl_brings (I := fun _ => True) (P := fun t => memGet t.mem (spdKey n o) = 0) hn (fun _ _ _ => trivial)
    (fun t _ => ?_) (fun t m h => ?_) trivial
  · have e : spdKey n o = spdKey n 0 + o := by rw [spdKey, spdKey, Nat.add_zero]
    exact memGet_delRange_inside (by omega) (by omega)
  · exact memGet_delRange_zero h

end Sys2Proof.Machine

end

section
/-! SUPPORT. CONTEXT_LAUNCH of a rectangle (R52, R282). -/

namespace Sys2Proof.Machine

open Sys2Proof

/-! CONTEXT_LAUNCH (R282). -/

/-- What CONTEXT_LAUNCH does to the rectangle that it names. -/
def launchRect (q : Cmd) (r : Rect) (s : State) : State :=
  let a := argN q 0
  let n := fld a 1 0
  let sp := splitOf (argN q 3)
  let live := r.panels.filter (fun p => !(s.panel p).lost)
  let s := live.foldl (fun s p => if panelBusy s p then s else setSplit p sp s) s
  let sel : Sel := { mode := BitVec.ofNat 4 (fld a 15 12), region := fld a 11 8 }
  let ((ok, no), s) := launchHost (fld a 5 4) (argN q 2) sel ((argsOf q).drop 4) r.cores (0, 0) s
  let s := live.foldl (fun s p => relaxSplit p s) s
  let s := if a.testBit 16 then live.foldl (fun s p => startSeq p (s.part n).seqEntry s) s else s
  winEnd 0 [ok, no] s

section
variable {q : Cmd} {s : State} {r : Rect} (hp : pcieUp s = true) (hw : s.host.win = none) (hs : s.mstate = .ready)
  (hc : (s.part (fld q.a0.toNat 1 0)).cmd = none) (hx : (s.part (fld q.a0.toNat 1 0)).session = .opened)
  (hr : rectOf q.a1.toNat = some r) (hin : rectIn (s.part (fld q.a0.toNat 1 0)) r = true)
include hp hw hs hc hx hr hin

theorem cmdLaunch_eq (h0 : strays q.a0.toNat 0x1FF33 = false) (h2 : strays q.a2.toNat 0xFFFFF = false) (h3 : q.a3 = 0)
    (hpan : ∀ p ∈ r.panels, (s.panel p).hub.split = Split.basic ∧ (s.panel p).hub.next = none ∧
      (q.a0.toNat.testBit 16 = true → (s.seq p).startable = true)) :
    cmdLaunch q s = launchRect q r (taken 0x21 q s) := by
  have h3 : argN q 3 = 0 := congrArg BitVec.toNat h3
  have hbad : (strays (argN q 0) 0x1FF33 || rectBad (taken 0x21 q s) (fld (argN q 0) 1 0) (argN q 1) || strays (argN q 2) 0xFFFFF ||
      splitBad (argN q 3)) = false := by
    have e0 : strays (argN q 0) 0x1FF33 = false := h0
    have e2 : strays (argN q 2) 0xFFFFF = false := h2
    have e1 : rectBad (taken 0x21 q s) (fld (argN q 0) 1 0) (argN q 1) = false := rectBad_of_in hr hin
    rw [e0, e1, e2, h3]
    rfl
  have hsplit : (r.panels.filter (fun p => !(s.panel p).lost)).any (fun p => panelBusy (taken 0x21 q s) p &&
      decide (((s.panel p).hub.next.getD (s.panel p).hub.split) ≠ splitOf (argN q 3))) = false := by
    refine List.any_eq_false.2 fun p hpm => ?_
    obtain ⟨hbasic, hnext, -⟩ := hpan p (List.mem_of_mem_filter hpm)
    have e : ((s.panel p).hub.next.getD (s.panel p).hub.split) = splitOf (argN q 3) := by
      rw [hnext, hbasic, h3]
      rfl
    rw [decide_eq_false (not_not_intro e), Bool.and_false]
    decide
  have hstart : ((argN q 0).testBit 16 && (r.panels.filter (fun p => !(s.panel p).lost)).any (fun p => !(s.seq p).startable)) = false := by
    by_cases hb : (argN q 0).testBit 16 = true
    · rw [hb, Bool.true_and]
      refine List.any_eq_false.2 fun p hpm => ?_
      obtain ⟨-, -, hst⟩ := hpan p (List.mem_of_mem_filter hpm)
      rw [hst hb]
      decide
    · rw [Bool.eq_false_of_not_eq_true hb, Bool.false_and]
  have hr' : rectOf (argN q 1) = some r := hr
  unfold cmdLaunch
  refine (runCmd_runs hp hw (cmdCode_zero hs (by decide) hbad rfl hc hx rfl ?_)).trans ?_
  · dsimp only
    rw [hr']
    exact (if_neg (ne_true_of_eq_false hsplit)).trans (if_neg (ne_true_of_eq_false hstart))
  · dsimp only
    rw [hr']
    rfl

end

/-- The launch of a rectangle whose cores take it. -/
theorem launchRect_facts {q : Cmd} {s : State} {r : Rect} (hn : r.cores.Nodup)
    (hcores : ∀ n ∈ r.cores, HostLaunchable n (fld q.a0.toNat 5 4)
      { mode := BitVec.ofNat 4 (fld q.a0.toNat 15 12), region := fld q.a0.toNat 11 8 } s) :
    ∃ u, launchRect q r s = winEnd 0 [r.cores.length, 0] u ∧ hostAnswer u = hostAnswer s ∧
      (∀ n ∈ r.cores, LaunchedAt n (fld q.a0.toNat 5 4) q.a2.toNat ((argsOf q).drop 4) u) ∧
      (q.a0.toNat.testBit 16 = true → ∀ p ∈ r.panels, (s.panel p).lost = false →
        (u.seq p).state = .running ∧ (u.seq p).pc = (s.part (fld q.a0.toNat 1 0)).seqEntry % 65536) := by
  have hk : fld q.a0.toNat 5 4 < 4 := Nat.mod_lt _ (by decide)
  unfold launchRect
  extract_lets a n sp live s₁ sel
  have hsites : SameSites s s₁ := .foldl (fun t p => by
    split
    · exact .refl t
    · exact sameSites_setSplit p sp t) s
  have hsplit {β : Type} (F : State → β) (hF : ∀ s p f, F (s.onPanel p f) = F s) : F s₁ = F s := foldl_fix F (fun t p _ => by
    split
    · rfl
    · exact hF ..) s
  have hcores₁ : s₁.cores = s.cores := hsplit State.cores fun _ _ _ => rfl
  obtain ⟨hcount, hall⟩ := launchHost_all (entry := argN q 2) (args := (argsOf q).drop 4) hk (a := 0) (b := 0) hn fun n hn =>
    (hcores n hn).of_same hsites (by rw [State.core, hcores₁, State.core])
  have hown {β : Type} (F : State → β) (hF : ∀ n t u, Own n t u → F u = F t) :
      F (launchHost (fld a 5 4) (argN q 2) sel ((argsOf q).drop 4) r.cores (0, 0) s₁).2 = F s₁ :=
    launchHost_fix F (fun n t u e => hF n t u (.launchOn (.refl t) (fun _ => hk) e)) ..
  have hans₂ := hown hostAnswer fun n t u => answer_of_own
  have hparts₂ := hown State.parts fun n t u h => (congrArg State.parts h.others :)
  have hz : launchHost (fld a 5 4) (argN q 2) sel ((argsOf q).drop 4) r.cores (0, 0) s₁ =
    ((0 + r.cores.length, 0), (launchHost (fld a 5 4) (argN q 2) sel ((argsOf q).drop 4) r.cores (0, 0) s₁).2) :=
    Prod.ext hcount rfl
  have hall : ∀ n ∈ r.cores, LaunchedAt n (fld a 5 4) (argN q 2) ((argsOf q).drop 4)
    (launchHost (fld a 5 4) (argN q 2) sel ((argsOf q).drop 4) r.cores (0, 0) s₁).2 := hall
  generalize (launchHost (fld a 5 4) (argN q 2) sel ((argsOf q).drop 4) r.cores (0, 0) s₁).2 = s₂ at hz hall hans₂ hparts₂
  rw [hz]
  dsimp only
  rw [Nat.zero_add]
  have hrelax {β : Type} (F : State → β) (hF : ∀ s p f, F (s.onPanel p f) = F s) :
      F (live.foldl (fun s p => relaxSplit p s) s₂) = F s₂ := foldl_fix F (fun t p _ => by
    rcases relaxSplit_eq p t with e | e
    · rw [e]
    · rw [e]
      exact hF ..) s₂
  have hcores₃ := hrelax State.cores fun _ _ _ => rfl
  have hparts₃ := (hrelax State.parts fun _ _ _ => rfl).trans (hparts₂.trans (hsplit State.parts fun _ _ _ => rfl))
  have hans₃ := (hrelax hostAnswer fun _ _ _ => rfl).trans (hans₂.trans (hsplit hostAnswer fun _ _ _ => rfl))
  generalize live.foldl (fun s p => relaxSplit p s) s₂ = s₃ at hcores₃ hparts₃ hans₃
  have hstart {β : Type} (F : State → β) (hF : ∀ s p f, F (s.onSeq p f) = F s) :
      F (if a.testBit 16 then live.foldl (fun s p => startSeq p (s.part n).seqEntry s) s₃ else s₃) = F s₃ := by
    split
    · refine foldl_fix F (fun t p _ => ?_) s₃
      unfold startSeq
      exact hF ..
    · rfl
  refine ⟨_, rfl, (hstart hostAnswer fun _ _ _ => rfl).trans hans₃, fun m hm => (hall m hm).of_core ?_, fun hb p hpm hl => ?_⟩
  · rw [State.core, (hstart State.cores fun _ _ _ => rfl).trans hcores₃, State.core]
  · have hb' : a.testBit 16 = true := hb
    rw [hb', if_pos rfl]
    have hlive : p ∈ live := List.mem_filter.2 ⟨hpm, by rw [hl]; rfl⟩
    have hset (t : State) (y : Nat) (h : t.parts = s.parts) : (startSeq y (t.part n).seqEntry t).parts = s.parts ∧
        ((startSeq y (t.part n).seqEntry t).seq y).state = .running ∧
        ((startSeq y (t.part n).seqEntry t).seq y).pc = (s.part n).seqEntry % 65536 := by
      have e : (t.part n).seqEntry = (s.part n).seqEntry := by rw [State.part, h, State.part]
      rw [← e]
      exact ⟨h, startSeq_seq ..⟩
    refine (foldl_brings (f := fun s p => startSeq p (s.part n).seqEntry s) (I := fun t => t.parts = s.parts)
      (P := fun t => t.parts = s.parts ∧ (t.seq p).state = .running ∧ (t.seq p).pc = (s.part n).seqEntry % 65536) hlive
      (fun t y h => h) (fun t h => hset t p h) (fun t y h => ?_) hparts₃).2
    obtain ⟨hparts, hstate, hpc⟩ := h
    by_cases hy : p = y
    · subst hy
      exact hset t p hparts
    · have e : (startSeq y (t.part n).seqEntry t).seq p = t.seq p := seq_onSeq_other hy ..
      rw [e]
      exact ⟨hparts, hstate, hpc⟩

end Sys2Proof.Machine

end

section
/-! SUPPORT. CONTEXT_STOP, ZEROIZE and BIND_OFF as the window takes them (R282). -/

namespace Sys2Proof.Machine

open Sys2Proof

/-! CONTEXT_STOP and ZEROIZE (R282). -/

theorem Tab.get_of_not_listed {α : Type} (d : α) {t : Tab α} {k : Nat} (h : t.any (fun e => e.1 == k) = false) :
    Tab.get d t k = d := by
  induction t with
  | nil => rfl
  | cons e t ih =>
    rw [List.any_cons, Bool.or_eq_false_iff] at h
    obtain ⟨hne, ht⟩ := h
    exact (if_neg (ne_of_beq_false hne)).trans (ih ht)

/-- What CONTEXT_STOP does to the rectangle that it names. -/
def stopRect (q : Cmd) (r : Rect) (s : State) : State :=
  let a := argN q 0
  let s := wakeFor (fld a 1 0) s
  let s := if a.testBit 8 then (r.panels.filter (fun p => !(s.panel p).lost)).foldl (fun s p => haltSeq p s) s else s
  let (c, s) := stopHost (fld a 5 4) (r.cores.filter (fun m => s.cores.any (fun e => e.1 == m))) 0 s
  winEnd 0 [c] s

/-- The sequencers of a list halt: their panels, the cores' contexts and the answer stay. -/
theorem haltSeqs_facts (l : List Nat) (s : State) :
    SameCtxs s (l.foldl (fun s p => haltSeq p s) s) ∧ hostAnswer (l.foldl (fun s p => haltSeq p s) s) = hostAnswer s ∧
      ∀ p ∈ l, ((l.foldl (fun s p => haltSeq p s) s).seq p).state = .halted := by
  refine ⟨.foldl (fun t p => haltSeq_ctxs p t) s, foldl_fix hostAnswer (fun t p _ => ?_) s, fun p hp => ?_⟩
  · obtain ⟨P, e⟩ := haltSeq_eq p t
    rw [e]
    rfl
  · exact foldl_brings (f := fun s p => haltSeq p s) (I := fun _ => True) (P := fun t => (t.seq p).state = .halted) hp
      (fun _ _ _ => trivial) (fun t _ => haltSeq_halted p t) (fun t y h => haltSeq_keeps y h) trivial

/-- A stopped rectangle: its live cores without the context, those that held it counted, its sequencers halted where told to. -/
theorem stopRect_facts {q : Cmd} {s : State} {r : Rect} (hn : r.cores.Nodup) :
    ∃ u, stopRect q r s = winEnd 0 [(r.cores.filter (holdsCtx (fld q.a0.toNat 5 4) s)).length] u ∧ hostAnswer u = hostAnswer s ∧
      (∀ n ∈ r.cores, isDead s n = false → (u.ctxAt n (fld q.a0.toNat 5 4)).resident = false) ∧
      (q.a0.toNat.testBit 8 = true → ∀ p ∈ r.panels, (s.panel p).lost = false → (u.seq p).state = .halted) := by
  unfold stopRect
  extract_lets a s₁ s₂
  have hk : fld a 5 4 < 4 := Nat.mod_lt _ (by decide)
  have hx₁ : SameCtxs s s₁ := wakeFor_ctxs (fld a 1 0) s
  have ha₁ : hostAnswer s₁ = hostAnswer s := wakeFor_fix hostAnswer (fun _ _ _ => rfl) (fun _ _ _ => rfl) ..
  have hl₁ (p : Nat) : (s₁.panel p).lost = (s.panel p).lost := (wakeFor_sites (fld a 1 0) s).lost p
  have h₂ : SameCtxs s₁ s₂ ∧ hostAnswer s₂ = hostAnswer s₁ ∧
      (a.testBit 8 = true → ∀ p ∈ r.panels, (s.panel p).lost = false → (s₂.seq p).state = .halted) := by
    obtain ⟨hctx, hans, hhalt⟩ := haltSeqs_facts (r.panels.filter (fun p => !(s₁.panel p).lost)) s₁
    unfold s₂
    split
    · exact ⟨hctx, hans, fun _ p hp hl => hhalt p (List.mem_filter.2 ⟨hp, by rw [hl₁, hl]; rfl⟩)⟩
    next hb => exact ⟨.refl s₁, rfl, fun h => absurd h hb⟩
  clear_value s₂
  obtain ⟨hx₂, ha₂, hhalt⟩ := h₂
  have hx : SameCtxs s s₂ := hx₁.trans hx₂
  have hholds : holdsCtx (fld a 5 4) s₂ = holdsCtx (fld a 5 4) s := funext fun n => by
    rw [holdsCtx, (hx n).2, hx.ctxAt, holdsCtx]
  have hheld (n : Nat) (h : s₂.cores.any (fun e => e.1 == n) = false) : (s₂.ctxAt n (fld a 5 4)).resident = false := by
    rw [State.ctxAt, State.core, Tab.get_of_not_listed _ h]
    rfl
  have hfilter : ((r.cores.filter (fun m => s₂.cores.any (fun e => e.1 == m))).filter (holdsCtx (fld a 5 4) s₂)) =
      r.cores.filter (holdsCtx (fld a 5 4) s) := by
    rw [List.filter_filter, ← hholds]
    refine List.filter_congr fun n _ => ?_
    by_cases h : s₂.cores.any (fun e => e.1 == n) = true
    · rw [h, Bool.and_true]
    · have hr := hheld n (Bool.eq_false_of_not_eq_true h)
      rw [holdsCtx, hr, Bool.and_false, Bool.false_and]
  obtain ⟨hcount, hall⟩ := stopHost_all (c := 0) (s := s₂) hk (hn.filter (fun m => s₂.cores.any (fun e => e.1 == m)))
  have hans := stopHost_answer hk (r.cores.filter (fun m => s₂.cores.any (fun e => e.1 == m))) 0 s₂
  have hsig := stopHost_signals hk (r.cores.filter (fun m => s₂.cores.any (fun e => e.1 == m))) 0 s₂
  have hother {n : Nat} := stopHost_other hk (l := r.cores.filter (fun m => s₂.cores.any (fun e => e.1 == m))) (c := 0) (s := s₂) (n := n)
  rw [hfilter, Nat.zero_add] at hcount
  have hcount : (stopHost (fld a 5 4) (r.cores.filter (fun m => s₂.cores.any (fun e => e.1 == m))) 0 s₂).1 =
    (r.cores.filter (holdsCtx (fld q.a0.toNat 5 4) s)).length := hcount
  refine ⟨_, ?_, hans.trans (ha₂.trans ha₁), fun n hnr hd => ?_, fun hb p hp hl => (hsig p).rests.1.trans (hhalt hb p hp hl)⟩
  · rw [← hcount]
  · by_cases h : s₂.cores.any (fun e => e.1 == n) = true
    · exact hall n (List.mem_filter.2 ⟨hnr, h⟩) ((hx n).2.trans hd)
    · have hc := hother (n := n) fun hm => h (List.mem_filter.1 hm).2
      have hr := hheld n (Bool.eq_false_of_not_eq_true h)
      rw [State.ctxAt] at hr
      rw [State.ctxAt]
      exact (congrArg (fun c => (Tab.get Ctx.init c.ctxs (fld a 5 4)).resident) hc).trans hr

section
variable {q : Cmd} {s : State} {r : Rect} (hp : pcieUp s = true) (hw : s.host.win = none) (hs : s.mstate = .ready)
  (hc : (s.part (fld q.a0.toNat 1 0)).cmd = none) (hx : (s.part (fld q.a0.toNat 1 0)).session = .opened)
  (hr : rectOf q.a1.toNat = some r) (hin : rectIn (s.part (fld q.a0.toNat 1 0)) r = true)
include hp hw hs hc hx hr hin

theorem cmdStop_eq (h0 : strays q.a0.toNat 0x133 = false) (h2 : argsFrom q 2 = false) : cmdStop q s = stopRect q r (taken 0x22 q s) := by
  have hbad : (strays (argN q 0) 0x133 || rectBad (taken 0x22 q s) (fld (argN q 0) 1 0) (argN q 1) || argsFrom q 2) = false := by
    have e0 : strays (argN q 0) 0x133 = false := h0
    have e1 : rectBad (taken 0x22 q s) (fld (argN q 0) 1 0) (argN q 1) = false := rectBad_of_in hr hin
    rw [e0, e1, h2]
    rfl
  have hr' : rectOf (argN q 1) = some r := hr
  unfold cmdStop
  refine (runCmd_runs hp hw (cmdCode_zero hs (by decide) hbad rfl hc hx rfl rfl)).trans ?_
  dsimp only
  rw [hr']
  rfl

theorem cmdZeroize_eq (h0 : strays q.a0.toNat 0x3 = false) (h2 : argsFrom q 2 = false) (hst : pstate s (fld q.a0.toNat 1 0) = 3)
    (hres : ∀ n ∈ r.cores, (s.core n).residents = false) :
    cmdZeroize q s = winEnd 0 [] (r.cores.foldl (fun s m => zeroizeCore m s) (wakeFor (fld q.a0.toNat 1 0) (taken 0x54 q s))) := by
  have hbad : (strays (argN q 0) 0x3 || rectBad (taken 0x54 q s) (fld (argN q 0) 1 0) (argN q 1) || argsFrom q 2) = false := by
    have e0 : strays (argN q 0) 0x3 = false := h0
    have e1 : rectBad (taken 0x54 q s) (fld (argN q 0) 1 0) (argN q 1) = false := rectBad_of_in hr hin
    rw [e0, e1, h2]
    rfl
  have hr' : rectOf (argN q 1) = some r := hr
  have hst' : pstate (taken 0x54 q s) (fld (argN q 0) 1 0) = 3 := hst
  unfold cmdZeroize
  refine (runCmd_runs hp hw (cmdCode_zero hs (by decide) hbad rfl hc hx rfl ?_)).trans ?_
  · rw [hr']
    refine if_neg fun h => ?_
    rcases h with ⟨h, -⟩ | h
    · exact h hst'
    · obtain ⟨n, hn, hn'⟩ := List.any_eq_true.1 h
      exact absurd hn' (ne_true_of_eq_false (hres n (List.mem_filter.1 hn).1))
  · rw [hr']
    rfl

end

/-- The scratchpads that ZEROIZE leaves are 0, and the window answers. -/
theorem zeroizeRect_facts (k : Nat) (l : List Nat) (s : State) :
    hostAnswer (l.foldl (fun s m => zeroizeCore m s) (wakeFor k s)) = hostAnswer s ∧
      ∀ n ∈ l, ∀ o, o < spdSize → memGet (l.foldl (fun s m => zeroizeCore m s) (wakeFor k s)).mem (spdKey n o) = 0 :=
  ⟨(foldl_fix hostAnswer (f := fun s m => zeroizeCore m s) (fun _ _ _ => rfl) _).trans
    (wakeFor_fix hostAnswer (fun _ _ _ => rfl) (fun _ _ _ => rfl) ..), fun _ hn _ ho => zeroizeCores_zero hn ho _⟩

/-! BIND_OFF (R282). -/

theorem cmdBindOff_eq {q : Cmd} {s : State} (hp : pcieUp s = true) (hw : s.host.win = none) (hs : s.mstate = .ready)
    (hc : (s.part (fld q.a0.toNat 1 0)).cmd = none) (hx : (s.part (fld q.a0.toNat 1 0)).session = .opened)
    (h0 : strays q.a0.toNat 0x3 = false) (h2 : argsFrom q 2 = false) :
    cmdBindOff q s = acceptPart (fld q.a0.toNat 1 0) 0x41 q
      (PCmd.mk0 .bindOff (s.now + (if q.a1.toNat = 0 then 10 ^ 9 else q.a1.toNat))) (taken 0x41 q s) := by
  have hbad : (strays (argN q 0) 0x3 || argsFrom q 2) = false := by
    have e0 : strays (argN q 0) 0x3 = false := h0
    rw [e0, h2]
    rfl
  unfold cmdBindOff
  exact runCmd_runs hp hw (cmdCode_zero hs (by decide) hbad rfl hc hx rfl rfl)

end Sys2Proof.Machine

end

section
/-! SUPPORT. The end of a HOLD (R242, R264, R265): what the rollback of the records and the leaving of HOLD do to the partition's step
and its sequencers. -/

namespace Sys2Proof.Machine

open Sys2Proof

theorem job_of_parts {s t : State} (h : t.parts = s.parts) (k : Nat) : t.job k = s.job k := by
  rw [State.job, State.part, h, State.job, State.part]

theorem job_onJob (s : State) (k : Nat) (f : JobSt → JobSt) : (s.onJob k f).job k = f (s.job k) := by
  rw [State.job, State.onJob, State.part_onPart_same, State.job]

/-- From `s` to `t` the sequencers and the window's answer stay, and of partition `k` all but its training step. -/
structure RecJob (k : Nat) (s t : State) : Prop where
  seqs : ∀ p, t.seq p = s.seq p
  part : ∃ J, t.part k = { s.part k with job := J }
  host : hostAnswer t = hostAnswer s

namespace RecJob

variable {k : Nat} {s t : State} {α : Type}

theorem refl (k : Nat) (s : State) : RecJob k s s := ⟨fun _ => rfl, ⟨_, rfl⟩, rfl⟩

theorem trans {u : State} (h : RecJob k s t) (g : RecJob k t u) : RecJob k s u where
  seqs p := (g.seqs p).trans (h.seqs p)
  part := by
    obtain ⟨J, e⟩ := h.part
    obtain ⟨J', e'⟩ := g.part
    exact ⟨J', by rw [e', e]⟩
  host := g.host.trans h.host

theorem of_recOnly (h : RecOnly s t) : RecJob k s t :=
  ⟨h.seq, ⟨_, (congrArg (fun T => Tab.get Part.init T k) h.parts).trans rfl⟩, answer_of_recOnly h⟩

theorem onJob {f : JobSt → JobSt} : RecJob k s (s.onJob k f) := ⟨fun _ => rfl, ⟨_, State.part_onPart_same ..⟩, rfl⟩

theorem foldl {f : State → α → State} {l : List α} (hf : ∀ t x, RecJob k t (f t x)) (s : State) : RecJob k s (l.foldl f s) := by
  induction l generalizing s with
  | nil => exact .refl k s
  | cons x l ih => exact (hf s x).trans (ih _)

theorem panelsOf (h : RecJob k s t) : panelsOf t k = panelsOf s k := by
  obtain ⟨J, e⟩ := h.part
  unfold Machine.panelsOf
  rw [e]
  rfl

end RecJob

theorem recJob_voidRecords (k r : Nat) (s : State) : RecJob k s (voidRecords k r s) := by
  unfold voidRecords
  refine .foldl (fun t i => ?_) s
  have hread : RecOnly t (readUnitAt k (recBase i) t) := .readUnitAt (.refl t)
  dsimp only
  split
  · exact (RecJob.of_recOnly (.putRec hread)).trans .onJob
  · exact .of_recOnly hread

theorem recJob_rollback (k r : Nat) (s : State) : RecJob k s (rollback k r s) := by
  unfold rollback
  exact ((recJob_voidRecords k r s).trans (.of_recOnly (.editHdr (.refl _)))).trans .onJob

theorem rollback_eq (k r : Nat) (s : State) : ∃ f g, (∀ J : JobSt, (g J).voids = J.voids) ∧
    rollback k r s = (editHdr k f (voidRecords k r s)).onJob k g := by
  unfold rollback
  extract_lets h g v u
  refine ⟨_, _, ?_, rfl⟩
  intro J
  rfl

/-- A rollback counts the voids of the records alone. -/
theorem rollback_voids (k r : Nat) (s : State) : ((rollback k r s).job k).voids = ((voidRecords k r s).job k).voids := by
  obtain ⟨f, g, hg, e⟩ := rollback_eq k r s
  rw [e]
  generalize voidRecords k r s = v
  have h : RecOnly v (editHdr k f v) := .editHdr (.refl v)
  rw [job_onJob, hg, job_of_parts h.parts]

/-- A sequencer leaves FROG and goes on (R63, R65). -/
def Seq.unfrogged (now : Nat) (armed : Bool) (q : Seq) : Seq := unfrogSeq (q.resumeWd now armed)

theorem Seq.resumeWd_state (now : Nat) (armed : Bool) (q : Seq) : (q.resumeWd now armed).state = q.state := by
  unfold Seq.resumeWd
  split <;> rfl

theorem Seq.unfrogged_of_frog {now : Nat} {armed : Bool} {q : Seq} (h : q.state = .frog) : (q.unfrogged now armed).state = .running := by
  rw [Seq.unfrogged, unfrogSeq, if_pos ((Seq.resumeWd_state ..).trans h)]

theorem Seq.unfrogged_of_running {now : Nat} {armed : Bool} {q : Seq} (h : q.state = .running) :
    (q.unfrogged now armed).state = .running := by
  have hs := (Seq.resumeWd_state now armed q).trans h
  rw [Seq.unfrogged, unfrogSeq, if_neg (by rw [hs]; decide), hs]

/-- The panels' sequencers leave FROG. -/
def unfrogPanels (l : List Nat) (s : State) : State :=
  l.foldl (fun s p => s.onSeq p (fun q => q.unfrogged s.now (q.busy && decide ((s.panel p).power = .active)))) s

theorem unfrogPanels_running {l : List Nat} {p : Nat} (hp : p ∈ l) {s : State} (h : (s.seq p).state = .frog) :
    ((unfrogPanels l s).seq p).state = .running := by
  refine foldl_brings (I := fun t => (t.seq p).state = .frog ∨ (t.seq p).state = .running) (P := fun t => (t.seq p).state = .running) hp
    (fun t y ht => ?_) (fun t ht => ?_) (fun t y ht => ?_) (.inl h)
  · by_cases hy : p = y
    · subst hy
      right
      rw [seq_onSeq_same]
      exact ht.elim Seq.unfrogged_of_frog Seq.unfrogged_of_running
    · rw [seq_onSeq_other hy]
      exact ht
  · rw [seq_onSeq_same]
    exact ht.elim Seq.unfrogged_of_frog Seq.unfrogged_of_running
  · by_cases hy : p = y
    · subst hy
      rw [seq_onSeq_same]
      exact Seq.unfrogged_of_running ht
    · rw [seq_onSeq_other hy]
      exact ht

/-- The step of a partition that repeats step `r`. -/
def JobSt.repeats (r : Nat) (J : JobSt) : JobSt := { J with hold := false, down := false, repeating := some r }

theorem JobSt.repeats_fields (r : Nat) (J : JobSt) :
    (J.repeats r).hold = false ∧ (J.repeats r).repeating = some r ∧ (J.repeats r).voids = J.voids := ⟨rfl, rfl, rfl⟩

/-- The partition's step as HOLD ends: it repeats step `r`. -/
def released (k r : Nat) (s : State) : State :=
  saveState k ((rollback k r s).onJob k (JobSt.repeats r))

/-- The job ports of a partition are no longer held. -/
def freePorts (k : Nat) (s : State) : State :=
  (jobPorts s k).foldl (fun s o => s.onPort o (fun P => { P with flushing := false, held := false })) s

theorem freePorts_fix {β : Type} (F : State → β) (hF : ∀ s o f, F (s.onPort o f) = F s) (k : Nat) (s : State) :
    F (freePorts k s) = F s := foldl_fix F (fun _ _ _ => hF ..) s

/-- HOLD ends where the rollback limit is not met. -/
theorem leaveHold_eq {k : Nat} {s : State} (hr : (s.job k).resume ≠ beforeZero) (hf : tooFar s k (s.job k).resume = false) :
    leaveHold k s = unfrogPanels (panelsOf (freePorts k (released k (s.job k).resume s)) k)
      (freePorts k (released k (s.job k).resume s)) := by
  have hn : decide ((s.job k).resume = beforeZero) = false := decide_eq_false hr
  unfold leaveHold released
  extract_lets r none_ s₁ s₂ s₃ s₄
  have e₁ : s₁ = rollback k r s := if_neg (ne_true_of_eq_false hn)
  have e₂ : s₂ = (rollback k r s).onJob k (JobSt.repeats r) := by
    unfold s₂
    rw [e₁]
    unfold none_
    rw [hn]
    rfl
  have hc : ¬ (!none_ && tooFar s k r) = true := by
    rw [hf, Bool.and_false]
    decide
  rw [if_neg hc, ← e₂]
  clear_value s₂
  rfl

theorem released_job (k r : Nat) (s : State) : (released k r s).job k = ((rollback k r s).job k).repeats r := by
  unfold released
  rw [job_of_parts (RecOnly.parts (.saveState (.refl _))), job_onJob]

theorem recJob_released (k r : Nat) (s : State) : RecJob k s (released k r s) := by
  unfold released
  exact ((recJob_rollback k r s).trans .onJob).trans (.of_recOnly (.saveState (.refl _)))

/-- HOLD has ended: the step proposed is repeated, the sequencers in FROG run, and the voids are those of the records. -/
theorem leaveHold_facts {k : Nat} {s : State} (hr : (s.job k).resume ≠ beforeZero) (hf : tooFar s k (s.job k).resume = false) :
    ((leaveHold k s).job k).hold = false ∧ ((leaveHold k s).job k).repeating = some (s.job k).resume ∧
      ((leaveHold k s).job k).voids = ((voidRecords k (s.job k).resume s).job k).voids ∧ hostAnswer (leaveHold k s) = hostAnswer s ∧
      ∀ p ∈ panelsOf s k, (s.seq p).state = .frog → ((leaveHold k s).seq p).state = .running := by
  rw [leaveHold_eq hr hf]
  generalize (s.job k).resume = r
  have hj := released_job k r s
  have hrec := recJob_released k r s
  generalize released k r s = u at hj hrec
  have hpanels := freePorts_fix State.panels (fun _ _ _ => rfl) k u
  have hparts := freePorts_fix State.parts (fun _ _ _ => rfl) k u
  have hans := freePorts_fix hostAnswer (fun _ _ _ => rfl) k u
  generalize freePorts k u = v at hpanels hparts hans
  have hps : panelsOf v k = panelsOf s k := by
    have e : v.part k = u.part k := by rw [State.part, hparts, State.part]
    rw [← hrec.panelsOf, panelsOf, e, panelsOf]
  have hlast {β : Type} (F : State → β) (hF : ∀ s p f, F (s.onSeq p f) = F s) : F (unfrogPanels (panelsOf v k) v) = F v :=
    foldl_fix F (fun _ _ _ => hF ..) v
  have hjob : (unfrogPanels (panelsOf v k) v).job k = ((rollback k r s).job k).repeats r :=
    (job_of_parts ((hlast State.parts fun _ _ _ => rfl).trans hparts) k).trans hj
  obtain ⟨hhold, hrep, hvoids⟩ := JobSt.repeats_fields r ((rollback k r s).job k)
  rw [← hjob] at hhold hrep hvoids
  refine ⟨hhold, hrep, hvoids.trans (rollback_voids k r s), ?_, fun p hp hfrog => ?_⟩
  · exact (hlast hostAnswer fun _ _ _ => rfl).trans (hans.trans hrec.host)
  · refine unfrogPanels_running (hps.symm ▸ hp) ?_
    rw [seq_of_panels hpanels, hrec.seqs]
    exact hfrog

end Sys2Proof.Machine

end

section
/-! SUPPORT. STEP_RELEASE and LOAD_IMAGE (R242, R282, R287). -/

namespace Sys2Proof.Machine

open Sys2Proof

/-! STEP_RELEASE (R242, R282). -/

theorem partRuns_of_pstate {s : State} {k : Nat} (h : pstate s k = 4) : partRuns s k = true := by
  cases hr : partRuns s k
  · unfold pstate at h
    dsimp only at h
    rw [hr] at h
    split at h
    · nomatch h
    · split at h
      · nomatch h
      · split at h
        · nomatch h
        · split at h
          · nomatch h
          · split at h
            · nomatch h
            · rw [if_neg (by decide)] at h
              split at h
              · nomatch h
              · split at h
                · nomatch h
                · split at h <;> nomatch h
  · rfl

/-! The records that a command finds in the window are those of the state before. -/

theorem decodedBytes_onHost (s : State) (f : HostIf → HostIf) (p x : Nat) : decodedBytes (s.onHost f) p x = decodedBytes s p x := rfl

theorem recOf_onHost (s : State) (f : HostIf → HostIf) (k n : Nat) : recOf (s.onHost f) k n = recOf s k n := by
  unfold recOf
  rw [decodedBytes_onHost]
  rfl

theorem hdrOf_onHost (s : State) (f : HostIf → HostIf) (k : Nat) : hdrOf (s.onHost f) k = hdrOf s k := by
  unfold hdrOf
  rw [decodedBytes_onHost]
  rfl

theorem tooFar_onHost (s : State) (f : HostIf → HostIf) (k r : Nat) : tooFar (s.onHost f) k r = tooFar s k r := by
  unfold tooFar gensBack
  rw [recOf_onHost, hdrOf_onHost]

theorem tooFar_taken (op : Nat) (q : Cmd) (s : State) (k r : Nat) : tooFar (taken op q s) k r = tooFar s k r := by
  unfold taken latch writeArgs
  rw [tooFar_onHost, tooFar_onHost]

/-- The sequencers of a partition's panels see the event of kind 6. -/
def releasePanels (k : Nat) (s : State) : State :=
  (panelsOf s k).foldl (fun s p => s.onSeq p (fun q => { q with release := true })) s

theorem releasePanels_release {k p : Nat} {s : State} (hp : p ∈ panelsOf s k) : ((releasePanels k s).seq p).release = true := by
  refine foldl_brings (I := fun _ => True) (P := fun t => (t.seq p).release = true) hp (fun _ _ _ => trivial) (fun t _ => ?_)
    (fun t y h => ?_) trivial
  · rw [seq_onSeq_same]
  · by_cases hy : p = y
    · subst hy
      rw [seq_onSeq_same]
    · rw [seq_onSeq_other hy]
      exact h

/-- STEP_RELEASE carried out. -/
def releaseStep (k : Nat) (s : State) : State :=
  if (s.job k).hold then
    if ((leaveHold k s).job k).hold then winEnd 0x04 [] (leaveHold k s) else winEnd 0 [(s.job k).resume] (leaveHold k s)
  else winEnd 0 [] (releasePanels k s)

/-- Without a HOLD the sequencers are released. -/
theorem releaseStep_running {k : Nat} {s : State} (h : (s.job k).hold = false) :
    ∃ u, releaseStep k s = winEnd 0 [] u ∧ hostAnswer u = hostAnswer s ∧ ∀ p ∈ panelsOf s k, (u.seq p).release = true := by
  refine ⟨releasePanels k s, if_neg (ne_true_of_eq_false h), ?_, fun p hp => releasePanels_release hp⟩
  refine foldl_fix hostAnswer (fun _ _ _ => ?_) s
  rfl

/-- A HOLD ends, where the rollback limit is not met. -/
theorem releaseStep_hold {k : Nat} {s : State} (h : (s.job k).hold = true) (hr : (s.job k).resume ≠ beforeZero)
    (hf : tooFar s k (s.job k).resume = false) :
    ∃ u, releaseStep k s = winEnd 0 [(s.job k).resume] u ∧ hostAnswer u = hostAnswer s ∧ (u.job k).hold = false ∧
      (u.job k).repeating = some (s.job k).resume := by
  obtain ⟨hfree, hrep, -, hans, -⟩ := leaveHold_facts hr hf
  exact ⟨leaveHold k s, (if_pos h).trans (if_neg (ne_true_of_eq_false hfree)), hans, hfree, hrep⟩

theorem cmdRelease_eq {q : Cmd} {s : State} (hp : pcieUp s = true) (hw : s.host.win = none) (hs : s.mstate = .ready)
    (hc : (s.part (fld q.a0.toNat 1 0)).cmd = none) (hx : (s.part (fld q.a0.toNat 1 0)).session = .opened)
    (h0 : strays q.a0.toNat 0x3 = false) (h1 : argsFrom q 1 = false) (hh : s.hang.active = false)
    (h : ((s.job (fld q.a0.toNat 1 0)).hold = false ∧ partRuns s (fld q.a0.toNat 1 0) = true) ∨
      ((s.job (fld q.a0.toNat 1 0)).hold = true ∧ (s.job (fld q.a0.toNat 1 0)).down = true ∧
        (s.job (fld q.a0.toNat 1 0)).stopped = false ∧ portsAgree s (fld q.a0.toNat 1 0) = true)) :
    cmdRelease q s = releaseStep (fld q.a0.toNat 1 0) (taken 0x23 q s) := by
  have hbad : (strays (argN q 0) 0x3 || argsFrom q 1) = false := by
    have e0 : strays (argN q 0) 0x3 = false := h0
    rw [e0, h1]
    rfl
  have hrep : ((taken 0x23 q s).hang.active && (taken 0x23 q s).hang.cur.isSome &&
      decide ((taken 0x23 q s).hang.part = fld (argN q 0) 1 0)) = false := by
    have e : (taken 0x23 q s).hang.active = false := hh
    rw [e, Bool.false_and, Bool.false_and]
  unfold cmdRelease
  refine runCmd_runs hp hw (cmdCode_zero hs (by decide) hbad rfl hc hx rfl ?_)
  refine (if_neg (ne_true_of_eq_false hrep)).trans ?_
  rcases h with ⟨hhold, hrun⟩ | ⟨hhold, hdown, hstop, hports⟩
  · have hhold : ((taken 0x23 q s).job (fld (argN q 0) 1 0)).hold = false := hhold
    have hrun : partRuns (taken 0x23 q s) (fld (argN q 0) 1 0) = true := hrun
    rw [hhold, hrun]
    rfl
  · have hhold : ((taken 0x23 q s).job (fld (argN q 0) 1 0)).hold = true := hhold
    have hdown : ((taken 0x23 q s).job (fld (argN q 0) 1 0)).down = true := hdown
    have hstop : ((taken 0x23 q s).job (fld (argN q 0) 1 0)).stopped = false := hstop
    have hports : portsAgree (taken 0x23 q s) (fld (argN q 0) 1 0) = true := hports
    rw [hhold, hdown, hstop, hports]
    rfl

/-! LOAD_IMAGE (R286, R287): its reads touch the records' stacks as any read does. -/

theorem recOnly_readSectors (p source : Nat) (l : List Nat) (s : State) : RecOnly s (readSectors p source l s).2 := by
  induction l generalizing s with
  | nil => exact .refl s
  | cons x l ih => exact (RecOnly.readSector (.refl s)).trans (ih _)

theorem recOnly_stagingRead (k off len : Nat) (s : State) : RecOnly s (stagingRead k off len s).2 := by
  unfold stagingRead
  dsimp only
  split
  · exact .refl s
  · exact recOnly_readSectors ..

theorem recOnly_imageHeader (k base : Nat) (s : State) : RecOnly s (imageHeader k base s).2 := by
  have h := recOnly_stagingRead k base 64 s
  unfold imageHeader
  split
  next bs t e =>
    rw [e] at h
    dsimp only
    split
    · exact h
    · have g := recOnly_stagingRead k (base + 64) (64 * cutN bs 6 2) t
      split
      next e' =>
        rw [e'] at g
        exact h.trans g
      next e' =>
        rw [e'] at g
        exact h.trans g
  next e =>
    rw [e] at h
    exact h

theorem recOnly_sectData (k base size : Nat) (c : Sect) (s : State) : RecOnly s (sectData k base size c s).2 := by
  have h := recOnly_stagingRead k (base + c.src) c.len s
  unfold sectData
  split
  · exact .refl s
  · split
    next e =>
      rw [e] at h
      exact h
    next e =>
      rw [e] at h
      exact h

theorem recOnly_sectsData (k base size : Nat) (l : List Sect) (s : State) : RecOnly s (sectsData k base size l s).2 := by
  induction l generalizing s with
  | nil => exact .refl s
  | cons c l ih => exact (recOnly_sectData k base size c s).trans (ih _)

theorem recOnly_imagePlan (k base : Nat) (s : State) : RecOnly s (imagePlan k base s).2 := by
  have h := recOnly_imageHeader k base s
  unfold imagePlan
  split
  next e =>
    rw [e] at h
    exact h
  next entry size sects t e =>
    rw [e] at h
    exact h.trans (recOnly_sectsData k base size sects t)

theorem part_acceptPart (k op : Nat) (q : Cmd) (c : PCmd) (s : State) : (acceptPart k op q c s).part k =
    { s.part k with cmd := some c, opcode := op, tag := q.tag.toNat, code := 0, progress := 0 } := by
  unfold acceptPart winEnd
  rw [State.part_onHost_apart, State.part_onPart_same]

/-- Partition `k` runs LOAD_IMAGE, which the window has answered with OK. -/
def Loads (k : Nat) (q : Cmd) (t : State) : Prop :=
  Answered 0x20 0 q t ∧ (t.part k).opcode = 0x20 ∧ ((t.part k).cmd.map PCmd.kind) = some .image

namespace Loads

variable {k : Nat} {q : Cmd} {s t : State}

theorem of_parts (h : Loads k q s) (hp : t.parts = s.parts) (ha : hostAnswer t = hostAnswer s) : Loads k q t := by
  obtain ⟨hans, hop, hkind⟩ := h
  have e : t.part k = s.part k := by rw [State.part, hp, State.part]
  exact ⟨hans.of_answer ha, e ▸ hop, e ▸ hkind⟩

theorem of_recOnly (h : Loads k q s) (hr : RecOnly s t) : Loads k q t := h.of_parts hr.parts (answer_of_recOnly hr)

theorem onPart {f : Part → Part} (h : Loads k q s) (ho : ∀ K : Part, (f K).opcode = K.opcode)
    (hk : ∀ K : Part, (f K).cmd.map PCmd.kind = K.cmd.map PCmd.kind) : Loads k q (s.onPart k f) := by
  obtain ⟨hans, hop, hkind⟩ := h
  refine ⟨hans.of_answer rfl, ?_, ?_⟩
  · rw [State.part_onPart_same, ho]
    exact hop
  · rw [State.part_onPart_same, hk]
    exact hkind

theorem acceptPart {c : PCmd} (h : hostAnswer s = hostAnswer (taken 0x20 q t)) (hc : c.kind = .image) :
    Loads k q (acceptPart k 0x20 q c s) := by
  have e := part_acceptPart k 0x20 q c s
  refine ⟨Answered.winEnd h, ?_, ?_⟩
  · rw [e]
  · rw [e]
    exact congrArg some hc

theorem castReject {i : Nat} (h : Loads k q s) : Loads k q (castReject k i s) := by
  unfold Machine.castReject
  refine .onPart (.of_parts h rfl rfl) (fun K => ?_) (fun K => ?_)
  · split
    · rfl
    · rfl
  · split
    next e => rw [e]; rfl
    · rfl

theorem castAgain {b : Bcast} (h : Loads k q s) : Loads k q (castAgain b s) := by
  unfold Machine.castAgain
  dsimp only
  refine .of_parts (s := (match b.src with | some x => stagingRead b.part x b.len s | none => (none, s)).2) ?_ rfl rfl
  split
  · exact h.of_recOnly (recOnly_stagingRead ..)
  · exact h

theorem castsSettle {fuel : Nat} (h : Loads k q s) : Loads k q (castsSettle k fuel s) := by
  induction fuel generalizing s with
  | zero => exact h
  | succ fuel ih =>
    unfold Machine.castsSettle
    split
    · split
      · exact h
      · split
        · split
          · exact .castReject h
          · exact ih (.castAgain h)
        · exact ih (.onPart (.of_parts h rfl rfl) (fun _ => rfl) (fun _ => rfl))
    · exact h

theorem startImage (s : State) : Loads k q (startImage k q (taken 0x20 q s)) := by
  have ha := answer_of_recOnly (recOnly_imagePlan k (argN q 1) (taken 0x20 q s))
  unfold Machine.startImage
  generalize imagePlan k (argN q 1) (taken 0x20 q s) = z at ha
  obtain ⟨P, u⟩ := z
  dsimp only at ha ⊢
  split
  · exact .acceptPart ha rfl
  · refine .castsSettle ?_
    have h : Loads k q (Machine.acceptPart k 0x20 q { PCmd.mk0 .image u.now with goal := P.entry }
      { u with bcasts := u.bcasts.filter (fun b => b.part != k) }) := .acceptPart ha rfl
    exact List.foldlRecOn (motive := Loads k q) P.order _ h fun t ht e _ => ht.of_parts rfl rfl

end Loads

theorem cmdLoad_eq {q : Cmd} {s : State} (hp : pcieUp s = true) (hw : s.host.win = none) (hs : s.mstate = .ready)
    (hc : (s.part (fld q.a0.toNat 1 0)).cmd = none) (hx : (s.part (fld q.a0.toNat 1 0)).session = .opened)
    (h0 : strays q.a0.toNat 0x3 = false) (h2 : argsFrom q 2 = false) (hb : q.a1.toNat % 64 = 0) (hb' : q.a1.toNat < 2 ^ 30)
    (hst : pstate s (fld q.a0.toNat 1 0) = 3)
    (hr : (imagePlan (fld q.a0.toNat 1 0) q.a1.toNat (taken 0x20 q s)).1.resident = false) :
    cmdLoad q s = startImage (fld q.a0.toNat 1 0) q (taken 0x20 q s) := by
  have hbad : (strays (argN q 0) 0x3 || decide (argN q 1 % 64 ≠ 0) || decide (2 ^ 30 ≤ argN q 1) || argsFrom q 2) = false := by
    have e0 : strays (argN q 0) 0x3 = false := h0
    have e1 : decide (argN q 1 % 64 ≠ 0) = false := decide_eq_false fun h => h hb
    have e2 : decide (2 ^ 30 ≤ argN q 1) = false := decide_eq_false (Nat.not_le.2 hb')
    rw [e0, e1, e2, h2]
    rfl
  have hst' : pstate (taken 0x20 q s) (fld (argN q 0) 1 0) = 3 := hst
  unfold cmdLoad
  refine runCmd_runs hp hw (cmdCode_zero hs (by decide) hbad rfl hc hx rfl ?_)
  refine if_neg fun h => ?_
  rcases h with ⟨h, -⟩ | h
  · exact h hst'
  · exact absurd h (ne_true_of_eq_false hr)

end Sys2Proof.Machine

end

section
/-! SUPPORT. The ends and limits of commands, waves and sessions (R281, R289, R290, R319). -/

namespace Sys2Proof.Machine

open Sys2Proof

/-! The ends of partition commands (R281, R282, R319). -/

theorem part_partEnd (k code : Nat) (res : List Nat) (s : State) :
    (partEnd k code res s).part k = { s.part k with cmd := none, code := code, raising := false } := State.part_onPart_same ..

theorem partEnd_done (k code : Nat) (res : List Nat) (s : State) :
    ((partEnd k code res s).part k).cmd = none ∧ ((partEnd k code res s).part k).code = code ∧
      ((partEnd k code res s).part k).seqEntry = (s.part k).seqEntry ∧ ((partEnd k code res s).job k) = s.job k := by
  rw [State.job, part_partEnd]
  exact ⟨rfl, rfl, rfl, rfl⟩

section
variable {k : Nat} {s : State} {c : PCmd} (h : (s.part k).cmd = some c)
include h

theorem partCommandEnd_power (hk : c.kind = .power) : partCommandEnd k s = powerEnd k c s := by
  unfold partCommandEnd
  rw [h]
  dsimp only
  rw [hk]

theorem partCommandEnd_image (hk : c.kind = .image) : partCommandEnd k s = imageEnd k c s := by
  unfold partCommandEnd
  rw [h]
  dsimp only
  rw [hk]

theorem partCommandEnd_bindOff (hk : c.kind = .bindOff) : partCommandEnd k s = bindOffEnd k s := by
  unfold partCommandEnd
  rw [h]
  dsimp only
  rw [hk]

end

/-- BIND_OFF once no step is open. -/
theorem bindOffEnd_done {k : Nat} {s : State} (h : (s.job k).stepOpen = false) :
    ((bindOffEnd k s).part k).cmd = none ∧ ((bindOffEnd k s).part k).code = 0 ∧ ((bindOffEnd k s).job k).hold = false := by
  unfold bindOffEnd
  rw [h, if_neg (by decide)]
  dsimp only
  generalize quietPart k s = u
  obtain ⟨hcmd, hcode, -, hjob⟩ := partEnd_done k 0 [lastDecided s k] ((endJob k u).onPart k (fun K => { K with fault := false }))
  refine ⟨hcmd, hcode, ?_⟩
  have hfault : ((endJob k u).onPart k (fun K => { K with fault := false })).job k = (endJob k u).job k := by
    rw [State.job, State.part_onPart_same, State.job]
  rw [hjob, hfault]
  unfold endJob dropJob
  dsimp only
  generalize recordApplied k u = v
  rw [job_of_parts (RecOnly.parts (.saveState (.refl _))), job_onJob]
  rfl

theorem bindOffEnd_open {k : Nat} {s : State} (h : (s.job k).stepOpen = true) : bindOffEnd k s = s := if_pos h

/-- PARTITION_POWER once its target holds, with every table in force. -/
theorem powerEnd_held {k : Nat} {s : State} {c : PCmd} (ht : tablesHeld s = true) (hh : targetHeld s k c.goal = true)
    (hg : c.goal = 0 ∨ (c.goal = 2 ∧ c.left = [] ∧ c.total = 0 ∧ ∀ p ∈ panelsOf s k, (s.panel p).bring = .none)) :
    powerEnd k c s = partEnd k 0 [targetBits s k c] s := by
  unfold powerEnd
  extract_lets ps live failed still faulty end_ up
  have hnot : ¬ ((!tablesHeld s) = true ∧ s.now < c.until_) := by
    rw [ht]
    exact fun h => absurd h.1 (by decide)
  rw [if_neg hnot]
  rcases hg with hg | ⟨hg, hleft, htotal, hbring⟩
  · rw [if_pos hg]
    rw [hg] at hh
    rw [if_pos hh]
  · have hstill : still = false := by
      have hb : ps.any (fun p => decide ((s.panel p).bring ≠ .none)) = false :=
        List.any_eq_false.2 fun p hp => ne_true_of_eq_false (decide_eq_false (not_not_intro (hbring p hp)))
      unfold still
      rw [hb, hleft]
      rfl
    have hup : up := by
      refine .inr (List.all_eq_true.2 fun p hp => ?_)
      obtain ⟨hpm, hlive⟩ := List.mem_filter.1 hp
      have hat := List.all_eq_true.1 hh p hpm
      rw [Bool.not_eq_true'] at hlive
      rw [hlive, Bool.false_or, hg] at hat
      dsimp only
      rw [hat, Bool.or_true, Bool.true_or]
    have hc : ¬ (still || !decide up) = true := by
      rw [hstill, decide_eq_true hup]
      decide
    rw [if_neg (by omega), if_neg hc, if_neg fun h => h.1 htotal, if_neg (by omega)]

theorem castsSettle_none {k fuel : Nat} {s : State} (h : castOf s k = none) : castsSettle k fuel s = s := by
  cases fuel with
  | zero => rfl
  | succ fuel =>
    unfold castsSettle
    rw [h]
    split
    next e => nomatch e
    · rfl

/-- LOAD_IMAGE once no section is left. -/
theorem imageEnd_done {k : Nat} {s : State} {c : PCmd} (hc : (s.part k).cmd = some c) (h : castOf s k = none) :
    ((imageEnd k c s).part k).cmd = none ∧ ((imageEnd k c s).part k).code = (if c.reject.isSome then 0x0B else 0) ∧
      (c.reject = none → ((imageEnd k c s).part k).seqEntry = c.goal) := by
  unfold imageEnd
  dsimp only
  rw [castsSettle_none h, h, hc, if_neg (by decide)]
  cases hr : c.reject with
  | some i =>
    rw [Option.getD_some, hr]
    obtain ⟨hcmd, hcode, -, -⟩ := partEnd_done k 0x0B [(s.part k).progress, i] s
    exact ⟨hcmd, hcode, nofun⟩
  | none =>
    rw [Option.getD_some, hr]
    obtain ⟨hcmd, hcode, hentry, -⟩ := partEnd_done k 0 [(s.part k).progress, 2 ^ 32 - 1]
      (s.onPart k (fun K => { K with seqEntry := c.goal }))
    refine ⟨hcmd, hcode, fun _ => hentry.trans ?_⟩
    rw [State.part_onPart_same]

/-! BIND_OFF_TIMEOUT (R282). -/

theorem bindOffTimeout_done {k : Nat} {s : State} {c : PCmd} (hc : (s.part k).cmd = some c) (hk : c.kind = .bindOff)
    (hl : c.until_ ≤ s.now) (ho : (s.job k).stepOpen = true) :
    ((bindOffTimeoutNow k s).part k).cmd = none ∧ ((bindOffTimeoutNow k s).part k).code = 0x05 := by
  have e : bindOffTimeoutNow k s = partEnd k 0x05 [] (quietPart k (voidStep k 3 false s)) := by
    unfold bindOffTimeoutNow
    rw [hc]
    exact if_pos ⟨hk, hl, ho⟩
  rw [e]
  obtain ⟨hcmd, hcode, -, -⟩ := partEnd_done k 0x05 [] (quietPart k (voidStep k 3 false s))
  exact ⟨hcmd, hcode⟩

theorem bindOffTimeout_early {k : Nat} {s : State} {c : PCmd} (hc : (s.part k).cmd = some c) (hl : s.now < c.until_) :
    bindOffTimeoutNow k s = s := by
  unfold bindOffTimeoutNow
  rw [hc]
  exact if_neg fun h => absurd h.2.1 (Nat.not_le.2 hl)

/-! AUTOMATIC_WAVE (R319). -/

theorem takeNew_onPower {p : Nat} {s t : State} (h : takeNew p s = some t) : ∃ f, t = s.onPower f := by
  unfold takeNew takeUnits at h
  split at h
  · nomatch h
  · dsimp only at h
    split at h
    · nomatch h
    · cases h
      exact ⟨_, rfl⟩

theorem raisePanel_parts (p : Nat) (s : State) : (raisePanel p s).parts = s.parts := by
  unfold raisePanel
  dsimp only
  split
  next t e =>
    obtain ⟨f, rfl⟩ := takeNew_onPower e
    rfl
  · rfl

/-- A wave's panel is due; the others' bring-up stays. -/
theorem raisePanel_bring (p q : Nat) (s : State) :
    ((raisePanel p s).panel q).bring = if q = p then .due else (s.panel q).bring := by
  unfold raisePanel
  dsimp only
  have hu : (((s.onPanel p (fun P => { P with bring := .due, offReq := false })).panel q).bring) =
      if q = p then .due else (s.panel q).bring := by
    split
    next h => rw [h, State.panel_onPanel_same]
    next h => rw [State.panel_onPanel_other _ _ _ _ h]
  have hset {t : State} {g : Panel → Panel} (hg : ∀ P, (g P).bring = P.bring) : ((t.onPanel p g).panel q).bring = (t.panel q).bring := by
    by_cases h : q = p
    · rw [h, State.panel_onPanel_same, hg]
    · rw [State.panel_onPanel_other _ _ _ _ h]
  split
  next t e =>
    obtain ⟨f, rfl⟩ := takeNew_onPower e
    rw [hset]
    · exact hu
    · exact fun _ => rfl
  · unfold deferWake
    dsimp only
    rw [State.panel_onPower_apart, hset]
    · exact hu
    · exact fun _ => rfl

/-- The next wave of an automatic power-up. -/
theorem autoWave_raises {k : Nat} {s : State} {c : PCmd} (hc : (s.part k).cmd = some c) (hk : c.kind = .power) (ha : c.auto = true)
    (hl : c.left ≠ []) (hb : ∀ p ∈ panelsOf s k, (s.panel p).bring = .none) :
    ((autoWave k s).part k).cmd.map PCmd.left = some (c.left.drop 4) ∧
      ∀ p ∈ c.left.take 4, raisable (s.panel p) = true → ((autoWave k s).panel p).bring = .due := by
  have hpow : powering s k = some c := by
    unfold powering
    rw [hc]
    exact if_pos hk
  have hany : (panelsOf s k).any (fun p => decide ((s.panel p).bring ≠ .none)) = false :=
    List.any_eq_false.2 fun p hp => ne_true_of_eq_false (decide_eq_false (not_not_intro (hb p hp)))
  have hcond : (!c.auto || c.left.isEmpty || (panelsOf s k).any (fun p => decide ((s.panel p).bring ≠ .none))) = false := by
    rw [ha, hany, List.isEmpty_eq_false_iff.2 hl]
    rfl
  unfold autoWave
  rw [hpow]
  dsimp only
  rw [if_neg (ne_true_of_eq_false hcond)]
  refine ⟨?_, fun p hp hr => ?_⟩
  · rw [State.part, foldl_fix State.parts (fun t p _ => raisePanel_parts p t), ← State.part, State.part_onPart_same]
    rfl
  · refine foldl_brings (I := fun _ => True) (P := fun t => (t.panel p).bring = .due) (x := p) (List.mem_filter.2 ⟨hp, hr⟩)
      (fun _ _ _ => trivial) (fun t _ => ?_) (fun t y h => ?_) trivial
    · rw [raisePanel_bring, if_pos rfl]
    · rw [raisePanel_bring, h, ite_self]

theorem autoWave_none {k : Nat} {s : State} (hc : (s.part k).cmd = none) : autoWave k s = s := by
  unfold autoWave powering
  rw [hc]

/-! COMMAND_TIMEOUT (R281, R316, R320). -/

/-- Panel `q` has failed a wave: it is OFF and reported. -/
def FailedWave (q : Nat) (s : State) : Prop := (s.panel q).bring = .none ∧ (s.panel q).power = .off ∧ q ∈ s.cast.failed

theorem cast_attend (s : State) : (attend s).cast = s.cast := by
  unfold attend
  split <;> rfl

theorem cast_logErr (severity cls unit status d0 d1 : Nat) (s : State) : (logErr severity cls unit status d0 d1 s).cast = s.cast := by
  have h : (if severity = 2 then attend s else s).cast = s.cast := by
    split
    · exact cast_attend s
    · rfl
  unfold logErr
  dsimp only
  split
  · exact h
  · exact h

theorem noteChange_fix {β : Type} (F : State → β) (hF : ∀ s k f, F (s.onPart k f) = F s) (p : Nat) (failed : Bool) (s : State) :
    F (noteChange p failed s) = F s := by
  unfold noteChange
  split
  · rfl
  · split
    · rfl
    · exact hF ..

/-- What a failed wave at its limit leaves of the panels and of those reported. -/
theorem bringFailed_facts (p : Nat) (s : State) :
    ((bringFailed p 0 s).panel p).bring = .none ∧ ((bringFailed p 0 s).panel p).power = .off ∧
      (∀ q, q ≠ p → ((bringFailed p 0 s).panel q).bring = (s.panel q).bring ∧ ((bringFailed p 0 s).panel q).power = (s.panel q).power) ∧
      (bringFailed p 0 s).cast.failed = s.cast.failed ++ [p] := by
  have hset {t : State} {r q : Nat} {g : Panel → Panel} (hg : ∀ P, (g P).bring = P.bring ∧ (g P).power = P.power) :
      ((t.onPanel r g).panel q).bring = (t.panel q).bring ∧ ((t.onPanel r g).panel q).power = (t.panel q).power := by
    by_cases h : q = r
    · rw [h, State.panel_onPanel_same]
      exact hg _
    · rw [State.panel_onPanel_other _ _ _ _ h]
      exact ⟨rfl, rfl⟩
  unfold bringFailed
  extract_lets lost s₁ s₂ s₃ s₄ s₅ s₆ C s₇
  have hpanel₁ (q : Nat) : (s₁.panel q).bring = (s.panel q).bring ∧ (s₁.panel q).power = (s.panel q).power := by
    have hzero (t : State) (n : Nat) : ((((zeroizeCore n t).onCore n (fun _ => Core.init)).panel q).bring,
        (((zeroizeCore n t).onCore n (fun _ => Core.init)).panel q).power) = ((t.panel q).bring, (t.panel q).power) := by
      unfold zeroizeCore
      obtain ⟨hb, hw⟩ := hset (t := t) (r := panelOf n) (q := q)
        (g := fun P => { P with fresh := Tab.put false P.fresh (localOf n) false }) fun _ => ⟨rfl, rfl⟩
      exact Prod.ext hb hw
    have h := foldl_fix (fun t : State => ((t.panel q).bring, (t.panel q).power)) (l := coresHeld s p)
      (f := fun s n => (zeroizeCore n s).onCore n (fun _ => Core.init)) (fun t n _ => hzero t n) s
    exact ⟨congrArg Prod.fst h, congrArg Prod.snd h⟩
  have hpanel₃ (q : Nat) : (s₃.panel q).bring = (s.panel q).bring ∧ (s₃.panel q).power = (s.panel q).power := by
    obtain ⟨hb, hw⟩ := hset (t := s₁) (r := p) (q := q) (g := fun P => { P with stack :=
      { P.stack with
        power := .off, key := none, checks := [], rewrites := [], merges := [], partner := [], pass := none
        retiring := none, fill := .none } }) fun _ => ⟨rfl, rfl⟩
    exact ⟨hb.trans (hpanel₁ q).1, hw.trans (hpanel₁ q).2⟩
  have hcast₄ : s₄.cast = s.cast := foldl_fix State.cast (f := fun s n => (zeroizeCore n s).onCore n (fun _ => Core.init))
    (fun _ _ _ => rfl) s
  have hsame : (s₄.panel p).bring = .none ∧ (s₄.panel p).power = .off := by
    unfold s₄
    rw [State.panel_onPanel_same]
    exact ⟨rfl, rfl⟩
  have hother (q : Nat) (h : q ≠ p) : (s₄.panel q).bring = (s.panel q).bring ∧ (s₄.panel q).power = (s.panel q).power := by
    unfold s₄
    rw [State.panel_onPanel_other _ _ _ _ h]
    exact hpanel₃ q
  clear_value s₄
  have hpanels : (noteChange p true s₇).panels = s₄.panels :=
    (noteChange_fix State.panels (fun _ _ _ => rfl) ..).trans (logErr_panels ..)
  have hcast : (noteChange p true s₇).cast.failed = s.cast.failed ++ [p] := by
    rw [noteChange_fix State.cast (fun _ _ _ => rfl)]
    have e : s₆.cast.failed = s.cast.failed := congrArg CastOn.failed ((cast_logErr ..).trans hcast₄)
    exact congrArg (· ++ [p]) e
  have hp (q : Nat) : (noteChange p true s₇).panel q = s₄.panel q := congrArg (fun T => Tab.get Panel.init T q) hpanels
  refine ⟨?_, ?_, fun q hq => ?_, hcast⟩
  · rw [hp]
    exact hsame.1
  · rw [hp]
    exact hsame.2
  · rw [hp]
    exact hother q hq

/-- Every panel of a list has failed the wave. -/
theorem bringFailed_all {l : List Nat} {q : Nat} (hq : q ∈ l) (s : State) :
    FailedWave q (l.foldl (fun s p => bringFailed p 0 s) s) := by
  have hfails (t : State) : FailedWave q (bringFailed q 0 t) := by
    obtain ⟨hb, hw, -, hf⟩ := bringFailed_facts q t
    exact ⟨hb, hw, by rw [hf]; exact List.mem_append_right _ List.mem_cons_self⟩
  refine foldl_brings (f := fun s p => bringFailed p 0 s) (I := fun _ => True) (P := FailedWave q) hq (fun _ _ _ => trivial)
    (fun t _ => hfails t) (fun t y h => ?_) trivial
  by_cases hy : q = y
  · subst hy
    exact hfails t
  · obtain ⟨hb, hw, hm⟩ := h
    obtain ⟨-, -, hother, hf⟩ := bringFailed_facts y t
    obtain ⟨hb', hw'⟩ := hother q hy
    exact ⟨hb'.trans hb, hw'.trans hw, by rw [hf]; exact List.mem_append_left _ hm⟩

section
variable {s : State} {w : Win} {l : Nat} (hw : s.host.win = some w) (hl : winLimit w.op = some l)
include hw hl

theorem commandTimeout_early (h : s.now < w.since + l) : commandTimeoutNow s = s := by
  unfold commandTimeoutNow
  rw [hw]
  dsimp only
  rw [hl]
  exact if_pos h

theorem commandTimeout_wave (h : w.since + l ≤ s.now) (ho : w.op = 0x12) :
    ∃ res, commandTimeoutNow s = winEnd 0x05 res
      ((w.wait.filter (fun p => decide ((s.panel p).bring ≠ .none))).foldl (fun s p => bringFailed p 0 s) s) := by
  unfold commandTimeoutNow
  rw [hw]
  dsimp only
  rw [hl]
  dsimp only
  rw [if_neg (Nat.not_lt.2 h), if_pos ho]
  exact ⟨_, rfl⟩

theorem commandTimeout_other (h : w.since + l ≤ s.now) (ho : w.op ≠ 0x12) : commandTimeoutNow s = winEnd 0x05 [] s := by
  unfold commandTimeoutNow
  rw [hw]
  dsimp only
  rw [hl]
  dsimp only
  rw [if_neg (Nat.not_lt.2 h), if_neg ho]

end

/-! RESUME_TIMEOUT (R290) and the lockout (R289). -/

/-- A suspended session whose key is lost is CLOSED. -/
theorem closeKeyless_closed {k : Nat} {s : State} (h : (s.part k).session ≠ .none) :
    ((closeKeyless k s).part k).session = .closed ∧ ((closeKeyless k s).part k).key = none := by
  have hdrop : (dropKey k s).part k = { s.part k with key := none } := by
    unfold dropKey
    extract_lets u
    have hu : u.parts = s.parts := by
      refine foldl_fix State.parts (fun _ _ _ => ?_) s
      rfl
    have e : u.part k = s.part k := congrArg (fun T => Tab.get Part.init T k) hu
    rw [State.part_onPart_same, e]
  unfold closeKeyless
  dsimp only
  generalize dropKey k s = u at hdrop
  have hfollow : (stacksFollow k (u.onPart k (fun K => { K with session := if K.session = .none then .none else .closed }))).parts =
      (u.onPart k (fun K => { K with session := if K.session = .none then .none else .closed })).parts := by
    unfold stacksFollow
    refine foldl_fix State.parts (fun t p _ => ?_) _
    split <;> rfl
  have e := congrArg (fun T => Tab.get Part.init T k) hfollow
  have e' : (u.onPart k (fun K => { K with session := if K.session = .none then .none else .closed })).part k =
      { s.part k with key := none, session := .closed } := by
    rw [State.part_onPart_same, hdrop]
    dsimp only
    rw [if_neg h]
  exact ⟨congrArg Part.session (e.trans e'), congrArg Part.key (e.trans e')⟩

theorem locked_of_expired {s : State} (h : s.ubide.failures < 5 ∨
    s.ubide.lastFail + min (2 ^ (s.ubide.failures - 5)) 4096 * 100000000 ≤ s.now) : locked s = false := by
  refine decide_eq_false (Nat.not_lt.2 ?_)
  unfold lockUntil
  split
  · exact Nat.zero_le _
  next hn => exact h.resolve_left hn

end Sys2Proof.Machine

end

section
namespace Sys2Proof.Machine

open Sys2Proof

/-- Settles O38. -/
theorem contextAndStepCommandsAndTheirEnd : Obligations.ContextAndStepCommandsAndTheirEnd := by
  refine ⟨fun q s hp hw hs hc hx => ⟨fun r hr hin => ⟨?_, ?_, ?_⟩, fun h0 h1 hh => ⟨?_, ?_⟩, ?_, ?_⟩, fun k s hk => ?_⟩
  · intro h0 h2 h3 hpan hcores
    have hn := Rect.cores_nodup hr
    obtain ⟨u, e, hans, hall, hseq⟩ := launchRect_facts (q := q) (s := taken 0x21 q s) hn fun n hn => by
      obtain ⟨hruns, hlive, hfree, hreg⟩ := hcores n hn
      exact ⟨hruns, hlive, hfree, hreg⟩
    refine ⟨_, congrArg goes ((cmdLaunch_eq hp hw hs hc hx hr hin h0 h2 h3 hpan).trans e), Answered.winEnd hans, ?_, ?_,
      fun n hn => ?_, hseq⟩
    · exact resWords_getD (by decide)
    · exact resWords_getD (by decide)
    · obtain ⟨hres, hpc, hgate, -⟩ := hall n hn
      exact ⟨hres, hpc, hgate⟩
  · intro h0 h2
    obtain ⟨u, e, hans, hall, hhalt⟩ := stopRect_facts (q := q) (s := taken 0x22 q s) (Rect.cores_nodup hr)
    exact ⟨_, congrArg goes ((cmdStop_eq hp hw hs hc hx hr hin h0 h2).trans e), Answered.winEnd hans,
      resWords_getD (by decide), hall, hhalt⟩
  · intro h0 h2 hst hres
    obtain ⟨hans, hzero⟩ := zeroizeRect_facts (fld q.a0.toNat 1 0) r.cores (taken 0x54 q s)
    exact ⟨_, congrArg goes (cmdZeroize_eq hp hw hs hc hx hr hin h0 h2 hst hres), Answered.winEnd hans, hzero⟩
  · intro hhold hst
    obtain ⟨u, e, hans, hrel⟩ := releaseStep_running (k := fld q.a0.toNat 1 0) (s := taken 0x23 q s) hhold
    have hcmd := cmdRelease_eq hp hw hs hc hx h0 h1 hh (.inl ⟨hhold, partRuns_of_pstate hst⟩)
    exact ⟨_, congrArg goes (hcmd.trans e), Answered.winEnd hans, hrel⟩
  · intro hhold hdown hstop hports hres hfar
    rw [← tooFar_taken 0x23 q] at hfar
    obtain ⟨u, e, hans, hfree, hrep⟩ := releaseStep_hold (k := fld q.a0.toNat 1 0) (s := taken 0x23 q s) hhold hres hfar
    have hcmd := cmdRelease_eq hp hw hs hc hx h0 h1 hh (.inr ⟨hhold, hdown, hstop, hports⟩)
    exact ⟨_, congrArg goes (hcmd.trans e), Answered.winEnd hans, resWords_getD (by decide), hfree, hrep⟩
  · intro h0 h2 hb hb' hst hres
    obtain ⟨hans, hop, hkind⟩ := Loads.startImage (k := fld q.a0.toNat 1 0) (q := q) s
    exact ⟨_, congrArg goes (cmdLoad_eq hp hw hs hc hx h0 h2 hb hb' hst hres), hans, hop, hkind⟩
  · intro h0 h2
    have e := part_acceptPart (fld q.a0.toNat 1 0) 0x41 q
      (PCmd.mk0 .bindOff (s.now + (if q.a1.toNat = 0 then 10 ^ 9 else q.a1.toNat))) (taken 0x41 q s)
    refine ⟨_, congrArg goes (cmdBindOff_eq hp hw hs hc hx h0 h2), Answered.winEnd rfl, ?_, ?_, ?_⟩
    all_goals rw [e]
    all_goals rfl
  · have hend : exec (.partitionCommandEnd k) s = goes (partCommandEnd k s) := congrArg Host.Outcome.next (if_pos hk)
    have hwave : exec (.automaticWave k) s = goes (autoWave k s) := congrArg Host.Outcome.next (if_pos hk)
    have htime : exec (.bindOffTimeout k) s = goes (bindOffTimeoutNow k s) := congrArg Host.Outcome.next (if_pos hk)
    have hresume : exec (.resumeTimeout k) s = goes (resumeTimeoutNow k s) := congrArg Host.Outcome.next (if_pos hk)
    refine ⟨fun c hc hkind ha hl hb => ⟨_, hwave, autoWave_raises hc hkind ha hl hb⟩,
      fun hc => hwave.trans (congrArg goes (autoWave_none hc)),
      fun c hc hkind => ⟨fun hl ho => ⟨_, htime, bindOffTimeout_done hc hkind hl ho⟩,
        fun hl => htime.trans (congrArg goes (bindOffTimeout_early hc hl)), fun ho => ?_, fun ho => ?_⟩,
      fun c hc hkind ht hh hg => ?_, fun c hc hkind hcast => ?_, fun w l hw hl => ⟨fun h ho => ?_, fun h ho => ?_, fun h => ?_⟩,
      fun hsus => ⟨fun h => ?_, fun h => ?_⟩, rfl, locked_of_expired⟩
    · exact ⟨_, hend.trans (congrArg goes (partCommandEnd_bindOff hc hkind)), bindOffEnd_done ho⟩
    · exact hend.trans (congrArg goes ((partCommandEnd_bindOff hc hkind).trans (bindOffEnd_open ho)))
    · obtain ⟨hcmd, hcode, -, -⟩ := partEnd_done k 0 [targetBits s k c] s
      exact ⟨_, hend.trans (congrArg goes ((partCommandEnd_power hc hkind).trans (powerEnd_held ht hh hg))), hcmd, hcode⟩
    · exact ⟨_, hend.trans (congrArg goes (partCommandEnd_image hc hkind)), imageEnd_done hc hcast⟩
    · obtain ⟨res, e⟩ := commandTimeout_wave hw hl h ho
      exact ⟨_, congrArg goes e, rfl, rfl, fun p hp hb => bringFailed_all (List.mem_filter.2 ⟨hp, decide_eq_true hb⟩) s⟩
    · exact ⟨_, congrArg goes (commandTimeout_other hw hl h ho), rfl, rfl, rfl, rfl, rfl⟩
    · exact congrArg goes (commandTimeout_early hw hl h)
    · have e : resumeTimeoutNow k s = closeKeyless k s := if_pos ⟨hsus, h⟩
      exact ⟨_, hresume.trans (congrArg goes e), closeKeyless_closed (by rw [hsus]; decide)⟩
    · have e : resumeTimeoutNow k s = s := if_neg fun hc => absurd hc.2 (Nat.not_le.2 h)
      exact hresume.trans (congrArg goes e)

end Sys2Proof.Machine

end

section
/-! SUPPORT. A counterexample to the count of the voids of a rollback (R200, R201, R242, R264). -/

namespace Sys2Proof.Machine

open Sys2Proof

/-! Bytes of a number and of a corrected sector (R200). -/

/-- Byte `i` of the number that bytes hold. -/
theorem leNat_getD (l : List Byte) (i : Nat) : leNat l / 256 ^ i % 256 = (l.getD i 0).toNat := by
  induction l generalizing i with
  | nil => simp [leNat]
  | cons b l ih =>
    have hb := b.isLt
    cases i with
    | zero =>
      rw [leNat, Nat.pow_zero, Nat.div_one, List.getD_cons_zero]
      omega
    | succ i =>
      rw [leNat, Nat.pow_succ', ← Nat.div_div_eq_div_mul, List.getD_cons_succ, ← ih]
      congr 2
      omega

/-- A number whose bytes below `i` are 0. -/
theorem leNat_mod_zero {l : List Byte} {i : Nat} (h : ∀ j < i, l.getD j 0 = 0) : leNat l % 256 ^ i = 0 := by
  induction i with
  | zero => rw [Nat.pow_zero, Nat.mod_one]
  | succ i ih =>
    have hb := leNat_getD l i
    rw [h i (Nat.lt_succ_self i)] at hb
    rw [Nat.pow_succ, Nat.mod_mul, ih fun j hj => h j (Nat.lt_succ_of_lt hj), hb]
    simp

theorem getD_fixByte (l : List Byte) (p v j : Nat) (h : j ≠ p) : (fixByte l p v).getD j 0 = l.getD j 0 := by
  unfold fixByte
  rw [List.getD_eq_getElem?_getD, List.getD_eq_getElem?_getD, List.getElem?_map, List.getElem?_zipIdx]
  cases l[j]? with
  | none => rfl
  | some b => simp [h]

/-! Records of which a rollback takes no count (R264). -/

/-- A record is left as it is by a rollback to before step `r`. -/
def spared (r : Nat) (e : Rec) : Prop := ¬ (e.state ≠ 0 ∧ e.state ≠ 2 ∧ r ≤ e.step)

theorem recOf_state (s : State) (k n : Nat) :
    (recOf s k n).state = (((decodedBytes s (recPanel s k) (recBase n)).take 32).getD 6 0).toNat := by
  unfold recOf
  dsimp only
  rw [fld_eq, ← leNat_getD]
  rfl

theorem recOf_step_zero {s : State} {k n : Nat}
    (h : ∀ j < 4, ((decodedBytes s (recPanel s k) (recBase n)).take 32).getD j 0 = 0) : (recOf s k n).step = 0 := by
  unfold recOf
  dsimp only
  rw [fld_eq, Nat.pow_zero, Nat.div_one]
  exact leNat_mod_zero (i := 4) h

theorem getD_take {l : List Byte} {m j : Nat} (h : j < m) : (l.take m).getD j 0 = l.getD j 0 := by
  rw [List.getD_eq_getElem?_getD, List.getD_eq_getElem?_getD, List.getElem?_take_of_lt h]

/-- The decoded bytes of a sector are the stored ones but for one byte at most. -/
theorem decodedBytes_cases (s : State) (p x : Nat) : ∃ i, ∀ j, j ≠ i →
    (decodedBytes s p x).getD j 0 = (sectorBytes s p (physOf (s.stack p) x)).getD j 0 := by
  unfold decodedBytes
  dsimp only
  generalize decideAt s p (physOf (s.stack p) x) (expectAw s p x) = o
  unfold fixedBytes
  split
  next i v => exact ⟨i, fun j hj => getD_fixByte _ _ _ _ hj⟩
  · exact ⟨0, fun j _ => rfl⟩

/-- A record whose stored bytes are 0 has no state or step 0, whatever its check bytes are. -/
theorem spared_of_zero {s : State} {k n r : Nat} (hr : 0 < r)
    (h : ∀ j, (sectorBytes s (recPanel s k) (physOf (s.stack (recPanel s k)) (recBase n))).getD j 0 = 0) : spared r (recOf s k n) := by
  obtain ⟨i, hi⟩ := decodedBytes_cases s (recPanel s k) (recBase n)
  rintro ⟨hstate, -, hstep⟩
  by_cases h6 : i = 6
  · have := recOf_step_zero (s := s) (k := k) (n := n) fun j hj => by
      rw [getD_take (by omega), hi j (by omega), h]
    omega
  · apply hstate
    rw [recOf_state, getD_take (by decide), hi 6 (Ne.symm h6), h]
    rfl

/-- A record that the sector code does not correct. -/
theorem spared_of_raw {s : State} {k n r : Nat}
    (ho : ∀ i v, decideAt s (recPanel s k) (physOf (s.stack (recPanel s k)) (recBase n)) (expectAw s (recPanel s k) (recBase n)) ≠
      .corrected i v)
    (h : (sectorBytes s (recPanel s k) (physOf (s.stack (recPanel s k)) (recBase n))).getD 6 0 = 0) : spared r (recOf s k n) := by
  have e : decodedBytes s (recPanel s k) (recBase n) = sectorBytes s (recPanel s k) (physOf (s.stack (recPanel s k)) (recBase n)) := by
    unfold decodedBytes fixedBytes
    dsimp only
    split
    next i v e => exact absurd e (ho i v)
    · rfl
  rintro ⟨hstate, -, -⟩
  apply hstate
  rw [recOf_state, e, getD_take (by decide), h]
  rfl

/-! What a read of a stack that is not mirrored leaves (R200, R201). -/

/-- From `s` to `t` the bytes and the map of stack `p` stay, and the check bytes of every sector but `j`. -/
structure StackKept (p j : Nat) (s t : State) : Prop where
  mem : ∀ a, memGet t.mem a = memGet s.mem a
  retire : (t.stack p).retire = (s.stack p).retire
  mirrored : (t.stack p).mirrored = (s.stack p).mirrored
  checks : ∀ i, i ≠ j → Tab.get [] (t.stack p).checks i = Tab.get [] (s.stack p).checks i

theorem stack_onStack_same (p : Nat) (s : State) (f : Stack → Stack) : (s.onStack p f).stack p = f (s.stack p) := by
  rw [State.stack, State.onStack, State.panel_onPanel_same, State.stack]

theorem StackKept.onStack {p j : Nat} {s : State} {f : Stack → Stack}
    (hf : ∀ K, (f K).retire = K.retire ∧ (f K).mirrored = K.mirrored ∧ (f K).checks = K.checks) : StackKept p j s (s.onStack p f) := by
  obtain ⟨hr, hm, hc⟩ := hf (s.stack p)
  have e := stack_onStack_same p s f
  exact ⟨fun _ => rfl, e ▸ hr, e ▸ hm, fun i _ => by rw [e, hc]⟩

theorem logErr_mem (severity cls unit status d0 d1 : Nat) (s : State) : (logErr severity cls unit status d0 d1 s).mem = s.mem := by
  have h : (if severity = 2 then attend s else s).mem = s.mem := by
    split
    · unfold attend
      split <;> rfl
    · rfl
  unfold logErr
  dsimp only
  split
  · exact h
  · exact h

/-- Bytes that are written where they stand leave memory as it reads. -/
theorem memGet_putSector_self (p phys : Nat) (c : List Byte) (s : State) (a : Nat) :
    memGet (putSector p phys (sectorBytes s p phys) c s).mem a = memGet s.mem a := by
  have hl : (sectorBytes s p phys).length = 64 := by simp [sectorBytes, memBytes]
  unfold putSector
  by_cases h : stackKey p phys ≤ a ∧ a < stackKey p phys + 64
  · obtain ⟨i, rfl⟩ : ∃ i, a = stackKey p phys + i := ⟨a - stackKey p phys, by omega⟩
    have hi : i < (sectorBytes s p phys).length := by omega
    refine (memGet_memPutBytes_same _ _ _ _ hi).trans ?_
    simp [sectorBytes, memBytes]
  · exact memGet_memPutBytes_other _ _ _ _ (by omega)

/-- A sector marked uncorrectable: its bytes stay, its check bytes have the poison mark. -/
theorem markSector_kept (p x phys aw source : Nat) (addr : Bool) (s : State) :
    StackKept p (phys / 64) s (markSector p x phys aw source addr s) ∧
      Tab.get [] ((markSector p x phys aw source addr s).stack p).checks (phys / 64) = sectorCheck (sectorBytes s p phys) aw true := by
  unfold markSector
  extract_lets c u
  have hu : u.stack p = { s.stack p with
      checks := Tab.set (s.stack p).checks (phys / 64) (sectorCheck c aw true), ue := inc 8 (s.stack p).ue
      ueaddr := if (s.stack p).ueaddr.getLsbD 63 then (s.stack p).ueaddr
        else BitVec.ofNat 64 (2 ^ 63 + source * 2 ^ 61 + b2n addr * 2 ^ 60 + x / 64 * 64) } := by
    unfold u putSector
    rw [stack_onStack_same, stack_onStack_same]
    rfl
  have hmem : ∀ a, memGet u.mem a = memGet s.mem a := memGet_putSector_self p phys (sectorCheck c aw true) s
  have hs : (logErr 1 2 p 0x09 source x u).stack p = u.stack p :=
    congrArg (fun T => (Tab.get Panel.init T p).stack) (logErr_panels 1 2 p 0x09 source x u)
  refine ⟨⟨fun a => ?_, ?_, ?_, fun i hi => ?_⟩, ?_⟩
  · rw [logErr_mem, hmem]
  · rw [hs, hu]
  · rw [hs, hu]
  · rw [hs, hu]
    exact Tab.get_set_other _ _ _ _ _ hi
  · rw [hs, hu]
    exact Tab.get_set_same _ _ _ _

theorem noteCorrected_kept (p phys j : Nat) (s : State) : StackKept p j s (noteCorrected p phys s) :=
  .onStack fun _ => ⟨rfl, rfl, rfl⟩

theorem notePoison_kept (p j : Nat) (s : State) :
    StackKept p j s (s.onStack p (fun K => { K with poisonRd := inc 8 K.poisonRd })) := .onStack fun _ => ⟨rfl, rfl, rfl⟩

/-- A read of a sector leaves the bytes and the map; one that finds it uncorrectable marks it. -/
theorem forceSector_kept {p : Nat} (x source : Nat) {s : State} (hm : (s.stack p).mirrored = false) :
    StackKept p (physOf (s.stack p) x / 64) s (forceSector p x source s).2 ∧
      ∀ a, decideAt s p (physOf (s.stack p) x) (expectAw s p x) = .uncorrectable a →
        Tab.get [] ((forceSector p x source s).2.stack p).checks (physOf (s.stack p) x / 64) =
          sectorCheck (sectorBytes s p (physOf (s.stack p) x)) (expectAw s p x) true := by
  obtain ⟨r, hr, -⟩ := readSector_some x source false hm
  have hforce : (forceSector p x source s).2 = (readSector p x source s).2 := by
    unfold forceSector
    split
    next e => rw [e]
    next e =>
      rw [e] at hr
      nomatch hr
  rw [hforce]
  unfold readSector
  dsimp only
  generalize decideAt s p (physOf (s.stack p) x) (expectAw s p x) = o
  cases o with
  | good => exact ⟨⟨fun _ => rfl, rfl, rfl, fun _ _ => rfl⟩, nofun⟩
  | poisoned => exact ⟨notePoison_kept .., nofun⟩
  | corrected i v => exact ⟨noteCorrected_kept .., nofun⟩
  | uncorrectable addr =>
    dsimp only
    rw [copyAt_none x hm, if_neg (by decide)]
    obtain ⟨hk, hc⟩ := markSector_kept p x (physOf (s.stack p) x) (expectAw s p x) source addr s
    exact ⟨hk, fun _ _ => hc⟩

/-! The counterexample: pages of records 0 and 8 share a spare page. -/

/-- Bytes of a record of step 1 that has begun, and the same with the state misread as 0. -/
def begunBytes : List Byte := [1, 0, 0, 0, 0, 0, 1] ++ List.replicate 57 0
def misreadBytes : List Byte := 1 :: List.replicate 63 0

theorem misreadBytes_succ {j : Nat} (h : j + 1 < misreadBytes.length) : misreadBytes[j + 1] = 0 := by
  simp only [misreadBytes, List.getElem_cons_succ, List.getElem_replicate]

/-- The address words of records 0 and 8. -/
def aw0 : Nat := addrWord 0 (recBase 0)
def aw8 : Nat := addrWord 0 (recBase 8)

/-- Partition 0 in a HOLD that is to end, its proposal step 1. The retire table gives the pages of records 0 to 7 and 8 to 15 one
spare page; its first sector is stored as record 8 with one byte wrong. -/
def sharedSpare : State :=
  { State.reset with
    now := 16384
    parts := [(0, { Part.init with defined := true, job := { JobSt.init with hold := true, resume := 1 } })]
    panels := [(0, { Panel.init with
      stack := { Stack.init with
        retire := [(0x1FB8001, 0), (0x1FB8002, 0)], checks := [(spareBase / 64, sectorCheck begunBytes aw8 false)] } })]
    mem := [(stackKey 0 spareBase, 1)] }

/-- Record 8 is read corrected, and under the address of record 0 the sector is uncorrectable; marked so, it is uncorrectable for
record 8 too. -/
theorem decide_shared : decideSector misreadBytes (sectorCheck begunBytes aw8 false) aw8 = .corrected 6 1 ∧
    decideSector misreadBytes (sectorCheck begunBytes aw8 false) aw0 = .uncorrectable false ∧
    decideSector misreadBytes (sectorCheck misreadBytes aw0 true) aw8 = .uncorrectable false := by decide +kernel

/-- A state that reads of the records have led to from it: its bytes and its map are as they were. -/
structure SharedRead (t : State) : Prop where
  records : RecOnly sharedSpare t
  mem : ∀ a, memGet t.mem a = memGet sharedSpare.mem a
  retire : (t.stack 0).retire = [(0x1FB8001, 0), (0x1FB8002, 0)]
  mirrored : (t.stack 0).mirrored = false

/-- The check bytes of the sector that records 0 and 8 share. -/
def sharedCheck (t : State) : List Byte := Tab.get [] (t.stack 0).checks (spareBase / 64)

namespace SharedRead

variable {t : State}

theorem start : SharedRead sharedSpare := ⟨.refl _, fun _ => rfl, rfl, rfl⟩

theorem recPanel (h : SharedRead t) : recPanel t 0 = 0 := by
  obtain ⟨K, e⟩ := h.records.panels 0
  have hp : t.part 0 = sharedSpare.part 0 := congrArg (fun T => Tab.get Part.init T 0) h.records.parts
  have ha : anchorOf t 0 = 0 := by
    rw [anchorOf, hp]
    rfl
  unfold Machine.recPanel
  rw [ha, e]
  rfl

theorem expectAw (h : SharedRead t) (x : Nat) : expectAw t 0 x = addrWord 0 x := by
  have hh : homeOf t 0 x = (0, x) := by
    unfold homeOf
    rw [h.mirrored]
    rfl
  rw [Machine.expectAw, hh]

/-- Where record `n` stands: in the spare page, or in its own. -/
theorem physOf (h : SharedRead t) {n : Nat} (hn : n < 1024) :
    physOf (t.stack 0) (recBase n) = if n < 16 then spareBase + n % 8 * 0x200 else recBase n := by
  have hp : (0x1FB8001000 + n * 0x200) / 4096 = 0x1FB8001 + n / 8 := by omega
  unfold Machine.physOf recBase
  rw [h.retire, Nat.mod_eq_of_lt hn, hp]
  by_cases h8 : n < 8
  · have e : n / 8 = 0 := by omega
    rw [e, if_pos (by omega)]
    show spareBase + 0 * 4096 + (0x1FB8001000 + n * 0x200) % 4096 = _
    omega
  · by_cases h16 : n < 16
    · have e : n / 8 = 1 := by omega
      rw [e, if_pos h16]
      show spareBase + 0 * 4096 + (0x1FB8001000 + n * 0x200) % 4096 = _
      omega
    · have e1 : ((0x1FB8001 : Nat) == 0x1FB8001 + n / 8) = false := beq_false_of_ne (by omega)
      have e2 : ((0x1FB8002 : Nat) == 0x1FB8001 + n / 8) = false := beq_false_of_ne (by omega)
      rw [if_neg h16]
      simp only [List.find?, e1, e2]

/-- The one byte of memory that is not 0. -/
theorem memGet (h : SharedRead t) (a : Nat) : memGet t.mem a = if a = stackKey 0 spareBase then 1 else 0 := by
  have e : Machine.memGet sharedSpare.mem a = if stackKey 0 spareBase = a then 1 else 0 := rfl
  rw [h.mem, e]
  exact if_congr eq_comm rfl rfl

theorem getD_sectorBytes (h : SharedRead t) (phys j : Nat) :
    (sectorBytes t 0 phys).getD j 0 = if j < 64 ∧ phys + j = spareBase then 1 else 0 := by
  unfold sectorBytes memBytes
  rw [List.getD_eq_getElem?_getD, List.getElem?_map]
  by_cases hj : j < 64
  · rw [List.getElem?_range hj, Option.map_some, Option.getD_some, h.memGet]
    unfold stackKey
    congr 1
    exact propext ⟨fun e => ⟨hj, by omega⟩, fun e => by omega⟩
  · rw [List.getElem?_eq_none (by rw [List.length_range]; omega), if_neg fun e => hj e.1]
    rfl

/-- The shared sector is stored with the state of its record read as 0. -/
theorem sectorBytes_shared (h : SharedRead t) : sectorBytes t 0 spareBase = misreadBytes := by
  refine List.ext_getElem (by simp [sectorBytes, memBytes, misreadBytes]) fun j hj hj' => ?_
  have e := h.getD_sectorBytes spareBase j
  have hj64 : j < 64 := by simpa [misreadBytes] using hj'
  rw [List.getD_eq_getElem _ _ hj] at e
  rw [e]
  cases j with
  | zero => rfl
  | succ j =>
    rw [misreadBytes_succ]
    exact if_neg (by omega)

/-- The sectors of the other records are 0 and stand elsewhere. -/
theorem other (h : SharedRead t) {n : Nat} (hn : n < 1024) (h0 : n ≠ 0) (h8 : n ≠ 8) :
    Machine.physOf (t.stack 0) (recBase n) / 64 ≠ spareBase / 64 ∧
      ∀ j, (sectorBytes t 0 (Machine.physOf (t.stack 0) (recBase n))).getD j 0 = 0 := by
  have hphys := h.physOf hn
  have hcases : Machine.physOf (t.stack 0) (recBase n) + 64 ≤ spareBase ∨ spareBase + 0x200 ≤ Machine.physOf (t.stack 0) (recBase n) := by
    rw [hphys]
    unfold recBase spareBase
    split <;> omega
  generalize Machine.physOf (t.stack 0) (recBase n) = phys at hcases
  have hmod : spareBase % 64 = 0 := rfl
  refine ⟨by omega, fun j => ?_⟩
  rw [h.getD_sectorBytes]
  exact if_neg (by omega)

theorem spared_other (h : SharedRead t) {n : Nat} (hn : n < 1024) (h0 : n ≠ 0) (h8 : n ≠ 8) : spared 1 (recOf t 0 n) := by
  refine spared_of_zero (by decide) ?_
  rw [h.recPanel]
  exact (h.other hn h0 h8).2

theorem decideAt_shared (h : SharedRead t) {c : List Byte} (hc : sharedCheck t = c) (hne : c ≠ []) (aw : Nat) :
    decideAt t 0 spareBase aw = decideSector misreadBytes c aw := by
  have e : sectorCheckAt t 0 spareBase aw = c := by
    unfold sectorCheckAt
    have hc : Tab.get [] (t.stack 0).checks (spareBase / 64) = c := hc
    rw [hc]
    split
    · exact absurd rfl hne
    · rfl
  rw [decideAt, h.sectorBytes_shared, e]

/-- A record that the sector code does not correct is spared. -/
theorem spared_shared (h : SharedRead t) {c : List Byte} {n : Nat} (hc : sharedCheck t = c) (hne : c ≠ [])
    (hphys : Machine.physOf (t.stack 0) (recBase n) = spareBase)
    (ho : ∀ i v, decideSector misreadBytes c (addrWord 0 (recBase n)) ≠ .corrected i v) : spared 1 (recOf t 0 n) := by
  refine spared_of_raw (fun i v => ?_) ?_
  · rw [h.recPanel, hphys, h.expectAw, h.decideAt_shared hc hne]
    exact ho i v
  · rw [h.recPanel, hphys, h.sectorBytes_shared]
    rfl

/-- The read of a record. -/
theorem read (h : SharedRead t) (n : Nat) : SharedRead (readUnitAt 0 (recBase n) t) := by
  obtain ⟨⟨hmem, hret, hmir, -⟩, -⟩ := forceSector_kept (recBase n) 0 h.mirrored
  have hr := h.records.readUnitAt (k := 0) (off := recBase n)
  unfold readUnitAt at hr ⊢
  rw [h.recPanel] at hr ⊢
  exact ⟨hr, fun a => (hmem a).trans (h.mem a), hret.trans h.retire, hmir.trans h.mirrored⟩

/-- The read of another record leaves the check bytes of the shared sector. -/
theorem read_other (h : SharedRead t) {n : Nat} (hn : n < 1024) (h0 : n ≠ 0) (h8 : n ≠ 8) :
    sharedCheck (readUnitAt 0 (recBase n) t) = sharedCheck t := by
  obtain ⟨⟨-, -, -, hchecks⟩, -⟩ := forceSector_kept (recBase n) 0 h.mirrored
  unfold readUnitAt
  rw [h.recPanel]
  exact hchecks _ (Ne.symm (h.other hn h0 h8).1)

end SharedRead

/-! The rollback of that state: record 8 would be voided, but the read of record 0 marks it first. -/

/-- What a rollback to before step `r` does to record `i` (R264). -/
def voidRecord (k r : Nat) (s : State) (i : Nat) : State :=
  let e := recOf s k i
  let s := readUnitAt k (recBase i) s
  if e.state ≠ 0 ∧ e.state ≠ 2 ∧ r ≤ e.step then
    (putRec k e.step { e with state := 2 } s).onJob k (fun J => { J with voids := inc 8 J.voids })
  else s

theorem voidRecords_eq (k r : Nat) (s : State) : voidRecords k r s = (List.range 1024).foldl (voidRecord k r) s := rfl

theorem voidRecord_spared {k r i : Nat} {s : State} (h : spared r (recOf s k i)) : voidRecord k r s i = readUnitAt k (recBase i) s :=
  if_neg h

/-- The check bytes of the shared sector before the read of record 0, and from it to the read of record 8. -/
def storedCheck : List Byte := sectorCheck begunBytes aw8 false
def markedCheck : List Byte := sectorCheck misreadBytes aw0 true

theorem sharedChecks_listed : storedCheck ≠ [] ∧ markedCheck ≠ [] := by decide +kernel

/-- The state before record `n`. -/
structure Before (n : Nat) (t : State) : Prop where
  read : SharedRead t
  stored : n = 0 → sharedCheck t = storedCheck
  marked : 0 < n → n ≤ 8 → sharedCheck t = markedCheck

theorem Before.start : Before 0 sharedSpare := ⟨.start, fun _ => rfl, fun h => absurd h (by decide)⟩

theorem Before.next {n : Nat} {t : State} (h : Before n t) (hn : n < 1024) : Before (n + 1) (voidRecord 0 1 t n) := by
  obtain ⟨hread, hstored, hmarked⟩ := h
  obtain ⟨-, hzero, height⟩ := decide_shared
  obtain ⟨hs, hm⟩ := sharedChecks_listed
  by_cases h0 : n = 0
  · subst h0
    have hphys : physOf (t.stack 0) (recBase 0) = spareBase := hread.physOf hn
    have hsp := hread.spared_shared (n := 0) (hstored rfl) hs hphys fun i v e => nomatch hzero.symm.trans e
    rw [voidRecord_spared hsp]
    refine ⟨hread.read 0, nofun, fun _ _ => ?_⟩
    obtain ⟨-, hmark⟩ := forceSector_kept (recBase 0) 0 hread.mirrored
    rw [hphys, hread.expectAw, hread.decideAt_shared (hstored rfl) hs, hread.sectorBytes_shared] at hmark
    unfold readUnitAt
    rw [hread.recPanel]
    exact hmark false hzero
  · by_cases h8 : n = 8
    · subst h8
      have hphys : physOf (t.stack 0) (recBase 8) = spareBase := hread.physOf hn
      have hsp := hread.spared_shared (n := 8) (hmarked (by decide) (by decide)) hm hphys fun i v e => nomatch height.symm.trans e
      rw [voidRecord_spared hsp]
      exact ⟨hread.read 8, nofun, fun _ h => absurd h (by decide)⟩
    · rw [voidRecord_spared (hread.spared_other hn h0 h8)]
      refine ⟨hread.read n, nofun, fun _ h => ?_⟩
      rw [hread.read_other hn h0 h8]
      exact hmarked (by omega) (by omega)

theorem before_range {n : Nat} (hn : n ≤ 1024) : Before n ((List.range n).foldl (voidRecord 0 1) sharedSpare) := by
  induction n with
  | zero => exact .start
  | succ n ih =>
    rw [List.range_succ, List.foldl_append]
    exact (ih (by omega)).next (by omega)

/-- The rollback counts no void. -/
theorem voidRecords_shared : ((voidRecords 0 1 sharedSpare).job 0).voids = 0 := by
  have h := before_range (Nat.le_refl 1024)
  rw [← voidRecords_eq] at h
  rw [job_of_parts h.read.records.parts]
  rfl

/-- Record 8, read corrected, is the one record to be voided. -/
theorem later_shared {n : Nat} (hn : n < 1024) :
    ((recOf sharedSpare 0 n).state ≠ 0 ∧ (recOf sharedSpare 0 n).state ≠ 2 ∧ 1 ≤ (recOf sharedSpare 0 n).step) ↔ n = 8 := by
  obtain ⟨height, hzero, -⟩ := decide_shared
  obtain ⟨hs, -⟩ := sharedChecks_listed
  have h := SharedRead.start
  constructor
  · intro hl
    by_contra h8
    by_cases h0 : n = 0
    · subst h0
      exact h.spared_shared (n := 0) (c := storedCheck) rfl hs (h.physOf hn) (fun i v e => nomatch hzero.symm.trans e) hl
    · exact h.spared_other hn h0 h8 hl
  · rintro rfl
    have hphys : physOf (sharedSpare.stack 0) (recBase 8) = spareBase := h.physOf hn
    have e : decodedBytes sharedSpare 0 (recBase 8) = begunBytes := by
      have hd : decideAt sharedSpare 0 spareBase (addrWord 0 (recBase 8)) = .corrected 6 1 :=
        (h.decideAt_shared (c := storedCheck) rfl hs _).trans height
      unfold decodedBytes
      dsimp only
      rw [hphys, h.expectAw, hd]
      unfold fixedBytes
      dsimp only
      rw [h.sectorBytes_shared]
      decide
    have hr : (recOf sharedSpare 0 8).state = 1 ∧ (recOf sharedSpare 0 8).step = 1 := by
      unfold recOf
      rw [h.recPanel, e]
      decide
    obtain ⟨hstate, hstep⟩ := hr
    rw [hstate, hstep]
    decide

/-- HOLD_END where a HOLD is to end. -/
theorem exec_holdEnd {k : Nat} {s : State} (hk : k < 4) (h : ((s.job k).hold && !(s.job k).down && !(s.job k).stopped &&
    portsAgree s k && decide ((s.job k).resumeAt + 16384 ≤ s.now)) = true) : exec (.holdEnd k) s = goes (leaveHold k s) := by
  have e : holdEnd k s = leaveHold k s := if_pos h
  rw [← e]
  exact congrArg Host.Outcome.next (if_pos hk)

/-- Refutes O34: the retire table of `sharedSpare` gives two pages of records one spare page. The one record from the proposed step on
is read corrected, but the rollback reads record 0 first, which finds the shared sector uncorrectable and marks it; so no void
counts where the statement says that one does (R200, R201, R264). -/
theorem not_stepsOpenDecideAndAreVoided : ¬ Obligations.StepsOpenDecideAndAreVoided := by
  intro h
  obtain ⟨-, -, -, -, -, -, -, hend, -⟩ := h.2 0 0 1 sharedSpare (by decide) (by decide) rfl
  have hfar : tooFar sharedSpare 0 1 = false := by decide +kernel
  have hports : portsAgree sharedSpare 0 = true := by decide
  obtain ⟨t, ht, -, -, -, -, hvoids⟩ := hend rfl rfl rfl hports (by decide) (by decide) hfar
  have hgo : ((sharedSpare.job 0).hold && !(sharedSpare.job 0).down && !(sharedSpare.job 0).stopped && portsAgree sharedSpare 0 &&
      decide ((sharedSpare.job 0).resumeAt + 16384 ≤ sharedSpare.now)) = true := by
    rw [hports]
    decide
  have hrun : exec (.holdEnd 0) sharedSpare = goes (leaveHold 0 sharedSpare) := exec_holdEnd (by decide) hgo
  have e : leaveHold 0 sharedSpare = t := by
    rw [hrun] at ht
    exact Host.Outcome.next.inj ht
  obtain ⟨-, -, hcount, -⟩ := leaveHold_facts (k := 0) (s := sharedSpare) (by decide) hfar
  have hlater : (List.range 1024).filter (fun i => decide ((recOf sharedSpare 0 i).state ≠ 0 ∧ (recOf sharedSpare 0 i).state ≠ 2 ∧
      (sharedSpare.job 0).resume ≤ (recOf sharedSpare 0 i).step)) = [8] := by
    rw [List.filter_congr (q := fun i => i == 8) fun i hi => ?_]
    · rw [List.filter_beq, List.count_eq_one_of_mem List.nodup_range (List.mem_range.2 (by decide))]
      rfl
    · rw [Bool.eq_iff_iff, decide_eq_true_iff, beq_iff_eq]
      exact later_shared (List.mem_range.1 hi)
  have hone := hvoids 8 hlater
  rw [← e, hcount] at hone
  exact absurd (hone.symm.trans voidRecords_shared) (by decide)

end Sys2Proof.Machine

end

section
/-! SUPPORT. The arrays of a core: what the updates of its parts, its scratchpad reads and the parts of a shadow load leave in them
(R70, R76, R134). -/

namespace Sys2Proof.Machine

open Sys2Proof

/-! The arrays, contexts and tables of a core after an update. -/

@[simp] theorem Core.arr_onArr_same (c : Core) (a : Nat) (f : Arr → Arr) : (c.onArr a f).arr a = f (c.arr a) := by
  unfold Core.onArr Core.arr
  split <;> rfl

@[simp] theorem State.arr_onArr_same (s : State) (n a : Nat) (f : Arr → Arr) :
    ((s.onArr n a f).core n).arr a = f ((s.core n).arr a) := by
  rw [State.onArr, State.core_onCore_same, Core.arr_onArr_same]

@[simp] theorem State.arr_onCtx (s : State) (n k a : Nat) (f : Ctx → Ctx) :
    ((s.onCtx n k f).core n).arr a = (s.core n).arr a := by
  rw [State.core_onCtx]
  rfl

@[simp] theorem State.arr_onCur (s : State) (n a : Nat) (f : Ctx → Ctx) :
    ((s.onCur n f).core n).arr a = (s.core n).arr a := State.arr_onCtx ..

@[simp] theorem State.arr_onCounts (s : State) (n a : Nat) (f : Counts → Counts) :
    ((s.onCounts n f).core n).arr a = (s.core n).arr a := State.arr_onCur ..

@[simp] theorem flyRes_arr (n slot pc lat a : Nat) (w : RegW) (s : State) :
    ((flyRes n slot pc lat w s).core n).arr a = (s.core n).arr a := by
  rw [flyRes, State.core_onCore_same]
  rfl

@[simp] theorem State.ctx_onArr (s : State) (n a : Nat) (f : Arr → Arr) : (s.onArr n a f).ctx n = s.ctx n := by
  refine State.ctx_onCore ?_ ?_
  · unfold Core.onArr
    split <;> rfl
  · unfold Core.onArr
    split <;> rfl

theorem State.icyc_onArr (s : State) (n a : Nat) (f : Arr → Arr) : ((s.onArr n a f).core n).icyc = (s.core n).icyc := by
  rw [State.onArr, State.core_onCore_same]
  unfold Core.onArr
  split <;> rfl

theorem issued_arr (n pc a : Nat) (v : State) : ((issued n pc v).core n).arr a = (v.core n).arr a := by
  rw [issued, State.core_onCore_same]
  exact State.arr_onCur v n a _

theorem issued_groups (n pc : Nat) (v : State) : ((issued n pc v).ctx n).groups = (v.ctx n).groups := by
  obtain ⟨pc', lv, br, e⟩ := advancePc_shape pc (v.ctx n)
  have h : (issued n pc v).ctx n = { advancePc pc (v.ctx n) with issue := (v.ctx n).issue + 1 } :=
    (State.ctx_onCore rfl rfl).trans (State.ctx_onCur ..)
  rw [h, e]

/-- A metadata event is counted, and in strict mode raised (R126, R127). -/
theorem gmeEvent_cases (n kind count pc : Nat) (s : State) :
    gmeEvent n kind count pc s = s ∨
      ∃ f, gmeEvent n kind count pc s = s.onCounts n f ∨
        gmeEvent n kind count pc s = lateExc n 1 pc .metaE (s.onCounts n f) := by
  have hc (c : Prop) [Decidable c] (x y : State) : (if c then x else y) = y ∨ (if c then x else y) = x := by
    split
    · exact .inr rfl
    · exact .inl rfl
  unfold gmeEvent
  by_cases h : count = 0
  · exact .inl (if_pos h)
  · rw [if_neg h]
    exact .inr ⟨_, hc _ _ _⟩

theorem gmeEvent_arr (n kind count pc a : Nat) (s : State) :
    ((gmeEvent n kind count pc s).core n).arr a = (s.core n).arr a := by
  rcases gmeEvent_cases n kind count pc s with e | ⟨f, e | e⟩ <;> rw [e]
  · exact State.arr_onCounts ..
  · exact (flyRes_arr ..).trans (State.arr_onCounts ..)

/-! A scratchpad read changes the status registers and the write-backs of a core alone (R133, R134, R147). -/

/-- A core changed in what its scratchpad reads note. -/
def CoreReads (c d : Core) : Prop := d = { c with spd := d.spd, ueaddr := d.ueaddr, wb := d.wb }

theorem CoreReads.trans {c d e : Core} (h : CoreReads c d) (k : CoreReads d e) : CoreReads c e := by
  cases c
  cases d
  cases e
  simp only [CoreReads, Core.mk.injEq, true_and] at *
  simp only [h, k, and_true]

theorem CoreReads.arr {c d : Core} (h : CoreReads c d) (a : Nat) : d.arr a = c.arr a := by
  rw [h]
  rfl

theorem CoreReads.icyc {c d : Core} (h : CoreReads c d) : d.icyc = c.icyc := by rw [h]

theorem State.core_logErr (severity cls unit status d0 d1 m : Nat) (s : State) :
    (logErr severity cls unit status d0 d1 s).core m = s.core m := by
  rw [State.core, logErr_cores, State.core]

theorem recordUe_reads (path n l : Nat) (weight checked : Bool) (off : Nat) (s : State) :
    CoreReads (s.core n) ((recordUe path n l weight checked off s).core n) := by
  unfold recordUe
  dsimp only
  rw [State.core_logErr, State.core_putLine_apart, State.core_onCore_same]
  rfl

theorem readLine_reads (path n l : Nat) (s : State) : CoreReads (s.core n) ((readLine path n l s).2.core n) := by
  unfold readLine
  dsimp only
  split
  · rfl
  · rw [State.core_onCore_same]
    rfl
  · split
    · rw [State.core_onCore_same]
      rfl
    · exact recordUe_reads ..

theorem readLines_reads (path n : Nat) (l : List Nat) (s : State) :
    CoreReads (s.core n) ((readLines path n l s).2.core n) := by
  induction l generalizing s with
  | nil => rfl
  | cons i l ih => exact (readLine_reads path n i s).trans (ih _)

theorem spdRead_reads (path n off len : Nat) (s : State) : CoreReads (s.core n) ((spdRead path n off len s).2.core n) :=
  readLines_reads ..

/-! A part of a shadow load (R76, R117). -/

/-- The shadow with the next part of its load filled in from what has been read for it. -/
def partFilled (L : Load) (W : WTile) (rd rc rm : Rd) : WTile :=
  let d0 := (partRange L.srcLen L.parts L.next).1
  let c0 := (partRange L.scLen L.parts L.next).1
  let m0 := (partRange L.mdLen L.parts L.next).1
  let d := fillPart W.data W.dataP d0 (L.src + d0) rd
  let c := fillPart W.scales W.scalesP c0 (L.sc + c0) rc
  let m := fillPart W.md W.mdP m0 (L.md + m0) rm
  { W with data := d.1, dataP := d.2, scales := c.1, scalesP := c.2, md := m.1, mdP := m.2 }

/-- The array after a part: the part stands in the shadow, the next part follows or the load ends, and nothing else of the
array changes. -/
theorem shadowPart_arr {n a : Nat} {s : State} {L : Load} (h : ((s.core n).arr a).load = some L) :
    let d := partRange L.srcLen L.parts L.next
    let c := partRange L.scLen L.parts L.next
    let m := partRange L.mdLen L.parts L.next
    let rd := spdRead 1 n (L.src + d.1) d.2 s
    let rc := spdRead 1 n (L.sc + c.1) c.2 rd.2
    let rm := spdRead 1 n (L.md + m.1) m.2 rc.2
    ((shadowPart n a s).core n).arr a =
      { (s.core n).arr a with
        shadow := partFilled L ((s.core n).arr a).shadow rd.1 rc.1 rm.1
        load := if L.next + 1 = L.parts then none else some { L with next := L.next + 1 } } := by
  intro d c m rd rc rm
  have hr : (rm.2.core n).arr a = (s.core n).arr a :=
    (((spdRead_reads ..).trans (spdRead_reads ..)).trans (spdRead_reads ..)).arr a
  unfold shadowPart
  rw [h]
  dsimp only
  rw [gmeEvent_arr, State.arr_onArr_same]
  rw [← hr]
  rfl

theorem shadowUpTo_active (n a cyc fuel : Nat) (s : State) :
    (((shadowUpTo n a cyc fuel s).core n).arr a).active = ((s.core n).arr a).active := by
  induction fuel generalizing s with
  | zero => rfl
  | succ fuel ih =>
    unfold shadowUpTo
    split
    · rfl
    next L h =>
      split
      · rw [ih, shadowPart_arr h]
      · rfl

/-- MLDW and MLDS: the formats and the marking stand in the shadow at once, the load is on its way, the active tile stays. -/
theorem startLoad_arr (n a wf af nm src sc md pc : Nat) (s : State) :
    let A := ((startLoad n a wf af nm src sc md pc s).core n).arr a
    A.shadow.wf = wf ∧ A.shadow.af = af ∧ A.shadow.nm = nm ∧
      A.load = some
        { t := (s.core n).icyc, parts := loadParts wf, next := 0, src := src, srcLen := tileBytes wf, sc := sc
          scLen := wScaleBytes wf nm, md := md, mdLen := metaBytes wf nm, slot := 1, pc := pc } ∧
      A.active = ((s.core n).arr a).active := by
  dsimp only
  unfold startLoad
  rw [State.arr_onArr_same]
  exact ⟨rfl, rfl, rfl, rfl, shadowUpTo_active ..⟩

end Sys2Proof.Machine

end

section
/-! SUPPORT. A matrix-slot instruction that issues alone in its bundle, the groups that it finds open, and what its work leaves in
its array (R34, R57, R76, R83, R85). -/

namespace Sys2Proof.Machine

open Sys2Proof

/-! The command of a matrix-slot instruction that issues beside NOP slots. -/

theorem foldl_lowerExc_isSome (l : List (Exc × Nat)) {a : Option (Exc × Nat)} (h : a.isSome = true) :
    (l.foldl lowerExc a).isSome = true := by
  induction l generalizing a with
  | nil => exact h
  | cons e l ih =>
    refine ih ?_
    obtain ⟨v, rfl⟩ := Option.isSome_iff_exists.1 h
    unfold lowerExc
    dsimp only
    split <;> rfl

/-- A bundle that raises no exception has no slot that raises one (R57). -/
theorem Ops.slot_exc_of_none {o : Ops} {b : Bundle} {n : Nat} {s : State} (h : o.exc b n s = none) :
    ∀ p ∈ o.list, p.exc n s = none := by
  have hb : o.illegal b = false := by
    unfold Ops.exc at h
    split at h
    · cases h
    next hb => exact eq_false_of_ne_true hb
  rw [Ops.exc_of_legal hb] at h
  have hl : o.excs n s = [] := by
    generalize o.excs n s = l at h
    cases l with
    | nil => rfl
    | cons e l =>
      have := foldl_lowerExc_isSome l (a := lowerExc none e) rfl
      rw [List.foldl_cons] at h
      rw [h] at this
      cases this
  intro p hp
  obtain ⟨i, hi, rfl⟩ := List.getElem_of_mem hp
  cases he : o.list[i].exc n s with
  | none => rfl
  | some x =>
    have hm : (x, i) ∈ o.excs n s := Ops.mem_excs.2 ⟨_, List.mem_zipIdx_iff_getElem?.2 (List.getElem?_eq_getElem hi), he⟩
    rw [hl] at hm
    cases hm

theorem exc_none_of_issuesM {n : Nat} {i : MIns} {c v t : W32} {s : State} (h : issuesM n i c v t s = true) :
    i.op.exc n (atChecks n s) = none := by
  simp only [issuesM, issuable, Bool.and_eq_true, Option.isNone_iff_eq_none] at h
  exact Ops.slot_exc_of_none h.2 _ (by simp [opsM, Ops.list])

/-- The command of a matrix-slot instruction by what its slot does. -/
theorem atM_of_issues_one {n : Nat} {i : MIns} {s : State} (f : State → State)
    (hf : i.op.run n (fetched n s) (fetched n s) = f (fetched n s)) (h : issuesM n i 0 0 0 s = true) :
    atM { agent := .core n, w1 := 0, w2 := 0, w3 := 0 } i s = goes (afterOne n s f) := by
  have hr : (opsM i 0 0 0).run n (fetched n s) = i.op.run n (fetched n s) (fetched n s) := rfl
  rw [atM_of_issues h, goIssue_eq n _ s rfl, hr, hf, afterOne]

namespace Flows

variable {n : Nat} {s₀ s : State}

theorem joinQueue {a : Nat} {op : DrainOp} (h : Flows n s₀ s) : Flows n s₀ (joinQueue n a op s) := by
  unfold Machine.joinQueue
  exact .onArr h

theorem doPass {a t k last pc : Nat} (h : Flows n s₀ s) : Flows n s₀ (doPass n a t k last pc s) := by
  unfold Machine.doPass
  dsimp only
  have hc {f : Ctx → Tab Group} {s : State} (h : Flows n s₀ s) : Flows n s₀ (s.onCur n fun x => { x with groups := f x }) :=
    .onCur h fun _ => ⟨rfl, rfl, rfl⟩
  exact .foldl h (fun _ _ h => .ite (.foldl (hc h) (fun _ _ => .joinQueue)) (hc h))

theorem takeInput {a cycles : Nat} {I : Inp} (h : Flows n s₀ s) : Flows n s₀ (takeInput n a cycles I s) := by
  unfold Machine.takeInput
  exact .onArr h

theorem swapIn {a : Nat} {sw : BitVec 1} (h : Flows n s₀ s) : Flows n s₀ (swapIn n a sw s) := by
  unfold Machine.swapIn
  exact .ite (.onArr h) h

theorem startLoad {a wf af nm src sc md pc : Nat} (h : Flows n s₀ s) :
    Flows n s₀ (startLoad n a wf af nm src sc md pc s) := by
  unfold Machine.startLoad
  exact .onArr (.shadowUpTo h)

/-- No matrix-slot instruction stores at issue, ends a WAIT or takes an exception of its own. -/
theorem minsOp (i : MIns) (u : State) (h : Flows n s₀ s) : Flows n s₀ (i.op.run n u s) := by
  cases i
  case mcfg | mseed => exact .foldl h fun _ _ => .flyRes
  case nop => exact h
  case mldw | mlds => exact .startLoad h
  case mmul => exact .doPass (.takeInput (.swapIn h))
  case mpre | mclr => exact .takeInput h
  case mdrain | mdrs | smrg | scmp | strw => exact .joinQueue h
  case mspill =>
    refine .foldl h fun _ _ h => ?_
    split
    · exact .joinQueue h
    · exact h
  case mgrpOpen => exact .flyRes (.spdRead h)
  case mgrpClose => exact .flyRes h
  case smul => exact .doPass (.takeInput (.gmeEvent (.spdRead (.swapIn h))))

end Flows

/-- Alone in its bundle a matrix-slot instruction leaves what its slot leaves, and the bundle has issued: no store waits
that would be due. -/
theorem atM_issued {n : Nat} {i : MIns} {s : State} (h : issuesM n i 0 0 0 s = true) :
    atM { agent := .core n, w1 := 0, w2 := 0, w3 := 0 } i s =
      goes (issued n ((atChecks n s).ctx n).pc (i.op.run n (fetched n s) (fetched n s))) := by
  have hs := (Flows.minsOp i (fetched n s) (.refl (n := n) (fetched n s))).stores
  rw [atM_of_issues_one (i.op.run n (fetched n s)) rfl h, afterOne, afterSlots,
    writesOf_of_later fun p hp => fetched_stores n s p (hs p hp)]

/-! The groups stand from the checks of a bundle to its slots (R83). -/

theorem noteWrite_ctx (n a : Nat) (op : RowOp) (s : State) : (noteWrite n a op s).ctx n = s.ctx n := State.ctx_onArr ..

theorem applyRow_groups (n a : Nat) (op : RowOp) (s : State) : ((applyRow n a op s).ctx n).groups = (s.ctx n).groups := by
  have hm (x : Ctx) (c b : Bool) : (if c then x else { x with dirty := Tab.put false x.dirty a b }).groups = x.groups := by
    split <;> rfl
  unfold applyRow
  cases op.val with
  | nothing => rfl
  | poison => simp only [State.ctx_onCur, noteWrite_ctx]
  | clear =>
    simp only [State.ctx_onCur, noteWrite_ctx, hm]
    rfl
  | put vals p =>
    simp only [State.ctx_onCur, noteWrite_ctx, hm]
    rfl
  | add blocks p =>
    simp only [State.ctx_onArr, State.ctx_onCur, noteWrite_ctx, hm]
    rfl

theorem rowsUpTo_groups (n a cyc : Nat) (s : State) : ((rowsUpTo n a cyc s).ctx n).groups = (s.ctx n).groups := by
  unfold rowsUpTo
  rw [foldl_fix (fun t => (t.ctx n).groups) fun t r _ => applyRow_groups n a r t, State.ctx_onArr]

theorem captureGens_ctx (n cyc : Nat) (s : State) : (captureGens n cyc s).ctx n = s.ctx n := by
  unfold captureGens
  dsimp only
  split
  · rfl
  · exact State.ctx_onCore rfl rfl

theorem fetched_groups (n : Nat) (s : State) : ((fetched n s).ctx n).groups = ((atChecks n s).ctx n).groups := by
  rw [fetched, duringCycle, captureGens_ctx, rowsUpTo_groups, rowsUpTo_groups]

theorem groupOfTile_fetched (n a t : Nat) (s : State) :
    groupOfTile ((fetched n s).ctx n) a t = groupOfTile ((atChecks n s).ctx n) a t := by
  rw [groupOfTile, groupsOf, fetched_groups, groupOfTile, groupsOf]

/-! What a matrix-slot instruction leaves in its array. -/

theorem joinQueue_arr (n a : Nat) (op : DrainOp) (s : State) :
    ((joinQueue n a op s).core n).arr a = { (s.core n).arr a with queue := ((s.core n).arr a).queue ++ [op] } :=
  State.arr_onArr_same ..

/-- Operations that join one after another stand in the queue in that order; the running context stays. -/
theorem foldl_joinQueue {α : Type} (n a : Nat) (op : α → DrainOp) (l : List α) (s : State) :
    let t := l.foldl (fun s x => joinQueue n a (op x) s) s
    (t.core n).arr a = { (s.core n).arr a with queue := ((s.core n).arr a).queue ++ l.map op } ∧ t.ctx n = s.ctx n := by
  induction l generalizing s with
  | nil => simp
  | cons x l ih =>
    obtain ⟨ha, hc⟩ := ih (joinQueue n a (op x) s)
    refine ⟨ha.trans ?_, hc.trans (State.ctx_onArr ..)⟩
    rw [joinQueue_arr, List.map_cons, List.append_assoc]
    rfl

/-- A pass leaves all of the array but its queue, which it may add to. -/
theorem doPass_arr (n a t k last pc : Nat) (s : State) :
    ∃ q, ((doPass n a t k last pc s).core n).arr a = { (s.core n).arr a with queue := q } := by
  unfold doPass
  dsimp only
  generalize passGroups (s.ctx n) a t k = l
  induction l generalizing s with
  | nil => exact ⟨_, rfl⟩
  | cons e l ih =>
    rw [List.foldl_cons]
    obtain ⟨q, hq⟩ := ih (if triggers e.2 = true then
        (span e.2.t e.2.n).foldl (fun s t => joinQueue n a (spillOp e.2 t last pc) s)
          (s.onCur n fun x => { x with groups := Tab.set x.groups e.1 { e.2 with count := 0 } })
      else s.onCur n fun x => { x with groups := Tab.set x.groups e.1 { e.2 with count := (e.2.count + 1) % 65536 } })
    refine ⟨q, hq.trans ?_⟩
    split
    · rw [(foldl_joinQueue n a (fun t => spillOp e.2 t last pc) _ _).1, State.arr_onCur]
    · rw [State.arr_onCur]

theorem takeInput_arr (n a cycles : Nat) (I : Inp) (s : State) :
    ((takeInput n a cycles I s).core n).arr a = { (s.core n).arr a with inp := some I, busy := I.t + cycles } :=
  State.arr_onArr_same ..

theorem swapIn_arr (n a : Nat) (sw : BitVec 1) (s : State) :
    ((swapIn n a sw s).core n).arr a =
      { (s.core n).arr a with active := if sw = 1 then ((s.core n).arr a).shadow else ((s.core n).arr a).active } := by
  unfold swapIn
  split
  · exact State.arr_onArr_same ..
  · rfl

theorem swapIn_icyc (n a : Nat) (sw : BitVec 1) (s : State) : ((swapIn n a sw s).core n).icyc = (s.core n).icyc := by
  unfold swapIn
  split
  · exact State.icyc_onArr ..
  · rfl

theorem swapIn_ctx (n a : Nat) (sw : BitVec 1) (s : State) : (swapIn n a sw s).ctx n = s.ctx n := by
  unfold swapIn
  split
  · exact State.ctx_onArr ..
  · rfl

end Sys2Proof.Machine

end

section
/-! SUPPORT. MCFG, MSEED, MLDW, MMUL, MPRE and MCLR at issue, and the passes of open groups (R72, R73, R76, R77, R82, R85). -/

namespace Sys2Proof.Machine

open Sys2Proof

/-- An MMUL leaves its array's input, and the active tile and queue that its pass leaves (R76, R77, R85). -/
theorem mmul_arr (n : Nat) (i : MmulF) (u : State) :
    let a := i.arr.toNat
    let W := if i.sw = 1 then ((u.core n).arr a).shadow else ((u.core n).arr a).active
    ∃ q, (((opMmul i).run n u u).core n).arr a =
      { (u.core n).arr a with
        active := W
        inp := some
          { t := (u.core n).icyc, next := 0, rows := i.rows.toNat + 1, v := rowInterval W, tile := i.t.toNat
            srs := (u.ctx n).srs a, kind := .mmul (aOff (u.ctx n) i.ax) (aOff (u.ctx n) i.asc), pc := (u.ctx n).pc }
        busy := (u.core n).icyc + rowInterval W * (i.rows.toNat + 1)
        queue := q } := by
  intro a W
  have hW : (((swapIn n a i.sw u).core n).arr a).active = W := by rw [swapIn_arr]
  dsimp only [opMmul]
  rw [hW, swapIn_icyc]
  obtain ⟨q, hq⟩ := doPass_arr n a i.t.toNat (ceilDiv (i.rows.toNat + 1) 16)
    ((u.core n).icyc + 20 + rowInterval W * (i.rows.toNat + 1 - 1)) (u.ctx n).pc
    (takeInput n a (rowInterval W * (i.rows.toNat + 1))
      { t := (u.core n).icyc, next := 0, rows := i.rows.toNat + 1, v := rowInterval W, tile := i.t.toNat
        srs := (u.ctx n).srs a, kind := .mmul (aOff (u.ctx n) i.ax) (aOff (u.ctx n) i.asc), pc := (u.ctx n).pc }
      (swapIn n a i.sw u))
  refine ⟨q, hq.trans ?_⟩
  rw [takeInput_arr, swapIn_arr]

/-- The effect of a pass of one group (R85): its count, and where that reaches the interval the spills of its tiles. -/
theorem doPass_one {n a t k key : Nat} {g : Group} {s : State} (h : passGroups (s.ctx n) a t k = [(key, g)]) (last pc : Nat) :
    let v := doPass n a t k last pc s
    (triggers g = false → ((v.core n).arr a).queue = ((s.core n).arr a).queue ∧
      (v.ctx n).groups = Tab.set (s.ctx n).groups key { g with count := (g.count + 1) % 65536 }) ∧
    (triggers g = true → ((v.core n).arr a).queue =
        ((s.core n).arr a).queue ++ (span g.t g.n).map (fun t => spillOp g t last pc) ∧
      (v.ctx n).groups = Tab.set (s.ctx n).groups key { g with count := 0 }) := by
  intro v
  have hv : v = if triggers g = true then
        (span g.t g.n).foldl (fun s t => joinQueue n a (spillOp g t last pc) s)
          (s.onCur n fun x => { x with groups := Tab.set x.groups key { g with count := 0 } })
      else s.onCur n fun x => { x with groups := Tab.set x.groups key { g with count := (g.count + 1) % 65536 } } := by
    simp only [v, doPass, h, List.foldl_cons, List.foldl_nil]
  rw [hv]
  refine ⟨fun ht => ?_, fun ht => ?_⟩
  · rw [ht, if_neg (by simp), State.arr_onCur, State.ctx_onCur]
    exact ⟨rfl, rfl⟩
  · obtain ⟨ha, hc⟩ := foldl_joinQueue n a (fun t => spillOp g t last pc) (span g.t g.n)
      (s.onCur n fun x => { x with groups := Tab.set x.groups key { g with count := 0 } })
    rw [if_pos ht, ha, hc, State.arr_onCur, State.ctx_onCur]
    exact ⟨rfl, rfl⟩

/-- An MMUL that touches the last tile of one group counts there (R85). -/
theorem mmul_pass {n key : Nat} {i : MmulF} {u : State} {g : Group}
    (h : passGroups (u.ctx n) i.arr.toNat i.t.toNat (ceilDiv (i.rows.toNat + 1) 16) = [(key, g)]) :
    let v := (opMmul i).run n u u
    let queue := ((v.core n).arr i.arr.toNat).queue
    let before := ((u.core n).arr i.arr.toNat).queue
    (triggers g = false → queue = before ∧
      (v.ctx n).groups = Tab.set (u.ctx n).groups key { g with count := (g.count + 1) % 65536 }) ∧
    (triggers g = true → ∃ last pc, queue = before ++ (span g.t g.n).map (fun t => spillOp g t last pc) ∧
      (v.ctx n).groups = Tab.set (u.ctx n).groups key { g with count := 0 }) := by
  have hc (cycles : Nat) (I : Inp) :
      (takeInput n i.arr.toNat cycles I (swapIn n i.arr.toNat i.sw u)).ctx n = u.ctx n :=
    (State.ctx_onArr ..).trans (swapIn_ctx ..)
  have hq (cycles : Nat) (I : Inp) :
      ((((takeInput n i.arr.toNat cycles I (swapIn n i.arr.toNat i.sw u)).core n).arr i.arr.toNat)).queue =
        ((u.core n).arr i.arr.toNat).queue := by
    rw [takeInput_arr, swapIn_arr]
  dsimp only [opMmul]
  obtain ⟨hcount, hspill⟩ := doPass_one ((hc _ _).symm ▸ h) _ _
  rw [hc, hq] at hcount hspill
  exact ⟨hcount, fun ht => ⟨_, _, hspill ht⟩⟩

theorem triggers_iff (g : Group) : triggers g = true ↔ g.interval ≠ 0 ∧ g.count + 1 = g.interval := by
  simp [triggers]

/-- The spills of a group's tiles, lowest first, each to its wide-sum tile (R83, R85). -/
theorem groupSpills (g : Group) (last pc : Nat) :
    let sp := (span g.t g.n).map (fun t => spillOp g t last pc)
    sp.map (fun o => o.tile) = (List.range g.n).map (fun j => g.t + j) ∧
      sp.map (fun o => o.wide) = (List.range g.n).map (fun j => g.wide + 2048 * j) ∧
      ∀ o ∈ sp, o.kind = .spill ∧ o.started = none := by
  simp only [span, List.map_map]
  refine ⟨rfl, List.map_congr_left fun j _ => ?_, fun o ho => ?_⟩
  · show g.wide + 2048 * (g.t + j - g.t) = _
    rw [Nat.add_sub_cancel_left]
  · obtain ⟨j, -, rfl⟩ := List.mem_map.1 ho
    exact ⟨rfl, rfl⟩

/-- Settles O9: each form by what its slot leaves in the array, the pass of one group by its two cases. -/
theorem matrixInstructionsAndPassesAtIssue : Obligations.MatrixInstructionsAndPassesAtIssue := by
  refine ⟨fun n s g e l i q c => ⟨?mcfg, ?mseed, fun h => ?mldw, fun h => ?mmul, fun h => ?mpre, fun h => ?mclr⟩,
    fun n s i key g => ?pass⟩
  case mcfg => exact atM_of_issues_one _ rfl
  case mseed => exact atM_of_issues_one _ rfl
  case mldw =>
    refine ⟨_, atM_issued h, ?_⟩
    rw [issued_arr]
    exact startLoad_arr ..
  case mmul =>
    refine ⟨_, atM_issued h, ?_⟩
    obtain ⟨q, hq⟩ := mmul_arr n i (fetched n s)
    rw [issued_arr]
    dsimp only [MIns.op]
    rw [hq]
    exact ⟨rfl, rfl, rfl⟩
  case mpre =>
    refine ⟨_, atM_issued h, ?_⟩
    rw [issued_arr]
    dsimp only [MIns.op, opMpre]
    rw [takeInput_arr]
    exact ⟨rfl, rfl⟩
  case mclr =>
    refine ⟨_, atM_issued h, ?_⟩
    rw [issued_arr]
    dsimp only [MIns.op, opMclr]
    rw [takeInput_arr]
    exact ⟨rfl, rfl⟩
  case pass =>
    intro u x site a h hp
    obtain ⟨hcount, hspill⟩ := mmul_pass (i := i) hp
    refine ⟨_, atM_issued h, fun ht => ?_, fun h0 h1 => ?_⟩
    · rw [issued_arr, issued_groups]
      exact hcount (eq_false_of_ne_true (mt (triggers_iff g).1 ht))
    · obtain ⟨last, pc, hq, hg⟩ := hspill ((triggers_iff g).2 ⟨h0, h1⟩)
      rw [issued_arr, issued_groups]
      exact ⟨hg, _, hq, groupSpills g last pc⟩

end Sys2Proof.Machine

end

section
/-! SUPPORT. Drains, groups and the sparse forms at issue (R83, R84, R86, R88, R117 to R125). -/

namespace Sys2Proof.Machine

open Sys2Proof

/-- A drain of wide sums issues only for a tile of an open group (R83, R88). -/
theorem mdrain_group {n : Nat} {d : MdrainF} {s : State} (h : issuesM n (.mdrain d) 0 0 0 s = true) (hw : d.w = 1) :
    (groupOfTile ((fetched n s).ctx n) d.arr.toNat d.t.toNat).isSome = true := by
  have he := exc_none_of_issuesM h
  rw [groupOfTile_fetched]
  dsimp only [MIns.op, opMdrain] at he
  split at he
  · cases he
  next hc =>
    simp only [Bool.not_eq_true', Bool.not_eq_false, Bool.and_eq_true, Bool.or_eq_true] at hc
    obtain ⟨⟨-, h0 | ⟨-, hg⟩⟩, -⟩ := hc
    · rw [hw] at h0
      cases h0
    · exact hg

/-- MSPILL issues only where each of its tiles is of an open group (R86). -/
theorem mspill_groups {n : Nat} {c : MtilesF} {s : State} (h : issuesM n (.mspill c) 0 0 0 s = true) :
    ∀ t ∈ span c.t.toNat (c.n.toNat + 1), (groupOfTile ((fetched n s).ctx n) c.arr.toNat t).isSome = true := by
  have he := exc_none_of_issuesM h
  intro t ht
  rw [groupOfTile_fetched]
  dsimp only [MIns.op, opMspill] at he
  split at he
  · cases he
  next hc =>
    simp only [Bool.not_eq_true', Bool.not_eq_false, Bool.and_eq_true, List.all_eq_true] at hc
    obtain ⟨⟨-, hg⟩, -⟩ := hc
    exact hg t ht

/-- Spills of tiles of open groups join the queue one after another. -/
theorem foldl_spills {n a pc : Nat} {x : Ctx} (l : List Nat) (s : State) (hl : ∀ t ∈ l, (groupOfTile x a t).isSome = true) :
    ∃ sp : List DrainOp,
      (((l.foldl (fun s t => match groupOfTile x a t with
        | some g => joinQueue n a (spillOp g t 0 pc) s
        | none => s) s).core n).arr a).queue = ((s.core n).arr a).queue ++ sp ∧
      sp.map (fun o => o.tile) = l ∧ ∀ o ∈ sp, o.kind = .spill ∧ o.started = none := by
  induction l generalizing s with
  | nil => exact ⟨[], by simp⟩
  | cons t l ih =>
    obtain ⟨g, hg⟩ := Option.isSome_iff_exists.1 (hl t List.mem_cons_self)
    obtain ⟨sp, hq, ht, hk⟩ := ih (joinQueue n a (spillOp g t 0 pc) s) fun t ht => hl t (List.mem_cons_of_mem _ ht)
    refine ⟨spillOp g t 0 pc :: sp, ?_, ?_, ?_⟩
    · rw [List.foldl_cons, hg]
      dsimp only
      rw [hq, joinQueue_arr, List.append_assoc]
      rfl
    · rw [List.map_cons, ht]
      rfl
    · simpa using ⟨⟨rfl, rfl⟩, hk⟩

/-- The fields of a group's 16-byte entry (R83). -/
theorem groupEntry_fields (e : Nat) :
    fld e 22 0 = e % 2 ^ 23 ∧ fld e 47 32 = e / 2 ^ 32 % 2 ^ 16 ∧ fld e 63 48 = e / 2 ^ 48 % 2 ^ 16 := by
  simp [fld_eq]

/-- A good header of an SMUL list: its base and its stride (R122). -/
theorem smulHeader_fields {h : Nat} (hz : h / 2 ^ 48 = 0) :
    fld h 127 48 = 0 ∧ fld h 47 32 = h / 2 ^ 32 ∧ fld h 31 0 = h % 2 ^ 32 := by
  simp only [fld_eq]
  omega

/-- An SMUL whose list has a good header: its input and its pass (R122, R123). -/
theorem opSmul_run_good {n : Nat} {i : SmulF} {u v : State} {W : WTile} {r : Rd}
    (hW : (((swapIn n i.arr.toNat i.sw u).core n).arr i.arr.toNat).active = W)
    (hr : spdRead 1 n (aOff (u.ctx n) i.ai) 16 (swapIn n i.arr.toNat i.sw u) = (r, v)) (hb : r.bad = [])
    (hz : leNat r.bytes / 2 ^ 48 = 0) (hs : 0 < leNat r.bytes / 2 ^ 32)
    (hle : rowBytes W + rowScales W ≤ leNat r.bytes / 2 ^ 32 * 32) :
    (opSmul i).run n u u =
      doPass n i.arr.toNat i.t.toNat (32 - i.t.toNat) ((v.core n).icyc + 20 + rowInterval W * (i.cnt.toNat + 1 - 1)) (u.ctx n).pc
        (takeInput n i.arr.toNat (rowInterval W * (i.cnt.toNat + 1))
          { t := (v.core n).icyc, next := 0, rows := i.cnt.toNat + 1, v := rowInterval W, tile := i.t.toNat
            srs := (u.ctx n).srs i.arr.toNat
            kind := .smul (aOff (u.ctx n) i.ax) (aOff (u.ctx n) i.ai) (leNat r.bytes % 2 ^ 32) (leNat r.bytes / 2 ^ 32) false
            pc := (u.ctx n).pc } v) := by
  obtain ⟨h127, h47, h31⟩ := smulHeader_fields hz
  have hwrong : (decide (fld (leNat r.bytes) 127 48 ≠ 0) || decide (fld (leNat r.bytes) 47 32 = 0) ||
      decide (fld (leNat r.bytes) 47 32 * 32 < rowBytes W + rowScales W)) = false := by
    simp only [h127, h47, Bool.or_eq_false_iff, decide_eq_false_iff_not]
    omega
  dsimp only [opSmul]
  rw [hr, hW]
  dsimp only
  rw [hwrong, hb, h31, h47]
  rfl

/-- What it leaves in its array. -/
theorem smul_arr {n : Nat} {i : SmulF} {u v : State} {W : WTile} {r : Rd}
    (hW : (if i.sw = 1 then ((u.core n).arr i.arr.toNat).shadow else ((u.core n).arr i.arr.toNat).active) = W)
    (hr : spdRead 1 n (aOff (u.ctx n) i.ai) 16 (swapIn n i.arr.toNat i.sw u) = (r, v)) (hb : r.bad = [])
    (hz : leNat r.bytes / 2 ^ 48 = 0) (hs : 0 < leNat r.bytes / 2 ^ 32)
    (hle : rowBytes W + rowScales W ≤ leNat r.bytes / 2 ^ 32 * 32) :
    ∃ q, (((opSmul i).run n u u).core n).arr i.arr.toNat =
      { (u.core n).arr i.arr.toNat with
        active := W
        inp := some
          { t := (u.core n).icyc, next := 0, rows := i.cnt.toNat + 1, v := rowInterval W, tile := i.t.toNat
            srs := (u.ctx n).srs i.arr.toNat
            kind := .smul (aOff (u.ctx n) i.ax) (aOff (u.ctx n) i.ai) (leNat r.bytes % 2 ^ 32) (leNat r.bytes / 2 ^ 32) false
            pc := (u.ctx n).pc }
        busy := (u.core n).icyc + rowInterval W * (i.cnt.toNat + 1)
        queue := q } := by
  have hreads := spdRead_reads 1 n (aOff (u.ctx n) i.ai) 16 (swapIn n i.arr.toNat i.sw u)
  rw [hr] at hreads
  have hicyc : (v.core n).icyc = (u.core n).icyc := hreads.icyc.trans (swapIn_icyc ..)
  have harr := (hreads.arr i.arr.toNat).trans (swapIn_arr ..)
  rw [opSmul_run_good (by rw [swapIn_arr, hW]) hr hb hz hs hle, hicyc]
  obtain ⟨q, hq⟩ := doPass_arr n i.arr.toNat i.t.toNat (32 - i.t.toNat)
    ((u.core n).icyc + 20 + rowInterval W * (i.cnt.toNat + 1 - 1)) (u.ctx n).pc (takeInput n i.arr.toNat _ _ v)
  refine ⟨q, hq.trans ?_⟩
  rw [takeInput_arr, harr, hW]

/-- An operation that joins at issue stands last in the queue. -/
theorem queue_issued_joinQueue (n pc a : Nat) (op : DrainOp) (u : State) :
    (((issued n pc (joinQueue n a op u)).core n).arr a).queue = ((u.core n).arr a).queue ++ [op] :=
  congrArg Arr.queue ((issued_arr ..).trans (joinQueue_arr ..))

/-- Settles O10: each form by what its slot joins to the queue or starts; the groups that MDRAIN and MSPILL need are those of
the checks. -/
theorem drainsGroupsAndSparseFormsAtIssue : Obligations.DrainsGroupsAndSparseFormsAtIssue := by
  refine ⟨fun n s d c g => ⟨fun h => ?mdrain, fun h => ?mspill, ?mgrpOpen, ?mgrpClose⟩,
    fun n s l i d m c w => ⟨fun h => ?mlds, fun h => ?smul, fun h => ?mdrs, fun h => ?smrg, fun h => ?scmp, fun h => ?strw⟩⟩
  case mdrain =>
    refine ⟨_, _, atM_issued h, queue_issued_joinQueue .., rfl, rfl, rfl, rfl, rfl, rfl, rfl, rfl, rfl, fun hw => ?_⟩
    obtain ⟨grp, hg⟩ := Option.isSome_iff_exists.1 (mdrain_group h hw)
    exact ⟨grp, hg, by rw [hg]; rfl⟩
  case mspill =>
    obtain ⟨sp, hq, ht, hk⟩ := foldl_spills (n := n) (pc := ((fetched n s).ctx n).pc) _ (fetched n s) (mspill_groups h)
    exact ⟨_, sp, atM_issued h, (congrArg Arr.queue (issued_arr ..)).trans hq, ht, hk⟩
  case mgrpOpen =>
    intro h
    refine atM_of_issues_one _ ?_ h
    obtain ⟨h22, h47, h63⟩ := groupEntry_fields
      (leNat (spdRead 1 n (aOff ((fetched n s).ctx n) g.tab) 16 (fetched n s)).1.bytes)
    rw [← h22, ← h47, ← h63]
    rfl
  case mgrpClose => exact atM_of_issues_one _ rfl
  case mlds =>
    refine ⟨_, atM_issued h, ?_⟩
    rw [issued_arr]
    obtain ⟨hwf, haf, hnm, hload, -⟩ := startLoad_arr n l.arr.toNat l.wf.toNat l.af.toNat (l.nm.toNat + 1)
      (aOff ((fetched n s).ctx n) l.aw) (aOff ((fetched n s).ctx n) l.asc) (aOff ((fetched n s).ctx n) l.am)
      ((fetched n s).ctx n).pc (fetched n s)
    exact ⟨hnm, hwf, haf, hload⟩
  case smul =>
    intro W rd hd hb hz hs hle
    obtain ⟨q, hq⟩ := smul_arr (i := i) rfl rfl hb hz hs hle
    refine ⟨_, atM_issued h, ?_⟩
    rw [issued_arr]
    dsimp only [MIns.op]
    rw [hq]
    exact ⟨rfl, rfl, rfl⟩
  case mdrs =>
    exact ⟨_, _, atM_issued h, queue_issued_joinQueue .., rfl, rfl, rfl, rfl, rfl, rfl, rfl, rfl, rfl, rfl, rfl⟩
  case smrg =>
    exact ⟨_, _, atM_issued h, queue_issued_joinQueue .., rfl, rfl, rfl, rfl, rfl, rfl, rfl⟩
  case scmp =>
    exact ⟨_, _, atM_issued h, queue_issued_joinQueue .., rfl, rfl, rfl, rfl, rfl, rfl, rfl, rfl⟩
  case strw =>
    exact ⟨_, _, atM_issued h, queue_issued_joinQueue .., rfl, rfl, rfl, rfl, rfl, rfl, rfl⟩

end Sys2Proof.Machine

end

section
/-! SUPPORT. What arrays, drain units, generators and scratchpad do behind the issue of bundles (R70, R76, R87, R106, R134, R143). -/

namespace Sys2Proof.Machine

open Sys2Proof

/-! Tables after a run of writes, and after the removal of a range. -/

theorem Tab.get_delRange_inside {α : Type} (d : α) {t : Tab α} {lo len k : Nat} (h : lo ≤ k) (h' : k < lo + len) :
    Tab.get d (Tab.delRange t lo len) k = d :=
  Tab.get_filter_drop _ _ _ _ (by simp [h, h'])

theorem Tab.get_delRange_outside {α : Type} (d : α) {t : Tab α} {lo len k : Nat} (h : k < lo ∨ lo + len ≤ k) :
    Tab.get d (Tab.delRange t lo len) k = Tab.get d t k :=
  Tab.get_filter_keep _ _ _ _ fun _ => by
    simp only [Bool.not_eq_true', Bool.and_eq_false_iff, decide_eq_false_iff_not]
    omega

section
variable {α β : Type} [DecidableEq α] (d : α) (key : β → Nat) (val : β → α)

/-- Elements of a list put one after another. -/
def Tab.putAll (l : List β) (t : Tab α) : Tab α := l.foldl (fun t e => Tab.put d t (key e) (val e)) t

theorem Tab.get_putAll_other {l : List β} {k : Nat} (t : Tab α) (h : ∀ e ∈ l, k ≠ key e) :
    Tab.get d (Tab.putAll d key val l t) k = Tab.get d t k := by
  induction l generalizing t with
  | nil => rfl
  | cons e l ih =>
    exact (ih _ fun f hf => h f (List.mem_cons_of_mem _ hf)).trans (Tab.get_put_other _ _ _ _ _ (h e List.mem_cons_self))

/-- Where all the elements of a key agree, it holds their value. -/
theorem Tab.get_putAll_same {l : List β} {e : β} (t : Tab α) (hv : ∀ f ∈ l, key f = key e → val f = val e)
    (he : e ∈ l) :
    Tab.get d (Tab.putAll d key val l t) (key e) = val e := by
  induction l generalizing t e with
  | nil => cases he
  | cons f l ih =>
    have hv' : ∀ g ∈ l, key g = key e → val g = val e := fun g hg => hv g (List.mem_cons_of_mem _ hg)
    by_cases hk : ∃ g ∈ l, key g = key e
    · obtain ⟨g, hg, hge⟩ := hk
      rw [← hge, ← hv' g hg hge]
      exact ih _ (fun x hx hxg => (hv' x hx (hxg.trans hge)).trans (hv' g hg hge).symm) hg
    · have hef : key f = key e := by
        rcases List.mem_cons.1 he with rfl | he
        · rfl
        · exact absurd ⟨e, he, rfl⟩ hk
      have ho : ∀ g ∈ l, key e ≠ key g := fun g hg h => hk ⟨g, hg, h.symm⟩
      rw [Tab.putAll, List.foldl_cons, ← Tab.putAll, Tab.get_putAll_other d key val _ ho, ← hef, Tab.get_put_same]
      exact hv f List.mem_cons_self hef

end

/-! The bytes of a part of a shadow load (R76). -/

theorem foldl_pair {α β γ : Type} (f : α → γ → α) (g : β → γ → β) (l : List γ) (x : α) (y : β) :
    l.foldl (fun (p : α × β) e => (f p.1 e, g p.2 e)) (x, y) = (l.foldl f x, l.foldl g y) := by
  induction l generalizing x y with
  | nil => rfl
  | cons e l ih => exact ih _ _

theorem fillPart_eq (tb : Tab Byte) (tp : Tab Bool) (at_ base : Nat) (r : Rd) :
    fillPart tb tp at_ base r =
      (Tab.putAll 0 (fun e => at_ + e.2) (fun e => e.1) r.bytes.zipIdx tb,
        Tab.putAll false (fun e => at_ + e.2) (fun e => r.badAt (base + e.2) 1) r.bytes.zipIdx tp) :=
  foldl_pair (fun t (e : Byte × Nat) => Tab.put 0 t (at_ + e.2) e.1)
    (fun t e => Tab.put false t (at_ + e.2) (r.badAt (base + e.2) 1)) _ _ _

/-- A part holds the bytes read for it with their poison, and all else stands. -/
theorem fillPart_takes (tb : Tab Byte) (tp : Tab Bool) (at_ base : Nat) (r : Rd) :
    let f := fillPart tb tp at_ base r
    (∀ j, j < r.bytes.length →
      Tab.get 0 f.1 (at_ + j) = nth 0 r.bytes j ∧ Tab.get false f.2 (at_ + j) = r.badAt (base + j) 1) ∧
      (∀ i, (i < at_ ∨ at_ + r.bytes.length ≤ i) →
        Tab.get 0 f.1 i = Tab.get 0 tb i ∧ Tab.get false f.2 i = Tab.get false tp i) := by
  rw [fillPart_eq]
  refine ⟨fun j hj => ?_, fun i hi => ?_⟩
  · have he : (r.bytes[j], j) ∈ r.bytes.zipIdx := List.mem_zipIdx_iff_getElem?.2 (List.getElem?_eq_getElem hj)
    have hn : nth 0 r.bytes j = r.bytes[j] := List.getD_eq_getElem _ _ hj
    refine ⟨(Tab.get_putAll_same 0 _ _ tb (fun f hf hk => ?_) he).trans hn.symm,
      Tab.get_putAll_same false _ (fun e : Byte × Nat => r.badAt (base + e.2) 1) tp (fun f hf hk => ?_) he⟩
    · obtain ⟨b, k⟩ := f
      obtain rfl : k = j := Nat.add_left_cancel hk
      have hb := List.mem_zipIdx_iff_getElem?.1 hf
      rw [List.getElem?_eq_getElem hj] at hb
      exact (Option.some.inj hb).symm
    · dsimp only at hk ⊢
      rw [Nat.add_left_cancel hk]
  · have hne : ∀ e ∈ r.bytes.zipIdx, i ≠ at_ + e.2 := by
      intro e he
      obtain ⟨hlt, -⟩ := List.getElem?_eq_some_iff.1 (List.mem_zipIdx_iff_getElem?.1 he)
      omega
    exact ⟨Tab.get_putAll_other 0 _ _ tb hne, Tab.get_putAll_other false _ _ tp hne⟩

/-- A part of a load whose cycle has passed is written, and one whose cycle has not is not. -/
theorem partNow_of_due {n a : Nat} {s : State} {L : Load} (h : ((s.core n).arr a).load = some L)
    (ht : L.t + 1 + L.next < (s.core n).icyc) : partNow n a s = shadowPart n a s := by
  unfold partNow
  rw [h]
  exact if_pos ht

theorem partNow_of_later {n a : Nat} {s : State}
    (h : ((s.core n).arr a).load.all (fun L => decide ((s.core n).icyc ≤ L.t + 1 + L.next)) = true) : partNow n a s = s := by
  unfold partNow
  split
  next L hL =>
    rw [hL, Option.all_some, decide_eq_true_eq] at h
    exact if_neg (by omega)
  · rfl

/-! Accumulator writes (R70, R77). -/

theorem State.onArr_congr {s : State} {n a : Nat} {f g : Arr → Arr} (h : f ((s.core n).arr a) = g ((s.core n).arr a)) :
    s.onArr n a f = s.onArr n a g := by
  have hc : (s.core n).onArr a f = (s.core n).onArr a g := by
    unfold Core.onArr
    unfold Core.arr at h
    split
    next h0 => rw [if_pos h0] at h; rw [h]
    next h0 => rw [if_neg h0] at h; rw [h]
  exact congrArg (fun c => ({ s with cores := Tab.set s.cores n c } : State)) hc

/-- Of rows of which the first is due before the others that row alone is performed. -/
theorem rowsUpTo_first {n a : Nat} {s : State} {o : RowOp} {rest : List RowOp} (h : ((s.core n).arr a).rows = o :: rest)
    (hr : ∀ r ∈ rest, o.due < r.due) :
    rowsUpTo n a o.due s = applyRow n a o (s.onArr n a (fun A => { A with rows := rest })) := by
  have hdue : (o :: rest).filter (fun r => decide (r.due ≤ o.due)) = [o] := by
    rw [List.filter_cons_of_pos (by simp), List.filter_eq_nil_iff.2 fun r hm => ?_]
    simpa using hr r hm
  have hlater : (o :: rest).filter (fun r => !decide (r.due ≤ o.due)) = rest := by
    rw [List.filter_cons_of_neg (by simp), List.filter_eq_self.2 fun r hm => ?_]
    simpa using hr r hm
  have hrows : s.onArr n a (fun A => { A with rows := A.rows.filter (fun r => !decide (r.due ≤ o.due)) }) =
      s.onArr n a (fun A => { A with rows := rest }) := State.onArr_congr (by rw [h, hlater])
  unfold rowsUpTo
  rw [h, hdue, hrows]
  rfl

theorem accumulateNow_first {n a : Nat} {s : State} {o : RowOp} {rest : List RowOp} (hi : ((s.core n).arr a).inp = none)
    (h : ((s.core n).arr a).rows = o :: rest) (hr : ∀ r ∈ rest, o.due < r.due)
    (hd : o.due < (s.core n).icyc ∨ streamStands (s.core n) = true) :
    accumulateNow n a s = applyRow n a o (s.onArr n a (fun A => { A with rows := rest })) := by
  have hc : (streamStands (s.core n) || decide (o.due < (s.core n).icyc)) = true := by
    simpa [Or.comm] using hd
  unfold accumulateNow
  dsimp only
  rw [hi, h]
  exact (if_pos hc).trans (rowsUpTo_first h hr)

theorem accumulateNow_nothing {n a : Nat} {s : State} (hi : ((s.core n).arr a).inp = none)
    (h : ((s.core n).arr a).rows = []) : accumulateNow n a s = s := by
  unfold accumulateNow
  dsimp only
  rw [hi, h]

/-! The start and the end of a drain (R87). -/

/-- An operation that starts its read phase holds the tile as it stands. -/
def DrainOp.reading (n a : Nat) (s : State) (o : DrainOp) : DrainOp :=
  { o with
    started := some (s.panel (panelOf n)).cyc
    cap := (List.range 256).map (fun e => Tab.get 0 (s.ctx n).acc (accKey a o.tile 0 e))
    capP := (List.range 16).map (fun i => Tab.get false (s.ctx n).accp (accRow a o.tile i))
    rands := [], inBytes := [], inBad := [] }

/-- The running context once the operation has taken its tile. -/
def DrainOp.leaves (a : Nat) (o : DrainOp) (x : Ctx) : Ctx :=
  if (clearTile a o.tile x).indexed then clearTile a o.tile x
  else { clearTile a o.tile x with dirty := Tab.put false (clearTile a o.tile x).dirty a false }

theorem drainStart_of_ready {n a : Nat} {s : State} {o : DrainOp} {rest : List DrainOp}
    (h : ((s.core n).arr a).queue = o :: rest) (hs : o.started = none)
    (hr : drainReady (s.panel (panelOf n)).cyc ((s.core n).arr a) o = true) :
    let v := s.onArr n a (fun _ => { (s.core n).arr a with queue := o.reading n a s :: rest })
    drainStart n a s = if o.cl || o.kind == .spill then v.onCur n (o.leaves a) else v := by
  unfold drainStart
  dsimp only
  rw [h]
  dsimp only
  rw [hs, hr]
  rfl

/-- What a cleared tile holds, and what it leaves (R89). -/
theorem clearTile_acc (a t : Nat) (x : Ctx) :
    (∀ i j, i < 16 → j < 16 →
      (Tab.get 0 (clearTile a t x).acc (accKey a t i j) : W32) = 0 ∧
        Tab.get false (clearTile a t x).accp (accRow a t i) = false) ∧
    (∀ e, (e < accKey a t 0 0 ∨ accKey a t 0 0 + 256 ≤ e) →
      (Tab.get 0 (clearTile a t x).acc e : W32) = Tab.get 0 x.acc e) := by
  refine ⟨fun i j hi hj => ⟨Tab.get_delRange_inside 0 ?_ ?_, Tab.get_delRange_inside false ?_ ?_⟩,
    fun e he => Tab.get_delRange_outside 0 he⟩ <;>
    (simp only [accKey, accRow]; omega)

theorem DrainOp.leaves_acc (a : Nat) (o : DrainOp) (x : Ctx) :
    (o.leaves a x).acc = (clearTile a o.tile x).acc ∧ (o.leaves a x).accp = (clearTile a o.tile x).accp := by
  unfold DrainOp.leaves
  split
  · exact ⟨rfl, rfl⟩
  · exact ⟨rfl, rfl⟩

theorem drainStart_of_not_ready {n a : Nat} {s : State}
    (h : ((s.core n).arr a).queue.head?.all
      (fun o => o.started.isSome || !drainReady (s.panel (panelOf n)).cyc ((s.core n).arr a) o) = true) :
    drainStart n a s = s := by
  unfold drainStart
  dsimp only
  split
  · rfl
  next o rest hq =>
    rw [hq] at h
    exact if_pos h

theorem drainDone_of_due {n a p : Nat} {s : State} {o : DrainOp} {rest : List DrainOp}
    (h : ((s.core n).arr a).queue = o :: rest) (hs : o.started = some p) (hp : p + drainTime o ≤ (s.panel (panelOf n)).cyc) :
    drainDone n a s = emitOp n a o (s.onArr n a (fun A => { A with queue := rest })) := by
  unfold drainDone
  rw [h]
  dsimp only
  rw [hs]
  exact if_neg (by omega)

theorem drainDone_of_later {n a : Nat} {s : State}
    (h : ((s.core n).arr a).queue.head?.all
      (fun o => o.started.all (fun p => decide ((s.panel (panelOf n)).cyc < p + drainTime o))) = true) :
    drainDone n a s = s := by
  unfold drainDone
  split
  · rfl
  next o rest hq =>
    rw [hq, List.head?_cons, Option.all_some] at h
    split
    · rfl
    next p hp =>
      rw [hp, Option.all_some, decide_eq_true_eq] at h
      exact if_pos h

/-! A panel cycle touches of a panel its cycle count, its sequencer and its hub (R73, R106). -/

theorem gmeEvent_panels (n kind count pc : Nat) (s : State) : (gmeEvent n kind count pc s).panels = s.panels := by
  rcases gmeEvent_cases n kind count pc s with e | ⟨f, e | e⟩ <;> rw [e] <;> rfl

theorem inputEvents_panels (n : Nat) (op : DrainOp) (s : State) : (inputEvents n op s).panels = s.panels := by
  unfold inputEvents
  dsimp only
  split
  · exact gmeEvent_panels ..
  · exact foldl_fix State.panels (fun t e _ => (gmeEvent_panels ..).trans (gmeEvent_panels ..)) s
  · exact gmeEvent_panels ..
  · exact gmeEvent_panels ..
  · rfl

theorem readInput_panels (n a i : Nat) (op : DrainOp) (rest : List DrainOp) (s : State) :
    (readInput n a i op rest s).panels = s.panels := by
  unfold readInput
  dsimp only
  split
  · rfl
  · split
    · exact (inputEvents_panels ..).trans (readLine_panels ..)
    · exact readLine_panels ..

theorem storeLine_panels (n l : Nat) (bs : List (Nat × Byte)) (pois : Bool) (s : State) :
    (storeLine n l bs pois s).panels = s.panels := by
  have hm : (materialise n l s).panels = s.panels := by
    unfold materialise
    dsimp only
    split <;> rfl
  unfold storeLine
  exact hm

theorem onHead_panels (n a : Nat) (f : DrainOp → DrainOp) (s : State) : (onHead n a f s).panels = s.panels := rfl

theorem smrgRow_panels (n a : Nat) (op : DrainOp) (s : State) (j : Nat) : (smrgRow n a op s j).panels = s.panels := by
  unfold smrgRow
  dsimp only
  split
  · rfl
  next off _ =>
    have hr : (spdRead 1 n off 64 s).2.panels = s.panels := spdRead_panels ..
    split
    · rfl
    · split
      · rw [onHead_panels]
        split <;> exact hr
      · rw [onHead_panels, storeLine_panels]
        split <;> exact hr

theorem drainTick_panels (n a : Nat) (s : State) : (drainTick n a s).panels = s.panels := by
  unfold drainTick
  dsimp only
  split
  · rfl
  · split
    · rfl
    · split
      · rw [smrgRow_panels]
        split
        · exact readInput_panels ..
        · rfl
      · split
        · exact readInput_panels ..
        · rfl

theorem Own.cyc {n : Nat} {s t : State} (h : Own n s t) (p : Nat) : (t.panel p).cyc = (s.panel p).cyc := by
  obtain ⟨q, H, e, -⟩ := h.panels p
  rw [e]

theorem panel_of_panels {s t : State} (h : t.panels = s.panels) (p : Nat) : t.panel p = s.panel p := by
  rw [State.panel, h, State.panel]

theorem coreCycle_cyc (n p : Nat) (s : State) : ((coreCycle n s).panel p).cyc = (s.panel p).cyc := by
  unfold coreCycle
  split
  · rfl
  · rw [(Own.haltTry (.refl _)).cyc, State.panel_onCore_apart, panel_of_panels (drainTick_panels ..),
      panel_of_panels (drainTick_panels ..), (Own.drainCycle (.refl s)).cyc]

theorem panelCycle_active {p : Nat} {s : State} (ha : (s.panel p).power = .active) (hl : (s.panel p).lost = false)
    (hs : (s.panel p).shorted = false) : ((panelCycle p s).panel p).cyc = (s.panel p).cyc + 1 := by
  unfold panelCycle
  dsimp only
  rw [if_neg (by simp [ha, hl, hs]), State.panel_onPanel_same]
  exact congrArg (· + 1) (foldl_fix (fun t => (t.panel p).cyc) (fun t n _ => coreCycle_cyc n p t) s)

/-! The write-back of a corrected line and zeroization (R134, R143). -/

theorem memBytes_memPutBytes (m : List Host.Cell) (k : Nat) (l : List Byte) :
    memBytes (memPutBytes m k l) k l.length = l := by
  refine List.ext_getElem (by simp [memBytes]) fun i hi hl => ?_
  simpa [memBytes] using memGet_memPutBytes_same l m k i hl

/-- The write-back of a corrected line (R134). -/
theorem writeBackNow_of_waiting {n l : Nat} {s : State} {w : WriteBack}
    (h : (s.core n).wb.find? (fun v => v.line == l) = some w) :
    let v := s.onCore n (fun c => { c with wb := c.wb.filter (fun w => w.line != l) })
    writeBackNow n l s = ({ v with mem := memPutBytes s.mem (spdKey n (64 * l)) w.data } : State).putLine n l
      { s.line n l with chk := checkBits w.data, lchk := lineCheck w.data, checked := true } := by
  unfold writeBackNow
  rw [h]
  rfl

/-- Zeroization of a core that holds no context (R143). -/
theorem zeroizeNow_of_empty {n : Nat} {s : State} (hn : n < 35328) (hd : isDead s n = false) (hr : (s.core n).residents = false) :
    zeroizeNow n s = zeroizeCore n s := by
  unfold zeroizeNow
  rw [if_neg]
  simp [hd, hr, hn]

theorem line_zeroizeCore {n l : Nat} (s : State) (hl : l < 0x18000) : (zeroizeCore n s).line n l = Line.zero := by
  refine Tab.get_delRange_inside _ ?_ ?_ <;> (unfold lineKey; omega)

theorem spdKey_add (n o : Nat) : spdKey n o = spdKey n 0 + o := by rw [spdKey, spdKey, Nat.add_zero]

/-- Settles O21: each command by what it does when its work is due, and by its doing nothing when none is. -/
theorem arraysAndScratchpadWorkBehindIssue : Obligations.ArraysAndScratchpadWorkBehindIssue := by
  refine ⟨fun n a s hn ha => ⟨fun L hL ht => ?part, fun h => ?noPart, fun o rest hi h hr hd => ?row, fun hi h => ?noRow,
    fun o rest h hs hr => ?start, fun h => ?noStart, fun o rest p h hs hp => ?emit, fun h => ?noEmit, fun p hp => ?cycle⟩,
    fun n s hn => ⟨fun l w hw hlen => ?writeBack, fun hd hr => ?zeroize⟩⟩
  case part =>
    refine ⟨_, (congrArg goes (if_pos ⟨hn, ha⟩)).trans (congrArg goes (partNow_of_due hL ht)), ?_⟩
    rw [shadowPart_arr hL]
    exact ⟨rfl, rfl, fillPart_takes .., fillPart_takes .., fillPart_takes .., rfl, rfl, rfl⟩
  case noPart => exact congrArg goes ((if_pos ⟨hn, ha⟩).trans (partNow_of_later h))
  case row => exact congrArg goes ((if_pos ⟨hn, ha⟩).trans (accumulateNow_first hi h hr hd))
  case noRow => exact congrArg goes ((if_pos ⟨hn, ha⟩).trans (accumulateNow_nothing hi h))
  case start =>
    refine ⟨_, o.reading n a s, congrArg goes ((if_pos ⟨hn, ha⟩).trans (drainStart_of_ready h hs hr)), ?_⟩
    obtain ⟨hacc, haccp⟩ := o.leaves_acc a (s.ctx n)
    obtain ⟨hzero, hother⟩ := clearTile_acc a o.tile (s.ctx n)
    by_cases hc : (o.cl || o.kind == .spill) = true
    · rw [if_pos hc, State.arr_onCur, State.arr_onArr_same, State.ctx_onCur, State.ctx_onArr, hacc, haccp]
      refine ⟨rfl, rfl, rfl, rfl, rfl, rfl, fun hcl hk => ?_, fun _ => ⟨hzero, hother⟩⟩
      simp [hcl, hk] at hc
    · rw [if_neg hc, State.arr_onArr_same, State.ctx_onArr]
      refine ⟨rfl, rfl, rfl, rfl, rfl, rfl, fun _ _ => ⟨rfl, rfl⟩, fun ht => absurd ?_ hc⟩
      simpa using ht
  case noStart => exact congrArg goes ((if_pos ⟨hn, ha⟩).trans (drainStart_of_not_ready h))
  case emit => exact congrArg goes ((if_pos ⟨hn, ha⟩).trans (drainDone_of_due h hs hp))
  case noEmit => exact congrArg goes ((if_pos ⟨hn, ha⟩).trans (drainDone_of_later h))
  case cycle =>
    refine ⟨fun hact hl hs => ⟨_, congrArg goes (if_pos hp), panelCycle_active hact hl hs⟩, fun h => ?_⟩
    exact congrArg goes ((if_pos hp).trans (if_pos h))
  case writeBack =>
    refine ⟨_, congrArg goes ((if_pos hn).trans (writeBackNow_of_waiting hw)), ?_, State.line_putLine_same .., fun v hv => ?_,
      fun a ha => memGet_memPutBytes_other _ _ _ _ (hlen.symm ▸ ha)⟩
    · rw [State.putLine_mem, ← hlen]
      exact memBytes_memPutBytes ..
    · change v ∈ ((s.onCore n (fun c => { c with wb := c.wb.filter (fun w => w.line != l) })).core n).wb at hv
      rw [State.core_onCore_same] at hv
      simpa using (List.mem_filter.1 hv).2
  case zeroize =>
    refine ⟨_, congrArg goes ((if_pos hn).trans (zeroizeNow_of_empty hn hd hr)), fun o ho => ?_,
      fun l hl => line_zeroizeCore s hl, ?_, ?_, fun a ha => memGet_delRange_other ha⟩
    · have e := spdKey_add n o
      exact memGet_delRange_inside (by omega) (by omega)
    · unfold zeroizeCore
      rw [State.core_onCore_same]
    · unfold zeroizeCore
      rw [State.core_onCore_same]

end Sys2Proof.Machine

end

section
/-! SUPPORT. A counterexample to what an MDRAIN leaves of the queue: an SMRG behind it notes its writes (R87, R88, R124). -/

namespace Sys2Proof.Machine

open Sys2Proof

/-! An SMRG that waits in a queue notes every write of the scratchpad (R124). -/

/-- Every SMRG in the queue of array `a` has noted some line. -/
def SmrgsNoted (n a : Nat) (s : State) : Prop := ∀ o ∈ ((s.core n).arr a).queue, o.kind = .smrg → o.hit ≠ []

theorem SmrgsNoted.of_queue {n a : Nat} {s t : State} (h : SmrgsNoted n a s)
    (e : ((t.core n).arr a).queue = ((s.core n).arr a).queue) : SmrgsNoted n a t := by
  unfold SmrgsNoted
  rw [e]
  exact h

theorem noteHit_noted (l : Nat) (old : List Byte) (A : Arr) :
    ∀ o ∈ (noteHit l old A).queue, o.kind = .smrg → o.hit ≠ [] := by
  intro o ho hk
  obtain ⟨q, -, rfl⟩ := List.mem_map.1 ho
  by_cases hc : q.kind = .smrg ∧ (!q.hit.any (fun h => h.1 == l)) = true
  · rw [if_pos hc]
    simp
  · rw [if_neg hc] at hk ⊢
    intro he
    exact hc ⟨hk, by rw [he]; rfl⟩

theorem noteStore_noted (n a l : Nat) (s : State) : SmrgsNoted n a (noteStore n l s) := by
  unfold noteStore
  split
  · unfold SmrgsNoted
    rw [State.core_onCore_same]
    unfold Core.arr
    split
    · exact noteHit_noted _ _ _
    · exact noteHit_noted _ _ _
  next hc =>
    simp only [Bool.or_eq_true, List.any_eq_true, beq_iff_eq, not_or, not_exists, not_and] at hc
    obtain ⟨h0, h1⟩ := hc
    intro o ho hk
    unfold Core.arr at ho
    split at ho
    · exact absurd hk (h0 o ho)
    · exact absurd hk (h1 o ho)

theorem materialise_arr (n a l : Nat) (s : State) : ((materialise n l s).core n).arr a = (s.core n).arr a := by
  unfold materialise
  split
  · rfl
  · dsimp only
    rw [State.core_onCore_same]
    rfl

theorem storeLine_arr (n a l : Nat) (bs : List (Nat × Byte)) (pois : Bool) (s : State) :
    ((storeLine n l bs pois s).core n).arr a = (s.core n).arr a := by
  unfold storeLine
  dsimp only
  rw [State.core_onCore_same]
  exact materialise_arr n a l s

theorem writeLine_noted (n a l : Nat) (bs : List (Nat × Byte)) (pois : Bool) (s : State) :
    SmrgsNoted n a (writeLine n l bs pois s) :=
  (noteStore_noted n a l s).of_queue (congrArg Arr.queue (storeLine_arr ..))

theorem spdWrite_noted {n a : Nat} {pairs : List (Nat × Byte)} {b : Nat × Byte} (hb : b ∈ pairs) (hs : b.1 < spdSize)
    (pois : List Nat) (s : State) : SmrgsNoted n a (spdWrite n pairs pois s) :=
  foldl_brings (I := fun _ => True) (P := SmrgsNoted n a)
    (mem_lineList (List.mem_filter.2 ⟨hb, decide_eq_true hs⟩)) (fun _ _ _ => trivial)
    (fun _ _ => writeLine_noted _ _ _ _ _ _) (fun _ _ _ => writeLine_noted _ _ _ _ _ _) trivial

/-! The results of an MDRAIN are such a write (R88). -/

theorem setFlag_arr (n a : Nat) (s : State) : ((setFlag n s).core n).arr a = (s.core n).arr a := by
  rw [setFlag, State.core_onCore_same]
  rfl

/-- Without wide sums nothing that follows the conversion touches an array. -/
theorem drainTail_arr {n a b : Nat} {op : DrainOp} (hw : op.w = false) (rowP : List Bool) (anyP flag : Bool) (s : State) :
    ((drainTail n b op rowP anyP flag s).core n).arr a = (s.core n).arr a := by
  have hcount (f : Counts → Counts) : ((if anyP = true then s.onCounts n f else s).core n).arr a = (s.core n).arr a := by
    split
    · exact State.arr_onCounts ..
    · rfl
  unfold drainTail
  simp only [hw, Bool.false_and, Bool.false_eq_true, if_false]
  split
  · exact (setFlag_arr ..).trans (hcount _)
  · exact hcount _

theorem packVals_length (b : Nat) (l : List Nat) : (packVals b l).length = l.length * b := by
  simp [packVals, List.length_flatMap, leBytes_length]

theorem outBytes_pos (fmt : Nat) : 0 < outBytes fmt := by
  unfold outBytes
  split <;> decide

/-- The first byte of consecutive ones goes to their offset. -/
theorem exists_mem_atOff {off : Nat} {data : List Byte} (h : 0 < data.length) : ∃ v, (off, v) ∈ atOff off data :=
  ⟨data[0], mem_atOff.2 ⟨0, List.getElem?_eq_getElem h, rfl⟩⟩

theorem emitMdrain_noted {n a b : Nat} {op : DrainOp} (hw : op.w = false) (hd : op.dst < spdSize) (s : State) :
    SmrgsNoted n a (emitMdrain n b op s) := by
  unfold emitMdrain drainValues
  rw [if_neg (by simp [hw])]
  dsimp only
  obtain ⟨v, hv⟩ := exists_mem_atOff (off := op.dst) (data := packVals (outBytes op.fmt) (((List.range 256).map fun e =>
    (outFmt op.fmt).enc (if op.rnd then .stoch (nth 0 op.rands e) else .even) (x32 (nth 0 op.cap e))).map (·.1))) (by
      rw [packVals_length, List.length_map, List.length_map, List.length_range]
      have := outBytes_pos op.fmt
      omega)
  exact (spdWrite_noted hv hd _ s).of_queue (congrArg Arr.queue (drainTail_arr hw _ _ _ _))

/-- An MDRAIN of a tile of zeros to offset 0 whose panel cycles have passed. -/
def doneDrain : DrainOp :=
  { DrainOp.blank .mdrain 0 0 0 with started := some 0, cap := List.replicate 256 0, capP := List.replicate 16 false }

/-- An SMRG that waits. -/
def waitingMerge : DrainOp := DrainOp.blank .smrg 0 0 0

/-- Core 0 with that SMRG behind that MDRAIN in the queue of array 0. -/
def mergeBehindDrain : State :=
  (State.reset.onPanel 0 (fun P => { P with cyc := 16 })).onArr 0 0 (fun A => { A with queue := [doneDrain, waitingMerge] })

/-- Refutes O50: its clause on the end of an MDRAIN says that the operations behind it stay as they were, while an SMRG among
them notes the lines that the MDRAIN writes, so that its own adds go on from what they held (R124). -/
theorem not_arraysComputeTheirSums : ¬ Obligations.ArraysComputeTheirSums := by
  intro h
  obtain ⟨hcore, -⟩ := h
  obtain ⟨-, -, hends⟩ := hcore 0 0 mergeBehindDrain (by decide) (by decide)
  have hqueue : ((mergeBehindDrain.core 0).arr 0).queue = [doneDrain, waitingMerge] := rfl
  have hcyc : 0 + drainTime doneDrain ≤ (mergeBehindDrain.panel (panelOf 0)).cyc := by decide
  obtain ⟨hdrain, -⟩ := hends doneDrain [waitingMerge] 0 hqueue rfl hcyc rfl
  obtain ⟨t, ht, hrest, -⟩ := hdrain rfl (by decide) rfl (Nat.le_of_ble_eq_true rfl) nofun nofun
  have hemit : goes (emitMdrain 0 0 doneDrain (mergeBehindDrain.onArr 0 0 fun A => { A with queue := [waitingMerge] })) =
      goes t :=
    (congrArg goes ((if_pos ⟨by decide, by decide⟩).trans (drainDone_of_due hqueue rfl hcyc))).symm.trans ht
  injection hemit with hemit
  have hnoted : SmrgsNoted 0 0 t := hemit ▸ emitMdrain_noted rfl (by decide) _
  exact hnoted waitingMerge (hrest ▸ List.mem_singleton_self _) rfl rfl

end Sys2Proof.Machine

end
